-- ==== Sys2Proof/Word.lean ====
section
/-!
DEFINITION. Word.lean: the word type of the register map (R40) and the association lists in which
State keeps sparse data. Nothing here carries a rule of the spec; the operations over these types
stand in Machine/Assoc.lean.
-/
namespace Sys2Proof

/-- A register of the CX-1240: 32 bits, little-endian (R40). -/
abbrev Word := BitVec 32

/-- A byte of device memory. -/
abbrev Byte := BitVec 8

/-- Sparse data by key, keys strictly rising, no entry equal to what an unlisted key reads as. -/
abbrev Assoc (α : Type) := List (Nat × α)

end Sys2Proof
end

