-- ==== Sys2Proof/Syntax.lean ====
section
/-!
DEFINITION. Syntax.lean: the commands of the CX-1240 block, one constructor of `Instr` per row of
spec/opcode_table.json, with the operand types they use.
-/
namespace Sys2Proof

/-- The masters of the register fabric (R41). -/
inductive Master where
  | heartwood
  | surveyor
  | sapwood
  | func (f : Fin 64)
deriving DecidableEq, Repr

/-- The register pages of PF BAR0 (R80), and the layer blocks of the LAYERS pages (R78). -/
inductive Page where
  | dev | clkpwr | fabric | sched | xlate
  | hostif (p : Nat)
  | func (f : Nat)
  | timing (n : Nat)
  | composer (n : Nat)
  | layer (n l : Nat)
  | dplink (n : Nat)
  | scaler | veneer | legend | kerf | renderFe | bin
  | bay (b : Nat)
  | memctl | shim
  | memch (c : Nat)
  | keys | haptic
  | hapch (ch : Nat)
  | audio
  | cvu (u : Nat)
  | ctrlcplx | world | surveyorMb | legacy
deriving DecidableEq, Repr

/-- What an AUX transaction brings back (R128, R129). -/
inductive AuxReply where
  | ack (data : List (BitVec 8))
  | nack
  | defer
  | malformed
deriving DecidableEq, Repr

/-- What a configuration request does (R369, R389, R406, R530, R557): a dword is read or written; or one of the
standard registers is written: MSI-X enable and function mask, the AER errors reported, the power state, and
Interrupt Disable. -/
inductive ConfigOp where
  | read (dword : BitVec 10)
  | write (dword : BitVec 10) (value : Word)
  | msix (enable mask : Bool)
  | aer (reported : BitVec 5)
  | power (d3hot : Bool)
  | intxDisable (on : Bool)
deriving DecidableEq, Repr

/-- Who waits for a read of host memory (R406). -/
inductive HostReq where
  | sq (f : Fin 64) (q : Fin 4)
  | cq (f : Fin 64)
  | job (slot : Fin 1024)
  | fence (slot : Fin 1024)
deriving DecidableEq, Repr

/-- Modes of a core (R407). -/
inductive CoreMode where
  | m | hs | u | vs | vu
deriving DecidableEq, Repr

/-- The path of a mailbox request (R545, R547): a slot of the SURVEYOR_MB page, or the service port with the
request's bytes. -/
inductive MbPath where
  | slot (k : Fin 4)
  | service (req : List (BitVec 8))
deriving DecidableEq, Repr

/-- A unit that self-test or training covers (R527). -/
inductive TestUnit where
  | bay (b : Fin 48)
  | channel (c : Fin 32)
  | other
deriving DecidableEq, Repr

/-- The commands (spec/opcode_table.json), one constructor per row. -/
inductive Instr where
  /-- REGISTER_WRITE (R62): a master writes a word under byte enables at the offset as it presents it, `wait` FCLK
  cycles after the last command: a PF BAR0 offset, a VF BAR0 offset for a VF, and for FUNC0 in Legacy Profile an
  offset in the B4 window. -/
  | registerWrite (m : Master) (addr : BitVec 26) (be : BitVec 4) (value : Word) (wait : BitVec 32)
  /-- LO_READ_LATCH (R41): a master reads a register; a _LO register latches its _HI register. -/
  | loReadLatch (m : Master) (addr : BitVec 26) (wait : BitVec 32)
  /-- FOREIGN_WRITE_EFFECT (R16): the oldest write that crosses takes effect. -/
  | foreignWriteEffect
  /-- SOFT_RESET (R49): a master writes CTRL with SOFT_RESET = 1. -/
  | softReset (m : Master) (p : Page) (value : Word)
  /-- SOFT_RESET_DONE (R49). -/
  | softResetDone (p : Page)
  /-- ENABLE_DRAIN_DONE (R48). -/
  | enableDrainDone (p : Page)
  /-- COMMIT_GO (R65): a master writes COMMIT with GO = 1. -/
  | commitGo (m : Master) (p : Page) (seq : BitVec 16)
  /-- COMMIT_APPLY (R67): the apply point of a page whose commits apply by themselves. -/
  | commitApply (p : Page)
  /-- OWNER_CHANGE (R75): a master writes OWNER. -/
  | ownerChange (m : Master) (p : Page) (value : Word)
  /-- TABLE_ENTRY_WRITE (R69): a master writes the highest word of a staged entry or pair. -/
  | tableEntryWrite (m : Master) (addr : BitVec 26) (value : Word)
  /-- HEAD_ENABLE (R85): a master sets TIMING.CTRL.ENABLE of head n. -/
  | headEnable (m : Master) (n : Fin 12)
  /-- PLL_LOCK (R85). -/
  | pllLock (n : Fin 12)
  /-- HEAD_DISABLE (R86): a master clears TIMING.CTRL.ENABLE. -/
  | headDisable (m : Master) (n : Fin 12)
  /-- TIMING_STOP (R86). -/
  | timingStop (n : Fin 12)
  /-- PLL_STOPPED (R86). -/
  | pllStopped (n : Fin 12)
  /-- PLL_UNLOCK (R87). -/
  | pllUnlock (n : Fin 12)
  /-- PLL_RELOCK (R87). -/
  | pllRelock (n : Fin 12)
  /-- FRAME_START (R93): line 0 starts. -/
  | frameStart (n : Fin 12)
  /-- FRAME_LATCH (R98): the FCLK latch cycle of a frame latch. -/
  | frameLatch (n : Fin 12)
  /-- BAND_LATCH (R105): the FCLK latch cycle of band b ≥ 1. -/
  | bandLatch (n : Fin 12) (b : Fin 8)
  /-- DISABLED_LATCH (R100): the latch of an FCLK cycle while the generator is disabled. -/
  | disabledLatch (n : Fin 12)
  /-- LAYER_FETCH (R144): the layer line, or the veneer line of run k, for line `line` arrives. -/
  | layerFetch (n : Fin 12) (veneer : Bool) (k : Fin 16) (line : Nat)
  /-- LINE_COMPOSE (R145): the composition deadline of a line. -/
  | lineCompose (n : Fin 12) (line : Nat)
  /-- LAYER_FETCH_FAULT (R155): a fetch of Lk faults in translation or is blocked. -/
  | layerFetchFault (n : Fin 12) (k : Fin 16) (line : Nat) (watermark : Bool) (addr : Nat)
  /-- LAYER_DATA_ERROR (R154): uncorrectable data on a fetch of Lk. -/
  | layerDataError (n : Fin 12) (k : Fin 16) (line : Nat) (addr : Nat)
  /-- PALETTE_READ (R146): the palette read of Lk completes. -/
  | paletteRead (n : Fin 12) (k : Fin 16)
  /-- RETIRE_WRITE (R152): the retire signal of Lk's retired set is issued. -/
  | retireWrite (n : Fin 12) (k : Fin 16)
  /-- VENEER_WRITE_BEHIND (R163): block row `row` of run r is written. -/
  | veneerWriteBehind (n : Fin 12) (r : Fin 3) (row : Nat)
  /-- WRITE_BEHIND_ABANDON (R32). -/
  | writeBehindAbandon (n : Fin 12)
  /-- VENEER_READ_ERROR (R168): a veneer read of run r for a line returns an error response. -/
  | veneerReadError (n : Fin 12) (r : Fin 3) (line : Nat)
  /-- VENEER_WRITE_ERROR (R171). -/
  | veneerWriteError (n : Fin 12) (r : Fin 3)
  /-- HPD_PLUG (R126): high for 2 ms; the sink declares a rate, a lane code and DSC. -/
  | hpdPlug (n : Fin 12) (rate : Fin 7) (lanes : Fin 3) (dsc : Bool)
  /-- HPD_UNPLUG (R126). -/
  | hpdUnplug (n : Fin 12)
  /-- IRQ_HPD (R127): whether the DPCD status reports a lane that lost lock. -/
  | irqHpd (n : Fin 12) (lostLock : Bool)
  /-- EDID_READ_DONE (R130): the 128-byte blocks read; empty when the AUX requests failed. -/
  | edidReadDone (n : Fin 12) (blocks : List (List (BitVec 8)))
  /-- LINK_TRAINING (R124): training starts. -/
  | linkTraining (n : Fin 12)
  /-- TRAINING_ATTEMPT_END (R123). -/
  | trainingAttemptEnd (n : Fin 12) (ok : Bool)
  /-- AUX_GO (R129): a master writes AUX_CTRL with GO = 1. -/
  | auxGo (m : Master) (n : Fin 12) (cmd : BitVec 4) (len : BitVec 4)
  /-- AUX_REPLY (R128). -/
  | auxReply (n : Fin 12) (reply : AuxReply)
  /-- AUX_TIMEOUT (R128). -/
  | auxTimeout (n : Fin 12)
  /-- STREAM_UNDERFLOW (R131). -/
  | streamUnderflow (n : Fin 12)
  /-- PHY_FAULT (R131). -/
  | phyFault (n : Fin 12)
  /-- COEF_WRITE (R186): a master writes the word at a byte offset of set k. -/
  | coefWrite (m : Master) (k : Fin 16) (off : BitVec 11) (value : Word)
  /-- LEGEND_ENABLE (R195): a master sets LEGEND.CTRL.ENABLE. -/
  | legendEnable (m : Master)
  /-- POINT_RECORD_ACCEPT (R199): the oldest submitted record of a source is accepted. -/
  | pointRecordAccept (m : Master)
  /-- POINT_ENTRY_READ (R199): the entry read of the oldest accepted record returns. -/
  | pointEntryRead
  /-- UPD_HI_WRITE (R202): a master writes UPD_HI. -/
  | updHiWrite (m : Master) (value : Word)
  /-- RANGE_WRITE (R204): a master writes xR_HIj of table t (0 points, 1 styles, 2 glyphs). -/
  | rangeWrite (m : Master) (t : Fin 3) (j : Fin 64) (value : Word)
  /-- STYLE_ENTRY_WRITE (R211): word 3 of a style entry. -/
  | styleEntryWrite (m : Master) (e : Fin 4096) (value : Word)
  /-- GLYPH_ENTRY_WRITE (R226): word 3 of a glyph entry. -/
  | glyphEntryWrite (m : Master) (e : Fin 8192) (value : Word)
  /-- SNAPSHOT (R220): the snapshot cycle of cell row r of head n. -/
  | snapshot (n : Fin 12) (r : Fin 540)
  /-- GLYPH_FILL (R223): a selected glyph of a captured row arrives in the cache. -/
  | glyphFill (n : Fin 12) (g : Fin 8192)
  /-- GLYPH_CACHE_PARITY (R224). -/
  | glyphCacheParity (n : Fin 12) (g : Fin 8192)
  /-- GLYPH_FETCH_FAULT (R224). -/
  | glyphFetchFault (n : Fin 12) (g : Fin 8192)
  /-- POINT_READ_FAIL (R229): the snapshot point read of a captured cell failed. -/
  | pointReadFail (n : Fin 12) (r : Fin 540) (c : Fin 960)
  /-- MEMORY_READ (R343): an agent reads bytes at a device physical address, with its world bit. -/
  | memoryRead (agent : Fin 29) (sec : Bool) (addr : BitVec 48) (len : Fin 4097)
  /-- MEMORY_WRITE (R335): an agent writes bytes under a byte mask. -/
  | memoryWrite (agent : Fin 29) (sec : Bool) (addr : BitVec 48) (bytes : List (Option (BitVec 8)))
  /-- CORRECTING_READ (R344): a read of a page with a current code, in which bytes have been damaged: offset in the
  page, bits flipped (bit 8 the parity bit). -/
  | correctingRead (agent : Fin 29) (sec : Bool) (addr : BitVec 48) (damage : List (BitVec 12 × BitVec 9))
  /-- STALE_REREAD (R346): the same for a page with a stale code; `gone` where the second read matches. -/
  | staleReread (agent : Fin 29) (sec : Bool) (addr : BitVec 48) (damage : List (BitVec 12 × BitVec 9)) (gone : Bool)
  /-- MIRROR_READ (R351): a read of a mirrored line with damage in the primary and in the mirror page. -/
  | mirrorRead (agent : Fin 29) (sec : Bool) (addr : BitVec 48) (damage mirrorDamage : List (BitVec 12 × BitVec 9))
  /-- PAGE_RECODE (R339): the recoder takes the head of its queue. -/
  | pageRecode
  /-- MIR_WINDOW_WRITE (R350): a master writes MIR_HIk. -/
  | mirWindowWrite (m : Master) (k : Fin 16) (value : Word)
  /-- MIRROR_SYNC_DONE (R352): the copy of window k is complete; 16 is the point table (R353). -/
  | mirrorSyncDone (k : Fin 17)
  /-- SHIM_INSTALL (R355): a master writes SHIM_HIk. -/
  | shimInstall (m : Master) (k : Fin 32) (value : Word)
  /-- SHIM_COPY_DONE (R355). -/
  | shimCopyDone (k : Fin 32)
  /-- SCRUB_STRIPE (R357). -/
  | scrubStripe
  /-- SCRUB_PERIOD_START (R358). -/
  | scrubPeriodStart
  /-- REFRESH_INTERVAL (R359): a refresh interval of channel c in which `issued` intervals' refreshes were issued. -/
  | refreshInterval (c : Fin 32) (issued : Fin 10)
  /-- TEMP_POLL (R359, R361): the refresh-rate code and the temperature in °C that channel c's package reports. -/
  | tempPoll (c : Fin 32) (rate : BitVec 4) (temp : BitVec 8)
  /-- PERIODIC_RETRAIN (R361): channel c's retraining falls due. -/
  | periodicRetrain (c : Fin 32)
  /-- RETRAIN_DONE (R33): the attempt of channel c ends. -/
  | retrainDone (c : Fin 32) (ok : Bool)
  /-- SELF_REFRESH_ENTRY (R362). -/
  | selfRefreshEntry (c : Fin 32)
  /-- SELF_REFRESH_EXIT (R363). -/
  | selfRefreshExit (c : Fin 32)
  /-- CLR_MAX (R364): a master writes RECODE_CFG. -/
  | clrMax (m : Master) (value : Word)
  /-- MEM_INIT_STRIPE (R529). -/
  | memInitStripe
  /-- SECURE_SRAM_PARITY (R414): a secure read of secure SRAM finds bad parity at a byte offset. -/
  | secureSramParity (agent : Fin 26) (off : BitVec 20)
  /-- DATA_FLIP (R520): the agent write that the armed injection meets. -/
  | dataFlip (agent : Fin 26) (sec : Bool) (addr : BitVec 48) (bytes : List (Option (BitVec 8)))
  /-- PARITY_FLIP (R520). -/
  | parityFlip (agent : Fin 26) (sec : Bool) (addr : BitVec 48) (bytes : List (Option (BitVec 8)))
  /-- SILENT_FLIP (R520). -/
  | silentFlip (agent : Fin 26) (sec : Bool) (addr : BitVec 48) (bytes : List (Option (BitVec 8)))
  /-- SQ_DOORBELL (R385): a master writes the doorbell of SQ q of ring set rs: 0 to 63 functions, 64 Heartwood,
  65 Sapwood. -/
  | sqDoorbell (m : Master) (rs : Fin 66) (q : Fin 4) (value : Word)
  /-- CQ_DOORBELL (R385). -/
  | cqDoorbell (m : Master) (rs : Fin 66) (value : Word)
  /-- DESCRIPTOR_FETCH (R293): the descriptor at HEAD of SQ q returns. -/
  | descriptorFetch (rs : Fin 66) (q : Fin 4)
  /-- COMPLETION_WRITE (R388): the oldest completion record that waits is written. -/
  | completionWrite (rs : Fin 66)
  /-- CQ_WRITE (R388): a completion write gets an error. -/
  | cqWrite (rs : Fin 66)
  /-- MSIX_MESSAGE (R389): the interrupt groups of a function are looked at. -/
  | msixMessage (f : Fin 64)
  /-- CQ_MOD_TIMER (R389). -/
  | cqModTimer (f : Fin 64)
  /-- RING_ENABLE (R383): a master writes RING_CTRL of ring r (4 the CQ) with ENABLE = 1. -/
  | ringEnable (m : Master) (rs : Fin 66) (r : Fin 5) (value : Word)
  /-- RESTART (R384): a master writes RING_CTRL with RESTART = 1. -/
  | restart (m : Master) (rs : Fin 66) (r : Fin 5) (value : Word)
  /-- PCIE_LINK_UP (R405): speed code less 1, and log2 of the width. -/
  | pcieLinkUp (p : Fin 2) (speed : Fin 5) (width : Fin 5)
  /-- LINK_DOWN (R392). -/
  | linkDown (p : Fin 2)
  /-- HOT_RESET (R392). -/
  | hotReset (p : Fin 2)
  /-- FUNCTION_LEVEL_RESET (R391). -/
  | functionLevelReset (f : Fin 64)
  /-- FUNC_CTRL_RESET (R391): a master writes FUNC_CTRL. -/
  | funcCtrlReset (m : Master) (f : Fin 64) (value : Word)
  /-- RESET_DONE (R391). -/
  | resetDone (f : Fin 64)
  /-- VF_ENABLE_CHANGE (R371): the host sets VF Enable and NumVFs of a port. -/
  | vfEnableChange (p : Fin 2) (enable : Bool) (n : Fin 32)
  /-- CONFIG_REQUEST (R530): a configuration request to an ARI function of a port. -/
  | configRequest (p : Fin 2) (fn : BitVec 8) (op : ConfigOp)
  /-- BAR2_ACCESS (R374): a read of `len` bytes, or a masked write, at an offset of PF BAR2 (BAR1 in Legacy Profile). -/
  | bar2Access (p : Fin 2) (off : BitVec 36) (len : Fin 4097) (data : Option (List (Option (BitVec 8))))
  /-- VF_BAR2_ACCESS (R376). -/
  | vfBar2Access (f : Fin 64) (off : BitVec 32) (len : Fin 4097) (data : Option (List (Option (BitVec 8))))
  /-- MALFORMED_TLP (R406). -/
  | malformedTlp (p : Fin 2)
  /-- ECRC_ERROR (R406). -/
  | ecrcError (p : Fin 2)
  /-- POISONED_REQUEST (R406). -/
  | poisonedRequest (p : Fin 2)
  /-- UNEXPECTED_COMPLETION (R406). -/
  | unexpectedCompletion (p : Fin 2)
  /-- COMPLETION_TIMEOUT (R406): a read of host memory of port p ends without data: 0 it did not arrive in time,
  1 poisoned, 2 with error status. -/
  | completionTimeout (p : Fin 2) (kind : Fin 3) (req : HostReq)
  /-- XLATE_WALK (R398): XLATE translates an address of function f: a stage-1 address of a context, or a stage-2
  input address; whether the access writes, its agent code and its SOURCE code (R381). -/
  | xlateWalk (f : Fin 64) (ctx : Option (Fin 16)) (addr : BitVec 48) (write : Bool) (agent : Fin 29)
      (source : Fin 12)
  /-- S1INV_GO (R403): a master writes S1INV_CMD. -/
  | s1invGo (m : Master) (f : Fin 64) (value : Word)
  /-- S1INV_DONE (R403). -/
  | s1invDone (f : Fin 64)
  /-- S2INV_GO (R404): a master writes S2INV_CMD of block p. -/
  | s2invGo (m : Master) (p : Fin 2) (value : Word)
  /-- S2_ROOT_WRITE (R403): a master writes S2_ROOT_HI. -/
  | s2RootWrite (m : Master) (f : Fin 64) (value : Word)
  /-- S2INV_DONE (R403). -/
  | s2invDone (p : Fin 2)
  /-- FREEZE (R394): a master writes MIG_CTRL with GO and CMD 1. -/
  | freeze (m : Master) (f : Fin 64)
  /-- FREEZE_DONE (R394). -/
  | freezeDone (f : Fin 64)
  /-- SAVE (R395): MIG_CTRL with GO and CMD 2. -/
  | save (m : Master) (f : Fin 64)
  /-- RESTORE (R396): MIG_CTRL with GO and CMD 3. -/
  | restore (m : Master) (f : Fin 64)
  /-- RESUME (R396): MIG_CTRL with GO and CMD 4. -/
  | resume (m : Master) (f : Fin 64)
  /-- CVU_ENABLE (R515): a master sets CVU.CTRL.ENABLE. -/
  | cvuEnable (m : Master) (u : Fin 16)
  /-- CVU_CLOSE (R514): a master writes CVU_CLOSE. -/
  | cvuClose (m : Master) (u : Fin 16) (value : Word)
  /-- NOP (R292): the job in a slot starts and ends. -/
  | nop (slot : Fin 1024)
  /-- RENDER (R302): the render job in a slot starts: its blocks are read and checked. -/
  | render (slot : Fin 1024)
  /-- COMPUTE (R310): the compute job in a slot starts. -/
  | compute (slot : Fin 1024)
  /-- COPY (R312): the copy engine carries out the copy job in a slot. -/
  | copy (slot : Fin 1024)
  /-- FILL (R313). -/
  | fill (slot : Fin 1024)
  /-- MODULE_LOAD (R318): the load in a slot hits the cache or starts to translate. -/
  | moduleLoad (slot : Fin 1024)
  /-- MODULE_UNLOAD (R316). -/
  | moduleUnload (slot : Fin 1024)
  /-- POINT_UPDATE (R197): the descriptor at HEAD of SQ3, a POINT_UPDATE, is taken into the Legend engine's queue. -/
  | pointUpdate (rs : Fin 66)
  /-- PRESENT (R314). -/
  | present (slot : Fin 1024)
  /-- FENCE_POLL (R299): the fence word of the waiting job in a slot is read. -/
  | fencePoll (slot : Fin 1024)
  /-- FENCE_TIMEOUT (R300). -/
  | fenceTimeout (slot : Fin 1024)
  /-- WORK_DISPATCH (R321): bay 0 to 47, the render front-end 48, or the copy engine 49 can take work. -/
  | workDispatch (unit : Fin 50)
  /-- PREEMPT_DONE (R323): the preempted work of a bay has released it. -/
  | preemptDone (b : Fin 48)
  /-- WORKGROUP_DONE (R310): a workgroup of the job in a slot completes. -/
  | workgroupDone (slot : Fin 1024) (wg : Nat)
  /-- PARTIAL_FLUSH (R280): the full bin pool of the render job in a slot is flushed. -/
  | partialFlush (slot : Fin 1024)
  /-- TILE_COMPLETE (R277): a tile of the render job in a slot completes. -/
  | tileComplete (slot : Fin 1024) (tile : Nat)
  /-- BAY_FENCE (R283): a bay detects fault 0, 1 or 2. -/
  | bayFence (b : Fin 48) (bit : Fin 3)
  /-- TILE_WATCHDOG (R324). -/
  | tileWatchdog (slot : Fin 1024) (tile : Nat)
  /-- JOB_WATCHDOG (R324). -/
  | jobWatchdog (slot : Fin 1024)
  /-- TRANSLATE_DONE (R318): the translation of the load in a slot ends. -/
  | translateDone (slot : Fin 1024)
  /-- TRANSLATE_TIMEOUT (R318). -/
  | translateTimeout (slot : Fin 1024)
  /-- JOB_COMPLETE (R298): the writes of the ended job in a slot are complete. -/
  | jobComplete (slot : Fin 1024)
  /-- WCALL (R418): core c executes WCALL in a mode at an address. -/
  | wcall (c : Fin 8) (mode : CoreMode) (pc : BitVec 64)
  /-- WRET (R419): core c executes WRET in a mode at an address. -/
  | wret (c : Fin 8) (mode : CoreMode) (pc : BitVec 64)
  /-- SECURE_IRQ_TAKEN (R424). -/
  | secureIrqTaken
  /-- NORMAL_IRQ_TAKEN (R423): shared core c takes the normal interrupt. -/
  | normalIrqTaken (c : Fin 8)
  /-- HW_BUDGET_EXPIRY (R428). -/
  | hwBudgetExpiry (c : Fin 8)
  /-- WDOG_EXPIRY (R429). -/
  | wdogExpiry (c : Fin 8)
  /-- KICK (R429): a master writes WDOG. -/
  | kick (m : Master) (value : Word)
  /-- MONITOR_FAULT (R436): core c raises a synchronous exception in M-mode. -/
  | monitorFault (c : Fin 8)
  /-- CORE_PARITY (R430). -/
  | coreParity (c : Fin 8)
  /-- HW_CTRL_RESTART (R436): a master writes HW_CTRL. -/
  | hwCtrlRestart (m : Master) (value : Word)
  /-- HW_QUIESCED (R437). -/
  | hwQuiesced
  /-- HW_CLEAR_DONE (R437). -/
  | hwClearDone
  /-- HW_MEASURE_DONE (R437). -/
  | hwMeasureDone
  /-- CLAIM (R432): a master writes CLAIMk with VALID = 1. -/
  | claim (m : Master) (k : Fin 32) (value : Word)
  /-- CLAIM_RELEASE (R433): a master writes CLAIMk with VALID = 0. -/
  | claimRelease (m : Master) (k : Fin 32) (value : Word)
  /-- SAFE_OK_SET (R435): a master writes SAFE_OK with OK = 1. -/
  | safeOkSet (m : Master) (value : Word)
  /-- SAFE_OK_KICK (R435): a master writes SAFE_OK with KICK = 1. -/
  | safeOkKick (m : Master) (value : Word)
  /-- SAFE_OK_EXPIRED (R435). -/
  | safeOkExpired
  /-- KEYS_ENABLE (R443): a master sets KEYS.CTRL.ENABLE. -/
  | keysEnable (m : Master)
  /-- SCAN_START (R443). -/
  | scanStart (p : Fin 4)
  /-- SLOT_END (R442): the raw counts of the slot's eight electrodes. -/
  | slotEnd (p : Fin 4) (counts : List (BitVec 16))
  /-- KEY_EVENT_WRITE (R457): the oldest record that waits is written; `err` where it gets an error response. -/
  | keyEventWrite (err : Bool)
  /-- SELFTEST (R449): a master writes SELFTEST. -/
  | selftest (m : Master) (value : Word)
  /-- SELFTEST_DONE (R449): counts of the self phase, and of the neighbour phase: right and lower neighbour. -/
  | selftestDone (counts right lower : List (BitVec 16))
  /-- EQ_BASE_WRITE (R455): a master writes EQ_BASE_HIq. -/
  | eqBaseWrite (m : Master) (q : Fin 16) (value : Word)
  /-- EQ_HEAD_WRITE (R456): a master writes EQ_HEADq. -/
  | eqHeadWrite (m : Master) (q : Fin 16) (value : Word)
  /-- SENSE_PARITY (R459). -/
  | senseParity (p : Fin 4)
  /-- FORCE_TOUCH (R520): the armed injection meets the next measurement of its key. -/
  | forceTouch
  /-- FORCE_OPEN (R520). -/
  | forceOpen
  /-- HAPCH_ENABLE (R463): a master sets HAPCH.CTRL.ENABLE. -/
  | hapchEnable (m : Master) (ch : Fin 16)
  /-- HOST_TRIGGER (R466): a master writes TRIGGER with GO = 1. -/
  | hostTrigger (m : Master) (ch : Fin 16) (effect : Fin 64)
  /-- STOP (R466): a master writes TRIGGER with STOP = 1. -/
  | stop (m : Master) (ch : Fin 16)
  /-- HALF_CYCLE_END (R463): the measured length where it ended at a crossing, peak current in mA, largest
  back-EMF in mV, and whether the bridge was held at its limit. -/
  | halfCycleEnd (ch : Fin 16) (crossing : Option Nat) (iPeak bemf : BitVec 16) (limited : Bool)
  /-- POWER_MEASURE (R468): rail power in 10 mW. -/
  | powerMeasure (p : BitVec 16)
  /-- RAIL_FAULT (R470). -/
  | railFault
  /-- RAIL_OK (R470). -/
  | railOk
  /-- AUDIO_ENABLE (R473): a master sets AUDIO.CTRL.ENABLE. -/
  | audioEnable (m : Master)
  /-- SAMPLE_BOUNDARY (R473): the words of the TDM inputs' slots, port by port, received in the frame. -/
  | sampleBoundary (din : List (BitVec 32))
  /-- SOURCE_FETCH (R476): the line of stream s that holds sample RD is read. -/
  | sourceFetch (k : Fin 48)
  /-- SRC_ENABLE (R477, R71): a master writes SRC_BASE_HIs, which applies the pair with EN of the low word staged. -/
  | srcEnable (m : Master) (k : Fin 48) (value : Word)
  /-- GCLK_STEP_CHANGE (R17): GCLK reaches the step that the limits select. -/
  | gclkStepChange
  /-- MAINS_APPLIED (R523). -/
  | mainsApplied
  /-- SURVEYOR_START (R523). -/
  | surveyorStart
  /-- RAILS_GOOD (R523). -/
  | railsGood
  /-- BIST_CONDITIONS_CHECK (R524): the deviation of REFCLK in ppm as counted; the other readings are the sensors'. -/
  | bistConditionsCheck (ppm : Int)
  /-- CONSOLE_ID_READ (R590): the 256 bytes of console port k, or none where no device answers. -/
  | consoleIdRead (k : Fin 4) (data : Option (List (BitVec 8)))
  /-- BIST_DONE (R526): the units that failed, and the duration in ms. -/
  | bistDone (failed : List TestUnit) (ms : BitVec 16)
  /-- DRAM_TRAINING_DONE (R360): the channels that failed. -/
  | dramTrainingDone (failed : List (Fin 32))
  /-- SURVEY_END (R525). -/
  | surveyEnd
  /-- RESET_TO_HELD (R26): the core die is reset. -/
  | resetToHeld
  /-- RESET_IN (R593): asserted for 10 ms. -/
  | resetIn
  /-- RESET_IN_DEASSERTED (R593). -/
  | resetInDeasserted
  /-- IMAGE_LOAD_DONE (R543). -/
  | imageLoadDone
  /-- SENSOR_SAMPLE (R532): the readings of sensors 0 to 44 in order. -/
  | sensorSample (values : List (BitVec 16))
  /-- FAN_LOST (R534). -/
  | fanLost (k : Fin 2)
  /-- SAG_ONSET (R536): condition 0 AC_LOW, 1 BULK_LOW, 2 RAIL12_LOW asserts. -/
  | sagOnset (cond : Fin 3)
  /-- SAG_ESCALATE (R536). -/
  | sagEscalate
  /-- SAG_CLEAR (R536): a condition clears, or, with none left, the 10 ms have passed. -/
  | sagClear (cond : Fin 3)
  /-- LOAD_SHED (R538). -/
  | loadShed
  /-- HOLDUP_HELD (R538): the bulk bus in 0.1 V and the 12 V bus in mV as they read; AC has been back 100 ms. -/
  | holdupHeld (bulk rail12 : BitVec 16) (acBack : Bool)
  /-- FLASH_OPERATION (R537): the log queue's oldest entries are committed; the bulk bus in 0.1 V as sampled. -/
  | flashOperation (bulk : BitVec 16)
  /-- FLASH_DEFER_RETRY (R537). -/
  | flashDeferRetry (bulk : BitVec 16)
  /-- TELEMETRY_RECORD (R540). -/
  | telemetryRecord
  /-- UNIT_CTRL_WRITE (R535): a master writes UNIT_CTRL. -/
  | unitCtrlWrite (m : Master) (value : Word)
  /-- MB_REQ_GO (R545): a master writes MB_REQ of slot k. -/
  | mbReqGo (m : Master) (k : Fin 4) (value : Word)
  /-- MAILBOX_DONE (R545): the response of slot k is delivered. -/
  | mailboxDone (k : Fin 4)
  /-- GET_INFO (R548). -/
  | getInfo (p : MbPath)
  /-- READ_SENSORS (R548). -/
  | readSensors (p : MbPath)
  /-- LOG_READ (R548). -/
  | logRead (p : MbPath)
  /-- LOG_STATUS (R548). -/
  | logStatus (p : MbPath)
  /-- TELEMETRY_CFG (R548). -/
  | telemetryCfg (p : MbPath)
  /-- UPDATE_BEGIN (R548). -/
  | updateBegin (p : MbPath)
  /-- UPDATE_DATA (R548). -/
  | updateData (p : MbPath)
  /-- UPDATE_END (R548). -/
  | updateEnd (p : MbPath)
  /-- UPDATE_ACTIVATE (R548). -/
  | updateActivate (p : MbPath)
  /-- CONFIG_READ (R548). -/
  | configRead (p : MbPath)
  /-- CONFIG_WRITE (R528, R548). -/
  | configWrite (p : MbPath)
  /-- RETIRE_READ (R548). -/
  | retireRead (p : MbPath)
  /-- RETIRE_ADD (R548). -/
  | retireAdd (p : MbPath)
  /-- SHIM_READ (R548). -/
  | shimRead (p : MbPath)
  /-- RESET (R548). -/
  | reset (p : MbPath)
  /-- INJECT_ENABLE (R519, R548). -/
  | injectEnable (p : MbPath)
  /-- SET_ENDPOINT_ID (R549). -/
  | setEndpointId (eid : BitVec 8)
  /-- GET_ENDPOINT_ID (R549). -/
  | getEndpointId
  /-- GET_MCTP_VERSION_SUPPORT (R549). -/
  | getMctpVersionSupport
  /-- GET_MESSAGE_TYPE_SUPPORT (R549). -/
  | getMessageTypeSupport
  /-- GETTID (R549). -/
  | gettid
  /-- GETPLDMVERSION (R549). -/
  | getpldmversion
  /-- GETPLDMTYPES (R549). -/
  | getpldmtypes
  /-- GETPLDMCOMMANDS (R549): of a PLDM type. -/
  | getpldmcommands (type : BitVec 8)
  /-- GETPDR (R549): a record handle. -/
  | getpdr (handle : Word)
  /-- GETSENSORREADING (R549): a sensor id. -/
  | getsensorreading (id : BitVec 16)
  /-- SURVEYOR_WATCHDOG (R550). -/
  | surveyorWatchdog
  /-- UPDATE_IDLE_TIMEOUT (R544). -/
  | updateIdleTimeout
  /-- UPDATE_TRIAL_END (R544): a trial of a component completes, or three starts ended before it. -/
  | updateTrialEnd (comp : Fin 5)
  /-- SLIP_FRAME_BAD_CRC (R549). -/
  | slipFrameBadCrc
  /-- DP_PWR_OVERCURRENT (R587): receptacle of head n. -/
  | dpPwrOvercurrent (n : Fin 12)
  /-- DP_PWR_RETRY (R587). -/
  | dpPwrRetry (n : Fin 12)
  /-- B4_SOFT_RESET (R561): B4_CTRL is written with SOFT_RESET = 1. -/
  | b4SoftReset
  /-- B4_SOFT_RESET_DONE (R561). -/
  | b4SoftResetDone
  /-- B4_KEYFIFO_READ (R560). -/
  | b4KeyfifoRead
  /-- B4_KEYCFG_WRITE (R560). -/
  | b4KeycfgWrite (value : Word)
  /-- KEY_EN (R568): B4_CTRL is written. -/
  | keyEn (value : Word)
  /-- HEAD_BLOCK_FLIP (R566): register r (offset 4r) of head block h is written. -/
  | headBlockFlip (h : Fin 4) (r : Fin 16) (value : Word)
  /-- FLIP_CUTOFF (R566). -/
  | flipCutoff (h : Fin 4)
  /-- HCTRL_EN (R567): HCTRL of head block h is written. -/
  | hctrlEn (h : Fin 4) (value : Word)
  /-- PIXCLK_WRITE (R565). -/
  | pixclkWrite (h : Fin 4) (value : Word)
  /-- DE_FIFO_WRITE (R574). -/
  | deFifoWrite (value : Word)
  /-- DE_DISABLE (R575): B4_CTRL is written with DE_EN = 0. -/
  | deDisable (value : Word)
  /-- FILL_RECT (R576): the runtime carries out the command at the front of the stream. -/
  | fillRect
  /-- COPY_RECT (R576). -/
  | copyRect
  /-- DRAW_LINE (R576). -/
  | drawLine
  /-- MONO_EXPAND (R576). -/
  | monoExpand
  /-- STREAM_ERROR (R577): a master writes DE_REPORT. -/
  | streamError (m : Master)
  /-- PIXEL_RANGE (R577): a master writes DE_REPORT. -/
  | pixelRange (m : Master)
  /-- DE_RING_RD_WRITE (R582): a master writes DE_RING_RD. -/
  | deRingRdWrite (m : Master) (value : Word)
  /-- DE_IDLE (R575). -/
  | deIdle
  /-- BEEP_GO (R572): B4_BEEP_CTRL is written. -/
  | beepGo (value : Word)
  /-- BEEP_DONE (R573). -/
  | beepDone
  /-- ASSERT_INTA (R557). -/
  | assertInta
  /-- DEASSERT_INTA (R557). -/
  | deassertInta
  /-- FAULT_RAISED (R496): the page detects fault b; `item` is the entry, job slot or ring set it damages. -/
  | faultRaised (p : Page) (b : Fin 32) (item : Nat)
  /-- HEADER_PARITY_ERROR (R58): header register 0x09 + r of a page fails parity. -/
  | headerParityError (p : Page) (r : Fin 7)
  /-- SAFE_REQUEST (R505): a master writes DEV.SAFE_REQUEST. -/
  | safeRequest (m : Master) (value : Word)
  /-- FAULT_INJECT_ARM (R57): a master writes FAULT_INJECT. -/
  | faultInjectArm (m : Master) (p : Page) (value : Word)
  /-- SET_FAULT (R520). -/
  | setFault (p : Page)
  /-- HEADER_PARITY (R520). -/
  | headerParity (p : Page)
  /-- DROP (R520): the next packet of the armed link comes. -/
  | drop
  /-- CORRUPT (R520). -/
  | corrupt
  /-- REORDER (R520). -/
  | reorder
  /-- BURST (R520). -/
  | burst
  /-- LCRC (R520): a port transmits a TLP. -/
  | lcrc (port : Fin 2)
  /-- AUX_DROP (R520): an AUX reply comes on head n. -/
  | auxDrop (n : Fin 12)
  /-- TILE_PARITY (R520): bay b reads its tile memory. -/
  | tileParity (b : Fin 48)
  /-- GLYPH_PARITY (R520): head n reads glyph g from the cache. -/
  | glyphParity (n : Fin 12) (g : Fin 8192)
  /-- READ_ERROR (R520): the veneer is read for a line of run r of head n. -/
  | readError (n : Fin 12) (r : Fin 3) (line : Nat)
  /-- LINK_REPLAY (R14): a packet on a link needs `failed` transmissions more than the first; 4 is exhaustion. -/
  | linkReplay (link : Fin 40) (failed : Fin 5)
  /-- STAT_CFG_WRITE (R250): a master writes STAT_CFGk. -/
  | statCfgWrite (m : Master) (k : Fin 16) (value : Word)
deriving DecidableEq, Repr

end Sys2Proof
end

