-- ==== Sys2Proof/Machine/Assoc.lean ====
section
/-!
DEFINITION. Machine/Assoc.lean: sparse stores in one canonical form, used for registers, shadow
registers, memory bytes and every numbered group of like records; and the bit-field helpers of
register words.
-/
namespace Sys2Proof.Machine

/-- The value at a key; an unlisted key reads as `d`. -/
def aget {α : Type} (d : α) : Assoc α → Nat → α
  | [], _ => d
  | (k', v) :: r, k => if k' = k then v else aget d r k

/-- The store without the key. -/
def adel {α : Type} (m : Assoc α) (k : Nat) : Assoc α := m.filter (fun e => e.1 != k)

/-- Insert an absent key at its place in the rising order. -/
def ains {α : Type} (k : Nat) (v : α) : Assoc α → Assoc α
  | [] => [(k, v)]
  | (k', v') :: r => if k < k' then (k, v) :: (k', v') :: r else (k', v') :: ains k v r

/-- Write a value; writing the value an unlisted key reads as removes the entry. -/
def aset {α : Type} [DecidableEq α] (d : α) (m : Assoc α) (k : Nat) (v : α) : Assoc α :=
  if v = d then adel m k else ains k v (adel m k)

/-- Keys strictly rising. -/
def akeysRise {α : Type} : Assoc α → Bool
  | [] => true
  | [_] => true
  | a :: b :: r => decide (a.1 < b.1) && akeysRise (b :: r)

/-- The canonical form: keys strictly rising, and no entry equal to what its key reads as unlisted. -/
def awf {α : Type} [DecidableEq α] (d : Nat → α) (m : Assoc α) : Bool :=
  akeysRise m && m.all (fun e => e.2 != d e.1)

/-- Bits hi:lo of a number. -/
def bits (w hi lo : Nat) : Nat := (w >>> lo) % 2 ^ (hi + 1 - lo)

/-- Bit k of a number. -/
def bit (w k : Nat) : Bool := (w >>> k) % 2 == 1

/-- Bits hi:lo of a register word, as a number. -/
def fget (w : Word) (hi lo : Nat) : Nat := bits w.toNat hi lo

/-- The word with bits hi:lo replaced. -/
def fset (w : Word) (hi lo v : Nat) : Word :=
  let n := w.toNat
  BitVec.ofNat 32 (n % 2 ^ lo + 2 ^ lo * (v % 2 ^ (hi + 1 - lo)) + 2 ^ (hi + 1) * (n >>> (hi + 1)))

/-- Bit k of a register word. -/
def fbit (w : Word) (k : Nat) : Bool := bit w.toNat k

/-- The word with bit k set to b. -/
def fsetb (w : Word) (k : Nat) (b : Bool) : Word := fset w k k (if b then 1 else 0)

/-- 1 for true. -/
def b2n (b : Bool) : Nat := if b then 1 else 0

/-- The 32-bit word of a number, wrapping. -/
def w32 (n : Nat) : Word := BitVec.ofNat 32 n

/-- A saturating increment. -/
def satInc (n top : Nat) : Nat := if n < top then n + 1 else top

/-- A number read as two's complement of the given width. -/
def sext (n w : Nat) : Int :=
  let m := n % 2 ^ w
  if m < 2 ^ (w - 1) then (m : Int) else (m : Int) - (2 ^ w : Nat)

/-- The two's-complement field of an integer. -/
def toField (i : Int) (w : Nat) : Nat := (i % ((2 ^ w : Nat) : Int)).toNat

/-- An integer clamped to a range. -/
def clampI (i lo hi : Int) : Int := if i < lo then lo else if hi < i then hi else i

/-- Keys 0 … n−1 that meet a test. -/
def keysWhere (n : Nat) (p : Nat → Bool) : List Nat := (List.range n).filter p

/-- The number whose bit k is `p k`, for k below n. -/
def maskOf (n : Nat) (p : Nat → Bool) : Nat :=
  (List.range n).foldl (fun acc k => acc + (if p k then 2 ^ k else 0)) 0

/-- The bytes of a number, least significant first. -/
def leBytes (n v : Nat) : List Nat := (List.range n).map (fun i => (v >>> (8 * i)) % 256)

/-- The number that little-endian bytes spell. -/
def ofLeBytes : List Nat → Nat
  | [] => 0
  | b :: r => b + 256 * ofLeBytes r

end Sys2Proof.Machine
end

