-- ==== Sys2Proof/Machine/Operands.lean ====
section
/-!
DEFINITION. Machine/Operands.lean: pixel and sample arithmetic, on numbers alone: expansion, plane alpha,
blending, output matrix, dither, scaler, floating-run value, CRC-32C, and the reset contents of the
coefficient sets.
-/
namespace Sys2Proof.Machine

/-- A pixel inside the composer: 12-bit colour and 10-bit alpha (R147). -/
structure Px where
  r : Nat := 0
  g : Nat := 0
  b : Nat := 0
  a : Nat := 0
deriving DecidableEq, Repr

/-- A 12-bit RGB value. -/
structure Rgb where
  r : Nat := 0
  g : Nat := 0
  b : Nat := 0
deriving DecidableEq, Repr

/-- Expansion of stored fields (R147). -/
def exp8 (v : Nat) : Nat := (v <<< 4) ||| (v >>> 4)
def exp10 (v : Nat) : Nat := (v <<< 2) ||| (v >>> 8)
def exp5 (v : Nat) : Nat := (v <<< 7) ||| (v <<< 2) ||| (v >>> 3)
def exp6 (v : Nat) : Nat := (v <<< 6) ||| v
def expA8 (v : Nat) : Nat := (v <<< 2) ||| (v >>> 6)
def expA2 (v : Nat) : Nat := v * 341

/-- An ARGB8888 word (R139, R147). -/
def pxArgb8888 (w : Nat) : Px :=
  ⟨exp8 (bits w 23 16), exp8 (bits w 15 8), exp8 (bits w 7 0), expA8 (bits w 31 24)⟩

/-- An XRGB8888 word. -/
def pxXrgb8888 (w : Nat) : Px := { pxArgb8888 w with a := 1023 }

/-- An ARGB2101010 word. -/
def px2101010 (w : Nat) : Px :=
  ⟨exp10 (bits w 29 20), exp10 (bits w 19 10), exp10 (bits w 9 0), expA2 (bits w 31 30)⟩

/-- An RGB565 half-word. -/
def px565 (w : Nat) : Px := ⟨exp5 (bits w 15 11), exp6 (bits w 10 5), exp5 (bits w 4 0), 1023⟩

/-- Plane alpha (R148): PA expanded so that 1023 counts as 1024. -/
def planeAlpha (pa : Nat) (premul : Bool) (p : Px) : Px :=
  let k := pa + (pa >>> 9)
  let sc (v : Nat) : Nat := (v * k + 512) >>> 10
  if premul then ⟨sc p.r, sc p.g, sc p.b, sc p.a⟩ else { p with a := sc p.a }

/-- One channel of the straight-alpha and premultiplied blend (R149). -/
def blendCh (premul : Bool) (c a d : Nat) : Nat :=
  let ap := a + (a >>> 9)
  if premul then
    let t := c + ((d * (1024 - ap) + 512) >>> 10)
    if t > 4095 then 4095 else t
  else (c * ap + d * (1024 - ap) + 512) >>> 10

/-- Blend of a pixel onto a destination (R149). -/
def blendPx (premul : Bool) (p : Px) (d : Rgb) : Rgb :=
  ⟨blendCh premul p.r p.a d.r, blendCh premul p.g p.a d.g, blendCh premul p.b p.a d.b⟩

/-- One channel of LEGACY_255 (R150): the 8-bit colour is the 12-bit expansion shifted back. -/
def legacyCh (cg a d : Nat) : Nat :=
  let c8 := (cg * a + (d >>> 4) * (255 - a) + 127) / 255
  (c8 <<< 4) ||| (c8 >>> 4)

/-- LEGACY_255 (R150); `alpha8` is the pixel's 8-bit alpha, or PA >> 2 where the format has none. -/
def blendLegacy (p : Px) (alpha8 : Nat) (d : Rgb) : Rgb :=
  ⟨legacyCh (p.r >>> 4) alpha8 d.r, legacyCh (p.g >>> 4) alpha8 d.g, legacyCh (p.b >>> 4) alpha8 d.b⟩

/-- State of the floating-run evaluation (R165). -/
inductive FloatSt where
  | ident | const | part
deriving DecidableEq, Repr

/-- The veneer value of a floating run at one pixel (R165); each input is the layer's c_eff and a_eff with
its premultiplied flag, in composition order; none where the pixel is ineligible. -/
def floatPixel : List (Px × Bool) → FloatSt → Rgb → Nat → Option (Rgb × Nat)
  | [], _, p, al => some (p, al)
  | (q, pm) :: r, st, p, al =>
    if q.a = 0 ∧ (pm = false ∨ (q.r = 0 ∧ q.g = 0 ∧ q.b = 0)) then floatPixel r st p al
    else if q.a = 1023 then floatPixel r .const ⟨q.r, q.g, q.b⟩ 1023
    else match st with
      | .const => floatPixel r .const (blendPx pm q p) al
      | .part => none
      | .ident =>
        let ap := q.a + (q.a >>> 9)
        let p' : Rgb := if pm then ⟨q.r, q.g, q.b⟩
          else ⟨(q.r * ap) >>> 10, (q.g * ap) >>> 10, (q.b * ap) >>> 10⟩
        floatPixel r .part p' q.a

/-- A colour matrix with its offsets: nine S3.12 coefficients row by row, three PRE and three POST (R113). -/
structure Matrix where
  m : List Int
  pre : List Int
  post : List Int
deriving DecidableEq, Repr

/-- The matrix of the nine register words M0–M4, PRE0, PRE1, POST0, POST1 (R113, R191). -/
def matrixOf (m0 m1 m2 m3 m4 pre0 pre1 post0 post1 : Word) : Matrix :=
  let c (w : Word) (hi : Bool) : Int := sext (if hi then fget w 31 16 else fget w 15 0) 16
  let o (w : Word) (hi : Bool) : Int := sext (if hi then fget w 28 16 else fget w 12 0) 13
  { m := [c m0 false, c m0 true, c m1 false, c m1 true, c m2 false, c m2 true, c m3 false, c m3 true, c m4 false],
    pre := [o pre0 false, o pre0 true, o pre1 false],
    post := [o post0 false, o post0 true, o post1 false] }

/-- One output channel of the matrix (R114). -/
def matrixCh (x : Matrix) (i : Nat) (c0 c1 c2 : Nat) : Nat :=
  let g (l : List Int) (k : Nat) : Int := l.getD k 0
  let s := g x.m (3 * i) * ((c0 : Int) + g x.pre 0) + g x.m (3 * i + 1) * ((c1 : Int) + g x.pre 1)
            + g x.m (3 * i + 2) * ((c2 : Int) + g x.pre 2)
  (clampI ((s + 2048) / 4096 + g x.post i) 0 4095).toNat

/-- The output matrix on one pixel (R114). -/
def matrixPx (x : Matrix) (p : Rgb) : Rgb :=
  ⟨matrixCh x 0 p.r p.g p.b, matrixCh x 1 p.r p.g p.b, matrixCh x 2 p.r p.g p.b⟩

/-- The ordered dither pattern (R117). -/
def bayer : List Nat := [0, 8, 2, 10, 12, 4, 14, 6, 3, 11, 1, 9, 15, 7, 13, 5]

/-- Dither of one channel at pixel x of line y (R117). -/
def dither (v x y bpc : Nat) (ordered : Bool) : Nat :=
  let k := 12 - bpc
  if k = 0 then v
  else
    let add := if ordered then (bayer.getD (4 * (y % 4) + x % 4) 0) >>> (4 - k) else 2 ^ (k - 1)
    let s := (v + add) >>> k
    let top := 2 ^ bpc - 1
    if s > top then top else s

/-- Bits per channel of OUT_BPC (R115). -/
def bpcOf (code : Nat) : Nat := if code = 0 then 8 else if code = 1 then 10 else 12

/-! The scaler. -/

/-- Pre-decimation of a STEP, as log2 (R178). -/
def decim (step : Nat) : Nat := if step ≤ 0x200000 then 0 else if step ≤ 0x400000 then 1 else 2

/-- Decimated source sample and phase of destination sample i (R177). -/
def scalePos (init : Int) (step i : Nat) : Int × Nat :=
  let d := decim step
  let pos := init + (i : Int) * step
  let posd := (pos - 524288 * (((2 ^ d - 1 : Nat) : Int))) / ((2 ^ d : Nat) : Int)
  let n := posd / 1048576
  let p := ((posd % 1048576).toNat + 8192) / 16384
  if p = 64 then (n + 1, 0) else (n, p)

/-- A sample of a list, indices beyond it replaced by the nearest inside (R179). -/
def sampleAt (l : List Nat) (i : Int) : Nat :=
  l.getD (clampI i 0 ((l.length : Int) - 1)).toNat 0

/-- Box averages of a line by 2^d (R178); B4 rounding drops the rounding term (R184). -/
def boxAvg (b4 : Bool) (d : Nat) (l : List Nat) : List Nat :=
  if d = 0 then l
  else (List.range ((l.length + 2 ^ d - 1) / 2 ^ d)).map (fun j =>
    let sum := (List.range (2 ^ d)).foldl (fun acc t => acc + sampleAt l ((2 ^ d * j + t : Nat) : Int)) 0
    if b4 then sum >>> d else (sum + 2 ^ (d - 1)) >>> d)

/-- Rounding and clamping of a filter sum (R179, R184). -/
def filterOut (b4 : Bool) (top : Nat) (acc : Int) : Nat :=
  (clampI ((acc + (if b4 then 127 else 128)) / 256) 0 (if b4 then 255 else top)).toNat

/-- One filter output: taps `c` from index k0, centred at n − off (R179). -/
def filterTap (b4 : Bool) (top : Nat) (c : List Int) (k0 : Nat) (off : Int) (n : Int) (l : List Nat) : Nat :=
  let acc := (List.range c.length).foldl
    (fun acc k => acc + c.getD k 0 * (sampleAt l (n + ((k + k0 : Nat) : Int) - off) : Int)) (0 : Int)
  filterOut b4 top acc

/-- The reset contents of the coefficient sets: linear interpolation (R187); `o` is the offset in the region. -/
def coefRst (o : Nat) : Nat :=
  let w := o % 0x800
  if w < 0x400 then
    let p := w / 16
    match w % 16 / 4 with
    | 1 => 0x10000 * ((256 - 4 * p))
    | 2 => 4 * p
    | _ => 0
  else if w < 0x700 then
    let p := (w - 0x400) / 12
    if (w - 0x400) % 12 / 4 = 1 then 0x10000 * (4 * p) + (256 - 4 * p) else 0
  else 0

/-! CRC-32C (R513). -/

/-- Eight shift steps of the reflected Castagnoli polynomial. -/
def crcBits : Nat → Nat → Nat
  | 0, c => c
  | k + 1, c => crcBits k (if c % 2 = 1 then (c / 2) ^^^ 0x82F63B78 else c / 2)

/-- One byte into the CRC register. -/
def crcByte (c b : Nat) : Nat := crcBits 8 (c ^^^ b)

/-- The CRC register after bytes. -/
def crcFold (c : Nat) (l : List Nat) : Nat := l.foldl crcByte c

/-- CRC-32C of a byte string (R513). -/
def crc32c (l : List Nat) : Nat := (crcFold 0xFFFFFFFF l) ^^^ 0xFFFFFFFF

/-- One 32-bit word into the CRC register, bits 7:0 first (R513). -/
def crcWord (c w : Nat) : Nat := crcFold c (leBytes 4 w)

/-- Ceiling division of numbers. -/
def cdiv (a b : Nat) : Nat := (a + b - 1) / b

end Sys2Proof.Machine
end

