-- ==== Sys2Proof/Machine/RegTable.lean ====
section
/-!
DEFINITION. Machine/RegTable.lean: the register tables of the spec, page kind by page kind: each register's
name, offset in its page (or block), count and stride, and its fields with their access type (R62) and
reset value. Bits no field names are reserved (RSV): they read 0 and ignore writes.
-/
namespace Sys2Proof.Machine

/-- Access types (R62). `stg`: a read-write field of a staged entry (R69). `pf`: read-write for the PF
only, `pfwo`: write-only for the PF only (R379). `sv`: read-only, written by Surveyor. -/
inductive Acc where
  | ro | rw | shd | rwl | w1c | w1s | wo | stg | pf | pfwo | sv
deriving DecidableEq, Repr

/-- One field of a register: bits hi:lo, access type, reset value. -/
structure Fld where
  hi : Nat
  lo : Nat
  acc : Acc
  rst : Nat
deriving DecidableEq, Repr

/-- One register, or `cnt` registers `stride` bytes apart. `pair` is 1 for the low and 2 for the high
half of a 64-bit pair (R41, R71), else 0. -/
structure RegRow where
  name : String
  off : Nat
  cnt : Nat
  stride : Nat
  pair : Nat
  fields : List Fld
deriving DecidableEq, Repr

/-- A field of a register table row. -/
def f (hi lo : Nat) (acc : Acc) (rst : Nat) : Fld := ⟨hi, lo, acc, rst⟩

/-! Register offsets, by page kind. -/

/-- R22. -/
abbrev Reg.DEV_MODE : Nat := 0x100
/-- R23. -/
abbrev Reg.DEV_MODE_TIME_LO : Nat := 0x104
/-- R23. -/
abbrev Reg.DEV_MODE_TIME_HI : Nat := 0x108
/-- R20. -/
abbrev Reg.DEV_DEVTIME_LO : Nat := 0x110
/-- R20. -/
abbrev Reg.DEV_DEVTIME_HI : Nat := 0x114
/-- R531. -/
abbrev Reg.DEV_READY_MAP : Nat := 0x140
/-- R531. -/
abbrev Reg.DEV_READY_MAP_HEAD : Nat := 0x144
/-- R531. -/
abbrev Reg.DEV_READY_MAP_BAY_LO : Nat := 0x148
/-- R531. -/
abbrev Reg.DEV_READY_MAP_BAY_HI : Nat := 0x14C
/-- R531. -/
abbrev Reg.DEV_READY_MAP_MEMCH : Nat := 0x150
/-- R531. -/
abbrev Reg.DEV_MEM_INIT_WM_LO : Nat := 0x154
/-- R531. -/
abbrev Reg.DEV_MEM_INIT_WM_HI : Nat := 0x158
/-- R531. -/
abbrev Reg.DEV_BIST_INFO : Nat := 0x15C
/-- R531. -/
abbrev Reg.DEV_BOOT_COUNT : Nat := 0x160
/-- R502. -/
abbrev Reg.DEV_FAULT_SUMMARY : Nat := 0x180
/-- R502. -/
abbrev Reg.DEV_FAULT_SUMMARY_HEAD : Nat := 0x184
/-- R502. -/
abbrev Reg.DEV_FAULT_SUMMARY_BAY_LO : Nat := 0x188
/-- R502. -/
abbrev Reg.DEV_FAULT_SUMMARY_BAY_HI : Nat := 0x18C
/-- R502. -/
abbrev Reg.DEV_FAULT_SUMMARY_MEMCH : Nat := 0x190
/-- R502. -/
abbrev Reg.DEV_FAULT_SUMMARY_FUNC_LO : Nat := 0x194
/-- R502. -/
abbrev Reg.DEV_FAULT_SUMMARY_FUNC_HI : Nat := 0x198
/-- R502. -/
abbrev Reg.DEV_FAULT_SUMMARY_UNIT : Nat := 0x19C
/-- R503. -/
abbrev Reg.DEV_SAFE_INFO : Nat := 0x1A0
/-- R505. -/
abbrev Reg.DEV_SAFE_REQUEST : Nat := 0x1A4
/-- R506. -/
abbrev Reg.DEV_SAFE_BG0 : Nat := 0x1A8
/-- R506. -/
abbrev Reg.DEV_SAFE_BG1 : Nat := 0x1AC
/-- R506. -/
abbrev Reg.DEV_SAFE_BORDER0 : Nat := 0x1B0
/-- R506. -/
abbrev Reg.DEV_SAFE_BORDER1 : Nat := 0x1B4
/-- R519. -/
abbrev Reg.DEV_INJECT : Nat := 0x1B8
/-- R535. -/
abbrev Reg.CLKPWR_GCLK_STATUS : Nat := 0x100
/-- R535. -/
abbrev Reg.CLKPWR_GCLK_CAP : Nat := 0x104
/-- R535. -/
abbrev Reg.CLKPWR_SAG_STATUS : Nat := 0x108
/-- R535. -/
abbrev Reg.CLKPWR_SAG_COUNT : Nat := 0x10C
/-- R535. -/
abbrev Reg.CLKPWR_UNIT_SEL : Nat := 0x110
/-- R535. -/
abbrev Reg.CLKPWR_UNIT_CTRL : Nat := 0x114
/-- R599. -/
abbrev Reg.FABRIC_LINK_SPARED_LO : Nat := 0x100
/-- R599. -/
abbrev Reg.FABRIC_LINK_SPARED_HI : Nat := 0x104
/-- R599. -/
abbrev Reg.FABRIC_REPLAY_COUNT : Nat := 0x108
/-- R599. -/
abbrev Reg.FABRIC_LINK_INFO : Nat := 0x10C
/-- R44. -/
abbrev Reg.HDR_PAGE_ID : Nat := 0x0
/-- R45. -/
abbrev Reg.HDR_PAGE_REV : Nat := 0x4
/-- R46. -/
abbrev Reg.HDR_READY : Nat := 0x8
/-- R48. -/
abbrev Reg.HDR_CTRL : Nat := 0xC
/-- R63. -/
abbrev Reg.HDR_COMMIT : Nat := 0x10
/-- R64. -/
abbrev Reg.HDR_COMMIT_STATUS : Nat := 0x14
/-- R50. -/
abbrev Reg.HDR_IRQ_STATUS : Nat := 0x18
/-- R50. -/
abbrev Reg.HDR_IRQ_ENABLE : Nat := 0x1C
/-- R50. -/
abbrev Reg.HDR_IRQ_SET : Nat := 0x20
/-- R53. -/
abbrev Reg.HDR_FAULT_STATUS : Nat := 0x24
/-- R54. -/
abbrev Reg.HDR_FAULT_FIRST : Nat := 0x28
/-- R55. -/
abbrev Reg.HDR_FAULT_FIRST_TIME_LO : Nat := 0x2C
/-- R55. -/
abbrev Reg.HDR_FAULT_FIRST_TIME_HI : Nat := 0x30
/-- R56. -/
abbrev Reg.HDR_FAULT_ACTION0 : Nat := 0x34
/-- R56. -/
abbrev Reg.HDR_FAULT_ACTION1 : Nat := 0x38
/-- R57. -/
abbrev Reg.HDR_FAULT_INJECT : Nat := 0x3C
/-- R59. -/
abbrev Reg.HDR_OWNER : Nat := 0x40
/-- R60. -/
abbrev Reg.HDR_CFG_REJECT_INFO : Nat := 0x44
/-- R44. -/
abbrev Reg.LHDR_LAYER_ID : Nat := 0x0
/-- R46. -/
abbrev Reg.LHDR_LAYER_READY : Nat := 0x4
/-- R63. -/
abbrev Reg.LHDR_LAYER_COMMIT : Nat := 0x8
/-- R64. -/
abbrev Reg.LHDR_LAYER_COMMIT_STATUS : Nat := 0xC
/-- R59. -/
abbrev Reg.LHDR_LAYER_OWNER : Nat := 0x10
/-- R60. -/
abbrev Reg.LHDR_LAYER_CFG_REJECT_INFO : Nat := 0x14
/-- R83. -/
abbrev Reg.TIMING_PLL_CFG0 : Nat := 0x100
/-- R83. -/
abbrev Reg.TIMING_PLL_CFG1 : Nat := 0x104
/-- R84. -/
abbrev Reg.TIMING_PLL_STATUS : Nat := 0x108
/-- R89. -/
abbrev Reg.TIMING_H_ACTIVE : Nat := 0x110
/-- R89. -/
abbrev Reg.TIMING_H_FRONT : Nat := 0x114
/-- R89. -/
abbrev Reg.TIMING_H_SYNC : Nat := 0x118
/-- R89. -/
abbrev Reg.TIMING_H_BACK : Nat := 0x11C
/-- R89. -/
abbrev Reg.TIMING_V_ACTIVE : Nat := 0x120
/-- R89. -/
abbrev Reg.TIMING_V_FRONT : Nat := 0x124
/-- R89. -/
abbrev Reg.TIMING_V_SYNC : Nat := 0x128
/-- R89. -/
abbrev Reg.TIMING_V_BACK : Nat := 0x12C
/-- R90. -/
abbrev Reg.TIMING_TIMING_CFG : Nat := 0x130
/-- R93. -/
abbrev Reg.TIMING_FRAME_COUNT : Nat := 0x140
/-- R94. -/
abbrev Reg.TIMING_FRAME_TIME_LO : Nat := 0x144
/-- R94. -/
abbrev Reg.TIMING_FRAME_TIME_HI : Nat := 0x148
/-- R95. -/
abbrev Reg.TIMING_POSITION : Nat := 0x14C
/-- R107. -/
abbrev Reg.COMPOSER_FLIP_STATUS : Nat := 0x100
/-- R108. -/
abbrev Reg.COMPOSER_TARGET_FRAME : Nat := 0x104
/-- R108. -/
abbrev Reg.COMPOSER_NEXT_BAND : Nat := 0x108
/-- R102. -/
abbrev Reg.COMPOSER_BAND_CFG : Nat := 0x110
/-- R102. -/
abbrev Reg.COMPOSER_BAND_START : Nat := 0x114
/-- R113. -/
abbrev Reg.COMPOSER_OUT_M0 : Nat := 0x140
/-- R113. -/
abbrev Reg.COMPOSER_OUT_M1 : Nat := 0x144
/-- R113. -/
abbrev Reg.COMPOSER_OUT_M2 : Nat := 0x148
/-- R113. -/
abbrev Reg.COMPOSER_OUT_M3 : Nat := 0x14C
/-- R113. -/
abbrev Reg.COMPOSER_OUT_M4 : Nat := 0x150
/-- R113. -/
abbrev Reg.COMPOSER_OUT_PRE0 : Nat := 0x154
/-- R113. -/
abbrev Reg.COMPOSER_OUT_PRE1 : Nat := 0x158
/-- R113. -/
abbrev Reg.COMPOSER_OUT_POST0 : Nat := 0x15C
/-- R113. -/
abbrev Reg.COMPOSER_OUT_POST1 : Nat := 0x160
/-- R115. -/
abbrev Reg.COMPOSER_DITHER_CFG : Nat := 0x170
/-- R109. -/
abbrev Reg.COMPOSER_FLIP_SEQ : Nat := 0x200
/-- R109. -/
abbrev Reg.COMPOSER_FLIP_FRAME : Nat := 0x204
/-- R109. -/
abbrev Reg.COMPOSER_FLIP_TIME_LO : Nat := 0x208
/-- R109. -/
abbrev Reg.COMPOSER_FLIP_TIME_HI : Nat := 0x20C
/-- R157. -/
abbrev Reg.COMPOSER_BG_COLOUR0 : Nat := 0x400
/-- R157. -/
abbrev Reg.COMPOSER_BG_COLOUR1 : Nat := 0x404
/-- R157. -/
abbrev Reg.COMPOSER_UNDERRUN_COUNT : Nat := 0x408
/-- R157. -/
abbrev Reg.COMPOSER_UNDERRUN_LAYERS : Nat := 0x40C
/-- R157. -/
abbrev Reg.COMPOSER_HEAD_COST : Nat := 0x410
/-- R157. -/
abbrev Reg.COMPOSER_RT_TOTAL : Nat := 0x414
/-- R157. -/
abbrev Reg.COMPOSER_LAYER_FAULT_INFO : Nat := 0x418
/-- R157. -/
abbrev Reg.COMPOSER_LAYER_FAULT_ADDR_LO : Nat := 0x41C
/-- R157. -/
abbrev Reg.COMPOSER_LAYER_FAULT_ADDR_HI : Nat := 0x420
/-- R120. -/
abbrev Reg.DPLINK_LINK_CFG : Nat := 0x100
/-- R121. -/
abbrev Reg.DPLINK_LINK_STATUS : Nat := 0x104
/-- R121. -/
abbrev Reg.DPLINK_SINK_CAPS : Nat := 0x108
/-- R122. -/
abbrev Reg.DPLINK_DSC_CFG : Nat := 0x110
/-- R122. -/
abbrev Reg.DPLINK_DSC_SLICE : Nat := 0x114
/-- R129. -/
abbrev Reg.DPLINK_AUX_ADDR : Nat := 0x120
/-- R129. -/
abbrev Reg.DPLINK_AUX_CTRL : Nat := 0x124
/-- R129. -/
abbrev Reg.DPLINK_AUX_STATUS : Nat := 0x128
/-- R129. -/
abbrev Reg.DPLINK_AUX_DATA : Nat := 0x130
/-- R130. -/
abbrev Reg.DPLINK_EDID_STATUS : Nat := 0x140
/-- R130. -/
abbrev Reg.DPLINK_EDID_BUF : Nat := 0x800
/-- R137. -/
abbrev Reg.LAYER_LAYER_CTRL : Nat := 0x20
/-- R137. -/
abbrev Reg.LAYER_LAYER_FORMAT : Nat := 0x24
/-- R140. -/
abbrev Reg.LAYER_BUF_ADDR_LO : Nat := 0x28
/-- R140. -/
abbrev Reg.LAYER_BUF_ADDR_HI : Nat := 0x2C
/-- R140. -/
abbrev Reg.LAYER_AUX_ADDR_LO : Nat := 0x30
/-- R140. -/
abbrev Reg.LAYER_AUX_ADDR_HI : Nat := 0x34
/-- R140. -/
abbrev Reg.LAYER_PALETTE_ADDR_LO : Nat := 0x38
/-- R140. -/
abbrev Reg.LAYER_PALETTE_ADDR_HI : Nat := 0x3C
/-- R141. -/
abbrev Reg.LAYER_PITCH : Nat := 0x40
/-- R141. -/
abbrev Reg.LAYER_SRC_SIZE : Nat := 0x44
/-- R141. -/
abbrev Reg.LAYER_SRC_POS : Nat := 0x48
/-- R141. -/
abbrev Reg.LAYER_DST_POS : Nat := 0x4C
/-- R141. -/
abbrev Reg.LAYER_DST_SIZE : Nat := 0x50
/-- R142. -/
abbrev Reg.LAYER_PLANE_ALPHA : Nat := 0x54
/-- R142. -/
abbrev Reg.LAYER_CONST_COLOUR : Nat := 0x58
/-- R142. -/
abbrev Reg.LAYER_FILL : Nat := 0x5C
/-- R140. -/
abbrev Reg.LAYER_RETIRE_ADDR_LO : Nat := 0x60
/-- R140. -/
abbrev Reg.LAYER_RETIRE_ADDR_HI : Nat := 0x64
/-- R135. -/
abbrev Reg.LAYER_RETIRE_VALUE_LO : Nat := 0x68
/-- R135. -/
abbrev Reg.LAYER_RETIRE_VALUE_HI : Nat := 0x6C
/-- R151. -/
abbrev Reg.LAYER_LAYER_STATUS : Nat := 0x70
/-- R151. -/
abbrev Reg.LAYER_LAYER_HISTORY : Nat := 0x74
/-- R151. -/
abbrev Reg.LAYER_CUR_READ_FRAME : Nat := 0x78
/-- R151. -/
abbrev Reg.LAYER_PREV_READ_FRAME : Nat := 0x7C
/-- R169. -/
abbrev Reg.VENEER_VCFG : Nat := 0x100
/-- R169. -/
abbrev Reg.VENEER_VBUF_LO : Nat := 0x104
/-- R169. -/
abbrev Reg.VENEER_VBUF_HI : Nat := 0x108
/-- R169. -/
abbrev Reg.VENEER_VBUF_SIZE : Nat := 0x10C
/-- R169. -/
abbrev Reg.VENEER_VSTATUS : Nat := 0x110
/-- R169. -/
abbrev Reg.VENEER_VREADY_FRAME : Nat := 0x114
/-- R169. -/
abbrev Reg.VENEER_VFALLBACK_LINES : Nat := 0x118
/-- R169. -/
abbrev Reg.VENEER_VINVAL_COUNT : Nat := 0x11C
/-- R176. -/
abbrev Reg.LAYERV_SCL_CTRL : Nat := 0x80
/-- R176. -/
abbrev Reg.LAYERV_H_STEP : Nat := 0x84
/-- R176. -/
abbrev Reg.LAYERV_V_STEP : Nat := 0x88
/-- R176. -/
abbrev Reg.LAYERV_H_INIT : Nat := 0x8C
/-- R176. -/
abbrev Reg.LAYERV_V_INIT : Nat := 0x90
/-- R176. -/
abbrev Reg.LAYERV_SCL_STATUS : Nat := 0x94
/-- R191. -/
abbrev Reg.LAYERV_CSC_M0 : Nat := 0xA0
/-- R191. -/
abbrev Reg.LAYERV_CSC_M1 : Nat := 0xA4
/-- R191. -/
abbrev Reg.LAYERV_CSC_M2 : Nat := 0xA8
/-- R191. -/
abbrev Reg.LAYERV_CSC_M3 : Nat := 0xAC
/-- R191. -/
abbrev Reg.LAYERV_CSC_M4 : Nat := 0xB0
/-- R191. -/
abbrev Reg.LAYERV_CSC_PRE0 : Nat := 0xB4
/-- R191. -/
abbrev Reg.LAYERV_CSC_PRE1 : Nat := 0xB8
/-- R191. -/
abbrev Reg.LAYERV_CSC_POST0 : Nat := 0xBC
/-- R191. -/
abbrev Reg.LAYERV_CSC_POST1 : Nat := 0xC0
/-- R185. -/
abbrev Reg.SCALER_SET_OWNER : Nat := 0x100
/-- R185. -/
abbrev Reg.SCALER_SET_BUSY : Nat := 0x140
/-- R195. -/
abbrev Reg.LEGEND_PT_BASE_LO : Nat := 0x100
/-- R195. -/
abbrev Reg.LEGEND_PT_BASE_HI : Nat := 0x104
/-- R195. -/
abbrev Reg.LEGEND_PT_CFG : Nat := 0x108
/-- R195. -/
abbrev Reg.LEGEND_UPD_LO : Nat := 0x10C
/-- R195. -/
abbrev Reg.LEGEND_UPD_HI : Nat := 0x110
/-- R195. -/
abbrev Reg.LEGEND_UPD_RESULT : Nat := 0x114
/-- R195. -/
abbrev Reg.LEGEND_ACCEPTED : Nat := 0x118
/-- R195. -/
abbrev Reg.LEGEND_DROPPED : Nat := 0x11C
/-- R203. -/
abbrev Reg.LEGEND_PR_LO : Nat := 0x200
/-- R203. -/
abbrev Reg.LEGEND_PR_HI : Nat := 0x204
/-- R203. -/
abbrev Reg.LEGEND_SR_LO : Nat := 0x400
/-- R203. -/
abbrev Reg.LEGEND_SR_HI : Nat := 0x404
/-- R203. -/
abbrev Reg.LEGEND_GR_LO : Nat := 0x480
/-- R203. -/
abbrev Reg.LEGEND_GR_HI : Nat := 0x484
/-- R207. -/
abbrev Reg.LAYERL_LG_ORIGIN : Nat := 0x80
/-- R207. -/
abbrev Reg.LAYERL_LG_GRID : Nat := 0x84
/-- R207. -/
abbrev Reg.LAYERL_CELLMAP_LO : Nat := 0x88
/-- R207. -/
abbrev Reg.LAYERL_CELLMAP_HI : Nat := 0x8C
/-- R207. -/
abbrev Reg.LAYERL_CM_PITCH : Nat := 0x90
/-- R207. -/
abbrev Reg.LAYERL_BLINK01 : Nat := 0x94
/-- R207. -/
abbrev Reg.LAYERL_BLINK23 : Nat := 0x98
/-- R207. -/
abbrev Reg.LAYERL_LG_FILL : Nat := 0x9C
/-- R207. -/
abbrev Reg.LAYERL_LG_BAD_CELLS : Nat := 0xA0
/-- R207. -/
abbrev Reg.LAYERL_LG_MISS_LINES : Nat := 0xA4
/-- R249. -/
abbrev Reg.KERF_DEC_ERR_COUNT : Nat := 0x100
/-- R249. -/
abbrev Reg.KERF_DEC_ERR_INFO : Nat := 0x104
/-- R249. -/
abbrev Reg.KERF_DEC_ERR_ADDR_LO : Nat := 0x108
/-- R249. -/
abbrev Reg.KERF_DEC_ERR_ADDR_HI : Nat := 0x10C
/-- R249. -/
abbrev Reg.KERF_STAT_CFG : Nat := 0x200
/-- R249. -/
abbrev Reg.KERF_STAT_MAX : Nat := 0x204
/-- R249. -/
abbrev Reg.KERF_CNT_RAW : Nat := 0x208
/-- R249. -/
abbrev Reg.KERF_CNT_L1 : Nat := 0x20C
/-- R249. -/
abbrev Reg.KERF_CNT_L2 : Nat := 0x210
/-- R249. -/
abbrev Reg.KERF_CNT_L3 : Nat := 0x214
/-- R249. -/
abbrev Reg.KERF_CNT_L4 : Nat := 0x218
/-- R249. -/
abbrev Reg.KERF_CNT_L5 : Nat := 0x21C
/-- R249. -/
abbrev Reg.KERF_CNT_L6 : Nat := 0x220
/-- R249. -/
abbrev Reg.KERF_CNT_L7 : Nat := 0x224
/-- R249. -/
abbrev Reg.KERF_CNT_H0 : Nat := 0x228
/-- R249. -/
abbrev Reg.KERF_CNT_H1 : Nat := 0x22C
/-- R249. -/
abbrev Reg.KERF_CNT_H2 : Nat := 0x230
/-- R249. -/
abbrev Reg.KERF_CNT_H3 : Nat := 0x234
/-- R249. -/
abbrev Reg.KERF_CNT_H4 : Nat := 0x238
/-- R249. -/
abbrev Reg.KERF_CNT_H5 : Nat := 0x23C
/-- R249. -/
abbrev Reg.KERF_CNT_H6 : Nat := 0x240
/-- R249. -/
abbrev Reg.KERF_CNT_CLEAR : Nat := 0x244
/-- R249. -/
abbrev Reg.KERF_CNT_SECTORS : Nat := 0x248
/-- R287. -/
abbrev Reg.RENDERFE_BAY_FENCED_LO : Nat := 0x100
/-- R287. -/
abbrev Reg.RENDERFE_BAY_FENCED_HI : Nat := 0x104
/-- R287. -/
abbrev Reg.RENDERFE_BAY_AVAIL : Nat := 0x108
/-- R287. -/
abbrev Reg.RENDERFE_REPLAY_COUNT : Nat := 0x10C
/-- R287. -/
abbrev Reg.RENDERFE_LOSS_COUNT : Nat := 0x110
/-- R288. -/
abbrev Reg.BIN_PARTIAL_FLUSH_COUNT : Nat := 0x100
/-- R288. -/
abbrev Reg.BIN_LAST_FLUSH : Nat := 0x104
/-- R289. -/
abbrev Reg.BAY_BAY_STATUS : Nat := 0x100
/-- R289. -/
abbrev Reg.BAY_TILES_DONE : Nat := 0x104
/-- R328. -/
abbrev Reg.SCHED_FENCE_TIMEOUT : Nat := 0x100
/-- R328. -/
abbrev Reg.SCHED_WATCHDOG : Nat := 0x104
/-- R328. -/
abbrev Reg.SCHED_TRANSLATE : Nat := 0x108
/-- R328. -/
abbrev Reg.SCHED_DEADLINE_MARGIN : Nat := 0x10C
/-- R328. -/
abbrev Reg.SCHED_JOBS : Nat := 0x110
/-- R328. -/
abbrev Reg.SCHED_FUNC_JOB_CAP : Nat := 0x114
/-- R328. -/
abbrev Reg.SCHED_DEADLINE_MISS : Nat := 0x118
/-- R328. -/
abbrev Reg.SCHED_PREEMPT_COUNT : Nat := 0x11C
/-- R328. -/
abbrev Reg.SCHED_PREEMPT_MAX_NS : Nat := 0x120
/-- R328. -/
abbrev Reg.SCHED_TC_HITS : Nat := 0x124
/-- R328. -/
abbrev Reg.SCHED_TC_MISSES : Nat := 0x128
/-- R328. -/
abbrev Reg.SCHED_TC_FAILS : Nat := 0x12C
/-- R328. -/
abbrev Reg.SCHED_TC_USED : Nat := 0x130
/-- R328. -/
abbrev Reg.SCHED_TC_LAST : Nat := 0x134
/-- R328. -/
abbrev Reg.SCHED_FUNC_LIMIT : Nat := 0x200
/-- R364. -/
abbrev Reg.MEMCTL_USABLE_PAGES : Nat := 0x100
/-- R364. -/
abbrev Reg.MEMCTL_CHAN_MAP : Nat := 0x104
/-- R364. -/
abbrev Reg.MEMCTL_RECODE_CFG : Nat := 0x108
/-- R364. -/
abbrev Reg.MEMCTL_RECODE_STATUS : Nat := 0x10C
/-- R364. -/
abbrev Reg.MEMCTL_STALE_WINDOW_MAX_LO : Nat := 0x110
/-- R364. -/
abbrev Reg.MEMCTL_STALE_WINDOW_MAX_HI : Nat := 0x114
/-- R364. -/
abbrev Reg.MEMCTL_STALE_OLDEST_LO : Nat := 0x118
/-- R364. -/
abbrev Reg.MEMCTL_STALE_OLDEST_HI : Nat := 0x11C
/-- R364. -/
abbrev Reg.MEMCTL_SCRUB_PERIOD : Nat := 0x120
/-- R364. -/
abbrev Reg.MEMCTL_SCRUB_PASSES : Nat := 0x124
/-- R364. -/
abbrev Reg.MEMCTL_SCRUB_POS : Nat := 0x128
/-- R364. -/
abbrev Reg.MEMCTL_CE_TOTAL : Nat := 0x12C
/-- R364. -/
abbrev Reg.MEMCTL_UE_TOTAL : Nat := 0x130
/-- R364. -/
abbrev Reg.MEMCTL_ERR_INFO : Nat := 0x134
/-- R364. -/
abbrev Reg.MEMCTL_ERR_ADDR_LO : Nat := 0x138
/-- R364. -/
abbrev Reg.MEMCTL_ERR_ADDR_HI : Nat := 0x13C
/-- R364. -/
abbrev Reg.MEMCTL_MIRROR_STATUS : Nat := 0x140
/-- R364. -/
abbrev Reg.MEMCTL_MIR_LO : Nat := 0x200
/-- R364. -/
abbrev Reg.MEMCTL_MIR_HI : Nat := 0x204
/-- R366. -/
abbrev Reg.MEMCH_CH_STATUS : Nat := 0x100
/-- R366. -/
abbrev Reg.MEMCH_CE_COUNT : Nat := 0x104
/-- R366. -/
abbrev Reg.MEMCH_UE_COUNT : Nat := 0x108
/-- R366. -/
abbrev Reg.MEMCH_FORCED_REFAB : Nat := 0x10C
/-- R366. -/
abbrev Reg.MEMCH_RETRAINS : Nat := 0x110
/-- R366. -/
abbrev Reg.MEMCH_TEMP : Nat := 0x114
/-- R366. -/
abbrev Reg.MEMCH_SR_CFG : Nat := 0x118
/-- R366. -/
abbrev Reg.MEMCH_SR_COUNT : Nat := 0x11C
/-- R368. -/
abbrev Reg.SHIM_SHIM_USED : Nat := 0x100
/-- R368. -/
abbrev Reg.SHIM_SHIM_LO : Nat := 0x200
/-- R368. -/
abbrev Reg.SHIM_SHIM_HI : Nat := 0x204
/-- R381. -/
abbrev Reg.FUNC_FUNC_STATUS : Nat := 0x100
/-- R381. -/
abbrev Reg.FUNC_FUNC_CTRL : Nat := 0x104
/-- R381. -/
abbrev Reg.FUNC_MODE_MIRROR : Nat := 0x108
/-- R381. -/
abbrev Reg.FUNC_DEVTIME_LO : Nat := 0x10C
/-- R381. -/
abbrev Reg.FUNC_DEVTIME_HI : Nat := 0x110
/-- R381. -/
abbrev Reg.FUNC_CTX_BASE_LO : Nat := 0x118
/-- R381. -/
abbrev Reg.FUNC_CTX_BASE_HI : Nat := 0x11C
/-- R381. -/
abbrev Reg.FUNC_S2_ROOT_LO : Nat := 0x120
/-- R381. -/
abbrev Reg.FUNC_S2_ROOT_HI : Nat := 0x124
/-- R381. -/
abbrev Reg.FUNC_VEC_MAP : Nat := 0x128
/-- R381. -/
abbrev Reg.FUNC_CQ_MOD : Nat := 0x12C
/-- R381. -/
abbrev Reg.FUNC_XFAULT_INFO : Nat := 0x130
/-- R381. -/
abbrev Reg.FUNC_XFAULT_ADDR_LO : Nat := 0x134
/-- R381. -/
abbrev Reg.FUNC_XFAULT_ADDR_HI : Nat := 0x138
/-- R381. -/
abbrev Reg.FUNC_REVOKE_INFO : Nat := 0x13C
/-- R381. -/
abbrev Reg.FUNC_STALE_GEN_COUNT : Nat := 0x140
/-- R381. -/
abbrev Reg.FUNC_LAYER_EVENTS : Nat := 0x144
/-- R381. -/
abbrev Reg.FUNC_DB_BAD_COUNT : Nat := 0x148
/-- R381. -/
abbrev Reg.FUNC_S1INV_ADDR_LO : Nat := 0x150
/-- R381. -/
abbrev Reg.FUNC_S1INV_ADDR_HI : Nat := 0x154
/-- R381. -/
abbrev Reg.FUNC_S1INV_CMD : Nat := 0x158
/-- R381. -/
abbrev Reg.FUNC_MIG_CTRL : Nat := 0x160
/-- R381. -/
abbrev Reg.FUNC_MIG_STATUS : Nat := 0x164
/-- R381. -/
abbrev Reg.FUNC_MIG_ADDR_LO : Nat := 0x168
/-- R381. -/
abbrev Reg.FUNC_MIG_ADDR_HI : Nat := 0x16C
/-- R381. -/
abbrev Reg.FUNC_SLOT : Nat := 0x180
/-- R382. -/
abbrev Reg.FUNC_RING_BASE_LO : Nat := 0x200
/-- R382. -/
abbrev Reg.FUNC_RING_BASE_HI : Nat := 0x204
/-- R382. -/
abbrev Reg.FUNC_RING_CTRL : Nat := 0x208
/-- R382. -/
abbrev Reg.FUNC_RING_HEAD : Nat := 0x20C
/-- R382. -/
abbrev Reg.FUNC_RING_TAIL : Nat := 0x210
/-- R382. -/
abbrev Reg.FUNC_RING_STATUS : Nat := 0x214
/-- R373. -/
abbrev Reg.FUNC_DOORBELL : Nat := 0x800
/-- R389. -/
abbrev Reg.FUNC_MSIX : Nat := 0xC00
/-- R389. -/
abbrev Reg.FUNC_MSIX_PBA : Nat := 0xD00
/-- R439. -/
abbrev Reg.WORLD_WORLD_CTRL : Nat := 0x100
/-- R439. -/
abbrev Reg.WORLD_CORE_CFG : Nat := 0x104
/-- R439. -/
abbrev Reg.WORLD_HW_WATERMARK : Nat := 0x108
/-- R439. -/
abbrev Reg.WORLD_ISO_LEVEL : Nat := 0x10C
/-- R439. -/
abbrev Reg.WORLD_HW_BUDGET : Nat := 0x110
/-- R439. -/
abbrev Reg.WORLD_WDOG : Nat := 0x114
/-- R439. -/
abbrev Reg.WORLD_WCALL_VECTOR_LO : Nat := 0x118
/-- R439. -/
abbrev Reg.WORLD_WCALL_VECTOR_HI : Nat := 0x11C
/-- R439. -/
abbrev Reg.WORLD_RESET_VECTOR_LO : Nat := 0x120
/-- R439. -/
abbrev Reg.WORLD_RESET_VECTOR_HI : Nat := 0x124
/-- R439. -/
abbrev Reg.WORLD_SEC_IRQ_TARGET : Nat := 0x128
/-- R439. -/
abbrev Reg.WORLD_SEC_IRQ_NEXT : Nat := 0x12C
/-- R439. -/
abbrev Reg.WORLD_SAFE_OK : Nat := 0x130
/-- R439. -/
abbrev Reg.WORLD_HW_CTRL : Nat := 0x134
/-- R439. -/
abbrev Reg.WORLD_CORE_WORLD : Nat := 0x138
/-- R439. -/
abbrev Reg.WORLD_WM_BLOCK_INFO : Nat := 0x140
/-- R439. -/
abbrev Reg.WORLD_WM_BLOCK_ADDR_LO : Nat := 0x144
/-- R439. -/
abbrev Reg.WORLD_WM_BLOCK_ADDR_HI : Nat := 0x148
/-- R439. -/
abbrev Reg.WORLD_HW_CTX_BASE_LO : Nat := 0x150
/-- R439. -/
abbrev Reg.WORLD_HW_CTX_BASE_HI : Nat := 0x154
/-- R439. -/
abbrev Reg.WORLD_CLAIM : Nat := 0x200
/-- R382. -/
abbrev Reg.WORLD_RING_BASE_LO : Nat := 0x300
/-- R382. -/
abbrev Reg.WORLD_RING_BASE_HI : Nat := 0x304
/-- R382. -/
abbrev Reg.WORLD_RING_CTRL : Nat := 0x308
/-- R382. -/
abbrev Reg.WORLD_RING_HEAD : Nat := 0x30C
/-- R382. -/
abbrev Reg.WORLD_RING_TAIL : Nat := 0x310
/-- R382. -/
abbrev Reg.WORLD_RING_STATUS : Nat := 0x314
/-- R373. -/
abbrev Reg.WORLD_DOORBELL : Nat := 0x800
/-- R440. -/
abbrev Reg.CTRLCPLX_CORE_STATUS : Nat := 0x100
/-- R440. -/
abbrev Reg.CTRLCPLX_SAP_IRQ_TARGET : Nat := 0x104
/-- R440. -/
abbrev Reg.CTRLCPLX_SAP_IRQ_NEXT : Nat := 0x108
/-- R440. -/
abbrev Reg.CTRLCPLX_WM_MIRROR : Nat := 0x10C
/-- R440. -/
abbrev Reg.CTRLCPLX_HW_STATE : Nat := 0x110
/-- R440. -/
abbrev Reg.CTRLCPLX_SAP_CTX_BASE_LO : Nat := 0x118
/-- R440. -/
abbrev Reg.CTRLCPLX_SAP_CTX_BASE_HI : Nat := 0x11C
/-- R382. -/
abbrev Reg.CTRLCPLX_RING_BASE_LO : Nat := 0x200
/-- R382. -/
abbrev Reg.CTRLCPLX_RING_BASE_HI : Nat := 0x204
/-- R382. -/
abbrev Reg.CTRLCPLX_RING_CTRL : Nat := 0x208
/-- R382. -/
abbrev Reg.CTRLCPLX_RING_HEAD : Nat := 0x20C
/-- R382. -/
abbrev Reg.CTRLCPLX_RING_TAIL : Nat := 0x210
/-- R382. -/
abbrev Reg.CTRLCPLX_RING_STATUS : Nat := 0x214
/-- R373. -/
abbrev Reg.CTRLCPLX_DOORBELL : Nat := 0x800
/-- R404. -/
abbrev Reg.XLATE_S2INV_ADDR_LO : Nat := 0x100
/-- R404. -/
abbrev Reg.XLATE_S2INV_ADDR_HI : Nat := 0x104
/-- R404. -/
abbrev Reg.XLATE_S2INV_CMD : Nat := 0x108
/-- R404. -/
abbrev Reg.XLATE_WALKS : Nat := 0x140
/-- R404. -/
abbrev Reg.XLATE_FAULTS : Nat := 0x144
/-- R404. -/
abbrev Reg.XLATE_CACHE_PARITY : Nat := 0x148
/-- R405. -/
abbrev Reg.HOSTIF_LINK : Nat := 0x100
/-- R405. -/
abbrev Reg.HOSTIF_IDS : Nat := 0x104
/-- R405. -/
abbrev Reg.HOSTIF_SRIOV : Nat := 0x108
/-- R405. -/
abbrev Reg.HOSTIF_VF_BAR2 : Nat := 0x10C
/-- R405. -/
abbrev Reg.HOSTIF_MEM_BASE_LO : Nat := 0x110
/-- R405. -/
abbrev Reg.HOSTIF_MEM_BASE_HI : Nat := 0x114
/-- R405. -/
abbrev Reg.HOSTIF_MEM_LIMIT_LO : Nat := 0x118
/-- R405. -/
abbrev Reg.HOSTIF_MEM_LIMIT_HI : Nat := 0x11C
/-- R405. -/
abbrev Reg.HOSTIF_BAR2_SLIDE : Nat := 0x120
/-- R405. -/
abbrev Reg.HOSTIF_PORT_SHARE : Nat := 0x124
/-- R405. -/
abbrev Reg.HOSTIF_MALFORMED_COUNT : Nat := 0x128
/-- R405. -/
abbrev Reg.HOSTIF_POISONED_COUNT : Nat := 0x12C
/-- R405. -/
abbrev Reg.HOSTIF_UR_COUNT : Nat := 0x130
/-- R405. -/
abbrev Reg.HOSTIF_CPL_TIMEOUT_COUNT : Nat := 0x134
/-- R460. -/
abbrev Reg.KEYS_KEYS_CFG : Nat := 0x100
/-- R460. -/
abbrev Reg.KEYS_PORT_EN : Nat := 0x104
/-- R460. -/
abbrev Reg.KEYS_SCAN_STATUS : Nat := 0x108
/-- R460. -/
abbrev Reg.KEYS_SELFTEST : Nat := 0x10C
/-- R460. -/
abbrev Reg.KEYS_ST_LIMITS : Nat := 0x110
/-- R460. -/
abbrev Reg.KEYS_NEIGH_LIMIT : Nat := 0x114
/-- R460. -/
abbrev Reg.KEYS_PROBE_SEL : Nat := 0x118
/-- R460. -/
abbrev Reg.KEYS_PROBE_DATA : Nat := 0x11C
/-- R460. -/
abbrev Reg.KEYS_EVENTS_LOST : Nat := 0x120
/-- R460. -/
abbrev Reg.KEYS_BIND_DENIED : Nat := 0x124
/-- R460. -/
abbrev Reg.KEYS_EQ_BASE_LO : Nat := 0x200
/-- R460. -/
abbrev Reg.KEYS_EQ_BASE_HI : Nat := 0x204
/-- R460. -/
abbrev Reg.KEYS_EQ_HEAD : Nat := 0x208
/-- R460. -/
abbrev Reg.KEYS_EQ_TAIL : Nat := 0x20C
/-- R460. -/
abbrev Reg.KEYS_KEY_THRESH : Nat := 0x400
/-- R460. -/
abbrev Reg.KEYS_KEY_CFG : Nat := 0x800
/-- R460. -/
abbrev Reg.KEYS_KEY_STATE : Nat := 0xC00
/-- R470. -/
abbrev Reg.HAPTIC_RAIL_STATUS : Nat := 0x100
/-- R470. -/
abbrev Reg.HAPTIC_POWER_CAP : Nat := 0x104
/-- R470. -/
abbrev Reg.HAPTIC_SCALE : Nat := 0x108
/-- R470. -/
abbrev Reg.HAPTIC_CAP_COUNT : Nat := 0x10C
/-- R464. -/
abbrev Reg.HAPTIC_EFFECT_W0 : Nat := 0x400
/-- R464. -/
abbrev Reg.HAPTIC_EFFECT_W1 : Nat := 0x404
/-- R464. -/
abbrev Reg.HAPTIC_EFFECT_W2 : Nat := 0x408
/-- R464. -/
abbrev Reg.HAPTIC_EFFECT_W3 : Nat := 0x40C
/-- R471. -/
abbrev Reg.HAPCH_HCFG : Nat := 0x100
/-- R471. -/
abbrev Reg.HAPCH_HLIMITS : Nat := 0x104
/-- R471. -/
abbrev Reg.HAPCH_TRIGGER : Nat := 0x108
/-- R471. -/
abbrev Reg.HAPCH_HSTATUS : Nat := 0x10C
/-- R471. -/
abbrev Reg.HAPCH_HALF_PERIOD : Nat := 0x110
/-- R471. -/
abbrev Reg.HAPCH_MEAS : Nat := 0x114
/-- R471. -/
abbrev Reg.HAPCH_TRIG_COUNT : Nat := 0x118
/-- R471. -/
abbrev Reg.HAPCH_ZC_MISSED : Nat := 0x11C
/-- R492. -/
abbrev Reg.AUDIO_ACFG : Nat := 0x100
/-- R492. -/
abbrev Reg.AUDIO_BANK : Nat := 0x104
/-- R492. -/
abbrev Reg.AUDIO_SAMPLE_COUNT : Nat := 0x108
/-- R492. -/
abbrev Reg.AUDIO_SRC_UNDERRUN : Nat := 0x10C
/-- R492. -/
abbrev Reg.AUDIO_SRC_ERROR : Nat := 0x110
/-- R492. -/
abbrev Reg.AUDIO_UNDERRUN_MAP_LO : Nat := 0x114
/-- R492. -/
abbrev Reg.AUDIO_UNDERRUN_MAP_HI : Nat := 0x118
/-- R492. -/
abbrev Reg.AUDIO_METER_CFG : Nat := 0x11C
/-- R492. -/
abbrev Reg.AUDIO_TDM_CFG : Nat := 0x120
/-- R492. -/
abbrev Reg.AUDIO_CLAMP_COUNT : Nat := 0x124
/-- R492. -/
abbrev Reg.AUDIO_TDMIN_SEL : Nat := 0x140
/-- R492. -/
abbrev Reg.AUDIO_SIL_CFG : Nat := 0x160
/-- R492. -/
abbrev Reg.AUDIO_SIL_TIME : Nat := 0x164
/-- R492. -/
abbrev Reg.AUDIO_BUS_PEAK : Nat := 0x200
/-- R492. -/
abbrev Reg.AUDIO_BUS_MS : Nat := 0x204
/-- R492. -/
abbrev Reg.AUDIO_SINK_PEAK : Nat := 0x300
/-- R492. -/
abbrev Reg.AUDIO_SINK_MS : Nat := 0x304
/-- R492. -/
abbrev Reg.AUDIO_SRC_BASE_LO : Nat := 0x500
/-- R492. -/
abbrev Reg.AUDIO_SRC_BASE_HI : Nat := 0x504
/-- R492. -/
abbrev Reg.AUDIO_SRC_PTR : Nat := 0x508
/-- R492. -/
abbrev Reg.AUDIO_SRC_OWNER : Nat := 0x50C
/-- R492. -/
abbrev Reg.AUDIO_TONE_CTRL : Nat := 0x800
/-- R492. -/
abbrev Reg.AUDIO_TONE_FREQ : Nat := 0x804
/-- R492. -/
abbrev Reg.AUDIO_TONE_AMP : Nat := 0x808
/-- R492. -/
abbrev Reg.AUDIO_TONE_ENV : Nat := 0x80C
/-- R492. -/
abbrev Reg.AUDIO_TONE_CADENCE : Nat := 0x810
/-- R492. -/
abbrev Reg.AUDIO_TONE_ROUTE_LO : Nat := 0x814
/-- R492. -/
abbrev Reg.AUDIO_TONE_ROUTE_HI : Nat := 0x818
/-- R492. -/
abbrev Reg.AUDIO_TONE_STATUS : Nat := 0x81C
/-- R493. -/
abbrev Reg.AUDIO_SINK_ROUTE0 : Nat := 0x900
/-- R493. -/
abbrev Reg.AUDIO_SINK_THRESH0 : Nat := 0x904
/-- R493. -/
abbrev Reg.AUDIO_SINK_RELEASE0 : Nat := 0x908
/-- R493. -/
abbrev Reg.AUDIO_SINK_ROUTE1 : Nat := 0xC80
/-- R493. -/
abbrev Reg.AUDIO_SINK_THRESH1 : Nat := 0xC84
/-- R493. -/
abbrev Reg.AUDIO_SINK_RELEASE1 : Nat := 0xC88
/-- R514. -/
abbrev Reg.CVU_CVU_CFG : Nat := 0x100
/-- R514. -/
abbrev Reg.CVU_CVU_RECT_POS : Nat := 0x104
/-- R514. -/
abbrev Reg.CVU_CVU_RECT_SIZE : Nat := 0x108
/-- R514. -/
abbrev Reg.CVU_CVU_COUNT : Nat := 0x10C
/-- R514. -/
abbrev Reg.CVU_CVU_BASE_LO : Nat := 0x110
/-- R514. -/
abbrev Reg.CVU_CVU_BASE_HI : Nat := 0x114
/-- R514. -/
abbrev Reg.CVU_CVU_LIMIT_LO : Nat := 0x118
/-- R514. -/
abbrev Reg.CVU_CVU_LIMIT_HI : Nat := 0x11C
/-- R514. -/
abbrev Reg.CVU_CVU_CLOSE : Nat := 0x120
/-- R514. -/
abbrev Reg.CVU_CVU_EXPECT : Nat := 0x124
/-- R514. -/
abbrev Reg.CVU_CVU_CMP : Nat := 0x128
/-- R514. -/
abbrev Reg.CVU_RESULT : Nat := 0x140
/-- R514. -/
abbrev Reg.CVU_RESULT_SEQ : Nat := 0x144
/-- R514. -/
abbrev Reg.CVU_RESULT_STATUS : Nat := 0x148
/-- R514. -/
abbrev Reg.CVU_RESULT_TIME_LO : Nat := 0x14C
/-- R514. -/
abbrev Reg.CVU_RESULT_TIME_HI : Nat := 0x150
/-- R545. -/
abbrev Reg.SURVEYOR_MB_INFO : Nat := 0x100
/-- R545. -/
abbrev Reg.SURVEYOR_MB_REQ : Nat := 0x200
/-- R545. -/
abbrev Reg.SURVEYOR_MB_STATUS : Nat := 0x204
/-- R545. -/
abbrev Reg.SURVEYOR_MB_REQBUF0 : Nat := 0x300
/-- R545. -/
abbrev Reg.SURVEYOR_MB_RSPBUF0 : Nat := 0x400
/-- R545. -/
abbrev Reg.SURVEYOR_MB_REQBUF1 : Nat := 0x600
/-- R545. -/
abbrev Reg.SURVEYOR_MB_RSPBUF1 : Nat := 0x700
/-- R545. -/
abbrev Reg.SURVEYOR_MB_REQBUF2 : Nat := 0x900
/-- R545. -/
abbrev Reg.SURVEYOR_MB_RSPBUF2 : Nat := 0xA00
/-- R545. -/
abbrev Reg.SURVEYOR_MB_REQBUF3 : Nat := 0xC00
/-- R545. -/
abbrev Reg.SURVEYOR_MB_RSPBUF3 : Nat := 0xD00
/-- R582. -/
abbrev Reg.LEGACY_LEG_STATUS : Nat := 0x100
/-- R582. -/
abbrev Reg.LEGACY_DE_RING_BASE_LO : Nat := 0x104
/-- R582. -/
abbrev Reg.LEGACY_DE_RING_BASE_HI : Nat := 0x108
/-- R582. -/
abbrev Reg.LEGACY_DE_RING_WR : Nat := 0x10C
/-- R582. -/
abbrev Reg.LEGACY_DE_RING_RD : Nat := 0x110
/-- R582. -/
abbrev Reg.LEGACY_DE_REPORT : Nat := 0x114
/-- R582. -/
abbrev Reg.LEGACY_XLATE_REJECT : Nat := 0x118
/-- R582. -/
abbrev Reg.LEGACY_REJECT_COUNT : Nat := 0x11C
/-- R582. -/
abbrev Reg.LEGACY_KEY_DROPS : Nat := 0x120
/-- R582. -/
abbrev Reg.LEGACY_DE_OVERFLOW_COUNT : Nat := 0x124
/-- R582. -/
abbrev Reg.LEGACY_DROPPED_ACCESS : Nat := 0x128

/-- Registers of DEV (R20, R22, R23, R502, R503, R505, R531). -/
def rowsDev0 : List RegRow := [
  ⟨"MODE", 0x100, 1, 0, 0, [f 11 11 .ro 0x0, f 10 8 .ro 0x0, f 5 5 .ro 0x0, f 4 4 .ro 0x0, f 2 0 .ro 0x1]⟩,
  ⟨"MODE_TIME_LO", 0x104, 1, 0, 1, [f 31 0 .ro 0x0]⟩,
  ⟨"MODE_TIME_HI", 0x108, 1, 0, 2, [f 31 0 .ro 0x0]⟩,
  ⟨"DEVTIME_LO", 0x110, 1, 0, 1, [f 31 0 .ro 0x0]⟩,
  ⟨"DEVTIME_HI", 0x114, 1, 0, 2, [f 31 0 .ro 0x0]⟩,
  ⟨"READY_MAP", 0x140, 1, 0, 0, [f 25 0 .ro 0x0]⟩,
  ⟨"READY_MAP_HEAD", 0x144, 1, 0, 0, [f 11 0 .ro 0x0]⟩,
  ⟨"READY_MAP_BAY_LO", 0x148, 1, 0, 1, [f 31 0 .ro 0x0]⟩,
  ⟨"READY_MAP_BAY_HI", 0x14C, 1, 0, 2, [f 31 0 .ro 0x0]⟩,
  ⟨"READY_MAP_MEMCH", 0x150, 1, 0, 0, [f 31 0 .ro 0x0]⟩,
  ⟨"MEM_INIT_WM_LO", 0x154, 1, 0, 1, [f 31 0 .ro 0x0]⟩,
  ⟨"MEM_INIT_WM_HI", 0x158, 1, 0, 2, [f 31 0 .ro 0x0]⟩,
  ⟨"BIST_INFO", 0x15C, 1, 0, 0, [f 31 31 .ro 0x0, f 30 24 .ro 0x0, f 15 0 .ro 0x0]⟩,
  ⟨"BOOT_COUNT", 0x160, 1, 0, 0, [f 31 0 .ro 0x0]⟩,
  ⟨"FAULT_SUMMARY", 0x180, 1, 0, 0, [f 30 28 .ro 0x0, f 25 0 .ro 0x0]⟩,
  ⟨"FAULT_SUMMARY_HEAD", 0x184, 1, 0, 0, [f 11 0 .ro 0x0]⟩,
  ⟨"FAULT_SUMMARY_BAY_LO", 0x188, 1, 0, 1, [f 31 0 .ro 0x0]⟩,
  ⟨"FAULT_SUMMARY_BAY_HI", 0x18C, 1, 0, 2, [f 31 0 .ro 0x0]⟩,
  ⟨"FAULT_SUMMARY_MEMCH", 0x190, 1, 0, 0, [f 31 0 .ro 0x0]⟩,
  ⟨"FAULT_SUMMARY_FUNC_LO", 0x194, 1, 0, 1, [f 31 0 .ro 0x0]⟩,
  ⟨"FAULT_SUMMARY_FUNC_HI", 0x198, 1, 0, 2, [f 31 0 .ro 0x0]⟩,
  ⟨"FAULT_SUMMARY_UNIT", 0x19C, 1, 0, 0, [f 31 16 .ro 0x0, f 15 0 .ro 0x0]⟩,
  ⟨"SAFE_INFO", 0x1A0, 1, 0, 0, [f 31 31 .ro 0x0, f 30 30 .ro 0x0, f 29 28 .ro 0x0, f 25 12 .ro 0x0, f 10 8 .ro 0x0, f 7 0 .ro 0x0]⟩,
  ⟨"SAFE_REQUEST", 0x1A4, 1, 0, 0, [f 31 0 .wo 0x0]⟩]
/-- Registers of DEV (R506, R519). -/
def rowsDev1 : List RegRow := [
  ⟨"SAFE_BG0", 0x1A8, 1, 0, 0, [f 27 16 .rw 0x0, f 11 0 .rw 0x0]⟩,
  ⟨"SAFE_BG1", 0x1AC, 1, 0, 0, [f 11 0 .rw 0x0]⟩,
  ⟨"SAFE_BORDER0", 0x1B0, 1, 0, 0, [f 27 16 .rw 0x0, f 11 0 .rw 0xFFF]⟩,
  ⟨"SAFE_BORDER1", 0x1B4, 1, 0, 0, [f 11 0 .rw 0x0]⟩,
  ⟨"INJECT", 0x1B8, 1, 0, 0, [f 0 0 .sv 0x0]⟩]
/-- All registers of DEV. -/
def rowsDev : List RegRow := rowsDev0 ++ rowsDev1

/-- Registers of CLKPWR (R535). -/
def rowsClkpwr : List RegRow := [
  ⟨"GCLK_STATUS", 0x100, 1, 0, 0, [f 11 8 .ro 0x0, f 1 0 .ro 0x0]⟩,
  ⟨"GCLK_CAP", 0x104, 1, 0, 0, [f 1 0 .rw 0x0]⟩,
  ⟨"SAG_STATUS", 0x108, 1, 0, 0, [f 4 3 .ro 0x0, f 2 2 .ro 0x0, f 1 1 .ro 0x0, f 0 0 .ro 0x0]⟩,
  ⟨"SAG_COUNT", 0x10C, 1, 0, 0, [f 31 0 .ro 0x0]⟩,
  ⟨"UNIT_SEL", 0x110, 1, 0, 0, [f 13 0 .rw 0x0]⟩,
  ⟨"UNIT_CTRL", 0x114, 1, 0, 0, [f 2 2 .rw 0x0, f 1 1 .rw 0x0, f 0 0 .rw 0x0]⟩]

/-- Registers of FABRIC (R599). -/
def rowsFabric : List RegRow := [
  ⟨"LINK_SPARED_LO", 0x100, 1, 0, 1, [f 26 0 .ro 0x0]⟩,
  ⟨"LINK_SPARED_HI", 0x104, 1, 0, 2, [f 7 0 .ro 0x0]⟩,
  ⟨"REPLAY_COUNT", 0x108, 1, 0, 0, [f 31 0 .ro 0x0]⟩,
  ⟨"LINK_INFO", 0x10C, 1, 0, 0, [f 31 31 .w1c 0x0, f 7 0 .ro 0x0]⟩]

/-- Registers of HDR (R44, R45, R46, R48, R50, R53, R54, R55, R56, R57, R59, R60, R63, R64). -/
def rowsHdr : List RegRow := [
  ⟨"PAGE_ID", 0x0, 1, 0, 0, [f 31 16 .ro 0x0, f 15 8 .ro 0x0, f 7 0 .ro 0x1]⟩,
  ⟨"PAGE_REV", 0x4, 1, 0, 0, [f 31 24 .ro 0x1, f 23 16 .ro 0x0]⟩,
  ⟨"READY", 0x8, 1, 0, 0, [f 15 8 .ro 0x1, f 3 3 .ro 0x0, f 2 2 .ro 0x0, f 1 1 .ro 0x0, f 0 0 .ro 0x0]⟩,
  ⟨"CTRL", 0xC, 1, 0, 0, [f 8 8 .rw 0x0, f 1 1 .wo 0x0, f 0 0 .rw 0x0]⟩,
  ⟨"COMMIT", 0x10, 1, 0, 0, [f 31 16 .wo 0x0, f 0 0 .wo 0x0]⟩,
  ⟨"COMMIT_STATUS", 0x14, 1, 0, 0, [f 31 16 .ro 0x0, f 15 12 .ro 0x0, f 1 1 .w1c 0x0, f 0 0 .ro 0x0]⟩,
  ⟨"IRQ_STATUS", 0x18, 1, 0, 0, [f 31 31 .ro 0x0, f 30 0 .w1c 0x0]⟩,
  ⟨"IRQ_ENABLE", 0x1C, 1, 0, 0, [f 31 0 .rw 0x0]⟩,
  ⟨"IRQ_SET", 0x20, 1, 0, 0, [f 30 0 .w1s 0x0]⟩,
  ⟨"FAULT_STATUS", 0x24, 1, 0, 0, [f 31 0 .w1c 0x0]⟩,
  ⟨"FAULT_FIRST", 0x28, 1, 0, 0, [f 16 16 .ro 0x0, f 15 15 .ro 0x0, f 10 8 .ro 0x0, f 7 0 .ro 0x0]⟩,
  ⟨"FAULT_FIRST_TIME_LO", 0x2C, 1, 0, 1, [f 31 0 .ro 0x0]⟩,
  ⟨"FAULT_FIRST_TIME_HI", 0x30, 1, 0, 2, [f 31 0 .ro 0x0]⟩,
  ⟨"FAULT_ACTION0", 0x34, 1, 0, 0, [f 31 0 .rw 0x0]⟩,
  ⟨"FAULT_ACTION1", 0x38, 1, 0, 0, [f 31 0 .rw 0x0]⟩,
  ⟨"FAULT_INJECT", 0x3C, 1, 0, 0, [f 31 31 .rw 0x0, f 30 30 .w1c 0x0, f 23 16 .rw 0x0, f 15 8 .rw 0x0, f 7 0 .rw 0x0]⟩,
  ⟨"OWNER", 0x40, 1, 0, 0, [f 17 16 .sv 0x2, f 15 8 .ro 0xFF, f 7 0 .rw 0xFF]⟩,
  ⟨"CFG_REJECT_INFO", 0x44, 1, 0, 0, [f 31 24 .ro 0x0, f 23 20 .ro 0x0, f 19 12 .ro 0x0, f 11 2 .ro 0x0, f 1 1 .w1c 0x0, f 0 0 .w1c 0x0]⟩]

/-- Registers of LHDR (R44, R46, R59, R60, R63, R64). -/
def rowsLhdr : List RegRow := [
  ⟨"LAYER_ID", 0x0, 1, 0, 0, [f 31 16 .ro 0x0, f 15 8 .ro 0x0, f 7 0 .ro 0x1]⟩,
  ⟨"LAYER_READY", 0x4, 1, 0, 0, [f 15 8 .ro 0x1, f 3 3 .ro 0x0, f 2 2 .ro 0x0, f 1 1 .ro 0x0, f 0 0 .ro 0x0]⟩,
  ⟨"LAYER_COMMIT", 0x8, 1, 0, 0, [f 31 16 .wo 0x0, f 0 0 .wo 0x0]⟩,
  ⟨"LAYER_COMMIT_STATUS", 0xC, 1, 0, 0, [f 31 16 .ro 0x0, f 15 12 .ro 0x0, f 1 1 .w1c 0x0, f 0 0 .ro 0x0]⟩,
  ⟨"LAYER_OWNER", 0x10, 1, 0, 0, [f 17 16 .sv 0x2, f 15 8 .ro 0xFF, f 7 0 .rw 0xFF]⟩,
  ⟨"LAYER_CFG_REJECT_INFO", 0x14, 1, 0, 0, [f 31 24 .ro 0x0, f 23 20 .ro 0x0, f 19 12 .ro 0x0, f 11 2 .ro 0x0, f 1 1 .w1c 0x0, f 0 0 .w1c 0x0]⟩]

/-- Registers of TIMING (R83, R84, R89, R90, R93, R94, R95). -/
def rowsTiming : List RegRow := [
  ⟨"PLL_CFG0", 0x100, 1, 0, 0, [f 24 16 .rwl 0x4, f 6 0 .rwl 0x36]⟩,
  ⟨"PLL_CFG1", 0x104, 1, 0, 0, [f 23 0 .rwl 0x0]⟩,
  ⟨"PLL_STATUS", 0x108, 1, 0, 0, [f 0 0 .ro 0x0]⟩,
  ⟨"H_ACTIVE", 0x110, 1, 0, 0, [f 15 0 .shd 0x0]⟩,
  ⟨"H_FRONT", 0x114, 1, 0, 0, [f 15 0 .shd 0x0]⟩,
  ⟨"H_SYNC", 0x118, 1, 0, 0, [f 15 0 .shd 0x0]⟩,
  ⟨"H_BACK", 0x11C, 1, 0, 0, [f 15 0 .shd 0x0]⟩,
  ⟨"V_ACTIVE", 0x120, 1, 0, 0, [f 15 0 .shd 0x0]⟩,
  ⟨"V_FRONT", 0x124, 1, 0, 0, [f 15 0 .shd 0x0]⟩,
  ⟨"V_SYNC", 0x128, 1, 0, 0, [f 15 0 .shd 0x0]⟩,
  ⟨"V_BACK", 0x12C, 1, 0, 0, [f 15 0 .shd 0x0]⟩,
  ⟨"TIMING_CFG", 0x130, 1, 0, 0, [f 8 8 .shd 0x0, f 1 1 .shd 0x0, f 0 0 .shd 0x0]⟩,
  ⟨"FRAME_COUNT", 0x140, 1, 0, 0, [f 31 0 .ro 0x0]⟩,
  ⟨"FRAME_TIME_LO", 0x144, 1, 0, 1, [f 31 0 .ro 0x0]⟩,
  ⟨"FRAME_TIME_HI", 0x148, 1, 0, 2, [f 31 0 .ro 0x0]⟩,
  ⟨"POSITION", 0x14C, 1, 0, 0, [f 24 24 .ro 0x0, f 18 16 .ro 0x0, f 15 0 .ro 0x0]⟩]

/-- Registers of COMPOSER (R102, R107, R108, R109, R113, R115, R157). -/
def rowsComposer0 : List RegRow := [
  ⟨"FLIP_STATUS", 0x100, 1, 0, 0, [f 31 16 .w1c 0x0, f 9 9 .w1c 0x0, f 8 8 .w1c 0x0, f 1 1 .w1c 0x0, f 0 0 .w1c 0x0]⟩,
  ⟨"TARGET_FRAME", 0x104, 1, 0, 0, [f 31 0 .ro 0x1]⟩,
  ⟨"NEXT_BAND", 0x108, 1, 0, 0, [f 2 0 .ro 0x0]⟩,
  ⟨"BAND_CFG", 0x110, 1, 0, 0, [f 3 0 .shd 0x1]⟩,
  ⟨"BAND_START", 0x114, 7, 4, 0, [f 15 0 .shd 0x0]⟩,
  ⟨"OUT_M0", 0x140, 1, 0, 0, [f 31 16 .shd 0x0, f 15 0 .shd 0x1000]⟩,
  ⟨"OUT_M1", 0x144, 1, 0, 0, [f 31 16 .shd 0x0, f 15 0 .shd 0x0]⟩,
  ⟨"OUT_M2", 0x148, 1, 0, 0, [f 31 16 .shd 0x0, f 15 0 .shd 0x1000]⟩,
  ⟨"OUT_M3", 0x14C, 1, 0, 0, [f 31 16 .shd 0x0, f 15 0 .shd 0x0]⟩,
  ⟨"OUT_M4", 0x150, 1, 0, 0, [f 15 0 .shd 0x1000]⟩,
  ⟨"OUT_PRE0", 0x154, 1, 0, 0, [f 28 16 .shd 0x0, f 12 0 .shd 0x0]⟩,
  ⟨"OUT_PRE1", 0x158, 1, 0, 0, [f 12 0 .shd 0x0]⟩,
  ⟨"OUT_POST0", 0x15C, 1, 0, 0, [f 28 16 .shd 0x0, f 12 0 .shd 0x0]⟩,
  ⟨"OUT_POST1", 0x160, 1, 0, 0, [f 12 0 .shd 0x0]⟩,
  ⟨"DITHER_CFG", 0x170, 1, 0, 0, [f 4 4 .shd 0x0, f 1 0 .shd 0x1]⟩,
  ⟨"FLIP_SEQ", 0x200, 18, 16, 0, [f 31 16 .ro 0x0, f 10 8 .ro 0x0, f 0 0 .ro 0x0]⟩,
  ⟨"FLIP_FRAME", 0x204, 18, 16, 0, [f 31 0 .ro 0x0]⟩,
  ⟨"FLIP_TIME_LO", 0x208, 18, 16, 0, [f 31 0 .ro 0x0]⟩,
  ⟨"FLIP_TIME_HI", 0x20C, 18, 16, 0, [f 31 0 .ro 0x0]⟩,
  ⟨"BG_COLOUR0", 0x400, 1, 0, 0, [f 27 16 .shd 0x0, f 11 0 .shd 0x0]⟩,
  ⟨"BG_COLOUR1", 0x404, 1, 0, 0, [f 11 0 .shd 0x0]⟩,
  ⟨"UNDERRUN_COUNT", 0x408, 1, 0, 0, [f 31 0 .ro 0x0]⟩,
  ⟨"UNDERRUN_LAYERS", 0x40C, 1, 0, 0, [f 16 16 .w1c 0x0, f 15 0 .w1c 0x0]⟩,
  ⟨"HEAD_COST", 0x410, 1, 0, 0, [f 31 0 .ro 0x0]⟩]
/-- Registers of COMPOSER (R157). -/
def rowsComposer1 : List RegRow := [
  ⟨"RT_TOTAL", 0x414, 1, 0, 0, [f 31 0 .ro 0x7D0]⟩,
  ⟨"LAYER_FAULT_INFO", 0x418, 1, 0, 0, [f 31 16 .ro 0x0, f 15 15 .w1c 0x0, f 11 8 .ro 0x0, f 3 0 .ro 0x0]⟩,
  ⟨"LAYER_FAULT_ADDR_LO", 0x41C, 1, 0, 1, [f 31 0 .ro 0x0]⟩,
  ⟨"LAYER_FAULT_ADDR_HI", 0x420, 1, 0, 2, [f 31 0 .ro 0x0]⟩]
/-- All registers of COMPOSER. -/
def rowsComposer : List RegRow := rowsComposer0 ++ rowsComposer1

/-- Registers of DPLINK (R120, R121, R122, R129, R130). -/
def rowsDplink : List RegRow := [
  ⟨"LINK_CFG", 0x100, 1, 0, 0, [f 5 4 .rwl 0x2, f 2 0 .rwl 0x6]⟩,
  ⟨"LINK_STATUS", 0x104, 1, 0, 0, [f 31 31 .ro 0x0, f 30 30 .ro 0x0, f 29 29 .ro 0x0, f 28 28 .ro 0x1, f 27 27 .ro 0x0, f 26 26 .ro 0x0, f 15 8 .ro 0x0, f 6 4 .ro 0x0, f 1 0 .ro 0x0]⟩,
  ⟨"SINK_CAPS", 0x108, 1, 0, 0, [f 8 8 .ro 0x0, f 5 4 .ro 0x0, f 2 0 .ro 0x0]⟩,
  ⟨"DSC_CFG", 0x110, 1, 0, 0, [f 24 16 .rwl 0xC0, f 5 4 .rwl 0x0, f 0 0 .rwl 0x0]⟩,
  ⟨"DSC_SLICE", 0x114, 1, 0, 0, [f 15 0 .rwl 0x10]⟩,
  ⟨"AUX_ADDR", 0x120, 1, 0, 0, [f 19 0 .rw 0x0]⟩,
  ⟨"AUX_CTRL", 0x124, 1, 0, 0, [f 31 31 .wo 0x0, f 7 4 .rw 0x9, f 3 0 .rw 0x0]⟩,
  ⟨"AUX_STATUS", 0x128, 1, 0, 0, [f 20 16 .ro 0x0, f 15 8 .ro 0x0, f 3 1 .ro 0x0, f 0 0 .ro 0x0]⟩,
  ⟨"AUX_DATA", 0x130, 4, 4, 0, [f 31 0 .rw 0x0]⟩,
  ⟨"EDID_STATUS", 0x140, 1, 0, 0, [f 31 16 .ro 0x0, f 9 9 .ro 0x0, f 8 8 .ro 0x0, f 4 0 .ro 0x0]⟩,
  ⟨"EDID_BUF", 0x800, 512, 4, 0, [f 31 0 .ro 0x0]⟩]

/-- Registers of LAYER (R135, R137, R140, R141, R142, R151). -/
def rowsLayer : List RegRow := [
  ⟨"LAYER_CTRL", 0x20, 1, 0, 0, [f 19 16 .shd 0x0, f 5 4 .shd 0x0, f 1 1 .shd 0x0, f 0 0 .shd 0x0]⟩,
  ⟨"LAYER_FORMAT", 0x24, 1, 0, 0, [f 7 0 .shd 0x1]⟩,
  ⟨"BUF_ADDR_LO", 0x28, 1, 0, 1, [f 31 0 .shd 0x0]⟩,
  ⟨"BUF_ADDR_HI", 0x2C, 1, 0, 2, [f 31 0 .shd 0x0]⟩,
  ⟨"AUX_ADDR_LO", 0x30, 1, 0, 1, [f 31 0 .shd 0x0]⟩,
  ⟨"AUX_ADDR_HI", 0x34, 1, 0, 2, [f 31 0 .shd 0x0]⟩,
  ⟨"PALETTE_ADDR_LO", 0x38, 1, 0, 1, [f 31 0 .shd 0x0]⟩,
  ⟨"PALETTE_ADDR_HI", 0x3C, 1, 0, 2, [f 31 0 .shd 0x0]⟩,
  ⟨"PITCH", 0x40, 1, 0, 0, [f 23 0 .shd 0x0]⟩,
  ⟨"SRC_SIZE", 0x44, 1, 0, 0, [f 29 16 .shd 0x0, f 13 0 .shd 0x0]⟩,
  ⟨"SRC_POS", 0x48, 1, 0, 0, [f 29 16 .shd 0x0, f 13 0 .shd 0x0]⟩,
  ⟨"DST_POS", 0x4C, 1, 0, 0, [f 31 16 .shd 0x0, f 15 0 .shd 0x0]⟩,
  ⟨"DST_SIZE", 0x50, 1, 0, 0, [f 29 16 .shd 0x0, f 13 0 .shd 0x0]⟩,
  ⟨"PLANE_ALPHA", 0x54, 1, 0, 0, [f 9 0 .shd 0x3FF]⟩,
  ⟨"CONST_COLOUR", 0x58, 1, 0, 0, [f 31 0 .shd 0x0]⟩,
  ⟨"FILL", 0x5C, 1, 0, 0, [f 31 0 .shd 0x0]⟩,
  ⟨"RETIRE_ADDR_LO", 0x60, 1, 0, 1, [f 31 0 .shd 0x0]⟩,
  ⟨"RETIRE_ADDR_HI", 0x64, 1, 0, 2, [f 31 0 .shd 0x0]⟩,
  ⟨"RETIRE_VALUE_LO", 0x68, 1, 0, 1, [f 31 0 .shd 0x0]⟩,
  ⟨"RETIRE_VALUE_HI", 0x6C, 1, 0, 2, [f 31 0 .shd 0x0]⟩,
  ⟨"LAYER_STATUS", 0x70, 1, 0, 0, [f 15 8 .ro 0xFF, f 5 4 .ro 0x0, f 3 3 .ro 0x0, f 2 2 .ro 0x0, f 1 1 .ro 0x0, f 0 0 .ro 0x0]⟩,
  ⟨"LAYER_HISTORY", 0x74, 1, 0, 0, [f 31 16 .ro 0x0, f 7 0 .ro 0x0]⟩,
  ⟨"CUR_READ_FRAME", 0x78, 1, 0, 0, [f 31 0 .ro 0x0]⟩,
  ⟨"PREV_READ_FRAME", 0x7C, 1, 0, 0, [f 31 0 .ro 0x0]⟩]

/-- Registers of VENEER (R169). -/
def rowsVeneer : List RegRow := [
  ⟨"VCFG", 0x100, 12, 64, 0, [f 23 16 .shd 0x2, f 11 8 .shd 0x2, f 5 4 .shd 0x0, f 0 0 .shd 0x0]⟩,
  ⟨"VBUF_LO", 0x104, 12, 64, 1, [f 31 0 .shd 0x0]⟩,
  ⟨"VBUF_HI", 0x108, 12, 64, 2, [f 31 0 .shd 0x0]⟩,
  ⟨"VBUF_SIZE", 0x10C, 12, 64, 0, [f 15 0 .shd 0x0]⟩,
  ⟨"VSTATUS", 0x110, 12, 64, 0, [f 31 24 .ro 0x0, f 10 10 .ro 0x0, f 6 4 .ro 0x0, f 2 0 .ro 0x0]⟩,
  ⟨"VREADY_FRAME", 0x114, 12, 64, 0, [f 31 0 .ro 0x0]⟩,
  ⟨"VFALLBACK_LINES", 0x118, 12, 64, 0, [f 31 0 .ro 0x0]⟩,
  ⟨"VINVAL_COUNT", 0x11C, 12, 64, 0, [f 31 0 .ro 0x0]⟩]

/-- Registers of LAYERV (R176, R191). -/
def rowsLayerv : List RegRow := [
  ⟨"SCL_CTRL", 0x80, 1, 0, 0, [f 24 24 .shd 0x0, f 20 20 .shd 0x0, f 16 16 .shd 0x0, f 13 12 .shd 0x0, f 11 8 .shd 0x0, f 3 0 .shd 0x0]⟩,
  ⟨"H_STEP", 0x84, 1, 0, 0, [f 31 0 .shd 0x100000]⟩,
  ⟨"V_STEP", 0x88, 1, 0, 0, [f 31 0 .shd 0x100000]⟩,
  ⟨"H_INIT", 0x8C, 1, 0, 0, [f 31 0 .shd 0x0]⟩,
  ⟨"V_INIT", 0x90, 1, 0, 0, [f 31 0 .shd 0x0]⟩,
  ⟨"SCL_STATUS", 0x94, 1, 0, 0, [f 29 16 .ro 0x0, f 11 8 .ro 0x0, f 6 6 .ro 0x0, f 5 5 .ro 0x0, f 4 4 .ro 0x0, f 3 2 .ro 0x0, f 1 0 .ro 0x0]⟩,
  ⟨"CSC_M0", 0xA0, 1, 0, 0, [f 31 16 .shd 0x0, f 15 0 .shd 0x1000]⟩,
  ⟨"CSC_M1", 0xA4, 1, 0, 0, [f 31 16 .shd 0x0, f 15 0 .shd 0x0]⟩,
  ⟨"CSC_M2", 0xA8, 1, 0, 0, [f 31 16 .shd 0x0, f 15 0 .shd 0x1000]⟩,
  ⟨"CSC_M3", 0xAC, 1, 0, 0, [f 31 16 .shd 0x0, f 15 0 .shd 0x0]⟩,
  ⟨"CSC_M4", 0xB0, 1, 0, 0, [f 15 0 .shd 0x1000]⟩,
  ⟨"CSC_PRE0", 0xB4, 1, 0, 0, [f 28 16 .shd 0x0, f 12 0 .shd 0x0]⟩,
  ⟨"CSC_PRE1", 0xB8, 1, 0, 0, [f 12 0 .shd 0x0]⟩,
  ⟨"CSC_POST0", 0xBC, 1, 0, 0, [f 28 16 .shd 0x0, f 12 0 .shd 0x0]⟩,
  ⟨"CSC_POST1", 0xC0, 1, 0, 0, [f 12 0 .shd 0x0]⟩]

/-- Registers of SCALER (R185). -/
def rowsScaler : List RegRow := [
  ⟨"SET_OWNER", 0x100, 16, 4, 0, [f 8 8 .rw 0x1, f 7 0 .rw 0xFF]⟩,
  ⟨"SET_BUSY", 0x140, 1, 0, 0, [f 15 0 .ro 0x0]⟩]

/-- Registers of LEGEND (R195, R203). -/
def rowsLegend : List RegRow := [
  ⟨"PT_BASE_LO", 0x100, 1, 0, 1, [f 31 0 .rwl 0x0]⟩,
  ⟨"PT_BASE_HI", 0x104, 1, 0, 2, [f 15 0 .rwl 0x0]⟩,
  ⟨"PT_CFG", 0x108, 1, 0, 0, [f 0 0 .rwl 0x1]⟩,
  ⟨"UPD_LO", 0x10C, 1, 0, 1, [f 31 0 .wo 0x0]⟩,
  ⟨"UPD_HI", 0x110, 1, 0, 2, [f 31 0 .wo 0x0]⟩,
  ⟨"UPD_RESULT", 0x114, 1, 0, 0, [f 3 0 .ro 0x0]⟩,
  ⟨"ACCEPTED", 0x118, 1, 0, 0, [f 31 0 .ro 0x0]⟩,
  ⟨"DROPPED", 0x11C, 1, 0, 0, [f 31 0 .ro 0x0]⟩,
  ⟨"PR_LO", 0x200, 64, 8, 1, [f 17 0 .stg 0x0]⟩,
  ⟨"PR_HI", 0x204, 64, 8, 2, [f 31 24 .stg 0xFF, f 23 23 .stg 0x0, f 22 22 .stg 0x0, f 17 0 .stg 0x0]⟩,
  ⟨"SR_LO", 0x400, 16, 8, 1, [f 17 0 .stg 0x0]⟩,
  ⟨"SR_HI", 0x404, 16, 8, 2, [f 31 24 .stg 0xFF, f 23 23 .stg 0x0, f 22 22 .stg 0x0, f 17 0 .stg 0x0]⟩,
  ⟨"GR_LO", 0x480, 16, 8, 1, [f 17 0 .stg 0x0]⟩,
  ⟨"GR_HI", 0x484, 16, 8, 2, [f 31 24 .stg 0xFF, f 23 23 .stg 0x0, f 22 22 .stg 0x0, f 17 0 .stg 0x0]⟩]

/-- Registers of LAYERL (R207). -/
def rowsLayerl : List RegRow := [
  ⟨"LG_ORIGIN", 0x80, 1, 0, 0, [f 31 16 .shd 0x0, f 15 0 .shd 0x0]⟩,
  ⟨"LG_GRID", 0x84, 1, 0, 0, [f 31 29 .shd 0x3, f 28 26 .shd 0x3, f 25 16 .shd 0x1, f 9 0 .shd 0x1]⟩,
  ⟨"CELLMAP_LO", 0x88, 1, 0, 1, [f 31 0 .shd 0x0]⟩,
  ⟨"CELLMAP_HI", 0x8C, 1, 0, 2, [f 31 0 .shd 0x0]⟩,
  ⟨"CM_PITCH", 0x90, 1, 0, 0, [f 15 0 .shd 0x40]⟩,
  ⟨"BLINK01", 0x94, 1, 0, 0, [f 31 24 .shd 0xF, f 23 16 .shd 0x1E, f 15 8 .shd 0x1E, f 7 0 .shd 0x3C]⟩,
  ⟨"BLINK23", 0x98, 1, 0, 0, [f 31 24 .shd 0xA, f 23 16 .shd 0x14, f 15 8 .shd 0x3C, f 7 0 .shd 0x78]⟩,
  ⟨"LG_FILL", 0x9C, 1, 0, 0, [f 15 0 .shd 0x200]⟩,
  ⟨"LG_BAD_CELLS", 0xA0, 1, 0, 0, [f 31 0 .ro 0x0]⟩,
  ⟨"LG_MISS_LINES", 0xA4, 1, 0, 0, [f 31 0 .ro 0x0]⟩]

/-- Registers of KERF (R249). -/
def rowsKerf : List RegRow := [
  ⟨"DEC_ERR_COUNT", 0x100, 1, 0, 0, [f 31 0 .ro 0x0]⟩,
  ⟨"DEC_ERR_INFO", 0x104, 1, 0, 0, [f 31 24 .ro 0x0, f 15 8 .ro 0x0, f 7 4 .ro 0x0, f 0 0 .w1c 0x0]⟩,
  ⟨"DEC_ERR_ADDR_LO", 0x108, 1, 0, 1, [f 31 0 .ro 0x0]⟩,
  ⟨"DEC_ERR_ADDR_HI", 0x10C, 1, 0, 2, [f 31 0 .ro 0x0]⟩,
  ⟨"STAT_CFG", 0x200, 16, 128, 0, [f 31 31 .rw 0x0, f 15 0 .rw 0x0]⟩,
  ⟨"STAT_MAX", 0x204, 16, 128, 0, [f 8 8 .ro 0x0, f 2 0 .ro 0x0]⟩,
  ⟨"CNT_RAW", 0x208, 16, 128, 0, [f 31 0 .ro 0x0]⟩,
  ⟨"CNT_L1", 0x20C, 16, 128, 0, [f 31 0 .ro 0x0]⟩,
  ⟨"CNT_L2", 0x210, 16, 128, 0, [f 31 0 .ro 0x0]⟩,
  ⟨"CNT_L3", 0x214, 16, 128, 0, [f 31 0 .ro 0x0]⟩,
  ⟨"CNT_L4", 0x218, 16, 128, 0, [f 31 0 .ro 0x0]⟩,
  ⟨"CNT_L5", 0x21C, 16, 128, 0, [f 31 0 .ro 0x0]⟩,
  ⟨"CNT_L6", 0x220, 16, 128, 0, [f 31 0 .ro 0x0]⟩,
  ⟨"CNT_L7", 0x224, 16, 128, 0, [f 31 0 .ro 0x0]⟩,
  ⟨"CNT_H0", 0x228, 16, 128, 0, [f 31 0 .ro 0x0]⟩,
  ⟨"CNT_H1", 0x22C, 16, 128, 0, [f 31 0 .ro 0x0]⟩,
  ⟨"CNT_H2", 0x230, 16, 128, 0, [f 31 0 .ro 0x0]⟩,
  ⟨"CNT_H3", 0x234, 16, 128, 0, [f 31 0 .ro 0x0]⟩,
  ⟨"CNT_H4", 0x238, 16, 128, 0, [f 31 0 .ro 0x0]⟩,
  ⟨"CNT_H5", 0x23C, 16, 128, 0, [f 31 0 .ro 0x0]⟩,
  ⟨"CNT_H6", 0x240, 16, 128, 0, [f 31 0 .ro 0x0]⟩,
  ⟨"CNT_CLEAR", 0x244, 16, 128, 0, [f 31 0 .ro 0x0]⟩,
  ⟨"CNT_SECTORS", 0x248, 16, 128, 0, [f 31 0 .ro 0x0]⟩]

/-- Registers of RENDERFE (R287). -/
def rowsRenderfe : List RegRow := [
  ⟨"BAY_FENCED_LO", 0x100, 1, 0, 1, [f 31 0 .ro 0x0]⟩,
  ⟨"BAY_FENCED_HI", 0x104, 1, 0, 2, [f 15 0 .ro 0x0]⟩,
  ⟨"BAY_AVAIL", 0x108, 1, 0, 0, [f 5 0 .ro 0x30]⟩,
  ⟨"REPLAY_COUNT", 0x10C, 1, 0, 0, [f 31 0 .ro 0x0]⟩,
  ⟨"LOSS_COUNT", 0x110, 1, 0, 0, [f 31 0 .ro 0x0]⟩]

/-- Registers of BIN (R288). -/
def rowsBin : List RegRow := [
  ⟨"PARTIAL_FLUSH_COUNT", 0x100, 1, 0, 0, [f 31 0 .ro 0x0]⟩,
  ⟨"LAST_FLUSH", 0x104, 1, 0, 0, [f 31 24 .ro 0xFF, f 23 0 .ro 0x0]⟩]

/-- Registers of BAY (R289). -/
def rowsBay : List RegRow := [
  ⟨"BAY_STATUS", 0x100, 1, 0, 0, [f 18 16 .ro 0x0, f 1 1 .ro 0x0, f 0 0 .ro 0x0]⟩,
  ⟨"TILES_DONE", 0x104, 1, 0, 0, [f 31 0 .ro 0x0]⟩]

/-- Registers of SCHED (R328). -/
def rowsSched : List RegRow := [
  ⟨"FENCE_TIMEOUT", 0x100, 1, 0, 0, [f 15 0 .rw 0x7D0]⟩,
  ⟨"WATCHDOG", 0x104, 1, 0, 0, [f 31 24 .rw 0xA, f 15 0 .rw 0x3E8]⟩,
  ⟨"TRANSLATE", 0x108, 1, 0, 0, [f 15 0 .rw 0x1F4]⟩,
  ⟨"DEADLINE_MARGIN", 0x10C, 1, 0, 0, [f 15 0 .rw 0x14]⟩,
  ⟨"JOBS", 0x110, 1, 0, 0, [f 10 0 .ro 0x0]⟩,
  ⟨"FUNC_JOB_CAP", 0x114, 1, 0, 0, [f 9 0 .rw 0x40]⟩,
  ⟨"DEADLINE_MISS", 0x118, 1, 0, 0, [f 31 0 .ro 0x0]⟩,
  ⟨"PREEMPT_COUNT", 0x11C, 1, 0, 0, [f 31 0 .ro 0x0]⟩,
  ⟨"PREEMPT_MAX_NS", 0x120, 1, 0, 0, [f 31 0 .ro 0x0]⟩,
  ⟨"TC_HITS", 0x124, 1, 0, 0, [f 31 0 .ro 0x0]⟩,
  ⟨"TC_MISSES", 0x128, 1, 0, 0, [f 31 0 .ro 0x0]⟩,
  ⟨"TC_FAILS", 0x12C, 1, 0, 0, [f 31 0 .ro 0x0]⟩,
  ⟨"TC_USED", 0x130, 1, 0, 0, [f 12 0 .ro 0x0]⟩,
  ⟨"TC_LAST", 0x134, 1, 0, 0, [f 31 24 .ro 0xFF, f 23 20 .ro 0x0, f 19 0 .ro 0x0]⟩,
  ⟨"FUNC_LIMIT", 0x200, 64, 4, 0, [f 1 0 .rw 0x2]⟩]

/-- Registers of MEMCTL (R364). -/
def rowsMemctl : List RegRow := [
  ⟨"USABLE_PAGES", 0x100, 1, 0, 0, [f 23 0 .ro 0xDD67C0]⟩,
  ⟨"CHAN_MAP", 0x104, 1, 0, 0, [f 31 0 .ro 0xFFFFFFFF]⟩,
  ⟨"RECODE_CFG", 0x108, 1, 0, 0, [f 31 31 .wo 0x0, f 5 0 .rw 0x32]⟩,
  ⟨"RECODE_STATUS", 0x10C, 1, 0, 0, [f 31 24 .ro 0x0, f 16 0 .ro 0x0]⟩,
  ⟨"STALE_WINDOW_MAX_LO", 0x110, 1, 0, 1, [f 31 0 .ro 0x0]⟩,
  ⟨"STALE_WINDOW_MAX_HI", 0x114, 1, 0, 2, [f 31 0 .ro 0x0]⟩,
  ⟨"STALE_OLDEST_LO", 0x118, 1, 0, 1, [f 31 0 .ro 0x0]⟩,
  ⟨"STALE_OLDEST_HI", 0x11C, 1, 0, 2, [f 31 0 .ro 0x0]⟩,
  ⟨"SCRUB_PERIOD", 0x120, 1, 0, 0, [f 15 0 .rw 0x3C]⟩,
  ⟨"SCRUB_PASSES", 0x124, 1, 0, 0, [f 31 0 .ro 0x0]⟩,
  ⟨"SCRUB_POS", 0x128, 1, 0, 0, [f 19 0 .ro 0x0]⟩,
  ⟨"CE_TOTAL", 0x12C, 1, 0, 0, [f 31 0 .ro 0x0]⟩,
  ⟨"UE_TOTAL", 0x130, 1, 0, 0, [f 31 0 .ro 0x0]⟩,
  ⟨"ERR_INFO", 0x134, 1, 0, 0, [f 31 31 .w1c 0x0, f 27 24 .ro 0x0, f 21 20 .ro 0x0, f 12 8 .ro 0x0, f 7 0 .ro 0x0]⟩,
  ⟨"ERR_ADDR_LO", 0x138, 1, 0, 1, [f 31 0 .ro 0x0]⟩,
  ⟨"ERR_ADDR_HI", 0x13C, 1, 0, 2, [f 31 0 .ro 0x0]⟩,
  ⟨"MIRROR_STATUS", 0x140, 1, 0, 0, [f 16 16 .ro 0x0, f 15 0 .ro 0x0]⟩,
  ⟨"MIR_LO", 0x200, 16, 8, 1, [f 13 0 .stg 0x0]⟩,
  ⟨"MIR_HI", 0x204, 16, 8, 2, [f 31 31 .stg 0x0, f 13 0 .stg 0x0]⟩]

/-- Registers of MEMCH (R366). -/
def rowsMemch : List RegRow := [
  ⟨"CH_STATUS", 0x100, 1, 0, 0, [f 15 12 .ro 0x0, f 11 8 .ro 0x0, f 3 3 .ro 0x0, f 2 2 .ro 0x0, f 1 1 .ro 0x0, f 0 0 .ro 0x0]⟩,
  ⟨"CE_COUNT", 0x104, 1, 0, 0, [f 31 0 .ro 0x0]⟩,
  ⟨"UE_COUNT", 0x108, 1, 0, 0, [f 31 0 .ro 0x0]⟩,
  ⟨"FORCED_REFAB", 0x10C, 1, 0, 0, [f 31 0 .ro 0x0]⟩,
  ⟨"RETRAINS", 0x110, 1, 0, 0, [f 31 16 .ro 0x0, f 15 0 .ro 0x0]⟩,
  ⟨"TEMP", 0x114, 1, 0, 0, [f 15 8 .ro 0x0, f 7 0 .ro 0x0]⟩,
  ⟨"SR_CFG", 0x118, 1, 0, 0, [f 31 16 .rw 0x64, f 1 1 .rw 0x0, f 0 0 .rw 0x0]⟩,
  ⟨"SR_COUNT", 0x11C, 1, 0, 0, [f 31 0 .ro 0x0]⟩]

/-- Registers of SHIM (R368). -/
def rowsShim : List RegRow := [
  ⟨"SHIM_USED", 0x100, 1, 0, 0, [f 5 0 .ro 0x0]⟩,
  ⟨"SHIM_LO", 0x200, 32, 8, 1, [f 29 0 .stg 0x0]⟩,
  ⟨"SHIM_HI", 0x204, 32, 8, 2, [f 31 31 .stg 0x0, f 30 30 .ro 0x0]⟩]

/-- Registers of FUNC (R381). -/
def rowsFunc0 : List RegRow := [
  ⟨"FUNC_STATUS", 0x100, 1, 0, 0, [f 31 24 .ro 0x0, f 11 11 .ro 0x0, f 10 10 .ro 0x0, f 9 9 .ro 0x0, f 6 6 .ro 0x0, f 5 0 .ro 0x0]⟩,
  ⟨"FUNC_CTRL", 0x104, 1, 0, 0, [f 0 0 .wo 0x0]⟩,
  ⟨"MODE_MIRROR", 0x108, 1, 0, 0, [f 31 0 .ro 0x0]⟩,
  ⟨"DEVTIME_LO", 0x10C, 1, 0, 1, [f 31 0 .ro 0x0]⟩,
  ⟨"DEVTIME_HI", 0x110, 1, 0, 2, [f 31 0 .ro 0x0]⟩,
  ⟨"CTX_BASE_LO", 0x118, 1, 0, 1, [f 31 10 .rw 0x0]⟩,
  ⟨"CTX_BASE_HI", 0x11C, 1, 0, 2, [f 15 0 .rw 0x0]⟩,
  ⟨"S2_ROOT_LO", 0x120, 1, 0, 1, [f 31 12 .pf 0x0, f 0 0 .pf 0x0]⟩,
  ⟨"S2_ROOT_HI", 0x124, 1, 0, 2, [f 15 0 .pf 0x0]⟩,
  ⟨"VEC_MAP", 0x128, 1, 0, 0, [f 23 0 .rw 0xFAC688]⟩,
  ⟨"CQ_MOD", 0x12C, 1, 0, 0, [f 31 16 .rw 0x0, f 11 0 .rw 0x1]⟩,
  ⟨"XFAULT_INFO", 0x130, 1, 0, 0, [f 31 31 .w1c 0x0, f 27 24 .ro 0x0, f 23 23 .ro 0x0, f 22 22 .ro 0x0, f 19 16 .ro 0x0, f 7 0 .ro 0x0]⟩,
  ⟨"XFAULT_ADDR_LO", 0x134, 1, 0, 1, [f 31 0 .ro 0x0]⟩,
  ⟨"XFAULT_ADDR_HI", 0x138, 1, 0, 2, [f 31 0 .ro 0x0]⟩,
  ⟨"REVOKE_INFO", 0x13C, 1, 0, 0, [f 31 31 .w1c 0x0, f 25 8 .ro 0x0, f 7 0 .ro 0x0]⟩,
  ⟨"STALE_GEN_COUNT", 0x140, 1, 0, 0, [f 31 0 .ro 0x0]⟩,
  ⟨"LAYER_EVENTS", 0x144, 1, 0, 0, [f 19 16 .rw 0x0, f 3 0 .w1c 0x0]⟩,
  ⟨"DB_BAD_COUNT", 0x148, 1, 0, 0, [f 31 0 .ro 0x0]⟩,
  ⟨"S1INV_ADDR_LO", 0x150, 1, 0, 1, [f 31 12 .rw 0x0]⟩,
  ⟨"S1INV_ADDR_HI", 0x154, 1, 0, 2, [f 15 0 .rw 0x0]⟩,
  ⟨"S1INV_CMD", 0x158, 1, 0, 0, [f 31 31 .wo 0x0, f 30 30 .ro 0x0, f 29 28 .rw 0x0, f 19 16 .rw 0x0, f 15 0 .rw 0x1]⟩,
  ⟨"MIG_CTRL", 0x160, 1, 0, 0, [f 31 31 .pfwo 0x0, f 2 0 .pf 0x0]⟩,
  ⟨"MIG_STATUS", 0x164, 1, 0, 0, [f 31 31 .ro 0x0, f 19 16 .ro 0x0, f 10 0 .ro 0x0]⟩,
  ⟨"MIG_ADDR_LO", 0x168, 1, 0, 1, [f 31 0 .pf 0x0]⟩]
/-- Registers of FUNC (R373, R381, R382, R389). -/
def rowsFunc1 : List RegRow := [
  ⟨"MIG_ADDR_HI", 0x16C, 1, 0, 2, [f 31 0 .pf 0x0]⟩,
  ⟨"SLOT", 0x180, 14, 4, 0, [f 31 31 .pf 0x0, f 13 0 .pf 0x0]⟩,
  ⟨"RING_BASE_LO", 0x200, 5, 32, 1, [f 31 12 .rwl 0x0]⟩,
  ⟨"RING_BASE_HI", 0x204, 5, 32, 2, [f 15 0 .rwl 0x0]⟩,
  ⟨"RING_CTRL", 0x208, 5, 32, 0, [f 11 8 .rwl 0x4, f 2 2 .wo 0x0, f 1 1 .wo 0x0, f 0 0 .rw 0x0]⟩,
  ⟨"RING_HEAD", 0x20C, 5, 32, 0, [f 11 0 .ro 0x0]⟩,
  ⟨"RING_TAIL", 0x210, 5, 32, 0, [f 11 0 .ro 0x0]⟩,
  ⟨"RING_STATUS", 0x214, 5, 32, 0, [f 31 31 .ro 0x0, f 30 30 .ro 0x0, f 29 29 .ro 0x0, f 23 16 .ro 0x0, f 11 0 .ro 0x0]⟩,
  ⟨"DOORBELL", 0x800, 5, 4, 0, [f 11 0 .wo 0x0]⟩,
  ⟨"MSIX", 0xC00, 32, 4, 0, [f 31 0 .rw 0x0]⟩,
  ⟨"MSIX_PBA", 0xD00, 2, 4, 0, [f 31 0 .ro 0x0]⟩]
/-- All registers of FUNC. -/
def rowsFunc : List RegRow := rowsFunc0 ++ rowsFunc1

/-- Registers of WORLD (R382, R439). -/
def rowsWorld0 : List RegRow := [
  ⟨"WORLD_CTRL", 0x100, 1, 0, 0, [f 1 1 .ro 0x1, f 0 0 .rw 0x0]⟩,
  ⟨"CORE_CFG", 0x104, 1, 0, 0, [f 31 31 .ro 0x0, f 7 0 .sv 0x3]⟩,
  ⟨"HW_WATERMARK", 0x108, 1, 0, 0, [f 31 31 .sv 0x0, f 12 0 .sv 0x0]⟩,
  ⟨"ISO_LEVEL", 0x10C, 1, 0, 0, [f 15 0 .rw 0x5555]⟩,
  ⟨"HW_BUDGET", 0x110, 1, 0, 0, [f 15 0 .rw 0x7D0]⟩,
  ⟨"WDOG", 0x114, 1, 0, 0, [f 31 16 .rw 0x64, f 7 0 .wo 0x0]⟩,
  ⟨"WCALL_VECTOR_LO", 0x118, 1, 0, 1, [f 31 0 .sv 0x0]⟩,
  ⟨"WCALL_VECTOR_HI", 0x11C, 1, 0, 2, [f 31 0 .sv 0x0]⟩,
  ⟨"RESET_VECTOR_LO", 0x120, 1, 0, 1, [f 31 0 .sv 0x0]⟩,
  ⟨"RESET_VECTOR_HI", 0x124, 1, 0, 2, [f 31 0 .sv 0x0]⟩,
  ⟨"SEC_IRQ_TARGET", 0x128, 1, 0, 0, [f 7 0 .rw 0x1]⟩,
  ⟨"SEC_IRQ_NEXT", 0x12C, 1, 0, 0, [f 31 31 .ro 0x0, f 13 0 .ro 0x0]⟩,
  ⟨"SAFE_OK", 0x130, 1, 0, 0, [f 31 16 .rw 0x64, f 2 2 .ro 0x0, f 1 1 .wo 0x0, f 0 0 .rw 0x0]⟩,
  ⟨"HW_CTRL", 0x134, 1, 0, 0, [f 31 31 .ro 0x0, f 27 24 .ro 0x0, f 23 16 .ro 0x0, f 0 0 .wo 0x0]⟩,
  ⟨"CORE_WORLD", 0x138, 1, 0, 0, [f 7 0 .ro 0x3]⟩,
  ⟨"WM_BLOCK_INFO", 0x140, 1, 0, 0, [f 31 31 .w1c 0x0, f 8 8 .ro 0x0, f 7 0 .ro 0x0]⟩,
  ⟨"WM_BLOCK_ADDR_LO", 0x144, 1, 0, 1, [f 31 0 .ro 0x0]⟩,
  ⟨"WM_BLOCK_ADDR_HI", 0x148, 1, 0, 2, [f 31 0 .ro 0x0]⟩,
  ⟨"HW_CTX_BASE_LO", 0x150, 1, 0, 1, [f 31 0 .rw 0x0]⟩,
  ⟨"HW_CTX_BASE_HI", 0x154, 1, 0, 2, [f 31 0 .rw 0x0]⟩,
  ⟨"CLAIM", 0x200, 32, 4, 0, [f 31 31 .rw 0x0, f 29 28 .rw 0x0, f 23 16 .ro 0xFF, f 13 0 .rw 0x0]⟩,
  ⟨"RING_BASE_LO", 0x300, 5, 32, 1, [f 31 12 .rwl 0x0]⟩,
  ⟨"RING_BASE_HI", 0x304, 5, 32, 2, [f 15 0 .rwl 0x0]⟩,
  ⟨"RING_CTRL", 0x308, 5, 32, 0, [f 11 8 .rwl 0x4, f 2 2 .wo 0x0, f 1 1 .wo 0x0, f 0 0 .rw 0x0]⟩]
/-- Registers of WORLD (R373, R382). -/
def rowsWorld1 : List RegRow := [
  ⟨"RING_HEAD", 0x30C, 5, 32, 0, [f 11 0 .ro 0x0]⟩,
  ⟨"RING_TAIL", 0x310, 5, 32, 0, [f 11 0 .ro 0x0]⟩,
  ⟨"RING_STATUS", 0x314, 5, 32, 0, [f 31 31 .ro 0x0, f 30 30 .ro 0x0, f 29 29 .ro 0x0, f 23 16 .ro 0x0, f 11 0 .ro 0x0]⟩,
  ⟨"DOORBELL", 0x800, 5, 4, 0, [f 11 0 .wo 0x0]⟩]
/-- All registers of WORLD. -/
def rowsWorld : List RegRow := rowsWorld0 ++ rowsWorld1

/-- Registers of CTRLCPLX (R373, R382, R440). -/
def rowsCtrlcplx : List RegRow := [
  ⟨"CORE_STATUS", 0x100, 1, 0, 0, [f 23 16 .ro 0x3, f 15 8 .ro 0x0, f 7 0 .ro 0x3]⟩,
  ⟨"SAP_IRQ_TARGET", 0x104, 1, 0, 0, [f 7 0 .rw 0xFC]⟩,
  ⟨"SAP_IRQ_NEXT", 0x108, 1, 0, 0, [f 31 31 .ro 0x0, f 13 0 .ro 0x0]⟩,
  ⟨"WM_MIRROR", 0x10C, 1, 0, 0, [f 31 31 .ro 0x0, f 12 0 .ro 0x0]⟩,
  ⟨"HW_STATE", 0x110, 1, 0, 0, [f 31 31 .ro 0x0, f 7 0 .ro 0x0]⟩,
  ⟨"SAP_CTX_BASE_LO", 0x118, 1, 0, 1, [f 31 0 .rw 0x0]⟩,
  ⟨"SAP_CTX_BASE_HI", 0x11C, 1, 0, 2, [f 31 0 .rw 0x0]⟩,
  ⟨"RING_BASE_LO", 0x200, 5, 32, 1, [f 31 12 .rwl 0x0]⟩,
  ⟨"RING_BASE_HI", 0x204, 5, 32, 2, [f 15 0 .rwl 0x0]⟩,
  ⟨"RING_CTRL", 0x208, 5, 32, 0, [f 11 8 .rwl 0x4, f 2 2 .wo 0x0, f 1 1 .wo 0x0, f 0 0 .rw 0x0]⟩,
  ⟨"RING_HEAD", 0x20C, 5, 32, 0, [f 11 0 .ro 0x0]⟩,
  ⟨"RING_TAIL", 0x210, 5, 32, 0, [f 11 0 .ro 0x0]⟩,
  ⟨"RING_STATUS", 0x214, 5, 32, 0, [f 31 31 .ro 0x0, f 30 30 .ro 0x0, f 29 29 .ro 0x0, f 23 16 .ro 0x0, f 11 0 .ro 0x0]⟩,
  ⟨"DOORBELL", 0x800, 5, 4, 0, [f 11 0 .wo 0x0]⟩]

/-- Registers of XLATE (R404). -/
def rowsXlate : List RegRow := [
  ⟨"S2INV_ADDR_LO", 0x100, 2, 32, 1, [f 31 12 .rw 0x0]⟩,
  ⟨"S2INV_ADDR_HI", 0x104, 2, 32, 2, [f 15 0 .rw 0x0]⟩,
  ⟨"S2INV_CMD", 0x108, 2, 32, 0, [f 31 31 .wo 0x0, f 30 30 .ro 0x0, f 29 28 .rw 0x0, f 21 16 .rw 0x0, f 15 0 .rw 0x1]⟩,
  ⟨"WALKS", 0x140, 1, 0, 0, [f 31 0 .ro 0x0]⟩,
  ⟨"FAULTS", 0x144, 1, 0, 0, [f 31 0 .ro 0x0]⟩,
  ⟨"CACHE_PARITY", 0x148, 1, 0, 0, [f 31 0 .ro 0x0]⟩]

/-- Registers of HOSTIF (R405). -/
def rowsHostif : List RegRow := [
  ⟨"LINK", 0x100, 1, 0, 0, [f 31 31 .ro 0x0, f 19 16 .ro 0x0, f 12 8 .ro 0x0]⟩,
  ⟨"IDS", 0x104, 1, 0, 0, [f 31 16 .ro 0x1240, f 15 0 .ro 0x1FC7]⟩,
  ⟨"SRIOV", 0x108, 1, 0, 0, [f 8 8 .ro 0x0, f 4 0 .ro 0x0]⟩,
  ⟨"VF_BAR2", 0x10C, 1, 0, 0, [f 4 0 .ro 0x0]⟩,
  ⟨"MEM_BASE_LO", 0x110, 1, 0, 1, [f 31 0 .ro 0x0]⟩,
  ⟨"MEM_BASE_HI", 0x114, 1, 0, 2, [f 31 0 .ro 0x0]⟩,
  ⟨"MEM_LIMIT_LO", 0x118, 1, 0, 1, [f 31 0 .ro 0x0]⟩,
  ⟨"MEM_LIMIT_HI", 0x11C, 1, 0, 2, [f 31 0 .ro 0x0]⟩,
  ⟨"BAR2_SLIDE", 0x120, 1, 0, 0, [f 7 0 .rw 0x0]⟩,
  ⟨"PORT_SHARE", 0x124, 1, 0, 0, [f 5 0 .ro 0x0]⟩,
  ⟨"MALFORMED_COUNT", 0x128, 1, 0, 0, [f 31 0 .ro 0x0]⟩,
  ⟨"POISONED_COUNT", 0x12C, 1, 0, 0, [f 31 0 .ro 0x0]⟩,
  ⟨"UR_COUNT", 0x130, 1, 0, 0, [f 31 0 .ro 0x0]⟩,
  ⟨"CPL_TIMEOUT_COUNT", 0x134, 1, 0, 0, [f 31 0 .ro 0x0]⟩]

/-- Registers of KEYS (R460). -/
def rowsKeys : List RegRow := [
  ⟨"KEYS_CFG", 0x100, 1, 0, 0, [f 31 16 .rw 0x3C, f 15 12 .rw 0x8, f 11 0 .rw 0x3C]⟩,
  ⟨"PORT_EN", 0x104, 1, 0, 0, [f 3 0 .rw 0x0]⟩,
  ⟨"SCAN_STATUS", 0x108, 1, 0, 0, [f 31 0 .ro 0x0]⟩,
  ⟨"SELFTEST", 0x10C, 1, 0, 0, [f 31 31 .wo 0x0, f 30 30 .ro 0x0, f 1 0 .rw 0x0]⟩,
  ⟨"ST_LIMITS", 0x110, 1, 0, 0, [f 31 16 .rw 0xF000, f 15 0 .rw 0x800]⟩,
  ⟨"NEIGH_LIMIT", 0x114, 1, 0, 0, [f 15 0 .rw 0x200]⟩,
  ⟨"PROBE_SEL", 0x118, 1, 0, 0, [f 7 0 .rw 0x0]⟩,
  ⟨"PROBE_DATA", 0x11C, 1, 0, 0, [f 31 16 .ro 0x0, f 15 0 .ro 0x0]⟩,
  ⟨"EVENTS_LOST", 0x120, 1, 0, 0, [f 31 0 .ro 0x0]⟩,
  ⟨"BIND_DENIED", 0x124, 1, 0, 0, [f 31 0 .ro 0x0]⟩,
  ⟨"EQ_BASE_LO", 0x200, 16, 16, 1, [f 31 12 .stg 0x0]⟩,
  ⟨"EQ_BASE_HI", 0x204, 16, 16, 2, [f 31 31 .stg 0x0, f 27 24 .stg 0x6, f 23 16 .stg 0xFF, f 15 0 .stg 0x0]⟩,
  ⟨"EQ_HEAD", 0x208, 16, 16, 0, [f 11 0 .rw 0x0]⟩,
  ⟨"EQ_TAIL", 0x20C, 16, 16, 0, [f 31 31 .w1c 0x0, f 30 30 .ro 0x1, f 11 0 .ro 0x0]⟩,
  ⟨"KEY_THRESH", 0x400, 256, 4, 0, [f 31 28 .rw 0x3, f 27 24 .rw 0x3, f 23 12 .rw 0x50, f 11 0 .rw 0x78]⟩,
  ⟨"KEY_CFG", 0x800, 256, 4, 0, [f 29 24 .rw 0x0, f 23 20 .rw 0x0, f 16 16 .rw 0x0, f 8 8 .rw 0x0, f 7 0 .rw 0xFF]⟩,
  ⟨"KEY_STATE", 0xC00, 256, 4, 0, [f 31 31 .w1c 0x0, f 30 30 .ro 0x0, f 29 29 .ro 0x0, f 28 28 .ro 0x0, f 25 24 .ro 0x0, f 15 0 .ro 0x0]⟩]

/-- Registers of HAPTIC (R464, R470). -/
def rowsHaptic : List RegRow := [
  ⟨"RAIL_STATUS", 0x100, 1, 0, 0, [f 31 31 .ro 0x0, f 30 30 .ro 0x0, f 15 0 .ro 0x0]⟩,
  ⟨"POWER_CAP", 0x104, 1, 0, 0, [f 15 0 .rw 0xFA0]⟩,
  ⟨"SCALE", 0x108, 1, 0, 0, [f 10 0 .ro 0x400]⟩,
  ⟨"CAP_COUNT", 0x10C, 1, 0, 0, [f 31 0 .ro 0x0]⟩,
  ⟨"EFFECT_W0", 0x400, 64, 16, 0, [f 31 0 .stg 0x0]⟩,
  ⟨"EFFECT_W1", 0x404, 64, 16, 0, [f 31 0 .stg 0x0]⟩,
  ⟨"EFFECT_W2", 0x408, 64, 16, 0, [f 31 0 .stg 0x0]⟩,
  ⟨"EFFECT_W3", 0x40C, 64, 16, 0, [f 31 0 .stg 0x0]⟩]

/-- Registers of HAPCH (R471). -/
def rowsHapch : List RegRow := [
  ⟨"HCFG", 0x100, 1, 0, 0, [f 31 24 .rwl 0x14, f 20 16 .rwl 0xF, f 12 12 .rwl 0x0, f 8 0 .rwl 0xAF]⟩,
  ⟨"HLIMITS", 0x104, 1, 0, 0, [f 31 16 .rwl 0x32, f 15 0 .rwl 0x14]⟩,
  ⟨"TRIGGER", 0x108, 1, 0, 0, [f 31 31 .wo 0x0, f 30 30 .wo 0x0, f 5 0 .wo 0x0]⟩,
  ⟨"HSTATUS", 0x10C, 1, 0, 0, [f 31 24 .ro 0x0, f 17 17 .ro 0x0, f 16 16 .w1c 0x0, f 13 8 .ro 0x0, f 3 3 .ro 0x0, f 2 0 .ro 0x0]⟩,
  ⟨"HALF_PERIOD", 0x110, 1, 0, 0, [f 18 0 .ro 0x1BE6E]⟩,
  ⟨"MEAS", 0x114, 1, 0, 0, [f 31 16 .ro 0x0, f 15 0 .ro 0x0]⟩,
  ⟨"TRIG_COUNT", 0x118, 1, 0, 0, [f 31 0 .ro 0x0]⟩,
  ⟨"ZC_MISSED", 0x11C, 1, 0, 0, [f 31 0 .ro 0x0]⟩]

/-- Registers of AUDIO (R492). -/
def rowsAudio0 : List RegRow := [
  ⟨"ACFG", 0x100, 1, 0, 0, [f 31 16 .rw 0x64, f 0 0 .rwl 0x0]⟩,
  ⟨"BANK", 0x104, 1, 0, 0, [f 0 0 .ro 0x0]⟩,
  ⟨"SAMPLE_COUNT", 0x108, 1, 0, 0, [f 31 0 .ro 0x0]⟩,
  ⟨"SRC_UNDERRUN", 0x10C, 1, 0, 0, [f 31 0 .ro 0x0]⟩,
  ⟨"SRC_ERROR", 0x110, 1, 0, 0, [f 31 0 .ro 0x0]⟩,
  ⟨"UNDERRUN_MAP_LO", 0x114, 1, 0, 1, [f 31 0 .w1c 0x0]⟩,
  ⟨"UNDERRUN_MAP_HI", 0x118, 1, 0, 2, [f 15 0 .w1c 0x0]⟩,
  ⟨"METER_CFG", 0x11C, 1, 0, 0, [f 23 16 .rw 0x32, f 15 12 .rw 0xA, f 11 8 .rw 0xC]⟩,
  ⟨"TDM_CFG", 0x120, 1, 0, 0, [f 3 0 .rw 0x0]⟩,
  ⟨"CLAMP_COUNT", 0x124, 1, 0, 0, [f 31 0 .ro 0x0]⟩,
  ⟨"TDMIN_SEL", 0x140, 8, 4, 0, [f 31 31 .rw 0x0, f 4 3 .rw 0x0, f 2 0 .rw 0x0]⟩,
  ⟨"SIL_CFG", 0x160, 4, 8, 0, [f 31 31 .rw 0x0, f 30 0 .rw 0x100]⟩,
  ⟨"SIL_TIME", 0x164, 4, 8, 0, [f 31 31 .ro 0x0, f 15 0 .rw 0x3E8]⟩,
  ⟨"BUS_PEAK", 0x200, 32, 8, 0, [f 31 0 .ro 0x0]⟩,
  ⟨"BUS_MS", 0x204, 32, 8, 0, [f 31 0 .ro 0x0]⟩,
  ⟨"SINK_PEAK", 0x300, 56, 8, 0, [f 31 0 .ro 0x0]⟩,
  ⟨"SINK_MS", 0x304, 56, 8, 0, [f 31 0 .ro 0x0]⟩,
  ⟨"SRC_BASE_LO", 0x500, 48, 16, 1, [f 31 6 .rw 0x0, f 0 0 .rw 0x0]⟩,
  ⟨"SRC_BASE_HI", 0x504, 48, 16, 2, [f 19 16 .rw 0x8, f 15 0 .rw 0x0]⟩,
  ⟨"SRC_PTR", 0x508, 48, 16, 0, [f 31 16 .ro 0x0, f 15 0 .rw 0x0]⟩,
  ⟨"SRC_OWNER", 0x50C, 48, 16, 0, [f 7 0 .rw 0xFF]⟩,
  ⟨"TONE_CTRL", 0x800, 8, 32, 0, [f 31 31 .rw 0x0, f 0 0 .rw 0x0]⟩,
  ⟨"TONE_FREQ", 0x804, 8, 32, 0, [f 31 0 .rw 0x0]⟩,
  ⟨"TONE_AMP", 0x808, 8, 32, 0, [f 30 0 .rw 0x0]⟩]
/-- Registers of AUDIO (R492, R493). -/
def rowsAudio1 : List RegRow := [
  ⟨"TONE_ENV", 0x80C, 8, 32, 0, [f 31 16 .rw 0x0, f 15 0 .rw 0x0]⟩,
  ⟨"TONE_CADENCE", 0x810, 8, 32, 0, [f 31 16 .rw 0x0, f 15 0 .rw 0x0]⟩,
  ⟨"TONE_ROUTE_LO", 0x814, 8, 32, 1, [f 31 0 .rw 0x0]⟩,
  ⟨"TONE_ROUTE_HI", 0x818, 8, 32, 2, [f 23 0 .rw 0x0]⟩,
  ⟨"TONE_STATUS", 0x81C, 8, 32, 0, [f 31 31 .ro 0x0, f 16 0 .ro 0x0]⟩,
  ⟨"SINK_ROUTE0", 0x900, 56, 16, 0, [f 31 31 .rw 0x0, f 30 30 .rw 0x0, f 29 27 .rw 0x0, f 4 0 .rw 0x0]⟩,
  ⟨"SINK_THRESH0", 0x904, 56, 16, 0, [f 30 0 .rw 0x7FFFFFFF]⟩,
  ⟨"SINK_RELEASE0", 0x908, 56, 16, 0, [f 24 0 .rw 0x100]⟩,
  ⟨"SINK_ROUTE1", 0xC80, 56, 16, 0, [f 31 31 .rw 0x0, f 30 30 .rw 0x0, f 29 27 .rw 0x0, f 4 0 .rw 0x0]⟩,
  ⟨"SINK_THRESH1", 0xC84, 56, 16, 0, [f 30 0 .rw 0x7FFFFFFF]⟩,
  ⟨"SINK_RELEASE1", 0xC88, 56, 16, 0, [f 24 0 .rw 0x100]⟩]
/-- All registers of AUDIO. -/
def rowsAudio : List RegRow := rowsAudio0 ++ rowsAudio1

/-- Registers of CVU (R514). -/
def rowsCvu : List RegRow := [
  ⟨"CVU_CFG", 0x100, 1, 0, 0, [f 31 24 .rwl 0x0, f 21 16 .rwl 0x0, f 15 12 .rwl 0x0, f 11 8 .rwl 0x0, f 6 4 .rwl 0x0, f 2 0 .rwl 0x0]⟩,
  ⟨"CVU_RECT_POS", 0x104, 1, 0, 0, [f 29 16 .rwl 0x0, f 13 0 .rwl 0x0]⟩,
  ⟨"CVU_RECT_SIZE", 0x108, 1, 0, 0, [f 29 16 .rwl 0x1, f 13 0 .rwl 0x1]⟩,
  ⟨"CVU_COUNT", 0x10C, 1, 0, 0, [f 15 0 .rwl 0x400]⟩,
  ⟨"CVU_BASE_LO", 0x110, 1, 0, 1, [f 31 0 .rwl 0x0]⟩,
  ⟨"CVU_BASE_HI", 0x114, 1, 0, 2, [f 31 0 .rwl 0x0]⟩,
  ⟨"CVU_LIMIT_LO", 0x118, 1, 0, 1, [f 31 0 .rwl 0x0]⟩,
  ⟨"CVU_LIMIT_HI", 0x11C, 1, 0, 2, [f 31 0 .rwl 0x0]⟩,
  ⟨"CVU_CLOSE", 0x120, 1, 0, 0, [f 0 0 .wo 0x0]⟩,
  ⟨"CVU_EXPECT", 0x124, 1, 0, 0, [f 31 0 .rw 0x0]⟩,
  ⟨"CVU_CMP", 0x128, 1, 0, 0, [f 0 0 .rw 0x0]⟩,
  ⟨"RESULT", 0x140, 1, 0, 0, [f 31 0 .ro 0x0]⟩,
  ⟨"RESULT_SEQ", 0x144, 1, 0, 0, [f 31 0 .ro 0x0]⟩,
  ⟨"RESULT_STATUS", 0x148, 1, 0, 0, [f 31 31 .ro 0x0, f 30 30 .ro 0x0, f 29 29 .ro 0x0, f 28 28 .ro 0x0, f 27 24 .ro 0x0, f 23 0 .ro 0x0]⟩,
  ⟨"RESULT_TIME_LO", 0x14C, 1, 0, 1, [f 31 0 .ro 0x0]⟩,
  ⟨"RESULT_TIME_HI", 0x150, 1, 0, 2, [f 31 0 .ro 0x0]⟩]

/-- Registers of SURVEYOR (R545). -/
def rowsSurveyor : List RegRow := [
  ⟨"MB_INFO", 0x100, 1, 0, 0, [f 31 0 .ro 0x0]⟩,
  ⟨"MB_REQ", 0x200, 4, 768, 0, [f 31 31 .wo 0x0, f 8 0 .rw 0x10]⟩,
  ⟨"MB_STATUS", 0x204, 4, 768, 0, [f 31 31 .ro 0x0, f 8 0 .ro 0x0]⟩,
  ⟨"MB_REQBUF0", 0x300, 64, 4, 0, [f 31 0 .rw 0x0]⟩,
  ⟨"MB_RSPBUF0", 0x400, 64, 4, 0, [f 31 0 .ro 0x0]⟩,
  ⟨"MB_REQBUF1", 0x600, 64, 4, 0, [f 31 0 .rw 0x0]⟩,
  ⟨"MB_RSPBUF1", 0x700, 64, 4, 0, [f 31 0 .ro 0x0]⟩,
  ⟨"MB_REQBUF2", 0x900, 64, 4, 0, [f 31 0 .rw 0x0]⟩,
  ⟨"MB_RSPBUF2", 0xA00, 64, 4, 0, [f 31 0 .ro 0x0]⟩,
  ⟨"MB_REQBUF3", 0xC00, 64, 4, 0, [f 31 0 .rw 0x0]⟩,
  ⟨"MB_RSPBUF3", 0xD00, 64, 4, 0, [f 31 0 .ro 0x0]⟩]

/-- Registers of LEGACY (R582). -/
def rowsLegacy : List RegRow := [
  ⟨"LEG_STATUS", 0x100, 1, 0, 0, [f 7 4 .ro 0x0, f 0 0 .ro 0x0]⟩,
  ⟨"DE_RING_BASE_LO", 0x104, 1, 0, 1, [f 31 16 .rwl 0x0]⟩,
  ⟨"DE_RING_BASE_HI", 0x108, 1, 0, 2, [f 15 0 .rwl 0x0]⟩,
  ⟨"DE_RING_WR", 0x10C, 1, 0, 0, [f 13 0 .ro 0x0]⟩,
  ⟨"DE_RING_RD", 0x110, 1, 0, 0, [f 13 0 .rw 0x0]⟩,
  ⟨"DE_REPORT", 0x114, 1, 0, 0, [f 1 1 .w1s 0x0, f 0 0 .w1s 0x0]⟩,
  ⟨"XLATE_REJECT", 0x118, 1, 0, 0, [f 31 31 .w1c 0x0, f 15 12 .ro 0x0, f 11 8 .ro 0x0, f 1 0 .ro 0x0]⟩,
  ⟨"REJECT_COUNT", 0x11C, 1, 0, 0, [f 31 0 .ro 0x0]⟩,
  ⟨"KEY_DROPS", 0x120, 1, 0, 0, [f 31 0 .ro 0x0]⟩,
  ⟨"DE_OVERFLOW_COUNT", 0x124, 1, 0, 0, [f 31 0 .ro 0x0]⟩,
  ⟨"DROPPED_ACCESS", 0x128, 1, 0, 0, [f 31 0 .ro 0x0]⟩]

end Sys2Proof.Machine
end

