-- ==== Sys2Proof/Machine/Pages.lean ====
section
/-!
DEFINITION. Machine/Pages.lean: the map of PF BAR0 (R80), the common page header and the layer header
(R43, R78), the fault bits of every page with severity and floor (R495), and the value of every register
at reset.
-/
namespace Sys2Proof.Machine

/-- PF BAR0 offset of a page, or of a layer block (R78, R80). -/
def pageBase : Page → Nat
  | .dev => 0x0
  | .clkpwr => 0x1000
  | .fabric => 0x2000
  | .sched => 0x3000
  | .xlate => 0x4000
  | .hostif p => 0x5000 + 0x1000 * p
  | .func f => 0x10000 + 0x1000 * f
  | .timing n => 0x100000 + 0x4000 * n
  | .composer n => 0x101000 + 0x4000 * n
  | .layer n l => 0x102000 + 0x4000 * n + l * 0x100
  | .dplink n => 0x103000 + 0x4000 * n
  | .scaler => 0x140000
  | .veneer => 0x150000
  | .legend => 0x160000
  | .kerf => 0x1C0000
  | .renderFe => 0x200000
  | .bin => 0x201000
  | .bay b => 0x210000 + 0x1000 * b
  | .memctl => 0x300000
  | .shim => 0x301000
  | .memch c => 0x310000 + 0x1000 * c
  | .keys => 0x3C0000
  | .haptic => 0x3D0000
  | .hapch ch => 0x3D1000 + 0x1000 * ch
  | .audio => 0x3F0000
  | .cvu u => 0x400000 + 0x1000 * u
  | .ctrlcplx => 0x410000
  | .world => 0x411000
  | .surveyorMb => 0x420000
  | .legacy => 0x440000

/-- The page's instance numbers lie in range (R80). -/
def pageOk : Page → Bool
  | .hostif p => p < 2
  | .func f => f < 64
  | .timing n | .composer n | .dplink n => n < 12
  | .layer n l => n < 12 && l < 16
  | .bay b => b < 48
  | .memch c => c < 32
  | .hapch ch => ch < 16
  | .cvu u => u < 16
  | _ => true

/-- The page (or layer block) at a PF BAR0 offset and the offset in it, for offsets inside a page with a
header; none elsewhere, the headerless table regions included (R80). -/
def pageAt (a : Nat) : Option (Page × Nat) :=
  let k := a / 0x1000
  let o := a % 0x1000
  if k < 0x10 then
    match k with
    | 0 => some (.dev, o) | 1 => some (.clkpwr, o) | 2 => some (.fabric, o) | 3 => some (.sched, o)
    | 4 => some (.xlate, o) | 5 => some (.hostif 0, o) | 6 => some (.hostif 1, o) | _ => none
  else if k < 0x50 then some (.func (k - 0x10), o)
  else if k < 0x100 then none
  else if k < 0x130 then
    let n := (k - 0x100) / 4
    match (k - 0x100) % 4 with
    | 0 => some (.timing n, o)
    | 1 => some (.composer n, o)
    | 2 => some (.layer n (o / 0x100), o % 0x100)
    | _ => some (.dplink n, o)
  else if k < 0x210 then
    if k = 0x140 then some (.scaler, o) else if k = 0x150 then some (.veneer, o)
    else if k = 0x160 then some (.legend, o) else if k = 0x1C0 then some (.kerf, o)
    else if k = 0x200 then some (.renderFe, o) else if k = 0x201 then some (.bin, o) else none
  else if k < 0x240 then some (.bay (k - 0x210), o)
  else if k < 0x310 then
    if k = 0x300 then some (.memctl, o) else if k = 0x301 then some (.shim, o) else none
  else if k < 0x330 then some (.memch (k - 0x310), o)
  else if k = 0x3C0 then some (.keys, o)
  else if k = 0x3D0 then some (.haptic, o)
  else if 0x3D1 ≤ k ∧ k < 0x3E1 then some (.hapch (k - 0x3D1), o)
  else if k = 0x3F0 then some (.audio, o)
  else if 0x400 ≤ k ∧ k < 0x410 then some (.cvu (k - 0x400), o)
  else if k = 0x410 then some (.ctrlcplx, o)
  else if k = 0x411 then some (.world, o)
  else if k = 0x420 then some (.surveyorMb, o)
  else if k = 0x440 then some (.legacy, o)
  else none

/-- The headerless table regions of PF BAR0 (R80). -/
inductive TableKind where
  | coef | style | glyph | gain
deriving DecidableEq, Repr

/-- The table region at a PF BAR0 offset and the offset in it (R80). -/
def tableAt (a : Nat) : Option (TableKind × Nat) :=
  if 0x148000 ≤ a ∧ a < 0x150000 then some (.coef, a - 0x148000)
  else if 0x170000 ≤ a ∧ a < 0x180000 then some (.style, a - 0x170000)
  else if 0x180000 ≤ a ∧ a < 0x1A0000 then some (.glyph, a - 0x180000)
  else if 0x3F4000 ≤ a ∧ a < 0x3F8000 then some (.gain, a - 0x3F4000)
  else none

/-- The page a headerless table reports its refusals in. -/
def tableCtl : TableKind → Page
  | .coef => .scaler
  | .style | .glyph => .legend
  | .gain => .audio

/-- Registers of the common header (R43). -/
inductive Hdr where
  | id | rev | ready | ctrl | commit | commitStatus | irqStatus | irqEnable | irqSet
  | faultStatus | faultFirst | ffTimeLo | ffTimeHi | action0 | action1 | inject | owner | reject
deriving DecidableEq, Repr

/-- Offset of a header register (R43). -/
def hdrOff : Hdr → Nat
  | .id => 0x0 | .rev => 0x4 | .ready => 0x8 | .ctrl => 0xC | .commit => 0x10 | .commitStatus => 0x14
  | .irqStatus => 0x18 | .irqEnable => 0x1C | .irqSet => 0x20 | .faultStatus => 0x24 | .faultFirst => 0x28
  | .ffTimeLo => 0x2C | .ffTimeHi => 0x30 | .action0 => 0x34 | .action1 => 0x38 | .inject => 0x3C
  | .owner => 0x40 | .reject => 0x44

/-- Offset of the layer-header register that mirrors a header register (R78). -/
def layerHdrOff : Hdr → Option Nat
  | .id => some 0x00 | .ready => some 0x04 | .commit => some 0x08 | .commitStatus => some 0x0C
  | .owner => some 0x10 | .reject => some 0x14 | _ => none

/-- Address of a header register of a page; a layer block's interrupts and faults are in its head's
COMPOSER page (R78). -/
def hadr (p : Page) (h : Hdr) : Nat :=
  match p with
  | .layer n l =>
    match layerHdrOff h with
    | some o => pageBase (.layer n l) + o
    | none => pageBase (.composer n) + hdrOff h
  | _ => pageBase p + hdrOff h

/-- The page whose fault and interrupt registers a unit uses (R78). -/
def faultPage : Page → Page
  | .layer n _ => .composer n
  | p => p

/-- The extent of a page or layer block in bytes. -/
def pageSize : Page → Nat
  | .layer _ _ => 0x100
  | _ => 0x1000

/-- Where the block-specific registers start (R43, R78). -/
def pageBody : Page → Nat
  | .layer _ _ => 0x20
  | _ => 0x100

/-- Block type code and instance number (R79). -/
def pageType : Page → Nat × Nat
  | .dev => (0x0001, 0) | .timing n => (0x0010, n) | .composer n => (0x0011, n) | .layer n _ => (0x0012, n)
  | .dplink n => (0x0013, n) | .scaler => (0x0020, 0) | .veneer => (0x0021, 0) | .legend => (0x0022, 0)
  | .kerf => (0x0023, 0) | .renderFe => (0x0030, 0) | .bin => (0x0031, 0) | .bay b => (0x0032, b)
  | .memctl => (0x0040, 0) | .memch c => (0x0041, c) | .shim => (0x0042, 0) | .hostif p => (0x0050, p)
  | .func k => (0x0051, k) | .xlate => (0x0052, 0) | .sched => (0x0053, 0) | .keys => (0x0060, 0)
  | .haptic => (0x0061, 0) | .hapch ch => (0x0061, ch + 1) | .audio => (0x0062, 0) | .cvu u => (0x0070, u)
  | .fabric => (0x0071, 0) | .ctrlcplx => (0x0080, 0) | .world => (0x0081, 0) | .surveyorMb => (0x0090, 0)
  | .legacy => (0x00A0, 0) | .clkpwr => (0x00B0, 0)

/-- PAGE_ID, or LAYER_ID (R44, R78). -/
def pageId (p : Page) : Nat :=
  let (t, i) := pageType p
  match p with
  | .layer _ l => 0x10000 * t + i * 0x100 + l * 0x10 + 1
  | _ => 0x10000 * t + i * 0x100 + 1

/-- Pages on which CTRL.ENABLE has a function (R48). -/
def enableHasFunction : Page → Bool
  | .timing _ | .composer _ | .dplink _ | .legend | .keys | .hapch _ | .audio | .cvu _ | .sched | .legacy => true
  | _ => false

/-- Blocks outside the FCLK domain, whose register writes cross domains (R15, R16).
DEDUCED: the rule's table of domains names units; DEV, FUNC and LEGACY pages are taken as FCLK. -/
def pageForeign : Page → Bool
  | .timing _ | .dplink _ | .hostif _ | .bay _ | .bin | .renderFe | .memctl | .shim | .memch _
  | .keys | .haptic | .hapch _ | .audio | .ctrlcplx | .world | .surveyorMb | .clkpwr => true
  | _ => false

/-- Severity and action floor of each fault bit of each page, in bit order (R495); the actions are
0 LOG, 1 IRQ, 2 FENCE, 3 SAFE (R56) and the severities 0 INFO to 4 SAFE. -/
def faultBits : Page → List (Nat × Nat)
  | .dev => [(4, 3)]
  | .fabric => [(1, 0), (2, 2), (4, 3)]
  | .timing _ => [(3, 1)]
  | .dplink _ => [(0, 0), (0, 0), (0, 0), (3, 1), (3, 1)]
  | .composer _ => [(3, 1), (3, 0), (3, 1), (3, 0)]
  | .veneer => [(1, 0), (1, 0)]
  | .legend => [(3, 0), (3, 0), (1, 0), (3, 0)]
  | .kerf => [(0, 0)]
  | .renderFe => [(3, 1)]
  | .bin => [(3, 0)]
  | .bay _ => [(2, 2), (2, 2), (2, 2), (1, 0)]
  | .sched => [(3, 1), (3, 0)]
  | .memctl => [(3, 0), (1, 0), (1, 0), (3, 0), (4, 3)]
  | .memch _ => [(1, 0), (3, 0), (1, 0), (0, 0)]
  | .shim => [(3, 0), (4, 3)]
  | .func _ => [(3, 1), (3, 1)]
  | .xlate => [(1, 0), (3, 1)]
  | .hostif _ => [(3, 1), (0, 0), (0, 0), (3, 0)]
  | .world => [(3, 0), (3, 0), (3, 0), (4, 3), (4, 3), (0, 0), (4, 3)]
  | .ctrlcplx => [(2, 2), (2, 2), (2, 2), (2, 2), (2, 2), (2, 2), (2, 2), (2, 2)]
  | .keys => [(3, 0), (3, 1), (3, 0)]
  | .haptic => [(3, 1)]
  | .hapch _ => [(3, 1), (3, 1), (3, 1), (2, 2)]
  | .audio => [(3, 0), (3, 1), (4, 3)]
  | .cvu _ => [(3, 0), (2, 2)]
  | .clkpwr => [(0, 0), (0, 0), (1, 0), (3, 1), (4, 3), (3, 1)]
  | .surveyorMb => [(1, 0)]
  | .legacy => [(3, 0), (3, 1)]
  | _ => []

/-- Severity of a fault bit. -/
def faultSev (p : Page) (b : Nat) : Nat := ((faultBits p)[b]?.getD (0, 0)).1

/-- Action floor of a fault bit (R56). -/
def faultFloor (p : Page) (b : Nat) : Nat := ((faultBits p)[b]?.getD (0, 0)).2

/-- FAULT_ACTION word k at reset: the floors of bits 16k to 16k+15 (R56). -/
def floorWord (p : Page) (k : Nat) : Nat :=
  (List.range 16).foldl (fun acc i => acc + faultFloor p (16 * k + i) * 4 ^ i) 0

end Sys2Proof.Machine
end

