-- ==== Sys2Proof/Config.lean ====
section
/-!
DEFINITION. Config.lean: what an implementation fixes (the configuration record of R528) and the free
values, which the spec leaves open. A free value is a constant with no body: nothing can be proved of it.
-/
namespace Sys2Proof

/-- The configuration record in force or stored (R528). -/
structure CfgRec where
  profile : Nat := 0
  portB : Nat := 1
  hwCores : Nat := 0x03
  bistFull : Nat := 0
  wm : Nat := 72
  baysA : Nat := 24
  baysB : Nat := 24
  memBaseA : Nat := 0x0900_0000
  memLimitA : Nat := 0x3_0000_0000
  memBaseB : Nat := 0x3_0000_0000
  memLimitB : Nat := 0x6_0000_0000
  vfBar2A : Nat := 26
  vfBar2B : Nat := 26
  subVendor : Nat := 0
  subId : Nat := 0
  headsB : Nat := 0
  cvusB : Nat := 0
  hapchsB : Nat := 0
  sharedB : Nat := 0
  memOwner : Nat := 0xFF
deriving DecidableEq, Repr

/-- What a shader program does next (R311, R317): a read or write of a buffer, of memory by pointer, of an image, or
its end with its outputs. -/
inductive ShAct where
  | done (out : List Nat)
  | buf (uniform : Bool) (set binding off len : Nat)
  | bufWrite (set binding off : Nat) (bytes : List Nat)
  | ptr (addr len : Nat)
  | ptrWrite (addr : Nat) (bytes : List Nat)
  | tex (set binding : Nat) (x y : Int)
  | img (set binding x y : Nat)
  | imgWrite (set binding x y : Nat) (bytes : List Nat)
  | query (set binding : Nat)
deriving DecidableEq, Repr, Inhabited

/-- What translation learns of an entry point of a module (R310, R316, R317, R271, R285): its stage (0 Vertex, 1
Fragment, 2 GLCompute), bytes of workgroup storage, 32-bit varyings, whether it stores to memory, whether its tests
may run early, and whether it runs per sample. -/
structure ShEntry where
  stage : Nat
  storage : Nat
  varyings : Nat
  stores : Bool
  early : Bool
  perSample : Bool
deriving DecidableEq, Repr, Inhabited

namespace Config

/-- The translator's verdict on a module: 0 accepted, else a cause of R319. SPIR-V is a standard of its own. -/
opaque moduleVerdict : List Nat → Nat

/-- Entry point e of a module; none where the module lacks it. -/
opaque moduleEntry : List Nat → Nat → Option ShEntry

/-- The next action of an entry point of a module, from its inputs and the answers to its actions so far. -/
opaque shader : List Nat → Nat → List Nat → List (List Nat) → ShAct

/-- The number of actions after which a shader that does not end is taken to end. -/
opaque shaderSteps : Nat

/-- A free value drawn for the n-th time; see the log entry named where it is used. -/
opaque freeNat : Nat → Nat

/-- A configuration dword that the spec gives no value: function and dword number (R369). -/
opaque configDword : Nat → Nat → Nat

/-- SHA-384 of a byte string, as a number: the spec names the standard and gives no arithmetic. -/
opaque sha384 : List Nat → Nat

/-- The bytes of an image bank as shipped, by 2 × component + bank (R541). -/
opaque shippedImage : Nat → List Nat

/-- Whether the public key that a KEY_ID names matches its digest in the boot block (R541). -/
opaque keyMatches : Nat → Bool

/-- Body of the numeric sensor PDR of a sensor (R549). -/
opaque pdrBody : Nat → List Nat

/-- Kind-specific CODE of a log entry, from its KIND and the model's own number for what it records (R539). -/
opaque logCode : Nat → Nat → Nat

/-- Kind-specific DATA byte of a log entry, by SEQ and place (R539). -/
opaque logData : Nat → Nat → Nat

/-- Whether an ECDSA P-384 signature verifies under the public key a KEY_ID names (R541). -/
opaque ecdsaOk : Nat → List Nat → List Nat → Bool

end Config
end Sys2Proof
end

