-- ==== Sys2Proof/Machine/State.lean ====
section
/-!
DEFINITION. Machine/State.lean: the state of the CX-1240 block as plain data, and its value at reset.
INVENTORY.md lists every piece with the rule that names it. Default values of the fields are their values
at State.reset.
-/
namespace Sys2Proof.Machine

/-- Why a step stops with a fault. -/
inductive Fault where
  /-- Raised by no command: the spec answers every access by a refusal, an error response or a record,
  so the block never stops. Kept so that the type of outcomes has a named reason. Safe. -/
  | none
deriving DecidableEq, Repr

/-- Why a step is refused. -/
inductive Refusal where
  /-- Raised by an arm of exec that has no meaning yet. Safe: the run stops. -/
  | notModelled (mnemonic : String)
deriving DecidableEq, Repr

/-- The operating modes (R22). -/
inductive Mode where
  | held | survey | legacy | native | degraded | safe
deriving DecidableEq, Repr

/-- The mode record of the DEV page (R22, R23). -/
structure ModeSt where
  mode : Mode := .survey
  prior : Mode := .held
  time : Nat := 0
  safeHw : Bool := false
deriving DecidableEq, Repr

/-- A packet the block sends on a host port. -/
inductive Outbound where
  /-- An MSI-X message of a function: vector, address and data of its table entry (R389). -/
  | msix (func vec addr data : Nat)
  /-- A write to host memory through a HOST leaf (R400). -/
  | write (port addr : Nat) (ns : Bool) (bytes : List Nat)
  /-- A completion to a host request: status 0 Successful, 1 Unsupported Request, 2 Configuration Request
  Retry Status, 4 Completer Abort; the poisoned bit; the data (R374, R347, R530). -/
  | completion (port status : Nat) (poisoned : Bool) (data : List Nat)
  /-- Assert_INTA or Deassert_INTA (R557). -/
  | inta (on : Bool)
  /-- An AER error message: 1 Malformed TLP, 2 ECRC Error, 3 Poisoned TLP Received, 4 Unexpected Completion,
  5 Completion Timeout (R406). -/
  | aer (port code : Nat)
deriving DecidableEq, Repr

/-- What the current FCLK cycle has seen so far (R29, R41, R52, R76, R77, R498, R499, R503). -/
structure Cycle where
  /-- Owner codes of the masters that already have an access in this cycle (R41). -/
  taken : List Nat := []
  /-- Highest place in the order of R76 that has been served in this cycle. -/
  rank : Nat := 0
  /-- Addresses of the registers whose write stands in this cycle (R76). -/
  stands : List Nat := []
  /-- Page base and owner code of the ownerships removed in this cycle (R77). -/
  revoked : List (Nat × Nat) := []
  /-- Page bases whose FAULT_FIRST was recorded in this cycle (R54). -/
  firsts : List Nat := []
  /-- W1C bits hardware has set in this cycle, by register address (R52). -/
  hwSet : Assoc Nat := []
  /-- Action registers as they stood before a write of this cycle (R498). -/
  actPrev : Assoc Word := []
  /-- The mode before the transition taken in this cycle (R29). -/
  modeFrom : Option Mode := none
  /-- What the block sent on its PCI Express ports in this cycle. -/
  sent : List Outbound := []
deriving DecidableEq, Repr

/-- A pending stage (R65): the page, its SEQ, the committing master, and the register values it holds. -/
structure PendStage where
  seq : Nat := 0
  master : Nat := 0xFF
  vals : List (Nat × Word) := []
  /-- Real-time cost of the layer with these values, in MB/s (R160). -/
  cost : Nat := 0
deriving DecidableEq, Repr

/-- A staging slot of a master for one table (R69): the entry it holds and the words staged. -/
structure Slot where
  master : Nat
  /-- Which table: the address of the table's first word. -/
  table : Nat
  /-- Address of the entry's first word. -/
  entry : Nat
  words : List (Nat × Word)
deriving DecidableEq, Repr

/-- A value latched for one master by a read (R41, R110). -/
structure Latch where
  master : Nat
  addr : Nat
  val : Word
deriving DecidableEq, Repr

/-- A register write in flight to a block of a foreign domain (R16). -/
structure Crossing where
  master : Nat
  addr : Nat
  val : Word
deriving DecidableEq, Repr

/-- The answer to the latest read: master, address as presented, value. -/
structure Answer where
  master : Nat
  addr : Nat
  val : Word
deriving DecidableEq, Repr

/-- Kinds of Surveyor log entries (R539). -/
inductive LogKind where
  | fault | refusal | memory | mode | sensor | image | power | bist | config | host
deriving DecidableEq, Repr

/-- One entry of the event log (R539). -/
structure LogEntry where
  seq : Nat
  boot : Nat
  kind : LogKind
  inHeld : Bool
  injected : Bool
  deferral : Bool
  devtime : Nat
  uptimeUs : Nat
  place : Nat
  code : Nat
  addr : Nat
  /-- Kind-specific bytes, 20 of them or none (R539). -/
  data : List Nat := []
deriving DecidableEq, Repr

/-- Surveyor's log: the queue in SRAM, the entries committed to flash, and the counts (R537, R539). -/
structure LogSt where
  nextSeq : Nat := 0
  queue : List LogEntry := []
  flash : List LogEntry := []
  lost : Nat := 0
  /-- DEVTIME of the latest refusal entry of each page, plus 1, by page base (R61). -/
  refusalAt : Assoc Nat := []
  /-- The same for every other entry that is limited to one per interval, by the limit's own number. -/
  limitAt : Assoc Nat := []
deriving DecidableEq, Repr

/-! The Legend engine (chapter 6). -/

/-- One glyph of a captured cell: cell pixel of its reference point, glyph index, the entry's four words. -/
structure CellGlyph where
  x : Nat
  glyph : Nat
  words : List Nat
deriving DecidableEq, Repr

/-- A captured cell of a row (R220). -/
structure CellCap where
  col : Nat
  tint : Nat
  glyphs : List CellGlyph
deriving DecidableEq, Repr

/-- The capture of one cell row of one head (R220). -/
structure Snap where
  head : Nat
  row : Nat
  cells : List CellCap
deriving DecidableEq, Repr

/-- A glyph resident in the cache (R223): its index, entry words, and stored bytes; the list of residents is
in order of use, least recent first. -/
structure GlyphRes where
  glyph : Nat
  words : List Nat
  bytes : List Nat
deriving DecidableEq, Repr

/-- A point record on its way (R198 to R202): the submitter's code, whether it owned a range at fetch, and
the SQ3 descriptor it belongs to, by number, if any. -/
structure PointRec where
  word : Nat
  code : Nat
  hadRange : Bool
  job : Option Nat
deriving DecidableEq, Repr

/-- A point-update descriptor in the Legend queue (R197, R201): its number among those in the queue, and its ring
set. -/
structure PointJob where
  id : Nat
  func : Nat
  tag : Nat
  cq : Bool
  gen : Nat
  left : Nat
  dropped : Nat
deriving DecidableEq, Repr

/-- The Legend engine. -/
structure LegendSt where
  snaps : List Snap := []
  cache : List GlyphRes := []
  /-- Glyph and row fetch failures: head, row, glyph (R224). -/
  failed : List (Nat × Nat × Nat) := []
  /-- Fill tokens of each head in 1/1200 byte, and the FCLK cycle they were counted at (R225). -/
  tokens : Assoc (Nat × Nat) := []
  /-- Records submitted and not yet accepted, in order. -/
  queue : List PointRec := []
  /-- Records accepted, whose entry read and write back are still to come. -/
  accepted : List PointRec := []
  jobs : List PointJob := []
deriving DecidableEq, Repr

/-! Heads (chapters 3 to 5). -/

/-- Phases of a head's pixel PLL (R85–R87). -/
inductive PllPhase where
  | off | locking | locked | unlocked | stopping
deriving DecidableEq, Repr

/-- The raster timing the generator runs with (R89). -/
structure Raster where
  hActive : Nat := 0
  hFront : Nat := 0
  hSync : Nat := 0
  hBack : Nat := 0
  vActive : Nat := 0
  vFront : Nat := 0
  vSync : Nat := 0
  vBack : Nat := 0
  latchSel : Bool := false
deriving DecidableEq, Repr

/-- What a composer fetches (R144): a layer's line, or the veneer line of a run. -/
inductive FetchSrc where
  | layer (k : Nat)
  | veneer (r : Nat)
deriving DecidableEq, Repr

/-- A line that has arrived: its source, its line number, and the pixels from pixel x0 on. `fill` marks a
line replaced by FILL (R154, R155). -/
structure FetchedLine where
  src : FetchSrc
  line : Nat
  x0 : Nat
  px : List Px
  fill : Bool
deriving DecidableEq, Repr

/-- An applied commit whose flip record waits for its first line (R109). -/
structure FlipWait where
  record : Nat
  seq : Nat
  band : Nat
  first : Nat
deriving DecidableEq, Repr

/-- A retire signal that waits for the last fetch of its buffer set (R152). -/
structure RetireWait where
  layer : Nat
  committer : Nat
  addr : Nat
  value : Nat
deriving DecidableEq, Repr

/-- Line states of a veneer run (R164). -/
inductive LineSt where
  | empty | veneer | full
deriving DecidableEq, Repr

/-- A veneer run of a head (R162, R163): its index, layers in composition order, background, the lines
written so far with their states, the composed lines not yet written, and whether it is usable. -/
structure Run where
  idx : Nat
  layers : List Nat
  bg : Rgb
  building : Bool
  usable : Bool
  states : List (Nat × LineSt)
  rows : List Nat
  /-- Composed values of lines that wait for write-behind. -/
  held : List (Nat × List Px)
  /-- Block rows that fall back to full composition until rewritten (R168), with the line that failed. -/
  fallback : List (Nat × Nat)
deriving DecidableEq, Repr

/-- One head (R82 to R171): everything its pages do not hold as registers. -/
structure HeadSt where
  pll : PllPhase := .off
  running : Bool := false
  /-- ENABLE was cleared; the generator still runs to its stop (R86). -/
  draining : Bool := false
  raster : Raster := {}
  line : Nat := 0
  /-- Between a frame latch and the start of line 0. -/
  latched : Bool := false
  latchCycle : Option Nat := none
  /-- Between band latch b and the first line of band b. -/
  bandLatched : Option Nat := none
  bandCycle : Option Nat := none
  nextBand : Nat := 0
  /-- R104: one band until a COMPOSER commit with valid bands applies. -/
  oneBand : Bool := false
  flips : List FlipWait := []
  /-- Layers whose commit applied at a band latch since the last frame latch (R161). -/
  bandCommits : List Nat := []
  lines : List FetchedLine := []
  /-- Palettes on chip, by layer (R146). -/
  palettes : Assoc (List Nat) := []
  /-- Layers whose palette has not arrived. -/
  paletteWait : List Nat := []
  /-- Layers whose buffer set has been in use (R152). -/
  inUse : List Nat := []
  retires : List RetireWait := []
  /-- Layer and line from which FILL replaces the layer to the end of the frame (R155). -/
  fillFrom : Assoc Nat := []
  /-- FAULT_DISABLED was set since the last frame latch: the set retires at the next one (R152). -/
  faultRetire : List Nat := []
  runs : List Run := []
  /-- Coefficient sets whose last reference has been removed and whose first line has not started (R189):
  set and first line. -/
  setRelease : List (Nat × Nat) := []
  /-- The line composed last and its pixels at the snoop point (R118). -/
  out : List Rgb := []
  outLine : Nat := 0
  /-- Link controller: candidates still to try (R123), HPD level, EDID pending, AUX request. -/
  candidates : List (Nat × Nat) := []
  auxQueued : Bool := false
  auxTries : Nat := 0
  /-- AUX replies still to be discarded by an armed AUX_DROP (R520). -/
  auxDrop : Nat := 0
deriving DecidableEq, Repr

/-! Device memory (chapter 10). -/

/-- An entry of the recode queue (R338): the page, and the DEVTIME at which it entered. -/
structure RecodeEnt where
  page : Nat
  since : Nat
deriving DecidableEq, Repr

/-- The answer to the latest fabric access: agent, address, status (0 OK, 1 translation fault, 2 blocked by the
watermark, 3 error response, 4 dropped), and the bytes of a read. -/
structure BusAnswer where
  agent : Nat
  addr : Nat
  status : Nat
  bytes : List Nat
deriving DecidableEq, Repr

/-- Device memory and its controller (R330 to R368). Bytes are kept by device physical address; every byte
that is not listed is 0 (R529). The bytes of secure SRAM lie at their own addresses (R415). -/
structure MemSt where
  cells : List Host.Cell := []
  /-- Addresses of the bytes whose stored parity does not match (R334). -/
  bad : List Nat := []
  /-- Stored check bytes of each page, 128 in order of ocode (R336); an unlisted page has those of zeros. -/
  code : Assoc (List Nat) := []
  recq : List RecodeEnt := []
  /-- The last 64 pages entered in the recode queue, newest last (R338). -/
  recent : List Nat := []
  held : List Nat := []
  /-- Pages above the initialisation watermark that have been written (R529). -/
  touched : List Nat := []
  /-- The initialiser works (R529). -/
  initOn : Bool := false
  /-- DEVTIME at which the current scrub pass started, and whether it waits for the next period (R358). -/
  scrubStart : Nat := 0
  scrubWait : Bool := false
  /-- DEVTIME of each channel's latest request (R362). -/
  lastReq : Assoc Nat := []
  /-- Channels whose retraining has fallen due and waits (R361). -/
  retrainDue : List Nat := []
  answer : Option BusAnswer := none
deriving DecidableEq, Repr

/-! Host ports, functions and translation (chapter 11). -/

/-- A cached stage-2 leaf (R403): input addresses ip … ip + size − 1 of a function go to out … . -/
structure S2Ent where
  func : Nat
  ip : Nat
  size : Nat
  out : Nat
  write : Bool
  host : Bool
  ns : Bool
deriving DecidableEq, Repr

/-- A cached stage-1 table entry (R403): the table at `ip` serves the addresses whose bits above the level
are `prefix_`; `via` lists the stage-2 input pages its walk passed through. -/
structure S1Tab where
  func : Nat
  ctx : Nat
  root : Nat
  level : Nat
  prefix_ : Nat
  ip : Nat
  via : List Nat
deriving DecidableEq, Repr

/-- A cached stage-1 leaf (R403). -/
structure S1Ent where
  func : Nat
  ctx : Nat
  root : Nat
  va : Nat
  size : Nat
  ip : Nat
  write : Bool
  via : List Nat
deriving DecidableEq, Repr

/-- XLATE's caches (R403). -/
structure XlateSt where
  s2 : List S2Ent := []
  tabs : List S1Tab := []
  s1 : List S1Ent := []
deriving DecidableEq, Repr

/-- A completion record that waits for the completion ring (R387, R388); `slot` is the job slot it holds. -/
structure CqRec where
  slot : Option Nat
  gen : Nat
  tag : Nat
  status : Nat
  flags : Nat
  sq : Nat
  detail : Nat
deriving DecidableEq, Repr

/-- What a ring set (function, Heartwood, Sapwood) keeps beside its registers. -/
structure RingSt where
  cqWait : List CqRec := []
  /-- Records written since the last message of group 0, and the DEVTIME of the first of them (R389). -/
  modCount : Nat := 0
  modFirst : Nat := 0
  /-- Interrupt groups whose condition held when last looked at (R389). -/
  groups : Nat := 0
  /-- A reset that waits for the running one (R391). -/
  resetAgain : Bool := false
  /-- The function is freezing (R394). -/
  freezing : Bool := false
deriving DecidableEq, Repr

/-- One PCI Express port: what the host has programmed and the link (R369, R371, R405). -/
structure PortSt where
  /-- Functions whose MSI-X is enabled, whose MSI-X is masked, and that are in D3hot, by ARI function number. -/
  msixOn : List Nat := []
  msixMask : List Nat := []
  d3hot : List Nat := []
  /-- AER errors that are reported: bit 0 Malformed TLP, 1 ECRC, 2 Poisoned TLP Received, 3 Unexpected Completion,
  4 Completion Timeout. -/
  aer : Nat := 0
  /-- Interrupt Disable of the PF's Command register (R557). -/
  intxOff : Bool := false
  /-- Configuration words the host has written, by function × 4096 + offset. -/
  config : Assoc Nat := []
  /-- INTx assertion on the wire (R557). -/
  inta : Bool := false
deriving DecidableEq, Repr

/-! Check-value units (chapter 15). -/

/-- What a CVU accumulates (R515 to R517). -/
structure CvuSt where
  /-- Accumulation has started: the frame, window or write after the enable. -/
  running : Bool := false
  /-- CRC so far, or the sum of the records' codes for WRITES. -/
  crc : Nat := 0xFFFFFFFF
  words : Nat := 0
  partialSeen : Bool := false
  /-- Some line of the frame carried the layer. -/
  active : Bool := false
  /-- A veneer in use covered the layer on a line of the frame (R516). -/
  covered : Bool := false
  /-- Samples or windows counted since the enable. -/
  samples : Nat := 0
  windows : Nat := 0
  /-- Results latched and not read. -/
  unread : Nat := 0
deriving DecidableEq, Repr

/-- The Safe state (R503 to R509, R435). -/
structure SafeSt where
  /-- FCLK cycle of the Safe decision. -/
  decided : Option Nat := none
  hwAtFault : Bool := false
  /-- The SAFE_OK relay drive is asserted. -/
  relay : Bool := false
  /-- DEVTIME of the start of the kick period, while OK = 1. -/
  kickAt : Nat := 0
deriving DecidableEq, Repr

/-! Jobs (chapters 8 and 9). -/

/-- Where a job stands (R294, R298, R301). -/
inductive JobPhase where
  /-- Behind another job of its ring, or at the wait stage. -/
  | waiting
  /-- Past the wait stage, not started. -/
  | ready
  | running
  /-- Its status is known; its signal is still to come. -/
  | ended
  /-- Signalled; its completion record waits. -/
  | signalled
deriving DecidableEq, Repr

/-- A vertex after shading: clip coordinates and varyings as FP32 words, clip distances, point size. -/
structure Vtx where
  pos : List Nat
  vary : List Nat
  clip : List Nat
  psize : Nat
deriving DecidableEq, Repr

/-- A primitive that survived clipping and culling (R257 to R264): its number, state block, facing, whether it
is a triangle, snapped corners, depths, 1/w, and varyings of its corners; the triangle's flat attributes. -/
structure Prim where
  num : Nat
  st : Nat
  front : Bool
  tri : Bool
  xs : List Int
  ys : List Int
  zs : List Nat
  iw : List Nat
  vary : List (List Nat)
  flat : List Nat
  bias : Nat
deriving DecidableEq, Repr

/-- A surface descriptor (R309). -/
structure Surf where
  addr : Nat := 0
  map : Nat := 0
  pitch : Nat := 0
  w : Nat := 0
  h : Nat := 0
  fmt : Nat := 0
  kind : Nat := 0
  id : Nat := 0
  plane : Nat := 0
  clear : Nat := 0
  /-- Every reserved byte is 0. -/
  ok : Bool := true
deriving DecidableEq, Repr

/-- An attachment (R304). -/
structure Attach where
  surf : Surf
  load : Nat
  store : Nat
  clear : List Nat
  ds : Bool
deriving DecidableEq, Repr

/-- A render job under way (R252 to R286). -/
structure RenderSt where
  x : Nat := 0
  y : Nat := 0
  w : Nat := 0
  h : Nat := 0
  samples : Nat := 1
  atts : List Attach := []
  spill : Nat := 0
  spillSize : Nat := 0
  /-- State blocks by index, as 160 bytes. -/
  states : Assoc (List Nat) := []
  prims : List Prim := []
  /-- Varyings per vertex. -/
  nvary : Nat := 0
  /-- Segment number, its first and its end primitive (R280). -/
  seg : Nat := 0
  first : Nat := 0
  stop : Nat := 0
  /-- Tiles in flight: tile and bay; tiles complete. -/
  flying : List (Nat × Nat) := []
  done : List Nat := []
  /-- Its shaders store to memory or perform atomics outside the attachments (R285). -/
  stores : Bool := false
  /-- The geometry phase has run; the segment's flush is under way (R280); start of each tile in flight (R324). -/
  geo : Bool := false
  flushing : Bool := false
  tileAt : Assoc Nat := []
deriving DecidableEq, Repr

/-- A compute job under way (R310): workgroups in flight with their bays, next and completed counts. -/
structure ComputeSt where
  total : Nat := 0
  nextWg : Nat := 0
  again : List Nat := []
  flying : List (Nat × Nat) := []
  done : Nat := 0
  perBay : Nat := 1
deriving DecidableEq, Repr

/-- One job (R290 to R327). -/
structure Job where
  rs : Nat
  q : Nat
  idx : Nat
  gen : Nat
  op : Nat
  flags : Nat
  ctx : Nat
  tag : Nat
  wait : Nat
  signal : Nat
  dlFrame : Nat
  dlHead : Nat
  body : List Nat
  /-- The context entry as read at fetch (R296). -/
  entry : List Nat
  seq : Nat
  phase : JobPhase := .waiting
  /-- DEVTIME at which it became the waiting job of its ring. -/
  since : Option Nat := none
  readyAt : Nat := 0
  /-- Deadline time in ns (R322); none for a disabled head or another class. -/
  deadline : Option Int := none
  status : Nat := 0
  detail : Nat := 0
  cflags : Nat := 0
  started : Option Nat := none
  /-- DEVTIME since which it is preempted, and the time spent so (R324). -/
  preempted : Option Nat := none
  pausedNs : Nat := 0
  /-- SPIR-V bytes of the modules it has taken up, by handle: an unload does not disturb them (R316). -/
  mods : Assoc (List Nat) := []
  rend : RenderSt := {}
  comp : ComputeSt := {}
deriving DecidableEq, Repr

/-- A module of the translation cache (R318): key, the SPIR-V bytes, order of its latest load. -/
structure ModEnt where
  key : Nat
  bytes : List Nat
  loaded : Nat
deriving DecidableEq, Repr

/-- A loaded handle (R315, R316): its function, handle and module key. -/
structure HandleEnt where
  func : Nat
  handle : Nat
  key : Nat
deriving DecidableEq, Repr

/-- A translation in progress (R318): the slot, its function, and its start. -/
structure Translating where
  slot : Nat
  func : Nat
  key : Nat
  bytes : List Nat
  start : Nat
deriving DecidableEq, Repr

/-- The job scheduler. -/
structure SchedSt where
  jobs : Assoc (Option Job) := []
  nextSeq : Nat := 0
  modules : List ModEnt := []
  handles : List HandleEnt := []
  trans : List Translating := []
  loads : Nat := 0
  /-- Function served last in NORMAL and in BACKGROUND, and how often each ready one was passed over (R321). -/
  lastServed : Assoc Nat := []
  passed : Assoc Nat := []
  /-- Bays that preempted work still holds: bay, slot, DEVTIME of the decision (R323). -/
  preempting : List (Nat × Nat × Nat) := []
deriving DecidableEq, Repr

/-! The control complex (chapter 12). -/

/-- The registers of a core that the world switches, restarts and interrupts touch (R416 to R424). -/
structure CoreSt where
  mode : CoreMode := .hs
  /-- Held in reset. -/
  inReset : Bool := true
  pc : Nat := 0
  x : List Nat := List.replicate 32 0
  f : List Nat := List.replicate 32 0
  fcsr : Nat := 0
  mepc : Nat := 0
  mcause : Nat := 0
  mtvec : Nat := 0
  mtval : Nat := 0
  /-- mstatus.MPP as the mode it records, MPV, MIE, MPIE. -/
  mpp : CoreMode := .m
  mie : Bool := false
  mpie : Bool := false
  /-- Supervisor trap registers (R423). -/
  sepc : Nat := 0
  scause : Nat := 0
  stvec : Nat := 0
  stval : Nat := 0
  spp : CoreMode := .u
  sie : Bool := false
  spie : Bool := false
  mtimecmp : Nat := 0
  /-- Exceptions delegated to HS-mode (R424); RISC-V gives no reset value. -/
  medeleg : Nat := 0
  /-- Isolation level in effect since the last world switch (R422). -/
  iso : Nat := 1
  /-- The first WRET since a Heartwood restart scrubs (R420). -/
  firstWret : Bool := false
  /-- Where and in which mode the latest secure entry came from (R437). -/
  entryPc : Nat := 0
  entryMode : CoreMode := .hs
  /-- DEVTIME of the latest secure entry (R428). -/
  entryAt : Nat := 0
  /-- DEVTIME of the latest watchdog kick or release (R429). -/
  kickAt : Nat := 0
deriving DecidableEq, Repr

/-- Steps of a Heartwood restart (R437). -/
inductive RestartStep where
  | idle | quiesce | clear | measure
deriving DecidableEq, Repr

/-- The signed Heartwood manifest in force (R542): CLEAR and MEASURE regions as base and length, digest. -/
structure Manifest where
  clear : List (Nat × Nat) := []
  measure : List (Nat × Nat) := []
  digest : Nat := 0
deriving DecidableEq, Repr

/-- The control complex. -/
structure CoresSt where
  cores : Assoc CoreSt := []
  /-- Heartwood cores fenced or shared cores fenced are in CTRLCPLX.CORE_STATUS; world bits in CORE_WORLD. -/
  step : RestartStep := .idle
  /-- DEVTIMEs of the latest restarts, newest last (R438). -/
  restarts : List Nat := []
  manifest : Manifest := {}
deriving DecidableEq, Repr

/-! Keys and haptics (chapter 13). -/

/-- One key (R444 to R452): B24, the debounce count, consecutive negative measurements, the time of its
debounced press, the owner in effect, EN at the last measurement, and injected measurements left
(R520: KIND and count). -/
structure KeySt where
  b24 : Nat := 0
  count : Nat := 0
  neg : Nat := 0
  pressedAt : Nat := 0
  owner : Nat := 0xFF
  forced : Nat := 0
  forcedLeft : Nat := 0
deriving DecidableEq, Repr

/-- One console port's scanner (R442, R443, R449). -/
structure ScanSt where
  /-- The slot that ends next, while a scan runs. -/
  slot : Option Nat := none
  /-- The scan sets baselines and produces no events (R444). -/
  initScan : Bool := true
  start : Nat := 0
  /-- DEVTIME of the end of the last scan with a detection. -/
  detectEnd : Nat := 0
  detected : Bool := false
  testing : Bool := false
deriving DecidableEq, Repr

/-- A key event record that waits to be written (R453, R457): key, edge, TIME field, receiving owner. -/
structure KeyRec where
  key : Nat
  edge : Nat
  time : Nat
  owner : Nat
deriving DecidableEq, Repr

/-- An effect on its way: its number, its words, and the key that started it. -/
structure Effect where
  num : Nat
  words : List Nat
  key : Option Nat
deriving DecidableEq, Repr

/-- One haptic channel (R463 to R468). -/
structure HapSt where
  left : Nat := 0
  words : List Nat := []
  /-- The effect that starts at the next crossing (R467), or after the brake (QUEUED). -/
  pending : Option Effect := none
  queued : Option Effect := none
  /-- STOP waits for the next crossing (R466). -/
  stopping : Bool := false
  /-- The half-cycle under way started from rest. -/
  fromRest : Bool := false
  /-- Drive direction is positive. -/
  positive : Bool := true
  duty : Nat := 0
  iPeak : Nat := 0
  bemf : Nat := 0
  limited : Nat := 0
  /-- The half-cycle under way is the first after ATTACK. -/
  checkStall : Bool := false
  /-- KCLK cycle in which the latest trigger was taken, and whether by a key (R465, R466). -/
  trigAt : Option Nat := none
  trigKey : Bool := false
deriving DecidableEq, Repr

/-! Audio (chapter 14). -/

/-- A memory stream (R475, R476): WR as read at the previous boundary, the line held with its address, the
WR value when it was fetched, and its samples; none where the read failed. -/
structure StreamSt where
  wrPrev : Nat := 0
  line : Option (Nat × Nat × Option (List Nat)) := none
deriving DecidableEq, Repr

/-- A tone generator (R478, R479). -/
structure ToneSt where
  phi : Nat := 0
  env : Nat := 0
  gate : Bool := false
  /-- Boundaries since the gate register went to 1. -/
  since : Nat := 0
  /-- Claimed, as in force since the latest boundary. -/
  claimed : Bool := false
deriving DecidableEq, Repr

/-- A gain ramp (R484): pair 32 s + b, start, end, step number and steps. -/
structure Ramp where
  pair : Nat
  g0 : Int
  g1 : Int
  k : Nat
  n : Nat
deriving DecidableEq, Repr

/-- A sink channel (R486): the inputs of the last 32 boundaries, newest first, and gL. -/
structure SinkSt where
  xs : List Int := []
  gl : Nat := 16777216
  y : Int := 0
deriving DecidableEq, Repr

/-- The mixer. -/
structure AudioSt where
  /-- Boundary number since the enable. -/
  n : Nat := 0
  streams : Assoc StreamSt := []
  tones : Assoc ToneSt := []
  /-- Effective gains by pair. -/
  gains : Assoc Int := []
  ramps : List Ramp := []
  sinks : Assoc SinkSt := []
  /-- Peak hold counts: buses 0–31, sinks 32–87 (R489). -/
  holds : Assoc Nat := []
  /-- Consecutive silent boundaries of each port (R490). -/
  silent : Assoc Nat := []
  /-- Gain and sink-entry words that failed parity and read as 0 until rewritten (R494). -/
  badWords : List Nat := []
deriving DecidableEq, Repr

/-! Bring-up, power and Surveyor (chapters 16 and 18). -/

/-- How far bring-up has come (R523, R525, R27, R538). -/
inductive BootStep where
  | unpowered | charging | surveyorUp | railsGood | bist | training | endOfSurvey | running
  /-- In Held for good, until RESET_IN, a RESET command or a mains cycle (R527). -/
  | stuck
  /-- Load has been shed (R538). -/
  | shed
  /-- Boot block's recovery loop: no valid Surveyor image (R543). -/
  | recovery
deriving DecidableEq, Repr

/-- One image bank of the SPI NOR (R541): its bytes as an update programmed them from offset 0, none while the bank
is as shipped; and whether an update has left it marked invalid. -/
structure BankSt where
  bytes : Option (List Nat) := none
  invalid : Bool := false
deriving DecidableEq, Repr

/-- An update under way (R544, R548): component, total size, the offset behind the data so far, the path (0 to 3 slots, 4
service port), and the uptime in µs of its last command. -/
structure UpdateSt where
  comp : Nat
  size : Nat
  next : Nat
  path : Nat
  lastUs : Nat
deriving DecidableEq, Repr

/-- Telemetry (R540). -/
structure TelemetrySt where
  base : Nat := 0
  count : Nat := 0
  en : Bool := false
  seq : Nat := 0
  /-- Owner code whose rights the writer reads with; 0x40 Heartwood, 0x41 the service port. -/
  owner : Nat := 0x41
deriving DecidableEq, Repr

/-- Surveyor and the module's power (R523 to R550, R587 to R595). -/
structure SurvSt where
  step : BootStep := .bist
  bootCount : Nat := 1
  mains : Bool := true
  resetIn : Bool := false
  /-- Held was entered from Safe, through Surveyor's watchdog or from mains: the next BIST is full (R526). -/
  fullNext : Bool := true
  /-- The run under way is full. -/
  full : Bool := true
  stored : CfgRec := {}
  /-- Sensor readings by id (R532). -/
  sensors : Assoc Int := []
  /-- Bulk bus voltage in 0.1 V, sampled every 100 µs (R537). -/
  bulk : Nat := 3900
  thermal : Nat := 0
  fanLost : List Nat := []
  sagStep : Nat := 0
  sagOn : List Nat := []
  /-- Uptime in µs of the onset, of the latest clearing, and of AC_LOW (R536, R538). -/
  sagAt : Nat := 0
  sagClearAt : Nat := 0
  acLowAt : Option Nat := none
  banks : Assoc BankSt := []
  active : Assoc Nat := []
  /-- The bank of the Surveyor image that runs (R543, R544). -/
  runBank : Nat := 0
  /-- Starts of a bank on trial, plus 1, by component (R544). -/
  trial : Assoc Nat := []
  minSec : Assoc Nat := []
  update : Option UpdateSt := none
  retired : List Nat := []
  /-- Stored shim entries: raw line plus 1, by entry. -/
  shims : Assoc Nat := []
  telemetry : TelemetrySt := {}
  /-- A flash operation is deferred and its deferral logged (R537). -/
  deferred : Bool := false
  /-- Responses computed and not yet delivered, by mailbox slot (R545). -/
  replies : Assoc (Option (List Nat)) := []
  /-- The latest answer on the service port, and on its MCTP or PLDM commands (R549). -/
  service : Option (List Nat) := none
  eid : Nat := 0
  /-- Receptacles whose DP_PWR is off after an overload (R587). -/
  dpOff : List Nat := []
  dpPwr : Bool := false
  /-- UNIT_CTRL of each unit, by the unit's own number (R535). -/
  units : Assoc Nat := []
  alarm : Bool := false
  /-- A condition of R524 has failed since the device entered Held, and is logged. -/
  condLogged : Bool := false
  /-- Mailbox slot of a RESET command whose response is still to be sent (R548). -/
  resetAfter : Option Nat := none
  /-- Heartwood's banks tried since release (R543). -/
  hwTried : List Nat := []
  /-- Heartwood is measured and released; Sapwood runtime and translator are in place (R543). -/
  hwLoaded : Bool := false
  sapLoaded : Bool := false
deriving DecidableEq, Repr

/-! Legacy Profile (chapter 17). -/

/-- The B4 model of port A (R551 to R582): the B4 window by offset, and what it keeps beside it. -/
structure B4St where
  regs : Assoc Word := []
  /-- Key FIFO: TIME, EDGE and KEY of each entry as the register shows them, without VALID (R560). -/
  keyFifo : List Nat := []
  /-- Words accepted and not yet in the ring (R574). -/
  deFifo : List Word := []
  /-- ERROR of B4_DE_STATUS (R577), and whether the engine has shown IDLE = 0 since it was last idle. -/
  deError : Bool := false
  deBusy : Bool := false
  /-- A soft reset runs (R561). -/
  resetting : Bool := false
  /-- Beep boundaries left, and whether GATE waits for the next boundary (R572, R573). -/
  beepLeft : Nat := 0
  beepSet : Bool := false
  /-- Flips held from the cutoff to the latch: head and B4 offset (R566). -/
  heldFlips : List (Nat × Nat) := []
  /-- Heads between the flip cutoff and the latch cycle. -/
  cutoff : List Nat := []
  /-- Heads that stop for a PIXCLK write and are to be enabled again (R565). -/
  restarts : List Nat := []
  /-- Heads with a written change that has not applied (HSTATUS.FLIP_PENDING). -/
  flipPending : List Nat := []
  /-- Ring index of the next word that the runtime takes. -/
  taken : Nat := 0
deriving DecidableEq, Repr

/-- The whole block. -/
structure State where
  /-- Commands waiting, first in, first out. -/
  pending : List Instr := []
  /-- The model's own counter: how many free values have been drawn. -/
  fresh : Nat := 0
  /-- FCLK cycles since release from Held (R18). -/
  fclk : Nat := 0
  /-- FCLK periods since Surveyor last started, Held included (R539 UPTIME_US). -/
  upTicks : Nat := 0
  cyc : Cycle := {}
  mode : ModeSt := {}
  cfg : CfgRec := {}
  /-- Register values in force, by PF BAR0 offset; an unlisted register holds its reset value. -/
  regs : Assoc Word := []
  /-- Shadow values of SHD registers (R62). -/
  shadow : Assoc Word := []
  /-- Pending stages by page base (R65). -/
  pends : Assoc (Option PendStage) := []
  slots : List Slot := []
  latches : List Latch := []
  crossings : List Crossing := []
  answer : Option Answer := none
  log : LogSt := {}
  legend : LegendSt := {}
  heads : Assoc HeadSt := []
  mem : MemSt := {}
  xlate : XlateSt := {}
  rings : Assoc RingSt := []
  ports : Assoc PortSt := []
  cvus : Assoc CvuSt := []
  safe : SafeSt := {}
  sched : SchedSt := {}
  cpx : CoresSt := {}
  keys : Assoc KeySt := []
  /-- Key event records not yet written, oldest first (R457). -/
  keyWait : List KeyRec := []
  scans : Assoc ScanSt := []
  haps : Assoc HapSt := []
  audio : AudioSt := {}
  surv : SurvSt := {}
  b4 : B4St := {}
deriving DecidableEq, Repr

/-- The machine right after reset: the first release of the core die from Held (R26), every register at the
value of its table, memory with nothing listed, and no command waiting. -/
def State.reset : State := {}

end Sys2Proof.Machine
end

