-- ==== Sys2Proof/Machine/Ops.lean ====
section
/-!
DEFINITION. Machine/Ops.lean: the named operations over registers, time and the log: reading and writing
one register in force or in the shadow, event bits, refusals, staging slots, read latches.
-/
namespace Sys2Proof.Machine

/-! Registers. -/

/-- Block-specific registers of a page (R43, R78). -/
def bodyRows : Page → List RegRow
  | .dev => rowsDev | .clkpwr => rowsClkpwr | .fabric => rowsFabric | .sched => rowsSched | .xlate => rowsXlate
  | .hostif _ => rowsHostif | .func _ => rowsFunc | .timing _ => rowsTiming | .composer _ => rowsComposer
  | .layer _ l => if l < 4 then rowsLayer ++ rowsLayerv else if l = 14 then rowsLayer ++ rowsLayerl else rowsLayer
  | .dplink _ => rowsDplink | .scaler => rowsScaler | .veneer => rowsVeneer | .legend => rowsLegend
  | .kerf => rowsKerf | .renderFe => rowsRenderfe | .bin => rowsBin | .bay _ => rowsBay | .memctl => rowsMemctl
  | .shim => rowsShim | .memch _ => rowsMemch | .keys => rowsKeys | .haptic => rowsHaptic | .hapch _ => rowsHapch
  | .audio => rowsAudio | .cvu _ => rowsCvu | .ctrlcplx => rowsCtrlcplx | .world => rowsWorld
  | .surveyorMb => rowsSurveyor | .legacy => rowsLegacy

/-- Header registers of a page (R43, R78). -/
def headerRows : Page → List RegRow
  | .layer _ _ => rowsLhdr
  | _ => rowsHdr

/-- Whether a register row covers an offset. -/
def rowCovers (r : RegRow) (o : Nat) : Bool :=
  if r.stride = 0 then o == r.off
  else r.off ≤ o && o < r.off + r.cnt * r.stride && (o - r.off) % r.stride == 0

/-- The register row at an offset of a page. -/
def rowAt (p : Page) (o : Nat) : Option RegRow :=
  (if o < pageBody p then headerRows p else bodyRows p).find? (fun r => rowCovers r o)

/-- The word of the reset values of a row's fields. -/
def rowReset (r : RegRow) : Nat := r.fields.foldl (fun acc x => acc + x.rst * 2 ^ x.lo) 0

/-- The pages and layer blocks that Legacy Profile holds for the B4 model (R552, R553). -/
def heldForB4 (c : CfgRec) (p : Page) : Bool :=
  c.profile == 1 &&
    match p with
    | .timing n | .composer n | .dplink n => n < 4
    | .layer n l => n < 4 && (l == 0 || l == 4)
    | _ => false

/-- PORT to which the configuration record assigns a page (R528): 0 port A, 1 port B, 2 device-internal.
DEDUCED for HOSTIF and FUNC pages, which belong to their own port. -/
def portRst (c : CfgRec) (p : Page) : Nat :=
  let sel (mask k : Nat) : Nat := if bit mask k then 1 else 0
  if heldForB4 c p then 0 else match p with
  | .timing n | .composer n | .layer n _ | .dplink n => sel c.headsB n
  | .cvu u => sel c.cvusB u
  | .hapch ch => sel c.hapchsB ch
  | .keys => sel c.sharedB 0 | .haptic => sel c.sharedB 1 | .audio => sel c.sharedB 2
  | .legend => sel c.sharedB 3 | .scaler => sel c.sharedB 4 | .veneer => sel c.sharedB 5 | .kerf => sel c.sharedB 6
  | .hostif q => q
  | .func k => k / 32
  | _ => 2

/-- OWNER_ID of a page at release from Held: the code its chapter gives it, else 0xFF (R59). -/
def ownerRst (c : CfgRec) (p : Page) : Nat :=
  if heldForB4 c p then 0 else match p with
  | .clkpwr | .sched | .ctrlcplx | .legacy | .xlate => 0x42
  | .surveyorMb | .memctl | .shim | .memch _ => 0x41
  | .world | .layer _ 15 => 0x40
  | .func k => k
  | .hostif q => 32 * q
  | _ => 0xFF

/-- A header register at reset (R44–R64, R530). -/
def hdrRst (c : CfgRec) (p : Page) (o : Nat) : Nat :=
  if o = hadr p .id - pageBase p then pageId p
  else if o = hadr p .ready - pageBase p then
    (match p with | .dev | .surveyorMb => 0x0001 | .func _ => 0x0600 | _ => 0x0100)
  else if o = hadr p .owner - pageBase p then 0x10000 * portRst c p + 0xFF00 + ownerRst c p
  else match p with
    | .layer _ _ => 0
    | _ =>
      if o = hdrOff .ctrl then (if enableHasFunction p then 0 else 1)
      else if o = hdrOff .action0 then floorWord p 0
      else if o = hdrOff .action1 then floorWord p 1
      else match rowAt p o with
        | some r => rowReset r
        | none => 0

/-- A block-specific register at reset, where its table's value depends on the instance or on the
configuration record. -/
def bodyRst (c : CfgRec) (p : Page) (o : Nat) : Nat :=
  match p with
  | .layer _ l =>
    if o = Reg.LAYER_LAYER_CTRL then 0x10000 * l
    else match rowAt p o with | some r => rowReset r | none => 0
  | .func k =>
    if o = Reg.FUNC_FUNC_STATUS then (if k % 32 = 0 then 0x40 else 0) + k
    else if Reg.FUNC_MSIX ≤ o ∧ o < Reg.FUNC_MSIX + 128 ∧ o % 16 = 12 then 1
    else match rowAt p o with | some r => rowReset r | none => 0
  | .hostif q =>
    let lo := if q = 0 then c.memBaseA else c.memBaseB
    let hi := if q = 0 then c.memLimitA else c.memLimitB
    if o = Reg.HOSTIF_MEM_BASE_LO then lo % 2 ^ 32
    else if o = Reg.HOSTIF_MEM_BASE_HI then lo / 2 ^ 32
    else if o = Reg.HOSTIF_MEM_LIMIT_LO then hi % 2 ^ 32
    else if o = Reg.HOSTIF_MEM_LIMIT_HI then hi / 2 ^ 32
    else if o = Reg.HOSTIF_VF_BAR2 then (if q = 0 then c.vfBar2A else c.vfBar2B)
    else if o = Reg.HOSTIF_PORT_SHARE then (if q = 0 then c.baysA else c.baysB)
    else match rowAt p o with | some r => rowReset r | none => 0
  | .scaler =>
    if o = Reg.SCALER_SET_OWNER + 60 ∧ c.profile = 1 then 0x000
    else match rowAt p o with | some r => rowReset r | none => 0
  | _ => match rowAt p o with | some r => rowReset r | none => 0

/-- The value of the register at a PF BAR0 offset at reset. -/
def regRst (c : CfgRec) (a : Nat) : Word :=
  match tableAt a with
  | some (.coef, o) => w32 (coefRst o)
  | some _ => 0
  | none =>
    match pageAt a with
    | none => 0
    | some (p, o) => w32 (if o < pageBody p then hdrRst c p o else bodyRst c p o)

/-- The value in force of the register at a PF BAR0 offset. -/
def State.reg (s : State) (a : Nat) : Word := aget (regRst s.cfg a) s.regs a

/-- Write a register's value in force. -/
def State.setReg (s : State) (a : Nat) (v : Word) : State :=
  { s with regs := aset (regRst s.cfg a) s.regs a v }

/-- The shadow value of a register (R62). -/
def State.shd (s : State) (a : Nat) : Word := aget (regRst s.cfg a) s.shadow a

/-- Write a register's shadow value. -/
def State.setShd (s : State) (a : Nat) (v : Word) : State :=
  { s with shadow := aset (regRst s.cfg a) s.shadow a v }

/-- A register of a page, by its offset in the page. -/
def State.pr (s : State) (p : Page) (o : Nat) : Word := s.reg (pageBase p + o)

/-- Write a register of a page. -/
def State.setPr (s : State) (p : Page) (o : Nat) (v : Word) : State := s.setReg (pageBase p + o) v

/-- A field of a register of a page. -/
def State.pf (s : State) (p : Page) (o hi lo : Nat) : Nat := fget (s.pr p o) hi lo

/-- Write a field of a register of a page. -/
def State.setPf (s : State) (p : Page) (o hi lo v : Nat) : State :=
  s.setPr p o (fset (s.pr p o) hi lo v)

/-- A header register of a page. -/
def State.hd (s : State) (p : Page) (h : Hdr) : Word := s.reg (hadr p h)

/-- Write a header register of a page. -/
def State.setHd (s : State) (p : Page) (h : Hdr) (v : Word) : State := s.setReg (hadr p h) v

/-- Write a field of a header register. -/
def State.setHf (s : State) (p : Page) (h : Hdr) (hi lo v : Nat) : State :=
  s.setHd p h (fset (s.hd p h) hi lo v)

/-- A 48- or 64-bit address held in a _LO/_HI pair at two consecutive offsets. -/
def State.pair (s : State) (p : Page) (o : Nat) : Nat :=
  (s.pr p o).toNat + 2 ^ 32 * (s.pr p (o + 4)).toNat

/-- Write a 64-bit value into a _LO/_HI pair. -/
def State.setPair (s : State) (p : Page) (o v : Nat) : State :=
  (s.setPr p o (w32 v)).setPr p (o + 4) (w32 (v / 2 ^ 32))

/-- Put an element in front of the first one it goes before. -/
def insertBy {α : Type} (le : α → α → Bool) (a : α) : List α → List α
  | [] => [a]
  | b :: r => if le a b then a :: b :: r else b :: insertBy le a r

/-- A list in order; equals keep their order. -/
def sortBy {α : Type} (le : α → α → Bool) (l : List α) : List α := l.foldr (insertBy le) []

/-- Add 1 to a 32-bit counter register, which wraps. -/
def State.count (s : State) (p : Page) (o : Nat) : State := s.setPr p o (s.pr p o + 1)

/-- Add n to a 32-bit counter register, which wraps. -/
def State.countBy (s : State) (p : Page) (o n : Nat) : State := s.setPr p o (s.pr p o + w32 n)

/-- Drop every listed register of an address range: each returns to its reset value. -/
def State.resetRange (s : State) (lo hi : Nat) : State :=
  { s with regs := s.regs.filter (fun e => e.1 < lo || hi ≤ e.1),
           shadow := s.shadow.filter (fun e => e.1 < lo || hi ≤ e.1) }

/-- The pending stage of a page (R65). -/
def State.pend (s : State) (p : Page) : Option PendStage := aget none s.pends (pageBase p)

/-- Set or clear the pending stage of a page. -/
def State.setPend (s : State) (p : Page) (x : Option PendStage) : State :=
  { s with pends := aset none s.pends (pageBase p) x }

/-! Page conditions. -/

/-- CTRL.ENABLE, or a layer block's LAYER_CTRL.ENABLE in force (R48, R137). -/
def State.enabled (s : State) (p : Page) : Bool :=
  match p with
  | .layer _ _ => fbit (s.pr p Reg.LAYER_LAYER_CTRL) 0
  | _ => fbit (s.hd p .ctrl) 0

/-- READY bits (R46). -/
def State.ready (s : State) (p : Page) : Bool := fbit (s.hd p .ready) 0
def State.busy (s : State) (p : Page) : Bool := fbit (s.hd p .ready) 1
def State.fenced (s : State) (p : Page) : Bool := fbit (s.hd p .ready) 2
def State.claimed (s : State) (p : Page) : Bool := fbit (s.hd p .ready) 3

/-- OWNER_ID and PORT of a page (R59). -/
def State.owner (s : State) (p : Page) : Nat := fget (s.hd p .owner) 7 0
def State.port (s : State) (p : Page) : Nat := fget (s.hd p .owner) 17 16

/-- READY.BUSY (R46). -/
def State.setBusy (s : State) (p : Page) (b : Bool) : State := s.setHf p .ready 1 1 (b2n b)

/-! Time. -/

/-- DEVTIME in nanoseconds: 10 for every REFCLK cycle since release, 0 in Held (R18, R19). -/
def State.devtime (s : State) : Nat := if s.mode.mode = .held then 0 else 10 * (s.fclk / 12)

/-- Microseconds since Surveyor started (R539). -/
def State.uptimeUs (s : State) : Nat := s.upTicks / 1200

/-! Event bits. -/

/-- Hardware sets W1C bits: they survive a clear of the same FCLK cycle (R52). -/
def State.hwBits (s : State) (a mask : Nat) : State :=
  let s := s.setReg a (s.reg a ||| w32 mask)
  { s with cyc := { s.cyc with hwSet := aset 0 s.cyc.hwSet a (aget 0 s.cyc.hwSet a ||| mask) } }

/-- Set an event bit of a page's IRQ_STATUS (R50). -/
def State.event (s : State) (p : Page) (k : Nat) : State := s.hwBits (hadr p .irqStatus) (2 ^ k)

/-! Groups of pages (R502, R531). -/

/-- The group bit of a page (R502). -/
def groupOf : Page → Nat
  | .dev => 0 | .clkpwr => 1 | .fabric => 2 | .sched => 3 | .xlate => 4 | .hostif _ => 5 | .func _ => 6
  | .timing _ | .composer _ | .layer _ _ | .dplink _ => 7
  | .scaler => 8 | .veneer => 9 | .legend => 10 | .kerf => 11 | .renderFe => 12 | .bin => 13 | .bay _ => 14
  | .memctl => 15 | .shim => 16 | .memch _ => 17 | .keys => 18 | .haptic | .hapch _ => 19 | .audio => 20
  | .cvu _ => 21 | .ctrlcplx => 22 | .world => 23 | .surveyorMb => 24 | .legacy => 25

/-- The pages of a group that carry the common header. -/
def groupPages (g : Nat) : List Page :=
  match g with
  | 0 => [.dev] | 1 => [.clkpwr] | 2 => [.fabric] | 3 => [.sched] | 4 => [.xlate]
  | 5 => [.hostif 0, .hostif 1] | 6 => (List.range 64).map Page.func
  | 7 => (List.range 12).flatMap (fun n => [.timing n, .composer n, .dplink n])
  | 8 => [.scaler] | 9 => [.veneer] | 10 => [.legend] | 11 => [.kerf] | 12 => [.renderFe] | 13 => [.bin]
  | 14 => (List.range 48).map Page.bay | 15 => [.memctl] | 16 => [.shim] | 17 => (List.range 32).map Page.memch
  | 18 => [.keys] | 19 => .haptic :: (List.range 16).map Page.hapch | 20 => [.audio]
  | 21 => (List.range 16).map Page.cvu | 22 => [.ctrlcplx] | 23 => [.world] | 24 => [.surveyorMb] | 25 => [.legacy]
  | _ => []

/-- The page exists in the profile, is assigned and is not fenced (R531). -/
def pageCounts (s : State) (p : Page) : Bool :=
  let r := fget (s.hd p .ready) 15 8
  !s.fenced p && r != 5 && r != 6

/-- A bit of READY_MAP (R531). -/
def groupReady (s : State) (g : Nat) : Bool :=
  let ps := (groupPages g).filter (pageCounts s)
  !ps.isEmpty && ps.all s.ready

/-- READY_CHANGE where the page's bit of READY_MAP differs from what it was (R531). -/
def readyChange (was : State) (s : State) (p : Page) : State :=
  if groupReady was (groupOf p) != groupReady s (groupOf p) then s.event .dev 1 else s

/-- READY = 1 with no reason (R46, R530). -/
def State.setReady (s : State) (p : Page) : State :=
  readyChange s ((s.setHf p .ready 0 0 1).setHf p .ready 15 8 0) p

/-- READY = 0 with a reason (R46). -/
def State.clearReady (s : State) (p : Page) (reason : Nat) : State :=
  readyChange s ((s.setHf p .ready 0 0 0).setHf p .ready 15 8 reason) p

/-! The log. -/

/-- Queue one log entry; when the queue of 1,024 is full the entry is counted and not kept (R537). -/
def State.logPut (s : State) (e : LogEntry) : State :=
  if s.log.queue.length < 1024 then
    { s with log := { s.log with queue := s.log.queue ++ [{ e with seq := s.log.nextSeq }],
                                 nextSeq := s.log.nextSeq + 1 } }
  else { s with log := { s.log with lost := s.log.lost + 1 } }

/-- One entry of a kind, stamped now (R539). -/
def State.logAdd (s : State) (k : LogKind) (place code addr : Nat) (injected : Bool := false) : State :=
  s.logPut { seq := 0, boot := s.surv.bootCount % 65536, kind := k, inHeld := s.mode.mode = .held,
             injected := injected, deferral := false, devtime := s.devtime, uptimeUs := s.uptimeUs,
             place := place, code := code, addr := addr }

/-- An entry limited to one per interval, by the limit's own number. -/
def State.logLimited (s : State) (key interval : Nat) (k : LogKind) (place code addr : Nat) : State :=
  let last := aget 0 s.log.limitAt key
  if last = 0 ∨ last - 1 + interval ≤ s.devtime then
    let s := s.logAdd k place code addr
    { s with log := { s.log with limitAt := aset 0 s.log.limitAt key (s.devtime + 1) } }
  else s

/-! Owner codes and refusals. -/

end Sys2Proof.Machine
namespace Sys2Proof

/-- Owner code of a master (R72). -/
def Master.code : Master → Nat
  | .heartwood => 0x40
  | .surveyor => 0x41
  | .sapwood => 0x42
  | .func k => k.val

/-- Place of a master in the same-cycle order (R76). -/
def Master.rank : Master → Nat
  | .heartwood => 0
  | .surveyor => 1
  | .sapwood => 2
  | .func k => if k.val = 0 then 3 else if k.val = 32 then 4 else 5 + k.val

end Sys2Proof
namespace Sys2Proof.Machine

/-- Refusal causes (R62). -/
inductive Cause where
  | budget | linebuf | owner | claimed | range | inuse | revoked | mode
deriving DecidableEq, Repr

/-- Code of a refusal cause. -/
def Cause.code : Cause → Nat
  | .budget => 1 | .linebuf => 2 | .owner => 3 | .claimed => 4 | .range => 5 | .inuse => 6 | .revoked => 7 | .mode => 8

/-- CFG_REJECT_INFO after one more refusal (R60). -/
def rejectWord (old : Word) (code cause off : Nat) : Word :=
  let valid := fbit old 0
  let n := if valid then satInc (fget old 19 12) 255 else 1
  w32 (2 ^ 24 * code + 2 ^ 20 * cause + 2 ^ 12 * n + (off % 0x1000 / 4) * 4
        + b2n (valid || fbit old 1) * 2 + 1)

/-- A refused write: recorded in the page's CFG_REJECT_INFO (R60), and for OWNER, CLAIMED and REVOKED logged
at most once per millisecond and page (R61). A refusal with REVOKED also shows in the function's REVOKE_INFO
(R77, R381). `full` is the BAR0 offset the log entry carries. -/
def State.refuse (s : State) (m : Master) (p : Page) (c : Cause) (off full : Nat) : State :=
  let old := s.hd p .reject
  let s := (s.setHd p .reject (rejectWord old m.code c.code off)).hwBits (hadr p .reject) (b2n (fbit old 0) * 2 + 1)
  let s :=
    match c, m with
    | .revoked, .func k =>
      let a := pageBase (.func k.val) + Reg.FUNC_REVOKE_INFO
      let old := s.reg a
      (s.setReg a (w32 ((full / 4 % 2 ^ 18) * 2 ^ 8 + satInc (fget old 7 0) 255))).hwBits a (2 ^ 31)
    | _, _ => s
  match c with
  | .owner | .claimed | .revoked =>
    let last := aget 0 s.log.refusalAt (pageBase p)
    if last = 0 ∨ last - 1 + 1000000 ≤ s.devtime then
      let s := s.logAdd .refusal full (m.code * 16 + c.code) 0
      { s with log := { s.log with refusalAt := aset 0 s.log.refusalAt (pageBase p) (s.devtime + 1) } }
    else s
  | _ => s

/-! Staging slots and read latches. -/

/-- The words a master has staged for an entry of a table (R69). -/
def State.staged (s : State) (m : Master) (table entry : Nat) : List (Nat × Word) :=
  match s.slots.find? (fun x => x.master == m.code && x.table == table && x.entry == entry) with
  | some x => x.words
  | none => []

/-- Empty a master's slot for a table. -/
def State.unstage (s : State) (m : Master) (table : Nat) : State :=
  { s with slots := s.slots.filter (fun x => !(x.master == m.code && x.table == table)) }

/-- Stage a lower word: words of another entry in the slot are discarded (R70). -/
def State.stageWord (s : State) (m : Master) (table entry a : Nat) (v : Word) : State :=
  let ws := s.staged m table entry
  let s := s.unstage m table
  { s with slots := s.slots ++ [⟨m.code, table, entry, ws.filter (fun w => w.1 != a) ++ [(a, v)]⟩] }

/-- Write the staged words of an entry into force and empty the slot (R69). -/
def State.applyStaged (s : State) (m : Master) (table entry : Nat) : State :=
  ((s.staged m table entry).foldl (fun s w => s.setReg w.1 w.2) s).unstage m table

/-- Latch a value for a master (R41). -/
def State.latch (s : State) (m : Master) (a : Nat) (v : Word) : State :=
  { s with latches := s.latches.filter (fun x => !(x.master == m.code && x.addr == a)) ++ [⟨m.code, a, v⟩] }

/-- The value a master has latched. -/
def State.latched (s : State) (m : Master) (a : Nat) : Option Word :=
  (s.latches.find? (fun x => x.master == m.code && x.addr == a)).map (·.val)

/-- A fresh free value. -/
def State.draw (s : State) : Nat × State := (Config.freeNat s.fresh, { s with fresh := s.fresh + 1 })

end Sys2Proof.Machine
end

