-- ==== Sys2Proof/Machine/Flags.lean ====
section
/-!
DEFINITION. Machine/Flags.lean: faults and their actions (R495 to R509): recording a fault, fencing a unit,
entering Safe and Degraded, the restart trigger of Heartwood, and the state these touch.
-/
namespace Sys2Proof.Machine

/-! Small accessors. -/

/-- One head's state. -/
def State.head (s : State) (n : Nat) : HeadSt := aget {} s.heads n

/-- Replace one head's state. -/
def State.setHead (s : State) (n : Nat) (h : HeadSt) : State := { s with heads := aset {} s.heads n h }

/-- One core. -/
def State.core (s : State) (c : Nat) : CoreSt := aget {} s.cpx.cores c

/-- Replace one core. -/
def State.setCore (s : State) (c : Nat) (x : CoreSt) : State :=
  { s with cpx := { s.cpx with cores := aset {} s.cpx.cores c x } }

/-- A ring set: 0 to 63 functions, 64 Heartwood, 65 Sapwood (R382, R427). -/
def State.ring (s : State) (rs : Nat) : RingSt := aget {} s.rings rs

/-- Replace a ring set's state. -/
def State.setRing (s : State) (rs : Nat) (x : RingSt) : State := { s with rings := aset {} s.rings rs x }

/-- The job in a slot. -/
def State.job (s : State) (i : Nat) : Option Job := aget none s.sched.jobs i

/-- Fill or free a job slot; SCHED.JOBS follows (R294, R328). -/
def State.setJob (s : State) (i : Nat) (j : Option Job) : State :=
  let s := { s with sched := { s.sched with jobs := aset none s.sched.jobs i j } }
  s.setPf .sched Reg.SCHED_JOBS 10 0 s.sched.jobs.length

/-- Legacy Profile is in force (R551). -/
def legacyOn (s : State) : Bool := s.cfg.profile == 1

/-- GEN of a function (R390). -/
def funcGen (s : State) (k : Nat) : Nat := s.pf (.func k) Reg.FUNC_FUNC_STATUS 31 24

/-- An effect of a ring set under an old generation: only functions have generations (R390, R427). -/
def staleGen (s : State) (rs gen : Nat) : Bool := rs < 64 && funcGen s rs != gen

/-- One discarded effect (R390). -/
def countStale (s : State) (rs : Nat) : State := s.count (.func rs) Reg.FUNC_STALE_GEN_COUNT

/-- Core c is a Heartwood core (R408). -/
def isHwCore (s : State) (c : Nat) : Bool := fbit (s.pr .world Reg.WORLD_CORE_CFG) c

/-- World bit of core c (R439). -/
def worldBit (s : State) (c : Nat) : Bool := fbit (s.pr .world Reg.WORLD_CORE_WORLD) c

/-- Set the world bit of core c. -/
def setWorld (s : State) (c : Nat) (b : Bool) : State := s.setPf .world Reg.WORLD_CORE_WORLD c c (b2n b)

/-- Core c is fenced (R430). -/
def coreFenced (s : State) (c : Nat) : Bool := fbit (s.pr .ctrlcplx Reg.CTRLCPLX_CORE_STATUS) (8 + c)

/-- A Heartwood restart is under way (R437). -/
def restarting (s : State) : Bool := fbit (s.pr .world Reg.WORLD_HW_CTRL) 31

/-- Bay b is fenced (R283, R527). -/
def bayFenced (s : State) (b : Nat) : Bool := s.fenced (.bay b)

/-- The bays in service. -/
def baysIn (s : State) : List Nat := keysWhere 48 (fun b => !bayFenced s b)

/-! The B4 window's registers (R560, R564, R571, R574). -/

/-- Reset value of a B4 register. -/
def b4Rst (o : Nat) : Word :=
  if o = 0x0 then 0xB4000584
  else if o = 0x14 then 0x00030078
  else if 0x100 ≤ o ∧ o < 0x200 ∧ (o - 0x100) % 0x40 = 0x20 then 0x00FF0000
  else if o = 0x404 then 0x80000100
  else if o = 0x800 then 0x8
  else if o = 0x804 then 0x3E8
  else if o = 0x808 then 0x64
  else 0

/-- A B4 register. -/
def State.b4r (s : State) (o : Nat) : Word := aget (b4Rst o) s.b4.regs o

/-- Write a B4 register. -/
def State.setB4 (s : State) (o : Nat) (v : Word) : State :=
  { s with b4 := { s.b4 with regs := aset (b4Rst o) s.b4.regs o v } }

/-- Hardware sets bits of B4_ISR; a clear of the same cycle leaves them (R52). -/
def b4Isr (s : State) (mask : Nat) : State :=
  let s := s.setB4 0x8 (s.b4r 0x8 ||| w32 mask)
  let k := 0x10000008
  { s with cyc := { s.cyc with hwSet := aset 0 s.cyc.hwSet k (aget 0 s.cyc.hwSet k ||| mask) } }

/-- The filtered HPD of a B4 head changed (R560). -/
def b4HpdChange (s : State) (n : Nat) : State :=
  if legacyOn s && n < 4 then b4Isr s (2 ^ (16 + n)) else s

/-! Modes (R22 to R29). -/

/-- Code of a mode (R22). -/
def Mode.code : Mode → Nat
  | .held => 0 | .survey => 1 | .legacy => 2 | .native => 3 | .degraded => 4 | .safe => 5

/-- Change the mode: MODE, PRIOR_MODE and MODE_TIME together, and MODE_CHANGE (R25); one transition per cycle,
so that PRIOR_MODE keeps the mode before the cycle (R29). -/
def setMode (s : State) (m : Mode) : State :=
  let prior := s.cyc.modeFrom.getD s.mode.mode
  let s := { s with mode := { s.mode with mode := m, prior := prior, time := s.devtime },
                    cyc := { s.cyc with modeFrom := some prior } }
  (s.event .dev 0).logAdd .mode 0 m.code 0

/-- The first fenced unit moves Legacy or Native to Degraded (R26). -/
def enterDegraded (s : State) : State :=
  match s.mode.mode with
  | .legacy | .native => setMode s .degraded
  | _ => s

/-! Interrupt of a layer owned by a function (R381 LAYER_EVENTS): bit 0 FLIP_DONE, 1 FLIP_LATE, 2 UNDERRUN,
3 LAYER_FAULT. -/

/-- Set a layer event in the FUNC page of the layer's owner. -/
def layerEvent (s : State) (code bit : Nat) : State :=
  if code < 64 then s.hwBits (pageBase (.func code) + Reg.FUNC_LAYER_EVENTS) (2 ^ bit) else s

/-! The veneer (R166, R169). -/

/-- A register of head n's block in the VENEER page (R169). -/
def vreg (s : State) (n o : Nat) : Word := s.pr .veneer (o + 0x40 * n)

/-- Record an invalidation of a run of head n (R166, R169). -/
def invalidateRun (s : State) (n r code : Nat) : State :=
  let h := s.head n
  let s := s.setHead n { h with runs := h.runs.filter (fun x => x.idx != r) }
  let s := s.setPf .veneer (Reg.VENEER_VSTATUS + 0x40 * n) 31 24 code
  let s := (s.count .veneer (Reg.VENEER_VINVAL_COUNT + 0x40 * n)).event .veneer 1
  if code = 7 then s.event .veneer 2 else s

/-- Invalidate every run of a head that meets a test (R166). -/
def invalidateWhere (s : State) (n code : Nat) (p : Run → Bool) : State :=
  ((s.head n).runs.filter p).foldl (fun s r => invalidateRun s n r.idx code) s

/-! Recording a fault (R53 to R55, R496 to R499). -/

/-- The action in force for a fault bit: a write of the same cycle does not count (R498). -/
def actionOf (s : State) (p : Page) (b : Nat) : Nat :=
  let a := hadr p (if b < 16 then .action0 else .action1)
  let k := 2 * (b % 16)
  fget (aget (s.reg a) s.cyc.actPrev a) (k + 1) k

/-- FAULT_FIRST with the time of the fault (R54, R55). -/
def recordFirst (s : State) (p : Page) (b sev : Nat) (multi : Bool) : State :=
  let s := s.setHd p .faultFirst (w32 (0x10000 + 0x8000 * b2n multi + sev * 0x100 + b))
  let s := (s.setHd p .ffTimeLo (w32 s.devtime)).setHd p .ffTimeHi (w32 (s.devtime / 2 ^ 32))
  { s with cyc := { s.cyc with firsts := s.cyc.firsts.filter (fun x => x != pageBase p) ++ [pageBase p] } }

/-- One more fault of a cycle whose first fault is already recorded: MULTI, and the more severe or lower one
stands (R54). -/
def mergeFirst (s : State) (p : Page) (b sev : Nat) : State :=
  let w := s.hd p .faultFirst
  let sev0 := fget w 10 8
  let b0 := fget w 7 0
  if sev0 < sev ∨ (sev0 = sev ∧ b < b0) then recordFirst s p b sev true
  else s.setHd p .faultFirst (fsetb w 15 true)

/-- Set a fault bit that was clear: status, first fault, and the log entry (R496 LOG). -/
def recordFault (s : State) (p : Page) (b : Nat) (injected : Bool) : State :=
  let before := s.hd p .faultStatus
  let sev := faultSev p b
  let s := s.hwBits (hadr p .faultStatus) (2 ^ b)
  let s := if before = 0 then recordFirst s p b sev false
    else if s.cyc.firsts.contains (pageBase p) then mergeFirst s p b sev
    else s
  s.logAdd .fault (pageBase p) (b + sev * 256) 0 injected

/-! Jobs that a fence or Safe ends. -/

/-- A job's status becomes known (R298, R327); a FENCED_LOSS is counted (R287). -/
def endJob (s : State) (i : Nat) (status detail : Nat) : State :=
  match s.job i with
  | none => s
  | some j =>
    let s := s.setJob i (some { j with
      phase := .ended, status := status, detail := detail,
      rend := { j.rend with flying := [] }, comp := { j.comp with flying := [] } })
    if status = 0x20 then s.count .renderFe Reg.RENDERFE_LOSS_COUNT else s

/-- Job i loses bay b (R284, R285, R326). -/
def jobLosesBay (s : State) (b i : Nat) : State :=
  match s.job i with
  | none => s
  | some j =>
    if j.phase ≠ .running then s
    else
      let idem := bit j.flags 2
      let tiles := j.rend.flying.filter (fun e => e.2 == b)
      let wgs := j.comp.flying.filter (fun e => e.2 == b)
      if tiles ≠ [] then
        if j.rend.stores && !idem then endJob s i 0x20 0
        else
          let s := s.setJob i (some { j with
            cflags := j.cflags ||| 1,
            rend := { j.rend with flying := j.rend.flying.filter (fun e => e.2 != b) } })
          (s.countBy .renderFe Reg.RENDERFE_REPLAY_COUNT tiles.length).event .renderFe 1
      else if wgs ≠ [] then
        let keep := j.comp.flying.filter (fun e => e.2 != b)
        if idem then
          s.setJob i (some { j with
            cflags := j.cflags ||| 1,
            comp := { j.comp with flying := keep, again := j.comp.again ++ wgs.map (·.1) } })
        else if keep = [] then endJob s i 0x20 (min j.comp.done 0xFFFFFFFF)
        else s.setJob i (some { j with status := 0x20, comp := { j.comp with flying := keep, nextWg := j.comp.total, again := [] } })
      else s

/-- The work of a fenced bay is replayed or lost (R284, R285, R326). -/
def bayLost (s : State) (b : Nat) : State :=
  let ks := s.sched.jobs.map (·.1)
  let s := ks.foldl (fun s i => jobLosesBay s b i) s
  if baysIn s ≠ [] then s
  else ks.foldl (fun s i =>
    match s.job i with
    | some j => if (j.op == 1 || j.op == 2) && (j.phase == .running) then endJob s i 0x20 (if j.op = 2 then min j.comp.done 0xFFFFFFFF else 0) else s
    | none => s) s

/-! Safe (R503 to R509). -/

/-- Haptic channel ch stops: bridge at high impedance, IDLE, a queued effect discarded (R469). -/
def hapStop (s : State) (ch : Nat) : State :=
  let s := { s with haps := aset {} s.haps ch {} }
  s.setPr (.hapch ch) Reg.HAPCH_HSTATUS (s.pr (.hapch ch) Reg.HAPCH_HSTATUS &&& 0xFF030000)

/-- Discard a pending stage with a cause in COMMIT_STATUS.REJECT (R64, R509). -/
def dropStage (s : State) (p : Page) (reject : Nat) : State :=
  if (s.pend p).isNone then s
  else
    let s := s.setPend p none
    s.setHd p .commitStatus (fset (fsetb (s.hd p .commitStatus) 0 false) 15 12 reject)

/-- Every page and layer block with a pending stage. -/
def pendingPages (s : State) : List Page := s.pends.filterMap (fun e => (pageAt e.1).map (·.1))

/-- A layer block is L15. -/
def isL15 : Page → Bool
  | .layer _ 15 => true
  | _ => false

/-- Parts that stop when the device enters Safe (R509, R166 code 0x09, R469). -/
def safeStops (s : State) : State :=
  let s := (pendingPages s).foldl (fun s p => if isL15 p then s else dropStage s p 8) s
  let s := (List.range 12).foldl (fun s n => invalidateWhere s n 9 (fun _ => true)) s
  let s := (List.range 16).foldl hapStop s
  let s := { s with sched := { s.sched with jobs := [], trans := [], preempting := [] } }
  let s := s.setPf .sched Reg.SCHED_JOBS 10 0 0
  { s with rings := s.rings.map (fun e => (e.1, { e.2 with cqWait := [] })) }

/-- Heartwood is at fault: its cores are held in reset (R509). -/
def holdHeartwood (s : State) : State :=
  (List.range 8).foldl (fun s c => if isHwCore s c then s.setCore c { s.core c with inReset := true } else s) s

/-- Enter Safe, or add a cause of the same cycle (R503, R504, R507). `hw` is the hardwired parity line, `b` the
fault bit or header register number. -/
def enterSafe (s : State) (hw : Bool) (p : Page) (b sev : Nat) (atFault : Bool) : State :=
  let q : Page := match p with | .layer n _ => .layer n 0 | x => x
  let info (f : Bool) : Word := w32 (2 ^ 31 + 2 ^ 30 * b2n f + 2 ^ 28 * (if hw then 2 else 1) +
    2 ^ 12 * ((pageBase q / 0x1000)) + sev * 256 + b)
  match s.mode.mode with
  | .held => s
  | .safe =>
    if s.safe.decided ≠ some s.fclk then s
    else
      let old := s.pr .dev Reg.DEV_SAFE_INFO
      let oldHw := fget old 29 28 = 2
      let earlier : Bool := (hw && !oldHw) || (hw == oldHw && pageBase q / 0x1000 < fget old 25 12)
      let f := fbit old 30 || atFault
      let s := s.setPr .dev Reg.DEV_SAFE_INFO (if earlier then info f else fsetb old 30 f)
      let s := { s with mode := { s.mode with safeHw := s.mode.safeHw || hw }, safe := { s.safe with hwAtFault := f } }
      if f then holdHeartwood s else s
  | _ =>
    let s := s.setPr .dev Reg.DEV_SAFE_INFO (info atFault)
    let s := setMode { s with mode := { s.mode with safeHw := hw } } .safe
    let s := safeStops { s with safe := { s.safe with decided := some s.fclk, hwAtFault := atFault } }
    if atFault then holdHeartwood s else s

/-- WORLD faults that leave Heartwood at fault (R504). -/
def hwFaultBit (p : Page) (b : Nat) : Bool := p == .world && (b == 3 || b == 4 || b == 6)

/-- A fault of a page whose FENCE action is carried out as SAFE (R500). -/
def raiseContained (s : State) (q : Page) (b : Nat) (injected : Bool := false) : State :=
  let p := faultPage q
  if fbit (s.hd p .faultStatus) b then s.hwBits (hadr p .faultStatus) (2 ^ b)
  else
    let s := recordFault s p b injected
    if 2 ≤ actionOf s p b then enterSafe s false p b (faultSev p b) (hwFaultBit p b) else s

/-! The restart of Heartwood (R436 to R438). -/

/-- General registers after a scrubbing return: x1 to x9 and x12 to x31, f0 to f31 and fcsr are 0 (R420). -/
def scrub (k : CoreSt) : CoreSt :=
  { k with x := k.x.mapIdx (fun i v => if i = 10 ∨ i = 11 then v else 0), f := List.replicate 32 0, fcsr := 0 }

/-- A shared core with world bit 1 leaves the monitor with ABORTED (R437 step 2). -/
def abortCore (s : State) (c : Nat) : State :=
  if isHwCore s c || !worldBit s c || coreFenced s c then s
  else
    let k := scrub (s.core c)
    let k := { k with
      pc := k.entryPc, mode := k.entryMode, x := k.x.set 10 0xFFFFFFFFFFFFFF01,
      iso := fget (s.pr .world Reg.WORLD_ISO_LEVEL) (2 * c + 1) (2 * c) }
    setWorld (s.setCore c k) c false

/-- Steps 1 and 2 of a restart, and the limit of three in 60 s (R437, R438). -/
def hwRestart (s : State) (cause : Nat) : State :=
  if restarting s then s
  else
    let w := s.pr .world Reg.WORLD_HW_CTRL
    let s := s.setPr .world Reg.WORLD_HW_CTRL
      (w32 (2 ^ 31 + 2 ^ 24 * cause + 2 ^ 16 * satInc (fget w 23 16) 255))
    let s := holdHeartwood (s.event .ctrlcplx 3)
    let s := (List.range 8).foldl abortCore s
    let times := (s.cpx.restarts ++ [s.devtime]).reverse.take 3 |>.reverse
    let s := { s with cpx := { s.cpx with step := .quiesce, restarts := times } }
    if times.length = 3 ∧ s.devtime - times.headD 0 ≤ 60000000000 then raiseContained s .world 4 else s

/-- Core c is fenced (R430). -/
def fenceCore (s : State) (c : Nat) : State :=
  let s := s.setPf .ctrlcplx Reg.CTRLCPLX_CORE_STATUS (8 + c) (8 + c) 1
  let w := worldBit s c
  let s := enterDegraded (s.setCore c { s.core c with inReset := true })
  if isHwCore s c && (List.range 8).all (fun k => !isHwCore s k || coreFenced s k) then
    enterSafe s false .ctrlcplx c 2 true
  else if isHwCore s c || w then hwRestart s 4
  else s.event .ctrlcplx 0

/-! Fencing (R500, R501). -/

/-- Mark a page fenced (R46, R501): FENCED with REASON 0x04. -/
def markFenced (s : State) (p : Page) : State :=
  readyChange s ((s.setHf p .ready 0 0 0).setHf p .ready 15 8 4 |>.setHf p .ready 2 2 1) p

/-- Bay b leaves service (R283, R287). -/
def fenceBay (s : State) (b : Nat) : State :=
  if bayFenced s b then s
  else
    let s := markFenced s (.bay b)
    let r := if b < 32 then Reg.RENDERFE_BAY_FENCED_LO else Reg.RENDERFE_BAY_FENCED_HI
    let s := s.setPf .renderFe r (b % 32) (b % 32) 1
    let s := (s.setPf .renderFe Reg.RENDERFE_BAY_AVAIL 5 0 (baysIn s).length).event .renderFe 0
    bayLost (enterDegraded s) b

/-- The unit that a FENCE action takes out of service (R500). -/
def fenceUnit (s : State) (p : Page) (b : Nat) : State :=
  match p with
  | .bay k => fenceBay s k
  | .ctrlcplx => if coreFenced s b then s else fenceCore s b
  | .hapch ch => if s.fenced p then s else enterDegraded (markFenced (hapStop s ch) p)
  | .cvu _ => if s.fenced p then s else enterDegraded (markFenced s p)
  | .veneer =>
    if s.fenced p then s
    else enterDegraded (markFenced ((List.range 12).foldl (fun s n => s.setHead n { s.head n with runs := [] }) s) p)
  | .fabric => enterDegraded s
  | _ => enterSafe s false p b (faultSev p b) (hwFaultBit p b)

/-- A page detects a fault: its bit, FAULT_FIRST, the log, and the action in force (R496, R497). -/
def raiseFault (s : State) (q : Page) (b : Nat) (injected : Bool := false) : State :=
  let p := faultPage q
  if fbit (s.hd p .faultStatus) b then s.hwBits (hadr p .faultStatus) (2 ^ b)
  else
    let act := actionOf s p b
    let s := recordFault s p b injected
    if act = 3 then enterSafe s false p b (faultSev p b) (hwFaultBit p b)
    else if act = 2 then fenceUnit s p b
    else s

/-! Surveyor's outputs and store. -/

/-- Load has been shed, and the device has not yet passed through Held (R538). -/
def loadIsShed (s : State) : Bool := s.surv.step == .shed

/-- ALARM_OUT conducts (R595). -/
def alarmOn (s : State) : Bool :=
  match s.mode.mode with
  | .degraded | .safe => true
  | .held => s.surv.condLogged || s.surv.step == .stuck || s.surv.step == .recovery
  | _ => false

/-- Bank b of component comp (R541). -/
def bankOf (s : State) (comp b : Nat) : BankSt := aget {} s.surv.banks (2 * comp + b)

/-- The bytes of bank b of component comp (R541). -/
def bankBytes (s : State) (comp b : Nat) : List Nat :=
  (bankOf s comp b).bytes.getD (Config.shippedImage (2 * comp + b))

/-- The relay drive follows the mode and SAFE_OK.OK; in Safe it is released two cycles after the decision
(R435, R507), and load shedding releases it (R538). ALARM_OUT follows its causes (R595). -/
def relayUpdate (s : State) : State :=
  let on := !loadIsShed s && match s.mode.mode with
    | .legacy | .native | .degraded => fbit (s.pr .world Reg.WORLD_SAFE_OK) 0
    | .safe => s.safe.relay && (match s.safe.decided with | some d => decide (s.fclk < d + 2) | none => false)
    | _ => false
  { s with safe := { s.safe with relay := on }, surv := { s.surv with alarm := alarmOn s } }

end Sys2Proof.Machine
end

