-- ==== Sys2Proof/Machine/Stage.lean ====
section
/-!
DEFINITION. Machine/Stage.lean: the pending stage of a page (R65 to R67): copying the shadow set into it,
putting it in force, discarding it.
-/
namespace Sys2Proof.Machine

/-- The bits of a row's SHD fields. -/
def shdMask (r : RegRow) : Nat :=
  r.fields.foldl (fun acc x => if x.acc = .shd then acc + (2 ^ (x.hi + 1 - x.lo) - 1) * 2 ^ x.lo else acc) 0

/-- Addresses and SHD masks of a page's SHD registers. -/
def shdRegs (p : Page) : List (Nat × Nat) :=
  (bodyRows p).flatMap (fun r =>
    if shdMask r = 0 then []
    else if r.cnt ≤ 1 then [(pageBase p + r.off, shdMask r)]
    else (List.range r.cnt).map (fun i => (pageBase p + r.off + i * r.stride, shdMask r)))

/-- The shadow set of a page as a stage's values (R65). -/
def shadowSet (s : State) (p : Page) : List (Nat × Word) :=
  (shdRegs p).map (fun e => (e.1, s.shd e.1))

/-- COMMIT_STATUS after a commit is applied or refused (R64). -/
def commitResult (s : State) (p : Page) (seq reject : Nat) (pending : Bool) : State :=
  let old := s.hd p .commitStatus
  s.setHd p .commitStatus (w32 (0x10000 * seq + 0x1000 * reject + b2n (fbit old 1) * 2 + b2n pending))

/-- Accept a commit: the shadow set becomes the pending stage, and a stage already there is superseded
(R65, R66). -/
def stageShadow (s : State) (p : Page) (m : Master) (seq cost : Nat) : State :=
  let had := (s.pend p).isSome
  let s := s.setPend p (some { seq := seq, master := m.code, vals := shadowSet s p, cost := cost })
  let old := s.hd p .commitStatus
  let s := s.setHd p .commitStatus (old ||| 1)
  if had then s.hwBits (hadr p .commitStatus) 2 else s

/-- The SHD bits of one register take a staged value. -/
def putShd (s : State) (mask : Nat) (e : Nat × Word) : State :=
  s.setReg e.1 ((s.reg e.1 &&& ~~~ (w32 mask)) ||| (e.2 &&& w32 mask))

/-- The pending stage takes effect: SHD values in force, PENDING clear, LAST_SEQ, REJECT 0 (R67). -/
def putStage (s : State) (p : Page) : State :=
  match s.pend p with
  | none => s
  | some st =>
    let s := (shdRegs p).foldl (fun s r =>
      match st.vals.find? (fun e => e.1 == r.1) with
      | some e => putShd s r.2 e
      | none => s) s
    commitResult (s.setPend p none) p st.seq 0 false

end Sys2Proof.Machine
end

