-- ==== Sys2Proof/Machine/Heads.lean ====
section
/-!
DEFINITION. Machine/Heads.lean: the timing generator, the pixel PLL, the link controller and the AUX port of
a head (R82 to R132).
-/
namespace Sys2Proof.Machine

/-- A register of a page as a pending commit would leave it, else in force. -/
def State.pendReg (s : State) (p : Page) (o : Nat) : Word :=
  match s.pend p with
  | some st => (st.vals.find? (fun e => e.1 == pageBase p + o)).elim (s.pr p o) (·.2)
  | none => s.pr p o

/-- f_pix as a fraction in hertz (R82). -/
def fpix (s : State) (n : Nat) : Nat × Nat :=
  let c0 := s.pr (.timing n) Reg.TIMING_PLL_CFG0
  let c1 := s.pr (.timing n) Reg.TIMING_PLL_CFG1
  (100000000 * (16777216 * fget c0 6 0 + fget c1 23 0), 16777216 * fget c0 24 16)

/-- A raster from a way to read the timing registers (R89, R90). -/
def rasterOf (g : Nat → Word) : Raster :=
  let v (o : Nat) : Nat := fget (g o) 15 0
  { hActive := v Reg.TIMING_H_ACTIVE, hFront := v Reg.TIMING_H_FRONT, hSync := v Reg.TIMING_H_SYNC,
    hBack := v Reg.TIMING_H_BACK, vActive := v Reg.TIMING_V_ACTIVE, vFront := v Reg.TIMING_V_FRONT,
    vSync := v Reg.TIMING_V_SYNC, vBack := v Reg.TIMING_V_BACK, latchSel := fbit (g Reg.TIMING_TIMING_CFG) 8 }

def Raster.hTotal (t : Raster) : Nat := t.hActive + t.hFront + t.hSync + t.hBack
def Raster.vTotal (t : Raster) : Nat := t.vActive + t.vFront + t.vSync + t.vBack

/-- The line at whose start the frame latch lies (R90, R97). -/
def Raster.latchLine (t : Raster) : Nat := if t.latchSel then t.vActive + t.vFront else t.vTotal - 4

/-- Timing in force, and timing a pending commit would put in force. -/
def rasterInForce (s : State) (n : Nat) : Raster := rasterOf (fun o => s.pr (.timing n) o)
def rasterPending (s : State) (n : Nat) : Raster := rasterOf (fun o => s.pendReg (.timing n) o)

/-- Exact comparison a/b ≤ c/d. -/
def fracLe (x y : Nat × Nat) : Bool := x.1 * y.2 ≤ y.1 * x.2

/-- Sum of two fractions. -/
def fracAdd (x y : Nat × Nat) : Nat × Nat := (x.1 * y.2 + y.1 * x.2, x.2 * y.2)

/-- Active pixel rate of a head with a raster, as a fraction (R91). -/
def pixelRate (s : State) (n : Nat) (t : Raster) : Nat × Nat :=
  let f := fpix s n
  (t.hActive * t.vActive * f.1, t.hTotal * t.vTotal * f.2)

/-! Link capacity (R123). -/

/-- Payload of a lane in Mbit/s, by rate code; with FEC on 8b/10b when DSC is active. -/
def laneMbps (rate : Nat) (fec : Bool) : Nat :=
  (if fec then [1265, 2108, 4216, 6324, 9671, 13056, 19342]
   else [1296, 2160, 4320, 6480, 9671, 13056, 19342]).getD rate 0

/-- Payload capacity of a rate and a lane code in bit/s. -/
def capacity (rate lanes : Nat) (fec : Bool) : Nat := 1000000 * (laneMbps rate fec * 2 ^ lanes)

/-- Whether DSC will be active: enabled and declared by the sink (R122). -/
def dscActive (s : State) (n : Nat) : Bool :=
  fbit (s.pr (.dplink n) Reg.DPLINK_DSC_CFG) 0 && fbit (s.pr (.dplink n) Reg.DPLINK_SINK_CAPS) 8

/-- Mode payload for a head whose OUT_BPC code is given, as a fraction in bit/s (R123). -/
def modePayload (s : State) (n bpc : Nat) : Nat × Nat :=
  let f := fpix s n
  if !s.enabled (.timing n) then (0, 1)
  else if dscActive s n then (f.1 * s.pf (.dplink n) Reg.DPLINK_DSC_CFG 24 16, f.2 * 16)
  else (f.1 * 3 * bpcOf bpc, f.2)

/-- OUT_BPC in force. -/
def outBpc (s : State) (n : Nat) : Nat := s.pf (.composer n) Reg.COMPOSER_DITHER_CFG 1 0

/-- The payload fits the trained link, or the link is not trained (R91, R125). -/
def payloadFits (s : State) (n bpc : Nat) : Bool :=
  let st := s.pr (.dplink n) Reg.DPLINK_LINK_STATUS
  !fbit st 30 || fracLe (modePayload s n bpc) (capacity (fget st 6 4) (fget st 1 0) (dscActive s n), 1)

/-- Band settings against an active height (R103). -/
def bandsOk (g : Nat → Word) (vActive : Nat) : Bool :=
  let nb := fget (g Reg.COMPOSER_BAND_CFG) 3 0
  let start (b : Nat) : Nat := if b = 0 then 0 else fget (g (Reg.COMPOSER_BAND_START + 4 * (b - 1))) 15 0
  1 ≤ nb && nb ≤ 8 &&
    (List.range (nb - 1)).all (fun i => start i + 16 ≤ start (i + 1)) &&
    (nb = 1 || start (nb - 1) + 16 ≤ vActive)

/-- The limits of R91 on a raster of head n. -/
def timingOk (s : State) (n : Nat) (t : Raster) : Bool :=
  let ev (x : Nat) : Bool := x % 2 == 0
  let f := fpix s n
  let rate (k : Nat) : Nat × Nat :=
    if k = n then pixelRate s k t
    else if s.enabled (.timing k) then pixelRate s k (rasterPending s k) else (0, 1)
  320 ≤ t.hActive && t.hActive ≤ 8192 && ev t.hActive &&
  2 ≤ t.hFront && ev t.hFront && 2 ≤ t.hSync && ev t.hSync && 2 ≤ t.hBack && ev t.hBack &&
  80 ≤ t.hFront + t.hSync + t.hBack && t.hTotal ≤ 16384 &&
  200 ≤ t.vActive && t.vActive ≤ 8192 && 1 ≤ t.vFront && 1 ≤ t.vSync && 1 ≤ t.vBack &&
  5 ≤ t.vFront + t.vSync + t.vBack && t.vTotal ≤ 16384 &&
  (!t.latchSel || 4 ≤ t.vSync + t.vBack) &&
  fracLe (25000000, 1) f && fracLe f (2700000000, 1) &&
  t.hActive * f.1 ≤ 2400000000 * t.hTotal * f.2 &&
  fracLe ((List.range 12).foldl (fun acc k => fracAdd acc (rate k)) (0, 1)) (20000000000, 1)

/-- A TIMING commit (R91, R103, R125): the cause of refusal of the shadow set, if any. -/
def timingCheck (s : State) (n : Nat) : Option Cause :=
  let t := rasterOf (fun o => s.shd (pageBase (.timing n) + o))
  if timingOk s n t && bandsOk (fun o => s.pendReg (.composer n) o) t.vActive && payloadFits s n (outBpc s n)
  then none else some .range

/-- A COMPOSER commit (R103, R115, R116, R125). -/
def composerCheck (s : State) (n : Nat) : Option Cause :=
  let g (o : Nat) : Word := s.shd (pageBase (.composer n) + o)
  let bpc := fget (g Reg.COMPOSER_DITHER_CFG) 1 0
  let dsc := s.pr (.dplink n) Reg.DPLINK_DSC_CFG
  let bpp := fget dsc 24 16
  if !bandsOk g (rasterPending s n).vActive then some .range
  else if bpc = 3 then some .range
  else if bpc = 2 && fbit dsc 0 then some .range
  else if bpc ≠ outBpc s n && fbit dsc 0 && !(128 ≤ bpp && bpp + 16 ≤ 48 * bpcOf bpc) then some .range
  else if bpc ≠ outBpc s n && !payloadFits s n bpc then some .range
  else none

/-- A write to PLL_CFG0 or PLL_CFG1 is in range (R82, R83). -/
def pllCfgOk (c0 c1 : Word) : Bool :=
  let mi := fget c0 6 0
  let pd := fget c0 24 16
  54 ≤ mi && mi ≤ 108 && (mi < 108 || fget c1 23 0 = 0) && 2 ≤ pd && pd ≤ 432

/-- f_pix lies within 25 MHz to 2.7 GHz and the VCO within 5.4 to 10.8 GHz (R82, R85). -/
def pllOk (s : State) (n : Nat) : Bool :=
  let f := fpix s n
  fracLe (25000000, 1) f && fracLe f (2700000000, 1) &&
    pllCfgOk (s.pr (.timing n) Reg.TIMING_PLL_CFG0) (s.pr (.timing n) Reg.TIMING_PLL_CFG1)

/-! The link. -/

/-- LINK_STATUS with a change. -/
def setLink (s : State) (n : Nat) (hi lo v : Nat) : State := s.setPf (.dplink n) Reg.DPLINK_LINK_STATUS hi lo v

/-- The idle pattern is sent: not trained (R124, R126, R131). -/
def linkIdle (s : State) (n : Nat) : State :=
  let s := setLink s n 30 30 0
  let s := setLink s n 26 26 0
  setLink s n 28 28 1

/-- Candidates in falling order of capacity, more lanes first between equals (R123). -/
def candidates (s : State) (n : Nat) : List (Nat × Nat) :=
  let cfg := s.pr (.dplink n) Reg.DPLINK_LINK_CFG
  let cap := s.pr (.dplink n) Reg.DPLINK_SINK_CAPS
  let top := min (fget cfg 2 0) (fget cap 2 0)
  let lan := min (fget cfg 5 4) (fget cap 5 4)
  let fec := dscActive s n
  let need := modePayload s n (outBpc s n)
  let all := (List.range (top + 1)).flatMap (fun r => (List.range (lan + 1)).map (fun l => (r, l)))
  let fit := all.filter (fun c => fracLe need (capacity c.1 c.2 fec, 1))
  sortBy (fun a b =>
    let ca := capacity a.1 a.2 fec
    let cb := capacity b.1 b.2 fec
    ca > cb || (ca == cb && a.2 ≥ b.2)) fit

/-- Training fails: idle pattern, TRAIN_FAIL, fault bit 2, NO_CANDIDATE where there was none (R124, R131). -/
def trainFail (s : State) (n : Nat) (noCandidate : Bool) : State :=
  let s := setLink (linkIdle s n) n 29 29 0
  let s := setLink s n 27 27 (b2n noCandidate)
  raiseFault (s.event (.dplink n) 4) (.dplink n) 2

/-- Training starts from the top of the candidate list (R123, R124). -/
def startTraining (s : State) (n : Nat) : State :=
  let cs := candidates s n
  let s := setLink (setLink (linkIdle s n) n 15 8 0) n 27 27 0
  match cs with
  | [] => trainFail s n true
  | _ =>
    let s := setLink s n 29 29 1
    s.setHead n { s.head n with candidates := cs }

/-- Whether training may start: DPLINK enabled and HPD high (R124). -/
def mayTrain (s : State) (n : Nat) : Bool :=
  s.enabled (.dplink n) && !loadIsShed s && fbit (s.pr (.dplink n) Reg.DPLINK_LINK_STATUS) 31

/-- The trained link is lost: LINK_LOSS and the idle pattern (R126, R127, R131). -/
def linkLoss (s : State) (n : Nat) : State := (linkIdle s n).event (.dplink n) 1

/-- HPD_PLUG (R126): HPD = 1, HPD_CHANGE, the sink's capabilities read; the EDID read follows, then
training (R130). -/
def execHpdPlug (n : Fin 12) (rate : Fin 7) (lanes : Fin 3) (dsc : Bool) (s : State) :
    Host.Outcome State Fault Refusal :=
  let s := setLink s n 31 31 1
  let s := s.event (.dplink n) 2
  let s := s.setPr (.dplink n) Reg.DPLINK_SINK_CAPS (w32 (b2n dsc * 256 + lanes.val * 16 + rate.val))
  .next (b4HpdChange s n)

/-- HPD_UNPLUG (R126). -/
def execHpdUnplug (n : Fin 12) (s : State) : Host.Outcome State Fault Refusal :=
  let was := fbit (s.pr (.dplink n) Reg.DPLINK_LINK_STATUS) 30
  let s := setLink s n 31 31 0
  let s := (s.event (.dplink n) 2).setHead n { s.head n with candidates := [] }
  let s := setLink s n 29 29 0
  let s := if was then linkLoss s n else linkIdle s n
  .next (b4HpdChange s n)

/-- IRQ_HPD (R127): a lost lane restarts training from the top of the list; any other cause only sets the
event. -/
def execIrqHpd (n : Fin 12) (lostLock : Bool) (s : State) : Host.Outcome State Fault Refusal :=
  if lostLock then
    let s := linkLoss s n
    .next (if mayTrain s n then startTraining s n else s)
  else .next (s.event (.dplink n) 3)

/-- LINK_TRAINING (R124): training starts while DPLINK is enabled and HPD is high. -/
def execLinkTraining (n : Fin 12) (s : State) : Host.Outcome State Fault Refusal :=
  .next (if mayTrain s n then startTraining s n else s)

/-- TRAINING_ATTEMPT_END (R123, R124): the first candidate that trains is kept; after the last failure the
link carries the idle pattern. Nothing happens while no attempt is in progress. -/
def execTrainingAttemptEnd (n : Fin 12) (ok : Bool) (s : State) : Host.Outcome State Fault Refusal :=
  match (s.head n).candidates with
  | [] => .next s
  | c :: rest =>
    let att := s.pf (.dplink n) Reg.DPLINK_LINK_STATUS 15 8
    let s := setLink s n 15 8 (satInc att 255)
    if ok then
      let s := s.setHead n { s.head n with candidates := [] }
      let s := setLink (setLink s n 6 4 c.1) n 1 0 c.2
      let s := setLink (setLink s n 29 29 0) n 28 28 (if (s.head n).running then 0 else 1)
      let s := setLink (setLink s n 30 30 1) n 26 26 (b2n (dscActive s n))
      .next (s.event (.dplink n) 0)
    else
      let s := s.setHead n { s.head n with candidates := rest }
      .next (match rest with
        | [] => trainFail s n false
        | _ => s)

/-- STREAM_UNDERFLOW (R131): fault bit 4, the idle pattern, LINK_LOSS, and training while HPD is high. -/
def execStreamUnderflow (n : Fin 12) (s : State) : Host.Outcome State Fault Refusal :=
  let s := raiseFault (linkLoss s n) (.dplink n) 4
  .next (if mayTrain s n then startTraining s n else s)

/-- PHY_FAULT (R131): fault bit 3. -/
def execPhyFault (n : Fin 12) (s : State) : Host.Outcome State Fault Refusal :=
  .next (raiseFault s (.dplink n) 3)

/-- EDID_READ_DONE (R130): blocks kept with their checksum flags; VALID = 0 when the requests failed. -/
def execEdidReadDone (n : Fin 12) (blocks : List (List (BitVec 8))) (s : State) :
    Host.Outcome State Fault Refusal :=
  let bs := blocks.take 16
  let p : Page := .dplink n
  let word (b : List (BitVec 8)) (i : Nat) : Word :=
    w32 (ofLeBytes ((List.range 4).map (fun j => (b.getD (4 * i + j) 0).toNat)))
  let s := (List.range bs.length).foldl (fun s m =>
    (List.range 32).foldl (fun s i =>
      s.setPr p (Reg.DPLINK_EDID_BUF + 128 * m + 4 * i) (word (bs.getD m []) i)) s) s
  let bad := maskOf 16 (fun m => m < bs.length &&
    ((bs.getD m []).take 128).foldl (fun acc b => (acc + b.toNat) % 256) 0 != 0)
  let trunc := match bs with
    | b :: _ => decide ((b.getD 126 0).toNat > 15)
    | [] => false
  let s := s.setPr p Reg.DPLINK_EDID_STATUS
    (w32 (0x10000 * bad + b2n trunc * 0x200 + b2n (!bs.isEmpty) * 0x100 + bs.length))
  .next (s.event p 6)

/-! AUX (R128, R129). -/

/-- A software AUX request ends: BUSY clears, RESULT and the counts are written, AUX_DONE is set. -/
def auxEnd (s : State) (n : Nat) (result rx : Nat) : State :=
  let h := s.head n
  let s := s.setPr (.dplink n) Reg.DPLINK_AUX_STATUS (w32 (0x10000 * rx + h.auxTries * 0x100 + result * 2))
  (s.setHead n { h with auxQueued := false, auxTries := 0 }).event (.dplink n) 5

/-- A new AUX request is refused while one is busy (R128). -/
def auxGoCheck (s : State) (n : Nat) : Option Cause :=
  if fbit (s.pr (.dplink n) Reg.DPLINK_AUX_STATUS) 0 then some .inuse else none

/-- The AUX request op: with HPD = 0 it ends at once with "no sink" (R128, R129). -/
def auxGoOp (s : State) (n : Nat) (cmd len : Nat) : State :=
  let p : Page := .dplink n
  let s := s.setPr p Reg.DPLINK_AUX_CTRL (w32 (cmd * 16 + len))
  let s := s.setHead n { s.head n with auxQueued := true, auxTries := 0 }
  let s := s.setPr p Reg.DPLINK_AUX_STATUS 1
  if fbit (s.pr p Reg.DPLINK_LINK_STATUS) 31 then s else auxEnd s n 5 0

/-- One more try, or the end with a result and fault bit 1 at the limit of 7 retries (R128). -/
def auxRetry (s : State) (n : Nat) (result : Nat) : State :=
  let h := s.head n
  if h.auxTries < 7 then
    let s := s.setHead n { h with auxTries := h.auxTries + 1 }
    s.setPf (.dplink n) Reg.DPLINK_AUX_STATUS 15 8 (h.auxTries + 1)
  else raiseFault (auxEnd s n result 0) (.dplink n) 1

/-- A timed-out transaction of the request in progress; nothing when none is. -/
def auxTimedOut (s : State) (n : Nat) : State :=
  if (s.head n).auxQueued then auxRetry s n 3 else s

/-- AUX_TIMEOUT (R128). -/
def execAuxTimeout (n : Fin 12) (s : State) : Host.Outcome State Fault Refusal :=
  .next (auxTimedOut s n)

/-- AUX_REPLY (R128, R129): ACK stores the bytes, NACK fails, DEFER retries, a malformed reply fails with
fault bit 0. A reply that an AUX_DROP injection discards counts as none (R520). -/
def execAuxReply (n : Fin 12) (reply : AuxReply) (s : State) : Host.Outcome State Fault Refusal :=
  let h := s.head n
  if !h.auxQueued then .next s
  else if h.auxDrop > 0 then
    .next (auxTimedOut (s.setHead n { h with auxDrop := h.auxDrop - 1 }) n)
  else match reply with
    | .ack data =>
      let want := s.pf (.dplink n) Reg.DPLINK_AUX_CTRL 3 0 + 1
      let d := data.take want
      let s := (List.range 4).foldl (fun s i =>
        if 4 * i < d.length then
          s.setPr (.dplink n) (Reg.DPLINK_AUX_DATA + 4 * i)
            (w32 (ofLeBytes ((List.range 4).map (fun j => (d.getD (4 * i + j) 0).toNat))))
        else s) s
      .next (auxEnd s n 0 d.length)
    | .nack => .next (auxEnd s n 1 0)
    | .defer => .next (auxRetry s n 2)
    | .malformed => .next (raiseFault (auxEnd s n 4 0) (.dplink n) 0)

end Sys2Proof.Machine
end

