-- ==== Sys2Proof/Machine/Access.lean ====
section
/-!
DEFINITION. Machine/Access.lean: the passing of FCLK cycles, the accesses a master may have in a cycle
(R41, R76), and the checks of the register fabric that come before an access takes effect (R42, R47, R49,
R30, R73 to R77, and the rules that stand in place of R73 on single pages).
-/
namespace Sys2Proof.Machine

/-! Time. -/

/-- n FCLK cycles pass, n ≥ 1: the record of the cycle empties, and the relay drive follows (R18, R435). -/
def passCycles (s : State) (n : Nat) : State :=
  relayUpdate { s with
    upTicks := if s.surv.step = .unpowered ∨ s.surv.step = .charging then s.upTicks else s.upTicks + n,
    fclk := if s.mode.mode = .held then s.fclk else s.fclk + n,
    cyc := {} }

/-- n FCLK cycles pass; none for n = 0. -/
def advance (s : State) (n : Nat) : State := if n = 0 then s else passCycles s n

/-- A master presents an access: a second access of its own, or one behind the order of R76, is taken in the
next FCLK cycle (R41, R76). -/
def beginAccess (s : State) (m : Master) : State :=
  let s := if s.cyc.taken.contains m.code || m.rank < s.cyc.rank then passCycles s 1 else s
  { s with cyc := { s.cyc with taken := s.cyc.taken ++ [m.code], rank := m.rank } }

/-- The write of a register took effect and stands for the cycle (R76). -/
def State.noteWrite (s : State) (a : Nat) : State :=
  { s with cyc := { s.cyc with stands := s.cyc.stands ++ [a] } }

/-! Writes that cross into a foreign clock domain (R16). -/

/-- The bits of a row's fields whose access type passes a test. -/
def accMask (r : RegRow) (t : Acc → Bool) : Nat :=
  r.fields.foldl (fun acc x => if t x.acc then acc ||| (2 ^ (x.hi + 1 - x.lo) - 1) * 2 ^ x.lo else acc) 0

/-- Bits of a row that a plain write by the master of a code replaces (R62). -/
def plainMask (r : RegRow) (code : Nat) : Nat :=
  accMask r (fun t => t == .rw || t == .rwl || t == .stg || t == .pf || (t == .sv && code == 0x41))

/-- The value a register had before the first write of the cycle is kept for the rules that look at it (R498). -/
def State.notePrev (s : State) (a : Nat) : State :=
  if s.cyc.actPrev.any (fun e => e.1 == a) then s
  else { s with cyc := { s.cyc with actPrev := ains a (s.reg a) s.cyc.actPrev } }

/-- AMP_EN of port p where its level does not depend on silence (R490). -/
def ampStatic (s : State) (p : Nat) : State :=
  let o := Reg.AUDIO_SIL_TIME + 8 * p
  if s.pf .audio Reg.AUDIO_TDM_CFG p p = 0 then s.setPf .audio o 31 31 0
  else if s.pf .audio (Reg.AUDIO_SIL_CFG + 8 * p) 31 31 = 0 then s.setPf .audio o 31 31 1
  else s

/-- What a written register changes elsewhere in its page, its value before the write being `old`: AMP_EN (R490),
EN of a stream whose owner changed (R477), the world bits of the cores that CORE_CFG names (R408), COUNT of
REVOKE_INFO (R381), a parity mark that a write of the entry removes (R494). -/
def landEffect (s : State) (p : Page) (o : Nat) (old : Word) : State :=
  match p with
  | .audio =>
    let s := { s with audio := { s.audio with badWords := s.audio.badWords.filter (fun x => x != pageBase .audio + o) } }
    if o = Reg.AUDIO_TDM_CFG ∨ (Reg.AUDIO_SIL_CFG ≤ o ∧ o < Reg.AUDIO_SIL_CFG + 32) then
      (List.range 4).foldl ampStatic s
    else if Reg.AUDIO_SRC_OWNER ≤ o ∧ o < Reg.AUDIO_SRC_OWNER + 768 ∧ o % 16 = 12 ∧ s.pr .audio o ≠ old then
      s.setPf .audio (o - 12) 0 0 0
    else s
  | .world =>
    if o = Reg.WORLD_CORE_CFG then s.setPf .world Reg.WORLD_CORE_WORLD 7 0 (s.pf .world Reg.WORLD_CORE_CFG 7 0) else s
  | .func k =>
    if o = Reg.FUNC_REVOKE_INFO ∧ s.pf (.func k) o 31 31 = 0 then s.setPf (.func k) o 7 0 0 else s
  | _ => s

/-- A plain write takes effect in its block: the read-write fields take its bits, and its ones clear W1C bits that
hardware has not set in the same cycle (R16, R52, R62). A block that is not READY any more takes nothing. -/
def landWrite (s : State) (c : Crossing) : State :=
  match pageAt c.addr with
  | none => s
  | some (p, o) =>
    match rowAt p o with
    | none => s
    | some r =>
      if !s.ready p then s
      else
        let s := s.notePrev c.addr
        let old := s.reg c.addr
        let rw := w32 (plainMask r c.master)
        let clr := w32 (accMask r (fun t => t == .w1c)) &&& c.val &&& ~~~ (w32 (aget 0 s.cyc.hwSet c.addr))
        landEffect (s.setReg c.addr (((old &&& ~~~ rw) ||| (c.val &&& rw)) &&& ~~~ clr)) p o old

/-- The waiting writes that pass a test take effect, in order. -/
def landWhere (s : State) (t : Crossing → Bool) : State :=
  (s.crossings.filter t).foldl landWrite { s with crossings := s.crossings.filter (fun c => !t c) }

/-- The waiting writes of one page take effect before a later access of the page does: one path keeps the order in
which the fabric accepted them (R15, R16). DEDUCED. -/
def flushPage (s : State) (p : Page) : State :=
  if s.crossings.isEmpty then s
  else landWhere s (fun c => match pageAt c.addr with
    | some (q, _) => q == p
    | none => true)

/-- Every write that waits takes effect: a function's doorbell and read follow its earlier writes (R373). -/
def flushAll (s : State) : State := if s.crossings.isEmpty then s else landWhere s (fun _ => true)

/-! Who is there. -/

/-- A function exists (R371, R381). -/
def funcExists (s : State) (k : Nat) : Bool := s.pf (.func k) Reg.FUNC_FUNC_STATUS 9 9 == 1

/-- A function is frozen (R394), or resetting (R391). -/
def funcFrozen (s : State) (k : Nat) : Bool := s.pf (.func k) Reg.FUNC_FUNC_STATUS 11 11 == 1
def funcResetting (s : State) (k : Nat) : Bool := s.pf (.func k) Reg.FUNC_FUNC_STATUS 10 10 == 1

/-- The port of a function. -/
def portOf (k : Nat) : Nat := k / 32

/-- Core c can execute: not held in reset and not fenced. -/
def coreRuns (s : State) (c : Nat) : Bool := !(s.core c).inReset && !coreFenced s c

/-- Whether a master can issue an access (R30, R371, R409, R509): nothing does in Held, a function must exist and
be in D0, and an access of Heartwood or Sapwood comes from a core of that world that runs. -/
def masterThere (s : State) (m : Master) : Bool :=
  s.mode.mode ≠ .held &&
    match m with
    | .heartwood => (List.range 8).any (fun c => coreRuns s c && worldBit s c)
    | .sapwood => (List.range 8).any (fun c => coreRuns s c && !worldBit s c)
    | .func k => funcExists s k.val && !(aget {} s.ports (portOf k.val)).d3hot.contains (k.val % 32)
    | _ => true

/-- The PF of a port, as an owner code; none for device-internal pages (R59, R72). -/
def pfOf (port : Nat) : Option Nat := if port = 0 then some 0 else if port = 1 then some 0x20 else none

/-! Permission. -/

/-- The owner of a page, or Surveyor and the PF of its PORT where it has none (R73). -/
def ownerPermits (s : State) (m : Master) (p : Page) : Bool :=
  let o := s.owner p
  if o = 0xFF then m.code == 0x41 || pfOf (s.port p) == some m.code else m.code == o

/-- OWNER, or CLAIMED where the page is claimed (R73). -/
def denied (s : State) (p : Page) : Cause := if s.claimed p then .claimed else .owner

/-- Kinds of header registers for R73. -/
inductive HdrClass where
  | owned | fault | owner | reject
deriving DecidableEq, Repr

/-- The kind of a header offset. -/
def hdrClass (p : Page) (o : Nat) : HdrClass :=
  match p with
  | .layer _ _ => if o = 0x10 then .owner else if o = 0x14 then .reject else .owned
  | _ =>
    if o = 0x24 ∨ o = 0x34 ∨ o = 0x38 ∨ o = 0x3C then .fault
    else if o = 0x40 then .owner else if o = 0x44 then .reject else .owned

/-- R73 on a header register. -/
def headerPermit (s : State) (m : Master) (p : Page) (o : Nat) : Option Cause :=
  let pf := pfOf (s.port p) == some m.code
  match hdrClass p o with
  | .owned => if ownerPermits s m p then none else some (denied s p)
  | .fault =>
    if m.code = 0x40 ∨ m.code = 0x41 then none
    else if pf && !s.claimed p then none else some (denied s p)
  | .owner =>
    if s.claimed p then some .claimed
    else if m.code = 0x41 ∨ pf then none else some .owner
  | .reject =>
    if m.code = s.owner p ∨ m.code = 0x41 ∨ pf then none else some (denied s p)

/-- Whether a master is the PF of a function's port. -/
def isPfOf (m : Master) (k : Nat) : Bool := m.code == 32 * portOf k

/-- Fields of a FUNC page that only the PF and Surveyor write (R380, R381). -/
def funcPfReg (o : Nat) : Bool :=
  o == Reg.FUNC_S2_ROOT_LO || o == Reg.FUNC_S2_ROOT_HI || o == Reg.FUNC_MIG_CTRL || o == Reg.FUNC_MIG_ADDR_LO ||
    o == Reg.FUNC_MIG_ADDR_HI || (Reg.FUNC_SLOT ≤ o && o < Reg.FUNC_SLOT + 56)

/-- Permission on a FUNC page (R380). DEDUCED: the fault registers keep R73, and the function itself may write
them as well. -/
def funcPermit (s : State) (m : Master) (k o : Nat) : Option Cause :=
  let self := m.code == k
  if Reg.FUNC_MSIX ≤ o ∧ o < Reg.FUNC_MSIX_PBA + 8 then (if self then none else some .owner)
  else if funcPfReg o then (if isPfOf m k || m.code == 0x41 then none else some .owner)
  else if o = Reg.FUNC_FUNC_CTRL then (if self || isPfOf m k then none else some .owner)
  else if o < 0x100 then (if self then none else headerPermit s m (.func k) o)
  else if self then none else some .owner

/-- The slot of the SURVEYOR_MB page at an offset, and the owner code of its master (R545). -/
def mbSlotAt (o : Nat) : Option Nat := if 0x200 ≤ o ∧ o < 0xE00 then some ((o - 0x200) / 0x300) else none
def mbMaster (k : Nat) : Nat := [0x00, 0x20, 0x40, 0x42].getD k 0xFF

/-- The tone generator at an AUDIO offset, the stream at an AUDIO offset (R475, R480). -/
def toneAt (o : Nat) : Option Nat :=
  if Reg.AUDIO_TONE_CTRL ≤ o ∧ o < Reg.AUDIO_TONE_CTRL + 0x100 then some ((o - Reg.AUDIO_TONE_CTRL) / 32) else none
def streamAt (o : Nat) : Option Nat :=
  if Reg.AUDIO_SRC_BASE_LO ≤ o ∧ o < Reg.AUDIO_SRC_BASE_LO + 0x300 then some ((o - Reg.AUDIO_SRC_BASE_LO) / 16) else none

/-- Tone generator i is claimed (R431, R480). -/
def toneClaimed (s : State) (i : Nat) : Bool := fbit (s.pr .audio (Reg.AUDIO_TONE_STATUS + 32 * i)) 31

/-- The LEGACY block owns generator 7 (R570). -/
def beepOwns (s : State) : Bool := legacyOn s && fbit (s.b4r 4) 3 && !toneClaimed s 7

/-- Writes that Legacy Profile refuses with MODE from every master, before R73: the unused layers of the B4
heads, coefficient set 15, and tone generator 7 while beeps own it (R552, R562, R570). -/
def legacyLock (s : State) (a : Nat) : Bool :=
  legacyOn s &&
    match tableAt a with
    | some (.coef, o) => o / 0x800 == 15
    | some _ => false
    | none =>
      match pageAt a with
      | some (.layer n l, _) => n < 4 && l != 0 && l != 4 && l != 15
      | some (.scaler, o) => o == Reg.SCALER_SET_OWNER + 60
      | some (.audio, o) => toneAt o == some 7 && beepOwns s
      | _ => false

/-- Writes that Legacy Profile refuses with MODE from the masters that R73 permits: KEY_THRESH and KEY_CFG of
keys 0 to 63 (R568). -/
def legacyKeyLock (s : State) (p : Page) (o : Nat) : Bool :=
  legacyOn s && p == .keys &&
    ((Reg.KEYS_KEY_THRESH ≤ o && o < Reg.KEYS_KEY_THRESH + 256) || (Reg.KEYS_KEY_CFG ≤ o && o < Reg.KEYS_KEY_CFG + 256))

/-- Owner of key event queue q, and of audio stream k (R455, R475). -/
def queueOwner (s : State) (q : Nat) : Nat := s.pf .keys (Reg.KEYS_EQ_BASE_HI + 16 * q) 23 16
def streamOwner (s : State) (k : Nat) : Nat := s.pf .audio (Reg.AUDIO_SRC_OWNER + 16 * k) 7 0

/-- The key event queue whose HEAD or TAIL stands at a KEYS offset (R456). -/
def queuePtrAt (o : Nat) : Option Nat :=
  if Reg.KEYS_EQ_BASE_LO ≤ o ∧ o < Reg.KEYS_EQ_BASE_LO + 0x100 ∧ 8 ≤ o % 16 then some ((o - Reg.KEYS_EQ_BASE_LO) / 16)
  else none

/-- WORLD registers that Surveyor writes in Survey (R439): CORE_CFG, HW_WATERMARK and the two vectors. -/
def worldBySurveyor (o : Nat) : Bool :=
  [Reg.WORLD_CORE_CFG, Reg.WORLD_HW_WATERMARK, Reg.WORLD_WCALL_VECTOR_LO, Reg.WORLD_WCALL_VECTOR_HI,
    Reg.WORLD_RESET_VECTOR_LO, Reg.WORLD_RESET_VECTOR_HI].contains o

/-- R73 on any register of a page, with the rules that stand in its place (R380, R404, R456, R475, R480, R505,
R506, R519, R545). -/
def permit (s : State) (m : Master) (p : Page) (o : Nat) : Option Cause :=
  let only (b : Bool) : Option Cause := if b then none else some .owner
  match p with
  | .func k => funcPermit s m k o
  | .world =>
    if m.code = 0x40 ∨ (m.code = 0x41 ∧ s.mode.mode = .survey ∧ worldBySurveyor o) then none else some (denied s p)
  | .layer _ 15 => if m.code = 0x40 then none else some (denied s p)
  | .xlate =>
    if 0x100 ≤ o ∧ o < 0x140 then only (isPfOf m (32 * ((o - 0x100) / 0x20)) || m.code == 0x40 || m.code == 0x41)
    else if o < 0x100 then headerPermit s m p o
    else if ownerPermits s m p then none else some (denied s p)
  | .dev =>
    if o = Reg.DEV_SAFE_REQUEST then only (m.code == 0x40 || m.code == 0x41 || m.code == 0 || m.code == 0x20)
    else if Reg.DEV_SAFE_BG0 ≤ o ∧ o ≤ Reg.DEV_SAFE_BORDER1 then only (m.code == 0x40 || m.code == 0x41)
    else if o = Reg.DEV_INJECT then only (m.code == 0x41)
    else if o < 0x100 then headerPermit s m p o
    else if ownerPermits s m p then none else some (denied s p)
  | .surveyorMb =>
    match mbSlotAt o with
    | some k => only (m.code == mbMaster k)
    | none =>
      if o = hdrOff .irqStatus ∨ o = hdrOff .irqEnable then only ([0x00, 0x20, 0x40, 0x42].contains m.code)
      else if o < 0x100 then headerPermit s m p o
      else if ownerPermits s m p then none else some (denied s p)
  | .keys =>
    match queuePtrAt o with
    | some q => only (m.code == queueOwner s q)
    | none =>
      if o < 0x100 then headerPermit s m p o
      else if ownerPermits s m p then none else some (denied s p)
  | .audio =>
    match toneAt o, streamAt o with
    | some i, _ =>
      if toneClaimed s i then (if m.code = 0x40 then none else some .claimed)
      else if ownerPermits s m p then none else some (denied s p)
    | none, some k =>
      if o % 16 = 12 then (if ownerPermits s m p then none else some (denied s p))
      else only (m.code == streamOwner s k)
    | none, none =>
      if o < 0x100 then headerPermit s m p o
      else if ownerPermits s m p then none else some (denied s p)
  | .legend =>
    if o = Reg.LEGEND_UPD_LO ∨ o = Reg.LEGEND_UPD_HI then none
    else if o < 0x100 then headerPermit s m p o
    else if ownerPermits s m p then none else some (denied s p)
  | _ =>
    if o < pageBody p then headerPermit s m p o
    else if ownerPermits s m p then none else some (denied s p)

/-- The writes that Safe still takes: Heartwood's to WORLD, L15, tone generator 0, its own key queues' HEAD and
TAIL, and its SURVEYOR_MB slot with its bits of that page's interrupt registers (R30). -/
def safeTakes (s : State) (m : Master) (p : Page) (o : Nat) : Bool :=
  m.code == 0x40 &&
    match p with
    | .world => true
    | .layer _ 15 => true
    | .audio => toneAt o == some 0
    | .keys => match queuePtrAt o with | some q => queueOwner s q == 0x40 | none => false
    | .surveyorMb => mbSlotAt o == some 2 || o == hdrOff .irqStatus || o == hdrOff .irqEnable
    | _ => false

/-- A soft reset of the page runs (R46, R49). -/
def softResetting (s : State) (p : Page) : Bool := s.busy p && fget (s.hd p .ready) 15 8 == 7

/-- The master is a function that is frozen, and the page is not its own (R394). -/
def frozenOut (s : State) (m : Master) (p : Page) : Bool :=
  match m with
  | .func f => funcFrozen s f.val && p != .func f.val
  | _ => false

/-- The page is that of a function under reset, and the offset lies behind its header (R391). -/
def resetLocks (s : State) (p : Page) (o : Nat) : Bool :=
  match p with
  | .func k => funcResetting s k && 0x100 ≤ o
  | _ => false

/-- The master is a function. -/
def isFunc : Master → Bool
  | .func _ => true
  | _ => false

/-- SCHED becomes READY by the Sapwood runtime's own write of CTRL, which therefore passes before READY is set, with
the image loaded and MEMCTL READY (R530). DEDUCED. -/
def schedOpening (s : State) (m : Master) (p : Page) (o : Nat) : Bool :=
  p == .sched && o == hdrOff .ctrl && m.code == 0x42 && s.surv.sapLoaded && s.ready .memctl

/-- Why the register fabric refuses a write before the register's own rules: the page that records it, the cause,
and whether it is recorded in DEV under the offset as presented (R42, R47, R49, R30, R73 to R77, R81). -/
def refusalOf (s : State) (m : Master) (a : Nat) : Option (Page × Cause × Bool) :=
  match tableAt a with
  | some (k, _) =>
    let p := tableCtl k
    if !s.ready p || s.fenced p then some (.dev, .mode, true)
    else if s.mode.mode = .safe then some (p, .mode, false)
    else if frozenOut s m p || legacyLock s a then some (p, .mode, false)
    else if s.cyc.stands.contains a then some (p, .owner, false)
    else none
  | none =>
    match pageAt a with
    | none => some (.dev, .range, true)
    | some (p, o) =>
      if p = .world ∧ isFunc m then some (.dev, .claimed, true)
      else if s.fenced p ∧ ¬ (o = hdrOff .faultStatus ∧ pageBody p = 0x100) then some (.dev, .mode, true)
      else if !s.ready p && !s.fenced p && !schedOpening s m p o then some (.dev, .mode, true)
      else if s.mode.mode = .safe ∧ ¬ safeTakes s m p o then some (p, .mode, false)
      else if frozenOut s m p || legacyLock s a then some (p, .mode, false)
      else match permit s m p o with
        | some c =>
          if s.cyc.revoked.contains (pageBase p, m.code) then some (p, .revoked, false) else some (p, c, false)
        | none =>
          if s.cyc.stands.contains a then some (p, .owner, false)
          else if legacyKeyLock s p o then some (p, .mode, false)
          else if softResetting s p && pageBody p ≤ o then some (p, .inuse, false)
          else if resetLocks s p o then some (p, .inuse, false)
          else none

/-- Record a refusal of `refusalOf` (R60, R61). -/
def recordRefusal (s : State) (m : Master) (a shown : Nat) (r : Page × Cause × Bool) : State :=
  s.refuse m r.1 r.2.1 (if r.2.2 then shown else a) (if r.2.2 then shown else a)

/-- The page that records the refusals of an address: its own, or the controlling page of a table region. -/
def recordPage (a : Nat) : Page :=
  match tableAt a with
  | some (k, _) => tableCtl k
  | none => match pageAt a with
    | some (p, _) => p
    | none => .dev

/-- A write of a register whose own rule is `op`: taken in its cycle, checked, and refused or handed to `op`, after
the page's earlier writes. -/
def gated (s : State) (m : Master) (a : Nat) (op : State → State) : State :=
  if !masterThere s m then s
  else
    let s := beginAccess s m
    match refusalOf s m a with
    | some r => recordRefusal s m a a r
    | none => op (flushPage s (recordPage a))

/-- A write of the register at `a`: the checks of the fabric, then the register's own check, then its effect,
which stands for the cycle (R62, R76). -/
def writeReg (s : State) (m : Master) (a : Nat) (check : State → Option Cause) (op : State → State) : State :=
  gated s m a (fun s =>
    match check s with
    | some c => s.refuse m (recordPage a) c a a
    | none => (op s).noteWrite a)

/-- ENABLE = 1 while a disable drains or a soft reset runs is refused (R48). -/
def enableCheck (s : State) (p : Page) : Option Cause := if s.busy p then some .inuse else none

end Sys2Proof.Machine
end

