-- ==== Sys2Proof/Machine/Cvu.lean ====
section
/-!
DEFINITION. Machine/Cvu.lean: the check-value units (R513 to R518): enabling, the records they accumulate
from head lines, layer lines, sink samples and writes, and the latching of results.
-/
namespace Sys2Proof.Machine

/-- One CVU's state. -/
def State.cvu (s : State) (u : Nat) : CvuSt := aget {} s.cvus u

/-- Replace one CVU's state. -/
def State.setCvu (s : State) (u : Nat) (c : CvuSt) : State := { s with cvus := aset {} s.cvus u c }

/-- Fields of CVU_CFG (R514). -/
def cvuSource (s : State) (u : Nat) : Nat := s.pf (.cvu u) Reg.CVU_CVU_CFG 2 0
def cvuWindow (s : State) (u : Nat) : Nat := s.pf (.cvu u) Reg.CVU_CVU_CFG 6 4
def cvuHead (s : State) (u : Nat) : Nat := s.pf (.cvu u) Reg.CVU_CVU_CFG 11 8
def cvuLayer (s : State) (u : Nat) : Nat := s.pf (.cvu u) Reg.CVU_CVU_CFG 15 12
def cvuSinkNo (s : State) (u : Nat) : Nat := s.pf (.cvu u) Reg.CVU_CVU_CFG 21 16
def cvuAgent (s : State) (u : Nat) : Nat := s.pf (.cvu u) Reg.CVU_CVU_CFG 31 24

/-- The rectangle: x, y, width, height (R514). -/
def cvuRect (s : State) (u : Nat) : Nat × Nat × Nat × Nat :=
  (s.pf (.cvu u) Reg.CVU_CVU_RECT_POS 13 0, s.pf (.cvu u) Reg.CVU_CVU_RECT_POS 29 16,
   s.pf (.cvu u) Reg.CVU_CVU_RECT_SIZE 13 0, s.pf (.cvu u) Reg.CVU_CVU_RECT_SIZE 29 16)

/-- The unit accumulates: enabled and not fenced (R500, R515). -/
def cvuOn (s : State) (u : Nat) : Bool := s.enabled (.cvu u) && !s.fenced (.cvu u)

/-- CVUs that accumulate from a source. -/
def cvusOf (s : State) (src : Nat) : List Nat :=
  keysWhere 16 (fun u => cvuOn s u && cvuSource s u == src)

/-- Latch a result: RESULT and its companions, the comparison with CVU_EXPECT as it stood before a write of the
cycle, events and the fault (R515, R518). -/
def cvuLatch (s : State) (u seq : Nat) (skipped : Bool) : State :=
  let p : Page := .cvu u
  let c := s.cvu u
  let res := if cvuSource s u = 5 then c.crc else c.crc ^^^ 0xFFFFFFFF
  let ea := pageBase p + Reg.CVU_CVU_EXPECT
  let bad := s.pf p Reg.CVU_CVU_CMP 0 0 == 1 && w32 res != aget (s.reg ea) s.cyc.actPrev ea
  let st := 2 ^ 31 + 2 ^ 30 * b2n c.partialSeen + 2 ^ 29 * b2n skipped + 2 ^ 28 * b2n bad
    + 2 ^ 24 * min c.unread 15 + c.words % 2 ^ 24
  let s := (s.setPr p Reg.CVU_RESULT (w32 res)).setPr p Reg.CVU_RESULT_SEQ (w32 seq)
  let s := (s.setPr p Reg.CVU_RESULT_STATUS (w32 st)).setPair p Reg.CVU_RESULT_TIME_LO s.devtime
  let s := s.event p 0
  let s := if 0 < c.unread then s.event p 1 else s
  let s := s.setCvu u { running := c.running, windows := c.windows + 1, unread := c.unread + 1,
                        crc := if cvuSource s u = 5 then 0 else 0xFFFFFFFF }
  if bad then raiseFault s p 0 else s

/-- Words enter the CRC (R513, R515). -/
def cvuPack (s : State) (u : Nat) (ws : List Nat) (part : Bool) : State :=
  let c := s.cvu u
  s.setCvu u { c with crc := ws.foldl crcWord c.crc, words := c.words + ws.length,
                      partialSeen := c.partialSeen || part }

/-- The words of one pixel at the snoop point (R515). -/
def cvuHeadWords (bpc : Nat) (p : Rgb) : List Nat :=
  if bpc = 12 then [65536 * p.g + p.r, p.b]
  else
    let k := 10 - bpc
    [p.r <<< k <<< 20 ||| p.g <<< k <<< 10 ||| p.b <<< k]

/-- A line of head n passes the snoop point (HEAD_RECT): packed where it lies in the rectangle, latched with the
last line of the rectangle. A pixel outside the line packs as 0 and marks PARTIAL. -/
def cvuHeadLine (s : State) (n line : Nat) (px : List Rgb) : State :=
  let bpc := bpcOf (outBpc s n)
  (cvusOf s 1).foldl (fun s u =>
    let (x, y, w, h) := cvuRect s u
    if cvuHead s u = n ∧ (s.cvu u).running ∧ y ≤ line ∧ line < y + h then
      let ws := (List.range w).flatMap (fun i => cvuHeadWords bpc (px.getD (x + i) {}))
      let s := cvuPack s u ws (decide (px.length < x + w))
      if line + 1 = y + h then cvuLatch s u (s.pr (.timing n) Reg.TIMING_FRAME_COUNT).toNat false else s
    else s) s

/-- Line 0 of a frame of head n is seen: frame accumulations start, and a per-frame WRITES result is latched
(R515). -/
def cvuFrameStart (s : State) (n : Nat) : State :=
  let s := (cvusOf s 5).foldl (fun s u =>
    if cvuWindow s u = 0 ∧ cvuHead s u = n then
      cvuLatch s u ((s.pr (.timing n) Reg.TIMING_FRAME_COUNT).toNat - 1) false
    else s) s
  (cvusOf s 1 ++ cvusOf s 2 ++ cvusOf s 3).foldl (fun s u =>
    if cvuHead s u = n then
      let c := s.cvu u
      s.setCvu u { c with running := true, crc := 0xFFFFFFFF, words := 0, partialSeen := false, active := false,
                          covered := false }
    else s) s

/-- A sample of a sink channel (AUDIO_SINK, R515). -/
def cvuSample (s : State) (sink : Nat) (y : Int) : State :=
  (cvusOf s 4).foldl (fun s u =>
    if cvuSinkNo s u = sink then
      let s := cvuPack s u [toField y 32] false
      let c := s.cvu u
      let s := s.setCvu u { c with running := true, samples := c.samples + 1 }
      if c.samples + 1 = s.pf (.cvu u) Reg.CVU_CVU_COUNT 15 0 then cvuLatch s u (c.windows + 1) false else s
    else s) s

/-- The record of one line write: address, byte mask, data with masked bytes as 0 (R517). -/
def cvuRecord (line : Nat) (bytes : List (Option Nat)) : List Nat :=
  let mask := maskOf 64 (fun i => (bytes.getD i none).isSome)
  let data := bytes.map (fun b => b.getD 0)
  leBytes 4 (line % 2 ^ 32) ++ leBytes 4 (line / 2 ^ 32) ++ leBytes 8 mask ++ data

/-- A channel controller accepts a write of an agent to a line (WRITES, R517). -/
def cvuWrite (s : State) (agent line : Nat) (bytes : List (Option Nat)) : State :=
  (cvusOf s 5).foldl (fun s u =>
    if cvuAgent s u = agent ∧ s.pair (.cvu u) Reg.CVU_CVU_BASE_LO ≤ line ∧
        line < s.pair (.cvu u) Reg.CVU_CVU_LIMIT_LO then
      let c := s.cvu u
      s.setCvu u { c with running := true, crc := (c.crc + crc32c (cvuRecord line bytes)) % 2 ^ 32,
                          words := c.words + 20 }
    else s) s

/-- Conditions on setting ENABLE (R514). -/
def cvuEnableOk (s : State) (u : Nat) : Bool :=
  let src := cvuSource s u
  let win := cvuWindow s u
  let suits := if src = 4 then win == 1 else if src = 5 then win == 0 || win == 2 else win == 0
  let (x, y, w, h) := cvuRect s u
  let t := rasterInForce s (cvuHead s u)
  src ≤ 5 && win ≤ 2 && (src == 0 || suits) &&
  (!(src == 1 || src == 2 || src == 3) ||
    (cvuHead s u < 12 && 1 ≤ w && 1 ≤ h && x + w ≤ t.hActive && y + h ≤ t.vActive)) &&
  (src != 5 || s.pair (.cvu u) Reg.CVU_CVU_BASE_LO < s.pair (.cvu u) Reg.CVU_CVU_LIMIT_LO)

/-- The effect of setting CVU.CTRL.ENABLE (R514, R515); nothing where it is set. -/
def cvuEnableOp (s : State) (u : Nat) : State :=
  let p : Page := .cvu u
  if s.enabled p then s
  else
    let s := (s.setHf p .ctrl 0 0 1).setPr p Reg.CVU_RESULT_STATUS 0
    s.setCvu u { running := cvuSource s u == 5, crc := if cvuSource s u = 5 then 0 else 0xFFFFFFFF }

/-- Why setting CVU.CTRL.ENABLE is refused (R48, R514). -/
def cvuEnableCheck (s : State) (u : Nat) : Option Cause :=
  match enableCheck s (.cvu u) with
  | some c => some c
  | none => if s.enabled (.cvu u) || cvuEnableOk s u then none else some .range

/-- CVU_ENABLE (R515). -/
def execCvuEnable (m : Master) (u : Fin 16) (s : State) : Host.Outcome State Fault Refusal :=
  .next (writeReg s m (hadr (.cvu u) .ctrl) (fun s => cvuEnableCheck s u) (fun s => cvuEnableOp s u))

/-- The op of CVU_CLOSE: an accumulation until CLOSE is latched and starts again (R514, R515). -/
def cvuCloseOp (s : State) (u : Nat) (value : Word) : State :=
  if fbit value 0 ∧ cvuOn s u ∧ cvuWindow s u = 2 then cvuLatch s u ((s.cvu u).windows + 1) false else s

/-- CVU_CLOSE (R514). -/
def execCvuClose (m : Master) (u : Fin 16) (value : Word) (s : State) : Host.Outcome State Fault Refusal :=
  let a := pageBase (.cvu u) + Reg.CVU_CVU_CLOSE
  .next (writeReg s m a (fun _ => none) (fun s => cvuCloseOp s u value))

end Sys2Proof.Machine
end

