-- ==== Sys2Proof/Machine/Memory.lean ====
section
/-!
DEFINITION. Machine/Memory.lean: device memory (R330 to R368): the address map, byte parity, the page code and
its decoder, the recode queue, mirrors, the watermark (R412 to R415), untouched pages (R529), and the read and
write of a line by an agent of the fabric.
-/
namespace Sys2Proof.Machine

/-! Bytes. -/

/-- The byte at a device physical address. -/
def memByte (s : State) (a : Nat) : Nat := (aget (0 : BitVec 8) s.mem.cells a).toNat

/-- Store a byte. -/
def memSet (s : State) (a v : Nat) : State :=
  { s with mem := { s.mem with cells := aset 0 s.mem.cells a (BitVec.ofNat 8 v) } }

/-- The canonical form of memory: addresses strictly rising, no entry 0. -/
def Memory.wf (m : List Host.Cell) : Bool := awf (fun _ => (0 : BitVec 8)) m

/-- Bytes from an address on. -/
def memBytes (s : State) (a len : Nat) : List Nat := (List.range len).map (fun i => memByte s (a + i))

/-- The stored parity bit of a byte does not match it (R334). -/
def isBad (s : State) (a : Nat) : Bool := s.mem.bad.contains a

/-- Mark or clear a parity mismatch. -/
def setBad (s : State) (a : Nat) (b : Bool) : State :=
  let l := s.mem.bad.filter (fun x => x != a)
  { s with mem := { s.mem with bad := if b then l ++ [a] else l } }

/-- Store bytes, each with its parity; bytes that are none stay (R335). -/
def memPut (s : State) (a : Nat) (bytes : List (Option Nat)) : State :=
  (List.range bytes.length).foldl (fun s i =>
    match bytes.getD i none with
    | some v => setBad (memSet s (a + i) v) (a + i) false
    | none => s) s

/-! The address map (R331, R332). -/

/-- Channels in service, rising (R331). -/
def channelsIn (s : State) : List Nat := keysWhere 32 (fun c => fbit (s.pr .memctl Reg.MEMCTL_CHAN_MAP) c)

/-- Check stripes of N channels (R331). -/
def stripesOf (n : Nat) : Nat := 524288 * n / 37

/-- Stripes of the map in force. -/
def stripes (s : State) : Nat := s.pf .memctl Reg.MEMCTL_USABLE_PAGES 23 0 / 32

/-- First address beyond usable memory (R332). -/
def memTop (s : State) : Nat := 4096 * s.pf .memctl Reg.MEMCTL_USABLE_PAGES 23 0

/-- Raw page of the data of a page (R332). -/
def rawPage (page : Nat) : Nat := 37 * (page / 32) + page % 32

/-- The channel that holds a raw page (R332). -/
def chanOfRaw (s : State) (raw : Nat) : Nat :=
  let l := channelsIn s
  l.getD (raw % max l.length 1) 0

/-- The channel of an address. -/
def chanOf (s : State) (a : Nat) : Nat := chanOfRaw s (rawPage (a / 4096))

/-- The first normal address (R412). -/
def watermarkAddr (s : State) : Nat := 2097152 * s.pf .world Reg.WORLD_HW_WATERMARK 12 0

/-- Secure SRAM as fabric agents see it (R415). -/
def isSecureSram (a : Nat) : Bool := 0x1010000000 ≤ a && a < 0x1010100000

/-- First address above the memory-initialisation watermark (R529, R531). -/
def initWm (s : State) : Nat := s.pair .dev Reg.DEV_MEM_INIT_WM_LO

/-- A page above the watermark that nothing has written (R529). -/
def untouched (s : State) (page : Nat) : Bool := initWm s ≤ 4096 * page && !s.mem.touched.contains page

/-! GF(2⁸) and the page code (R336, R337). -/

/-- Product in GF(2⁸) with polynomial 0x11D. -/
def gfMulN : Nat → Nat → Nat → Nat
  | 0, _, _ => 0
  | k + 1, a, b =>
    let r := gfMulN k (if 128 ≤ a then ((a * 2) ^^^ 0x11D) else a * 2) (b / 2)
    if b % 2 = 1 then a ^^^ r else r

/-- Product of two field elements. -/
def gfMul (a b : Nat) : Nat := gfMulN 8 a b

/-- Power of a field element. -/
def gfPow (a : Nat) : Nat → Nat
  | 0 => 1
  | k + 1 => gfMul a (gfPow a k)

/-- Inverse of a non-zero field element. -/
def gfInv (a : Nat) : Nat := gfPow a 254

/-- One data byte into the division by g(x) = x⁴ + 0F x³ + 36 x² + 78 x + 40. -/
def rsStep (r : List Nat) (d : Nat) : List Nat :=
  let fb := d ^^^ r.getD 0 0
  [r.getD 1 0 ^^^ gfMul fb 0x0F, r.getD 2 0 ^^^ gfMul fb 0x36, r.getD 3 0 ^^^ gfMul fb 0x78, gfMul fb 0x40]

/-- The four check bytes of a codeword's 128 data bytes (R336). -/
def rsEncode (d : List Nat) : List Nat := d.foldl rsStep [0, 0, 0, 0]

/-- Data bytes of codeword w of a page. -/
def codeData (s : State) (page w : Nat) : List Nat :=
  (List.range 128).map (fun k => memByte s (4096 * page + w + 32 * k))

/-- The check bytes that agree with a page as stored. -/
def pageCode (s : State) (page : Nat) : List Nat := (List.range 32).flatMap (fun w => rsEncode (codeData s page w))

/-- The check bytes of a page as stored. -/
def storedCode (s : State) (page : Nat) : List Nat := aget (List.replicate 128 0) s.mem.code page

/-- Write a page's check bytes. -/
def putCode (s : State) (page : Nat) (c : List Nat) : State :=
  { s with mem := { s.mem with code := aset (List.replicate 128 0) s.mem.code page c } }

/-- The code is current: no entry of the recode queue, not held (R338, R341). -/
def codeCurrent (s : State) (page : Nat) : Bool :=
  !(s.mem.recq.any (fun e => e.page == page)) && !s.mem.held.contains page

/-- Syndrome j of 132 symbols, highest power first. -/
def syndrome (c : List Nat) (j : Nat) : Nat := c.foldl (fun acc v => gfMul acc (gfPow 2 j) ^^^ v) 0

/-- Values at the locators that give the syndromes, if the system has a solution. -/
def gfSolve : List Nat → List Nat → Option (List Nat)
  | [], ss => if ss.all (· == 0) then some [] else none
  | x :: xs, ss =>
    let ss' := List.zipWith (fun a b => gfMul x a ^^^ b) ss (ss.drop 1)
    match gfSolve xs ss' with
    | none => none
    | some ys =>
      let zs := List.zipWith (fun y z => gfMul y (gfInv (x ^^^ z))) ys xs
      some ((zs.foldl (· ^^^ ·) (ss.headD 0)) :: zs)

/-- Sets of t symbol positions among those not erased. -/
def choices : Nat → List Nat → List (List Nat)
  | 0, _ => [[]]
  | _ + 1, [] => []
  | t + 1, x :: xs => (choices t xs).map (fun c => x :: c) ++ choices (t + 1) xs

/-- Decode of 132 symbols with erased positions: the errors found, as positions and values (R337). -/
def rsDecode (c : List Nat) (era : List Nat) : Option (List (Nat × Nat)) :=
  let ss := (List.range 4).map (syndrome c)
  if 4 < era.length then none
  else
    let free := (List.range 132).filter (fun k => !era.contains k)
    let tries := (List.range ((4 - era.length) / 2 + 1)).flatMap (fun t => choices t free)
    tries.findSome? (fun extra =>
      let pos := era ++ extra
      (gfSolve (pos.map (fun k => gfPow 2 (131 - k))) ss).map (fun ys => pos.zip ys))

/-- Parity of a byte. -/
def parity (v : Nat) : Bool := (List.range 8).foldl (fun acc k => acc != bit v k) false

/-- The stored parity bit of a byte (R334). -/
def storedParity (s : State) (a : Nat) : Bool := parity (memByte s a) != isBad s a

/-- Decode codeword w of a page: the corrected bytes by address, or failure (R337). -/
def decodeWord (s : State) (page w : Nat) : Option (List (Nat × Nat)) :=
  let adr (k : Nat) : Nat := 4096 * page + w + 32 * k
  let era := keysWhere 128 (fun k => isBad s (adr k))
  let c := codeData s page w ++ ((storedCode s page).drop (4 * w)).take 4
  match rsDecode c era with
  | none => none
  | some es =>
    let fixes := (es.filter (fun e => e.1 < 128)).map (fun e => (adr e.1, memByte s (adr e.1) ^^^ e.2))
    if fixes.all (fun f => parity f.2 == storedParity s f.1) then some fixes else none

/-- Decode several codewords of a page; none where one fails. -/
def decodeWords (s : State) (page : Nat) : List Nat → Option (List (Nat × Nat))
  | [] => some []
  | w :: r =>
    match decodeWord s page w, decodeWords s page r with
    | some a, some b => some (a ++ b)
    | _, _ => none

/-- Write corrected bytes back with their parity. -/
def applyFixes (s : State) (fx : List (Nat × Nat)) : State :=
  fx.foldl (fun s f => setBad (memSet s f.1 f.2) f.1 false) s

/-! Errors (R348, R413). -/

/-- Why an access got no data. -/
inductive AccErr where
  /-- A translation fault at an input address (R402). -/
  | translation (a : Nat)
  /-- Blocked by the watermark (R413). -/
  | watermark (a : Nat)
  /-- An error response (R347). -/
  | uncorrectable (a : Nat)
deriving DecidableEq, Repr

/-- The address an access error names. -/
def AccErr.addr : AccErr → Nat
  | .translation a | .watermark a | .uncorrectable a => a

/-- Traffic class of an access: 0 real-time, 1 secure, 2 normal, 3 background (R7). -/
def classOf (agent : Nat) (sec write : Bool) : Nat :=
  if agent ≤ 0x0C ∨ agent = 0x0E then 0
  else if agent = 0x0D then (if write then 3 else 0)
  else if 0x1A ≤ agent then 3
  else if agent = 0x17 ∨ agent = 0x18 then 2
  else if sec then 1 else 2

/-- ERR_INFO and ERR_ADDR take an error (R364). -/
def errInfo (s : State) (agent : Nat) (sec write : Bool) (type chan a : Nat) : State :=
  let s := s.setPr .memctl Reg.MEMCTL_ERR_INFO
    (w32 (2 ^ 31 + 2 ^ 24 * type + 2 ^ 20 * classOf agent sec write + chan * 2 ^ 8 + agent))
  s.setPair .memctl Reg.MEMCTL_ERR_ADDR_LO a

/-- An error response (R348): counters, record, events, faults and the limited log entry. -/
def memError (s : State) (agent : Nat) (sec write : Bool) (type a : Nat) : State :=
  let chan := if type = 6 then 0 else chanOf s a
  let s := errInfo (s.count .memctl Reg.MEMCTL_UE_TOTAL) agent sec write type chan a
  let s := if type = 6 then s
    else raiseFault (s.count (.memch chan) Reg.MEMCH_UE_COUNT) (.memch chan) 1
  let s := raiseFault (s.event .memctl 0) .memctl 0
  s.logLimited (if type = 6 then 2000 else 2100 + chan) 1000000 .memory (pageBase .memctl) type a

/-- A correction on the channel of an address (R344, R348). -/
def memCorrected (s : State) (a : Nat) : State :=
  let chan := chanOf s a
  let s := (s.count (.memch chan) Reg.MEMCH_CE_COUNT).count .memctl Reg.MEMCTL_CE_TOTAL
  raiseFault (raiseFault s (.memch chan) 0) .memctl 1

/-- An access that the watermark blocks (R413). -/
def watermarkBlock (s : State) (agent : Nat) (write : Bool) (a : Nat) : State :=
  let s := s.setPr .world Reg.WORLD_WM_BLOCK_INFO (w32 (2 ^ 31 + b2n write * 256 + agent))
  let s := s.setPair .world Reg.WORLD_WM_BLOCK_ADDR_LO a
  let s := raiseFault (s.event .world 3) .world 0
  s.logLimited (1000 + agent) 1000000 .memory (pageBase .world) (b2n write * 256 + agent) a

/-- Agents exempt from the watermark check: recoder, scrubber, initialiser and their like (R410). -/
def wmExempt (agent : Nat) : Bool := 0x1A ≤ agent

/-- A field of CH_STATUS of a channel (R366). -/
def chStatus (s : State) (c hi lo : Nat) : Nat := s.pf (.memch c) Reg.MEMCH_CH_STATUS hi lo

/-- A channel leaves self-refresh (R363, R367). -/
def leaveSelfRefresh (s : State) (c : Nat) : State :=
  if chStatus s c 2 2 = 0 then s else (s.setPf (.memch c) Reg.MEMCH_CH_STATUS 2 2 0).event (.memch c) 0

/-- A request reaches the channel of a line: its idle time starts again, and a channel in self-refresh leaves it
(R362, R363). -/
def channelRequest (s : State) (a : Nat) : State :=
  let c := chanOf s a
  leaveSelfRefresh { s with mem := { s.mem with lastReq := aset 0 s.mem.lastReq c s.devtime } } c

/-! Mirrors (R349 to R353). -/

/-- Window k: base address and end, while VALID (R349). -/
def mirWindow (s : State) (k : Nat) : Option (Nat × Nat) :=
  let hi := s.pr .memctl (Reg.MEMCTL_MIR_HI + 8 * k)
  let base := s.pf .memctl (Reg.MEMCTL_MIR_LO + 8 * k) 13 0
  if fbit hi 31 then some (4194304 * base, 4194304 * (base + fget hi 13 0)) else none

/-- Base of the point table (R195). -/
def ptTableBase (s : State) : Nat := s.pair .legend Reg.LEGEND_PT_BASE_LO

/-- The point table's mirror is in force (R353). -/
def ptMirrored (s : State) : Bool := s.enabled .legend && s.pf .legend Reg.LEGEND_PT_CFG 0 0 == 1

/-- The mirror copy of an address (R349). -/
def mirrorAddr (_s : State) (a : Nat) : Nat := a ^^^ 0x200000

/-- A mirror pair that an address belongs to: 0 to 15 windows, 16 the point table; with whether it lies in the
mirror half. -/
def mirrorOf (s : State) (a : Nat) : Option (Nat × Bool) :=
  match (List.range 16).find? (fun k =>
      match mirWindow s k with | some (b, e) => decide (b ≤ a ∧ a < e) | none => false) with
  | some k => some (k, a % 4194304 ≥ 2097152)
  | none =>
    let b := ptTableBase s
    if !ptMirrored s then none
    else if b ≤ a ∧ a < b + 0x100000 then some (16, false)
    else if b ≤ mirrorAddr s a ∧ mirrorAddr s a < b + 0x100000 then some (16, true)
    else none

/-- The pair is synchronised (R352, R353). -/
def mirrorSynced (s : State) (k : Nat) : Bool := fbit (s.pr .memctl Reg.MEMCTL_MIRROR_STATUS) k

/-- The engine is enabled: its table's mirror starts to synchronise (R353). -/
def ptMirrorStart (s : State) : State := s.setPf .memctl Reg.MEMCTL_MIRROR_STATUS 16 16 0

/-! The recode queue (R338 to R342). -/

/-- Interval of a recode, into STALE_WINDOW_MAX (R342). -/
def staleWindow (s : State) (since : Nat) : State :=
  let d := s.devtime - since
  if s.pair .memctl Reg.MEMCTL_STALE_WINDOW_MAX_LO < d then s.setPair .memctl Reg.MEMCTL_STALE_WINDOW_MAX_LO d else s

/-- The recoder takes the page at the head of the queue (R339, R341). -/
def recodeHead (s : State) : State :=
  match s.mem.recq with
  | [] => s
  | e :: rest =>
    let s := { s with mem := { s.mem with recq := rest } }
    let base := 4096 * e.page
    if s.mem.bad.any (fun a => a / 4096 == e.page) then
      let a := ((s.mem.bad.filter (fun a => a / 4096 == e.page)).headD base) / 64 * 64
      let s := if s.mem.held.length < 64 then
          { s with mem := { s.mem with held := s.mem.held ++ [e.page] } }
        else { s with mem := { s.mem with recq := s.mem.recq ++ [⟨e.page, e.since⟩] } }
      let chan := chanOf s a
      let s := errInfo s 0x1A false false 4 chan a
      let s := raiseFault (s.event .memctl 2) .memctl 3
      s.logLimited (2100 + chan) 1000000 .memory (pageBase .memctl) 4 a
    else staleWindow (putCode s e.page (pageCode s e.page)) e.since

/-- Enter a page at the tail of the queue; a full queue first gives the recoder its head (R338, R340). -/
def recodePush (s : State) (page : Nat) : State :=
  let s := if 65536 ≤ s.mem.recq.length then recodeHead s else s
  let rec64 := s.mem.recent ++ [page]
  { s with mem := { s.mem with
      recq := s.mem.recq ++ [⟨page, s.devtime⟩],
      recent := rec64.drop (rec64.length - 64) } }

/-- A write reached a page: its recode entry, or its release from the hold list (R338, R341). -/
def recodeEnter (s : State) (page : Nat) : State :=
  if s.mem.held.contains page then
    recodePush { s with mem := { s.mem with held := s.mem.held.filter (fun x => x != page) } } page
  else if s.mem.recent.contains page then s
  else recodePush s page

/-! Injected flips (R520, KINDs 0x40 to 0x42). -/

/-- Carry out an injection: ARM clears, FIRED is set, and a log entry is marked injected (R520). -/
def fireInject (s : State) (p : Page) : State :=
  let w := s.hd p .inject
  let s := s.setHd p .inject (fsetb (fsetb w 31 false) 30 true)
  s.logAdd .fault (pageBase p) (fget w 15 8) 0 true

/-- An armed injection of a page: its TARGET and PARAM, when its KIND is the one asked for. -/
def armed (s : State) (p : Page) (kind : Nat) : Option (Nat × Nat) :=
  let w := s.hd p .inject
  if fbit w 31 ∧ fget w 15 8 = kind then some (fget w 7 0, fget w 23 16) else none

/-! Lines. -/

/-- Write bytes of one line into the memory of a page (R335, R338, R529): the store, the code of an untouched
page, or the recode entry. -/
def storeLine (s : State) (line : Nat) (bytes : List (Option Nat)) : State :=
  if bytes.all (·.isNone) then s
  else
    let page := line / 4096
    if untouched s page then
      let s := memPut s line bytes
      let s := { s with mem := { s.mem with touched := s.mem.touched ++ [page] } }
      putCode s page (pageCode s page)
    else recodeEnter (memPut s line bytes) page

/-- A flip of the channel's armed injection meets a write of an agent (R520): DATA_FLIP leaves the data bit
inverted with the original parity, PARITY_FLIP inverts one byte's parity, SILENT_FLIP inverts a bit and its parity.
`target` selects the bit: byte and bit of the line. -/
def flipLine (s : State) (line : Nat) (bytes : List (Option Nat)) : State :=
  let p : Page := .memch (chanOf s line)
  let hit (k : Nat) : Bool := (bytes.getD k none).isSome
  match armed s p 0x40, armed s p 0x41, armed s p 0x42 with
  | some (t, par), _, _ =>
    let k := t % 64
    if hit k then fireInject (setBad (memSet s (line + k) (memByte s (line + k) ^^^ 2 ^ (par % 8))) (line + k) true) p else s
  | _, some (t, _), _ =>
    let k := t % 64
    if hit k then fireInject (setBad s (line + k) true) p else s
  | _, _, some (t, par) =>
    let k := t % 64
    if hit k then fireInject (memSet s (line + k) (memByte s (line + k) ^^^ 2 ^ (par % 8))) p else s
  | _, _, _ => s

/-- An agent's write of one line: beyond memory, below the watermark, a mirror half, or stored, with its mirror
copy (R332, R335, R351, R413, R415, R517). -/
def writeLine (s : State) (agent : Nat) (sec : Bool) (line : Nat) (bytes : List (Option Nat)) : State × Option AccErr :=
  if isSecureSram line then
    if sec || wmExempt agent then (memPut s line bytes, none)
    else (watermarkBlock s agent true line, some (.watermark line))
  else if memTop s ≤ line then (memError s agent sec true 6 line, some (.uncorrectable line))
  else if line < watermarkAddr s && !sec && !wmExempt agent then
    (watermarkBlock s agent true line, some (.watermark line))
  else match mirrorOf s line with
    | some (_, true) => (memError s agent sec true 5 line, some (.uncorrectable line))
    | some (_, false) =>
      let s := cvuWrite (channelRequest s line) agent line bytes
      let s := storeLine s line bytes
      let s := if agent < 0x1A then flipLine s line bytes else s
      (storeLine (channelRequest s (mirrorAddr s line)) (mirrorAddr s line) bytes, none)
    | none =>
      let s := cvuWrite (channelRequest s line) agent line bytes
      let s := storeLine s line bytes
      (if agent < 0x1A then flipLine s line bytes else s, none)

/-- The bytes of a line that are sound, by correction through the page code where needed (R343, R344, R346):
the bytes, or the TYPE of the error. -/
def soundLine (s : State) (line : Nat) : State × Except Nat (List Nat) :=
  let page := line / 4096
  if untouched s page then (s, .ok (List.replicate 64 0))
  else if !((List.range 64).any (fun i => isBad s (line + i))) then (s, .ok (memBytes s line 64))
  else if codeCurrent s page then
    let ws := keysWhere 32 (fun w => s.mem.bad.any (fun a => a / 4096 == page && a % 32 == w))
    match decodeWords s page ws with
    | some fx =>
      let s := memCorrected (applyFixes s fx) line
      (s, .ok (memBytes s line 64))
    | none => (s, .error 1)
  else (s, .error 2)

/-- A retraining pause holds the channel of a line (R361). -/
def paused (s : State) (a : Nat) : Bool := chStatus s (chanOf s a) 3 3 == 1

/-- What a read of a mirror's line leaves: its data goes to the reader and into the primary, or none. -/
def mirrorTakes (line : Nat) (r : State × Except Nat (List Nat)) : State × Option (List Nat) :=
  match r with
  | (s, .ok b) =>
    let s := recodeEnter (memPut s line (b.map some)) (line / 4096)
    (raiseFault (memCorrected s line) .memctl 2, some b)
  | (s, .error _) => (s, none)

/-- The mirror of a line is read (R351). -/
def readMirror (s : State) (line : Nat) : State × Option (List Nat) :=
  mirrorTakes line (soundLine (channelRequest s (mirrorAddr s line)) (mirrorAddr s line))

/-- What a read of a mirror gives the reader (R347, R351). -/
def mirrorGives (agent : Nat) (sec : Bool) (line : Nat) (r : State × Option (List Nat)) : State × Except AccErr (List Nat) :=
  match r with
  | (s, some b) => (s, .ok b)
  | (s, none) => (memError s agent sec false 3 line, .error (.uncorrectable line))

/-- What a read of a primary gives the reader; an error falls back to the mirror where `fallback` holds (R347, R351). -/
def primaryGives (agent : Nat) (sec : Bool) (line : Nat) (fallback : Bool) (r : State × Except Nat (List Nat)) :
    State × Except AccErr (List Nat) :=
  match r with
  | (s, .ok b) => (s, .ok b)
  | (s, .error ty) =>
    if !fallback then (memError s agent sec false ty line, .error (.uncorrectable line))
    else mirrorGives agent sec line (readMirror s line)

/-- A read of the primary of a line in pair k, or of an unmirrored line: with an error it falls back to the mirror
where that is synchronised (R347, R351). -/
def readPrimary (s : State) (agent : Nat) (sec : Bool) (line : Nat) (fallback : Bool) :
    State × Except AccErr (List Nat) :=
  primaryGives agent sec line fallback (soundLine (channelRequest s line) line)

/-- An agent's read of one line (R332, R343 to R347, R351, R413 to R415). -/
def readLine (s : State) (agent : Nat) (sec : Bool) (line : Nat) : State × Except AccErr (List Nat) :=
  if isSecureSram line then
    if !(sec || wmExempt agent) then (watermarkBlock s agent false line, .error (.watermark line))
    else if (List.range 64).any (fun i => isBad s (line + i)) then
      (raiseFault s .world 6, .error (.uncorrectable line))
    else (s, .ok (memBytes s line 64))
  else if memTop s ≤ line then (memError s agent sec false 6 line, .error (.uncorrectable line))
  else if line < watermarkAddr s && !sec && !wmExempt agent then
    (watermarkBlock s agent false line, .error (.watermark line))
  else match mirrorOf s line with
    | some (k, false) =>
      let sync := mirrorSynced s k
      if sync && paused s line && !paused s (mirrorAddr s line) then
        match readMirror s line with
        | (s, some b) => (s, .ok b)
        | (s, none) => readPrimary s agent sec line false
      else readPrimary s agent sec line sync
    | _ => readPrimary s agent sec line false

/-- Lines that a byte range touches. -/
def linesOf (a len : Nat) : List Nat :=
  if len = 0 then [] else (List.range ((a + len - 1) / 64 - a / 64 + 1)).map (fun i => 64 * (a / 64 + i))

/-- Read several lines, or the first error. -/
def readLines (s : State) (agent : Nat) (sec : Bool) : List Nat → State × Except AccErr (List Nat)
  | [] => (s, .ok [])
  | l :: r =>
    match readLine s agent sec l with
    | (s, .error e) => (s, .error e)
    | (s, .ok b) =>
      match readLines s agent sec r with
      | (s, .error e) => (s, .error e)
      | (s, .ok bs) => (s, .ok (b ++ bs))

/-- A read of device memory by an agent (R343). -/
def busRead (s : State) (agent : Nat) (sec : Bool) (a len : Nat) : State × Except AccErr (List Nat) :=
  match readLines s agent sec (linesOf a len) with
  | (s, .error e) => (s, .error e)
  | (s, .ok bs) => (s, .ok ((bs.drop (a % 64)).take len))

/-- The part of masked bytes that lies in a line, spread over its 64 places. -/
def linePart (a : Nat) (bytes : List (Option Nat)) (line : Nat) : List (Option Nat) :=
  (List.range 64).map (fun i => if a ≤ line + i then bytes.getD (line + i - a) none else none)

/-- A write of device memory by an agent under a byte mask: every line is written, and the first error is
answered (R335). -/
def busWriteMasked (s : State) (agent : Nat) (sec : Bool) (a : Nat) (bytes : List (Option Nat)) :
    State × Except AccErr Unit :=
  (linesOf a bytes.length).foldl (fun (r : State × Except AccErr Unit) l =>
    let (s, e) := writeLine r.1 agent sec l (linePart a bytes l)
    (s, match r.2, e with
      | .ok _, some x => .error x
      | old, _ => old)) (s, .ok ())

/-- A write of device memory by an agent. -/
def busWrite (s : State) (agent : Nat) (sec : Bool) (a : Nat) (bytes : List Nat) : State × Except AccErr Unit :=
  busWriteMasked s agent sec a (bytes.map some)

end Sys2Proof.Machine
end

