-- ==== Sys2Proof/Machine/Xlate.lean ====
section
/-!
DEFINITION. Machine/Xlate.lean: address translation (R397 to R404): stage 2, stage 1, the caches that keep what
was walked until an invalidation covers it, the recording of faults, and the accesses of owners through them.
DESIGN CHOICE: the caches have no limit, so every walked entry is used until it is invalidated.
-/
namespace Sys2Proof.Machine

/-- One translation request: function, agent and world of the access, whether it writes, its SOURCE and context
codes for XFAULT_INFO, and whether a HOST leaf is forbidden to it (R402 cause 0x7). -/
structure XReq where
  func : Nat
  agent : Nat
  sec : Bool
  write : Bool
  source : Nat
  ctx : Nat
  noHost : Bool
deriving DecidableEq, Repr

/-- The result of a translation: device physical, or a bus address of the host. -/
structure XOut where
  addr : Nat
  host : Bool
  ns : Bool
deriving DecidableEq, Repr

/-- The range of a function's port (R374). -/
def portBase (s : State) (port : Nat) : Nat := s.pair (.hostif port) Reg.HOSTIF_MEM_BASE_LO
def portLimit (s : State) (port : Nat) : Nat := s.pair (.hostif port) Reg.HOSTIF_MEM_LIMIT_LO

/-- An address range lies in a port's range. -/
def inPort (s : State) (port a len : Nat) : Bool := portBase s port ≤ a && a + len ≤ portLimit s port

/-- Record a translation fault (R402, R381): XFAULT_INFO and XFAULT_ADDR, the event, the counter, and for stage 2
the limited log entry. -/
def xlateFault (s : State) (q : XReq) (cause stage addr : Nat) : State :=
  let p : Page := .func q.func
  let s := s.setPr p Reg.FUNC_XFAULT_INFO
    (w32 (2 ^ 31 + 2 ^ 24 * cause + 2 ^ 23 * stage + 2 ^ 22 * b2n q.write
      + 2 ^ 16 * (if stage = 0 then q.ctx else 0) + q.source))
  let s := (s.setPair p Reg.FUNC_XFAULT_ADDR_LO addr).event p 2
  let s := s.count .xlate Reg.XLATE_FAULTS
  if stage = 1 then s.logLimited (3000 + q.func) 1000000 .host (pageBase p) cause addr else s

/-- Format of a stage-2 entry at a level; true where it is sound (R399, R400). -/
def s2Format (level e : Nat) : Bool :=
  let leaf := bit e 1
  let host := bit e 5
  let lv := if level ≤ 1 then !leaf else if level = 3 then leaf else true
  lv && bits e 11 7 == 0 && !bit e 4 &&
    (if leaf then (host || (bits e 63 48 == 0 && !bit e 6))
     else (!host && !bit e 6 && bits e 63 48 == 0)) &&
    !(leaf && level == 2 && bits e 20 12 != 0)

/-- Format of a stage-1 entry at a level (R399). -/
def s1Format (level e : Nat) : Bool :=
  let leaf := bit e 1
  let lv := if level ≤ 1 then !leaf else if level = 3 then leaf else true
  lv && bits e 63 48 == 0 && bits e 11 4 == 0 && !(leaf && level == 2 && bits e 20 12 != 0)

/-- Index into the level-L table (R398). -/
def tabIndex (level a : Nat) : Nat := (a >>> (39 - 9 * level)) % 512

/-- Extent of a leaf: 2 MiB at level 2; at level 3, 64 KiB with C64 and 4 KiB without (R399, R401). -/
def leafSize (level e : Nat) : Nat := if level = 2 then 0x200000 else if bit e 3 then 0x10000 else 0x1000

/-- Walk of stage 2 from a table at a level: the leaf found, or the fault's cause (R398, R400, R402). -/
def s2Walk (s : State) (q : XReq) (ip : Nat) : Nat → Nat → State × Except Nat S2Ent
  | 0, _ => (s, .error 3)
  | k + 1, tab =>
    let level := 3 - k
    if !inPort s (portOf q.func) tab 4096 then (s, .error 4)
    else match busRead s q.agent q.sec (tab + 8 * tabIndex level ip) 8 with
      | (s, .error _) => (s, .error 5)
      | (s, .ok b) =>
        let e := ofLeBytes b
        if !bit e 0 then (s, .error 1)
        else if !s2Format level e then (s, .error 3)
        else if bit e 1 then
          let sz := leafSize level e
          let base := if bit e 5 then 4096 * bits e 63 12 else 4096 * bits e 47 12
          (s, .ok { func := q.func, ip := ip / sz * sz, size := sz, out := base / sz * sz, write := bit e 2,
                    host := bit e 5, ns := bit e 6 })
        else s2Walk s q ip k (4096 * bits e 47 12)

/-- The rights and range of a leaf for an access: the fault's cause, if any (R402). -/
def leafCause (s : State) (q : XReq) (e : S2Ent) : Option Nat :=
  if q.write && !e.write then some 2
  else if e.host then (if q.noHost then some 7 else none)
  else if inPort s (portOf q.func) e.out e.size then none else some 4

/-- Frame memory of the B4 model (R554). -/
def frameSize (s : State) : Nat := min 0x10000000 (portLimit s 0 - portBase s 0)

/-- Stage 2 of a function (R397, R400 to R402, R554). -/
def stage2 (s : State) (q : XReq) (ip : Nat) : State × Except Unit XOut :=
  if legacyOn s ∧ q.func = 0 then
    if frameSize s ≤ ip then (xlateFault s q 4 1 ip, .error ())
    else (s, .ok ⟨portBase s 0 + ip, false, false⟩)
  else
    let found (s : State) (e : S2Ent) : State × Except Unit XOut :=
      match leafCause s q e with
      | some c => (xlateFault s q c 1 ip, .error ())
      | none => (s, .ok ⟨e.out + (ip - e.ip), e.host, e.ns⟩)
    match s.xlate.s2.find? (fun e => e.func == q.func && e.ip ≤ ip && ip < e.ip + e.size) with
    | some e => found s e
    | none =>
      let root := s.pair (.func q.func) Reg.FUNC_S2_ROOT_LO
      if !bit root 0 then (xlateFault s q 6 1 ip, .error ())
      else match s2Walk (s.count .xlate Reg.XLATE_WALKS) q ip 4 (4096 * bits root 47 12) with
        | (s, .error c) => (xlateFault s q c 1 ip, .error ())
        | (s, .ok e) => found { s with xlate := { s.xlate with s2 := s.xlate.s2 ++ [e] } } e

/-- First input address of the stage-2 leaf that a function's address passes through. -/
def s2Via (s : State) (func ip : Nat) : Nat :=
  match s.xlate.s2.find? (fun e => e.func == func && e.ip ≤ ip && ip < e.ip + e.size) with
  | some e => e.ip
  | none => ip

/-- Walk of stage 1 from a table at a level (R398, R399): every entry is located through stage 2, as a read. The
result carries the stage-2 leaves passed through; a fault is recorded where it arises. -/
def s1Walk (s : State) (q : XReq) (root va : Nat) : Nat → Nat → List Nat → State × Except Unit S1Ent
  | 0, _, _ => (xlateFault s q 3 0 va, .error ())
  | k + 1, tab, via =>
    let level := 3 - k
    let ent := tab + 8 * tabIndex level va
    match stage2 s { q with write := false } ent with
    | (s, .error _) => (s, .error ())
    | (s, .ok o) =>
      let via := via ++ [s2Via s q.func ent]
      let (s, b) := if o.host then
          let (v, s) := s.draw
          (s, Except.ok (leBytes 8 v))
        else busRead s q.agent q.sec o.addr 8
      match b with
      | .error _ => (xlateFault s q 5 0 va, .error ())
      | .ok b =>
        let e := ofLeBytes b
        if !bit e 0 then (xlateFault s q 1 0 va, .error ())
        else if !s1Format level e then (xlateFault s q 3 0 va, .error ())
        else if bit e 1 then
          let sz := leafSize level e
          (s, .ok { func := q.func, ctx := q.ctx, root := root, va := va / sz * sz, size := sz,
                    ip := 4096 * bits e 47 12 / sz * sz, write := bit e 2, via := via })
        else
          let t := 4096 * bits e 47 12
          let s := { s with xlate := { s.xlate with tabs := s.xlate.tabs ++
            [⟨q.func, q.ctx, root, level + 1, va >>> (39 - 9 * level), t, via⟩] } }
          s1Walk s q root va k t via

/-- The deepest cached stage-1 table for an address: fuel left, table, stage-2 leaves passed (R403). -/
def s1Start (s : State) (q : XReq) (root va : Nat) : Nat × Nat × List Nat :=
  let hit (level : Nat) : Option S1Tab := s.xlate.tabs.find? (fun t =>
    t.func == q.func && t.ctx == q.ctx && t.root == root && t.level == level && t.prefix_ == va >>> (48 - 9 * level))
  match hit 3, hit 2, hit 1 with
  | some t, _, _ => (1, t.ip, t.via)
  | none, some t, _ => (2, t.ip, t.via)
  | none, none, some t => (3, t.ip, t.via)
  | none, none, none => (4, 4096 * bits root 47 12, [])

/-- Stage 1 of a context, then stage 2 (R397). `root` is S1_ROOT of the context entry. -/
def stage1 (s : State) (q : XReq) (root va : Nat) : State × Except Unit XOut :=
  if !bit root 0 then (xlateFault s q 6 0 va, .error ())
  else if bits root 11 1 ≠ 0 ∨ bits root 63 48 ≠ 0 then (xlateFault s q 3 0 va, .error ())
  else
    let finish (s : State) (e : S1Ent) : State × Except Unit XOut :=
      if q.write && !e.write then (xlateFault s q 2 0 va, .error ())
      else stage2 s q (e.ip + (va - e.va))
    match s.xlate.s1.find? (fun e => e.func == q.func && e.ctx == q.ctx && e.root == root && e.va ≤ va
        && va < e.va + e.size) with
    | some e => finish s e
    | none =>
      let (fuel, tab, via) := s1Start s q root va
      match s1Walk (s.count .xlate Reg.XLATE_WALKS) q root va fuel tab via with
      | (s, .error _) => (s, .error ())
      | (s, .ok e) =>
        match finish s e with
        | (s, .ok o) =>
          let e := { e with via := e.via ++ [s2Via s q.func (e.ip + (va - e.va))] }
          ({ s with xlate := { s.xlate with s1 := s.xlate.s1 ++ [e] } }, .ok o)
        | (s, .error x) => ({ s with xlate := { s.xlate with s1 := s.xlate.s1 ++ [e] } }, .error x)

/-! Accesses through a translation. -/

/-- A byte range cut at 4 KiB boundaries. -/
def pieces (a len : Nat) : List (Nat × Nat) :=
  if len = 0 then []
  else (List.range ((a + len - 1) / 4096 - a / 4096 + 1)).map (fun i =>
    let lo := max a (4096 * (a / 4096 + i))
    let hi := min (a + len) (4096 * (a / 4096 + i + 1))
    (lo, hi - lo))

/-- Bytes of host memory, which the spec does not hold: free values. -/
def hostBytes (s : State) (len : Nat) : State × List Nat :=
  ({ s with fresh := s.fresh + len }, (List.range len).map (fun i => Config.freeNat (s.fresh + i) % 256))

/-- Read through a translation, piece by piece; `bus` is the agent and world. -/
def readVia (tr : State → Nat → State × Except Unit XOut) (agent : Nat) (sec : Bool) :
    List (Nat × Nat) → State → State × Except AccErr (List Nat)
  | [], s => (s, .ok [])
  | (a, len) :: r, s =>
    match tr s a with
    | (s, .error _) => (s, .error (.translation a))
    | (s, .ok o) =>
      let (s, b) := if o.host then
          let (s, b) := hostBytes s len
          (s, Except.ok b)
        else busRead s agent sec o.addr len
      match b with
      | .error e => (s, .error e)
      | .ok b =>
        match readVia tr agent sec r s with
        | (s, .error e) => (s, .error e)
        | (s, .ok bs) => (s, .ok (b ++ bs))

/-- Send a packet on a host port. -/
def State.send (s : State) (o : Outbound) : State := { s with cyc := { s.cyc with sent := s.cyc.sent ++ [o] } }

/-- Write through a translation, piece by piece, up to the first error. -/
def writeVia (tr : State → Nat → State × Except Unit XOut) (agent : Nat) (sec : Bool) (port base : Nat)
    (bytes : List (Option Nat)) : List (Nat × Nat) → State → State × Except AccErr Unit
  | [], s => (s, .ok ())
  | (a, len) :: r, s =>
    match tr s a with
    | (s, .error _) => (s, .error (.translation a))
    | (s, .ok o) =>
      let part := (bytes.drop (a - base)).take len
      let (s, b) := if o.host then
          (s.send (.write port o.addr o.ns (part.map (fun x => x.getD 0))), Except.ok ())
        else busWriteMasked s agent sec o.addr part
      match b with
      | .error e => (s, .error e)
      | .ok _ => writeVia tr agent sec port base bytes r s

/-- A read at a stage-2 input address of a function. -/
def funcRead (s : State) (q : XReq) (a len : Nat) : State × Except AccErr (List Nat) :=
  readVia (fun s x => stage2 s q x) q.agent q.sec (pieces a len) s

/-- A write at a stage-2 input address of a function. -/
def funcWrite (s : State) (q : XReq) (a : Nat) (bytes : List Nat) : State × Except AccErr Unit :=
  writeVia (fun s x => stage2 s q x) q.agent q.sec (portOf q.func) a (bytes.map some) (pieces a bytes.length) s

/-- SOURCE of a fetch by an agent (R381): Legend 0x07, audio 0x0B, else layer fetch 0x06. -/
def fetchSource (agent : Nat) : Nat := if agent = 0x0C then 7 else if agent = 0x0E then 0xB else 6

/-- A fetch from a buffer of an owner (R140, R214, R475): a function's address goes through its stage 2, any other
owner's is device physical; a HOST leaf is forbidden (R402). -/
def ownerRead (s : State) (code agent : Nat) (sec : Bool) (a len : Nat) : State × Except AccErr (List Nat) :=
  if code < 64 then funcRead s ⟨code, agent, sec, false, fetchSource agent, 0, true⟩ a len
  else busRead s agent sec a len

/-- A retire signal: a plain 64-bit write in the address space of the committer (R152, R298). -/
def ownerSignal (s : State) (code agent : Nat) (sec : Bool) (a value : Nat) : State × Except AccErr Unit :=
  if code < 64 then funcWrite s ⟨code, agent, sec, true, 9, 0, true⟩ a (leBytes 8 value)
  else busWrite s agent sec a (leBytes 8 value)

/-! Context entries and job accesses (R295, R397). -/

/-- Address of a context entry (R295): the function's table, or Heartwood's or Sapwood's. -/
def ctxEntryAddr (s : State) (rs c : Nat) : Nat :=
  (if rs < 64 then s.pair (.func rs) Reg.FUNC_CTX_BASE_LO
   else if rs = 64 then s.pair .world Reg.WORLD_HW_CTX_BASE_LO
   else s.pair .ctrlcplx Reg.CTRLCPLX_SAP_CTX_BASE_LO) + 64 * c

/-- A normal read of a ring set: through stage 2 for a function, device physical otherwise (R397). -/
def ringRead (s : State) (rs : Nat) (sec : Bool) (source a len : Nat) : State × Except AccErr (List Nat) :=
  if rs < 64 then funcRead s ⟨rs, 0x16, sec, false, source, 0, false⟩ a len
  else busRead s 0x16 sec a len

/-- A job's read at an address of its context (R397). -/
def jobRead (s : State) (rs ctx root agent : Nat) (sec : Bool) (source : Nat) (noHost : Bool) (a len : Nat) :
    State × Except AccErr (List Nat) :=
  if rs < 64 then
    readVia (fun s x => stage1 s ⟨rs, agent, sec, false, source, ctx, noHost⟩ root x) agent sec (pieces a len) s
  else busRead s agent sec a len

/-- A job's write at an address of its context (R397). -/
def jobWrite (s : State) (rs ctx root agent : Nat) (sec : Bool) (source : Nat) (noHost : Bool) (a : Nat)
    (bytes : List (Option Nat)) : State × Except AccErr Unit :=
  if rs < 64 then
    writeVia (fun s x => stage1 s ⟨rs, agent, sec, true, source, ctx, noHost⟩ root x) agent sec (portOf rs) a bytes
      (pieces a bytes.length) s
  else busWriteMasked s agent sec a bytes

/-! Invalidation (R403, R404). -/

/-- Drop a function's cached stage-1 entries that meet a test on context, first address and size. -/
def dropS1 (s : State) (func : Nat) (p : Nat → Nat → Nat → Bool) : State :=
  { s with xlate := { s.xlate with
      s1 := s.xlate.s1.filter (fun e => !(e.func == func && p e.ctx e.va e.size)),
      tabs := s.xlate.tabs.filter (fun t => !(t.func == func &&
        p t.ctx (t.prefix_ <<< (48 - 9 * t.level)) (2 ^ (48 - 9 * t.level)))) } }

/-- Drop a function's cached stage-2 leaves that overlap a range, and all that passed through them. -/
def dropS2 (s : State) (func lo hi : Nat) : State :=
  let gone (e : S2Ent) : Bool := e.func == func && e.ip < hi && lo < e.ip + e.size
  let ips := (s.xlate.s2.filter gone).map (·.ip)
  let thru (l : List Nat) : Bool := l.any (fun x => ips.contains x)
  { s with xlate := { s.xlate with
      s2 := s.xlate.s2.filter (fun e => !gone e),
      s1 := s.xlate.s1.filter (fun e => !(e.func == func && thru e.via)),
      tabs := s.xlate.tabs.filter (fun t => !(t.func == func && thru t.via)) } }

/-- XLATE_WALK (R398): an access of a function is translated; the context's S1_ROOT is read from its entry. -/
def execXlateWalk (f : Fin 64) (ctx : Option (Fin 16)) (addr : BitVec 48) (write : Bool) (agent : Fin 29)
    (source : Fin 12) (s : State) : Host.Outcome State Fault Refusal :=
  let noHost : Bool := [5, 6, 7, 8, 9, 0xB].contains source.val
  if !funcExists s f then .next s
  else match ctx with
    | none => .next (stage2 s ⟨f, agent, false, write, source, 0, noHost⟩ addr.toNat).1
    | some c =>
      match ringRead s f false 3 (ctxEntryAddr s f c) 8 with
      | (s, .error _) => .next s
      | (s, .ok b) => .next (stage1 s ⟨f, agent, false, write, source, c, noHost⟩ (ofLeBytes b) addr.toNat).1

end Sys2Proof.Machine
end

