-- ==== Sys2Proof/Machine/Audio.lean ====
section
/-!
DEFINITION. Machine/Audio.lean: the audio mixer (R472 to R494): memory streams, tone generators, TDM inputs, the
gain matrix with its ramps, sinks and limiters, meters and silence.
-/
namespace Sys2Proof.Machine

/-- Replace the mixer's state. -/
def State.setAudio (s : State) (a : AudioSt) : State := { s with audio := a }

/-- A field of AUDIO. -/
def aud (s : State) (o hi lo : Nat) : Nat := s.pf .audio o hi lo

/-- Sample rate (R473). -/
def audioFs (s : State) : Nat := if aud s Reg.AUDIO_ACFG 0 0 = 1 then 96000 else 48000

/-- Words of the gain and sink tables, 0 where the stored word failed parity (R494). -/
def bankWord (s : State) (a : Nat) : Word := if s.audio.badWords.contains a then 0 else s.reg a

/-- The active bank (R483). -/
def activeBank (s : State) : Nat := aud s Reg.AUDIO_BANK 0 0

/-- Gain of a pair 32 s + b in bank k (R481). -/
def bankGain (s : State) (k pair : Nat) : Int := sext (bankWord s (0x3F4000 + 0x2000 * k + 4 * pair)).toNat 32

/-- Offset of sink entry j in bank k (R493). -/
def sinkOff (k j : Nat) : Nat := (if k = 0 then Reg.AUDIO_SINK_ROUTE0 else Reg.AUDIO_SINK_ROUTE1) + 16 * j

/-- Word w of sink entry j in the active bank. -/
def sinkWord (s : State) (j w : Nat) : Word := bankWord s (pageBase .audio + sinkOff (activeBank s) j + 4 * w)

/-! Memory streams (R475 to R477). -/

/-- One stream's state. -/
def State.stream (s : State) (k : Nat) : StreamSt := aget {} s.audio.streams k
def State.setStream (s : State) (k : Nat) (x : StreamSt) : State :=
  s.setAudio { s.audio with streams := aset {} s.audio.streams k x }

/-- Registers of stream k. -/
def srcEn (s : State) (k : Nat) : Bool := aud s (Reg.AUDIO_SRC_BASE_LO + 16 * k) 0 0 == 1
def srcBase (s : State) (k : Nat) : Nat :=
  aud s (Reg.AUDIO_SRC_BASE_LO + 16 * k) 31 6 * 64 + 2 ^ 32 * (aud s (Reg.AUDIO_SRC_BASE_HI + 16 * k) 15 0)
def srcSize (s : State) (k : Nat) : Nat := 2 ^ aud s (Reg.AUDIO_SRC_BASE_HI + 16 * k) 19 16
def srcRd (s : State) (k : Nat) : Nat := aud s (Reg.AUDIO_SRC_PTR + 16 * k) 31 16
def srcWr (s : State) (k : Nat) : Nat := aud s (Reg.AUDIO_SRC_PTR + 16 * k) 15 0

/-- EN clears in the cycle of the event (R477). -/
def srcOff (s : State) (k : Nat) : State := s.setPf .audio (Reg.AUDIO_SRC_BASE_LO + 16 * k) 0 0 0

/-- Every stream of an owner stops (R477). -/
def streamsOff (s : State) (owner : Nat) : State :=
  (List.range 48).foldl (fun s k => if streamOwner s k = owner then srcOff s k else s) s

/-- Fetch the line that holds sample RD (R476): the line with the WR it was fetched under; a failed read is counted
and raises fault bit 0, and a translation fault stops the stream (R477). -/
def fetchSource1 (s : State) (k : Nat) : State :=
  let a := (srcBase s k + 4 * srcRd s k) / 64 * 64
  let o := streamOwner s k
  let keep (s : State) (l : Option (List Nat)) : State :=
    s.setStream k { s.stream k with line := some (a, srcWr s k, l) }
  match ownerRead s o 0x0E (o == 0x40) a 64 with
  | (s, .ok b) => keep s (some ((List.range 16).map (fun i => ofLeBytes ((b.drop (4 * i)).take 4))))
  | (s, .error e) =>
    let s := raiseFault (s.count .audio Reg.AUDIO_SRC_ERROR) .audio 0
    match e with
    | .translation _ => srcOff (keep s none) k
    | _ => keep s none

/-- The line held covers sample RD: its address, and RD below the WR it was fetched under (R476). -/
def lineServes (s : State) (k : Nat) : Bool :=
  match (s.stream k).line with
  | some (a, w, _) => a == (srcBase s k + 4 * srcRd s k) / 64 * 64 && srcRd s k != w
  | none => false

/-- SOURCE_FETCH (R476): nothing for a stream that is off, in Safe, or has nothing below WR. -/
def execSourceFetch (k : Fin 48) (s : State) : Host.Outcome State Fault Refusal :=
  .next (if srcEn s k && s.enabled .audio && s.mode.mode != .safe && srcRd s k != srcWr s k && !lineServes s k
    then fetchSource1 s k else s)

/-- The sample of stream k at a boundary (R476, R491). -/
def streamSample (s : State) (k : Nat) : State × Int :=
  if !srcEn s k || s.mode.mode == .safe then (s, 0)
  else
    let x := s.stream k
    let wr := srcWr s k
    let rd := srcRd s k
    if rd = x.wrPrev then
      let s := s.setStream k { x with wrPrev := wr }
      let a := if k < 32 then Reg.AUDIO_UNDERRUN_MAP_LO else Reg.AUDIO_UNDERRUN_MAP_HI
      let s := (s.count .audio Reg.AUDIO_SRC_UNDERRUN).hwBits (pageBase .audio + a) (2 ^ (k % 32))
      (s.event .audio 1, 0)
    else
      let s := if lineServes s k then s else fetchSource1 s k
      let v := match (s.stream k).line with
        | some (_, _, some ws) => sext (ws.getD (rd % 16) 0) 32
        | _ => 0
      let s := s.setStream k { s.stream k with wrPrev := wr }
      (s.setPf .audio (Reg.AUDIO_SRC_PTR + 16 * k) 31 16 ((rd + 1) % srcSize s k), v)

/-- The write of SRC_BASE_HIs against R475: a change of BASE or LOG2_SIZE while EN = 1, or a size out of range. -/
def srcEnableCheck (s : State) (m : Master) (k : Nat) (value : Word) : Option Cause :=
  let a := pageBase .audio + Reg.AUDIO_SRC_BASE_LO + 16 * k
  let lo := ((s.staged m a a).find? (fun w => w.1 == a)).elim (s.reg a) (·.2)
  let base := fget lo 31 6 * 64 + 2 ^ 32 * fget value 15 0
  let lg := fget value 19 16
  if srcEn s k && (base != srcBase s k || 2 ^ lg != srcSize s k) then some .inuse
  else if lg < 8 ∨ 15 < lg then some .range else none

/-- The effect of SRC_BASE_HIs: the pair applies, and EN set makes RD equal WR (R477). -/
def srcEnableOp (s : State) (m : Master) (k : Nat) (value : Word) : State :=
  let a := pageBase .audio + Reg.AUDIO_SRC_BASE_LO + 16 * k
  let lo := ((s.staged m a a).find? (fun w => w.1 == a)).elim (s.reg a) (·.2)
  let was := srcEn s k
  let s := ((s.unstage m a).setReg a (lo &&& 0xFFFFFFC1)).setReg (a + 4) (value &&& 0xFFFFF)
  if srcEn s k && !was then
    let wr := srcWr s k
    (s.setPf .audio (Reg.AUDIO_SRC_PTR + 16 * k) 31 16 wr).setStream k { wrPrev := wr }
  else s

/-- SRC_ENABLE (R477). -/
def execSrcEnable (m : Master) (k : Fin 48) (value : Word) (s : State) : Host.Outcome State Fault Refusal :=
  .next (writeReg s m (pageBase .audio + Reg.AUDIO_SRC_BASE_HI + 16 * k.val) (fun s => srcEnableCheck s m k value)
    (fun s => srcEnableOp s m k value))

/-! Tone generators (R478 to R480, R491, R570 to R573). -/

/-- π in units of 2⁻⁹⁶. -/
def piFix : Int := 248902613312231085230521944622

/-- Terms of the sine series in units of 2⁻⁹⁶: x, its square, the current term and the number of the next. -/
def sinSeries : Nat → Int → Int → Nat → Int
  | 0, _, _, _ => 0
  | n + 1, x2, t, k => t + sinSeries n x2 (-(t * x2 / 2 ^ 96) / ((2 * k) * (2 * k + 1) : Nat)) (k + 1)

/-- sin(π r / 2048) in units of 2⁻⁹⁶, for r up to 1024. -/
def sinFix (r : Nat) : Int :=
  let x := piFix * r / 2048
  sinSeries 16 (x * x / 2 ^ 96) x 1

/-- T[j] of R478 for the first quadrant: (2³¹ − 1) sin(π r / 2048), to the nearest integer. -/
def toneQ (r : Nat) : Int := (2147483647 * sinFix r + 2 ^ 95) / 2 ^ 96

/-- T[j] (R478). -/
def toneT (j : Nat) : Int :=
  let r := j % 1024
  match j / 1024 % 4 with
  | 0 => toneQ r
  | 1 => toneQ (1024 - r)
  | 2 => -toneQ r
  | _ => -toneQ (1024 - r)

/-- The wave of a generator (R478). -/
def toneWave (square : Bool) (phi : Nat) : Int :=
  if square then (if phi < 0x80000000 then 0x7FFFFFFF else -0x7FFFFFFF)
  else
    let j := phi / 2 ^ 20
    let d := toneT ((j + 1) % 4096) - toneT j
    toneT j + d * (phi % 2 ^ 20 : Nat) / 2 ^ 20

/-- A generator's output (R478). -/
def toneOut (square : Bool) (phi amp env : Nat) : Int :=
  let a := (toneWave square phi * amp + 2 ^ 30) / 2 ^ 31
  (a * env + 2 ^ 15) / 2 ^ 16

/-- The envelope's next value (R479). -/
def envStep (on : Bool) (e attack release : Nat) : Nat :=
  if on then (if attack = 0 then 65536 else min 65536 (e + attack)) else if release = 0 then 0 else e - release

/-- The gate under a cadence (R479): boundaries since the on part began. -/
def cadence (fs onMs offMs since : Nat) : Bool :=
  if offMs = 0 then true
  else
    let a := onMs * fs / 1000
    let b := offMs * fs / 1000
    a + b = 0 || since % (a + b) < a

/-- A beep is over: GATE clears, BUSY clears and BEEP_DONE is set (R573). -/
def beepEnd (s : State) : State :=
  let s := { s with b4 := { s.b4 with beepLeft := 0 } }
  let s := s.setPf .audio (Reg.AUDIO_TONE_CTRL + 224) 31 31 0
  b4Isr (s.setB4 0x800 (fsetb (s.b4r 0x800) 30 false)) (2 ^ 12)

/-- A beep sounds (R572, R573). -/
def beepSounds (s : State) : Bool :=
  beepOwns s && !s.b4.beepSet && aud s (Reg.AUDIO_TONE_CTRL + 224) 31 31 == 1 && fbit (s.b4r 0x800) 30

/-- A beep's boundary (R572, R573): GATE is set at the first, and the beep ends when its time is over. -/
def beepBoundary (s : State) : State :=
  if !beepOwns s then s
  else if s.b4.beepSet then
    let n := fget (s.b4r 0x808) 15 0 * audioFs s / 1000
    let s := { s with b4 := { s.b4 with beepSet := false, beepLeft := n } }
    let s := s.setPf .audio (Reg.AUDIO_TONE_CTRL + 224) 31 31 1
    let x : ToneSt := aget {} s.audio.tones 7
    s.setAudio { s.audio with tones := aset {} s.audio.tones 7 { x with gate := false } }
  else if beepSounds s then
    if s.b4.beepLeft ≤ 1 then beepEnd s else { s with b4 := { s.b4 with beepLeft := s.b4.beepLeft - 1 } }
  else s

/-- The sample of generator i at a boundary, before φ advances (R478, R479, R491). -/
def toneSample (s : State) (i : Nat) : State × Int :=
  let o := 32 * i
  let x := aget {} s.audio.tones i
  let safe := s.mode.mode == .safe
  let gateReg := aud s (Reg.AUDIO_TONE_CTRL + o) 31 31 == 1 || (safe && i == 0)
  let x := if gateReg && !x.gate then { x with phi := 0, since := 0, gate := true }
    else { x with gate := gateReg, since := x.since + 1 }
  let w := s.pr .audio (Reg.AUDIO_TONE_CADENCE + o)
  let on := gateReg && cadence (audioFs s) (fget w 31 16) (fget w 15 0) x.since
  let ev := s.pr .audio (Reg.AUDIO_TONE_ENV + o)
  let e := envStep on x.env (fget ev 15 0) (fget ev 31 16)
  let v := toneOut (aud s (Reg.AUDIO_TONE_CTRL + o) 0 0 == 1) x.phi (aud s (Reg.AUDIO_TONE_AMP + o) 30 0) e
  let x := { x with env := e, phi := (x.phi + (s.pr .audio (Reg.AUDIO_TONE_FREQ + o)).toNat) % 2 ^ 32,
                    claimed := toneClaimed s i }
  let s := s.setAudio { s.audio with tones := aset {} s.audio.tones i x }
  (s.setPf .audio (Reg.AUDIO_TONE_STATUS + o) 16 0 e, if safe && i != 0 then 0 else v)

/-- Sinks a generator is added to outside the matrix: its TONE_ROUTE while claimed, or as generator 0 in Safe; sinks
24 and 25 for a beep (R480, R491, R570). -/
def toneRoute (s : State) (i : Nat) : Nat :=
  let r := (s.pr .audio (Reg.AUDIO_TONE_ROUTE_LO + 32 * i)).toNat + 2 ^ 32 * ((s.pr .audio (Reg.AUDIO_TONE_ROUTE_HI + 32 * i)).toNat)
  if (aget {} s.audio.tones i).claimed || (s.mode.mode == .safe && i == 0) then r
  else if i = 7 ∧ beepOwns s then 0x3000000
  else 0

/-- The generator's row of the matrix is taken as 0 (R480, R570). -/
def toneRowZero (s : State) (i : Nat) : Bool :=
  (aget {} s.audio.tones i).claimed || (i == 7 && beepOwns s)

/-! Gains (R481 to R484). -/

/-- The banks swap (R483): every pair whose gain changes starts a ramp, or takes the gain at once while the mixer
is disabled. -/
def bankSwap (s : State) (ramp : Bool) : State :=
  let k := 1 - activeBank s
  let n := aud s Reg.AUDIO_ACFG 31 16 * audioFs s / 10000
  let s := s.setPf .audio Reg.AUDIO_BANK 0 0 k
  let news := (List.range 2048).filterMap (fun p =>
    let g := bankGain s k p
    let g0 := aget 0 s.audio.gains p
    if g = g0 then none else some (p, g0, g))
  let s := if ramp then s.setAudio { s.audio with ramps := news.map (fun x => ⟨x.1, x.2.1, x.2.2, 0, n⟩) }
    else s.setAudio { s.audio with ramps := [], gains := news.foldl (fun m x => aset 0 m x.1 x.2.2) s.audio.gains }
  s.event .audio 0

/-- The ramps at one boundary (R484). -/
def rampStep (s : State) : State :=
  let a := s.audio
  let step (r : Ramp) : Ramp := { r with k := r.k + 1 }
  let val (r : Ramp) : Int := if r.n ≤ r.k then r.g1 else r.g0 + ((r.g1 - r.g0) * r.k).tdiv r.n
  let rs := a.ramps.map step
  s.setAudio { a with ramps := rs.filter (fun r => r.k < r.n),
                      gains := rs.foldl (fun m r => aset 0 m r.pair (val r)) a.gains }

/-- The pending commit of AUDIO applies at a boundary (R483, R67). -/
def audioCommit (s : State) (ramp : Bool) : State :=
  match s.pend .audio with
  | none => s
  | some st =>
    let s := s.setPend .audio none
    let old := s.hd .audio .commitStatus
    let s := s.setHd .audio .commitStatus (w32 (0x10000 * st.seq + b2n (fbit old 1) * 2))
    bankSwap s ramp

/-- One bus (R482, R480, R491, R494): the sum over the sources. -/
def busSum (s : State) (src : List Int) (b : Nat) : Int :=
  if s.mode.mode = .safe then 0
  else s.audio.gains.foldl (fun acc e =>
    let k := e.1 / 32
    if e.1 % 32 ≠ b ∨ (48 ≤ k ∧ k < 56 ∧ toneRowZero s (k - 48)) ∨
        s.audio.badWords.contains (0x3F4000 + 0x2000 * activeBank s + 4 * e.1) then acc
    else acc + (src.getD k 0 * e.2 + 2 ^ 29) / 2 ^ 30) 0

/-! Sinks (R485 to R487). -/

/-- The input of sink j (R485). -/
def sinkInput (s : State) (buses tones : List Int) (j : Nat) : Int :=
  let w := sinkWord s j 0
  (if fbit w 31 then buses.getD (fget w 4 0) 0 else 0)
    + (List.range 8).foldl (fun acc i => if bit (toneRoute s i) j then acc + tones.getD i 0 else acc) 0

/-- The limiter's gain after a boundary (R486). -/
def limiterGain (limEn : Bool) (thresh p gl attack release : Nat) : Nat :=
  let t := if !limEn || p ≤ thresh then 2 ^ 24 else 2 ^ 24 * thresh / p
  if t < gl then gl - (gl - t + 2 ^ attack - 1) / 2 ^ attack else min t (gl + release)

/-- One sink at a boundary (R486): the sample sent, and whether it was clamped. -/
def sinkStep (s : State) (j : Nat) (x : Int) : State × Int :=
  let k := aget {} s.audio.sinks j
  let w := sinkWord s j 0
  let win := x :: k.xs
  let p := win.foldl (fun acc v => max acc v.natAbs) 0
  let gl := limiterGain (fbit w 30) (fget (sinkWord s j 1) 30 0) p k.gl (fget w 29 27) (fget (sinkWord s j 2) 24 0)
  let y := (k.xs.getD 31 0 * gl + 2 ^ 23) / 2 ^ 24
  let yc := clampI y (-0x80000000) 0x7FFFFFFF
  let s := s.setAudio { s.audio with sinks := aset {} s.audio.sinks j { xs := win.take 32, gl := gl, y := yc } }
  (if y ≠ yc then (s.count .audio Reg.AUDIO_CLAMP_COUNT).event .audio 2 else s, yc)

/-- The SDP sample of a head sink (R487). -/
def sdpSample (y : Int) : Int := min 8388607 ((y + 128) / 256)

/-! Meters, silence (R489, R490). -/

/-- One meter: key of its hold count, offsets of its registers, and its magnitude (R489). -/
def meter (s : State) (key oPeak : Nat) (m : Nat) : State :=
  let c := s.pr .audio Reg.AUDIO_METER_CFG
  let peak := (s.pr .audio oPeak).toNat
  let hold := aget 0 s.audio.holds key
  let (peak', hold') :=
    if peak ≤ m then (m, fget c 23 16 * audioFs s / 100)
    else if 0 < hold then (peak, hold - 1) else (peak - peak / 2 ^ fget c 15 12, 0)
  let ms : Int := (s.pr .audio (oPeak + 4)).toNat
  let sq : Int := ((m / 65536) * (m / 65536) : Nat)
  let s := s.setAudio { s.audio with holds := aset 0 s.audio.holds key hold' }
  (s.setPr .audio oPeak (w32 peak')).setPr .audio (oPeak + 4)
    (w32 (ms + (sq - ms) / ((2 ^ fget c 11 8 : Nat) : Int)).toNat)

/-- TDM port p runs (R488). -/
def tdmOn (s : State) (p : Nat) : Bool := aud s Reg.AUDIO_TDM_CFG p p == 1

/-- AMP_EN of port p at a boundary (R490). -/
def ampBoundary (s : State) (xs : List Int) (p : Nat) : State :=
  let c := s.pr .audio (Reg.AUDIO_SIL_CFG + 8 * p)
  let o := Reg.AUDIO_SIL_TIME + 8 * p
  let quiet := (List.range 8).all (fun t => (xs.getD (24 + 8 * p + t) 0).natAbs ≤ fget c 30 0)
  let n := if quiet then aget 0 s.audio.silent p + 1 else 0
  let s := s.setAudio { s.audio with silent := aset 0 s.audio.silent p n }
  if !tdmOn s p || !fbit c 31 then ampStatic s p
  else if !quiet then s.setPf .audio o 31 31 1
  else if n = aud s o 15 0 * audioFs s / 1000 then s.setPf .audio o 31 31 0
  else s

/-! The boundary. -/

/-- The samples of the TDM inputs (R474). -/
def tdmInputs (s : State) (din : List (BitVec 32)) : List Int :=
  (List.range 8).map (fun i =>
    let w := s.pr .audio (Reg.AUDIO_TDMIN_SEL + 4 * i)
    if fbit w 31 && tdmOn s (fget w 4 3) then sext (din.getD (8 * fget w 4 3 + fget w 2 0) 0).toNat 32 else 0)

/-- Samples of a list of numbered sources. -/
def collect (f : State → Nat → State × Int) (s : State) (n : Nat) : State × List Int :=
  (List.range n).foldl (fun (r : State × List Int) i =>
    let (s, v) := f r.1 i
    (s, r.2 ++ [v])) (s, [])

/-- The sinks at a boundary: each is stepped, metered and offered to the CVUs. -/
def runSinks (s : State) (xs : List Int) : State :=
  (List.range 56).foldl (fun s j =>
    let (s, y) := sinkStep s j (xs.getD j 0)
    let s := meter s (32 + j) (Reg.AUDIO_SINK_PEAK + 8 * j) (min y.natAbs 0x7FFFFFFF)
    cvuSample s j y) s

/-- SAMPLE_BOUNDARY (R473 to R491), while AUDIO is enabled. -/
def sampleOp (s : State) (din : List (BitVec 32)) : State :=
  let s := rampStep (audioCommit s true)
  let s := beepBoundary s
  let (s, streams) := collect streamSample s 48
  let (s, tones) := collect toneSample s 8
  let src := streams ++ tones ++ tdmInputs s din
  let buses := (List.range 32).map (busSum s src)
  let s := (List.range 32).foldl (fun s b => meter s b (Reg.AUDIO_BUS_PEAK + 8 * b) ((buses.getD b 0).natAbs / 256)) s
  let xs := (List.range 56).map (sinkInput s buses tones)
  let s := runSinks s xs
  let s := (List.range 4).foldl (fun s p => ampBoundary s xs p) s
  let s := s.setAudio { s.audio with n := s.audio.n + 1 }
  s.count .audio Reg.AUDIO_SAMPLE_COUNT

/-- SAMPLE_BOUNDARY (R473). -/
def execSampleBoundary (din : List (BitVec 32)) (s : State) : Host.Outcome State Fault Refusal :=
  .next (if s.enabled .audio && s.mode.mode != .held && !loadIsShed s then sampleOp s din else s)

/-- The effect of setting AUDIO.CTRL.ENABLE (R473, R486): counts from 0, empty delay lines, and each stream's WR
taken as read. -/
def audioEnableOp (s : State) : State :=
  if s.enabled .audio then s
  else
    let s := (s.setHf .audio .ctrl 0 0 1).setPr .audio Reg.AUDIO_SAMPLE_COUNT 0
    let s := s.setAudio { s.audio with n := 0, sinks := [], silent := [] }
    (List.range 48).foldl (fun s k => s.setStream k { s.stream k with wrPrev := srcWr s k }) s

/-- AUDIO_ENABLE (R473). -/
def execAudioEnable (m : Master) (s : State) : Host.Outcome State Fault Refusal :=
  .next (writeReg s m (hadr .audio .ctrl) (fun s => enableCheck s .audio) audioEnableOp)

end Sys2Proof.Machine
end

