-- ==== Sys2Proof/Machine/Kerf.lean ====
section
/-!
DEFINITION. Machine/Kerf.lean: the Kerf code (R230 to R251): kinds, the bit stream, Kerf-L and Kerf-H encoders and
decoders, reading and writing a block of a surface, decode errors, and the statistics slots.
-/
namespace Sys2Proof.Machine

/-- Kinds of a Kerf surface (R230); `mapOnly` carries the format's raw block size. -/
inductive KerfKind where
  | l8 | l10 | h8 | h10 | veneer
  | mapOnly (slot : Nat)
deriving DecidableEq, Repr

/-- Bytes of a block's slot (R230). -/
def KerfKind.slot : KerfKind → Nat
  | .l8 | .l10 => 256
  | .h8 | .h10 => 128
  | .veneer => 512
  | .mapOnly n => n

/-- Channel widths in the order B, G, R, A (R230). -/
def KerfKind.widths : KerfKind → List Nat
  | .l8 | .h8 => [8, 8, 8, 8]
  | .l10 | .h10 => [10, 10, 10, 2]
  | .veneer => [12, 12, 12, 10]
  | .mapOnly _ => []

/-- Bits at which each channel starts in the container, and its container width (R139, R163). -/
def KerfKind.places : KerfKind → List (Nat × Nat)
  | .l8 | .h8 => [(0, 8), (8, 8), (16, 8), (24, 8)]
  | .l10 | .h10 => [(0, 10), (10, 10), (20, 10), (30, 2)]
  | .veneer => [(0, 16), (16, 16), (32, 16), (48, 16)]
  | .mapOnly _ => []

/-- Bytes of a pixel's container. -/
def KerfKind.pixelBytes (k : KerfKind) : Nat := match k with | .h8 | .h10 => 4 | k => k.slot / 64

/-- The kind is coded by Kerf-H. -/
def KerfKind.high : KerfKind → Bool
  | .h8 | .h10 => true
  | _ => false

/-- Largest shifts of a Kerf-H kind (R239). -/
def KerfKind.sMax : KerfKind → Nat
  | .h10 => 6
  | _ => 5
def KerfKind.saMax : KerfKind → Nat
  | .h10 => 1
  | _ => 2

/-- A map code is none of the reserved ones (R233). -/
def kerfCodeKnown (c : Nat) : Bool := c ≤ 7 || (0x10 ≤ c && c ≤ 0x16) || c == 0xFF

/-- The kind accepts a map code (R233). -/
def KerfKind.accepts (k : KerfKind) (c : Nat) : Bool :=
  match k with
  | .l8 | .l10 => c ≤ 7 || c == 0xFF
  | .veneer => c ≤ 7
  | .mapOnly _ => c == 0 || c == 0xFF
  | .h8 => (0x10 ≤ c && c ≤ 0x15) || c == 0xFF
  | .h10 => (0x10 ≤ c && c ≤ 0x16) || c == 0xFF

/-- Bytes a decoder reads for a code (R233). -/
def KerfKind.readBytes (k : KerfKind) (c : Nat) : Nat :=
  if c = 0 then k.slot else if c ≤ 7 then 32 * c else if c = 0xFF then 0 else 128

/-- Channels of a container word. -/
def KerfKind.split (k : KerfKind) (w : Nat) : List Nat := k.places.map (fun p => (w >>> p.1) % 2 ^ p.2)

/-- Container word of channels. -/
def KerfKind.join (k : KerfKind) (c : List Nat) : Nat :=
  (List.zipWith (fun (p : Nat × Nat) v => v <<< p.1) k.places c).foldl (· + ·) 0

/-! The bit stream (R235). -/

/-- Code of x predicted by p in n bits. -/
def zz (x p n : Nat) : Nat :=
  let r := (x + 2 ^ n - p % 2 ^ n) % 2 ^ n
  if r >>> (n - 1) = 1 then 2 * (2 ^ n - r) - 1 else 2 * r

/-- Decode of a residual. -/
def unzz (z p n : Nat) : Nat :=
  let sr : Int := if z % 2 = 1 then -(((z + 1) / 2 : Nat) : Int) else ((z / 2 : Nat) : Int)
  toField ((p : Int) + sr) n

/-- Number of bits of a value. -/
def bitlen (z : Nat) : Nat := if z = 0 then 0 else Nat.log2 z + 1

/-- Index of the predictor of pixel i (R235). -/
def predIdx (i : Nat) : Nat := if i % 8 = 0 then i - 8 else i - 1

/-- The stream so far: its value and its length. -/
structure Stream where
  val : Nat := 0
  len : Nat := 0
deriving DecidableEq, Repr

/-- Append a field, least significant bit first. -/
def Stream.put (t : Stream) (v w : Nat) : Stream := ⟨t.val + 2 ^ t.len * (v % 2 ^ w), t.len + w⟩

/-- Residuals of pixel i of a list of channel lists, with channel widths. -/
def residuals (px : List (List Nat)) (ns : List Nat) (i : Nat) : List Nat :=
  let a := px.getD i []
  let b := px.getD (predIdx i) []
  (List.range 4).map (fun c => zz (a.getD c 0) (b.getD c 0) (ns.getD c 1))

/-- Largest bit length of channel c over residual lists. -/
def widthOf (rs : List (List Nat)) (c : Nat) : Nat := rs.foldl (fun m r => max m (bitlen (r.getD c 0))) 0

/-- Fields of pixels 1 to 63 after pixel 0 (R236, R238). -/
def putPixels (t : Stream) (px : List (List Nat)) (ns : List Nat) (w : Nat → Nat → Nat) : Stream :=
  let t := (List.range 4).foldl (fun t c => t.put ((px.getD 0 []).getD c 0) (ns.getD c 0)) t
  (List.range 63).foldl (fun t j =>
    let i := j + 1
    let r := residuals px ns i
    (List.range 4).foldl (fun t c => t.put (r.getD c 0) (w (i / 8) c)) t) t

/-- Pixels of a row of a block that carry residuals. -/
def rowResiduals (px : List (List Nat)) (ns : List Nat) (y : Nat) : List (List Nat) :=
  ((List.range 8).filter (fun x => 0 < 8 * y + x)).map (fun x => residuals px ns (8 * y + x))

/-- Kerf-L stream of a block (R236, R237). -/
def kerfLStream (px : List (List Nat)) (ns : List Nat) : Stream :=
  let tab := (List.range 8).map (fun y => (List.range 4).map (fun c => widthOf (rowResiduals px ns y) c))
  let w (y c : Nat) : Nat := (tab.getD y []).getD c 0
  let t := (List.range 8).foldl (fun t y => (List.range 4).foldl (fun t c => t.put (w y c) 4) t) ({} : Stream)
  putPixels t px ns w

/-- Quantised channels of a block at shifts s and sa (R238). -/
def quantise (px : List (List Nat)) (s sa : Nat) : List (List Nat) :=
  px.map (fun p => (List.range 4).map (fun c => (p.getD c 0) >>> (if c = 3 then sa else s)))

/-- Quantised channel widths. -/
def quantWidths (ns : List Nat) (s sa : Nat) : List Nat :=
  (List.range 4).map (fun c => ns.getD c 0 - (if c = 3 then sa else s))

/-- Block widths at shifts s and sa. -/
def hWidths (px : List (List Nat)) (ns : List Nat) (s sa : Nat) : List Nat :=
  let q := quantise px s sa
  let rs := (List.range 63).map (fun j => residuals q (quantWidths ns s sa) (j + 1))
  (List.range 4).map (fun c => widthOf rs c)

/-- L(s, SA) (R238). -/
def hLen (px : List (List Nat)) (ns : List Nat) (s sa : Nat) : Nat :=
  32 + (quantWidths ns s sa).foldl (· + ·) 0 + 63 * (hWidths px ns s sa).foldl (· + ·) 0

/-- Kerf-H stream at shifts s and sa (R238). -/
def kerfHStream (px : List (List Nat)) (ns : List Nat) (s sa : Nat) : Stream :=
  let ws := hWidths px ns s sa
  let t := ws.foldl (fun (t : Stream) w => t.put w 4) {}
  let t := (t.put sa 2).put 0 14
  putPixels t (quantise px s sa) (quantWidths ns s sa) (fun _ c => ws.getD c 0)

/-- Map code and bytes of a block's 64 pixels (R237, R239). -/
def kerfEncode (k : KerfKind) (clear : Option Nat) (pixels : List Nat) : Nat × List Nat :=
  let raw := pixels.flatMap (fun v => leBytes k.pixelBytes v)
  match k, clear with
  | .veneer, _ | _, none => body k pixels raw
  | _, some c => if pixels.all (· == c) then (0xFF, []) else body k pixels raw
where
  /-- The block without the test for CLEAR. -/
  body (k : KerfKind) (pixels raw : List Nat) : Nat × List Nat :=
    match k with
    | .mapOnly _ => (0, raw)
    | _ =>
      let px := pixels.map k.split
      let ns := k.widths
      if k.high then
        let fits (s sa : Nat) : Bool := hLen px ns s sa ≤ 1024
        let s := ((List.range (k.sMax + 1)).find? (fun s => fits s k.saMax)).getD k.sMax
        let sa := ((List.range (k.saMax + 1)).find? (fun a => fits s a)).getD k.saMax
        (0x10 + s, leBytes 128 (kerfHStream px ns s sa).val)
      else
        let t := kerfLStream px ns
        let n := cdiv t.len 256
        if n ≤ 7 then (n, leBytes (32 * n) t.val) else (0, raw)

/-! Decoding (R235 to R240, R245). -/

/-- Decode of pixels from a stream at a bit position (R236, R238). -/
def getPixels (v : Nat) (ns : List Nat) (w : Nat → Nat → Nat) (pos : Nat) : List (List Nat) :=
  let first := (List.range 4).foldl (fun (a : Nat × List Nat) c =>
    (a.1 + ns.getD c 0, a.2 ++ [(v >>> a.1) % 2 ^ ns.getD c 0])) (pos, [])
  ((List.range 63).foldl (fun (a : Nat × List (List Nat)) j =>
    let i := j + 1
    let p := a.2.getD (predIdx i) []
    let q := (List.range 4).foldl (fun (b : Nat × List Nat) c =>
      let wd := w (i / 8) c
      (b.1 + wd, b.2 ++ [unzz ((v >>> b.1) % 2 ^ wd) (p.getD c 0) (ns.getD c 0)])) (a.1, [])
    (q.1, a.2 ++ [q.2])) (first.1, [first.2])).2

/-- Reconstruction of a colour value (R240). -/
def unshiftColour (q s : Nat) : Nat := if s = 0 then q else q * 2 ^ s + 2 ^ (s - 1)

/-- Reconstruction of an alpha value of width n (R240). -/
def unshiftAlpha (q n sa : Nat) : Nat :=
  if sa = 0 ∨ q = 0 then q * 2 ^ sa
  else if q = 2 ^ (n - sa) - 1 then 2 ^ n - 1
  else q * 2 ^ sa + 2 ^ (sa - 1)

/-- Decode of a block: container words, or the cause of R245. -/
def kerfDecode (k : KerfKind) (clear code : Nat) (bytes : List Nat) : Except Nat (List Nat) :=
  if !kerfCodeKnown code then .error 1
  else if !k.accepts code then .error 2
  else if code = 0xFF then .ok (List.replicate 64 clear)
  else if code = 0 then
    .ok ((List.range 64).map (fun i => ofLeBytes ((bytes.drop (k.pixelBytes * i)).take k.pixelBytes)))
  else if code ≤ 7 then
    let v := ofLeBytes (bytes.take (32 * code))
    let ns := k.widths
    let w (y c : Nat) : Nat := (v >>> (16 * y + 4 * c)) % 16
    if (List.range 8).any (fun y => (List.range 4).any (fun c => decide (ns.getD c 0 < w y c))) then .error 3
    else
      let rowLen (y : Nat) : Nat := (if y = 0 then 7 else 8) * ((List.range 4).foldl (fun a c => a + w y c) 0)
      let len := 128 + ns.foldl (· + ·) 0 + (List.range 8).foldl (fun a y => a + rowLen y) 0
      if 256 * code < len then .error 5
      else .ok ((getPixels v ns w 128).map k.join)
  else
    let v := ofLeBytes (bytes.take 128)
    let s := code - 0x10
    let sa := (v >>> 16) % 4
    let w (c : Nat) : Nat := (v >>> (4 * c)) % 16
    if k.saMax < sa then .error 4
    else
      let ms := quantWidths k.widths s sa
      if (List.range 4).any (fun c => decide (ms.getD c 0 < w c)) then .error 3
      else if 1024 < 32 + ms.foldl (· + ·) 0 + 63 * ((List.range 4).foldl (fun a c => a + w c) 0) then .error 5
      else .ok ((getPixels v ms (fun _ c => w c) 32).map (fun q =>
        k.join ((List.range 4).map (fun c =>
          if c = 3 then unshiftAlpha (q.getD 3 0) (k.widths.getD 3 0) sa else unshiftColour (q.getD c 0) s))))

/-! Surfaces (R231, R249, R250). -/

/-- A Kerf surface as its user names it: kind, block base, map base, block-row pitch, clear colour, statistics id and
the source code of its decode errors. -/
structure KerfSurf where
  kind : KerfKind
  base : Nat
  map : Nat
  pitch : Nat
  clear : Nat := 0
  id : Nat := 0
  src : Nat := 0
deriving DecidableEq, Repr

/-- How a user reads and writes memory. -/
abbrev Reader := State → Nat → Nat → State × Except AccErr (List Nat)
abbrev Writer := State → Nat → List Nat → State × Except AccErr Unit

/-- Addresses of a block's slot and map byte (R231). -/
def KerfSurf.slotAddr (f : KerfSurf) (bx by_ : Nat) : Nat := f.base + by_ * f.pitch + bx * f.kind.slot
def KerfSurf.mapAddr (f : KerfSurf) (bx by_ : Nat) : Nat := f.map + by_ * (f.pitch / f.kind.slot) + bx

/-- A decode error in the KERF page (R246, R249, R251). -/
def kerfError (s : State) (src code cause addr : Nat) : State :=
  let s := s.count .kerf Reg.KERF_DEC_ERR_COUNT
  let s := s.setPr .kerf Reg.KERF_DEC_ERR_INFO (w32 (2 ^ 24 * src + code * 256 + cause * 16 + 1))
  raiseFault ((s.setPair .kerf Reg.KERF_DEC_ERR_ADDR_LO addr).event .kerf 0) .kerf 0

/-- A decoded block, a decode error already recorded, or an access error. -/
inductive BlockRead where
  | ok (px : List Nat)
  | bad (map : Nat)
  | err (e : AccErr)
deriving DecidableEq, Repr

/-- Read and decode one block: the map byte first, then the bytes it names (R233, R247). -/
def kerfReadBlock (s : State) (rd : Reader) (f : KerfSurf) (bx by_ : Nat) : State × BlockRead :=
  let ma := f.mapAddr bx by_
  match rd s ma 1 with
  | (s, .error e) => (s, .err e)
  | (s, .ok m) =>
    let code := m.headD 0
    let n := if kerfCodeKnown code && f.kind.accepts code then f.kind.readBytes code else 0
    match rd s (f.slotAddr bx by_) n with
    | (s, .error e) => (s, .err e)
    | (s, .ok b) =>
      match kerfDecode f.kind f.clear code b with
      | .ok px => (s, .ok px)
      | .error c => (kerfError s f.src code c ma, .bad ma)

/-- Blocks of a block row, or the first failure. -/
def kerfReadBlocks (rd : Reader) (f : KerfSurf) (by_ : Nat) : List Nat → State → State × Except AccErr (List (List Nat))
  | [], s => (s, .ok [])
  | bx :: r, s =>
    match kerfReadBlock s rd f bx by_ with
    | (s, .err e) => (s, .error e)
    | (s, .bad a) => (s, .error (.uncorrectable a))
    | (s, .ok px) =>
      match kerfReadBlocks rd f by_ r s with
      | (s, .error e) => (s, .error e)
      | (s, .ok ps) => (s, .ok (px :: ps))

/-- Pixels x to x+w−1 of row y of a surface, as container words. -/
def kerfRow (s : State) (rd : Reader) (f : KerfSurf) (y x w : Nat) : State × Except AccErr (List Nat) :=
  if w = 0 then (s, .ok [])
  else
    let b0 := x / 8
    let b1 := (x + w - 1) / 8
    match kerfReadBlocks rd f (y / 8) ((List.range (b1 + 1 - b0)).map (fun i => b0 + i)) s with
    | (s, .error e) => (s, .error e)
    | (s, .ok bs) =>
      (s, .ok (((bs.flatMap (fun b => (b.drop (8 * (y % 8))).take 8)).drop (x % 8)).take w))

/-- One counter of a statistics slot counts up, saturating; the event where it reaches its end (R250). -/
def statCount (s : State) (o n : Nat) : State :=
  let old := (s.pr .kerf o).toNat
  let v := min (old + n) 0xFFFFFFFF
  let s := s.setPr .kerf o (w32 v)
  if v = 0xFFFFFFFF ∧ old < v then s.event .kerf 1 else s

/-- Register of a map code in a statistics slot (R249). -/
def statReg (code : Nat) : Nat :=
  if code = 0 then Reg.KERF_CNT_RAW else if code ≤ 7 then Reg.KERF_CNT_L1 + 4 * (code - 1)
  else if code = 0xFF then Reg.KERF_CNT_CLEAR else Reg.KERF_CNT_H0 + 4 * (code - 0x10)

/-- An encoded block is counted in every enabled slot of its surface id (R250). -/
def kerfCount (s : State) (k : KerfKind) (id code : Nat) : State :=
  (List.range 16).foldl (fun s i =>
    let cfg := s.pr .kerf (Reg.KERF_STAT_CFG + 0x80 * i)
    if fbit cfg 31 ∧ fget cfg 15 0 = id then
      let s := statCount s (statReg code + 0x80 * i) 1
      let s := statCount s (Reg.KERF_CNT_SECTORS + 0x80 * i) (k.readBytes code / 32)
      if 0x10 ≤ code ∧ code ≤ 0x16 then
        let o := Reg.KERF_STAT_MAX + 0x80 * i
        s.setPr .kerf o (w32 (256 + max (s.pf .kerf o 2 0) (code - 0x10)))
      else s
    else s) s

/-- Encode and write one block: the data first, then the map byte (R247, R250). -/
def kerfWriteBlock (s : State) (wr : Writer) (f : KerfSurf) (clear : Option Nat) (bx by_ : Nat) (pixels : List Nat) :
    State × Except AccErr Unit :=
  let (code, bytes) := kerfEncode f.kind clear pixels
  let (s, e) := if bytes.isEmpty then (s, Except.ok ()) else wr s (f.slotAddr bx by_) bytes
  match e with
  | .error e => (s, .error e)
  | .ok _ => wr (kerfCount s f.kind f.id code) (f.mapAddr bx by_) [code]

/-- The kind of a layer's Kerf format (R138, R230). -/
def kerfOfFormat (fmt : Nat) : KerfKind :=
  if fmt = 0x12 then .h8 else if fmt = 0x13 then .l10 else if fmt = 0x14 then .h10 else .l8

/-- PITCH of a layer in a Kerf format (R232). -/
def kerfGeomOk (fmt w _h x _y pitch : Nat) : Bool :=
  let slot := (kerfOfFormat fmt).slot
  pitch % slot == 0 && slot * cdiv (x + w) 8 ≤ pitch

end Sys2Proof.Machine
end

