-- ==== Sys2Proof/Machine/LegendBase.lean ====
section
/-!
DEFINITION. Machine/LegendBase.lean: geometry, cost and commit checks of the legend layer, the ranges of the
Legend tables, and the NUMERIC and SYMBOL styles (R203 to R218, R227).
-/
namespace Sys2Proof.Machine

/-- Cell width and height in pixels, columns and rows, of an L14 block (R207). -/
def legendCell (g : Nat → Word) : Nat × Nat × Nat × Nat :=
  let w := g Reg.LAYERL_LG_GRID
  (8 * (fget w 28 26 + 1), 8 * (fget w 31 29 + 1), fget w 9 0, fget w 25 16)

/-- Left and top of the grid (R207). -/
def legendOrigin (g : Nat → Word) : Int × Int :=
  let w := g Reg.LAYERL_LG_ORIGIN
  (sext (fget w 15 0) 16, sext (fget w 31 16) 16)

/-- The grid's rectangle (R209). -/
def legendRect (g : Nat → Word) : Int × Int × Nat × Nat :=
  let (cw, ch, cols, rows) := legendCell g
  let (x, y) := legendOrigin g
  (x, y, cw * cols, ch * rows)

/-- How many of `cnt` cells of size `sz` from `o` have a pixel in 0 … top−1 (R209). -/
def cellsVisible (o : Int) (sz cnt top : Nat) : Nat :=
  (List.range cnt).foldl (fun acc k =>
    let a := o + ((k * sz : Nat) : Int)
    if a < top ∧ 0 < a + sz then acc + 1 else acc) 0

/-- Counted cost of L14 in MB/s (R227). -/
def legendCost (f : Nat × Nat) (hTotal : Nat) (hAct vAct vTotal : Nat) (g : Nat → Word) : Nat :=
  let (cw, ch, cols, rows) := legendCell g
  let (x, y) := legendOrigin g
  let n := cellsVisible x cw cols hAct * cellsVisible y ch rows vAct
  let den := 1000000 * (hTotal * vTotal) * f.2
  (if den = 0 then 0 else cdiv (8 * n * f.1) den) + fget (g Reg.LAYERL_LG_FILL) 15 0

/-- The RANGE conditions of R208 on an enabling L14 commit; `rateOk` is the line-rate condition. -/
def legendFieldsOk (rateOk : Bool) (g : Nat → Word) : Bool :=
  let (x, y) := legendOrigin g
  let (_, _, cols, rows) := legendCell g
  let pitch := fget (g Reg.LAYERL_CM_PITCH) 15 0
  let blink (w : Word) (lo : Nat) : Bool :=
    let per := fget w (lo + 7) lo
    let on := fget w (lo + 15) (lo + 8)
    2 ≤ per && 1 ≤ on && on < per
  let b0 := g Reg.LAYERL_BLINK01
  let b1 := g Reg.LAYERL_BLINK23
  !fbit (g Reg.LAYER_LAYER_CTRL) 1 &&
  (-8192 ≤ x && x ≤ 8191 && -8192 ≤ y && y ≤ 8191) &&
  1 ≤ cols && cols ≤ 960 && 1 ≤ rows && rows ≤ 540 &&
  (g Reg.LAYERL_CELLMAP_LO).toNat % 64 == 0 && fget (g Reg.LAYERL_CELLMAP_HI) 31 16 == 0 &&
  pitch % 64 == 0 && 4 * cols ≤ pitch &&
  blink b0 0 && blink b0 16 && blink b1 0 && blink b1 16 &&
  fget (g Reg.LAYERL_LG_FILL) 15 0 ≤ 16000 && rateOk

/-! Ranges (R203 to R206). -/

/-- Register base, number of ranges and last index of the tables: 0 points, 1 styles, 2 glyphs. -/
def rangeTable (t : Nat) : Nat × Nat × Nat :=
  if t = 0 then (Reg.LEGEND_PR_LO, 64, 262143) else if t = 1 then (Reg.LEGEND_SR_LO, 16, 4095)
  else (Reg.LEGEND_GR_LO, 16, 8191)

/-- Range j of a table contains an index and is VALID. -/
def rangeHas (s : State) (t j i : Nat) : Bool :=
  let (b, _, _) := rangeTable t
  let lo := s.pr .legend (b + 8 * j)
  let hi := s.pr .legend (b + 8 * j + 4)
  fbit hi 23 && fget lo 17 0 ≤ i && i ≤ fget hi 17 0

/-- A master code owns a VALID range that contains an index (R205, R206). -/
def rangeOwned (s : State) (t i code : Nat) : Bool :=
  (List.range (rangeTable t).2.1).any (fun j =>
    rangeHas s t j i && fget (s.pr .legend ((rangeTable t).1 + 8 * j + 4)) 31 24 == code)

/-- An entry may be displayed by a legend layer of a committer (R206). -/
def rangeShown (s : State) (t i code : Nat) : Bool :=
  (List.range (rangeTable t).2.1).any (fun j =>
    let hi := s.pr .legend ((rangeTable t).1 + 8 * j + 4)
    rangeHas s t j i && (fbit hi 22 || fget hi 31 24 == code))

/-- Owner codes that R72 uses. -/
def ownerCodeOk (c : Nat) : Bool := c ≤ 0x42 || c == 0xFF

/-- A write of xR_HIj with the staged or current low word is in range (R204). -/
def rangeWriteOk (s : State) (t j : Nat) (lo hi : Word) : Bool :=
  let (b, cnt, top) := rangeTable t
  let st := fget lo 17 0
  let en := fget hi 17 0
  st ≤ en && en ≤ top && ownerCodeOk (fget hi 31 24) &&
    (!fbit hi 23 || (List.range cnt).all (fun k =>
      k == j || !fbit (s.pr .legend (b + 8 * k + 4)) 23 ||
        en < fget (s.pr .legend (b + 8 * k)) 17 0 || fget (s.pr .legend (b + 8 * k + 4)) 17 0 < st))

/-! Styles (R212, R213). -/

/-- The checks on a style entry when word 3 is written. -/
def styleOk (w0 w1 w2 w3 : Word) : Bool :=
  let z (w : Word) (hi lo : Nat) : Bool := fget w hi lo == 0
  match fget w0 1 0 with
  | 0 => true
  | 1 => z w0 31 29 && z w0 15 12 && z w0 3 2 && z w1 31 30 && z w1 15 14 && z w2 15 15
  | 2 => z w0 31 29 && z w0 15 10 && fget w0 9 7 ≤ 4 && z w1 15 8 && 1 ≤ fget w1 7 0 && fget w1 7 0 ≤ 64 &&
      z w2 31 3 && z w3 31 30
  | _ => false

/-- The glyph and blink flag of a SYMBOL cell (R212). -/
def symbolGlyph (w0 w1 w2 : Word) (value qual : Nat) : Nat × Bool :=
  let state := (value >>> fget w0 7 4) &&& fget w0 11 8
  if fbit w2 13 ∧ bit qual 2 then (fget w2 12 0, fbit w2 14)
  else if fbit w1 29 ∧ bit qual 1 then (fget w1 28 16, false)
  else if fbit w1 13 ∧ bit qual 0 then (fget w1 12 0, false)
  else (fget w0 28 16 + state, bit (fget w2 31 16) state)

/-- Digits of a magnitude, right to left, with the decimal point; `fuel` exceeds any digit count (R213). -/
def numericChars : Nat → Nat → Nat → Nat → List Nat
  | 0, _, _, _ => []
  | fuel + 1, m, digits, dec =>
    let dot := if dec ≠ 0 ∧ digits = dec then [11] else []
    let d := m % 10
    let m' := m / 10
    if m' ≠ 0 ∨ digits + 1 < dec + 1 then dot ++ d :: numericChars fuel m' (digits + 1) dec else dot ++ [d]

/-- The read-out positions from the left; none is a blank (R213). -/
def numeric (value : Nat) (sgn lz : Bool) (width dec : Nat) : List (Option Nat) :=
  let v : Int := if sgn then sext value 16 else (value % 65536 : Nat)
  let ch := numericChars 12 v.natAbs 0 dec
  let neg := decide (v < 0)
  if ch.length + b2n neg > width then List.replicate width (some 12)
  else
    let body := ch.reverse.map some
    let room := width - ch.length
    if lz then
      (if neg then [some 10] else []) ++ List.replicate (room - b2n neg) (some 0) ++ body
    else
      List.replicate (room - b2n neg) none ++ (if neg then [some 10] else []) ++ body

/-- Blink rate k is on in frame F (R218). -/
def blinkOn (g : Nat → Word) (k frame : Nat) : Bool :=
  let w := if k < 2 then g Reg.LAYERL_BLINK01 else g Reg.LAYERL_BLINK23
  let lo := if k % 2 = 0 then 0 else 16
  frame % max 1 (fget w (lo + 7) lo) < fget w (lo + 15) (lo + 8)

/-- The glyphs a cell selects: reference pixel and glyph index, in position order; `none` where the style
draws the cell empty and counts it (R212, R213, R229 handled by the caller). -/
def styleGlyphs (w0 w1 w2 w3 : Word) (value qual : Nat) (on : Nat → Bool) : Option (List (Nat × Nat)) :=
  if fget w0 1 0 = 1 then
    let (gl, bl) := symbolGlyph w0 w1 w2 value qual
    if gl > 8191 then none else if bl && !on (fget w3 31 30) then some [] else some [(0, gl)]
  else
    let alt := (fbit w1 31 && bit qual 0) || (fbit w1 30 && bit qual 1) || (fbit w1 29 && bit qual 2)
    let base := if alt then fget w1 28 16 else fget w0 28 16
    let pos := numeric value (fbit w0 2) (fbit w0 3) (fget w0 6 4 + 1) (fget w0 9 7)
    let gl := (pos.mapIdx (fun k o => o.map (fun d => (k * fget w1 7 0, base + d)))).filterMap id
    if gl.any (fun e => e.2 > 8191) then none
    else if fbit w2 2 && bit qual 2 && !on (fget w2 1 0) then some [] else some gl

/-! Glyphs (R214 to R217). -/

/-- Width, height and form of a glyph entry's word 2. -/
def glyphW (words : List Nat) : Nat := bits (words.getD 2 0) 5 0 + 1
def glyphH (words : List Nat) : Nat := bits (words.getD 2 0) 13 8 + 1
def glyphArgb (words : List Nat) : Bool := bit (words.getD 2 0) 16
def glyphKerf (words : List Nat) : Bool := bit (words.getD 2 0) 17

/-- The checks on a glyph entry when word 3 is written (R211, R214). -/
def glyphOk (w0 w2 : Word) : Bool :=
  let l := [w0.toNat, 0, w2.toNat]
  fget w0 5 0 == 0 && (!glyphKerf l || (glyphArgb l && glyphW l % 8 == 0 && glyphH l % 8 == 0))

/-- Bitmap address and stored bytes of a glyph (R214, R215). -/
def glyphAddr (words : List Nat) : Nat := words.getD 0 0 + 2 ^ 32 * bits (words.getD 1 0) 15 0
def glyphBytes (words : List Nat) : Nat :=
  if glyphKerf words then 64 + 256 * (glyphW words / 8 * (glyphH words / 8))
  else glyphH words * (if glyphArgb words then 256 else 64)

end Sys2Proof.Machine
end

