-- ==== Sys2Proof/Machine/Layers.lean ====
section
/-!
DEFINITION. Machine/Layers.lean: layer commit checks, admission, fetching a layer line, the scaler, and
composing a pixel (R133 to R193). The latches and the events of a head stand in Machine/Raster.lean.
-/
namespace Sys2Proof.Machine

/-! Formats and cost. -/

/-- Whether a layer accepts a format code (R138). -/
def formatOk (l fmt : Nat) : Bool :=
  if l < 4 then [0x01, 0x02, 0x03, 0x04, 0x20, 0x21, 0x22, 0x23].contains fmt
  else if l = 15 then [0x01, 0x02, 0x03, 0x04, 0x05, 0x06, 0x11, 0x13].contains fmt
  else [0x01, 0x02, 0x03, 0x04, 0x05, 0x06, 0x11, 0x12, 0x13, 0x14].contains fmt

/-- Kerf formats (R138). -/
def isKerf (fmt : Nat) : Bool := 0x10 ≤ fmt && fmt < 0x18

/-- Formats with a second plane at AUX_ADDR, or a kerf map there (R140). -/
def usesAux (fmt : Nat) : Bool := isKerf fmt || fmt == 0x20 || fmt == 0x21

/-- Bytes per pixel of plane 0 (R139). -/
def planeBpp (fmt : Nat) : Nat :=
  if fmt = 0x04 ∨ fmt = 0x21 ∨ fmt = 0x22 then 2
  else if fmt = 0x05 ∨ fmt = 0x06 ∨ fmt = 0x20 then 1 else 4

/-- B_line in units of 1/64 byte (R138, R159). -/
def bline64 (fmt w : Nat) : Nat :=
  if isKerf fmt then 8 * cdiv w 8 * 257
  else if fmt = 0x20 then w * 96
  else if fmt = 0x21 then w * 192
  else w * planeBpp fmt * 64

/-- Cost in MB/s of one layer line rate: ⌈b64/64 × f_pix / (HTOTAL × 10⁶)⌉ (R159). -/
def lineCost (s : State) (n : Nat) (t : Raster) (b64 : Nat) : Nat :=
  let f := fpix s n
  if t.hTotal * f.2 = 0 then 0 else cdiv (b64 * f.1) (1000000 * (64 * t.hTotal) * f.2)

/-- Cost of layer l of head n with registers read through g (R159, R227). -/
def layerCost (s : State) (n l : Nat) (t : Raster) (g : Nat → Word) : Nat :=
  if !fbit (g Reg.LAYER_LAYER_CTRL) 0 then 0
  else if l = 14 then legendCost (fpix s n) t.hTotal t.hActive t.vActive t.vTotal g
  else
    let w := fget (g Reg.LAYER_SRC_SIZE) 13 0
    let h := fget (g Reg.LAYER_SRC_SIZE) 29 16
    let dh := fget (g Reg.LAYER_DST_SIZE) 29 16
    let rv := if l < 4 ∧ dh < h ∧ 0 < dh then cdiv h dh else 1
    lineCost s n t (bline64 (fget (g Reg.LAYER_LAYER_FORMAT) 7 0) w * rv)

/-- f_pix / HTOTAL is at most 500,000 lines per second (R208). -/
def lineRateOk (s : State) (n : Nat) (t : Raster) : Bool := (fpix s n).1 ≤ 500000 * t.hTotal * (fpix s n).2

/-- FAULT_DISABLED (R151). -/
def faultDisabled (s : State) (n l : Nat) : Bool := fbit (s.pr (.layer n l) Reg.LAYER_LAYER_STATUS) 1

/-- ACTIVE: ENABLE in force and not FAULT_DISABLED (R151). -/
def layerActive (s : State) (n l : Nat) : Bool := s.enabled (.layer n l) && !faultDisabled s n l

/-- Cost in force and pending of one layer, the larger (R160). -/
def layerCounted (s : State) (n l : Nat) (t : Raster) : Nat :=
  let p : Page := .layer n l
  let now := if faultDisabled s n l then 0 else layerCost s n l t (fun o => s.pr p o)
  match s.pend p with
  | some _ => max now (layerCost s n l t (fun o => s.pendReg p o))
  | none => now

/-- Cost of a head whose generator is enabled, with one layer's figure replaced (R160). -/
def headCostWith (s : State) (n : Nat) (t : Raster) (repl : Option (Nat × Nat)) : Nat :=
  (List.range 16).foldl (fun acc l =>
    acc + (match repl with
      | some (k, c) => if k = l then max c (layerCounted s n l t) else layerCounted s n l t
      | none => layerCounted s n l t)) 0

/-- HEAD_COST (R157, R160). -/
def headCost (s : State) (n : Nat) : Nat :=
  if s.enabled (.timing n) then headCostWith s n (rasterPending s n) none else 0

/-- RT_TOTAL with head n counted as `c` (R160). -/
def rtTotalWith (s : State) (n c : Nat) : Nat :=
  (List.range 12).foldl (fun acc k => acc + (if k = n then c else headCost s k)) 2000

/-- RT_TOTAL (R160). -/
def rtTotal (s : State) : Nat := (List.range 12).foldl (fun acc k => acc + headCost s k) 2000

/-! Layer commit checks (R143, R188, R193). -/

/-- Vertical taps of V_TAPS. -/
def vTapsOf (code : Nat) : Nat := if code = 0 then 6 else if code = 1 then 4 else 3

/-- The vertical filter is bypassed (R181). -/
def vBypass (g : Nat → Word) : Bool := g Reg.LAYERV_V_STEP = 0x100000 && g Reg.LAYERV_V_INIT = 0

/-- The horizontal filter is bypassed (R181). -/
def hBypass (g : Nat → Word) : Bool := g Reg.LAYERV_H_STEP = 0x100000 && g Reg.LAYERV_H_INIT = 0

/-- Buffered width (R182). -/
def bufWidth (g : Nat → Word) : Nat := min (fget (g Reg.LAYER_SRC_SIZE) 13 0) (fget (g Reg.LAYER_DST_SIZE) 13 0)

/-- The programmed taps fit the line buffer (R182). -/
def tapsFit (g : Nat → Word) : Bool :=
  vBypass g || vTapsOf (fget (g Reg.LAYERV_SCL_CTRL) 13 12) * bufWidth g ≤ 24576

/-- A set named by a video layer may be referenced by a committer (R188). -/
def setPermits (s : State) (k : Nat) (code : Nat) : Bool :=
  let w := s.pr .scaler (Reg.SCALER_SET_OWNER + 4 * k)
  let own := if fget w 7 0 = 0xFF then s.owner .scaler else fget w 7 0
  fbit w 8 || own == code

/-- The RANGE conditions of R143 on a layer other than L14. -/
def layerGeomOk (g : Nat → Word) (l : Nat) : Bool :=
  let ctrl := g Reg.LAYER_LAYER_CTRL
  let fmt := fget (g Reg.LAYER_LAYER_FORMAT) 7 0
  let blend := fget ctrl 5 4
  let w := fget (g Reg.LAYER_SRC_SIZE) 13 0
  let h := fget (g Reg.LAYER_SRC_SIZE) 29 16
  let x := fget (g Reg.LAYER_SRC_POS) 13 0
  let y := fget (g Reg.LAYER_SRC_POS) 29 16
  let pitch := fget (g Reg.LAYER_PITCH) 23 0
  let dx := sext (fget (g Reg.LAYER_DST_POS) 15 0) 16
  let dy := sext (fget (g Reg.LAYER_DST_POS) 31 16) 16
  let hiOk (o : Nat) : Bool := fget (g (o + 4)) 31 16 = 0
  let al (o a : Nat) : Bool := (g o).toNat % a == 0
  formatOk l fmt && blend ≠ 3 &&
  !(blend = 1 && fmt = 0x05) &&
  !(blend = 2 && (!([0x01, 0x02, 0x04].contains fmt) || l < 4 || l = 15)) &&
  (l = 15 || fget ctrl 19 16 < 15) &&
  hiOk Reg.LAYER_BUF_ADDR_LO && al Reg.LAYER_BUF_ADDR_LO (if isKerf fmt then 4096 else 64) &&
  (!usesAux fmt || (hiOk Reg.LAYER_AUX_ADDR_LO && al Reg.LAYER_AUX_ADDR_LO 64)) &&
  (fmt ≠ 0x06 || (hiOk Reg.LAYER_PALETTE_ADDR_LO && al Reg.LAYER_PALETTE_ADDR_LO 64)) &&
  hiOk Reg.LAYER_RETIRE_ADDR_LO && al Reg.LAYER_RETIRE_ADDR_LO 8 &&
  1 ≤ w && w ≤ 8192 && 1 ≤ h && h ≤ 8192 &&
  (-8192 ≤ dx && dx ≤ 8191 && -8192 ≤ dy && dy ≤ 8191) &&
  (if isKerf fmt then kerfGeomOk fmt w h x y pitch else pitch % 64 = 0 && w * planeBpp fmt ≤ pitch) &&
  !(isKerf fmt && (x % 8 ≠ 0 || y % 8 ≠ 0)) &&
  !([0x20, 0x21, 0x22].contains fmt && (x % 2 ≠ 0 || w % 2 ≠ 0)) &&
  !([0x20, 0x21].contains fmt && (y % 2 ≠ 0 || h % 2 ≠ 0))

/-- The RANGE conditions of R141 and R193 on a video layer. -/
def videoOk (g : Nat → Word) : Bool :=
  let step (o : Nat) : Bool := 0x10000 ≤ (g o).toNat && (g o).toNat ≤ 0x800000
  let init (o : Nat) : Bool := -8388608 ≤ sext (g o).toNat 32 && sext (g o).toNat 32 ≤ 8388608
  let fmt := fget (g Reg.LAYER_LAYER_FORMAT) 7 0
  let dw := fget (g Reg.LAYER_DST_SIZE) 13 0
  let dh := fget (g Reg.LAYER_DST_SIZE) 29 16
  step Reg.LAYERV_H_STEP && step Reg.LAYERV_V_STEP && init Reg.LAYERV_H_INIT && init Reg.LAYERV_V_INIT &&
  fget (g Reg.LAYERV_SCL_CTRL) 13 12 ≠ 3 &&
  !(fbit (g Reg.LAYERV_SCL_CTRL) 24 && !([0x22, 0x02, 0x04].contains fmt)) &&
  1 ≤ dw && dw ≤ 8192 && 1 ≤ dh && dh ≤ 8192

/-- A layer commit by master m: the first cause in the order RANGE, OWNER, LINEBUF, BUDGET (R143, R193). -/
def layerCheck (s : State) (n l : Nat) (m : Master) : Option Cause :=
  let p : Page := .layer n l
  let g (o : Nat) : Word := s.shd (pageBase p + o)
  if !fbit (g Reg.LAYER_LAYER_CTRL) 0 then none
  else
    let rangeOk :=
      if l = 14 then fget (g Reg.LAYER_LAYER_CTRL) 5 4 < 2 && fget (g Reg.LAYER_LAYER_CTRL) 19 16 < 15
        && legendFieldsOk (lineRateOk s n (rasterPending s n)) g
      else layerGeomOk g l && (4 ≤ l || videoOk g)
    let sc := g Reg.LAYERV_SCL_CTRL
    let t := rasterPending s n
    if !rangeOk then some .range
    else if l < 4 ∧ !(setPermits s (fget sc 3 0) m.code && setPermits s (fget sc 11 8) m.code) then some .owner
    else if l < 4 ∧ !tapsFit g ∧ !fbit sc 16 then some .linebuf
    else if s.enabled (.timing n) ∧
        320000 < rtTotalWith s n (headCostWith (s.setPend p none) n t
          (some (l, max (layerCost s n l t g) (layerCounted (s.setPend p none) n l t)))) then some .budget
    else none

/-! The scaler (R172 to R184). -/

/-- Three channels and alpha of one source line. -/
structure Row4 where
  c0 : List Nat
  c1 : List Nat
  c2 : List Nat
  al : List Nat
deriving DecidableEq, Repr

/-- A channel-wise map of a row. -/
def Row4.map (f : Nat → List Nat → List Nat) (r : Row4) : Row4 := ⟨f 0 r.c0, f 1 r.c1, f 2 r.c2, f 3 r.al⟩

/-- Little-endian words of `k` bytes from a byte list. -/
def wordsOf (k : Nat) (count : Nat) (b : List Nat) : List Nat :=
  (List.range count).map (fun i => ofLeBytes ((b.drop (k * i)).take k))

/-- Pixels of a packed row as channels (R139, R147, R173). -/
def packedRow (fmt w : Nat) (b : List Nat) : Row4 :=
  let px (l : List Px) : Row4 := ⟨l.map (·.r), l.map (·.g), l.map (·.b), l.map (·.a)⟩
  if fmt = 0x04 then px ((wordsOf 2 w b).map px565)
  else if fmt = 0x02 then px ((wordsOf 4 w b).map pxXrgb8888)
  else if fmt = 0x03 then px ((wordsOf 4 w b).map px2101010)
  else if fmt = 0x23 then
    let ws := wordsOf 4 w b
    ⟨ws.map (fun v => bits v 9 0 <<< 2), ws.map (fun v => bits v 19 10 <<< 2), ws.map (fun v => bits v 29 20 <<< 2),
      ws.map (fun _ => 1023)⟩
  else px ((wordsOf 4 w b).map pxArgb8888)

/-- Chroma of pixel x from the chroma samples of its line (R174). -/
def chromaAt (c : List Nat) (x : Nat) : Nat :=
  if x % 2 = 0 then sampleAt c ((x / 2 : Nat) : Int)
  else (sampleAt c ((x / 2 : Nat) : Int) + sampleAt c ((x / 2 + 1 : Nat) : Int) + 1) / 2

/-- Horizontally upsampled chroma of a line. -/
def chromaRow (c : List Nat) (w : Nat) : List Nat := (List.range w).map (chromaAt c)

/-- Chroma of line y from its line m = y/2 and the neighbours (R175). -/
def chromaV (coSited : Bool) (y : Nat) (before here after : List Nat) : List Nat :=
  (List.range here.length).map (fun x =>
    let b := before.getD x 0
    let h := here.getD x 0
    let a := after.getD x 0
    if coSited then (if y % 2 = 0 then h else (h + a + 1) / 2)
    else if y % 2 = 0 then (b + 3 * h + 2) / 4 else (3 * h + a + 2) / 4)

/-- One YCbYCr8_422 line (R139, R174). -/
def row422 (w : Nat) (b : List Nat) : Row4 :=
  let ws := wordsOf 4 (w / 2) b
  let y := ws.flatMap (fun v => [bits v 7 0 <<< 4, bits v 23 16 <<< 4])
  ⟨y, chromaRow (ws.map (fun v => bits v 15 8 <<< 4)) w, chromaRow (ws.map (fun v => bits v 31 24 <<< 4)) w,
    y.map (fun _ => 1023)⟩

/-- Horizontal pre-decimation of a row (R178). -/
def decimRow (b4 : Bool) (d : Nat) (r : Row4) : Row4 := r.map (fun _ l => boxAvg b4 d l)

/-- The average of rows, channel by channel (R178, R184). -/
def avgRows (b4 : Bool) (d : Nat) (rs : List Row4) : Row4 :=
  match rs with
  | [] => ⟨[], [], [], []⟩
  | r0 :: _ =>
    r0.map (fun ch l => (List.range l.length).map (fun x =>
      let get (r : Row4) : Nat := ((if ch = 0 then r.c0 else if ch = 1 then r.c1 else if ch = 2 then r.c2 else r.al).getD x 0)
      let sum := rs.foldl (fun acc r => acc + get r) 0
      if d = 0 then sum else if b4 then sum >>> d else (sum + 2 ^ (d - 1)) >>> d))

/-- A signed 10-bit coefficient of a set's word (R186). -/
def coef (s : State) (k : Nat) (off : Nat) (b : Bool) : Int :=
  let w := s.reg (0x148000 + 0x800 * k + off)
  sext (if b then fget w 25 16 else fget w 9 0) 10

/-- The eight horizontal taps of a phase (R186). -/
def hTaps (s : State) (k p : Nat) : List Int :=
  (List.range 8).map (fun t => coef s k (16 * p + 4 * (t / 2)) (t % 2 = 1))

/-- The six vertical taps of a phase (R186). -/
def vTaps (s : State) (k p : Nat) : List Int :=
  (List.range 6).map (fun t => coef s k (0x400 + 12 * p + 4 * (t / 2)) (t % 2 = 1))

/-- The horizontal filter or its bypass for destination pixels x0 … x0+w−1 (R177, R179, R181). -/
def hFilter (s : State) (g : Nat → Word) (b4 : Bool) (x0 w : Nat) (r : Row4) : Row4 :=
  let top (ch : Nat) : Nat := if ch = 3 then 1023 else 4095
  r.map (fun ch l => (List.range w).map (fun i =>
    if hBypass g then sampleAt l ((x0 + i : Nat) : Int)
    else
      let (n, p) := scalePos (sext (g Reg.LAYERV_H_INIT).toNat 32) (g Reg.LAYERV_H_STEP).toNat (x0 + i)
      filterTap b4 (top ch) (hTaps s (fget (g Reg.LAYERV_SCL_CTRL) 3 0) p) 0 3 n l))

/-- The vertical taps in use for destination line i: coefficient and decimated line (R179, R181, R183). -/
def vPlan (s : State) (g : Nat → Word) (i : Nat) : List (Int × Nat) :=
  let hd := cdiv (fget (g Reg.LAYER_SRC_SIZE) 29 16) (2 ^ decim (g Reg.LAYERV_V_STEP).toNat)
  let cl (j : Int) : Nat := (clampI j 0 ((hd : Int) - 1)).toNat
  if vBypass g then [(256, cl i)]
  else
    let (n, p) := scalePos (sext (g Reg.LAYERV_V_INIT).toNat 32) (g Reg.LAYERV_V_STEP).toNat i
    if !tapsFit g then [(256 - 4 * (p : Int), cl n), (4 * (p : Int), cl (n + 1))]
    else
      let c := vTaps s (fget (g Reg.LAYERV_SCL_CTRL) 11 8) p
      let v := fget (g Reg.LAYERV_SCL_CTRL) 13 12
      let (k0, cnt) := if v = 0 then (0, 6) else if v = 1 then (1, 4) else (1, 3)
      (List.range cnt).map (fun k => (c.getD (k + k0) 0, cl (n + ((k + k0 : Nat) : Int) - 2)))

/-- The vertical filter over planned rows, or the copy of a bypass (R179, R181). -/
def vFilter (g : Nat → Word) (b4 : Bool) (rs : List (Int × Row4)) : Row4 :=
  match rs with
  | [] => ⟨[], [], [], []⟩
  | (_, r0) :: _ =>
    if vBypass g then r0
    else r0.map (fun ch l => (List.range l.length).map (fun x =>
      let get (r : Row4) : Nat := ((if ch = 0 then r.c0 else if ch = 1 then r.c1 else if ch = 2 then r.c2 else r.al).getD x 0)
      filterOut b4 (if ch = 3 then 1023 else 4095) (rs.foldl (fun acc e => acc + e.1 * (get e.2 : Int)) (0 : Int))))

/-- The input matrix of a video layer in force (R191). -/
def cscOf (g : Nat → Word) : Matrix :=
  matrixOf (g Reg.LAYERV_CSC_M0) (g Reg.LAYERV_CSC_M1) (g Reg.LAYERV_CSC_M2) (g Reg.LAYERV_CSC_M3)
    (g Reg.LAYERV_CSC_M4) (g Reg.LAYERV_CSC_PRE0) (g Reg.LAYERV_CSC_PRE1) (g Reg.LAYERV_CSC_POST0)
    (g Reg.LAYERV_CSC_POST1)

/-- Stages 4 to 6 of a video layer for destination line i, pixels x0 … x0+w−1, from the source rows
(R172, R178 to R184, R192); `row` gives source line y of the rectangle. -/
def videoScale (s : State) (g : Nat → Word) (i x0 w : Nat) (row : Nat → Row4) : List Px :=
  let b4 := fbit (g Reg.LAYERV_SCL_CTRL) 24
  let fmt := fget (g Reg.LAYER_LAYER_FORMAT) 7 0
  let dh := decim (g Reg.LAYERV_H_STEP).toNat
  let dv := decim (g Reg.LAYERV_V_STEP).toNat
  let h := fget (g Reg.LAYER_SRC_SIZE) 29 16
  let pre (r : Row4) : Row4 := if b4 then r.map (fun ch l => l.map (fun v => if ch = 3 then v >>> 2 else v >>> 4)) else r
  let dec (j : Nat) : Row4 :=
    avgRows b4 dv ((List.range (2 ^ dv)).map (fun t => decimRow b4 dh (pre (row (min (2 ^ dv * j + t) (h - 1))))))
  let plan := (vPlan s g i).map (fun e => (e.1, dec e.2))
  let r : Row4 :=
    if (g Reg.LAYERV_H_STEP).toNat < 0x100000 then hFilter s g b4 x0 w (vFilter g b4 plan)
    else vFilter g b4 (plan.map (fun e => (e.1, hFilter s g b4 x0 w e.2)))
  let post (ch : Nat) (v : Nat) : Nat :=
    if b4 then (if ch = 3 then expA8 v else exp8 v) else v
  let m := cscOf g
  (List.range w).map (fun k =>
    let c := matrixPx m ⟨post 0 (r.c0.getD k 0), post 1 (r.c1.getD k 0), post 2 (r.c2.getD k 0)⟩
    let a := if fmt = 0x01 ∨ fmt = 0x03 then post 3 (r.al.getD k 0) else 1023
    ⟨c.r, c.g, c.b, a⟩)

/-- Source lines of the rectangle that destination line i needs (R178, R179). -/
def videoRows (s : State) (g : Nat → Word) (i : Nat) : List Nat :=
  let dv := decim (g Reg.LAYERV_V_STEP).toNat
  let h := fget (g Reg.LAYER_SRC_SIZE) 29 16
  ((vPlan s g i).flatMap (fun e => (List.range (2 ^ dv)).map (fun t => min (2 ^ dv * e.2 + t) (h - 1)))).eraseDups

/-! Fetching (R139, R140, R144). -/

/-- Destination rectangle of a layer: left, top, width, height (R141). -/
def dstRect (g : Nat → Word) (l : Nat) : Int × Int × Nat × Nat :=
  let sz := if l < 4 then g Reg.LAYER_DST_SIZE else g Reg.LAYER_SRC_SIZE
  (sext (fget (g Reg.LAYER_DST_POS) 15 0) 16, sext (fget (g Reg.LAYER_DST_POS) 31 16) 16, fget sz 13 0, fget sz 29 16)

/-- The visible pixels of a layer on a line: first pixel and count; none where it is not on the line (R134). -/
def visibleSpan (s : State) (n l line : Nat) : Option (Nat × Nat) :=
  let g (o : Nat) : Word := s.pr (.layer n l) o
  let hAct := ((s.head n).raster.hActive : Int)
  let (x, y, w, h) := if l = 14 then legendRect g else dstRect g l
  let y0 := (line : Int)
  if y ≤ y0 ∧ y0 < y + h then
    let a := if x < 0 then 0 else x
    let b := if x + w < hAct then x + w else hAct
    if a < b then some (a.toNat, (b - a).toNat) else none
  else none

/-- Committer of the values in force (R140, R151). -/
def committer (s : State) (n l : Nat) : Nat := s.pf (.layer n l) Reg.LAYER_LAYER_STATUS 15 8

/-- A read for layer l of head n, in the address space of R140. -/
def layerRead (s : State) (n l addr len : Nat) : State × Except AccErr (List Nat) :=
  ownerRead s (committer s n l) n (l == 15) addr len

/-- Bytes of several reads, or the first error. -/
def layerReads (s : State) (n l : Nat) : List (Nat × Nat) → State × Except AccErr (List (List Nat))
  | [] => (s, .ok [])
  | (a, len) :: r =>
    match layerRead s n l a len with
    | (s, .error e) => (s, .error e)
    | (s, .ok b) =>
      match layerReads s n l r with
      | (s, .error e) => (s, .error e)
      | (s, .ok bs) => (s, .ok (b :: bs))

/-- One source row of a video layer (R139, R173 to R175): the reads it needs and how to build it. -/
def videoRowReads (g : Nat → Word) (y : Nat) : List (Nat × Nat) :=
  let fmt := fget (g Reg.LAYER_LAYER_FORMAT) 7 0
  let w := fget (g Reg.LAYER_SRC_SIZE) 13 0
  let h := fget (g Reg.LAYER_SRC_SIZE) 29 16
  let sx := fget (g Reg.LAYER_SRC_POS) 13 0
  let sy := fget (g Reg.LAYER_SRC_POS) 29 16
  let pitch := fget (g Reg.LAYER_PITCH) 23 0
  let buf := (g Reg.LAYER_BUF_ADDR_LO).toNat + 2 ^ 32 * (g Reg.LAYER_BUF_ADDR_HI).toNat
  let aux := (g Reg.LAYER_AUX_ADDR_LO).toNat + 2 ^ 32 * (g Reg.LAYER_AUX_ADDR_HI).toNat
  let bpp := planeBpp fmt
  let luma := (buf + (sy + y) * pitch + sx * bpp, w * bpp)
  if fmt = 0x20 ∨ fmt = 0x21 then
    let m := y / 2
    let top := h / 2 - 1
    let c (k : Nat) : Nat × Nat := (aux + (sy / 2 + k) * pitch + sx * bpp, w * bpp)
    [luma, c (m - 1), c m, c (min (m + 1) top)]
  else [luma]

/-- Build a source row from the bytes of its reads. -/
def videoRowOf (g : Nat → Word) (y : Nat) (bs : List (List Nat)) : Row4 :=
  let fmt := fget (g Reg.LAYER_LAYER_FORMAT) 7 0
  let w := fget (g Reg.LAYER_SRC_SIZE) 13 0
  let b (k : Nat) : List Nat := bs.getD k []
  if fmt = 0x20 ∨ fmt = 0x21 then
    let k := planeBpp fmt
    let ex (v : Nat) : Nat := if fmt = 0x20 then v <<< 4 else (v % 1024) <<< 2
    let ys := (wordsOf k w (b 0)).map ex
    let pl (r odd : Nat) : List Nat :=
      chromaRow ((List.range (w / 2)).map (fun i => ex ((wordsOf k w (b r)).getD (2 * i + odd) 0))) w
    let co := fbit (g Reg.LAYERV_SCL_CTRL) 20
    ⟨ys, chromaV co y (pl 1 0) (pl 2 0) (pl 3 0), chromaV co y (pl 1 1) (pl 2 1) (pl 3 1), ys.map (fun _ => 1023)⟩
  else if fmt = 0x22 then row422 w (b 0)
  else packedRow fmt w (b 0)

/-- Fetch source rows of a video layer. -/
def fetchRows (s : State) (n l : Nat) (g : Nat → Word) : List Nat → State × Except AccErr (List (Nat × Row4))
  | [] => (s, .ok [])
  | y :: r =>
    match layerReads s n l (videoRowReads g y) with
    | (s, .error e) => (s, .error e)
    | (s, .ok bs) =>
      match fetchRows s n l g r with
      | (s, .error e) => (s, .error e)
      | (s, .ok rows) => (s, .ok ((y, videoRowOf g y bs) :: rows))

/-- One pixel of a raw graphic format (R139, R147). -/
def rawPx (fmt : Nat) (tint : Word) (pal : List Nat) (v : Nat) : Px :=
  if fmt = 0x02 then pxXrgb8888 v
  else if fmt = 0x03 then px2101010 v
  else if fmt = 0x04 then px565 v
  else if fmt = 0x05 then { px2101010 tint.toNat with a := expA8 v }
  else if fmt = 0x06 then pxArgb8888 (pal.getD v 0)
  else pxArgb8888 v

/-- The pixels of layer l on a line (R144): video, raw and Kerf formats. -/
def fetchLine (s : State) (n l line : Nat) : State × Except AccErr (Nat × List Px) :=
  match visibleSpan s n l line with
  | none => (s, .ok (0, []))
  | some (x0, w) =>
    let g (o : Nat) : Word := s.pr (.layer n l) o
    let fmt := fget (g Reg.LAYER_LAYER_FORMAT) 7 0
    let (dx, dy, _, _) := dstRect g l
    let i := ((line : Int) - dy).toNat
    let sx0 := ((x0 : Int) - dx).toNat
    if l < 4 then
      match fetchRows s n l g (videoRows s g i) with
      | (s, .error e) => (s, .error e)
      | (s', .ok rows) =>
        (s', .ok (x0, videoScale s g i sx0 w
          (fun y => ((rows.find? (fun e => e.1 == y)).map (·.2)).getD ⟨[], [], [], []⟩)))
    else
      let x := fget (g Reg.LAYER_SRC_POS) 13 0 + sx0
      let y := fget (g Reg.LAYER_SRC_POS) 29 16 + i
      let pitch := fget (g Reg.LAYER_PITCH) 23 0
      let buf := (g Reg.LAYER_BUF_ADDR_LO).toNat + 2 ^ 32 * (g Reg.LAYER_BUF_ADDR_HI).toNat
      let aux := (g Reg.LAYER_AUX_ADDR_LO).toNat + 2 ^ 32 * (g Reg.LAYER_AUX_ADDR_HI).toNat
      if isKerf fmt then
        match kerfRow s (fun s a len => layerRead s n l a len)
            { kind := kerfOfFormat fmt, base := buf, map := aux, pitch := pitch,
              clear := (g Reg.LAYER_CONST_COLOUR).toNat, src := n } y x w with
        | (s, .error e) => (s, .error e)
        | (s, .ok vs) => (s, .ok (x0, vs.map (fun v => if fmt < 0x13 then pxArgb8888 v else px2101010 v)))
      else
        let bpp := planeBpp fmt
        match layerRead s n l (buf + y * pitch + x * bpp) (w * bpp) with
        | (s, .error e) => (s, .error e)
        | (s, .ok b) =>
          let pal := aget [] (s.head n).palettes l
          (s, .ok (x0, (wordsOf bpp w b).map (rawPx fmt (g Reg.LAYER_CONST_COLOUR) pal)))

/-! Composition (R134, R148 to R150). -/

/-- How a layer blends: its code and plane alpha. -/
def layerBlend (s : State) (n l : Nat) : Nat × Nat :=
  (fget (s.pr (.layer n l) Reg.LAYER_LAYER_CTRL) 5 4, fget (s.pr (.layer n l) Reg.LAYER_PLANE_ALPHA) 9 0)

/-- One layer pixel onto the destination; a FILL pixel is straight alpha without plane alpha (R156). -/
def composeLayer (s : State) (n l : Nat) (fill : Bool) (p : Px) (d : Rgb) : Rgb :=
  if fill then blendPx false p d
  else
    let (bl, pa) := layerBlend s n l
    if bl = 2 then
      blendLegacy p (if fget (s.pr (.layer n l) Reg.LAYER_LAYER_FORMAT) 7 0 = 1 then p.a >>> 2 else pa >>> 2) d
    else blendPx (bl = 1) (planeAlpha pa (bl = 1) p) d

/-- Enabled layers in composition order: L0–L14 by Z then number, then L15 (R134). -/
def order (s : State) (n : Nat) : List Nat :=
  let z (l : Nat) : Nat := fget (s.pr (.layer n l) Reg.LAYER_LAYER_CTRL) 19 16
  (List.range 15).flatMap (fun q => keysWhere 15 (fun l => z l == q && layerActive s n l)) ++
    (if layerActive s n 15 then [15] else [])

/-- The background colour in force (R157). -/
def background (s : State) (n : Nat) : Rgb :=
  let a := s.pr (.composer n) Reg.COMPOSER_BG_COLOUR0
  ⟨fget a 11 0, fget a 27 16, fget (s.pr (.composer n) Reg.COMPOSER_BG_COLOUR1) 11 0⟩

/-- The FILL colour of a layer (R142, R156). -/
def fillPx (s : State) (n l : Nat) : Px := px2101010 (s.pr (.layer n l) Reg.LAYER_FILL).toNat

/-- The pixel a fetched line gives at x. -/
def FetchedLine.at (fl : FetchedLine) (x : Nat) : Option Px :=
  if fl.x0 ≤ x then fl.px[x - fl.x0]? else none

/-- The fetched line of a source for a line number. -/
def findLine (h : HeadSt) (src : FetchSrc) (line : Nat) : Option FetchedLine :=
  h.lines.find? (fun f => f.src == src && f.line == line)

/-- A line made of the layer's FILL over its visible span (R154 to R156). -/
def fillLine (s : State) (n l line : Nat) : FetchedLine :=
  let (x0, w) := (visibleSpan s n l line).getD (0, 0)
  ⟨.layer l, line, x0, List.replicate w (fillPx s n l), true⟩

/-- State of a run on a line (R164). -/
def runState (r : Run) (line : Nat) : LineSt := ((r.states.find? (fun e => e.1 == line)).map (·.2)).getD .full

/-- A run is read from the veneer on a line: usable, not fallen back (R164, R168). -/
def runReads (r : Run) (line : Nat) : Bool :=
  r.usable && runState r line != .full &&
    !(r.fallback.any (fun f => f.1 == line / 8 && f.2 ≤ line))

/-- The run of a head that covers a layer on a line. -/
def coveredBy (h : HeadSt) (l line : Nat) : Option Run :=
  h.runs.find? (fun r => r.layers.contains l && runReads r line)

/-- What the composer blends for one line, in order: a layer's line, or the veneer line of a run (R163,
R164); missing lines are already FILL. -/
inductive Item where
  | layer (l : Nat) (f : FetchedLine)
  | veneer (r : Run) (f : FetchedLine)
  | emptyRun (r : Run)
deriving DecidableEq, Repr

/-- The line of a layer at its deadline: fetched, or FILL; true where it is missing (R145, R155, R156). -/
def layerItem (s : State) (n l line : Nat) : FetchedLine × Bool :=
  let h := s.head n
  if aget 8193 h.fillFrom l ≤ line then (fillLine s n l line, false)
  else if (visibleSpan s n l line).isNone then (⟨.layer l, line, 0, [], false⟩, false)
  else match findLine h (.layer l) line with
    | some f => (f, false)
    | none => (fillLine s n l line, true)

/-- The items of a line and the missing layers, with 16 for a missing veneer line (R156). -/
def lineItems (s : State) (n line : Nat) : List Nat → List Item × List Nat
  | [] => ([], [])
  | l :: rest =>
    let (its, miss) := lineItems s n line rest
    let h := s.head n
    match coveredBy h l line with
    | none =>
      let (f, m) := layerItem s n l line
      (.layer l f :: its, if m then l :: miss else miss)
    | some r =>
      match runState r line, findLine h (.veneer r.idx) line with
      | .empty, _ => if r.layers.head? = some l then (.emptyRun r :: its, miss) else (its, miss)
      | _, some f => if r.layers.head? = some l then (.veneer r f :: its, miss) else (its, miss)
      | _, none => (.layer l (fillLine s n l line) :: its, l :: 16 :: miss)

/-- One item at a pixel. -/
def composeItem (s : State) (n x : Nat) (d : Rgb) : Item → Rgb
  | .layer l f =>
    match f.at x with
    | some p => composeLayer s n l f.fill p d
    | none => d
  | .veneer _ f =>
    match f.at x with
    | some p => blendPx true p d
    | none => d
  | .emptyRun _ => d

/-- The 12-bit composition of a pixel (R134). -/
def composePx (s : State) (n x : Nat) (its : List Item) : Rgb :=
  its.foldl (fun d i => composeItem s n x d i) (background s n)

/-- Value of the bottom run at a pixel: the destination after its layers, alpha 1023 (R165). -/
def bottomPx (s : State) (n x : Nat) (r : Run) (its : List Item) : Px :=
  let own := its.filter (fun i => match i with | .layer l _ => r.layers.contains l | _ => false)
  let d := own.foldl (fun d i => composeItem s n x d i) r.bg
  ⟨d.r, d.g, d.b, 1023⟩

/-- Value of a floating run at a pixel; none where it is ineligible (R165). -/
def floatingPx (s : State) (n x : Nat) (r : Run) (its : List Item) : Option Px :=
  let ps := its.filterMap (fun i => match i with
    | .layer l f =>
      if r.layers.contains l then
        (f.at x).map (fun p =>
          let (bl, pa) := layerBlend s n l
          (planeAlpha pa (bl == 1) p, bl == 1))
      else none
    | _ => none)
  (floatPixel ps .ident ⟨0, 0, 0⟩ 0).map (fun e => ⟨e.1.r, e.1.g, e.1.b, e.2⟩)

/-- The values of a run on a line, and its line state (R164, R165). -/
def runLine (s : State) (n line : Nat) (r : Run) (its : List Item) : LineSt × List Px :=
  let w := (s.head n).raster.hActive
  if r.layers.all (fun l => (visibleSpan s n l line).isNone) then (.empty, [])
  else if r.idx = 0 then (.veneer, (List.range w).map (fun x => bottomPx s n x r its))
  else
    let v := (List.range w).map (fun x => floatingPx s n x r its)
    if v.any (·.isNone) then (.full, []) else (.veneer, v.map (·.getD {}))

/-! Output (R112 to R118, R508). -/

/-- The output matrix in force (R113). -/
def outMatrix (s : State) (n : Nat) : Matrix :=
  let g (o : Nat) : Word := s.pr (.composer n) o
  matrixOf (g Reg.COMPOSER_OUT_M0) (g Reg.COMPOSER_OUT_M1) (g Reg.COMPOSER_OUT_M2) (g Reg.COMPOSER_OUT_M3)
    (g Reg.COMPOSER_OUT_M4) (g Reg.COMPOSER_OUT_PRE0) (g Reg.COMPOSER_OUT_PRE1) (g Reg.COMPOSER_OUT_POST0)
    (g Reg.COMPOSER_OUT_POST1)

/-- Dither of a pixel to OUT_BPC (R117). -/
def ditherPx (bpc : Nat) (ordered : Bool) (x y : Nat) (p : Rgb) : Rgb :=
  ⟨dither p.r x y bpc ordered, dither p.g x y bpc ordered, dither p.b x y bpc ordered⟩

/-- The Safe picture at a pixel (R508). -/
def safePx (s : State) (n x y : Nat) (its : List Item) : Rgb :=
  let t := (s.head n).raster
  let bpc := bpcOf (outBpc s n)
  let b0 := s.pr .dev Reg.DEV_SAFE_BG0
  let e0 := s.pr .dev Reg.DEV_SAFE_BORDER0
  let bg : Rgb := ⟨fget b0 11 0, fget b0 27 16, fget (s.pr .dev Reg.DEV_SAFE_BG1) 11 0⟩
  let edge : Rgb := ⟨fget e0 11 0, fget e0 27 16, fget (s.pr .dev Reg.DEV_SAFE_BORDER1) 11 0⟩
  let d := its.foldl (fun d i => match i with
    | .layer 15 _ => composeItem s n x d i
    | _ => d) bg
  let v := if x < 16 ∨ y < 16 ∨ t.hActive ≤ x + 16 ∨ t.vActive ≤ y + 16 then edge else d
  ditherPx bpc false x y v

/-- The pixel at the snoop point (R112, R118). -/
def outPx (s : State) (n x y : Nat) (its : List Item) : Rgb :=
  if !s.enabled (.composer n) then ⟨0, 0, 0⟩
  else
    let c := s.pr (.composer n) Reg.COMPOSER_DITHER_CFG
    ditherPx (bpcOf (fget c 1 0)) (fbit c 4) x y (matrixPx (outMatrix s n) (composePx s n x its))

end Sys2Proof.Machine
end

