-- ==== Sys2Proof/Machine/CvuLayer.lean ====
section
/-!
DEFINITION. Machine/CvuLayer.lean: the CVU sources LAYER and LEGEND (R515, R516): the values of a layer as they
enter R148, line by line of a head.
-/
namespace Sys2Proof.Machine

/-- The words of one layer pixel (R515). -/
def cvuPixelWords (p : Px) : List Nat := [65536 * p.g + p.r, 65536 * p.a + p.b]

/-- The layer of a CVU with source LAYER or LEGEND. -/
def cvuLayerNo (s : State) (u : Nat) : Nat := if cvuSource s u = 3 then 14 else cvuLayer s u

/-- The fetched line of a layer among the items of a line. -/
def itemOf (l : Nat) : List Item → Option FetchedLine
  | [] => none
  | .layer k f :: r => if k = l then some f else itemOf l r
  | _ :: r => itemOf l r

/-- A line of head n is composed: the CVUs that follow a layer of it pack their part, and latch with the last
active line (R515, R516). -/
def cvuLayerLine (s : State) (n line : Nat) (its : List Item) : State :=
  (cvusOf s 2 ++ cvusOf s 3).foldl (fun s u =>
    if cvuHead s u = n ∧ (s.cvu u).running then
      let l := cvuLayerNo s u
      let (x, y, w, h) := cvuRect s u
      let c := s.cvu u
      let s := s.setCvu u { c with
        active := c.active || layerActive s n l,
        covered := c.covered || (layerActive s n l && (coveredBy (s.head n) l line).isSome) }
      let s :=
        if y ≤ line ∧ line < y + h then
          let f := itemOf l its
          let px (i : Nat) : Px := (f.bind (fun f => f.at (x + i))).getD {}
          let filled := match f with
            | some f => f.fill && (List.range w).any (fun i => (f.at (x + i)).isSome)
            | none => false
          cvuPack s u ((List.range w).flatMap (fun i => cvuPixelWords (px i))) filled
        else s
      if line + 1 = (s.head n).raster.vActive then
        let c := s.cvu u
        let skip := !c.active || c.covered
        let s := if skip then s.setCvu u { c with crc := 0xFFFFFFFF, words := 0, partialSeen := false } else s
        cvuLatch s u (s.pr (.timing n) Reg.TIMING_FRAME_COUNT).toNat skip
      else s
    else s) s

end Sys2Proof.Machine
end

