-- ==== Sys2Proof/Machine/Legend.lean ====
section
/-!
DEFINITION. Machine/Legend.lean: point records, captures and drawing of the legend layer (R194 to R229).
-/
namespace Sys2Proof.Machine

/-- Write the Legend engine's state. -/
def State.setLegend (s : State) (g : LegendSt) : State := { s with legend := g }

/-- Base of the point table (R195). -/
def ptBase (s : State) : Nat := s.pair .legend Reg.LEGEND_PT_BASE_LO

/-- Agent code of the Legend engine (R599 numbering). -/
def legendAgent : Nat := 0x0C

/-! Point records (R198 to R205). -/

/-- The outcome codes of UPD_RESULT (R195). -/
inductive PointResult where
  | applied | owner | revoked | bad | disabled | error
deriving DecidableEq, Repr

def PointResult.code : PointResult → Nat
  | .applied => 0 | .owner => 1 | .revoked => 2 | .bad => 3 | .disabled => 4 | .error => 5

/-- The checks made when a record is accepted, in their order (R199, R205). -/
def pointCheck (s : State) (r : PointRec) : Option PointResult :=
  if !s.enabled .legend then some .disabled
  else if bits r.word 63 48 ≠ 0 ∨ bits r.word 23 20 ≠ 0 ∨ bits r.word 19 18 = 3 then some .bad
  else if rangeOwned s 0 (bits r.word 17 0) r.code then none
  else some (if r.hadRange then .revoked else .owner)

/-- A completion record waits for the completion ring of a ring set (R387, R388). -/
def queueCompletion (s : State) (rs : Nat) (r : CqRec) : State :=
  let x := s.ring rs
  s.setRing rs { x with cqWait := x.cqWait ++ [r] }

/-- The completion of a point-update descriptor (R201, R327). -/
def pointCompletion (s : State) (j : PointJob) : State :=
  queueCompletion s j.func { slot := none, gen := j.gen, tag := j.tag, status := if j.dropped = 0 then 0 else 1,
                             flags := 0, sq := 3, detail := j.dropped }

/-- The completion of a point-update descriptor once its last record is settled (R201). -/
def pointJobSettle (s : State) (n : Nat) (drop : Bool) : State :=
  match s.legend.jobs.find? (fun j => j.id == n) with
  | none => s
  | some j =>
    let j := { j with left := j.left - 1, dropped := j.dropped + b2n drop }
    let rest := s.legend.jobs.eraseP (fun x => x.id == n)
    if j.left = 0 then
      let s := s.setLegend { s.legend with jobs := rest }
      if j.cq then pointCompletion s j else s
    else s.setLegend { s.legend with jobs := s.legend.jobs.map (fun x => if x.id = n then j else x) }

/-- A settled record: counters, UPD_RESULT of the register path, DROP, the log, its descriptor (R199, R201). -/
def pointSettle (s : State) (r : PointRec) (res : PointResult) : State :=
  let drop := res != .applied
  let s := if r.job.isNone then s.setPr .legend Reg.LEGEND_UPD_RESULT (w32 res.code) else s
  let s := if drop then (s.count .legend Reg.LEGEND_DROPPED).event .legend 0 else s
  let s := if res = .owner ∨ res = .revoked then
      let key := 0x1000000 + r.code
      let last := aget 0 s.log.refusalAt key
      if last = 0 ∨ last - 1 + 1000000 ≤ s.devtime then
        let s := s.logAdd .refusal (pageBase .legend) (r.code * 16 + (if res = .owner then 3 else 7)) 0
        { s with log := { s.log with refusalAt := aset 0 s.log.refusalAt key (s.devtime + 1) } }
      else s
    else s
  match r.job with
  | some n => pointJobSettle s n drop
  | none => s

/-- The descriptor of an old generation that a record belongs to (R390). -/
def staleRecord (s : State) (r : PointRec) : Option PointJob :=
  (s.legend.jobs.find? (fun j => r.job == some j.id)).filter (fun j => staleGen s j.func j.gen)

/-- One record is accepted: counted, and checked; a record that fails is dropped, and one of an old generation is
discarded (R195, R199, R390). -/
def pointAccept (s : State) (r : PointRec) : State :=
  match staleRecord s r with
  | some j => pointJobSettle (countStale s j.func) j.id false
  | none =>
  let s := s.count .legend Reg.LEGEND_ACCEPTED
  match pointCheck s r with
  | some res => pointSettle s r res
  | none => s.setLegend { s.legend with accepted := s.legend.accepted ++ [r] }

/-- The new entry of an applied record (R194, R199). -/
def pointEntry (old rec : Nat) : Nat :=
  let op := bits rec 19 18
  let value := if op = 2 then bits old 15 0 else bits rec 47 32
  let qual := if op = 1 then bits old 23 16 else bits rec 31 24
  2 ^ 24 * ((bits old 31 24 + 1) % 256) + 2 ^ 16 * qual + value

/-- The entry read of the oldest accepted record returns: the entry is replaced, or the record is dropped
with ERROR and fault bit 1 (R199, R228). -/
def pointApply (s : State) : State :=
  match s.legend.accepted with
  | [] => s
  | r :: rest =>
    let s := s.setLegend { s.legend with accepted := rest }
    let a := ptBase s + 4 * bits r.word 17 0
    match busRead s legendAgent false a 4 with
    | (s, .error _) => pointSettle (raiseFault s .legend 1) r .error
    | (s, .ok b) =>
      let (s, _) := busWrite s legendAgent false a (leBytes 4 (pointEntry (ofLeBytes b) r.word))
      pointSettle s r .applied

/-- Every accepted record takes effect, as many times as there are records (R221). -/
def pointFlush : Nat → State → State
  | 0, s => s
  | k + 1, s => pointFlush k (pointApply s)

/-! Captures (R219 to R221, R229). -/

/-- The four words of a style (t = 1) or glyph (t = 2) entry in force. -/
def tableEntry (s : State) (t e : Nat) : List Word :=
  let b := if t = 1 then 0x170000 else 0x180000
  (List.range 4).map (fun w => s.reg (b + 16 * e + 4 * w))

/-- FRAME_COUNT the frame being prepared or scanned carries from its line 0 (R218). -/
def frameNumber (s : State) (n : Nat) : Nat :=
  (s.pr (.timing n) Reg.TIMING_FRAME_COUNT + (if (s.head n).latched then 1 else 0)).toNat

/-- The capture of a cell from its word and its point entry; none for a cell drawn empty and counted. An
entry that could not be read is taken as VALUE 0 and QUAL 1, and the cell is empty unless its style shows
staleness (R206, R210, R212, R229). -/
def captureCell (s : State) (n col cell : Nat) (pt : Option Nat) : Option CellCap :=
  let g (o : Nat) : Word := s.pr (.layer n 14) o
  let code := s.pf (.layer n 14) Reg.LAYER_LAYER_STATUS 15 8
  let ty := bits cell 1 0
  let st := bits cell 31 20
  let w (k : Nat) : Word := (tableEntry s 1 st).getD k 0
  if ty = 0 then some ⟨col, 0, []⟩
  else if ty = 3 ∨ fget (w 0) 1 0 ≠ ty then none
  else if !(rangeShown s 0 (bits cell 19 2) code && rangeShown s 1 st code) then none
  else
    let staleShown := if ty = 1 then fbit (w 1) 13 else fbit (w 1) 31
    match pt, staleShown with
    | none, false => some ⟨col, 0, []⟩
    | _, _ =>
      let e := pt.getD 0x00010000
      match styleGlyphs (w 0) (w 1) (w 2) (w 3) (bits e 15 0) (bits e 23 16) (fun k => blinkOn g k (frameNumber s n)) with
      | none => none
      | some gs =>
        if gs.all (fun x => rangeShown s 2 x.2 code) then
          some ⟨col, fget (w 3) 29 0, gs.map (fun x => ⟨x.1, x.2, (tableEntry s 2 x.2).map (·.toNat)⟩)⟩
        else none

/-- Count a bad cell of a head (R207, R228). -/
def badCell (s : State) (n : Nat) : State :=
  (s.count (.layer n 14) Reg.LAYERL_LG_BAD_CELLS).event .legend 1

/-! Glyphs (R215). -/

/-- The resident copy of a glyph. -/
def residentGlyph (s : State) (gl : CellGlyph) : Option GlyphRes :=
  s.legend.cache.find? (fun r => r.glyph == gl.glyph && r.words == gl.words)

/-- Blocks of a Kerf glyph's stored bytes whose code or bitstream is bad: block number, map byte, cause (R215, R245). -/
def glyphBad (words bytes : List Nat) : List (Nat × Nat × Nat) :=
  if glyphKerf words then
    (List.range (glyphW words / 8 * (glyphH words / 8))).filterMap (fun i =>
      match kerfDecode .l8 0 (bytes.getD i 0) ((bytes.drop (64 + 256 * i)).take 256) with
      | .ok _ => none
      | .error c => some (i, bytes.getD i 0, c))
  else []

/-- A cell that uses a resident glyph with a bad block is counted (R215, R246). -/
def countBadGlyphs (s : State) (n : Nat) (c : CellCap) : State :=
  if c.glyphs.any (fun gl => match residentGlyph s gl with | some r => !(glyphBad r.words r.bytes).isEmpty | none => false)
  then badCell s n else s

/-- Capture the visible cells of a row from its cell words. -/
def captureCells (s : State) (n : Nat) : List (Nat × Nat) → State × List CellCap
  | [] => (s, [])
  | (col, cell) :: r =>
    let (s, pt) :=
      if bits cell 1 0 = 1 ∨ bits cell 1 0 = 2 then
        match busRead s legendAgent false (ptBase s + 4 * bits cell 19 2) 4 with
        | (s, .ok b) => (s, some (ofLeBytes b))
        | (s, .error _) => (raiseFault s .legend 0, none)
      else (s, some 0)
    let (s, caps) := match captureCell s n col cell pt with
      | some c => (countBadGlyphs s n c, [c])
      | none => (badCell s n, [⟨col, 0, []⟩])
    let (s, rest) := captureCells s n r
    (s, caps ++ rest)

/-- Visible columns of the grid of head n (R209). -/
def visibleCols (s : State) (n : Nat) : List Nat :=
  let g (o : Nat) : Word := s.pr (.layer n 14) o
  let (cw, _, cols, _) := legendCell g
  let (x, _) := legendOrigin g
  let top := (rasterInForce s n).hActive
  (List.range cols).filter (fun c => let a := x + ((c * cw : Nat) : Int); decide (a < top) && decide (0 < a + cw))

/-- Row of the grid that holds a line, and the row's visible lines (R209). -/
def legendRowOf (s : State) (n line : Nat) : Option Nat :=
  let g (o : Nat) : Word := s.pr (.layer n 14) o
  let (_, ch, _, rows) := legendCell g
  let (_, y) := legendOrigin g
  let k := (line : Int) - y
  if 0 ≤ k ∧ k < ((ch * rows : Nat) : Int) then some (k.toNat / ch) else none

/-- Active lines of a cell row. -/
def legendRowSpan (s : State) (n r : Nat) : List Nat :=
  let g (o : Nat) : Word := s.pr (.layer n 14) o
  let (_, ch, _, _) := legendCell g
  let (_, y) := legendOrigin g
  (List.range ch).filterMap (fun i =>
    let l := y + ((r * ch + i : Nat) : Int)
    if 0 ≤ l ∧ l < (rasterInForce s n).vActive then some l.toNat else none)

/-- Active lines of the cell row that holds a line (R154, R228). -/
def legendRowLines (s : State) (n line : Nat) : List Nat :=
  match legendRowOf s n line with
  | some r => legendRowSpan s n r
  | none => [line]

/-! Drawing (R216, R217). -/

/-- The pixel (gx, gy) of a glyph's stored bytes (R215, R217). -/
def glyphPx (words bytes : List Nat) (tint gx gy : Nat) : Px :=
  if glyphKerf words then
    let bw := glyphW words / 8
    let i := gy / 8 * bw + gx / 8
    match kerfDecode .l8 0 (bytes.getD i 0) ((bytes.drop (64 + 256 * i)).take 256) with
    | .ok px => pxArgb8888 (px.getD (gy % 8 * 8 + gx % 8) 0)
    | .error _ => {}
  else if glyphArgb words then pxArgb8888 (ofLeBytes ((bytes.drop (gy * 256 + 4 * gx)).take 4))
  else { px2101010 tint with a := expA8 (bytes.getD (gy * 64 + gx) 0) }

/-- The pixel of a captured cell at cell pixel (cx, cy): the glyph of the highest position that covers it
(R216). -/
def cellPx (s : State) (c : CellCap) (cx cy : Nat) : Px :=
  let hit (gl : CellGlyph) : Option Px :=
    let ax := sext (bits (gl.words.getD 3 0) 7 0) 8
    let ay := sext (bits (gl.words.getD 3 0) 15 8) 8
    let gx := (cx : Int) - gl.x + ax
    let gy := (cy : Int) + ay
    if 0 ≤ gx ∧ gx < glyphW gl.words ∧ 0 ≤ gy ∧ gy < glyphH gl.words then
      some (match residentGlyph s gl with
        | some r => glyphPx gl.words r.bytes c.tint gx.toNat gy.toNat
        | none => {})
    else none
  ((c.glyphs.reverse.filterMap hit).head?).getD {}

/-- A glyph of a captured row whose fetch failed (R224). -/
def glyphFailed (s : State) (n r g : Nat) : Bool := s.legend.failed.contains (n, r, g)

/-- Whether every glyph a row needs is resident or known to have failed (R223). -/
def rowReady (s : State) (sn : Snap) : Bool :=
  sn.cells.all (fun c => c.glyphs.all (fun gl => (residentGlyph s gl).isSome || glyphFailed s sn.head sn.row gl.glyph))

/-- The line of L14: none while the row has no capture or a glyph is not resident (R217, R223, R228). -/
def legendLine (s : State) (n line : Nat) : State × Except AccErr (Nat × List Px) :=
  match visibleSpan s n 14 line, legendRowOf s n line with
  | some (x0, w), some r =>
    if !s.enabled .legend then (s, .ok (x0, List.replicate w {}))
    else match s.legend.snaps.find? (fun x => x.head == n && x.row == r) with
      | none => (s, .error (.uncorrectable 0))
      | some sn =>
        if !rowReady s sn then (s, .error (.uncorrectable 0))
        else
          let g (o : Nat) : Word := s.pr (.layer n 14) o
          let (cw, ch, _, _) := legendCell g
          let (ox, oy) := legendOrigin g
          let pre := fget (g Reg.LAYER_LAYER_CTRL) 5 4 == 1
          let cy := ((line : Int) - oy).toNat % ch
          let px := (List.range w).map (fun i =>
            let k := (((x0 + i : Nat) : Int) - ox).toNat
            match sn.cells.find? (fun c => c.col == k / cw) with
            | none => ({} : Px)
            | some c =>
              let c := { c with glyphs := if c.glyphs.any (fun gl => glyphFailed s n r gl.glyph) then [] else c.glyphs }
              let p := cellPx s c (k % cw) cy
              if pre then
                let m (v : Nat) : Nat := (v * (p.a + (p.a >>> 9)) + 512) >>> 10
                ⟨m p.r, m p.g, m p.b, p.a⟩
              else p)
          (s, .ok (x0, px))
  | _, _ => (s, .ok (0, []))

/-- L14 is missing on a line because of glyph data (R223). -/
def legendMiss (s : State) (n line : Nat) : State :=
  match legendRowOf s n line with
  | none => s
  | some r =>
    match s.legend.snaps.find? (fun x => x.head == n && x.row == r) with
    | some sn =>
      if rowReady s sn then s
      else (s.count (.layer n 14) Reg.LAYERL_LG_MISS_LINES).event .legend 2
    | none => s

/-! The glyph cache (R223 to R226). -/

/-- Glyphs a captured row still needs. -/
def neededGlyph (s : State) (g : Nat) : Bool :=
  s.legend.snaps.any (fun sn => sn.cells.any (fun c => c.glyphs.any (fun gl => gl.glyph == g)))

/-- Stored bytes in whole 64-byte lines. -/
def cacheSize (c : List GlyphRes) : Nat := c.foldl (fun acc r => acc + cdiv r.bytes.length 64 * 64) 0

/-- Evict least recently used glyphs that no captured row needs until `need` bytes fit in 2 MiB. -/
def makeRoom (s : State) (need : Nat) : List GlyphRes → List GlyphRes
  | [] => []
  | r :: rest =>
    if cacheSize (r :: rest) + need ≤ 2097152 then r :: rest
    else if neededGlyph s r.glyph then r :: makeRoom s (need + cdiv r.bytes.length 64 * 64) rest
    else makeRoom s need rest

/-- Tokens of a head's fill bucket now, in 1/1200 byte (R225): one MB/s is 1/1200 byte per FCLK cycle. -/
def fillTokens (s : State) (n : Nat) : Nat :=
  let (t, c) := aget (65536 * 1200, 0) s.legend.tokens n
  min (65536 * 1200) (t + (s.fclk - c) * s.pf (.layer n 14) Reg.LAYERL_LG_FILL 15 0)

/-- Drop the resident copies of a glyph (R226). -/
def dropGlyph (s : State) (g : Nat) : State :=
  s.setLegend { s.legend with cache := s.legend.cache.filter (fun r => r.glyph != g) }

/-- The cells of a head's captured rows that use a glyph are drawn empty and counted; fault bit 3 (R224). -/
def glyphFail (s : State) (n g : Nat) : State :=
  let rows := s.legend.snaps.filter (fun sn => sn.head == n && sn.cells.any (fun c => c.glyphs.any (fun gl => gl.glyph == g)))
  let s := rows.foldl (fun s sn =>
    let k := (sn.cells.filter (fun c => c.glyphs.any (fun gl => gl.glyph == g))).length
    let s := (List.range k).foldl (fun s _ => badCell s n) s
    s.setLegend { s.legend with failed := s.legend.failed ++ [(n, sn.row, g)] }) s
  raiseFault (dropGlyph s g) .legend 3

/-- The bad blocks of a glyph that a fill brought are recorded, and the captured cells of the head that use it counted
(R215, R246, R249). -/
def glyphDamage (s : State) (n : Nat) (gl : CellGlyph) (b : List Nat) : State :=
  let bad := glyphBad gl.words b
  let s := bad.foldl (fun s x => kerfError s 0x12 x.2.1 x.2.2 (glyphAddr gl.words + x.1)) s
  if bad.isEmpty then s
  else
    let cells := s.legend.snaps.flatMap (fun sn =>
      if sn.head == n then sn.cells.filter (fun c => c.glyphs.any (fun g => g.glyph == gl.glyph)) else [])
    cells.foldl (fun s _ => badCell s n) s

/-- Fetch a glyph for a head: its bytes become resident, or the fetch fails (R214, R223, R224). -/
def glyphFetch (s : State) (n : Nat) (gl : CellGlyph) : State :=
  match ownerRead s (bits (gl.words.getD 1 0) 31 24) legendAgent false (glyphAddr gl.words) (glyphBytes gl.words) with
  | (s, .error _) => glyphFail s n gl.glyph
  | (s, .ok b) =>
    let room := makeRoom s (cdiv b.length 64 * 64) s.legend.cache
    if cacheSize room + cdiv b.length 64 * 64 ≤ 2097152 then
      glyphDamage (s.setLegend { s.legend with
        cache := room.filter (fun r => r.glyph != gl.glyph) ++ [⟨gl.glyph, gl.words, b⟩] }) n gl b
    else s.setLegend { s.legend with cache := room }

/-- A captured glyph of a head by its index. -/
def capturedGlyph (s : State) (n g : Nat) : Option CellGlyph :=
  (s.legend.snaps.filter (fun sn => sn.head == n)).findSome? (fun sn =>
    sn.cells.findSome? (fun c => c.glyphs.find? (fun gl => gl.glyph == g)))

end Sys2Proof.Machine
end

