-- ==== Sys2Proof/Machine/Raster.lean ====
section
/-!
DEFINITION. Machine/Raster.lean: the events of a head: enabling and stopping it, frame and band latches,
retiring buffer sets, veneer runs, fetching and composing lines (R85 to R111, R144 to R171, R508).
-/
namespace Sys2Proof.Machine

/-! Veneer runs (R161 to R171). -/

/-- Bytes of one veneer region: the padded kerf map and the slots (R170). -/
def veneerRegion (t : Raster) : Nat :=
  let blocks := cdiv t.hActive 8 * cdiv t.vActive 8
  65536 * cdiv blocks 65536 + blocks * 512

/-- NO_ROOM: the buffer is too small for the timing in force (R170). -/
def veneerNoRoom (s : State) (n : Nat) : Bool :=
  let c := vreg s n Reg.VENEER_VCFG
  fbit c 0 && 1048576 * fget (vreg s n Reg.VENEER_VBUF_SIZE) 15 0 < (1 + fget c 5 4) * veneerRegion (rasterInForce s n)

/-- AGE of a layer (R151). -/
def layerAge (s : State) (n l : Nat) : Nat := s.pf (.layer n l) Reg.LAYER_LAYER_HISTORY 7 0

/-- A candidate layer for a run (R162). -/
def runCandidate (s : State) (n l : Nat) : Bool :=
  4 ≤ l && l ≤ 13 && layerActive s n l && fget (vreg s n Reg.VENEER_VCFG) 23 16 ≤ layerAge s n l

/-- Maximal sequences of layers that meet a test, in order. -/
def sequences (p : Nat → Bool) : List Nat → List (List Nat)
  | [] => []
  | l :: r =>
    if p l then
      match r, sequences p r with
      | l' :: _, q :: qs => if p l' then (l :: q) :: qs else [l] :: q :: qs
      | _, qs => [l] :: qs
    else sequences p r

/-- The number of layers and the cost rule of a run (R162). -/
def runWorth (s : State) (n : Nat) (ls : List Nat) : Bool :=
  let sum := ls.foldl (fun acc l => acc + bline64 (s.pf (.layer n l) Reg.LAYER_LAYER_FORMAT 7 0)
    (s.pf (.layer n l) Reg.LAYER_SRC_SIZE 13 0)) 0
  fget (vreg s n Reg.VENEER_VCFG) 11 8 ≤ ls.length && 512 * (rasterInForce s n).hActive ≤ sum

/-- The runs a frame latch forms: index and layers (R162). -/
def formRuns (s : State) (n : Nat) : List (Nat × List Nat) :=
  let c := vreg s n Reg.VENEER_VCFG
  if !fbit c 0 || s.fenced .veneer || veneerNoRoom s n || s.mode.mode = .safe || !s.enabled (.composer n) then []
  else
    let ord := (order s n).filter (fun l => l != 15)
    let bottom := ord.takeWhile (runCandidate s n)
    let above := ord.drop bottom.length
    let floats := (sequences (fun l => runCandidate s n l && fget (s.pr (.layer n l) Reg.LAYER_LAYER_CTRL) 5 4 != 2) above).filter
      (runWorth s n)
    let fl := (floats.take (fget c 5 4)).mapIdx (fun i ls => (i + 1, ls))
    (if bottom ≠ [] ∧ runWorth s n bottom then [(0, bottom)] else []) ++ fl

/-- A run has every active line composed and written (R163). -/
def runComplete (t : Raster) (r : Run) : Bool :=
  (List.range t.vActive).all (fun y => r.states.any (fun e => e.1 == y)) &&
    (List.range (cdiv t.vActive 8)).all (fun k => r.rows.contains k)

/-- Veneer decisions of a frame latch (R162, R163, R166 code 0x02). -/
def latchRuns (s : State) (n : Nat) : State :=
  let formed := formRuns s n
  let bg := background s n
  let same (r : Run) : Bool := formed.any (fun f => f.1 == r.idx && f.2 == r.layers) && (r.idx != 0 || r.bg == bg)
  let s := invalidateWhere s n 2 (fun r => !same r)
  let h := s.head n
  let anyBefore := h.runs.any (·.usable)
  let t := rasterInForce s n
  let up (r : Run) : Run := if !r.usable && runComplete t r then { r with usable := true, building := false } else r
  let fresh := formed.filter (fun f => !h.runs.any (fun r => r.idx == f.1))
  let news := fresh.map (fun f => (⟨f.1, f.2, bg, true, false, [], [], [], []⟩ : Run))
  let turned := h.runs.any (fun r => !r.usable && runComplete t r)
  let s := s.setHead n { h with runs := h.runs.map up ++ news }
  let s := if turned then s.event .veneer 0 else s
  if turned && !anyBefore then
    s.setPr .veneer (Reg.VENEER_VREADY_FRAME + 0x40 * n) (s.pr (.timing n) Reg.TIMING_FRAME_COUNT + 1)
  else s

/-! Applying a layer commit (R105, R146, R151, R152, R155, R166, R189). -/

/-- The six words of a layer's buffer set (R152). -/
def bufferSet (s : State) (n l : Nat) : List Word :=
  [Reg.LAYER_BUF_ADDR_LO, Reg.LAYER_BUF_ADDR_HI, Reg.LAYER_AUX_ADDR_LO, Reg.LAYER_AUX_ADDR_HI,
    Reg.LAYER_PALETTE_ADDR_LO, Reg.LAYER_PALETTE_ADDR_HI].map (fun o => s.pr (.layer n l) o)

/-- A buffer set in use retires (R152); `s` holds the retiring set's values in force. -/
def retireSet (s : State) (n l seq : Nat) : State :=
  let p : Page := .layer n l
  let h := s.head n
  let w : RetireWait := ⟨l, committer s n l, s.pair p Reg.LAYER_RETIRE_ADDR_LO, s.pair p Reg.LAYER_RETIRE_VALUE_LO⟩
  let s := s.setHead n { h with inUse := h.inUse.filter (fun k => k != l), retires := h.retires ++ [w] }
  let s := s.setPf p Reg.LAYER_LAYER_STATUS 3 2 1
  let s := s.setPf p Reg.LAYER_LAYER_HISTORY 31 16 seq
  s.setPr p Reg.LAYER_PREV_READ_FRAME (s.pr p Reg.LAYER_CUR_READ_FRAME)

/-- Coefficient sets that a video layer's values in force reference (R189). -/
def layerSets (s : State) (n l : Nat) : List Nat :=
  if l < 4 ∧ s.enabled (.layer n l) then
    let w := s.pr (.layer n l) Reg.LAYERV_SCL_CTRL
    [fget w 3 0, fget w 11 8].eraseDups
  else []

/-- The pending stage of a layer takes effect at a latch; `band` is the band, `first` the first line scanned
with the values, `rec` whether a flip record is written (R98, R100, R105). -/
def applyLayer (s : State) (n l band first : Nat) (rec : Bool) : State :=
  let p : Page := .layer n l
  match s.pend p with
  | none => s
  | some st =>
    let oldSet := bufferSet s n l
    let oldSets := layerSets s n l
    let wasUsed := (s.head n).inUse.contains l
    let newSet := [Reg.LAYER_BUF_ADDR_LO, Reg.LAYER_BUF_ADDR_HI, Reg.LAYER_AUX_ADDR_LO, Reg.LAYER_AUX_ADDR_HI,
      Reg.LAYER_PALETTE_ADDR_LO, Reg.LAYER_PALETTE_ADDR_HI].map (fun o => s.pendReg p o)
    let newEn := fbit (s.pendReg p Reg.LAYER_LAYER_CTRL) 0
    let s := if wasUsed && (newSet ≠ oldSet || !newEn) then retireSet s n l st.seq else s
    let s := putStage s p
    let s := s.setPf p Reg.LAYER_LAYER_STATUS 15 8 st.master
    let s := s.setPf p Reg.LAYER_LAYER_STATUS 1 1 0
    let h := s.head n
    let gone := if rec then (oldSets.filter (fun k => !(layerSets s n l).contains k)).map (fun k => (k, first)) else []
    let h := { h with
      inUse := if newEn && !h.inUse.contains l then h.inUse ++ [l] else h.inUse,
      paletteWait := if newEn && fget (s.pr p Reg.LAYER_LAYER_FORMAT) 7 0 = 6
        then (h.paletteWait.filter (fun k => k != l)) ++ [l] else h.paletteWait.filter (fun k => k != l),
      flips := if rec then h.flips.filter (fun f => f.record != l) ++ [⟨l, st.seq, band, first⟩] else h.flips,
      setRelease := h.setRelease ++ gone,
      faultRetire := h.faultRetire.filter (fun k => k != l),
      fillFrom := adel h.fillFrom l,
      lines := h.lines.filter (fun f => f.src != .layer l) }
    invalidateWhere (s.setHead n h) n 1 (fun r => r.layers.contains l)

/-- The TIMING page's pending stage takes effect (R89, R101, R166 code 0x04). -/
def applyTiming (s : State) (n : Nat) (rec : Bool) : State :=
  match s.pend (.timing n) with
  | none => s
  | some st =>
    let s := putStage s (.timing n)
    let h := s.head n
    let s := s.setHead n { h with flips := if rec then h.flips.filter (fun f => f.record != 17) ++ [⟨17, st.seq, 0, 0⟩] else h.flips }
    invalidateWhere s n 4 (fun _ => true)

/-- The COMPOSER page's pending stage takes effect (R101, R104, R166 code 0x03). -/
def applyComposer (s : State) (n : Nat) (rec : Bool) : State :=
  match s.pend (.composer n) with
  | none => s
  | some st =>
    let bg := background s n
    let s := putStage s (.composer n)
    let h := s.head n
    let ok := bandsOk (fun o => s.pr (.composer n) o) (rasterInForce s n).vActive
    let s := s.setHead n { h with
      oneBand := h.oneBand && !ok,
      flips := if rec then h.flips.filter (fun f => f.record != 16) ++ [⟨16, st.seq, 0, 0⟩] else h.flips }
    if background s n ≠ bg then invalidateWhere s n 3 (fun r => r.idx == 0) else s

/-- Layers disabled by a fault since the last latch retire their sets (R152). -/
def retireFaulted (s : State) (n : Nat) : State :=
  let h := s.head n
  let s := s.setHead n { h with faultRetire := [] }
  h.faultRetire.foldl (fun s l =>
    if (s.head n).inUse.contains l then retireSet s n l (s.pf (.layer n l) Reg.LAYER_LAYER_HISTORY 31 16) else s) s

/-- Number of bands in force for the frame (R102, R104). -/
def numBands (s : State) (n : Nat) : Nat :=
  if (s.head n).oneBand then 1 else max 1 (s.pf (.composer n) Reg.COMPOSER_BAND_CFG 3 0)

/-- First line of band b (R102). -/
def bandStart (s : State) (n b : Nat) : Nat :=
  if b = 0 then 0 else s.pf (.composer n) (Reg.COMPOSER_BAND_START + 4 * (b - 1)) 15 0

/-- Every pending stage of a head's pages takes effect (R100, R101). -/
def applyHead (s : State) (n : Nat) (rec : Bool) : State :=
  let s := applyComposer (applyTiming s n rec) n rec
  (List.range 16).foldl (fun s l => applyLayer s n l 0 0 rec) s

/-- The frame latch (R98, R101, R104, R111, R152, R161 to R163); `start` at the latch that starts the
generator, where every AGE becomes 0. -/
def frameLatchOp (s : State) (n : Nat) (start : Bool) : State :=
  let committed := keysWhere 16 (fun l => (s.pend (.layer n l)).isSome) ++ (s.head n).bandCommits
  let s := retireFaulted (applyHead s n true) n
  let s := if bandsOk (fun o => s.pr (.composer n) o) (rasterInForce s n).vActive then s
    else (s.setHead n { s.head n with oneBand := true }).hwBits (pageBase (.composer n) + Reg.COMPOSER_FLIP_STATUS) 2
  let s := (List.range 16).foldl (fun s l =>
    s.setPf (.layer n l) Reg.LAYER_LAYER_HISTORY 7 0
      (if start || committed.contains l then 0 else satInc (layerAge s n l) 255)) s
  let h := s.head n
  let s := s.setHead n { h with
    latched := true, latchCycle := some s.fclk, bandCommits := [], fillFrom := [],
    lines := [], bandLatched := none, nextBand := if numBands s n > 1 then 1 else 0,
    line := (rasterInForce s n).latchLine }
  (latchRuns s n).event (.composer n) 4

/-- BAND_LATCH (R105): band-mode layers apply their pending stages as band b ≥ 1. -/
def execBandLatch (n : Fin 12) (b : Fin 8) (s : State) : Host.Outcome State Fault Refusal :=
  if (s.head n).running && 1 ≤ b.val && b.val < numBands s n then
    let st := bandStart s n b
    let ls := keysWhere 16 (fun l => fbit (s.pr (.layer n l) Reg.LAYER_LAYER_CTRL) 1 && (s.pend (.layer n l)).isSome)
    let s := ls.foldl (fun s l => applyLayer s n l b st true) s
    let h := s.head n
    let s := s.setHead n { h with
      bandLatched := some b.val, bandCycle := some s.fclk, line := st - 4,
      nextBand := if b.val + 1 < numBands s n then b.val + 1 else 0, bandCommits := (h.bandCommits ++ ls).eraseDups }
    .next (s.event (.composer n) 5)
  else .next s

/-! Enabling and stopping (R85 to R87). -/

/-- Why setting TIMING.CTRL.ENABLE is refused (R48, R85, R160). -/
def headEnableCheck (s : State) (n : Nat) : Option Cause :=
  let p : Page := .timing n
  if s.enabled p then none
  else if s.busy p then some .inuse
  else if !pllOk s n || !timingOk s n (rasterInForce s n) then some .range
  else if 320000 < rtTotalWith s n (headCostWith s n (rasterPending s n) none) then some .budget
  else none

/-- The op of setting TIMING.CTRL.ENABLE (R85, R93, R109); nothing where it is set. -/
def headEnableOp (s : State) (n : Nat) : State :=
  let p : Page := .timing n
  if s.enabled p then s
  else
    let s := (s.setHf p .ctrl 0 0 1).setBusy p true
    let s := s.setPr p Reg.TIMING_FRAME_COUNT 0
    let s := (List.range 18).foldl (fun s r => s.setPf (.composer n) (Reg.COMPOSER_FLIP_SEQ + 16 * r) 0 0 0) s
    s.setHead n { s.head n with pll := .locking, flips := [], draining := false, raster := rasterInForce s n }

/-- HEAD_ENABLE (R85). -/
def execHeadEnable (m : Master) (n : Fin 12) (s : State) : Host.Outcome State Fault Refusal :=
  .next (writeReg s m (hadr (.timing n) .ctrl) (fun s => headEnableCheck s n) (fun s => headEnableOp s n))

/-- The generator starts at the frame-latch line (R85, R87). -/
def startGenerator (s : State) (n : Nat) : State :=
  let s := s.setPf (.timing n) Reg.TIMING_PLL_STATUS 0 0 1
  let s := s.setHead n { s.head n with pll := .locked, running := true, raster := rasterInForce s n }
  let s := (frameLatchOp s n true).event (.timing n) 1
  if fbit (s.pr (.dplink n) Reg.DPLINK_LINK_STATUS) 30 then setLink s n 28 28 0 else s

/-- The op of clearing TIMING.CTRL.ENABLE (R86, R166 code 0x09). -/
def headDisableOp (s : State) (n : Nat) : State :=
  let p : Page := .timing n
  if !s.enabled p then s
  else
    let s := (s.setHf p .ctrl 0 0 0).setBusy p true
    let h := s.head n
    let s := s.setHead n (if h.running then { h with draining := true } else { h with pll := .stopping, draining := false })
    invalidateWhere s n 9 (fun _ => true)

/-- HEAD_DISABLE (R86). -/
def execHeadDisable (m : Master) (n : Fin 12) (s : State) : Host.Outcome State Fault Refusal :=
  .next (writeReg s m (hadr (.timing n) .ctrl) (fun _ => none) (fun s => headDisableOp s n))

/-- The generator stops and the transmitter sends the idle pattern (R86, R87). -/
def stopGenerator (s : State) (n : Nat) (pll : PllPhase) : State :=
  let s := s.setHead n { s.head n with
    running := false, draining := false, pll := pll, lines := [], latched := false,
    bandLatched := none }
  setLink s n 28 28 1

/-- TIMING_STOP (R86): the generator has run to its stop. -/
def execTimingStop (n : Fin 12) (s : State) : Host.Outcome State Fault Refusal :=
  .next (if (s.head n).draining then stopGenerator s n .stopping else s)

/-- PLL_UNLOCK (R87): fault bit 0; the generator stops and the PLL tries to relock. -/
def execPllUnlock (n : Fin 12) (s : State) : Host.Outcome State Fault Refusal :=
  if (s.head n).pll = .locked then
    let d := (s.head n).draining
    let s := stopGenerator s n (if d then .stopping else .unlocked)
    let s := s.setPf (.timing n) Reg.TIMING_PLL_STATUS 0 0 0
    .next (raiseFault s (.timing n) 0)
  else .next s

/-! Lines. -/

/-- Write the flip records whose first line starts now (R109). -/
def writeFlips (s : State) (n line : Nat) : State :=
  let h := s.head n
  let due := h.flips.filter (fun f => f.first == line)
  let s := s.setHead n { h with flips := h.flips.filter (fun f => f.first != line) }
  due.foldl (fun s f =>
    let p : Page := .composer n
    let o := Reg.COMPOSER_FLIP_SEQ + 16 * f.record
    let s := s.setPr p o (w32 (0x10000 * f.seq + f.band * 0x100 + 1))
    let s := s.setPr p (o + 4) (s.pr (.timing n) Reg.TIMING_FRAME_COUNT)
    let s := (s.setPair p (o + 8) s.devtime).event p 0
    if f.record < 16 then layerEvent s (s.owner (.layer n f.record)) 0 else s) s

/-- FRAME_START (R89, R93, R94, R96, R109): line 0 of a frame starts. -/
def execFrameStart (n : Fin 12) (s : State) : Host.Outcome State Fault Refusal :=
  if (s.head n).running && !((s.head n).draining && !(s.head n).latched) then
    let s := s.count (.timing n) Reg.TIMING_FRAME_COUNT
    let s := (s.setPair (.timing n) Reg.TIMING_FRAME_TIME_LO s.devtime).event (.timing n) 0
    let h := s.head n
    let s := s.setHead n { h with
      line := 0, latched := false, raster := rasterInForce s n,
      setRelease := h.setRelease.filter (fun e => e.2 != 0) }
    .next (cvuFrameStart (writeFlips s n 0) n)
  else .next s

/-- The current frame's number for fetches: a fetch between the latch and line 0 counts for the next frame
(R151). -/
def fetchFrame (s : State) (n : Nat) : Word :=
  s.pr (.timing n) Reg.TIMING_FRAME_COUNT + (if (s.head n).latched then 1 else 0)

/-- Keep a fetched line. -/
def keepLine (s : State) (n : Nat) (f : FetchedLine) : State :=
  let h := s.head n
  s.setHead n { h with lines := h.lines.filter (fun x => !(x.src == f.src && x.line == f.line)) ++ [f] }

/-- A fetch of Lk faults: FILL from the line on, COMPOSER fault bit, LAYER_FAULT_INFO, FAULT_DISABLED
(R155, R157, R158, R166 code 0x06). -/
def layerFault (s : State) (n k line bit cause addr : Nat) : State :=
  let p : Page := .composer n
  let h := s.head n
  let s := s.setHead n { h with
    fillFrom := aset 8193 h.fillFrom k (min line (aget 8193 h.fillFrom k)),
    faultRetire := if h.inUse.contains k then (h.faultRetire.filter (fun x => x != k)) ++ [k] else h.faultRetire }
  let s := s.setPr p Reg.COMPOSER_LAYER_FAULT_INFO (w32 (0x10000 * (line % 65536) + 0x8000 + cause * 0x100 + k))
  let s := s.setPair p Reg.COMPOSER_LAYER_FAULT_ADDR_LO addr
  let s := s.setPf (.layer n k) Reg.LAYER_LAYER_STATUS 1 1 1
  let s := layerEvent (s.event p 3) (s.owner (.layer n k)) 3
  let s := invalidateWhere s n 6 (fun r => r.layers.contains k)
  raiseFault s p bit

/-- Uncorrectable data on a fetch of a layer line: FILL for that line only, fault bit 1 (R154). -/
def layerData (s : State) (n k line addr : Nat) : State :=
  let p : Page := .composer n
  let s := keepLine s n (fillLine s n k line)
  let s := s.setPr p Reg.COMPOSER_LAYER_FAULT_INFO (w32 (0x10000 * (line % 65536) + 0x8000 + 0x300 + k))
  let s := s.setPair p Reg.COMPOSER_LAYER_FAULT_ADDR_LO addr
  raiseFault s p 1

/-- LAYER_FETCH_FAULT (R155). -/
def execLayerFetchFault (n : Fin 12) (k : Fin 16) (line : Nat) (watermark : Bool) (addr : Nat) (s : State) :
    Host.Outcome State Fault Refusal :=
  .next (if layerActive s n k then layerFault s n k line 0 (if watermark then 2 else 1) addr else s)

/-- LAYER_DATA_ERROR (R154): for L14 every line of the cell row the read served (R228). -/
def execLayerDataError (n : Fin 12) (k : Fin 16) (line : Nat) (addr : Nat) (s : State) :
    Host.Outcome State Fault Refusal :=
  if !layerActive s n k then .next s
  else if k.val = 14 then .next ((legendRowLines s n line).foldl (fun s y => layerData s n 14 y addr) s)
  else .next (layerData s n k line addr)

/-- The veneer address of a block of a run's region: map byte and slot (R170). -/
def veneerBlock (s : State) (n r i : Nat) : Nat × Nat :=
  let t := (s.head n).raster
  let blocks := cdiv t.hActive 8 * cdiv t.vActive 8
  let base := fget (vreg s n Reg.VENEER_VBUF_LO) 31 0 + 2 ^ 32 * fget (vreg s n Reg.VENEER_VBUF_HI) 15 0 + r * veneerRegion t
  (base + i, base + 65536 * cdiv blocks 65536 + i * 512)

/-- A 64-bit veneer container as a pixel (R163). -/
def containerPx (v : Nat) : Px := ⟨bits v 47 32, bits v 31 16, bits v 15 0, bits v 63 48⟩

/-- A pixel as a 64-bit veneer container (R163). -/
def pxContainer (p : Px) : Nat := p.b + 2 ^ 16 * p.g + 2 ^ 32 * p.r + 2 ^ 48 * p.a

/-- The veneer line of a run (R163, R170). -/
def veneerLine (s : State) (n r line : Nat) : State × Except AccErr (List Px) :=
  let t := (s.head n).raster
  let (mp, sl) := veneerBlock s n r 0
  match kerfRow s (fun s a len => busRead s 0x0D false a len)
      { kind := .veneer, base := sl, map := mp, pitch := cdiv t.hActive 8 * 512, src := 0x13 } line 0 t.hActive with
  | (s, .error e) => (s, .error e)
  | (s, .ok vs) => (s, .ok (vs.map containerPx))

/-- A veneer read error: the block row falls back from the failing line (R168). -/
def veneerFallback (s : State) (n r line : Nat) : State :=
  let sent := (List.range (line % 8)).filterMap (fun i =>
    match (veneerLine s n r (8 * (line / 8) + i)).2 with
    | .ok px => some (8 * (line / 8) + i, px)
    | .error _ => none)
  let h := s.head n
  let s := s.setHead n { h with runs := h.runs.map (fun x =>
    if x.idx = r then { x with held := x.held.filter (fun e => e.1 / 8 != line / 8) ++ sent, fallback := x.fallback.filter (fun f => f.1 != line / 8) ++ [(line / 8, line)],
                               rows := x.rows.filter (fun k => k != line / 8) } else x) }
  let last := min (8 * (line / 8) + 7) ((s.head n).raster.vActive - 1)
  let s := s.countBy .veneer (Reg.VENEER_VFALLBACK_LINES + 0x40 * n) (last + 1 - line)
  raiseFault s .veneer 0

/-- VENEER_READ_ERROR (R168). -/
def execVeneerReadError (n : Fin 12) (r : Fin 3) (line : Nat) (s : State) : Host.Outcome State Fault Refusal :=
  .next (if (s.head n).runs.any (fun x => x.idx == r.val && runReads x line) && line < (s.head n).raster.vActive
    then veneerFallback s n r line else s)

/-- LAYER_FETCH (R144): a layer line, L14's line, or a run's veneer line arrives for a line of the frame. -/
def execLayerFetch (n : Fin 12) (veneer : Bool) (k : Fin 16) (line : Nat) (s : State) :
    Host.Outcome State Fault Refusal :=
  let h := s.head n
  if !h.running || (rasterInForce s n).vActive ≤ line then .next s
  else if veneer then
    match h.runs.find? (fun r => r.idx == k.val) with
    | none => .next s
    | some r =>
      if !runReads r line then .next s
      else match veneerLine s n k line with
        | (s, .ok px) => .next (keepLine s n ⟨.veneer k, line, 0, px, false⟩)
        | (s, .error _) => .next (veneerFallback s n k line)
  else if !layerActive s n k || h.paletteWait.contains k.val || (visibleSpan s n k line).isNone then .next s
  else if k.val = 14 && (h.lines.any (fun f => f.src == .layer 14 && f.line == line && f.fill)) then .next s
  else if k.val = 14 then
    match legendLine s n line with
    | (s, .ok (x0, px)) => .next ((keepLine s n ⟨.layer 14, line, x0, px, false⟩).setPr (.layer n 14) Reg.LAYER_CUR_READ_FRAME (fetchFrame s n))
    | (s, .error _) => .next s
  else
    match fetchLine s n k line with
    | (s, .ok (x0, px)) =>
      .next ((keepLine s n ⟨.layer k, line, x0, px, false⟩).setPr (.layer n k) Reg.LAYER_CUR_READ_FRAME (fetchFrame s n))
    | (s, .error (.uncorrectable a)) => .next (layerData s n k line a)
    | (s, .error (.translation a)) => .next (layerFault s n k line 0 1 a)
    | (s, .error (.watermark a)) => .next (layerFault s n k line 0 2 a)

/-- PALETTE_READ (R146, R155): 1 KiB into the layer's on-chip palette. -/
def execPaletteRead (n : Fin 12) (k : Fin 16) (s : State) : Host.Outcome State Fault Refusal :=
  if !(s.head n).paletteWait.contains k.val then .next s
  else
    let a := s.pair (.layer n k) Reg.LAYER_PALETTE_ADDR_LO
    match layerRead s n k a 1024 with
    | (s, .ok b) =>
      let h := s.head n
      .next (s.setHead n { h with
        palettes := aset [] h.palettes k (wordsOf 4 256 b),
        paletteWait := h.paletteWait.filter (fun x => x != k.val) })
    | (s, .error e) =>
      let h := s.head n
      let s := s.setHead n { h with paletteWait := h.paletteWait.filter (fun x => x != k.val) }
      .next (layerFault s n k h.line 2 4 e.addr)

/-- RETIRE_WRITE (R152): the signal of a retired set is written and RETIRED set; a faulting write sets
COMPOSER fault bit 3. -/
def execRetireWrite (n : Fin 12) (k : Fin 16) (s : State) : Host.Outcome State Fault Refusal :=
  let h := s.head n
  match h.retires.find? (fun w => w.layer == k.val) with
  | none => .next s
  | some w =>
    let s := s.setHead n { h with retires := h.retires.eraseP (fun x => x.layer == k.val) }
    let s := s.setPf (.layer n k) Reg.LAYER_LAYER_STATUS 3 3 1
    if w.addr = 0 then .next s
    else match ownerSignal s w.committer n (k.val == 15) w.addr w.value with
      | (s, .ok _) => .next s
      | (s, .error e) =>
        let s := s.setPr (.composer n) Reg.COMPOSER_LAYER_FAULT_INFO (w32 (0x10000 * ((s.head n).line % 65536) + 0x8000 + 0x500 + k.val))
        let s := s.setPair (.composer n) Reg.COMPOSER_LAYER_FAULT_ADDR_LO e.addr
        .next (raiseFault s (.composer n) 3)

/-- Values of building runs are held for write-behind as their line is composed; a missing or filled line
abandons the run (R163, R164). -/
def captureRuns (s : State) (n line : Nat) (its : List Item) (miss : List Nat) : State :=
  let bad (r : Run) : Bool := r.layers.any (fun l => miss.contains l ||
    its.any (fun i => match i with | .layer k f => k == l && f.fill | _ => false))
  let s := invalidateWhere s n 7 (fun r => r.building && bad r && !(r.states.any (fun e => e.1 == line)))
  let h := s.head n
  s.setHead n { h with runs := h.runs.map (fun r =>
    let again := r.fallback.any (fun f => f.1 == line / 8 && f.2 ≤ line)
    if (r.building && !(r.states.any (fun e => e.1 == line))) || again then
      let (st, px) := runLine s n line r its
      { r with states := r.states.filter (fun e => e.1 != line) ++ [(line, st)],
               held := r.held.filter (fun e => e.1 != line) ++ [(line, px)] }
    else r) }

/-- Lines that read an underrun: counters and events (R111, R156, R381). -/
def countUnderrun (s : State) (n : Nat) (miss : List Nat) : State :=
  if miss.isEmpty then s
  else
    let s := (s.count (.composer n) Reg.COMPOSER_UNDERRUN_COUNT).event (.composer n) 2
    let s := s.hwBits (pageBase (.composer n) + Reg.COMPOSER_UNDERRUN_LAYERS) (maskOf 17 (fun k => miss.contains k))
    (miss.filter (fun k => k < 16)).eraseDups.foldl (fun s k => layerEvent s (s.owner (.layer n k)) 2) s

/-- Whether the Safe picture is composed: four cycles after the decision (R507). -/
def safePicture (s : State) : Bool :=
  s.mode.mode = .safe && (match s.safe.decided with | some d => decide (d + 4 ≤ s.fclk) | none => false)

/-- LINE_COMPOSE (R145): the line is composed from what has arrived, missing lines by FILL, and sent. -/
def execLineCompose (n : Fin 12) (line : Nat) (s : State) : Host.Outcome State Fault Refusal :=
  let t := (s.head n).raster
  if !(s.head n).running || t.vActive ≤ line then .next s
  else if safePicture s then
    let its := if s.safe.hwAtFault || !layerActive s n 15 then [] else [Item.layer 15 (layerItem s n 15 line).1]
    let px := (List.range t.hActive).map (fun x => safePx s n x line its)
    let s := s.setHead n { s.head n with out := px, outLine := line, line := line }
    .next (cvuHeadLine s n line px)
  else
    let s := writeFlips s n line
    let h := s.head n
    let s := s.setHead n { h with
      line := line, setRelease := h.setRelease.filter (fun e => e.2 != line),
      bandLatched := match h.bandLatched with
        | some b => if bandStart s n b = line then none else some b
        | none => none }
    let (its, miss) := if s.enabled (.composer n) then lineItems s n line (order s n) else ([], [])
    let px := (List.range t.hActive).map (fun x => outPx s n x line its)
    let s := if miss.contains 14 then legendMiss s n line else s
    let s := captureRuns (countUnderrun s n miss) n line its miss
    let s := cvuLayerLine s n line its
    let h := s.head n
    let s := s.setHead n { h with out := px, outLine := line, lines := h.lines.filter (fun f => f.line != line) }
    .next (cvuHeadLine s n line px)

/-! Write-behind (R163, R166, R168). -/

/-- The 64 containers of block (bx, by) of a run's held lines; outside the active area 0. -/
def runBlock (r : Run) (bx byy : Nat) : List Nat :=
  (List.range 64).map (fun i =>
    let l := ((r.held.find? (fun e => e.1 == 8 * byy + i / 8)).map (·.2)).getD []
    match l[8 * bx + i % 8]? with
    | some p => pxContainer p
    | none => 0)

/-- VENEER_WRITE_BEHIND (R163, R168): a block row whose lines are all composed is encoded and written. -/
def execVeneerWriteBehind (n : Fin 12) (r : Fin 3) (row : Nat) (s : State) : Host.Outcome State Fault Refusal :=
  let h := s.head n
  let t := h.raster
  match h.runs.find? (fun x => x.idx == r.val) with
  | none => .next s
  | some x =>
    let lines := (List.range 8).filter (fun i => 8 * row + i < t.vActive)
    if s.fenced .veneer || lines.isEmpty || !(lines.all (fun i => x.held.any (fun e => e.1 == 8 * row + i))) then .next s
    else
      let bw := cdiv t.hActive 8
      let (mp, sl) := veneerBlock s n r 0
      let f : KerfSurf := { kind := .veneer, base := sl, map := mp, pitch := bw * 512, id := 0xFF00 + 4 * n.val + r.val }
      let s := (List.range bw).foldl (fun s bx =>
        (kerfWriteBlock s (fun s a b => busWrite s 0x0D false a b) f none bx row (runBlock x bx row)).1) s
      let h := s.head n
      .next (s.setHead n { h with runs := h.runs.map (fun y =>
        if y.idx = r.val then
          { y with rows := y.rows.filter (fun k => k != row) ++ [row],
                   held := y.held.filter (fun e => e.1 / 8 != row),
                   fallback := y.fallback.filter (fun f => f.1 != row) }
        else y) })

/-- WRITE_BEHIND_ABANDON (R32): the write-behind of the frame is abandoned, code 0x07. -/
def execWriteBehindAbandon (n : Fin 12) (s : State) : Host.Outcome State Fault Refusal :=
  .next (invalidateWhere s n 7 (fun r => r.building))

/-- VENEER_WRITE_ERROR (R166 code 0x08, R171). -/
def execVeneerWriteError (n : Fin 12) (r : Fin 3) (s : State) : Host.Outcome State Fault Refusal :=
  if (s.head n).runs.any (fun x => x.idx == r.val) then
    .next (raiseFault (invalidateRun s n r 8) .veneer 1)
  else .next s

/-! Coefficient sets (R186 to R190). -/

/-- Set k is in use (R189). -/
def setInUse (s : State) (k : Nat) : Bool :=
  (List.range 12).any (fun n =>
    (List.range 4).any (fun l => (layerSets s n l).contains k ||
      ((s.pend (.layer n l)).isSome && fbit (s.pendReg (.layer n l) Reg.LAYER_LAYER_CTRL) 0 &&
        (let w := s.pendReg (.layer n l) Reg.LAYERV_SCL_CTRL; fget w 3 0 == k || fget w 11 8 == k))) ||
    (s.enabled (.timing n) && (s.head n).setRelease.any (fun e => e.1 == k)))

/-- A master may write set k (R186). -/
def coefPermits (s : State) (m : Master) (k : Nat) : Bool :=
  let o := s.pf .scaler (Reg.SCALER_SET_OWNER + 4 * k) 7 0
  if o = 0xFF then ownerPermits s m .scaler else m.code == o

/-- A write to a word of set k (R186, R189): OWNER, INUSE, or the word takes effect. -/
def coefWriteOp (s : State) (m : Master) (k off : Nat) (v : Word) : State :=
  let a := 0x148000 + 0x800 * k + off
  if !coefPermits s m k then s.refuse m .scaler .owner a a
  else if off < 0x700 then
    if setInUse s k then s.refuse m .scaler .inuse a a
    else (s.setReg a (w32 (0x10000 * fget v 25 16 + fget v 9 0))).noteWrite a
  else s

/-- COEF_WRITE (R186). -/
def execCoefWrite (m : Master) (k : Fin 16) (off : BitVec 11) (value : Word) (s : State) :
    Host.Outcome State Fault Refusal :=
  .next (gated s m (0x148000 + 0x800 * k.val + off.toNat / 4 * 4)
    (fun s => coefWriteOp s m k (off.toNat / 4 * 4) value))

/-- AUX_GO (R129). -/
def execAuxGo (m : Master) (n : Fin 12) (cmd : BitVec 4) (len : BitVec 4) (s : State) :
    Host.Outcome State Fault Refusal :=
  .next (writeReg s m (pageBase (.dplink n) + Reg.DPLINK_AUX_CTRL) (fun s => auxGoCheck s n)
    (fun s => auxGoOp s n cmd.toNat len.toNat))

end Sys2Proof.Machine
end

