-- ==== Sys2Proof/Machine/Commit.lean ====
section
/-!
DEFINITION. Machine/Commit.lean: committing the shadow set of a page: the check of its block, the pending stage,
the latch cycle, and the apply point of the pages whose commits apply by themselves (R65 to R68, R98 to R106).
-/
namespace Sys2Proof.Machine

/-- A TIMING commit: R91, R103 and R125, the Legend line rate where L14 is enabled or about to be, then the
budget (R160, R208). -/
def timingCommitCheck (s : State) (n : Nat) : Option Cause :=
  let t := rasterOf (fun o => s.shd (pageBase (.timing n) + o))
  let l14 := s.enabled (.layer n 14) || fbit (s.pendReg (.layer n 14) Reg.LAYER_LAYER_CTRL) 0
  (timingCheck s n).or
    (if l14 && !lineRateOk s n t then some .range
     else if s.enabled (.timing n) && 320000 < rtTotalWith s n (headCostWith s n t none) then some .budget
     else none)

/-- A shadow field of head n's block of the VENEER page (R169). -/
def vshd (s : State) (n o : Nat) : Word := s.shd (pageBase .veneer + o + 0x40 * n)

/-- Base and end of head n's veneer buffer, as the shadow set names it. -/
def vbufShd (s : State) (n : Nat) : Nat × Nat :=
  let b := (vshd s n Reg.VENEER_VBUF_LO).toNat + 2 ^ 32 * fget (vshd s n Reg.VENEER_VBUF_HI) 15 0
  (b, b + 1048576 * fget (vshd s n Reg.VENEER_VBUF_SIZE) 15 0)

/-- The limits on one head's block of a VENEER commit (R169). -/
def veneerBlockOk (s : State) (n : Nat) : Bool :=
  let c := vshd s n Reg.VENEER_VCFG
  let (b, e) := vbufShd s n
  fget c 23 16 != 0 && 2 ≤ fget c 11 8 && fget c 11 8 ≤ 10 && fget c 5 4 != 3 &&
    (!fbit c 0 || (b % 2097152 == 0 && fget (vshd s n Reg.VENEER_VBUF_HI) 31 16 == 0 &&
      watermarkAddr s ≤ b && e ≤ memTop s))

/-- A VENEER commit (R169): every block in range, and no two buffers in use overlap. -/
def veneerCheck (s : State) : Option Cause :=
  let on := keysWhere 12 (fun n => fbit (vshd s n Reg.VENEER_VCFG) 0)
  let apart (n k : Nat) : Bool :=
    n == k || decide ((vbufShd s n).2 ≤ (vbufShd s k).1) || decide ((vbufShd s k).2 ≤ (vbufShd s n).1)
  if (List.range 12).all (veneerBlockOk s) && on.all (fun n => on.all (apart n)) then none else some .range

/-- The check of a commit's shadow set by the page's block (R65). -/
def commitCheck (s : State) (p : Page) (m : Master) : Option Cause :=
  match p with
  | .timing n => timingCommitCheck s n
  | .composer n => composerCheck s n
  | .layer n l => layerCheck s n l m
  | .veneer => veneerCheck s
  | _ => none

/-- What a layer commit costs once pending (R160). -/
def commitCost (s : State) (p : Page) : Nat :=
  match p with
  | .layer n l => layerCost s n l (rasterPending s n) (fun o => s.shd (pageBase p + o))
  | _ => 0

/-- A commit is deferred: the late bits, FLIP_LATE, and the owner's layer event (R99, R106, R107, R381). -/
def markLate (s : State) (n bits : Nat) (p : Page) : State :=
  let s := (s.hwBits (pageBase (.composer n) + Reg.COMPOSER_FLIP_STATUS) (bits + 1)).event (.composer n) 1
  match p with
  | .layer _ _ => layerEvent s (s.owner p) 1
  | _ => s

/-- A commit accepted between a latch cycle and the first line it serves: it applies in the latch cycle itself,
and is late after it (R98, R99, R105, R106). -/
def commitTiming (s : State) (p : Page) : State :=
  match p with
  | .timing n =>
    let h := s.head n
    if !h.running || !h.latched then s
    else if h.latchCycle = some s.fclk then applyTiming s n true else markLate s n (2 ^ 9) p
  | .composer n =>
    let h := s.head n
    if !h.running || !h.latched then s
    else if h.latchCycle = some s.fclk then applyComposer s n true else markLate s n (2 ^ 8) p
  | .layer n l =>
    let h := s.head n
    let band := fbit (s.pr p Reg.LAYER_LAYER_CTRL) 1
    if !h.running then s
    else if h.latched then
      if h.latchCycle = some s.fclk then
        (applyLayer s n l 0 0 true).setPf p Reg.LAYER_LAYER_HISTORY 7 0 0
      else markLate s n (2 ^ (16 + l)) p
    else match h.bandLatched with
      | some b =>
        if !band then s
        else if h.bandCycle = some s.fclk then
          let s := applyLayer s n l b (bandStart s n b) true
          let h := s.head n
          s.setHead n { h with bandCommits := (h.bandCommits ++ [l]).eraseDups }
        else markLate s n (2 ^ (16 + l)) p
      | none => s
  | _ => s

/-- COMMIT.GO = 1 on a page: refused by the block's check, or accepted as the pending stage (R65, R66). -/
def commitOp (s : State) (m : Master) (p : Page) (seq : Nat) : State :=
  match commitCheck s p m with
  | some c => commitResult s p seq c.code (s.pend p).isSome
  | none => commitTiming (stageShadow s p m seq (commitCost s p)) p

/-- A commit by a master that an earlier write of the cycle has stripped of its ownership shows REVOKED in
COMMIT_STATUS as well (R68). -/
def commitRevoked (s : State) (m : Master) (p : Page) (seq : Nat) : State :=
  match refusalOf s m (hadr p .commit) with
  | some (_, .revoked, _) => commitResult s p seq Cause.revoked.code (s.pend p).isSome
  | _ => s

/-- A write of COMMIT with GO = 1 (R65 to R68). -/
def commitGo (s : State) (m : Master) (p : Page) (seq : Nat) : State :=
  if !masterThere s m || !pageOk p then s
  else
    let s := beginAccess s m
    let a := hadr p .commit
    match refusalOf s m a with
    | some r => recordRefusal (commitRevoked s m p seq) m a a r
    | none => (commitOp (flushPage s p) m p seq).noteWrite a

/-- COMMIT_GO (R65 to R68). -/
def execCommitGo (m : Master) (p : Page) (seq : BitVec 16) (s : State) : Host.Outcome State Fault Refusal :=
  .next (commitGo s m p seq.toNat)

/-- Heads whose settings a pending VENEER commit changes (R166 code 0x05). -/
def veneerChanged (s : State) : List Nat :=
  keysWhere 12 (fun n =>
    [Reg.VENEER_VCFG, Reg.VENEER_VBUF_LO, Reg.VENEER_VBUF_HI, Reg.VENEER_VBUF_SIZE].any (fun o =>
      s.pendReg .veneer (o + 0x40 * n) != vreg s n o))

/-- COMMIT_APPLY (R67): the pending stage of a page whose apply point is no latch of a head takes effect; that of
AUDIO where its mixer is disabled, since a sample boundary applies it otherwise. -/
def execCommitApply (p : Page) (s : State) : Host.Outcome State Fault Refusal :=
  match p with
  | .timing _ | .composer _ | .layer _ _ => .next s
  | .audio => .next (if s.enabled .audio then s else audioCommit s false)
  | .veneer =>
    if (s.pend .veneer).isNone then .next s
    else
      let ns := veneerChanged s
      .next (ns.foldl (fun s n => invalidateWhere s n 5 (fun _ => true)) (putStage s .veneer))
  | _ => .next (putStage s p)

end Sys2Proof.Machine
end

