-- ==== Sys2Proof/Machine/Fp.lean ====
section
/-!
DEFINITION. Machine/Fp.lean: FP32 and binary16 arithmetic as bit patterns, every operation exact and then rounded to
nearest even, denormals kept (R258, R259, R265, R273, R274).
-/
namespace Sys2Proof.Machine

/-- The canonical FP32 NaN, infinity, and one. -/
def fNaN : Nat := 0x7FC00000
def fInf : Nat := 0x7F800000
def fOne : Nat := 0x3F800000

def fIsNaN (a : Nat) : Bool := decide (fInf < a % 2 ^ 31)
def fIsInf (a : Nat) : Bool := a % 2 ^ 31 == fInf
def fNeg (a : Nat) : Bool := bit a 31

/-- Sign and magnitude together. -/
def fSign (neg : Bool) (mag : Nat) : Nat := mag + (if neg then 2 ^ 31 else 0)

/-- Significand and exponent of a finite value: magnitude = m × 2^e. -/
def fMant (a : Nat) : Nat := if bits a 30 23 = 0 then bits a 22 0 else bits a 22 0 + 2 ^ 23
def fExp (a : Nat) : Int := (max 1 (bits a 30 23) : Nat) - 150

/-- m / 2^k rounded to the nearest integer, ties to even. -/
def rneShift (m k : Nat) : Nat :=
  let q := m >>> k
  let r := m % 2 ^ k
  if 2 * r < 2 ^ k ∨ (2 * r = 2 ^ k ∧ q % 2 = 0) then q else q + 1

/-- Magnitude bits of m × 2^e in a format with p significand bits, least exponent qmin and infinity top. -/
def fpRound (p : Nat) (qmin : Int) (top m : Nat) (e : Int) : Nat :=
  if m = 0 then 0
  else
    let q := max (e + (Nat.log2 m + 1 : Nat) - p) qmin
    let n := if q ≤ e then m * 2 ^ (e - q).toNat else rneShift m (q - e).toNat
    min top (2 ^ (p - 1) * (q - qmin).toNat + n)

/-- FP32 of ± m × 2^e. -/
def f32 (neg : Bool) (m : Nat) (e : Int) : Nat := fSign neg (fpRound 24 (-149) fInf m e)

/-- FP32 of an integer times 2^e. -/
def fOfInt (i : Int) (e : Int := 0) : Nat := f32 (i < 0) i.natAbs e

/-- The signed significand of a finite value. -/
def fSMant (a : Nat) : Int := if fNeg a then -(fMant a : Int) else fMant a

/-- Sum. -/
def fAdd (a b : Nat) : Nat :=
  if fIsNaN a ∨ fIsNaN b then fNaN
  else if fIsInf a then (if fIsInf b ∧ fNeg a ≠ fNeg b then fNaN else a)
  else if fIsInf b then b
  else
    let e := min (fExp a) (fExp b)
    let v := fSMant a * 2 ^ (fExp a - e).toNat + fSMant b * 2 ^ (fExp b - e).toNat
    if v = 0 then (if fNeg a && fNeg b then 2 ^ 31 else 0) else fOfInt v e

/-- Negation, difference, absolute value. -/
def fMinus (a : Nat) : Nat := if fNeg a then a - 2 ^ 31 else a + 2 ^ 31
def fSub (a b : Nat) : Nat := fAdd a (fMinus b)
def fAbs (a : Nat) : Nat := a % 2 ^ 31

/-- Product. -/
def fMul (a b : Nat) : Nat :=
  let neg := fNeg a != fNeg b
  if fIsNaN a ∨ fIsNaN b then fNaN
  else if fIsInf a ∨ fIsInf b then (if fAbs a = 0 ∨ fAbs b = 0 then fNaN else fSign neg fInf)
  else f32 neg (fMant a * fMant b) (fExp a + fExp b)

/-- n / d × 2^e, correctly rounded; d is not 0. -/
def fRatio (neg : Bool) (n d : Nat) (e : Int) : Nat :=
  let k := 32 + Nat.log2 d + 1
  let q := n * 2 ^ k / d
  f32 neg (2 * q + (if n * 2 ^ k % d = 0 then 0 else 1)) (e - k - 1)

/-- Quotient. -/
def fDiv (a b : Nat) : Nat :=
  let neg := fNeg a != fNeg b
  if fIsNaN a ∨ fIsNaN b then fNaN
  else if fIsInf a then (if fIsInf b then fNaN else fSign neg fInf)
  else if fIsInf b then fSign neg 0
  else if fAbs b = 0 then (if fAbs a = 0 then fNaN else fSign neg fInf)
  else fRatio neg (fMant a) (fMant b) (fExp a - fExp b)

/-- Square root by bisection: the bits of the root from bit k down. -/
def isqrtN : Nat → Nat → Nat → Nat
  | 0, _, r => r
  | k + 1, n, r => if (r + 2 ^ k) * (r + 2 ^ k) ≤ n then isqrtN k n (r + 2 ^ k) else isqrtN k n r

/-- Square root. -/
def fSqrt (a : Nat) : Nat :=
  if fIsNaN a then fNaN
  else if fAbs a = 0 then a
  else if fNeg a then fNaN
  else if fIsInf a then a
  else
    let odd := (fExp a) % 2 ≠ 0
    let m := 2 ^ 64 * ((if odd then 2 * fMant a else fMant a))
    let e := (if odd then fExp a - 1 else fExp a) - 64
    let r := isqrtN 46 m 0
    f32 false (2 * r + (if r * r = m then 0 else 1)) (e / 2 - 1)

/-- Order of two values that are not NaN, as signed integers of their patterns. -/
def fKey (a : Nat) : Int := if fNeg a then -(fAbs a : Int) else fAbs a

/-- Comparisons; false where an operand is NaN. -/
def fLt (a b : Nat) : Bool := !fIsNaN a && !fIsNaN b && decide (fKey a < fKey b)
def fLe (a b : Nat) : Bool := !fIsNaN a && !fIsNaN b && decide (fKey a ≤ fKey b)
def fEq (a b : Nat) : Bool := !fIsNaN a && !fIsNaN b && decide (fKey a = fKey b)

/-- fminf and fmaxf: the other operand where one is NaN. -/
def fMin (a b : Nat) : Nat := if fIsNaN a then b else if fIsNaN b then a else if fLt b a then b else a
def fMax (a b : Nat) : Nat := if fIsNaN a then b else if fIsNaN b then a else if fLt a b then b else a

/-- Clamp between two finite values. -/
def fClamp (x lo hi : Nat) : Nat := fMin (fMax x lo) hi

/-- The value times k, rounded to the nearest integer, ties to even; 0 for NaN and infinities. -/
def fToInt (a : Nat) (k : Nat := 1) : Int :=
  if fIsNaN a ∨ fIsInf a then 0
  else
    let m := fMant a * k
    let v : Nat := if 0 ≤ fExp a then m * 2 ^ (fExp a).toNat else rneShift m (-(fExp a)).toNat
    if fNeg a then -(v : Int) else v

/-- UNORM of n bits from FP32 (R274). -/
def fToUnorm (n a : Nat) : Nat := if fIsNaN a then 0 else (fToInt (fClamp a 0 fOne) (2 ^ n - 1)).toNat

/-- FP32 from UNORM of n bits (R273). -/
def fOfUnorm (n v : Nat) : Nat := fRatio false v (2 ^ n - 1) 0

/-- Binary16 from FP32 (R274). -/
def fToHalf (a : Nat) : Nat :=
  if fIsNaN a then 0x7E00
  else (if fNeg a then 0x8000 else 0) + (if fIsInf a then 0x7C00 else fpRound 11 (-24) 0x7C00 (fMant a) (fExp a))

/-- FP32 from binary16. -/
def fOfHalf (h : Nat) : Nat :=
  let neg := bit h 15
  let e := bits h 14 10
  let m := bits h 9 0
  if e = 31 then (if m = 0 then fSign neg fInf else fNaN)
  else f32 neg (if e = 0 then m else m + 1024) ((max 1 e : Nat) - 25)

/-- A power of two. -/
def fPow2 (e : Int) : Nat := f32 false 1 e

end Sys2Proof.Machine
end

