-- ==== Sys2Proof/Machine/Haptic.lean ====
section
/-!
DEFINITION. Machine/Haptic.lean: the haptic channels (R462 to R471): triggers, half-cycles, actuator checks, the
power cap and the rail.
-/
namespace Sys2Proof.Machine

/-- One channel. -/
def State.hap (s : State) (ch : Nat) : HapSt := aget {} s.haps ch

/-- Replace one channel. -/
def State.setHap (s : State) (ch : Nat) (h : HapSt) : State := { s with haps := aset {} s.haps ch h }

/-- A field of HSTATUS, and its write. -/
def hstat (s : State) (ch hi lo : Nat) : Nat := s.pf (.hapch ch) Reg.HAPCH_HSTATUS hi lo
def setHstat (s : State) (ch hi lo v : Nat) : State := s.setPf (.hapch ch) Reg.HAPCH_HSTATUS hi lo v

/-- Phase codes of HSTATUS.PHASE (R471): 0 IDLE, 1 ATTACK, 2 SUSTAIN, 3 BRAKE. -/
def hapPhase (s : State) (ch : Nat) : Nat := hstat s ch 2 0

/-- The KCLK cycle of 40 MHz that the current FCLK cycle lies in. -/
def kclkNow (s : State) : Nat := s.fclk / 30

/-- A word of an effect. -/
def effWord (ws : List Nat) (k : Nat) : Nat := ws.getD k 0

/-- Half-cycles and amplitude of a phase of an effect (R464). -/
def phaseLen (ws : List Nat) (phase : Nat) : Nat :=
  match phase with
  | 1 => bits (effWord ws 0) 7 0
  | 2 => bits (effWord ws 0) 31 16
  | 3 => bits (effWord ws 0) 15 8
  | _ => 0
def phaseAmp (ws : List Nat) (phase : Nat) : Nat :=
  match phase with
  | 1 => bits (effWord ws 1) 9 0
  | 2 => bits (effWord ws 1) 25 16
  | 3 => bits (effWord ws 2) 9 0
  | _ => 0

/-- PWM duty in 1/1024 of the rail (R462). -/
def hapDuty (s : State) (ch amp : Nat) : Nat :=
  amp * s.pf (.hapch ch) Reg.HAPCH_HCFG 31 24 * s.pf .haptic Reg.HAPTIC_SCALE 10 0 / 245760

/-- Enter a phase of the effect in progress. -/
def enterPhase (s : State) (ch phase : Nat) : State :=
  let h := s.hap ch
  let s := setHstat s ch 2 0 phase
  s.setHap ch { h with left := phaseLen h.words phase, duty := hapDuty s ch (phaseAmp h.words phase) }

/-- An effect starts its ATTACK, from rest or at a crossing with the motion (R463, R467). -/
def startEffect (s : State) (ch : Nat) (e : Effect) (rest : Bool) (motion : Bool) : State :=
  let h := s.hap ch
  let s := setHstat s ch 13 8 e.num
  let s := setHstat s ch 17 17 (b2n e.key.isSome)
  let s := s.setHap ch { h with
    words := e.words, pending := none, stopping := false, fromRest := rest,
    positive := rest || motion, iPeak := 0, bemf := 0, limited := 0, checkStall := false }
  enterPhase s ch 1

/-- The effect has ended: DONE and IDLE, or the queued effect from rest (R467). -/
def endEffect (s : State) (ch : Nat) : State :=
  let h := s.hap ch
  let s := s.setPf (.hapch ch) Reg.HAPCH_MEAS 31 16 h.bemf
  let s := (setHstat s ch 2 0 0).event (.hapch ch) 0
  let next := if h.pending.isSome then h.pending else h.queued
  let s := setHstat s ch 3 3 (b2n (h.pending.isSome && h.queued.isSome))
  let s := s.setHap ch { trigAt := h.trigAt, trigKey := h.trigKey,
                         queued := if h.pending.isSome then h.queued else none }
  match next with
  | some e => startEffect s ch e true true
  | none => s

/-- An actuator fault: the channel stops without braking and is disabled (R468). -/
def actuatorFault (s : State) (ch b : Nat) : State :=
  let h := s.hap ch
  let s := s.setPf (.hapch ch) Reg.HAPCH_MEAS 31 16 h.bemf
  let s := (hapStop s ch).setHf (.hapch ch) .ctrl 0 0 0
  raiseFault s (.hapch ch) b

/-- The channel takes triggers: enabled, not fenced, rail in regulation, not Safe (R48, R465, R469, R470). -/
def hapReady (s : State) (ch : Nat) : Bool :=
  s.enabled (.hapch ch) && !s.fenced (.hapch ch) && s.pf .haptic Reg.HAPTIC_RAIL_STATUS 31 31 == 1 && s.mode.mode != .safe &&
    !loadIsShed s

/-- The words of effect e of the library (R464). -/
def effectWords (s : State) (e : Nat) : List Nat :=
  (List.range 4).map (fun k => (s.pr .haptic (Reg.HAPTIC_EFFECT_W0 + 16 * e + 4 * k)).toNat)

/-- A trigger is taken (R464 to R467). -/
def trigger (s : State) (ch effect : Nat) (key : Option Nat) : State :=
  let ws := effectWords s effect
  if !bit (effWord ws 3) 0 then s.event (.hapch ch) 2
  else
    let s := s.count (.hapch ch) Reg.HAPCH_TRIG_COUNT
    let s := match key with | some k => setHstat s ch 31 24 k | none => s
    let s := s.setHap ch { s.hap ch with trigAt := some (kclkNow s), trigKey := key.isSome }
    let e : Effect := ⟨effect, ws, key⟩
    let ph := hapPhase s ch
    if ph = 0 then startEffect s ch e true true
    else if ph = 3 ∧ s.pf (.hapch ch) Reg.HAPCH_HCFG 12 12 = 1 then
      setHstat (s.setHap ch { s.hap ch with queued := some e }) ch 3 3 1
    else s.setHap ch { s.hap ch with pending := some e }

/-- A host trigger of this KCLK cycle is lost to a key trigger (R466). -/
def hostTriggerLost (s : State) (ch : Nat) : State := (setHstat s ch 16 16 1).event (.hapch ch) 1

/-- A trigger has been taken in the current KCLK cycle: by a key, by the host. -/
def keyTook (s : State) (ch : Nat) : Bool := (s.hap ch).trigKey && (s.hap ch).trigAt == some (kclkNow s)
def hostTook (s : State) (ch : Nat) : Bool := !(s.hap ch).trigKey && (s.hap ch).trigAt == some (kclkNow s)

/-- The trigger that a debounced press carries (R465): denied and counted, or taken; a key before it in the same
KCLK cycle has the channel. -/
def keyTrigger (s : State) (k : Nat) : State :=
  let w := s.pr .keys (Reg.KEYS_KEY_CFG + 4 * k)
  let ch := fget w 23 20
  if !fbit w 16 then s
  else if s.owner (.hapch ch) ≠ fget w 7 0 ∨ !s.enabled (.hapch ch) ∨ s.fenced (.hapch ch) ∨ s.mode.mode = .safe then
    s.count .keys Reg.KEYS_BIND_DENIED
  else if !hapReady s ch || keyTook s ch then s
  else
    let s := if hostTook s ch then hostTriggerLost s ch else s
    trigger s ch (fget w 29 24) (some k)

/-- HOST_TRIGGER's effect (R466). -/
def hostTriggerOp (s : State) (ch effect : Nat) : State :=
  if !hapReady s ch then s
  else if keyTook s ch then hostTriggerLost s ch
  else trigger s ch effect none

/-- HOST_TRIGGER (R466): a write of TRIGGER with GO = 1. -/
def execHostTrigger (m : Master) (ch : Fin 16) (effect : Fin 64) (s : State) : Host.Outcome State Fault Refusal :=
  .next (writeReg s m (pageBase (.hapch ch) + Reg.HAPCH_TRIGGER) (fun _ => none) (fun s => hostTriggerOp s ch effect))

/-- STOP's effect (R466): at the next crossing the brake starts. -/
def hapStopOp (s : State) (ch : Nat) : State :=
  let ph := hapPhase s ch
  if ph = 1 ∨ ph = 2 then s.setHap ch { s.hap ch with stopping := true } else s

/-- STOP (R466). -/
def execStop (m : Master) (ch : Fin 16) (s : State) : Host.Outcome State Fault Refusal :=
  .next (writeReg s m (pageBase (.hapch ch) + Reg.HAPCH_TRIGGER) (fun _ => none) (fun s => hapStopOp s ch))

/-- The effect of setting HAPCH.CTRL.ENABLE: HP from F0_HZ (R463). -/
def hapEnableOp (s : State) (ch : Nat) : State :=
  let p : Page := .hapch ch
  if s.enabled p then s
  else
    let f0 := s.pf p Reg.HAPCH_HCFG 8 0
    (s.setHf p .ctrl 0 0 1).setPr p Reg.HAPCH_HALF_PERIOD (w32 ((40000000 + f0) / (2 * f0)))

/-- HAPCH_ENABLE (R463). -/
def execHapchEnable (m : Master) (ch : Fin 16) (s : State) : Host.Outcome State Fault Refusal :=
  .next (writeReg s m (hadr (.hapch ch) .ctrl) (fun s => enableCheck s (.hapch ch)) (fun s => hapEnableOp s ch))

/-- The half-period after a measured half-cycle (R463). -/
def nextHp (hp l : Nat) : Nat := min 400000 (max 50000 ((3 * hp + l + 2) / 4))

/-- The phase that follows a phase whose half-cycles are done, with a half-cycle to run; 0 where none is left. -/
def nextPhase (ws : List Nat) (phase : Nat) : Nat :=
  if phase = 1 ∧ 0 < phaseLen ws 2 then 2
  else if phase ≤ 2 ∧ 0 < phaseLen ws 3 then 3
  else 0

/-- The ATTACK phase is over: its peak current, and the check for a missing actuator (R468); true where the
actuator is there. -/
def attackOver (s : State) (ch : Nat) : State × Bool :=
  let h := s.hap ch
  let s := s.setPf (.hapch ch) Reg.HAPCH_MEAS 15 0 h.iPeak
  if h.iPeak < s.pf (.hapch ch) Reg.HAPCH_HLIMITS 15 0 then (actuatorFault s ch 0, false)
  else (s.setHap ch { h with checkStall := true }, true)

/-- Leave a phase for another, or end the effect; polarity follows the motion, and the brake drives against it. -/
def leavePhase (s : State) (ch phase : Nat) (motion : Bool) : State :=
  if phase = 0 then endEffect s ch
  else
    let s := s.setHap ch { s.hap ch with stopping := false, positive := if phase = 3 then !motion else motion }
    enterPhase s ch phase

/-- The half-cycle of channel ch ends (R463, R466 to R468). -/
def halfCycle (s : State) (ch : Nat) (crossing : Option Nat) (iPeak bemf : Nat) (limited : Bool) : State :=
  let h := s.hap ch
  let p : Page := .hapch ch
  let ph := hapPhase s ch
  if ph = 0 then s
  else
    let s := match crossing with
      | some l => if h.fromRest then s else s.setPr p Reg.HAPCH_HALF_PERIOD (w32 (nextHp (s.pf p Reg.HAPCH_HALF_PERIOD 18 0) l))
      | none => s.count p Reg.HAPCH_ZC_MISSED
    let motion := !(if ph = 3 then !h.positive else h.positive)
    let lim := if limited then h.limited + 1 else 0
    let stall := h.checkStall && bemf < s.pf p Reg.HAPCH_HLIMITS 31 16
    let s := s.setHap ch { h with
      fromRest := false, iPeak := if ph = 1 then max h.iPeak iPeak else h.iPeak, bemf := max h.bemf bemf,
      limited := lim, checkStall := false }
    if 4 ≤ lim then actuatorFault s ch 2
    else if stall then actuatorFault s ch 1
    else match h.pending, crossing with
      | some e, some _ => startEffect s ch e false motion
      | _, _ =>
        if h.stopping && crossing.isSome then
          let (s, ok) := if ph = 1 then attackOver s ch else (s, true)
          if ok then leavePhase s ch (if 0 < phaseLen h.words 3 then 3 else 0) motion else s
        else if 1 < h.left then
          s.setHap ch { s.hap ch with left := h.left - 1, positive := if ph = 3 then !motion else motion }
        else
          let (s, ok) := if ph = 1 then attackOver s ch else (s, true)
          if ok then leavePhase s ch (nextPhase h.words ph) motion else s

/-- HALF_CYCLE_END (R463). -/
def execHalfCycleEnd (ch : Fin 16) (crossing : Option Nat) (iPeak bemf : BitVec 16) (limited : Bool) (s : State) :
    Host.Outcome State Fault Refusal :=
  .next (halfCycle s ch crossing iPeak.toNat bemf.toNat limited)

/-- Duties of the playing channels after a change of SCALE (R462, R468). -/
def hapRescale (s : State) : State :=
  (List.range 16).foldl (fun s ch =>
    let h := s.hap ch
    if hapPhase s ch = 0 then s
    else s.setHap ch { h with duty := hapDuty s ch (phaseAmp h.words (hapPhase s ch)) }) s

/-- POWER_MEASURE (R468): SCALE from the cap, and CAPPED while it is below 1024. -/
def execPowerMeasure (p : BitVec 16) (s : State) : Host.Outcome State Fault Refusal :=
  let cap := s.pf .haptic Reg.HAPTIC_POWER_CAP 15 0
  let scale := if p.toNat = 0 then 1024 else min 1024 (1024 * cap / p.toNat)
  let was := s.pf .haptic Reg.HAPTIC_RAIL_STATUS 30 30
  let s := s.setPr .haptic Reg.HAPTIC_SCALE (w32 scale)
  let s := s.setPf .haptic Reg.HAPTIC_RAIL_STATUS 15 0 p.toNat
  let s := s.setPf .haptic Reg.HAPTIC_RAIL_STATUS 30 30 (b2n (scale < 1024))
  let s := if scale < 1024 ∧ was = 0 then (s.count .haptic Reg.HAPTIC_CAP_COUNT).event .haptic 0 else s
  .next (hapRescale s)

/-- RAIL_FAULT (R470): RAIL_OK clears, fault bit 0, and every channel stops as in Safe (R469). -/
def execRailFault (s : State) : Host.Outcome State Fault Refusal :=
  let s := s.setPf .haptic Reg.HAPTIC_RAIL_STATUS 31 31 0
  let s := (List.range 16).foldl hapStop s
  .next (raiseFault s .haptic 0)

/-- RAIL_OK (R470). -/
def execRailOk (s : State) : Host.Outcome State Fault Refusal :=
  .next (s.setPf .haptic Reg.HAPTIC_RAIL_STATUS 31 31 1)

end Sys2Proof.Machine
end

