-- ==== Sys2Proof/Machine/Keys.lean ====
section
/-!
DEFINITION. Machine/Keys.lean: the capacitive keys (R441 to R461, R568, R569): scans, baselines, the key states,
self-test, owners and event queues, and the keys of the B4 model.
-/
namespace Sys2Proof.Machine

/-- One key and one port's scanner. -/
def State.key (s : State) (k : Nat) : KeySt := aget {} s.keys k
def State.setKey (s : State) (k : Nat) (x : KeySt) : State := { s with keys := aset {} s.keys k x }
def State.scan (s : State) (p : Nat) : ScanSt := aget {} s.scans p
def State.setScan (s : State) (p : Nat) (x : ScanSt) : State := { s with scans := aset {} s.scans p x }

/-- KEY_STATE.STATE (R460): 0 RELEASED, 1 PRESS_PENDING, 2 PRESSED, 3 RELEASE_PENDING. -/
def keyState (s : State) (k : Nat) : Nat := s.pf .keys (Reg.KEYS_KEY_STATE + 4 * k) 25 24
def setKeyState (s : State) (k v : Nat) : State := s.setPf .keys (Reg.KEYS_KEY_STATE + 4 * k) 25 24 v

/-- Some flag of the last self-test holds the key RELEASED (R451). -/
def keyFlagged (s : State) (k : Nat) : Bool := s.pf .keys (Reg.KEYS_KEY_STATE + 4 * k) 30 28 != 0

/-- The B4 model scans keys 0 to 63 (R568). -/
def b4Keys (s : State) : Bool := legacyOn s && fbit (s.b4r 4) 1

/-- Key k belongs to the B4 model (R568, R569). -/
def isB4Key (s : State) (k : Nat) : Bool := legacyOn s && k < 64

/-- Port p scans (R443, R568). -/
def portScans (s : State) (p : Nat) : Bool :=
  (s.enabled .keys && s.pf .keys Reg.KEYS_PORT_EN p p == 1) || (p == 0 && b4Keys s)

/-- A port stops scanning: its next scan sets baselines (R444). -/
def portStop (s : State) (p : Nat) : State := s.setScan p {}

/-! Events (R452 to R458, R569). -/

/-- A debounced edge of the B4 model: into its FIFO of 16, or dropped; in Safe none (R569). -/
def b4KeyEdge (s : State) (k : Nat) (press : Bool) : State :=
  if s.mode.mode = .safe then s
  else if 16 ≤ s.b4.keyFifo.length then b4Isr (s.count .legacy Reg.LEGACY_KEY_DROPS) (2 ^ 9)
  else
    let t := ((s.b4r 0x18).toNat + 1) % 65536
    b4Isr { s with b4 := { s.b4 with keyFifo := s.b4.keyFifo ++ [t * 256 + b2n press * 128 + k] } } (2 ^ 8)

/-- TIME of a key event (R453). -/
def keyTime (s : State) : Nat := s.devtime / 1024 % 2 ^ 48

/-- An event of a key for an owner: kept for writing; in Safe only Heartwood's (R454, R458). -/
def keyEvent (s : State) (k edge owner : Nat) : State :=
  if isB4Key s k then s
  else if s.mode.mode = .safe ∧ owner ≠ 0x40 then s
  else { s with keyWait := s.keyWait ++ [⟨k, edge, keyTime s, owner⟩] }

/-- An edge of a key: to the B4 FIFO for its keys, else an event record. -/
def keyEdge (s : State) (k edge : Nat) : State :=
  if isB4Key s k then b4KeyEdge s k (edge == 1) else keyEvent s k edge (s.key k).owner

/-- Fields of event queue q (R460). -/
def eqValid (s : State) (q : Nat) : Bool := s.pf .keys (Reg.KEYS_EQ_BASE_HI + 16 * q) 31 31 == 1
def eqSize (s : State) (q : Nat) : Nat := 2 ^ s.pf .keys (Reg.KEYS_EQ_BASE_HI + 16 * q) 27 24
def eqBase (s : State) (q : Nat) : Nat :=
  (s.pr .keys (Reg.KEYS_EQ_BASE_LO + 16 * q)).toNat + 2 ^ 32 * (s.pf .keys (Reg.KEYS_EQ_BASE_HI + 16 * q) 15 0)
def eqHead (s : State) (q : Nat) : Nat := s.pf .keys (Reg.KEYS_EQ_HEAD + 16 * q) 11 0
def eqTail (s : State) (q : Nat) : Nat := s.pf .keys (Reg.KEYS_EQ_TAIL + 16 * q) 11 0

/-- The VALID queue of an owner (R454). -/
def queueOf (s : State) (owner : Nat) : Option Nat :=
  (List.range 16).find? (fun q => eqValid s q && queueOwner s q == owner)

/-- Write a record at TAIL of queue q and advance it (R453, R454, R457); `err` forces an error response. A lost
record leaves the queue as it is (DEDUCED). -/
def eqWrite (s : State) (q : Nat) (r : KeyRec) (err : Bool) : State :=
  let ta := Reg.KEYS_EQ_TAIL + 16 * q
  let size := eqSize s q
  let tail := eqTail s q
  if (tail + 1) % size = eqHead s q then
    ((s.setPf .keys ta 31 31 1).count .keys Reg.KEYS_EVENTS_LOST).event .keys 3
  else
    let b := [r.key, r.edge + s.pf .keys ta 30 30 * 128] ++ leBytes 6 r.time
    let (s, ok) := if err then (s, false)
      else match busWrite s 0x0E (r.owner == 0x40) (eqBase s q + 8 * tail) b with
        | (s, .ok _) => (s, true)
        | (s, .error _) => (s, false)
    if !ok then raiseFault (s.count .keys Reg.KEYS_EVENTS_LOST) .keys 2
    else
      let s := s.setPf .keys ta 11 0 ((tail + 1) % size)
      if (tail + 1) % size = 0 then s.setPf .keys ta 30 30 (1 - s.pf .keys ta 30 30) else s

/-- KEY_EVENT_WRITE (R457): the oldest record is written to its owner's queue, or dropped and counted (R454). -/
def execKeyEventWrite (err : Bool) (s : State) : Host.Outcome State Fault Refusal :=
  match s.keyWait with
  | [] => .next s
  | r :: rest =>
    let s := { s with keyWait := rest }
    if s.mode.mode = .safe ∧ r.owner ≠ 0x40 then .next s
    else match queueOf s r.owner with
      | none => .next (s.count .keys Reg.KEYS_EVENTS_LOST)
      | some q => .next (eqWrite s q r err)

/-! Measurement (R444 to R448, R451, R452, R520). -/

/-- Thresholds of a key (R460). -/
def keyTouch (s : State) (k : Nat) : Nat := s.pf .keys (Reg.KEYS_KEY_THRESH + 4 * k) 11 0
def keyRelease (s : State) (k : Nat) : Nat := s.pf .keys (Reg.KEYS_KEY_THRESH + 4 * k) 23 12
def keyPressDb (s : State) (k : Nat) : Nat := s.pf .keys (Reg.KEYS_KEY_THRESH + 4 * k) 27 24
def keyReleaseDb (s : State) (k : Nat) : Nat := s.pf .keys (Reg.KEYS_KEY_THRESH + 4 * k) 31 28

/-- The key is enabled (R445, R568). -/
def keyOn (s : State) (k : Nat) : Bool :=
  (isB4Key s k && b4Keys s) || s.pf .keys (Reg.KEYS_KEY_CFG + 4 * k) 8 8 == 1

/-- The baseline in counts (R444). -/
def keyBase (b24 : Nat) : Nat := (b24 + 128) / 256

/-- The baseline after a measurement (R446). -/
def baseStep (b24 raw rate : Nat) : Nat :=
  ((b24 : Int) + ((raw * 256 : Nat) - (b24 : Int)) / ((2 ^ rate : Nat) : Int)).toNat % 2 ^ 24

/-- An armed FORCE_TOUCH or FORCE_OPEN meets the measurement of its key (R520). -/
def meetForce (s : State) (k : Nat) : State :=
  match armed s .keys 0x60, armed s .keys 0x61 with
  | some (t, par), _ =>
    if t = k then (fireInject s .keys).setKey k { s.key k with forced := 1, forcedLeft := par } else s
  | none, some (t, par) =>
    if t = k then (fireInject s .keys).setKey k { s.key k with forced := 2, forcedLeft := par } else s
  | none, none => s

/-- The raw count a measurement delivers, with a running injection (R520). -/
def rawOf (s : State) (k raw : Nat) : State × Nat :=
  let s := meetForce s k
  let x := s.key k
  if x.forcedLeft = 0 then (s, raw)
  else
    let v := if x.forced = 1 then min 0xFFFF (keyBase x.b24 + 2 * keyTouch s k) else 0
    (s.setKey k { x with forcedLeft := x.forcedLeft - 1 }, v)

/-- A new owner takes effect (R452). -/
def adoptOwner (s : State) (k : Nat) : State :=
  let x := s.key k
  let o := s.pf .keys (Reg.KEYS_KEY_CFG + 4 * k) 7 0
  if x.owner = o then s
  else
    let down := 2 ≤ keyState s k
    let s := if down then keyEvent s k 4 x.owner else s
    let s := s.setKey k { x with owner := o }
    if down then keyEvent s k 5 o else s

/-- The debounced press of a key (R445, R465). -/
def keyPress (s : State) (k : Nat) : State :=
  let s := (setKeyState s k 2).setKey k { s.key k with count := 0, pressedAt := s.devtime }
  keyTrigger (keyEdge s k 1) k

/-- The debounced release of a key (R445). -/
def keyUp (s : State) (k : Nat) : State :=
  keyEdge ((setKeyState s k 0).setKey k { s.key k with count := 0 }) k 0

/-- A RELEASED key's baseline (R446, R447): `quiet` where it produces no events. -/
def keyBaseline (s : State) (k raw : Nat) (delta : Int) (quiet : Bool) : State :=
  let x := s.key k
  let neg : Int := s.pf .keys Reg.KEYS_KEYS_CFG 11 0
  let rate := if isB4Key s k then 8 else s.pf .keys Reg.KEYS_KEYS_CFG 15 12
  if (keyTouch s k : Int) ≤ delta then s.setKey k { x with neg := 0 }
  else if -neg < delta then s.setKey k { x with b24 := baseStep x.b24 raw rate, neg := 0 }
  else if isB4Key s k then s
  else if x.neg < 3 then s.setKey k { x with neg := x.neg + 1 }
  else
    let s := s.setKey k { x with b24 := raw * 256, neg := 0 }
    if quiet then s else (keyEvent s k 3 x.owner).event .keys 1

/-- MAX_TOUCH_S has passed since the press (R448). -/
def touchTooLong (s : State) (k : Nat) : Bool :=
  let m := s.pf .keys Reg.KEYS_KEYS_CFG 31 16
  m != 0 && !isB4Key s k && 2 ≤ keyState s k && (s.key k).pressedAt + 1000000000 * m ≤ s.devtime

/-- One measurement of key k (R444 to R448, R451, R452). -/
def measureKey (s : State) (p k raw0 : Nat) : State :=
  let (s, raw) := rawOf s k raw0
  let s := s.setPf .keys (Reg.KEYS_KEY_STATE + 4 * k) 15 0 raw
  let s := adoptOwner s k
  let x := s.key k
  if (s.scan p).initScan then s.setKey k { x with b24 := raw * 256, neg := 0 }
  else
    let delta : Int := (raw : Int) - (keyBase x.b24 : Int)
    let touch : Int := keyTouch s k
    let rel : Int := keyRelease s k
    let s := if keyOn s k && touch ≤ delta then s.setScan p { s.scan p with detected := true } else s
    if !keyOn s k || keyFlagged s k then
      keyBaseline ((setKeyState s k 0).setKey k { x with count := 0 }) k raw delta true
    else if touchTooLong s k then
      let s := (setKeyState s k 0).setKey k { x with b24 := raw * 256, count := 0, neg := 0 }
      let s := (keyEvent s k 2 x.owner).hwBits (pageBase .keys + Reg.KEYS_KEY_STATE + 4 * k) (2 ^ 31)
      s.event .keys 0
    else match keyState s k with
      | 0 =>
        let s := keyBaseline s k raw delta false
        if delta < touch then s
        else if keyPressDb s k = 1 then keyPress s k
        else (setKeyState s k 1).setKey k { s.key k with count := 1 }
      | 1 =>
        if delta < touch then (setKeyState s k 0).setKey k { x with count := 0 }
        else if keyPressDb s k ≤ x.count + 1 then keyPress s k
        else s.setKey k { x with count := x.count + 1 }
      | 2 =>
        if rel < delta then s
        else if keyReleaseDb s k = 1 then keyUp s k
        else (setKeyState s k 3).setKey k { x with count := 1 }
      | _ =>
        if rel < delta then (setKeyState s k 2).setKey k { x with count := 0 }
        else if keyReleaseDb s k ≤ x.count + 1 then keyUp s k
        else s.setKey k { x with count := x.count + 1 }

/-- SLOT_END (R442): the eight electrodes of the slot; the scan ends with slot 7. -/
def execSlotEnd (p : Fin 4) (counts : List (BitVec 16)) (s : State) : Host.Outcome State Fault Refusal :=
  match (s.scan p).slot with
  | none => .next s
  | some sl =>
    let s := (List.range 8).foldl (fun s c => measureKey s p (64 * p + 8 * sl + c) (counts.getD c 0).toNat) s
    if sl < 7 then .next (s.setScan p { s.scan p with slot := some (sl + 1) })
    else
      let x := s.scan p
      let down := (List.range 64).any (fun e => 2 ≤ keyState s (64 * p + e))
      let hit := x.detected || down
      let s := s.setScan p { x with
        slot := none, initScan := false, detected := hit,
        detectEnd := if hit || x.initScan then s.devtime else x.detectEnd }
      .next (if p.val = 0 ∧ b4Keys s then s.setB4 0x18 (w32 (((s.b4r 0x18).toNat + 1) % 65536)) else s)

/-! Scans (R443, R568). -/

/-- Rate code of a port by its idle time (R443). -/
def scanRate (idleNs : Nat) : Nat :=
  if idleNs < 2000000000 then 0 else if idleNs < 30000000000 then 1 else if idleNs < 300000000000 then 2 else 3

/-- Thresholds of the B4 keys as B4_KEYCFG stands (R568). -/
def b4Thresholds (s : State) : State :=
  let w := s.b4r 0x14
  let t := fget w 11 0
  let d := fget w 19 16
  (List.range 64).foldl (fun s k =>
    s.setPr .keys (Reg.KEYS_KEY_THRESH + 4 * k) (w32 (2 ^ 28 * d + 2 ^ 24 * d + 2 ^ 12 * (t - 1) + t))) s

/-- SCAN_START (R443): nothing while the port does not scan, a scan runs, or its self-test runs. -/
def execScanStart (p : Fin 4) (s : State) : Host.Outcome State Fault Refusal :=
  let x := s.scan p
  if !portScans s p || x.slot.isSome || x.testing then .next s
  else
    let b4 := decide (p.val = 0) && b4Keys s
    let s := if b4 then b4Thresholds s else s
    let rate := if b4 || x.initScan then 0 else scanRate (s.devtime - x.detectEnd)
    let s := s.setPf .keys Reg.KEYS_SCAN_STATUS (8 * p + 1) (8 * p) rate
    .next (s.setScan p { x with slot := some 0, start := s.devtime, detected := false })

/-- Why setting KEYS.CTRL.ENABLE is refused: MODE in Survey, INUSE while it drains (R48, R450). -/
def keysEnableCheck (s : State) : Option Cause := if s.mode.mode = .survey then some .mode else enableCheck s .keys

/-- KEYS_ENABLE (R443). -/
def execKeysEnable (m : Master) (s : State) : Host.Outcome State Fault Refusal :=
  .next (writeReg s m (hadr .keys .ctrl) keysEnableCheck (fun s => s.setHf .keys .ctrl 0 0 1))

/-! Self-test (R449 to R451). -/

/-- The write of SELFTEST against R450 and R568. -/
def selftestCheck (s : State) (value : Word) : Option Cause :=
  let p := fget value 1 0
  if !fbit value 31 then none
  else if legacyOn s && p == 0 then some .mode
  else if s.pf .keys Reg.KEYS_SELFTEST 30 30 = 1 ∨ (List.range 64).any (fun e => keyState s (64 * p + e) != 0) then
    some .inuse
  else if s.pf .keys Reg.KEYS_PORT_EN p p = 0 then some .range
  else none

/-- The effect of SELFTEST: PORT, and the start of a test with GO. -/
def selftestOp (s : State) (value : Word) : State :=
  let p := fget value 1 0
  let s := s.setPf .keys Reg.KEYS_SELFTEST 1 0 p
  if fbit value 31 then
    let s := s.setPf .keys Reg.KEYS_SELFTEST 30 30 1
    let s := s.setPf .keys Reg.KEYS_SCAN_STATUS (8 * p + 2) (8 * p + 2) 1
    s.setScan p { s.scan p with slot := none, testing := true }
  else s

/-- SELFTEST (R449). -/
def execSelftest (m : Master) (value : Word) (s : State) : Host.Outcome State Fault Refusal :=
  .next (writeReg s m (pageBase .keys + Reg.KEYS_SELFTEST) (fun s => selftestCheck s value) (fun s => selftestOp s value))

/-- Flags of electrode e (R449): OPEN, SHORT, NEIGHBOUR, as bits 2 to 0. -/
def testFlags (openL shortL neigh : Nat) (counts right lower : List (BitVec 16)) (e : Nat) : Nat :=
  let c (l : List (BitVec 16)) (i : Nat) : Nat := (l.getD i 0).toNat
  let r (i : Nat) : Bool := i % 8 != 7 && neigh < c right i
  let d (i : Nat) : Bool := decide (i < 56) && decide (neigh < c lower i)
  let n := r e || d e || (e % 8 != 0 && r (e - 1)) || (8 ≤ e && d (e - 8))
  b2n (c counts e < openL) * 4 + b2n (shortL < c counts e) * 2 + b2n n

/-- SELFTEST_DONE (R449, R451): flags of every key of the port, fault bit 0 where one is set, and the port
re-initialises its baselines. -/
def execSelftestDone (counts right lower : List (BitVec 16)) (s : State) : Host.Outcome State Fault Refusal :=
  let p := s.pf .keys Reg.KEYS_SELFTEST 1 0
  if s.pf .keys Reg.KEYS_SELFTEST 30 30 = 0 then .next s
  else
    let lim := s.pr .keys Reg.KEYS_ST_LIMITS
    let fl := testFlags (fget lim 15 0) (fget lim 31 16) (s.pf .keys Reg.KEYS_NEIGH_LIMIT 15 0) counts right lower
    let s := (List.range 64).foldl (fun s e => s.setPf .keys (Reg.KEYS_KEY_STATE + 4 * (64 * p + e)) 30 28 (fl e)) s
    let s := s.setPf .keys Reg.KEYS_SELFTEST 30 30 0
    let s := s.setPf .keys Reg.KEYS_SCAN_STATUS (8 * p + 2) (8 * p + 2) 0
    let s := (s.setScan p { s.scan p with testing := false, initScan := true, slot := none }).event .keys 2
    .next (if (List.range 64).any (fun e => fl e != 0) then raiseFault s .keys 0 else s)

/-- The keys of a port re-initialise (R459). -/
def senseParity (s : State) (p : Nat) : State :=
  let s := (List.range 64).foldl (fun s e =>
    let k := 64 * p + e
    let s := if 2 ≤ keyState s k then keyEdge s k 2 else s
    (setKeyState s k 0).setKey k { s.key k with count := 0 }) s
  raiseFault (s.setScan p { s.scan p with slot := none, initScan := true }) .keys 1

/-- SENSE_PARITY (R459). -/
def execSenseParity (p : Fin 4) (s : State) : Host.Outcome State Fault Refusal := .next (senseParity s p)

/-- An armed KEYS injection of a KIND is carried out on its key; nothing where none is armed. -/
def forceKey (s : State) (kind forced : Nat) : State :=
  match armed s .keys kind with
  | none => s
  | some (t, par) => (fireInject s .keys).setKey t { s.key t with forced := forced, forcedLeft := par }

/-- FORCE_TOUCH (R520, KIND 0x60). -/
def execForceTouch (s : State) : Host.Outcome State Fault Refusal := .next (forceKey s 0x60 1)

/-- FORCE_OPEN (R520, KIND 0x61). -/
def execForceOpen (s : State) : Host.Outcome State Fault Refusal := .next (forceKey s 0x61 2)

/-! Event queues (R454 to R456). -/

/-- The low word of a queue's pair as a write of EQ_BASE_HIq would leave it. -/
def eqLow (s : State) (m : Master) (q : Nat) : Word :=
  let a := pageBase .keys + Reg.KEYS_EQ_BASE_LO + 16 * q
  ((s.staged m a a).find? (fun w => w.1 == a)).elim (s.reg a) (·.2)

/-- The queue lies where R454 requires for its owner. -/
def queuePlaceOk (s : State) (owner base size : Nat) : Bool :=
  let e := base + 8 * size
  if owner < 64 then inPort s (portOf owner) base (8 * size)
  else if owner = 0x40 then decide (e ≤ watermarkAddr s) || (decide (0x1010000000 ≤ base) && decide (e ≤ 0x1010100000))
  else if owner = 0x42 then decide (watermarkAddr s ≤ base) && decide (e ≤ memTop s)
  else decide (e ≤ memTop s)

/-- The write of EQ_BASE_HIq against R455. LOG2_SIZE outside 6 to 12 is out of range. -/
def eqBaseCheck (s : State) (m : Master) (q : Nat) (value : Word) : Option Cause :=
  let lo := eqLow s m q
  let owner := fget value 23 16
  let base := 4096 * (lo.toNat / 4096) + 2 ^ 32 * fget value 15 0
  let lg := fget value 27 24
  if !fbit value 31 then none
  else if (List.range 16).any (fun j => j != q && eqValid s j && queueOwner s j == owner) then some .inuse
  else if eqValid s q && (queueOwner s q != owner || eqBase s q != base || eqSize s q != 2 ^ lg) then some .inuse
  else if 0x43 ≤ owner ∨ lg < 6 ∨ 12 < lg ∨ !queuePlaceOk s owner base (2 ^ lg) then some .range
  else none

/-- The effect of EQ_BASE_HIq (R455, R460). -/
def eqBaseOp (s : State) (m : Master) (q : Nat) (value : Word) : State :=
  let a := pageBase .keys + Reg.KEYS_EQ_BASE_LO + 16 * q
  let lo := eqLow s m q
  let was := eqValid s q
  let s := (s.unstage m a).setReg a (lo &&& 0xFFFFF000)
  let s := s.setReg (a + 4) (value &&& 0x8FFFFFFF)
  if fbit value 31 && !was then
    let s := s.setReg (a + 8) 0
    s.setReg (a + 12) ((s.reg (a + 12) &&& 0x80000000) ||| 0x40000000)
  else s

/-- A refused write of EQ_BASE_HIq discards the staged low word (R455). -/
def eqBaseWrite (s : State) (m : Master) (q : Nat) (value : Word) : State :=
  let a := pageBase .keys + Reg.KEYS_EQ_BASE_LO + 16 * q
  gated s m (a + 4) (fun s =>
    match eqBaseCheck s m q value with
    | some c => (s.unstage m a).refuse m .keys c (a + 4) (a + 4)
    | none => (eqBaseOp s m q value).noteWrite (a + 4))

/-- EQ_BASE_WRITE (R455). -/
def execEqBaseWrite (m : Master) (q : Fin 16) (value : Word) (s : State) : Host.Outcome State Fault Refusal :=
  .next (eqBaseWrite s m q value)

/-- A HEAD that would free entries not yet written, or lies outside the queue (R456, R386). -/
def eqHeadCheck (s : State) (q : Nat) (value : Word) : Option Cause :=
  let n := eqSize s q
  let i := fget value 11 0
  if n ≤ i ∨ (eqTail s q + n - eqHead s q) % n < (i + n - eqHead s q) % n then some .range else none

/-- EQ_HEAD_WRITE (R456). -/
def execEqHeadWrite (m : Master) (q : Fin 16) (value : Word) (s : State) : Host.Outcome State Fault Refusal :=
  .next (writeReg s m (pageBase .keys + Reg.KEYS_EQ_HEAD + 16 * q.val) (fun s => eqHeadCheck s q value)
    (fun s => s.setPr .keys (Reg.KEYS_EQ_HEAD + 16 * q) (value &&& 0xFFF)))

end Sys2Proof.Machine
end

