-- ==== Sys2Proof/Machine/LegendOps.lean ====
section
/-!
DEFINITION. Machine/LegendOps.lean: the commands of the Legend engine (R195 to R229).
-/
namespace Sys2Proof.Machine

/-- Why setting LEGEND.CTRL.ENABLE is refused (R48, R195). -/
def legendEnableCheck (s : State) : Option Cause :=
  let b := ptBase s
  let mirror := s.pf .legend Reg.LEGEND_PT_CFG 0 0 = 1
  if s.enabled .legend then none
  else if s.busy .legend then some .inuse
  else if b < watermarkAddr s ∨ memTop s < b + 0x100000 ∨ (mirror ∧ memTop s < mirrorAddr s b + 0x100000) then some .range
  else none

/-- The op of setting LEGEND.CTRL.ENABLE (R195, R353); nothing where it is set. -/
def legendEnableOp (s : State) : State :=
  if s.enabled .legend then s else ptMirrorStart (s.setHf .legend .ctrl 0 0 1)

/-- LEGEND_ENABLE (R195). -/
def execLegendEnable (m : Master) (s : State) : Host.Outcome State Fault Refusal :=
  .next (writeReg s m (hadr .legend .ctrl) legendEnableCheck legendEnableOp)

/-- POINT_RECORD_ACCEPT (R199, R200): the oldest submitted record of a master, in its order. -/
def execPointRecordAccept (m : Master) (s : State) : Host.Outcome State Fault Refusal :=
  match s.legend.queue.find? (fun r => r.code == m.code) with
  | none => .next s
  | some r =>
    .next (pointAccept (s.setLegend { s.legend with queue := s.legend.queue.eraseP (fun x => x.code == m.code) }) r)

/-- POINT_ENTRY_READ (R199). -/
def execPointEntryRead (s : State) : Host.Outcome State Fault Refusal := .next (pointApply s)

/-- The UPD_HI write of Heartwood or Sapwood submits a record with the low word it staged (R202). -/
def updHiOp (s : State) (m : Master) (v : Word) : State :=
  if m = .heartwood ∨ m = .sapwood then
    let a := pageBase .legend + Reg.LEGEND_UPD_LO
    let lo := ((s.staged m a a).find? (fun w => w.1 == a)).elim 0 (fun w => w.2.toNat)
    let s := s.unstage m a
    let w := lo + 2 ^ 32 * v.toNat
    s.setLegend { s.legend with queue := s.legend.queue ++
      [⟨w, m.code, rangeOwned s 0 (bits w 17 0) m.code, none⟩] }
  else s.refuse m .legend .owner Reg.LEGEND_UPD_HI (pageBase .legend + Reg.LEGEND_UPD_HI)

/-- UPD_HI_WRITE (R202): R73 does not apply to it. -/
def execUpdHiWrite (m : Master) (value : Word) (s : State) : Host.Outcome State Fault Refusal :=
  .next (gated s m (pageBase .legend + Reg.LEGEND_UPD_HI) (fun s => updHiOp s m value))

/-- The op of writing xR_HIj (R204): with the staged low word, or the one in force. -/
def rangeWriteOp (s : State) (m : Master) (t j : Nat) (v : Word) : State :=
  let (b, cnt, _) := rangeTable t
  let a := pageBase .legend + b + 8 * j
  if cnt ≤ j then s
  else
    let lo := ((s.staged m (pageBase .legend + b) a).find? (fun w => w.1 == a)).elim (s.reg a) (·.2)
    let hi := v &&& 0xFFC3FFFF
    let s := s.unstage m (pageBase .legend + b)
    if rangeWriteOk s t j lo hi then ((s.setReg a (lo &&& 0x3FFFF)).setReg (a + 4) hi).noteWrite (a + 4)
    else s.refuse m .legend .range (b + 8 * j + 4) (a + 4)

/-- RANGE_WRITE (R204). -/
def execRangeWrite (m : Master) (t : Fin 3) (j : Fin 64) (value : Word) (s : State) :
    Host.Outcome State Fault Refusal :=
  .next (gated s m (pageBase .legend + (rangeTable t).1 + 8 * j.val + 4) (fun s => rangeWriteOp s m t j value))

/-- The words of a staged table entry: staged where staged, else in force, word 3 the value written (R69). -/
def entryWords (s : State) (m : Master) (table a : Nat) (v : Word) : List Word :=
  let st := s.staged m table a
  let w (k : Nat) : Word := (st.find? (fun e => e.1 == a + 4 * k)).elim (s.reg (a + 4 * k)) (·.2)
  [w 0, w 1, w 2, v]

/-- The op of writing word 3 of a style entry (R206, R211, R212). -/
def styleEntryOp (s : State) (m : Master) (e : Nat) (v : Word) : State :=
  let a := 0x170000 + 16 * e
  if !rangeOwned s 1 e m.code then s.refuse m .legend .owner (a + 12) (a + 12)
  else
    let ws := entryWords s m 0x170000 a v
    let w (k : Nat) : Word := ws.getD k 0
    let s := s.unstage m 0x170000
    if styleOk (w 0) (w 1) (w 2) (w 3) then
      (((((s.setReg a (w 0)).setReg (a + 4) (w 1)).setReg (a + 8) (w 2)).setReg (a + 12) (w 3))).noteWrite (a + 12)
    else s.refuse m .legend .range (a + 12) (a + 12)

/-- STYLE_ENTRY_WRITE (R211). -/
def execStyleEntryWrite (m : Master) (e : Fin 4096) (value : Word) (s : State) : Host.Outcome State Fault Refusal :=
  .next (gated s m (0x170000 + 16 * e.val + 12) (fun s => styleEntryOp s m e value))

/-- The op of writing word 3 of a glyph entry: WRITER is recorded and the resident copy dropped (R206, R211,
R214, R226). -/
def glyphEntryOp (s : State) (m : Master) (e : Nat) (v : Word) : State :=
  let a := 0x180000 + 16 * e
  if !rangeOwned s 2 e m.code then s.refuse m .legend .owner (a + 12) (a + 12)
  else
    let ws := entryWords s m 0x180000 a v
    let w (k : Nat) : Word := ws.getD k 0
    let s := s.unstage m 0x180000
    if glyphOk (w 0) (w 2) then
      let s := s.setReg a (w 0)
      let s := s.setReg (a + 4) ((w 1 &&& 0xFFFF) ||| w32 (2 ^ 24 * m.code))
      let s := s.setReg (a + 8) (w 2 &&& 0x33F3F)
      (dropGlyph (s.setReg (a + 12) (w 3 &&& 0xFFFF)) e).noteWrite (a + 12)
    else s.refuse m .legend .range (a + 12) (a + 12)

/-- GLYPH_ENTRY_WRITE (R226). -/
def execGlyphEntryWrite (m : Master) (e : Fin 8192) (value : Word) (s : State) : Host.Outcome State Fault Refusal :=
  .next (gated s m (0x180000 + 16 * e.val + 12) (fun s => glyphEntryOp s m e value))

/-- SNAPSHOT (R219 to R221, R228): records accepted so far are applied, then the row is captured; a cell map
fault is a layer fault of L14, and uncorrectable cell words give FILL on the row's lines. -/
def execSnapshot (n : Fin 12) (r : Fin 540) (s : State) : Host.Outcome State Fault Refusal :=
  let g (o : Nat) : Word := s.pr (.layer n 14) o
  let (_, _, _, rows) := legendCell g
  if !(layerActive s n 14) || !s.enabled .legend || rows ≤ r.val || (legendRowSpan s n r).isEmpty then .next s
  else
    let s := pointFlush s.legend.accepted.length s
    let cols := visibleCols s n
    let a := s.pair (.layer n 14) Reg.LAYERL_CELLMAP_LO + r.val * fget (g Reg.LAYERL_CM_PITCH) 15 0
    let c0 := cols.headD 0
    let first := (legendRowSpan s n r).headD 0
    match ownerRead s (committer s n 14) legendAgent false (a + 4 * c0) (4 * cols.length) with
    | (s, .error (.uncorrectable x)) => .next ((legendRowSpan s n r).foldl (fun s y => layerData s n 14 y x) s)
    | (s, .error (.translation x)) => .next (layerFault s n 14 first 0 1 x)
    | (s, .error (.watermark x)) => .next (layerFault s n 14 first 0 2 x)
    | (s, .ok b) =>
      let (s, caps) := captureCells s n (cols.zip (wordsOf 4 cols.length b))
      .next (s.setLegend { s.legend with
        snaps := s.legend.snaps.filter (fun x => !(x.head == n.val && x.row == r.val)) ++ [⟨n, r, caps⟩],
        failed := s.legend.failed.filter (fun x => !(x.1 == n.val && x.2.1 == r.val)) })

/-- GLYPH_FILL (R223, R225): a captured glyph that is not resident is fetched, within the fill tokens. -/
def execGlyphFill (n : Fin 12) (g : Fin 8192) (s : State) : Host.Outcome State Fault Refusal :=
  match capturedGlyph s n g with
  | none => .next s
  | some gl =>
    if (residentGlyph s gl).isSome then
      .next (s.setLegend { s.legend with
        cache := s.legend.cache.filter (fun r => r.glyph != g.val) ++ s.legend.cache.filter (fun r => r.glyph == g.val) })
    else
      let need := 1200 * glyphBytes gl.words
      let have_ := fillTokens s n
      if have_ < need then .next s
      else
        let s := s.setLegend { s.legend with
          tokens := aset (65536 * 1200, 0) s.legend.tokens n (have_ - need, s.fclk) }
        .next (glyphFetch s n gl)

/-- A parity error on a cache line: fault bit 2, the line is dropped and fetched again (R224). -/
def glyphParity (s : State) (n g : Nat) : State :=
  match capturedGlyph s n g with
  | none => s
  | some gl =>
    if (residentGlyph s gl).isNone then s
    else glyphFetch (raiseFault (dropGlyph s g) .legend 2) n gl

/-- GLYPH_CACHE_PARITY (R224). -/
def execGlyphCacheParity (n : Fin 12) (g : Fin 8192) (s : State) : Host.Outcome State Fault Refusal :=
  .next (glyphParity s n g)

/-- GLYPH_FETCH_FAULT (R224). -/
def execGlyphFetchFault (n : Fin 12) (g : Fin 8192) (s : State) : Host.Outcome State Fault Refusal :=
  .next (if (capturedGlyph s n g).isSome then glyphFail s n g else s)

/-- POINT_READ_FAIL (R229): the captured cell is drawn with VALUE 0 and QUAL 0x01, or empty. -/
def execPointReadFail (n : Fin 12) (r : Fin 540) (c : Fin 960) (s : State) : Host.Outcome State Fault Refusal :=
  match s.legend.snaps.find? (fun x => x.head == n.val && x.row == r.val) with
  | none => .next s
  | some sn =>
    let g (o : Nat) : Word := s.pr (.layer n 14) o
    let a := s.pair (.layer n 14) Reg.LAYERL_CELLMAP_LO + r.val * fget (g Reg.LAYERL_CM_PITCH) 15 0 + 4 * c.val
    match ownerRead s (committer s n 14) legendAgent false a 4 with
    | (s, .error _) => .next s
    | (s, .ok b) =>
      let s := raiseFault s .legend 0
      let cap := (captureCell s n c (ofLeBytes b) none).getD ⟨c, 0, []⟩
      let sn := { sn with cells := sn.cells.map (fun x => if x.col = c.val then cap else x) }
      .next (s.setLegend { s.legend with
        snaps := s.legend.snaps.filter (fun x => !(x.head == n.val && x.row == r.val)) ++ [sn] })

end Sys2Proof.Machine
end

