-- ==== Sys2Proof/Machine/MemCmds.lean ====
section
/-!
DEFINITION. Machine/MemCmds.lean: the commands of device memory: accesses, damage and correction, the recoder,
mirror windows, the shim table, the scrubber, refresh, retraining, self-refresh and initialisation (R330 to R368,
R414, R529).
-/
namespace Sys2Proof.Machine

/-- Status of an access answer. -/
def accStatus : AccErr → Nat
  | .translation _ => 1
  | .watermark _ => 2
  | .uncorrectable _ => 3

/-- Keep the answer of a read. -/
def answerRead (agent addr : Nat) (r : State × Except AccErr (List Nat)) : State :=
  let a : BusAnswer := match r.2 with
    | .ok b => ⟨agent, addr, 0, b⟩
    | .error e => ⟨agent, addr, accStatus e, []⟩
  { r.1 with mem := { r.1.mem with answer := some a } }

/-- Keep the answer of a write. -/
def answerWrite (agent addr : Nat) (r : State × Except AccErr Unit) : State :=
  let a : BusAnswer := match r.2 with
    | .ok _ => ⟨agent, addr, 0, []⟩
    | .error e => ⟨agent, addr, accStatus e, []⟩
  { r.1 with mem := { r.1.mem with answer := some a } }

/-- MEMORY_READ (R343). -/
def execMemoryRead (agent : Fin 29) (sec : Bool) (addr : BitVec 48) (len : Fin 4097) (s : State) :
    Host.Outcome State Fault Refusal :=
  .next (answerRead agent addr.toNat (busRead s agent sec addr.toNat len))

/-- Bytes of an operand as numbers under their mask. -/
def maskedBytes (b : List (Option (BitVec 8))) : List (Option Nat) := b.map (fun x => x.map (·.toNat))

/-- MEMORY_WRITE (R335). -/
def execMemoryWrite (agent : Fin 29) (sec : Bool) (addr : BitVec 48) (bytes : List (Option (BitVec 8))) (s : State) :
    Host.Outcome State Fault Refusal :=
  .next (answerWrite agent addr.toNat (busWriteMasked s agent sec addr.toNat (maskedBytes bytes)))

/-- A write that meets the injection KIND armed on the channel of its first line (R520); none is armed: nothing. -/
def flipWrite (s : State) (kind agent : Nat) (sec : Bool) (addr : Nat) (bytes : List (Option (BitVec 8))) : State :=
  if (armed s (.memch (chanOf s addr)) kind).isSome then
    answerWrite agent addr (busWriteMasked s agent sec addr (maskedBytes bytes))
  else s

/-- DATA_FLIP (R520, KIND 0x40). -/
def execDataFlip (agent : Fin 26) (sec : Bool) (addr : BitVec 48) (bytes : List (Option (BitVec 8))) (s : State) :
    Host.Outcome State Fault Refusal := .next (flipWrite s 0x40 agent sec addr.toNat bytes)

/-- PARITY_FLIP (R520, KIND 0x41). -/
def execParityFlip (agent : Fin 26) (sec : Bool) (addr : BitVec 48) (bytes : List (Option (BitVec 8))) (s : State) :
    Host.Outcome State Fault Refusal := .next (flipWrite s 0x41 agent sec addr.toNat bytes)

/-- SILENT_FLIP (R520, KIND 0x42). -/
def execSilentFlip (agent : Fin 26) (sec : Bool) (addr : BitVec 48) (bytes : List (Option (BitVec 8))) (s : State) :
    Host.Outcome State Fault Refusal := .next (flipWrite s 0x42 agent sec addr.toNat bytes)

/-- Damage of stored bytes of a page: data bits and the parity bit flip (R334). -/
def damagePage (s : State) (page : Nat) (d : List (BitVec 12 × BitVec 9)) : State :=
  d.foldl (fun s e =>
    let a := 4096 * page + e.1.toNat
    let m := e.2.toNat
    let bad := isBad s a
    setBad (memSet s a (memByte s a ^^^ m % 256)) a ((bad != parity (m % 256)) != bit m 8)) s

/-- A line of DRAM that can hold damage: in usable memory and touched. -/
def damageable (s : State) (a : Nat) : Bool := a < memTop s && !untouched s (a / 4096)

/-- The read that meets damage: one line. -/
def lineRead (s : State) (agent : Nat) (sec : Bool) (addr : Nat) : State :=
  answerRead agent addr (busRead s agent sec (addr / 64 * 64) 64)

/-- CORRECTING_READ (R344): nothing where the page's code is not current. -/
def execCorrectingRead (agent : Fin 29) (sec : Bool) (addr : BitVec 48) (damage : List (BitVec 12 × BitVec 9))
    (s : State) : Host.Outcome State Fault Refusal :=
  let p := addr.toNat / 4096
  if damageable s addr.toNat && codeCurrent s p then .next (lineRead (damagePage s p damage) agent sec addr.toNat)
  else .next s

/-- STALE_REREAD (R346): a mismatch that the second read does not show is counted as corrected. -/
def execStaleReread (agent : Fin 29) (sec : Bool) (addr : BitVec 48) (damage : List (BitVec 12 × BitVec 9)) (gone : Bool)
    (s : State) : Host.Outcome State Fault Refusal :=
  let p := addr.toNat / 4096
  if !damageable s addr.toNat || codeCurrent s p then .next s
  else if gone then
    match busRead s agent sec (addr.toNat / 64 * 64) 64 with
    | (s, .ok b) => .next (answerRead agent addr.toNat (memCorrected s addr.toNat, .ok b))
    | (s, .error e) => .next (answerRead agent addr.toNat (s, .error e))
  else .next (lineRead (damagePage s p damage) agent sec addr.toNat)

/-- MIRROR_READ (R351): nothing where the address lies in no primary half. -/
def execMirrorRead (agent : Fin 29) (sec : Bool) (addr : BitVec 48)
    (damage mirrorDamage : List (BitVec 12 × BitVec 9)) (s : State) : Host.Outcome State Fault Refusal :=
  match mirrorOf s addr.toNat with
  | some (_, false) =>
    let s := if damageable s addr.toNat then damagePage s (addr.toNat / 4096) damage else s
    let q := mirrorAddr s addr.toNat
    let s := if damageable s q then damagePage s (q / 4096) mirrorDamage else s
    .next (lineRead s agent sec addr.toNat)
  | _ => .next s

/-- PAGE_RECODE (R339 to R342). -/
def execPageRecode (s : State) : Host.Outcome State Fault Refusal := .next (recodeHead s)

/-! Mirror windows (R350 to R353). -/

/-- Primary ranges of a pair: first address and length. -/
def primaryHalves (s : State) (k : Nat) : List (Nat × Nat) :=
  if k = 16 then (if ptMirrored s then [(ptTableBase s, 0x100000)] else [])
  else match mirWindow s k with
    | some (b, e) => (List.range ((e - b) / 4194304)).map (fun i => (b + 4194304 * i, 2097152))
    | none => []

/-- Ranges that a window [b, e) overlaps. -/
def overlaps (b e lo hi : Nat) : Bool := b < hi && lo < e

/-- The write of MIR_HIk against R350. -/
def mirWindowCheck (s : State) (m : Master) (k : Nat) (value : Word) : Option Cause :=
  let lo := pageBase .memctl + Reg.MEMCTL_MIR_LO + 8 * k
  let base := fget (((s.staged m lo lo).find? (fun w => w.1 == lo)).elim (s.reg lo) (·.2)) 13 0
  let b := 4194304 * base
  let e := b + 4194304 * fget value 13 0
  let others := (List.range 16).any (fun j => j != k &&
    match mirWindow s j with | some (x, y) => overlaps b e x y | none => false)
  let pt := ptMirrored s && (overlaps b e (ptTableBase s) (ptTableBase s + 0x100000)
    || overlaps b e (mirrorAddr s (ptTableBase s)) (mirrorAddr s (ptTableBase s) + 0x100000))
  let old := mirWindow s k
  let low := (fbit value 31 && decide (b < watermarkAddr s)) ||
    (match old with | some (x, _) => decide (x < watermarkAddr s) | none => false)
  if fbit value 31 ∧ (fget value 13 0 = 0 ∨ memTop s < e ∨ others ∨ pt) then some .range
  else if low ∧ m ≠ .heartwood then some .owner
  else match old with
    | some (x, y) => if fbit value 31 ∧ ¬ (x = b ∧ y = e) then some .inuse else none
    | none => none

/-- The effect of MIR_HIk: the pair applies, and a window that becomes VALID, or stops being it, is not
synchronised (R350, R352). -/
def mirWindowOp (s : State) (m : Master) (k : Nat) (value : Word) : State :=
  let lo := pageBase .memctl + Reg.MEMCTL_MIR_LO + 8 * k
  let was := (mirWindow s k).isSome
  let s := (s.applyStaged m lo lo).setReg (lo + 4) (value &&& 0x80003FFF)
  if was && fbit value 31 then s else s.setPf .memctl Reg.MEMCTL_MIRROR_STATUS k k 0

/-- MIR_WINDOW_WRITE (R350). -/
def execMirWindowWrite (m : Master) (k : Fin 16) (value : Word) (s : State) : Host.Outcome State Fault Refusal :=
  .next (writeReg s m (pageBase .memctl + Reg.MEMCTL_MIR_HI + 8 * k.val) (fun s => mirWindowCheck s m k value)
    (fun s => mirWindowOp s m k value))

/-- One page of a mirror half has been written by the copy (R352, R529, R338). -/
def mirrorPageWritten (s : State) (page : Nat) : State :=
  if untouched s page then
    let s := { s with mem := { s.mem with touched := s.mem.touched ++ [page] } }
    putCode s page (pageCode s page)
  else recodeEnter s page

/-- Copy one primary range into its mirror half; damage that the page code cannot correct is copied with it
(R352). -/
def mirrorCopy (s : State) (a len : Nat) : State :=
  let lines := ((s.mem.bad.filter (fun x => a ≤ x && x < a + len)).map (fun x => x / 64 * 64)).eraseDups
  let s := lines.foldl (fun s l => (soundLine s l).1) s
  let q := mirrorAddr s a
  let out (x : Nat) : Bool := !(decide (q ≤ x) && decide (x < q + len))
  let inp (x : Nat) : Bool := decide (a ≤ x) && decide (x < a + len)
  let moved := s.mem.cells.filter (fun c => inp c.1)
  let cells := moved.foldl (fun cs c => aset 0 cs (c.1 - a + q) c.2) (s.mem.cells.filter (fun c => out c.1))
  let bad := s.mem.bad.filter out ++ (s.mem.bad.filter inp).map (fun x => x - a + q)
  let s := { s with mem := { s.mem with cells := cells, bad := bad } }
  (List.range (len / 4096)).foldl (fun s i => mirrorPageWritten s (q / 4096 + i)) s

/-- MIRROR_SYNC_DONE (R352, R353): nothing where the pair is not in force. -/
def execMirrorSyncDone (k : Fin 17) (s : State) : Host.Outcome State Fault Refusal :=
  match primaryHalves s k with
  | [] => .next s
  | hs =>
    let s := hs.foldl (fun s h => mirrorCopy s h.1 h.2) s
    .next ((s.setPf .memctl Reg.MEMCTL_MIRROR_STATUS k k 1).event .memctl 1)

/-! The shim table (R354, R355). -/

/-- RAW_LINE of the pair of entry k as a write of SHIM_HIk would leave it. -/
def shimLine (s : State) (m : Master) (k : Nat) : Nat :=
  let lo := pageBase .shim + Reg.SHIM_SHIM_LO + 8 * k
  fget (((s.staged m lo lo).find? (fun w => w.1 == lo)).elim (s.reg lo) (·.2)) 29 0

/-- Entry k is VALID. -/
def shimValid (s : State) (k : Nat) : Bool := s.pf .shim (Reg.SHIM_SHIM_HI + 8 * k) 31 31 == 1

/-- The write of SHIM_HIk against R355. -/
def shimCheck (s : State) (m : Master) (k : Nat) (value : Word) : Option Cause :=
  let l := shimLine s m k
  if shimValid s k then some .inuse
  else if fbit value 31 ∧ (37 * stripes s * 64 ≤ l ∨
      (List.range 32).any (fun j => j != k && shimValid s j && s.pf .shim (Reg.SHIM_SHIM_LO + 8 * j) 29 0 == l)) then
    some .range
  else none

/-- The effect of SHIM_HIk: the entry is VALID and its copy starts. -/
def shimOp (s : State) (m : Master) (k : Nat) (value : Word) : State :=
  let lo := pageBase .shim + Reg.SHIM_SHIM_LO + 8 * k
  (s.applyStaged m lo lo).setReg (lo + 4) (value &&& 0x80000000)

/-- SHIM_INSTALL (R355). -/
def execShimInstall (m : Master) (k : Fin 32) (value : Word) (s : State) : Host.Outcome State Fault Refusal :=
  .next (writeReg s m (pageBase .shim + Reg.SHIM_SHIM_HI + 8 * k.val) (fun s => shimCheck s m k value)
    (fun s => shimOp s m k value))

/-- Device physical address of a raw line that holds data (R332). -/
def rawLineAddr (l : Nat) : Option Nat :=
  let x := l / 64
  if x % 37 < 32 then some (4096 * (32 * (x / 37) + x % 37) + 64 * (l % 64)) else none

/-- SHIM_COPY_DONE (R355): the corrected value is in the spare line and the redirection in force; a line that cannot
be read sets SHIM fault bit 0. Surveyor keeps the entry. -/
def execShimCopyDone (k : Fin 32) (s : State) : Host.Outcome State Fault Refusal :=
  let o := Reg.SHIM_SHIM_HI + 8 * k.val
  if !shimValid s k || s.pf .shim o 30 30 == 1 then .next s
  else
    let s := match rawLineAddr (s.pf .shim (Reg.SHIM_SHIM_LO + 8 * k.val) 29 0) with
      | none => s
      | some a => match soundLine s a with
        | (s, .ok _) => s
        | (s, .error _) => raiseFault s .shim 0
    let s := { s with surv := { s.surv with
      shims := aset 0 s.surv.shims k (s.pf .shim (Reg.SHIM_SHIM_LO + 8 * k.val) 29 0 + 1) } }
    .next ((s.setPf .shim o 30 30 1).event .shim 0)

/-! The scrubber (R357, R358). -/

/-- One page under the scrubber. -/
def scrubPage (s : State) (page : Nat) : State :=
  if initWm s ≤ 4096 * page || !codeCurrent s page then s
  else
    match decodeWords s page (List.range 32) with
    | some [] => s
    | some fx => memCorrected (applyFixes s fx) (4096 * page)
    | none => s.logLimited (2100 + chanOf s (4096 * page)) 1000000 .memory (pageBase .memctl) 1 (4096 * page)

/-- The scrub period in nanoseconds. -/
def scrubPeriod (s : State) : Nat := 60000000000 * s.pf .memctl Reg.MEMCTL_SCRUB_PERIOD 15 0

/-- SCRUB_STRIPE (R357, R358): the stripe of SCRUB_POS, and the end of the pass with the last one. -/
def execScrubStripe (s : State) : Host.Outcome State Fault Refusal :=
  if s.mem.scrubWait || stripes s == 0 then .next s
  else
    let k := s.pf .memctl Reg.MEMCTL_SCRUB_POS 19 0
    let s := (List.range 32).foldl (fun s j => scrubPage s (32 * k + j)) s
    if k + 1 < stripes s then .next (s.setPf .memctl Reg.MEMCTL_SCRUB_POS 19 0 (k + 1))
    else
      let s := (s.setPf .memctl Reg.MEMCTL_SCRUB_POS 19 0 0).count .memctl Reg.MEMCTL_SCRUB_PASSES
      let late := decide (s.mem.scrubStart + scrubPeriod s ≤ s.devtime)
      .next { s with mem := { s.mem with
        scrubWait := !late, scrubStart := if late then s.devtime else s.mem.scrubStart } }

/-- SCRUB_PERIOD_START (R358): a pass that waits for the boundary starts. -/
def execScrubPeriodStart (s : State) : Host.Outcome State Fault Refusal :=
  if s.mem.scrubWait && decide (s.mem.scrubStart + scrubPeriod s ≤ s.devtime) then .next { s with mem := { s.mem with scrubWait := false, scrubStart := s.devtime } }
  else .next s

/-! Refresh and retraining (R33, R359, R361). -/

/-- Write a field of CH_STATUS. -/
def setChStatus (s : State) (c hi lo v : Nat) : State := s.setPf (.memch c) Reg.MEMCH_CH_STATUS hi lo v

/-- REFRESH_INTERVAL (R359): an interval counts one postponed refresh, those issued count down, and at 8 an all-bank
refresh is forced. -/
def execRefreshInterval (c : Fin 32) (issued : Fin 10) (s : State) : Host.Outcome State Fault Refusal :=
  let n := chStatus s c 15 12 + 1 - issued.val
  if 8 ≤ n then
    .next (raiseFault ((setChStatus s c 15 12 0).count (.memch c) Reg.MEMCH_FORCED_REFAB) (.memch c) 3)
  else .next (setChStatus s c 15 12 n)

/-- A channel may pause for retraining now (R33, R361): none is paused, and its POSTPONED is at most 4. -/
def mayRetrain (s : State) (c : Nat) : Bool :=
  (List.range 32).all (fun k => chStatus s k 3 3 == 0) && chStatus s c 15 12 ≤ 4

/-- The first channel whose retraining is due and may start, starts. -/
def retrainNext (s : State) : State :=
  match s.mem.retrainDue.find? (mayRetrain s) with
  | none => s
  | some c =>
    let s := leaveSelfRefresh s c
    setChStatus { s with mem := { s.mem with retrainDue := s.mem.retrainDue.filter (fun x => x != c) } } c 3 3 1

/-- Retraining of a channel falls due. -/
def retrainFallsDue (s : State) (c : Nat) : State :=
  retrainNext (if s.mem.retrainDue.contains c || chStatus s c 3 3 == 1 then s
    else { s with mem := { s.mem with retrainDue := s.mem.retrainDue ++ [c] } })

/-- TEMP_POLL (R359, R361): a move of 5 °C since the last retraining makes one due. -/
def execTempPoll (c : Fin 32) (rate : BitVec 4) (temp : BitVec 8) (s : State) : Host.Outcome State Fault Refusal :=
  let s := setChStatus s c 11 8 rate.toNat
  let s := s.setPf (.memch c) Reg.MEMCH_TEMP 15 8 temp.toNat
  let old := sext (s.pf (.memch c) Reg.MEMCH_TEMP 7 0) 8
  let d := sext temp.toNat 8 - old
  .next (if 5 ≤ d ∨ d ≤ -5 then retrainFallsDue s c else retrainNext s)

/-- PERIODIC_RETRAIN (R361). -/
def execPeriodicRetrain (c : Fin 32) (s : State) : Host.Outcome State Fault Refusal := .next (retrainFallsDue s c)

/-- RETRAIN_DONE (R33): the pause ends; a failed eye check keeps the old values and is logged CORRECTED. -/
def execRetrainDone (c : Fin 32) (ok : Bool) (s : State) : Host.Outcome State Fault Refusal :=
  if chStatus s c 3 3 = 0 then .next s
  else
    let s := setChStatus s c 3 3 0
    let w := s.pr (.memch c) Reg.MEMCH_RETRAINS
    let s := if ok then
        let s := s.setPr (.memch c) Reg.MEMCH_RETRAINS (fset w 15 0 (fget w 15 0 + 1))
        s.setPf (.memch c) Reg.MEMCH_TEMP 7 0 (s.pf (.memch c) Reg.MEMCH_TEMP 15 8)
      else raiseFault (s.setPr (.memch c) Reg.MEMCH_RETRAINS (fset w 31 16 (fget w 31 16 + 1))) (.memch c) 2
    .next (retrainNext s)

/-! Self-refresh (R362, R363). -/

/-- A real-time reader pins every channel (R362); in Safe only L15 counts. -/
def realTimePins (s : State) : Bool :=
  let safe := s.mode.mode == .safe
  (List.range 12).any (fun n => (List.range 16).any (fun l =>
    s.enabled (.layer n l) && (!safe || (l == 15 && !s.safe.hwAtFault)))) ||
  (!safe && (s.enabled .legend || (List.range 48).any (fun k => s.pf .audio (Reg.AUDIO_SRC_BASE_LO + 16 * k) 0 0 == 1)))

/-- SELF_REFRESH_ENTRY (R362). -/
def execSelfRefreshEntry (c : Fin 32) (s : State) : Host.Outcome State Fault Refusal :=
  let w := s.pr (.memch c) Reg.MEMCH_SR_CFG
  let idle := aget 0 s.mem.lastReq c + 1000 * fget w 31 16 ≤ s.devtime
  if fbit w 0 && !fbit w 1 && idle && !s.mem.retrainDue.contains c.val && chStatus s c 3 3 == 0 && chStatus s c 2 2 == 0
      && !realTimePins s then
    .next ((setChStatus s c 2 2 1).count (.memch c) Reg.MEMCH_SR_COUNT)
  else .next s

/-- SELF_REFRESH_EXIT (R363). -/
def execSelfRefreshExit (c : Fin 32) (s : State) : Host.Outcome State Fault Refusal :=
  .next (leaveSelfRefresh { s with mem := { s.mem with lastReq := aset 0 s.mem.lastReq c s.devtime } } c)

/-! CLR_MAX, initialisation, secure SRAM. -/

/-- RATE of RECODE_CFG is in range (R364). -/
def recodeCfgCheck (value : Word) : Option Cause :=
  if 1 ≤ fget value 5 0 ∧ fget value 5 0 ≤ 50 then none else some .range

/-- The effect of RECODE_CFG (R364). -/
def recodeCfgOp (s : State) (value : Word) : State :=
  let s := s.setPr .memctl Reg.MEMCTL_RECODE_CFG (value &&& 0x3F)
  if fbit value 31 then s.setPair .memctl Reg.MEMCTL_STALE_WINDOW_MAX_LO 0 else s

/-- CLR_MAX (R364). -/
def execClrMax (m : Master) (value : Word) (s : State) : Host.Outcome State Fault Refusal :=
  .next (writeReg s m (pageBase .memctl + Reg.MEMCTL_RECODE_CFG) (fun _ => recodeCfgCheck value)
    (fun s => recodeCfgOp s value))

/-- MEM_INIT_STRIPE (R529): untouched pages of the next stripe become initialised zeros, and the watermark rises;
at the top the bitmap is discarded. -/
def execMemInitStripe (s : State) : Host.Outcome State Fault Refusal :=
  if !s.mem.initOn then .next s
  else
    let wm := initWm s + 0x20000
    let s := s.setPair .dev Reg.DEV_MEM_INIT_WM_LO wm
    if memTop s ≤ wm then
      .next ({ s with mem := { s.mem with touched := [], initOn := false } }.event .dev 2)
    else .next { s with mem := { s.mem with touched := s.mem.touched.filter (fun p => wm ≤ 4096 * p) } }

/-- SECURE_SRAM_PARITY (R414, R415): the byte's parity fails and a secure read meets it. -/
def execSecureSramParity (agent : Fin 26) (off : BitVec 20) (s : State) : Host.Outcome State Fault Refusal :=
  let a := 0x1010000000 + off.toNat
  .next (lineRead (setBad s a true) agent true a)

end Sys2Proof.Machine
end

