-- ==== Sys2Proof/Machine/RegRead.lean ====
section
/-!
DEFINITION. Machine/RegRead.lean: what a register reads: the registers that hold a value of their own, the ones
that show state kept elsewhere, and what a master is shown (R41 to R47, R62, R81, R378, R380, R545).
-/
namespace Sys2Proof.Machine

/-! Interrupt and fault views. -/

/-- Every page with a common header, in the order of PF BAR0 (R80). -/
def allPages : List Page :=
  [.dev, .clkpwr, .fabric, .sched, .xlate, .hostif 0, .hostif 1] ++ (List.range 64).map Page.func ++
  (List.range 12).flatMap (fun n => [.timing n, .composer n, .dplink n]) ++
  [.scaler, .veneer, .legend, .kerf, .renderFe, .bin] ++ (List.range 48).map Page.bay ++ [.memctl, .shim] ++
  (List.range 32).map Page.memch ++ [.keys, .haptic] ++ (List.range 16).map Page.hapch ++ [.audio] ++
  (List.range 16).map Page.cvu ++ [.ctrlcplx, .world, .surveyorMb, .legacy]

/-- IRQ_STATUS.FAULT: a set fault bit has an action of IRQ or higher (R50). -/
def irqFault (s : State) (p : Page) : Bool :=
  let st := (s.hd p .faultStatus).toNat
  st != 0 && (List.range 32).any (fun b => bit st b && 1 ≤ actionOf s p b)

/-- IRQ_STATUS as it reads (R50); DE_WORDS of the LEGACY page is set while words wait in the ring (R582). -/
def irqStatus (s : State) (p : Page) : Word :=
  let w := fsetb (s.hd p .irqStatus) 31 (irqFault s p)
  if p = .legacy ∧ s.pr .legacy Reg.LEGACY_DE_RING_WR ≠ s.pr .legacy Reg.LEGACY_DE_RING_RD then fsetb w 0 true else w

/-- A page asserts its interrupt (R51). -/
def irqAsserted (s : State) (p : Page) : Bool := irqStatus s p &&& s.hd p .irqEnable != 0

/-- A VALID key event queue of an owner holds records (R456). -/
def queueWaits (s : State) (code : Nat) : Bool :=
  (List.range 16).any (fun q => eqValid s q && queueOwner s q == code && eqHead s q != eqTail s q)

/-- The page is a secure source, or a normal one, that is pending (R423, R545). -/
def secureSource (s : State) (p : Page) : Bool :=
  match p with
  | .surveyorMb => fbit (s.hd p .irqStatus &&& s.hd p .irqEnable) 2
  | .world => irqAsserted s p
  | .keys => (s.owner p == 0x40 && irqAsserted s p) || queueWaits s 0x40
  | _ => s.owner p == 0x40 && irqAsserted s p
def normalSource (s : State) (p : Page) : Bool :=
  match p with
  | .surveyorMb => fbit (s.hd p .irqStatus &&& s.hd p .irqEnable) 3
  | .keys => (s.owner p == 0x42 && irqAsserted s p) || queueWaits s 0x42
  | _ => s.owner p == 0x42 && irqAsserted s p

/-- SEC_IRQ_NEXT or SAP_IRQ_NEXT (R425). -/
def irqNext (s : State) (src : State → Page → Bool) : Nat :=
  match allPages.find? (src s) with
  | some p => 2 ^ 31 + pageBase p / 0x1000
  | none => 0

/-- The severity of a page's set fault bits (R502). -/
def pageSeverity (s : State) (p : Page) : Nat :=
  let st := (s.hd p .faultStatus).toNat
  if st = 0 then 0 else (List.range 32).foldl (fun acc b => if bit st b then max acc (faultSev p b) else acc) 0

/-- FAULT_STATUS of a page is not 0. -/
def faulty (s : State) (p : Page) : Bool := s.hd p .faultStatus != 0

/-- FAULT_SUMMARY for a secure or other read (R502). -/
def faultSummary (s : State) (sec : Bool) : Nat :=
  let ps := allPages.filter (fun p => sec || p != .world)
  let groups := maskOf 26 (fun g => (sec || g != 23) && (groupPages g).any (faulty s))
  2 ^ 28 * ps.foldl (fun acc p => max acc (pageSeverity s p)) 0 + groups

/-! Single pages. -/

/-- DEV.MODE (R22). -/
def modeWord (s : State) : Nat :=
  s.mode.mode.code + s.cfg.profile % 2 * 16 + (if s.cfg.profile = 0 then 1 else s.cfg.portB % 2) * 32 +
    s.mode.prior.code * 256 + 2 ^ 11 * b2n s.mode.safeHw

/-- DEV registers that show state kept elsewhere (R20 to R23, R502, R531). -/
def devView (s : State) (sec : Bool) (o : Nat) : Option Nat :=
  let heads (f : Page → Bool) (all : Bool) : Nat := maskOf 12 (fun n =>
    let l := [Page.timing n, Page.composer n, Page.dplink n]
    if all then l.all f else l.any f)
  if o = Reg.DEV_MODE then some (modeWord s)
  else if o = Reg.DEV_MODE_TIME_LO then some (s.mode.time % 2 ^ 32)
  else if o = Reg.DEV_MODE_TIME_HI then some (s.mode.time / 2 ^ 32)
  else if o = Reg.DEV_DEVTIME_LO then some (s.devtime % 2 ^ 32)
  else if o = Reg.DEV_DEVTIME_HI then some (s.devtime / 2 ^ 32)
  else if o = Reg.DEV_READY_MAP then some (maskOf 26 (groupReady s))
  else if o = Reg.DEV_READY_MAP_HEAD then some (heads s.ready true)
  else if o = Reg.DEV_READY_MAP_BAY_LO then some (maskOf 32 (fun b => s.ready (.bay b)))
  else if o = Reg.DEV_READY_MAP_BAY_HI then some (maskOf 16 (fun b => s.ready (.bay (32 + b))))
  else if o = Reg.DEV_READY_MAP_MEMCH then some (maskOf 32 (fun c => s.ready (.memch c)))
  else if o = Reg.DEV_BOOT_COUNT then some s.surv.bootCount
  else if o = Reg.DEV_FAULT_SUMMARY then some (faultSummary s sec)
  else if o = Reg.DEV_FAULT_SUMMARY_HEAD then some (heads (faulty s) false)
  else if o = Reg.DEV_FAULT_SUMMARY_BAY_LO then some (maskOf 32 (fun b => faulty s (.bay b)))
  else if o = Reg.DEV_FAULT_SUMMARY_BAY_HI then some (maskOf 16 (fun b => faulty s (.bay (32 + b))))
  else if o = Reg.DEV_FAULT_SUMMARY_MEMCH then some (maskOf 32 (fun c => faulty s (.memch c)))
  else if o = Reg.DEV_FAULT_SUMMARY_FUNC_LO then some (maskOf 32 (fun k => faulty s (.func k)))
  else if o = Reg.DEV_FAULT_SUMMARY_FUNC_HI then some (maskOf 32 (fun k => faulty s (.func (32 + k))))
  else if o = Reg.DEV_FAULT_SUMMARY_UNIT then
    some (65536 * maskOf 16 (fun u => faulty s (.cvu u)) + maskOf 16 (fun ch => faulty s (.hapch ch)))
  else none

/-- The unit that UNIT_SEL names, by a number of its own: heads 0 to 11, CVUs 16 to 31, HAPCHs 32 to 47, KEYS 48,
AUDIO 49, LEGEND 50, VENEER 51 (R535). -/
def unitOf (s : State) : Option Nat :=
  match pageAt (0x1000 * s.pf .clkpwr Reg.CLKPWR_UNIT_SEL 13 0) with
  | some (.timing n, _) | some (.composer n, _) | some (.layer n _, _) | some (.dplink n, _) => some n
  | some (.cvu u, _) => some (16 + u)
  | some (.hapch ch, _) => some (32 + ch)
  | some (.keys, _) => some 48
  | some (.audio, _) => some 49
  | some (.legend, _) => some 50
  | some (.veneer, _) => some 51
  | _ => none

/-- POSITION: the line, its band, and blanking (R93). -/
def positionWord (s : State) (n : Nat) : Nat :=
  let h := s.head n
  let band := (List.range (numBands s n)).foldl (fun acc b => if bandStart s n b ≤ h.line then b else acc) 0
  let blank := h.raster.vActive ≤ h.line
  if h.running then h.line % 65536 + 2 ^ 16 * (if blank then 0 else band) + 2 ^ 24 * b2n blank else 0

/-- TARGET_FRAME (R108). -/
def targetFrame (s : State) (n : Nat) : Word :=
  let h := s.head n
  if !h.running then 1
  else s.pr (.timing n) Reg.TIMING_FRAME_COUNT + (if h.latched ∧ h.latchCycle ≠ some s.fclk then 2 else 1)

/-- COMPOSER registers that show state kept elsewhere (R108, R157, R160). -/
def composerView (s : State) (n o : Nat) : Option Nat :=
  if o = Reg.COMPOSER_TARGET_FRAME then some (targetFrame s n).toNat
  else if o = Reg.COMPOSER_NEXT_BAND then some (s.head n).nextBand
  else if o = Reg.COMPOSER_HEAD_COST then some (headCost s n)
  else if o = Reg.COMPOSER_RT_TOTAL then some (rtTotal s)
  else none

/-- COVERED of a layer: 1 in the bottom run, 2 and 3 in a floating run in use (R151). -/
def coveredCode (s : State) (n l : Nat) : Nat :=
  match (s.head n).runs.find? (fun r => r.usable && r.layers.contains l) with
  | some r => r.idx + 1
  | none => 0

/-- SCL_STATUS (R174, R178, R180 to R183). -/
def sclStatus (s : State) (n l : Nat) : Nat :=
  let g (o : Nat) : Word := s.pr (.layer n l) o
  let vb := vBypass g
  let taps := if tapsFit g then vTapsOf (fget (g Reg.LAYERV_SCL_CTRL) 13 12) else 2
  decim (g Reg.LAYERV_H_STEP).toNat + decim (g Reg.LAYERV_V_STEP).toNat * 4 +
    b2n (decide ((g Reg.LAYERV_H_STEP).toNat < 0x100000)) * 16 + b2n vb * 32 + b2n (hBypass g) * 64 +
    (if vb then 0 else taps * 256 + 65536 * bufWidth g)

/-- Layer registers that show state kept elsewhere (R151, R174). -/
def layerView (s : State) (n l o : Nat) : Option Nat :=
  if o = Reg.LAYER_LAYER_STATUS then
    some ((s.pr (.layer n l) o).toNat % 16 / 2 * 2 + fget (s.pr (.layer n l) o) 15 8 * 256 +
      b2n (layerActive s n l) + coveredCode s n l * 16)
  else if l < 4 ∧ o = Reg.LAYERV_SCL_STATUS then (if s.enabled (.layer n l) then some (sclStatus s n l) else some 0)
  else none

/-- VENEER registers that show state kept elsewhere (R169, R170). -/
def veneerView (s : State) (o : Nat) : Option Nat :=
  if Reg.VENEER_VSTATUS ≤ o ∧ (o - Reg.VENEER_VSTATUS) % 0x40 = 0 ∧ (o - Reg.VENEER_VSTATUS) / 0x40 < 12 then
    let n := (o - Reg.VENEER_VSTATUS) / 0x40
    let rs := (s.head n).runs
    some (2 ^ 24 * fget (s.pr .veneer o) 31 24 + 2 ^ 10 * b2n (veneerNoRoom s n) +
      maskOf 3 (fun r => rs.any (fun x => x.idx == r && x.building)) * 16 +
      maskOf 3 (fun r => rs.any (fun x => x.idx == r && x.usable)))
  else none

/-- Tiles of render jobs, and workgroups, that bay b carries. -/
def bayTiles (s : State) (b : Nat) : Nat :=
  s.sched.jobs.foldl (fun acc e => match e.2 with
    | some j => acc + (j.rend.flying.filter (fun x => x.2 == b)).length
    | none => acc) 0
def bayGroups (s : State) (b : Nat) : Nat :=
  s.sched.jobs.foldl (fun acc e => match e.2 with
    | some j => acc + (j.comp.flying.filter (fun x => x.2 == b)).length
    | none => acc) 0

/-- BAY_STATUS (R287). -/
def bayStatus (s : State) (b : Nat) : Nat :=
  let t := bayTiles s b
  let g := bayGroups s b
  let held := s.sched.preempting.any (fun e => e.1 == b)
  b2n (t != 0 || g != 0 || held) + b2n (g != 0) * 2 + 65536 * min t 7

/-- MEMCTL registers that show the recode queue (R341, R342). -/
def memctlView (s : State) (o : Nat) : Option Nat :=
  let age := match s.mem.recq with | [] => 0 | e :: _ => s.devtime - e.since
  if o = Reg.MEMCTL_RECODE_STATUS then some (2 ^ 24 * s.mem.held.length + s.mem.recq.length)
  else if o = Reg.MEMCTL_STALE_OLDEST_LO then some (age % 2 ^ 32)
  else if o = Reg.MEMCTL_STALE_OLDEST_HI then some (age / 2 ^ 32)
  else none

/-- WORLD registers that show state kept elsewhere (R420, R425, R435). -/
def worldView (s : State) (o : Nat) : Option Nat :=
  if o = Reg.WORLD_WORLD_CTRL then
    some (fget (s.pr .world o) 0 0 + b2n (s.mode.mode == .survey || s.surv.step == .bist) * 2)
  else if o = Reg.WORLD_SEC_IRQ_NEXT then some (irqNext s secureSource)
  else if o = Reg.WORLD_SAFE_OK then some (fset (s.pr .world o) 2 0 (b2n (fbit (s.pr .world o) 0) + b2n s.safe.relay * 4)).toNat
  else none

/-- CTRLCPLX registers that show state kept elsewhere (R440). -/
def ctrlcplxView (s : State) (o : Nat) : Option Nat :=
  if o = Reg.CTRLCPLX_CORE_STATUS then
    some (fget (s.pr .ctrlcplx o) 15 8 * 256 + s.pf .world Reg.WORLD_CORE_CFG 7 0 +
      65536 * s.pf .world Reg.WORLD_CORE_WORLD 7 0)
  else if o = Reg.CTRLCPLX_SAP_IRQ_NEXT then some (irqNext s normalSource)
  else if o = Reg.CTRLCPLX_WM_MIRROR then some (s.pr .world Reg.WORLD_HW_WATERMARK).toNat
  else if o = Reg.CTRLCPLX_HW_STATE then
    some (2 ^ 31 * s.pf .world Reg.WORLD_HW_CTRL 31 31 + s.pf .world Reg.WORLD_HW_CTRL 23 16)
  else none

/-- B4 head h is enabled (R564). -/
def b4HeadOn (s : State) (h : Nat) : Bool := fbit (s.b4r (0x100 + 0x40 * h)) 0

/-- A block-specific register as it reads, before what a master is shown. -/
def bodyView (s : State) (sec : Bool) (p : Page) (o : Nat) : Option Nat :=
  match p with
  | .dev => devView s sec o
  | .clkpwr =>
    if o = Reg.CLKPWR_UNIT_CTRL then some (match unitOf s with | some u => aget 0 s.surv.units u | none => 0) else none
  | .timing n => if o = Reg.TIMING_POSITION then some (positionWord s n) else none
  | .composer n => composerView s n o
  | .layer n l => layerView s n l o
  | .scaler => if o = Reg.SCALER_SET_BUSY then some (maskOf 16 (setInUse s)) else none
  | .veneer => veneerView s o
  | .bay b => if o = Reg.BAY_BAY_STATUS then some (bayStatus s b) else none
  | .memctl => memctlView s o
  | .shim => if o = Reg.SHIM_SHIM_USED then some ((keysWhere 32 (shimValid s)).length) else none
  | .func _ =>
    if o = Reg.FUNC_MODE_MIRROR then some (modeWord s)
    else if o = Reg.FUNC_DEVTIME_LO then some (s.devtime % 2 ^ 32)
    else if o = Reg.FUNC_DEVTIME_HI then some (s.devtime / 2 ^ 32)
    else none
  | .world => worldView s o
  | .ctrlcplx => ctrlcplxView s o
  | .keys =>
    if o = Reg.KEYS_PROBE_DATA then
      let k := s.pf .keys Reg.KEYS_PROBE_SEL 7 0
      some (65536 * (((aget {} s.keys k).b24 + 128) / 256 % 65536) +
        s.pf .keys (Reg.KEYS_KEY_STATE + 4 * k) 15 0)
    else none
  | .surveyorMb =>
    if o = Reg.SURVEYOR_MB_INFO then some (ofLeBytes (((bankBytes s 0 s.surv.runBank).drop 8).take 4)) else none
  | .legacy =>
    if o = Reg.LEGACY_LEG_STATUS then some (b2n (legacyOn s) + (if legacyOn s then maskOf 4 (b4HeadOn s) * 16 else 0))
    else none
  | _ => none

/-- The bits of a row that a read shows: all but WO and W1S fields (R62). -/
def readMask (r : RegRow) : Nat :=
  r.fields.foldl (fun acc x =>
    match x.acc with
    | .wo | .w1s | .pfwo => acc
    | _ => acc + (2 ^ (x.hi + 1 - x.lo) - 1) * 2 ^ x.lo) 0

/-- The bits of a row that are SHD fields read their shadow where SHD_VIEW = 1 (R48, R62). -/
def shdView (s : State) (p : Page) (r : RegRow) (a : Nat) : Word :=
  match p with
  | .layer _ _ => s.reg a
  | _ =>
    if fbit (s.hd p .ctrl) 8 then
      let m := w32 (shdMask r)
      (s.reg a &&& ~~~ m) ||| (s.shd a &&& m)
    else s.reg a

/-- Bits of a row that some field names; the others are reserved (R62). -/
def fieldMask (r : RegRow) : Nat :=
  r.fields.foldl (fun acc x => acc ||| (2 ^ (x.hi + 1 - x.lo) - 1) * 2 ^ x.lo) 0

/-- CTRL as it reads: SOFT_RESET 0, and ENABLE 1 on a page where it has no function (R48). -/
def ctrlView (s : State) (p : Page) : Word :=
  let w := s.hd p .ctrl &&& 0x101
  if enableHasFunction p then w else w ||| 1

/-- A header register as it reads (R43 to R60, R78): PAGE_ID and PAGE_REV are fixed by the page. -/
def headerView (s : State) (p : Page) (o : Nat) : Word :=
  match p with
  | .layer _ _ => if o = 0x00 then w32 (pageId p) else if o = 0x08 then 0 else s.reg (pageBase p + o)
  | _ =>
    if o = hdrOff .id then w32 (pageId p)
    else if o = hdrOff .rev then 0x01000000
    else if o = hdrOff .ctrl then ctrlView s p
    else if o = hdrOff .irqStatus then irqStatus s p
    else if o = hdrOff .commit ∨ o = hdrOff .irqSet then 0
    else s.reg (pageBase p + o)

/-- The value of a register of a page (R62): reserved bits read 0. -/
def pageReg (s : State) (sec : Bool) (p : Page) (o : Nat) : Word :=
  match rowAt p o with
  | none => 0
  | some r =>
    (if o < pageBody p then headerView s p o
      else match bodyView s sec p o with
        | some v => w32 v
        | none => shdView s p r (pageBase p + o) &&& w32 (readMask r)) &&& w32 (fieldMask r)

/-! What a master is shown. -/

/-- Secure readers (R410, R81): Heartwood, and Surveyor, which writes the page in Survey. -/
def secureMaster (m : Master) : Bool := m.code == 0x40 || m.code == 0x41

/-- A VF sees through a slot or a head view (R378) only what the rule lists. -/
def vfSees (s : State) (f : Nat) (p : Page) (o : Nat) : Bool :=
  let mine := s.owner p == f
  match p with
  | .func k => k == f
  | .timing _ => true
  | .layer _ _ => mine || o == 0x00 || o == 0x04 || o == 0x10
  | .composer n =>
    mine || o == 0x00 || o == 0x04 || o == 0x08 || o == 0x40 || o == Reg.COMPOSER_TARGET_FRAME ||
      o == Reg.COMPOSER_NEXT_BAND || o == Reg.COMPOSER_FLIP_STATUS ||
      (Reg.COMPOSER_FLIP_SEQ ≤ o && o < Reg.COMPOSER_FLIP_SEQ + 256 &&
        s.owner (.layer n ((o - Reg.COMPOSER_FLIP_SEQ) / 16)) == f)
  | .keys =>
    mine || o == 0x00 || o == 0x04 || o == 0x08 || o == 0x40 ||
      (match queuePtrAt o with | some q => queueOwner s q == f | none => false)
  | _ => mine || o == 0x00 || o == 0x04 || o == 0x08 || o == 0x40

/-- FLIP_STATUS as a VF that does not own the COMPOSER page reads it: the late bits of its own layers (R378). -/
def vfFlipMask (s : State) (f n : Nat) : Word :=
  w32 (65536 * maskOf 16 (fun k => s.owner (.layer n k) == f))

/-- A table word is shown to a VF (R378). -/
def vfTable (s : State) (f : Nat) (k : TableKind) (o : Nat) : Bool :=
  match k with
  | .coef => setPermits s (o / 0x800) f
  | .style => rangeOwned s 1 (o / 16) f || rangeShown s 1 (o / 16) f
  | .glyph => rangeOwned s 2 (o / 16) f || rangeShown s 2 (o / 16) f
  | .gain => s.owner .audio == f

/-- Offsets of the MSI-X table and PBA, which answer only through the function's own BAR0 (R380). -/
def isMsixOff (o : Nat) : Bool := Reg.FUNC_MSIX ≤ o && o < Reg.FUNC_MSIX_PBA + 8

/-- A master is shown a register of a page (R81, R110, R378, R380, R545). -/
def shownTo (s : State) (m : Master) (p : Page) (o : Nat) : Bool :=
  (match p with
    | .world => secureMaster m
    | .func k =>
      (match m with
        | .func f => f.val == k || (f.val == 32 * portOf k && !isMsixOff o)
        | _ => !isMsixOff o)
    | .surveyorMb => (match mbSlotAt o with | some k => m.code == mbMaster k | none => true)
    | .composer _ =>
      secureMaster m || !(Reg.COMPOSER_FLIP_SEQ + 240 ≤ o && o < Reg.COMPOSER_FLIP_SEQ + 256)
    | _ => true) &&
  (match m with
    | .func f => f.val % 32 == 0 || vfSees s f.val p o
    | _ => true)

/-- A page's registers other than its identity read 0 until it is READY, and after it is fenced they are kept
(R47). -/
def readable (s : State) (p : Page) (o : Nat) : Bool :=
  s.ready p || s.fenced p ||
    (match p with | .layer _ _ => o == 0x00 || o == 0x04 | _ => o == 0x00 || o == 0x04 || o == 0x08)

/-- A master that is no VF, or its code (R378). -/
def vfCode (m : Master) : Option Nat :=
  match m with
  | .func f => if f.val % 32 = 0 then none else some f.val
  | _ => none

/-- What a master reads at a PF BAR0 offset (R42, R47, R62, R378). -/
def readReg (s : State) (m : Master) (a : Nat) : Word :=
  match tableAt a with
  | some (k, o) =>
    if !s.ready (tableCtl k) && !s.fenced (tableCtl k) then 0
    else match vfCode m with
      | some f => if vfTable s f k o then s.reg (a / 4 * 4) else 0
      | none => s.reg (a / 4 * 4)
  | none =>
    match pageAt a with
    | none => 0
    | some (p, o0) =>
      let o := o0 / 4 * 4
      if !shownTo s m p o || !readable s p o then 0
      else
        let v := pageReg s (secureMaster m) p o
        match p, vfCode m with
        | .composer n, some f =>
          if o = Reg.COMPOSER_FLIP_STATUS ∧ s.owner p ≠ f then v &&& vfFlipMask s f n else v
        | _, _ => v

end Sys2Proof.Machine
end

