-- ==== Sys2Proof/Machine/Rings.lean ====
section
/-!
DEFINITION. Machine/Rings.lean: the rings of a function, of Heartwood and of Sapwood: enabling, stopping and
restarting them, doorbells, completion records, and the interrupt messages of functions (R382 to R390, R427).
-/
namespace Sys2Proof.Machine

/-! Ring registers. -/

/-- The page that holds a ring set: 0 to 63 functions, 64 Heartwood, 65 Sapwood (R382, R427). -/
def ringPage (rs : Nat) : Page := if rs < 64 then .func rs else if rs = 64 then .world else .ctrlcplx

/-- Offset of ring block r of a ring set. -/
def ringOff (rs r : Nat) : Nat :=
  (if rs < 64 then Reg.FUNC_RING_BASE_LO else if rs = 64 then Reg.WORLD_RING_BASE_LO else Reg.CTRLCPLX_RING_BASE_LO) + 0x20 * r

/-- Offsets in a ring block (R382). -/
def rCtrl : Nat := 0x08
def rHead : Nat := 0x0C
def rTail : Nat := 0x10
def rStatus : Nat := 0x14

/-- A field of a ring register. -/
def ringF (s : State) (rs r o hi lo : Nat) : Nat := s.pf (ringPage rs) (ringOff rs r + o) hi lo

/-- Write a field of a ring register. -/
def setRingF (s : State) (rs r o hi lo v : Nat) : State := s.setPf (ringPage rs) (ringOff rs r + o) hi lo v

def ringOn (s : State) (rs r : Nat) : Bool := ringF s rs r rCtrl 0 0 == 1
def ringSize (s : State) (rs r : Nat) : Nat := 2 ^ ringF s rs r rCtrl 11 8
def ringHead (s : State) (rs r : Nat) : Nat := ringF s rs r rHead 11 0
def ringTail (s : State) (rs r : Nat) : Nat := ringF s rs r rTail 11 0
def ringStopped (s : State) (rs r : Nat) : Bool := ringF s rs r rStatus 31 31 == 1
def cqFull (s : State) (rs : Nat) : Bool := ringF s rs 4 rStatus 30 30 == 1

/-- Base of a ring: bits 47:12 (R382). -/
def ringBase (s : State) (rs r : Nat) : Nat :=
  4096 * ringF s rs r 0 31 12 + 2 ^ 32 * ringF s rs r 4 15 0

/-- The event bit of RING_STOPPED, where the ring set's page has one (R381, R440). -/
def stoppedEvent (s : State) (rs : Nat) : State :=
  if rs < 64 then s.event (.func rs) 0 else if rs = 65 then s.event .ctrlcplx 1 else s

/-- The event bit of CQ_FULL, where the ring set's page has one. -/
def fullEvent (s : State) (rs : Nat) : State :=
  if rs < 64 then s.event (.func rs) 1 else if rs = 65 then s.event .ctrlcplx 2 else s

/-- A ring stops: STOPPED, CAUSE and INDEX (R384, R388). -/
def stopRing (s : State) (rs r cause idx : Nat) : State :=
  let s := setRingF s rs r rStatus 31 31 1
  let s := setRingF s rs r rStatus 23 16 cause
  stoppedEvent (setRingF s rs r rStatus 11 0 idx) rs

/-- FULL follows HEAD and TAIL of the CQ; becoming full is an event (R388). -/
def settleFull (s : State) (rs : Nat) : State :=
  let full := (ringTail s rs 4 + 1) % ringSize s rs 4 == ringHead s rs 4
  let was := cqFull s rs
  let s := setRingF s rs 4 rStatus 30 30 (b2n full)
  if full && !was then fullEvent s rs else s

/-! Writing RING_CTRL (R382 to R384). -/

/-- Why a write of RING_CTRL is refused. -/
def ringCtrlCheck (s : State) (rs r : Nat) (v : Word) : Option Cause :=
  let l := fget v 11 8
  if ringOn s rs r && l != ringF s rs r rCtrl 11 8 then some .inuse
  else if l < 4 || 12 < l then some .range
  else none

/-- RING_CTRL: ENABLE set starts the ring anew; RESTART leaves the stopped state, with SKIP past the entry at
HEAD. -/
def ringCtrlOp (s : State) (rs r : Nat) (v : Word) : State :=
  let was := ringOn s rs r
  let stopped := ringStopped s rs r
  let s := setRingF (setRingF s rs r rCtrl 11 8 (fget v 11 8)) rs r rCtrl 0 0 (fget v 0 0)
  if !was && fbit v 0 then
    let s := (s.setPr (ringPage rs) (ringOff rs r + rHead) 0).setPr (ringPage rs) (ringOff rs r + rTail) 0
    s.setPr (ringPage rs) (ringOff rs r + rStatus) (if r = 4 then w32 (2 ^ 29) else 0)
  else if stopped && fbit v 1 then
    let s := setRingF s rs r rStatus 31 31 0
    if r < 4 ∧ fbit v 2 ∧ ringHead s rs r ≠ ringTail s rs r then
      setRingF s rs r rHead 11 0 ((ringHead s rs r + 1) % ringSize s rs r)
    else s
  else s

/-- A write of RING_CTRL of ring r. -/
def ringCtrlWrite (s : State) (m : Master) (rs r : Nat) (v : Word) : State :=
  writeReg s m (pageBase (ringPage rs) + ringOff rs r + rCtrl) (fun s => ringCtrlCheck s rs r v)
    (fun s => ringCtrlOp s rs r v)

/-- RING_ENABLE (R383). -/
def execRingEnable (m : Master) (rs : Fin 66) (r : Fin 5) (value : Word) (s : State) : Host.Outcome State Fault Refusal :=
  .next (ringCtrlWrite s m rs r (fsetb value 0 true))

/-- RESTART (R384, R388). -/
def execRestart (m : Master) (rs : Fin 66) (r : Fin 5) (value : Word) (s : State) : Host.Outcome State Fault Refusal :=
  .next (ringCtrlWrite s m rs r (fsetb value 1 true))

/-! Doorbells (R385, R386). -/

/-- An out-of-range doorbell is ignored, counted and logged (R386). -/
def doorbellBad (s : State) (rs : Nat) : State :=
  let s := if rs < 64 then (s.count (.func rs) Reg.FUNC_DB_BAD_COUNT).event (.func rs) 6 else s
  s.logLimited (3100 + rs) 1000000 .host (pageBase (ringPage rs)) 0x100 0

/-- A doorbell value that no ring takes: bits 31:12, the index, or the ring's ENABLE. -/
def doorbellOut (s : State) (rs r : Nat) (v : Word) : Bool :=
  fget v 31 12 != 0 || ringSize s rs r ≤ fget v 11 0 || !ringOn s rs r

/-- SQ doorbell: TAIL takes the index. -/
def sqDoorbellOp (s : State) (rs q : Nat) (v : Word) : State :=
  if doorbellOut s rs q v then doorbellBad s rs else setRingF s rs q rTail 11 0 (fget v 11 0)

/-- CQ doorbell: HEAD takes the index and entries are freed. -/
def cqDoorbellOp (s : State) (rs : Nat) (v : Word) : State :=
  let n := ringSize s rs 4
  let dist (a : Nat) : Nat := (a + n - ringHead s rs 4 % n) % n
  if doorbellOut s rs 4 v || dist (ringTail s rs 4) < dist (fget v 11 0) then doorbellBad s rs
  else settleFull (setRingF s rs 4 rHead 11 0 (fget v 11 0)) rs

/-- Address of doorbell r of a ring set. -/
def doorbellAddr (rs r : Nat) : Nat := pageBase (ringPage rs) + Reg.FUNC_DOORBELL + 4 * r

/-- A doorbell write; it follows every earlier write (R373). -/
def doorbellWrite (s : State) (m : Master) (rs r : Nat) (v : Word) : State :=
  writeReg (flushAll s) m (doorbellAddr rs r) (fun _ => none)
    (fun s => if r < 4 then sqDoorbellOp s rs r v else cqDoorbellOp s rs v)

/-- SQ_DOORBELL (R385, R386). -/
def execSqDoorbell (m : Master) (rs : Fin 66) (q : Fin 4) (value : Word) (s : State) : Host.Outcome State Fault Refusal :=
  .next (doorbellWrite s m rs q value)

/-- CQ_DOORBELL (R385, R386). -/
def execCqDoorbell (m : Master) (rs : Fin 66) (value : Word) (s : State) : Host.Outcome State Fault Refusal :=
  .next (doorbellWrite s m rs 4 value)

/-! Interrupt messages (R389). -/

/-- Host-programmed state of a port. -/
def State.hport (s : State) (p : Nat) : PortSt := aget {} s.ports p

/-- Replace a port's state. -/
def State.setHport (s : State) (p : Nat) (x : PortSt) : State := { s with ports := aset {} s.ports p x }

/-- Word w of entry v of a function's MSI-X table. -/
def msixWord (s : State) (f v w : Nat) : Nat := (s.pr (.func f) (Reg.FUNC_MSIX + 16 * v + 4 * w)).toNat

/-- Vector v of a function is masked, by its own mask bit or the function mask (PCI Express). -/
def vecMasked (s : State) (f v : Nat) : Bool :=
  bit (msixWord s f v 3) 0 || (s.hport (portOf f)).msixMask.contains (f % 32)

/-- The message of vector v. -/
def sendMsix (s : State) (f v : Nat) : State :=
  s.send (.msix f v (msixWord s f v 0 + 2 ^ 32 * msixWord s f v 1) (msixWord s f v 2))

/-- Vector v has a message to send: sent, or kept as a Pending Bit while it is masked; nothing where the host has
MSI-X off. -/
def raiseVector (s : State) (f v : Nat) : State :=
  if !(s.hport (portOf f)).msixOn.contains (f % 32) then s
  else if vecMasked s f v then s.setPf (.func f) Reg.FUNC_MSIX_PBA v v 1
  else sendMsix s f v

/-- Pending messages of vectors that are no longer masked are sent. -/
def msixUnmask (s : State) (f : Nat) : State :=
  (List.range 8).foldl (fun s v =>
    if s.pf (.func f) Reg.FUNC_MSIX_PBA v v = 1 ∧ vecMasked s f v = false ∧ (s.hport (portOf f)).msixOn.contains (f % 32) then
      sendMsix (s.setPf (.func f) Reg.FUNC_MSIX_PBA v v 0) f v
    else s) s

/-- The vector of group g (R381 VEC_MAP). -/
def groupVector (s : State) (f g : Nat) : Nat := s.pf (.func f) Reg.FUNC_VEC_MAP (3 * g + 2) (3 * g)

/-- Pages with a common header that a function owns. -/
def ownedPages (s : State) (f : Nat) : List Page := allPages.filter (fun p => s.owner p == f)

/-- The group that a page's interrupt counts in (R389). -/
def pageGroup (f : Nat) : Page → Nat
  | .func k => if k = f then 1 else 5
  | .timing _ | .composer _ => 2
  | .dplink _ => 3
  | .legend => 4
  | .surveyorMb => 7
  | _ => 5

/-- The mailbox slot of a PF has completed (R545). -/
def mailboxGroup (s : State) (f : Nat) : Bool :=
  let w := s.hd .surveyorMb .irqStatus &&& s.hd .surveyorMb .irqEnable
  (f == 0 && fbit w 0) || (f == 32 && fbit w 1)

/-- The condition of group g ≥ 1 of a function (R389). -/
def groupOn (s : State) (f g : Nat) : Bool :=
  let ps := ownedPages s f
  match g with
  | 6 => ps.any (fun p => fbit (irqStatus s p &&& s.hd p .irqEnable) 31)
  | 7 => mailboxGroup s f
  | _ =>
    ps.any (fun p => pageGroup f p == g && irqAsserted s p) || (g == 5 && queueWaits s f) ||
      (g == 2 && (let w := s.pr (.func f) Reg.FUNC_LAYER_EVENTS; fget w 3 0 &&& fget w 19 16 != 0))

/-- A vector sends a message when the OR of its groups becomes true (R389). -/
def vectorRises (s : State) (f was now v : Nat) : Bool :=
  let on (m : Nat) : Bool := (List.range 8).any (fun g => g != 0 && groupVector s f g == v && bit m g)
  !on was && on now

/-- MSIX_MESSAGE (R389): the groups of a function are looked at. -/
def execMsixMessage (f : Fin 64) (s : State) : Host.Outcome State Fault Refusal :=
  if !funcExists s f then .next s
  else
    let x := s.ring f
    let now := maskOf 8 (fun g => g != 0 && groupOn s f g)
    let vs := keysWhere 8 (vectorRises s f x.groups now)
    let s := vs.foldl (fun s v => raiseVector s f v) s
    .next (s.setRing f { s.ring f with groups := now })

/-- Group 0 sends its message (R389). -/
def cqMessage (s : State) (f : Nat) : State :=
  raiseVector (s.setRing f { s.ring f with modCount := 0 }) f (groupVector s f 0)

/-- A record was written: it is announced with COUNT records (R389). -/
def cqRecordWritten (s : State) (f : Nat) : State :=
  let x := s.ring f
  let s := s.setRing f { x with modCount := x.modCount + 1, modFirst := if x.modCount = 0 then s.devtime else x.modFirst }
  if s.pf (.func f) Reg.FUNC_CQ_MOD 11 0 ≤ x.modCount + 1 then cqMessage s f else s

/-- CQ_MOD_TIMER (R389): TIMER_US has passed since the first record not yet announced. -/
def execCqModTimer (f : Fin 64) (s : State) : Host.Outcome State Fault Refusal :=
  let t := s.pf (.func f) Reg.FUNC_CQ_MOD 31 16
  let x := s.ring f
  .next (if t ≠ 0 ∧ x.modCount ≠ 0 ∧ x.modFirst + 1000 * t ≤ s.devtime then cqMessage s f else s)

/-! Completion records (R387, R388, R390). -/

/-- Bytes of a completion record (R387). -/
def cqBytes (s : State) (rs : Nat) (r : CqRec) : List Nat :=
  leBytes 4 r.tag ++ [r.status, r.flags, r.sq % 4 + ringF s rs 4 rStatus 29 29 * 128, r.gen] ++ leBytes 4 r.detail ++
    leBytes 4 (s.devtime / 1024 % 2 ^ 32)

/-- A record leaves the queue, and its job slot is free (R294). -/
def dropCqRec (s : State) (rs : Nat) (r : CqRec) : State :=
  let x := s.ring rs
  let s := s.setRing rs { x with cqWait := x.cqWait.tail }
  match r.slot with
  | some i => s.setJob i none
  | none => s

/-- The CQ takes records: enabled, not stopped, not full (R388). -/
def cqTakes (s : State) (rs : Nat) : Bool := ringOn s rs 4 && !ringStopped s rs 4 && !cqFull s rs

/-- A completion write got an error: FUNC fault bit 0, and the CQ stops (R388). -/
def cqError (s : State) (rs : Nat) : State :=
  let s := if rs < 64 then raiseFault s (.func rs) 0 else s
  stopRing s rs 4 8 (ringTail s rs 4)

/-- A write of a ring set: through stage 2 for a function, device physical otherwise (R397). -/
def ringWrite (s : State) (rs : Nat) (sec : Bool) (source a : Nat) (bytes : List Nat) : State × Except AccErr Unit :=
  if rs < 64 then funcWrite s ⟨rs, 0x16, sec, true, source, 0, false⟩ a bytes
  else busWrite s 0x16 sec a bytes

/-- TAIL advances, and PHASE inverts where it wraps (R388). -/
def cqAdvance (s : State) (rs : Nat) : State :=
  let t := (ringTail s rs 4 + 1) % ringSize s rs 4
  let s := setRingF s rs 4 rTail 11 0 t
  let s := if t = 0 then setRingF s rs 4 rStatus 29 29 (1 - ringF s rs 4 rStatus 29 29) else s
  settleFull s rs

/-- COMPLETION_WRITE (R387, R388, R390): the oldest waiting record is written, or discarded with its old
generation. -/
def execCompletionWrite (rs : Fin 66) (s : State) : Host.Outcome State Fault Refusal :=
  match (s.ring rs).cqWait with
  | [] => .next s
  | r :: _ =>
    if staleGen s rs r.gen then .next (dropCqRec (countStale s rs) rs r)
    else if !cqTakes s rs then .next s
    else match ringWrite s rs (rs.val == 64) 2 (ringBase s rs 4 + 16 * ringTail s rs 4) (cqBytes s rs r) with
      | (s, .error _) => .next (cqError s rs)
      | (s, .ok _) =>
        let s := dropCqRec (cqAdvance s rs) rs r
        .next (if rs.val < 64 then cqRecordWritten s rs else if rs.val = 64 then s.event .world 2 else s)

/-- CQ_WRITE (R388): the write of the oldest waiting record gets an error. -/
def execCqWrite (rs : Fin 66) (s : State) : Host.Outcome State Fault Refusal :=
  match (s.ring rs).cqWait with
  | [] => .next s
  | r :: _ => .next (if staleGen s rs r.gen || !cqTakes s rs then s else cqError s rs)

end Sys2Proof.Machine
end

