-- ==== Sys2Proof/Machine/JobBase.lean ====
section
/-!
DEFINITION. Machine/JobBase.lean: job slots: freeing one, the jobs of a ring set, the status codes (R294, R327), the
wait stage and deadline of a job (R301, R322), and its accesses to memory (R295, R390).
-/
namespace Sys2Proof.Machine

/-- Status codes of a completion record (R201, R327). -/
inductive JStat where
  | ok | recordsDropped | rejected | badState | tileTooLarge | renderArea | binPoolSmall | spillSmall | binError
  | spillError | rasterError | fencedLoss | watchdog | fenceTimeout | fenceError | depError | memFault | sourceError
  | noModule | translateFail | cacheFull | internal
deriving DecidableEq, Repr

/-- Code of a status. -/
def JStat.code : JStat → Nat
  | .ok => 0x00 | .recordsDropped => 0x01 | .rejected => 0x02 | .badState => 0x10 | .tileTooLarge => 0x11
  | .renderArea => 0x12 | .binPoolSmall => 0x13 | .spillSmall => 0x14 | .binError => 0x18 | .spillError => 0x19
  | .rasterError => 0x1A | .fencedLoss => 0x20 | .watchdog => 0x21 | .fenceTimeout => 0x22 | .fenceError => 0x23
  | .depError => 0x24 | .memFault => 0x25 | .sourceError => 0x26 | .noModule => 0x27 | .translateFail => 0x28
  | .cacheFull => 0x29 | .internal => 0x2A

/-- Every slot that holds a job, with it. -/
def jobsIn (s : State) : List (Nat × Job) := s.sched.jobs.filterMap (fun e => e.2.map (fun j => (e.1, j)))

/-- A job whose function has been reset since its fetch (R390). -/
def jobStale (s : State) (j : Job) : Bool := staleGen s j.rs j.gen

/-- The slot of a job becomes free (R294): with it the job's translation and the bays it still held. -/
def freeJob (s : State) (i : Nat) : State :=
  (s.setJob i none |> fun s => { s with sched := { s.sched with
    trans := s.sched.trans.filter (fun t => t.slot != i),
    preempting := s.sched.preempting.filter (fun e => e.2.1 != i) } })

/-- A job ends where it stands, with a status. -/
def endJobAs (s : State) (i : Nat) (st : JStat) (detail : Nat) : State := endJob s i st.code detail

/-! The wait stage (R301, R322). -/

/-- The deadline time of a job for a target head and frame; none while the head's TIMING page is disabled (R322). -/
def deadlineOf (s : State) (head frame : Nat) : Option Int :=
  if !s.enabled (.timing head) then none
  else
    let t := rasterInForce s head
    let (num, den) := fpix s head
    let ft := s.pair (.timing head) Reg.TIMING_FRAME_TIME_LO
    let lines := sext (frame + 2 ^ 32 - (s.pr (.timing head) Reg.TIMING_FRAME_COUNT).toNat) 32 * t.vTotal -
      ((t.vTotal : Int) - t.latchLine)
    let margin := 1000 * s.pf .sched Reg.SCHED_DEADLINE_MARGIN 15 0
    some ((ft : Int) - margin + 1000000000 * (lines * t.hTotal) * den / (max 1 num : Nat))

/-- A job passes the wait stage: it is ready, and a DEADLINE job gets its deadline (R301, R322). -/
def makeReady (s : State) (i : Nat) (j : Job) : State :=
  let d := if bits j.flags 1 0 = 1 then deadlineOf s (j.dlHead % 16) j.dlFrame else none
  let s := s.setJob i (some { j with phase := .ready, since := none, readyAt := s.sched.nextSeq, deadline := d })
  { s with sched := { s.sched with nextSeq := s.sched.nextSeq + 1 } }

/-- The oldest job at or behind the wait stage of a ring. -/
def waitHead (s : State) (rs q : Nat) : Option (Nat × Job) :=
  (jobsIn s).foldl (fun best e =>
    if e.2.rs != rs || e.2.q != q || e.2.phase != .waiting then best
    else match best with
      | some b => if e.2.seq < b.2.seq then some e else best
      | none => some e) none

/-- The next job of a ring comes to the wait stage; one that waits on nothing passes at once, up to n jobs (R301). -/
def settleWait (rs q : Nat) : Nat → State → State
  | 0, s => s
  | n + 1, s =>
    match waitHead s rs q with
    | none => s
    | some (i, j) =>
      if bit j.flags 4 then
        if j.since.isSome then s else s.setJob i (some { j with since := some s.devtime })
      else settleWait rs q n (makeReady s i j)

/-- A ring's wait stage after a job has left it. -/
def waitNext (s : State) (rs q : Nat) : State := settleWait rs q (jobsIn s).length s

/-- A job at the wait stage ends there (R297, R300). -/
def endWaiting (s : State) (i : Nat) (j : Job) (st : JStat) : State := waitNext (endJobAs s i st 0) j.rs j.q

/-! A job's accesses (R295, R390, R397). -/

/-- A number in little-endian bytes of a block: n bytes from offset o. -/
def bytesAt (b : List Nat) (o n : Nat) : Nat := ofLeBytes ((b.drop o).take n)

/-- S1_ROOT of the job's context entry. -/
def Job.root (j : Job) : Nat := bytesAt j.entry 0 8

/-- Traffic of Heartwood's jobs is secure (R320). -/
def Job.sec (j : Job) : Bool := j.rs == 64

/-- A job access: read. -/
def jRead (s : State) (j : Job) (agent a len : Nat) : State × Except AccErr (List Nat) :=
  jobRead s j.rs j.ctx j.root agent j.sec 4 false a len

/-- A job access: write of some bytes; discarded with an old generation (R390). -/
def jWriteM (s : State) (j : Job) (agent a : Nat) (bytes : List (Option Nat)) : State × Except AccErr Unit :=
  if jobStale s j then (countStale s j.rs, .ok ())
  else jobWrite s j.rs j.ctx j.root agent j.sec 4 false a bytes

/-- A job access: write. -/
def jWrite (s : State) (j : Job) (agent a : Nat) (bytes : List Nat) : State × Except AccErr Unit :=
  jWriteM s j agent a (bytes.map some)

/-- Address of fence word i of the job's context (R297). -/
def Job.fence (j : Job) (i : Nat) : Nat := bytesAt j.entry 24 8 + 8 * i

/-- Read a fence word (R297, R402). -/
def fenceRead (s : State) (j : Job) (i : Nat) : State × Except AccErr (List Nat) :=
  jobRead s j.rs j.ctx j.root 0x16 j.sec 5 true (j.fence i) 8

/-- Write a fence word (R298). -/
def fenceWrite (s : State) (j : Job) (i v : Nat) : State × Except AccErr Unit :=
  jobWrite s j.rs j.ctx j.root 0x16 j.sec 5 true (j.fence i) ((leBytes 8 v).map some)

end Sys2Proof.Machine
end

