-- ==== Sys2Proof/Machine/Enable.lean ====
section
/-!
DEFINITION. Machine/Enable.lean: CTRL.ENABLE of every page on which it has a function (R48).
-/
namespace Sys2Proof.Machine

/-- DSC settings against the timing in force when DPLINK is enabled (R122). -/
def dscOk (s : State) (n : Nat) : Bool :=
  let c := s.pr (.dplink n) Reg.DPLINK_DSC_CFG
  let t := rasterInForce s n
  let slices := 2 ^ fget c 5 4
  let height := s.pf (.dplink n) Reg.DPLINK_DSC_SLICE 15 0
  let bpp := fget c 24 16
  !fbit c 0 ||
    (outBpc s n != 2 && t.hActive % slices == 0 && t.hActive / slices ≤ 2560 && height != 0 &&
      t.vActive % height == 0 && 128 ≤ bpp && bpp + 16 ≤ 48 * bpcOf (outBpc s n))

/-- Why setting CTRL.ENABLE of a page is refused (R48 and the rule of the page). -/
def ctrlOnCheck (s : State) (p : Page) : Option Cause :=
  match p with
  | .timing n => headEnableCheck s n
  | .dplink n =>
    match enableCheck s p with
    | some c => some c
    | none => if s.enabled p || dscOk s n then none else some .range
  | .legend => legendEnableCheck s
  | .keys => keysEnableCheck s
  | .cvu u => cvuEnableCheck s u
  | _ => enableCheck s p

/-- The effect of setting CTRL.ENABLE of a page (R48). -/
def ctrlOnOp (s : State) (p : Page) : State :=
  match p with
  | .timing n => headEnableOp s n
  | .composer n =>
    if s.enabled p then s
    else (s.setHf p .ctrl 0 0 1).setPr (.composer n) Reg.COMPOSER_UNDERRUN_COUNT 0
  | .legend => legendEnableOp s
  | .hapch ch => hapEnableOp s ch
  | .audio => audioEnableOp s
  | .cvu u => cvuEnableOp s u
  | .sched =>
    let s := s.setHf p .ctrl 0 0 1
    if !s.ready p && s.ready .memctl then s.setReady p else s
  | _ => s.setHf p .ctrl 0 0 1

/-- The effect of clearing CTRL.ENABLE of a page: it drains, with BUSY = 1, until ENABLE_DRAIN_DONE, or
PLL_STOPPED on a TIMING page (R48, R86). -/
def ctrlOffOp (s : State) (p : Page) : State :=
  let off (s : State) : State := (s.setHf p .ctrl 0 0 0).setBusy p true
  if !s.enabled p then s
  else match p with
    | .timing n => headDisableOp s n
    | .composer n => invalidateWhere (off s) n 9 (fun _ => true)
    | .dplink n =>
      let s := off s
      let s := setLink (s.setHead n { s.head n with candidates := [] }) n 29 29 0
      linkIdle s n
    | .keys =>
      let s := off s
      (List.range 4).foldl (fun s k => if portScans s k then s else portStop s k) s
    | .cvu u =>
      let x : CvuSt := aget {} s.cvus u
      { off s with cvus := aset {} s.cvus u { x with running := false } }
    | _ => off s

/-- A page whose ENABLE was cleared has drained (R48): SCHED's jobs have run to completion, a haptic channel is
idle. -/
def drained (s : State) (p : Page) : Bool :=
  match p with
  | .sched => s.sched.jobs.isEmpty
  | .hapch ch => s.pf (.hapch ch) Reg.HAPCH_HSTATUS 2 0 == 0
  | .timing _ => false
  | _ => true

/-- ENABLE_DRAIN_DONE (R48): BUSY clears. -/
def execEnableDrainDone (p : Page) (s : State) : Host.Outcome State Fault Refusal :=
  .next (if enableHasFunction p && pageOk p && !s.enabled p && s.busy p && fget (s.hd p .ready) 15 8 != 7 && drained s p
    then s.setBusy p false else s)

end Sys2Proof.Machine
end

