-- ==== Sys2Proof/Machine/Legacy.lean ====
section
/-!
DEFINITION. Machine/Legacy.lean: the B4 programming model of port A in Legacy Profile (R551 to R582): window
registers, flips, keys, beep, draw engine and interrupt; and the latches of a head, which the model observes.
-/
namespace Sys2Proof.Machine

/-! Native writes of the LEGACY block (R553, R567). -/

/-- A refusal of a native write that a B4 write causes (R553, R567, R582). -/
def b4Reject (s : State) (h target : Nat) (c : Cause) : State :=
  let s := s.setPr .legacy Reg.LEGACY_XLATE_REJECT (w32 (2 ^ 31 + 0x1000 * c.code + target * 0x100 + h))
  (s.count .legacy Reg.LEGACY_REJECT_COUNT).event .legacy 1

/-- A native register write of the LEGACY block as FUNC0, with its own check and effect. -/
def b4Native (s : State) (h target a : Nat) (check : State → Option Cause) (op : State → State) : State :=
  match refusalOf s (.func 0) a with
  | some r => b4Reject (recordRefusal s (.func 0) a a r) h target r.2.1
  | none =>
    match check s with
    | some c => b4Reject (s.refuse (.func 0) (recordPage a) c a a) h target c
    | none => op s

/-- Derived shadows and GO on one native page (R566); the SEQ that the block writes is a free value. -/
def b4Commit (s : State) (h target : Nat) (p : Page) (vals : List (Nat × Nat)) : State :=
  let a := hadr p .commit
  match refusalOf s (.func 0) a with
  | some r => b4Reject (recordRefusal s (.func 0) a a r) h target r.2.1
  | none =>
    let s := vals.foldl (fun s v => s.setShd (pageBase p + v.1) (w32 v.2)) s
    let (q, s) := s.draw
    let t := commitOp s (.func 0) p (q % 65536)
    match commitCheck s p (.func 0) with
    | some c => b4Reject t h target c
    | none => t

/-! Derived native values (R562, R565, R580). -/

/-- Register r of head block h. -/
def hb (s : State) (h r : Nat) : Word := s.b4r (0x100 + 0x40 * h + 4 * r)

/-- Difference of two 16-bit fields as a native 16-bit field. -/
def sub16 (a b : Nat) : Nat := (a + 65536 - b) % 65536

/-- TIMING shadows of head h. -/
def b4TimingVals (s : State) (h : Nat) : List (Nat × Nat) :=
  let t0 := hb s h 1
  let t1 := hb s h 2
  let v0 := hb s h 3
  let v1 := hb s h 4
  let hi (w : Word) : Nat := fget w 31 16
  let lo (w : Word) : Nat := fget w 15 0
  let cfg := s.shd (pageBase (.timing h) + Reg.TIMING_TIMING_CFG)
  [(Reg.TIMING_H_ACTIVE, hi t0), (Reg.TIMING_H_FRONT, sub16 (hi t1) (hi t0)), (Reg.TIMING_H_SYNC, sub16 (lo t1) (hi t1)),
    (Reg.TIMING_H_BACK, sub16 (lo t0) (lo t1)), (Reg.TIMING_V_ACTIVE, hi v0), (Reg.TIMING_V_FRONT, sub16 (hi v1) (hi v0)),
    (Reg.TIMING_V_SYNC, sub16 (lo v1) (hi v1)), (Reg.TIMING_V_BACK, sub16 (lo v0) (lo v1)),
    (Reg.TIMING_TIMING_CFG, (fsetb cfg 8 true).toNat)]

/-- COMPOSER shadows of head h: background, output matrix, dither. -/
def b4ComposerVals (s : State) (h : Nat) : List (Nat × Nat) :=
  let w := hb s h 6
  let c (hi lo : Nat) : Nat := exp8 (fget w hi lo)
  [(Reg.COMPOSER_BG_COLOUR0, 0x10000 * c 15 8 + c 23 16), (Reg.COMPOSER_BG_COLOUR1, c 7 0),
    (Reg.COMPOSER_OUT_M0, 0x0FF0), (Reg.COMPOSER_OUT_M1, 0), (Reg.COMPOSER_OUT_M2, 0x0FF0), (Reg.COMPOSER_OUT_M3, 0),
    (Reg.COMPOSER_OUT_M4, 0x0FF0), (Reg.COMPOSER_OUT_PRE0, 0), (Reg.COMPOSER_OUT_PRE1, 0),
    (Reg.COMPOSER_OUT_POST0, 0), (Reg.COMPOSER_OUT_POST1, 0), (Reg.COMPOSER_DITHER_CFG, 0)]

/-- STEP of a video layer in U16.16, and the native U12.20 (R565); 0 where the destination length is 0. -/
def b4Step16 (src dst : Nat) : Nat := 65536 * src / dst

/-- Shadows of the video layer of head h. -/
def b4VideoVals (s : State) (h : Nat) : List (Nat × Nat) :=
  let src := hb s h 12
  let dst := hb s h 14
  let pos := hb s h 13
  let swap (w : Word) : Nat := 0x10000 * fget w 15 0 + fget w 31 16
  [(Reg.LAYER_LAYER_CTRL, b2n (fbit (hb s h 0) 1)), (Reg.LAYER_LAYER_FORMAT, 0x22),
    (Reg.LAYER_BUF_ADDR_LO, (hb s h 10).toNat), (Reg.LAYER_BUF_ADDR_HI, 0), (Reg.LAYER_PITCH, fget (hb s h 11) 15 0),
    (Reg.LAYER_SRC_SIZE, swap src), (Reg.LAYER_SRC_POS, 0), (Reg.LAYER_DST_POS, swap pos), (Reg.LAYER_DST_SIZE, swap dst),
    (Reg.LAYER_FILL, 0), (Reg.LAYERV_SCL_CTRL, 0x01002F0F),
    (Reg.LAYERV_H_STEP, b4Step16 (fget src 31 16) (fget dst 31 16) * 16),
    (Reg.LAYERV_V_STEP, b4Step16 (fget src 15 0) (fget dst 15 0) * 16),
    (Reg.LAYERV_H_INIT, 0), (Reg.LAYERV_V_INIT, 0),
    (Reg.LAYERV_CSC_M0, 0x000012A0), (Reg.LAYERV_CSC_M1, 0x12A01990), (Reg.LAYERV_CSC_M2, 0xF300F9C0),
    (Reg.LAYERV_CSC_M3, 0x204012A0), (Reg.LAYERV_CSC_M4, 0), (Reg.LAYERV_CSC_PRE0, 0x18001F00),
    (Reg.LAYERV_CSC_PRE1, 0x1800), (Reg.LAYERV_CSC_POST0, 0), (Reg.LAYERV_CSC_POST1, 0)]

/-- The video steps lie between 1/8 and 2 (R565). -/
def b4StepsOk (s : State) (h : Nat) : Bool :=
  let ok (a b : Nat) : Bool := 0x2000 ≤ b4Step16 a b && b4Step16 a b ≤ 0x20000
  let src := hb s h 12
  let dst := hb s h 14
  !fbit (hb s h 0) 1 || (ok (fget src 31 16) (fget dst 31 16) && ok (fget src 15 0) (fget dst 15 0))

/-- Shadows of the graphic layer of head h. -/
def b4GraphicVals (s : State) (h : Nat) : List (Nat × Nat) :=
  let ctrl := hb s h 0
  let al := fget (hb s h 8) 23 16
  let size := 0x10000 * fget (hb s h 3) 31 16 + fget (hb s h 1) 31 16
  [(Reg.LAYER_LAYER_CTRL, 0x40020 + b2n (fbit ctrl 2)), (Reg.LAYER_LAYER_FORMAT, if fbit ctrl 5 then 0x02 else 0x04),
    (Reg.LAYER_BUF_ADDR_LO, (hb s h 7).toNat), (Reg.LAYER_BUF_ADDR_HI, 0), (Reg.LAYER_PITCH, fget (hb s h 8) 15 0),
    (Reg.LAYER_SRC_SIZE, size), (Reg.LAYER_SRC_POS, 0), (Reg.LAYER_DST_POS, 0), (Reg.LAYER_DST_SIZE, size),
    (Reg.LAYER_PLANE_ALPHA, (al <<< 2) ||| (al >>> 6)), (Reg.LAYER_FILL, 0)]

/-- Commits of head h's native pages. -/
def b4FlipTiming (s : State) (h : Nat) : State := b4Commit s h 0 (.timing h) (b4TimingVals s h)
def b4FlipComposer (s : State) (h : Nat) : State := b4Commit s h 1 (.composer h) (b4ComposerVals s h)
def b4FlipVideo (s : State) (h : Nat) : State :=
  if b4StepsOk s h then b4Commit s h 3 (.layer h 0) (b4VideoVals s h) else b4Reject s h 3 .range
def b4FlipGraphic (s : State) (h : Nat) : State := b4Commit s h 4 (.layer h 4) (b4GraphicVals s h)

/-- The native writes of a flip through register r of head block h (R566); r = 0 stands for GFX_FMT and GFX_EN,
16 for VID_EN. -/
def b4Flip (s : State) (h r : Nat) : State :=
  if r = 0 then b4FlipGraphic s h
  else if r = 1 ∨ r = 3 then b4FlipGraphic (b4FlipTiming s h) h
  else if r = 2 ∨ r = 4 then b4FlipTiming s h
  else if r = 6 then b4FlipComposer s h
  else if r = 7 ∨ r = 8 then b4FlipGraphic s h
  else b4FlipVideo s h

/-- A flip is pending; between the flip cutoff and the latch it is held (R566). -/
def b4FlipOrHold (s : State) (h r : Nat) : State :=
  let s := { s with b4 := { s.b4 with flipPending := (s.b4.flipPending ++ [h]).eraseDups } }
  if s.b4.cutoff.contains h then { s with b4 := { s.b4 with heldFlips := (s.b4.heldFlips ++ [(h, r)]).eraseDups } }
  else b4Flip s h r

/-- The native settings that the LEGACY block holds for HEAD0 to HEAD3 from the end of Survey (R562). -/
def b4Hold (s : State) : State :=
  (List.range 4).foldl (fun s h =>
    let put (s : State) (p : Page) (v : List (Nat × Nat)) : State :=
      v.foldl (fun s e => (s.setShd (pageBase p + e.1) (w32 e.2)).setPr p e.1 (w32 e.2)) s
    let s := put s (.timing h) [(Reg.TIMING_TIMING_CFG, 0x100)]
    let s := put s (.composer h) (b4ComposerVals s h)
    let s := put s (.layer h 0) (b4VideoVals s h)
    let s := put s (.layer h 4) (b4GraphicVals s h)
    put s (.dplink h) [(Reg.DPLINK_DSC_CFG, (fsetb (s.pr (.dplink h) Reg.DPLINK_DSC_CFG) 0 false).toNat)]) s

/-! Latches of a head. -/

/-- A latch of head n as the B4 model sees it (R566): FLIP_DONE where a change applied, VSYNC at a frame latch of
the running generator; flips held since the cutoff are issued after the latch cycle. -/
def b4Latch (was s : State) (n : Nat) (vsync : Bool) : State :=
  if !legacyOn s || 4 ≤ n then s
  else
    let applied := [Page.timing n, .composer n, .layer n 0, .layer n 4].any (fun p => (was.pend p).isSome && (s.pend p).isNone)
    let s := b4Isr s ((if vsync then 2 ^ n else 0) + (if applied && s.b4.flipPending.contains n then 2 ^ (4 + n) else 0))
    let held := s.b4.heldFlips.filter (fun f => f.1 == n)
    let s := { s with b4 := { s.b4 with
      cutoff := s.b4.cutoff.filter (fun h => h != n), heldFlips := s.b4.heldFlips.filter (fun f => f.1 != n),
      flipPending := if held.isEmpty then s.b4.flipPending.filter (fun h => h != n) else s.b4.flipPending } }
    if held.isEmpty then s else held.foldl (fun s f => b4Flip s f.1 f.2) (passCycles s 1)

/-- FRAME_LATCH (R98, R566): while the generator runs with ENABLE = 1. -/
def execFrameLatch (n : Fin 12) (s : State) : Host.Outcome State Fault Refusal :=
  .next (if (s.head n).running && s.enabled (.timing n) then b4Latch s (frameLatchOp s n false) n true else s)

/-- DISABLED_LATCH (R100): while TIMING.CTRL.ENABLE = 0 commits apply, no flip record is written and no AGE
changes. -/
def execDisabledLatch (n : Fin 12) (s : State) : Host.Outcome State Fault Refusal :=
  .next (if s.enabled (.timing n) then s else b4Latch s (retireFaulted (applyHead s n false) n) n false)

/-- PLL_LOCK (R85): the generator starts, that start is a frame latch, and BUSY clears. -/
def execPllLock (n : Fin 12) (s : State) : Host.Outcome State Fault Refusal :=
  if (s.head n).pll = .locking ∧ ¬ loadIsShed s then
    .next (b4Latch s ((startGenerator s n).setBusy (.timing n) false) n true)
  else .next s

/-- PLL_RELOCK (R87): the generator restarts at the frame-latch line; FRAME_COUNT continues. -/
def execPllRelock (n : Fin 12) (s : State) : Host.Outcome State Fault Refusal :=
  .next (if (s.head n).pll = .unlocked && s.enabled (.timing n) && !loadIsShed s then b4Latch s (startGenerator s n) n true else s)

/-! Enabling heads and the pixel clock (R565, R567). -/

/-- ENABLE of one native page is set or cleared by the LEGACY block; target 5 in XLATE_REJECT. -/
def b4Enable (s : State) (h : Nat) (p : Page) (on : Bool) : State :=
  b4Native s h 5 (hadr p .ctrl) (fun s => if on then ctrlOnCheck s p else none)
    (fun s => if on then ctrlOnOp s p else ctrlOffOp s p)

/-- HCTRL.EN = 1 while the head is off: TIMING commits and applies under R100, then TIMING, COMPOSER and DPLINK are
enabled; EN = 0 clears them in reverse order (R567). -/
def b4HeadSwitch (s : State) (h : Nat) (on : Bool) : State :=
  if on then
    if s.enabled (.timing h) then s
    else
      let t := b4FlipTiming s h
      let t := b4Latch t (retireFaulted (applyHead t h false) h) h false
      b4Enable (b4Enable (b4Enable t h (.timing h) true) h (.composer h) true) h (.dplink h) true
  else
    let s := { s with b4 := { s.b4 with restarts := s.b4.restarts.filter (fun k => k != h) } }
    b4Enable (b4Enable (b4Enable s h (.dplink h) false) h (.composer h) false) h (.timing h) false

/-- The PLL words of PIXCLK in kHz (R565); none where the frequency is 0. -/
def b4Pll (khz : Nat) : Option (Word × Word) :=
  let f := khz * 1000
  if f = 0 then none
  else
    let pd := cdiv 5400000000 f
    let t := (16777216 * (f * pd) + 50000000) / 100000000
    some (w32 (0x10000 * pd + t / 16777216), w32 (t % 16777216))

/-- The PLL is reprogrammed from PIXCLK of head h. -/
def b4SetPll (s : State) (h : Nat) : State :=
  let p : Page := .timing h
  match b4Pll (hb s h 5).toNat with
  | none => b4Reject s h 0 .range
  | some (c0, c1) =>
    b4Native s h 0 (pageBase p + Reg.TIMING_PLL_CFG0)
      (fun s => if s.enabled p || s.busy p then some .inuse
        else if (hb s h 5).toNat * cdiv 5400000000 ((hb s h 5).toNat * 1000) ≤ 10800000 && pllCfgOk c0 c1 then none
        else some .range)
      (fun s => (s.setPr p Reg.TIMING_PLL_CFG0 c0).setPr p Reg.TIMING_PLL_CFG1 c1)

/-- A head has stopped for a PIXCLK write: the PLL is reprogrammed and ENABLE set again (R565). -/
def b4Restart (s : State) (n : Nat) : State :=
  if !s.b4.restarts.contains n then s
  else
    let s := { s with b4 := { s.b4 with restarts := s.b4.restarts.filter (fun k => k != n) } }
    b4Enable (b4SetPll s n) n (.timing n) true

/-- PLL_STOPPED (R86, R49, R565): BUSY clears; a soft reset of the page completes here, and a head that a PIXCLK
write stopped starts again. -/
def execPllStopped (n : Fin 12) (s : State) : Host.Outcome State Fault Refusal :=
  if (s.head n).pll = .stopping then
    let s := s.setHead n { s.head n with pll := .off }
    let s := s.setPf (.timing n) Reg.TIMING_PLL_STATUS 0 0 0
    let s := s.setBusy (.timing n) false
    let s := if fget (s.hd (.timing n) .ready) 15 8 = 7 then s.setReady (.timing n) else s
    .next (b4Restart s n)
  else .next s

/-- A PIXCLK write (R565). -/
def b4Pixclk (s : State) (h : Nat) : State :=
  if fbit (hb s h 0) 0 && s.enabled (.timing h) then
    let s := { s with b4 := { s.b4 with restarts := (s.b4.restarts ++ [h]).eraseDups } }
    b4Enable s h (.timing h) false
  else if s.b4.restarts.contains h then s
  else b4SetPll s h

/-! The draw engine (R574 to R577). -/

/-- Words in the ring that the runtime has not taken. -/
def deUntaken (s : State) : Nat := (s.pf .legacy Reg.LEGACY_DE_RING_WR 13 0 + 16384 - s.b4.taken) % 16384

/-- B4_DE_STATUS.FREE. -/
def deFree (s : State) : Nat := 256 - (s.b4.deFifo.length + deUntaken s)

/-- Every word that the runtime has not taken is discarded. -/
def deDiscard (s : State) : State :=
  let s := { s with b4 := { s.b4 with deFifo := [] } }
  s.setPf .legacy Reg.LEGACY_DE_RING_WR 13 0 s.b4.taken

/-- The stream is in error: ERROR, DE_ERROR, and later words are discarded (R577). -/
def deStreamError (s : State) : State :=
  let s := deDiscard s
  b4Isr { s with b4 := { s.b4 with deError := true } } (2 ^ 11)

/-- Address of a word of the ring. -/
def deRingAddr (s : State) (i : Nat) : Nat := s.pair .legacy Reg.LEGACY_DE_RING_BASE_LO + 4 * i

/-- One word of the FIFO moves into the ring; an error response discards the stream (R582 RING_WRITE). -/
def deMove (s : State) : State :=
  match s.b4.deFifo with
  | [] => s
  | w :: rest =>
    let wr := s.pf .legacy Reg.LEGACY_DE_RING_WR 13 0
    let rd := s.pf .legacy Reg.LEGACY_DE_RING_RD 13 0
    if !s.enabled .legacy ∨ (wr + 1) % 16384 = rd then s
    else
      match busWrite s 0x17 false (deRingAddr s wr) (leBytes 4 w.toNat) with
      | (s, .ok _) =>
        let s := { s with b4 := { s.b4 with deFifo := rest } }
        (s.setPf .legacy Reg.LEGACY_DE_RING_WR 13 0 ((wr + 1) % 16384)).event .legacy 0
      | (s, .error _) => raiseFault (deStreamError s) .legacy 0

/-- The LEGACY block moves every word that the ring has room for (R574, R582). -/
def deDrain (s : State) : State := (List.range 256).foldl (fun s _ => deMove s) s

/-- A write of B4_DE_FIFO (R574, R575, R577). -/
def deFifoOp (s : State) (v : Word) : State :=
  if !fbit (s.b4r 4) 2 || deFree s == 0 then b4Isr (s.count .legacy Reg.LEGACY_DE_OVERFLOW_COUNT) (2 ^ 13)
  else if s.b4.deError then s
  else deDrain { s with b4 := { s.b4 with deFifo := s.b4.deFifo ++ [v], deBusy := true } }

/-- Clearing DE_EN (R575). -/
def deClear (s : State) : State :=
  let s := deDiscard s
  { s with b4 := { s.b4 with deError := false } }

/-- The runtime can work: a shared core and a bay are in service (R574, R582). -/
def deRuntime (s : State) : Bool :=
  legacyOn s && s.mode.mode != .safe && s.mode.mode != .held && masterThere s .sapwood && baysIn s != []

/-- Word i of the stream from the runtime's place in the ring. -/
def deWord (s : State) (i : Nat) : Nat := ofLeBytes (memBytes s (deRingAddr s ((s.b4.taken + i) % 16384)) 4)

/-- A header word for a command (R576, R577): opcode, LEN and reserved bits. -/
def deHeaderOk (w op len : Nat) : Bool := bits w 31 24 == op && bits w 7 0 == len && bits w 23 19 == 0 && bits w 15 8 == 0

/-- One command at the runtime's place in the stream, where it is the named one and all its words are there. -/
def deCommand (s : State) (op len : Nat) (run : State → Nat → List Nat → State) : State :=
  let w := deWord s 0
  if !deRuntime s || deUntaken s ≤ len || !deHeaderOk w op len then s
  else
    let ps := (List.range len).map (fun i => deWord s (i + 1))
    let s := { s with b4 := { s.b4 with taken := (s.b4.taken + len + 1) % 16384 } }
    run s w ps

/-- Bytes of a pixel of the format that FMT names. -/
def deBpp (w : Nat) : Nat := if bit w 16 then 4 else 2

/-- A pixel of a surface in frame memory as an offset; none beyond the frame memory (R577). -/
def dePixel (s : State) (bpp base pitch : Nat) (x y : Int) : Option Nat :=
  let o : Int := base + y * pitch + x * bpp
  if o < 0 ∨ (frameSize s : Int) < o + bpp then none else some o.toNat

/-- Plot one pixel; one that lies beyond the frame memory is not written (R577). -/
def dePlot (s : State) (bpp base pitch : Nat) (x y : Int) (colour : Nat) : State :=
  match dePixel s bpp base pitch x y with
  | none => s
  | some o => (busWrite s 0x10 false (portBase s 0 + o) (leBytes bpp colour)).1

/-- The two halves of a packed pair. -/
def hi16 (w : Nat) : Nat := bits w 31 16
def lo16 (w : Nat) : Nat := bits w 15 0

/-- FILL_RECT (R576). -/
def deFill (s : State) (w : Nat) (p : List Nat) : State :=
  let g (i : Nat) : Nat := p.getD i 0
  (List.range (lo16 (g 3))).foldl (fun s j =>
    (List.range (hi16 (g 3))).foldl (fun s i =>
      dePlot s (deBpp w) (g 0) (g 1) (hi16 (g 2) + i : Nat) (lo16 (g 2) + j : Nat) (g 4)) s) s

/-- A source pixel; none where it lies beyond the frame memory or its read fails. -/
def deRead (s : State) (bpp base pitch : Nat) (x y : Int) : Option Nat :=
  match dePixel s bpp base pitch x y with
  | none => none
  | some o =>
    match (busRead s 0x10 false (portBase s 0 + o) bpp).2 with
    | .ok b => some (ofLeBytes b)
    | .error _ => none

/-- COPY_RECT (R576): as if the whole source were read first. -/
def deCopy (s : State) (w : Nat) (p : List Nat) : State :=
  let g (i : Nat) : Nat := p.getD i 0
  let at_ (i j : Nat) : Option Nat := deRead s (deBpp w) (g 0) (g 1) (hi16 (g 4) + i : Nat) (lo16 (g 4) + j : Nat)
  let src := (List.range (lo16 (g 6))).map (fun j => (List.range (hi16 (g 6))).map (fun i => at_ i j))
  src.zipIdx.foldl (fun s r =>
    r.1.zipIdx.foldl (fun s c =>
      match c.1 with
      | none => s
      | some v => dePlot s (deBpp w) (g 2) (g 3) (hi16 (g 5) + c.2 : Nat) (lo16 (g 5) + r.2 : Nat) v) s) s

/-- MONO_EXPAND (R576). -/
def deMono (s : State) (w : Nat) (p : List Nat) : State :=
  let g (i : Nat) : Nat := p.getD i 0
  (List.range (lo16 (g 5))).foldl (fun s j =>
    (List.range (hi16 (g 5))).foldl (fun s i =>
      match deRead s 1 (g 0) (g 1) (i / 8 : Nat) (j : Nat) with
      | none => s
      | some b =>
        let on := bit b (7 - i % 8)
        if !on && bit w 18 then s
        else dePlot s (deBpp w) (g 2) (g 3) (hi16 (g 4) + i : Nat) (lo16 (g 4) + j : Nat) (if on then g 6 else g 7)) s) s

/-- The loop of DRAW_LINE (R576), with the points still allowed; it ends at (x1, y1). -/
def deLineLoop (plot : State → Int → Int → State) (noLast : Bool) (x1 y1 dx dy sx sy : Int) :
    Nat → State → Int → Int → Int → State
  | 0, s, _, _, _ => s
  | n + 1, s, x, y, e =>
    let last := decide (x = x1 ∧ y = y1)
    let s := if last && noLast then s else plot s x y
    if last then s
    else
      let e2 := 2 * e
      let (x', ea) := if dy ≤ e2 then (x + sx, e + dy) else (x, e)
      let (y', eb) := if e2 ≤ dx then (y + sy, ea + dx) else (y, ea)
      deLineLoop plot noLast x1 y1 dx dy sx sy n s x' y' eb

/-- DRAW_LINE (R576). -/
def deLine (s : State) (w : Nat) (p : List Nat) : State :=
  let g (i : Nat) : Nat := p.getD i 0
  let sx16 (v : Nat) : Int := sext v 16
  let x0 := sx16 (hi16 (g 2))
  let y0 := sx16 (lo16 (g 2))
  let x1 := sx16 (hi16 (g 3))
  let y1 := sx16 (lo16 (g 3))
  let dx : Int := (x1 - x0).natAbs
  let dy : Int := -((y1 - y0).natAbs : Int)
  let plot (s : State) (x y : Int) : State :=
    if sx16 (hi16 (g 5)) ≤ x ∧ x ≤ sx16 (hi16 (g 6)) ∧ sx16 (lo16 (g 5)) ≤ y ∧ y ≤ sx16 (lo16 (g 6)) then
      dePlot s (deBpp w) (g 0) (g 1) x y (g 4)
    else s
  deLineLoop plot (bit w 17) x1 y1 dx dy (if x0 < x1 then 1 else -1) (if y0 < y1 then 1 else -1)
    (dx.natAbs + dy.natAbs + 1) s x0 y0 (dx + dy)

/-- FILL_RECT. -/
def execFillRect (s : State) : Host.Outcome State Fault Refusal := .next (deCommand s 1 5 deFill)
/-- COPY_RECT. -/
def execCopyRect (s : State) : Host.Outcome State Fault Refusal := .next (deCommand s 2 7 deCopy)
/-- DRAW_LINE. -/
def execDrawLine (s : State) : Host.Outcome State Fault Refusal := .next (deCommand s 3 7 deLine)
/-- MONO_EXPAND. -/
def execMonoExpand (s : State) : Host.Outcome State Fault Refusal := .next (deCommand s 4 8 deMono)

/-- DE_REPORT's effect (R577, R582). -/
def deReport (s : State) (v : Word) : State :=
  let s := if fbit v 0 then deStreamError s else s
  if fbit v 1 then b4Isr s (2 ^ 11) else s

/-- STREAM_ERROR (R577): a write of DE_REPORT. -/
def execStreamError (m : Master) (s : State) : Host.Outcome State Fault Refusal :=
  .next (writeReg s m (pageBase .legacy + Reg.LEGACY_DE_REPORT) (fun _ => none) (fun s => deReport s 1))

/-- PIXEL_RANGE (R577): a write of DE_REPORT. -/
def execPixelRange (m : Master) (s : State) : Host.Outcome State Fault Refusal :=
  .next (writeReg s m (pageBase .legacy + Reg.LEGACY_DE_REPORT) (fun _ => none) (fun s => deReport s 2))

/-- DE_RING_RD is written (R582): room in the ring may let words move. -/
def deRingRdOp (s : State) (v : Word) : State := deDrain (s.setPf .legacy Reg.LEGACY_DE_RING_RD 13 0 (fget v 13 0))

/-- DE_RING_RD_WRITE (R574, R582). -/
def execDeRingRdWrite (m : Master) (value : Word) (s : State) : Host.Outcome State Fault Refusal :=
  .next (writeReg s m (pageBase .legacy + Reg.LEGACY_DE_RING_RD) (fun _ => none) (fun s => deRingRdOp s value))

/-- DE_IDLE (R575): no word waits and every command has completed. -/
def execDeIdle (s : State) : Host.Outcome State Fault Refusal :=
  if legacyOn s && s.b4.deBusy && s.b4.deFifo.isEmpty &&
      s.pf .legacy Reg.LEGACY_DE_RING_WR 13 0 == s.pf .legacy Reg.LEGACY_DE_RING_RD 13 0 then
    .next (b4Isr { s with b4 := { s.b4 with deBusy := false } } (2 ^ 10))
  else .next s

/-! Beep (R570 to R573). -/

/-- A beep that sounds or waits stops at once: GATE and BUSY clear (R561). -/
def beepStop (s : State) : State :=
  let s := if beepOwns s then s.setPf .audio (Reg.AUDIO_TONE_CTRL + 224) 31 31 0 else s
  let s := s.setB4 0x800 (fsetb (s.b4r 0x800) 30 false)
  { s with b4 := { s.b4 with beepSet := false, beepLeft := 0 } }

/-- A write of B4_BEEP_CTRL (R571, R572). -/
def beepOp (s : State) (v : Word) : State :=
  let s := s.setB4 0x800 (fset (s.b4r 0x800) 3 0 (fget v 3 0))
  if !fbit v 31 || !fbit (s.b4r 4) 3 then s
  else if toneClaimed s 7 then b4Isr s (2 ^ 12)
  else
    let o := Reg.AUDIO_TONE_CTRL + 224
    let fs := audioFs s
    let s := s.setPr .audio o 1
    let s := s.setPr .audio (o + 4) (w32 ((4294967296 * fget (s.b4r 0x804) 15 0 + fs / 2) / fs))
    let s := s.setPr .audio (o + 8) (w32 (0x08888888 * fget v 3 0))
    let s := (s.setPr .audio (o + 12) 0).setPr .audio (o + 16) 0
    let s := s.setB4 0x800 (fsetb (s.b4r 0x800) 30 true)
    { s with b4 := { s.b4 with beepSet := true, beepLeft := 0 } }

/-- BEEP_DONE (R573): the beep's last boundary has passed. -/
def execBeepDone (s : State) : Host.Outcome State Fault Refusal :=
  .next (if beepSounds s && s.b4.beepLeft ≤ 1 then beepEnd s else s)

/-! The window (R559 to R561, R564). -/

/-- The writable bits of register r of a head block. -/
def headMask (r : Nat) : Nat :=
  [0x27, 0xFFFFFFFF, 0xFFFFFFFF, 0xFFFFFFFF, 0xFFFFFFFF, 0xFFFFFFFF, 0xFFFFFFFF, 0xFFFFFFFF, 0x00FFFFFF, 0, 0xFFFFFFFF,
    0x0000FFFF, 0xFFFFFFFF, 0xFFFFFFFF, 0xFFFFFFFF, 0].getD r 0

/-- A write to register r of head block h (R564 to R567). -/
def headBlockOp (s : State) (h r : Nat) (v : Word) : State :=
  if headMask r = 0 then s
  else
    let old := hb s h r
    let s := s.setB4 (0x100 + 0x40 * h + 4 * r) (v &&& w32 (headMask r))
    if r = 5 then b4Pixclk s h
    else if r ≠ 0 then b4FlipOrHold s h r
    else
      let s := b4HeadSwitch s h (fbit v 0)
      let s := if fbit v 5 ≠ fbit old 5 ∨ fbit v 2 ≠ fbit old 2 then b4FlipOrHold s h 0 else s
      if fbit v 1 ≠ fbit old 1 then b4FlipOrHold s h 16 else s

/-- The effect of B4_CTRL.SOFT_RESET (R561). -/
def b4ResetOp (s : State) : State :=
  let s := portStop (deClear (beepStop s)) 0
  let s := { s with b4 := { s.b4 with
    regs := [], keyFifo := [], heldFlips := [], restarts := [], resetting := true } }
  (List.range 4).foldl (fun s h =>
    let s := b4HeadSwitch s h false
    b4FlipGraphic (b4FlipVideo (b4FlipComposer (b4FlipTiming s h) h) h) h) s

/-- A write of B4_CTRL (R560, R561, R568, R575). -/
def b4CtrlOp (s : State) (v : Word) : State :=
  if fbit v 31 then b4ResetOp s
  else
    let old := s.b4r 4
    let s := if fbit old 3 && !fbit v 3 then beepStop s else s
    let s := s.setB4 4 (v &&& 0xF)
    let s := if fbit old 1 == fbit v 1 then s
      else
        let s := portStop s 0
        if fbit v 1 then s.setB4 0x18 0 else s
    if fbit old 2 && !fbit v 2 then deClear s else s

/-- A B4 access that is dropped and counted (R559, R560). -/
def b4Drop (s : State) : State := s.count .legacy Reg.LEGACY_DROPPED_ACCESS

/-- A write of B4_KEYCFG (R560). -/
def b4KeycfgOp (s : State) (v : Word) : State :=
  if fget v 11 0 = 0 ∨ fget v 19 16 = 0 then b4Drop s else s.setB4 0x14 (v &&& 0x000F0FFF)

/-- W1C of B4_ISR (R52). -/
def b4IsrClear (s : State) (v : Word) : State :=
  s.setB4 8 (s.b4r 8 &&& ~~~ (v &&& ~~~ (w32 (aget 0 s.cyc.hwSet 0x10000008))))

/-- A write of the word at an offset of the window (R559). -/
def b4Write (s : State) (o : Nat) (v : Word) : State :=
  if o = 0x4 then b4CtrlOp s v
  else if o = 0x8 then b4IsrClear s v
  else if o = 0xC then s.setB4 0xC v
  else if o = 0x14 then b4KeycfgOp s v
  else if 0x100 ≤ o ∧ o < 0x200 then headBlockOp s ((o - 0x100) / 0x40) (o % 0x40 / 4) v
  else if o = 0x400 then deFifoOp s v
  else if o = 0x800 then beepOp s v
  else if o = 0x804 then s.setB4 0x804 (v &&& 0xFFFF)
  else if o = 0x808 then s.setB4 0x808 (v &&& 0xFFFF)
  else s

/-- Port A's host presents an access to the window: refused while the LEGACY page is not READY and in Safe
(R30, R47), dropped during a soft reset (R561). -/
def b4Access (s : State) (o : Nat) (op : State → State) : State :=
  if !legacyOn s || !masterThere s (.func 0) then s
  else
    let s := beginAccess s (.func 0)
    if !s.ready .legacy then s.refuse (.func 0) .dev .mode o o
    else if s.mode.mode = .safe then s.refuse (.func 0) .legacy .mode o o
    else if s.b4.resetting then s
    else op s

/-- B4_SOFT_RESET (R561). -/
def execB4SoftReset (s : State) : Host.Outcome State Fault Refusal := .next (b4Access s 4 b4ResetOp)

/-- B4_SOFT_RESET_DONE (R561): the window takes writes again. -/
def execB4SoftResetDone (s : State) : Host.Outcome State Fault Refusal :=
  .next { s with b4 := { s.b4 with resetting := false } }

/-- B4_KEYCFG_WRITE (R560, R568). -/
def execB4KeycfgWrite (value : Word) (s : State) : Host.Outcome State Fault Refusal :=
  .next (b4Access s 0x14 (fun s => b4KeycfgOp s value))

/-- KEY_EN (R568): B4_CTRL is written. -/
def execKeyEn (value : Word) (s : State) : Host.Outcome State Fault Refusal :=
  .next (b4Access s 4 (fun s => b4CtrlOp s value))

/-- HEAD_BLOCK_FLIP (R566). -/
def execHeadBlockFlip (h : Fin 4) (r : Fin 16) (value : Word) (s : State) : Host.Outcome State Fault Refusal :=
  .next (b4Access s (0x100 + 0x40 * h.val + 4 * r.val) (fun s => headBlockOp s h r value))

/-- FLIP_CUTOFF (R566): later flips of a running head are held until after the latch. -/
def execFlipCutoff (h : Fin 4) (s : State) : Host.Outcome State Fault Refusal :=
  .next (if legacyOn s && (s.head h).running && s.enabled (.timing h) then
    { s with b4 := { s.b4 with cutoff := (s.b4.cutoff ++ [h.val]).eraseDups } }
  else s)

/-- HCTRL_EN (R567): HCTRL of head block h is written. -/
def execHctrlEn (h : Fin 4) (value : Word) (s : State) : Host.Outcome State Fault Refusal :=
  .next (b4Access s (0x100 + 0x40 * h.val) (fun s => headBlockOp s h 0 value))

/-- PIXCLK_WRITE (R565). -/
def execPixclkWrite (h : Fin 4) (value : Word) (s : State) : Host.Outcome State Fault Refusal :=
  .next (b4Access s (0x114 + 0x40 * h.val) (fun s => headBlockOp s h 5 value))

/-- DE_FIFO_WRITE (R574). -/
def execDeFifoWrite (value : Word) (s : State) : Host.Outcome State Fault Refusal :=
  .next (b4Access s 0x400 (fun s => deFifoOp s value))

/-- DE_DISABLE (R575): B4_CTRL is written. -/
def execDeDisable (value : Word) (s : State) : Host.Outcome State Fault Refusal :=
  .next (b4Access s 4 (fun s => b4CtrlOp s value))

/-- BEEP_GO (R572): B4_BEEP_CTRL is written. -/
def execBeepGo (value : Word) (s : State) : Host.Outcome State Fault Refusal :=
  .next (b4Access s 0x800 (fun s => beepOp s value))

/-! Reads (R559, R560). -/

/-- A register of the window as it reads. -/
def b4Read (s : State) (o : Nat) : Word :=
  if o = 0x10 then (match s.b4.keyFifo with | e :: _ => w32 (2 ^ 31 + e) | [] => 0)
  else if o = 0x1C then w32 (maskOf 4 (fun h => fbit (s.pr (.dplink h) Reg.DPLINK_LINK_STATUS) 31))
  else if o = 0x404 then w32 (2 ^ 31 * b2n (!s.b4.deBusy) + 2 ^ 30 * b2n s.b4.deError + deFree s)
  else if o = 0x400 then 0
  else if 0x100 ≤ o ∧ o < 0x200 ∧ o % 0x40 = 0x3C then
    let h := (o - 0x100) / 0x40
    let w := pageReg s false (.timing h) Reg.TIMING_POSITION
    w32 (2 ^ 31 * b2n (s.b4.flipPending.contains h) + 2 ^ 30 * b2n (fbit w 24) + fget w 15 0)
  else s.b4r o

/-- A read of the window answers FUNC0, zeros while the LEGACY page is not READY; a read of B4_KEYFIFO that is
valid removes the entry. -/
def b4ReadAccess (s : State) (o : Nat) : State :=
  if !legacyOn s || !masterThere s (.func 0) then s
  else
    let s := beginAccess s (.func 0)
    let v := if s.ready .legacy then b4Read s o else 0
    let s := if o = 0x10 ∧ s.ready .legacy then { s with b4 := { s.b4 with keyFifo := s.b4.keyFifo.drop 1 } } else s
    { s with answer := some ⟨0, o, v⟩ }

/-- B4_KEYFIFO_READ (R560). -/
def execB4KeyfifoRead (s : State) : Host.Outcome State Fault Refusal := .next (b4ReadAccess s 0x10)

/-! INTA (R557). -/

/-- The B4 interrupt condition. -/
def intaOn (s : State) : Bool :=
  legacyOn s && s.b4r 8 &&& s.b4r 0xC != 0 && fbit (s.b4r 4) 0 && !(s.hport 0).intxOff

/-- ASSERT_INTA (R557). -/
def execAssertInta (s : State) : Host.Outcome State Fault Refusal :=
  .next (if intaOn s && !(s.hport 0).inta then (s.setHport 0 { s.hport 0 with inta := true }).send (.inta true) else s)

/-- DEASSERT_INTA (R557). -/
def execDeassertInta (s : State) : Host.Outcome State Fault Refusal :=
  .next (if !intaOn s && (s.hport 0).inta then (s.setHport 0 { s.hport 0 with inta := false }).send (.inta false) else s)

end Sys2Proof.Machine
end

