-- ==== Sys2Proof/Machine/HostCmds.lean ====
section
/-!
DEFINITION. Machine/HostCmds.lean: what a host does at a PCI Express port: link, configuration, resets, device-memory
windows, errors; and the invalidations of a function's translations (R369 to R376, R391, R392, R403 to R406).
-/
namespace Sys2Proof.Machine

/-- The page of a port. -/
def hif (p : Nat) : Page := .hostif p

/-- Port p works in the profile in force (R22, R371, R551). -/
def portOn (s : State) (p : Nat) : Bool := p == 0 || !legacyOn s || s.cfg.portB == 1

/-- The link of a port is up. -/
def linkUp (s : State) (p : Nat) : Bool := s.pf (hif p) Reg.HOSTIF_LINK 31 31 == 1

/-! Function reset (R391, R392). -/

/-- FUNC registers that a reset leaves: the PF fields (R381). -/
def pfFieldOffs : List Nat :=
  [Reg.FUNC_S2_ROOT_LO, Reg.FUNC_S2_ROOT_HI, Reg.FUNC_MIG_CTRL, Reg.FUNC_MIG_ADDR_LO, Reg.FUNC_MIG_ADDR_HI] ++
    (List.range 14).map (fun k => Reg.FUNC_SLOT + 4 * k)

/-- A reset acts on one job of the function (R391 steps 6 and 7): what has not been dispatched is removed, compute
stops mid-wave, render goes on to its tile boundaries, and what has ended keeps its slot until its effects are
discarded. -/
def resetJob (s : State) (i : Nat) (j : Job) : State :=
  match j.phase with
  | .waiting | .ready => freeJob s i
  | .running => if j.op = 1 ∧ j.rend.flying ≠ [] then s else freeJob s i
  | .ended | .signalled => s

/-- A function reset is accepted (R391). -/
def resetNow (s : State) (f : Nat) : State :=
  let p : Page := .func f
  let keep := (Reg.FUNC_FUNC_STATUS :: pfFieldOffs).map (fun o => (pageBase p + o, s.pr p o))
  let jobs := (jobsIn s).filter (fun e => e.2.rs == f)
  let gen := (funcGen s f + 1) % 256
  let s := s.resetRange (pageBase p + 0x100) (pageBase p + 0x1000)
  let s := keep.foldl (fun s e => s.setReg e.1 e.2) s
  let s := s.setPf p Reg.FUNC_FUNC_STATUS 31 24 gen
  let s := (s.setPf p Reg.FUNC_FUNC_STATUS 10 10 1).setPf p Reg.FUNC_FUNC_STATUS 11 11 0
  let s := s.setRing f { s.ring f with modCount := 0, groups := 0, freezing := false }
  let s := jobs.foldl (fun s e => resetJob s e.1 e.2) s
  streamsOff (dropS1 s f (fun _ _ _ => true)) f

/-- A function reset: one that arrives while another runs waits for it (R391). -/
def funcReset (s : State) (f : Nat) : State :=
  if funcResetting s f then s.setRing f { s.ring f with resetAgain := true } else resetNow s f

/-- No slot, record, point record or write of an old generation is left (R391). -/
def resetSettled (s : State) (f : Nat) : Bool :=
  !(jobsIn s).any (fun e => e.2.rs == f) && (s.ring f).cqWait.isEmpty &&
    !s.legend.jobs.any (fun j => j.func == f && j.gen != funcGen s f)

/-- RESET_DONE (R391): RESETTING clears; a reset that waited takes effect. -/
def execResetDone (f : Fin 64) (s : State) : Host.Outcome State Fault Refusal :=
  if funcResetting s f && resetSettled s f then
    let s := (s.setPf (.func f) Reg.FUNC_FUNC_STATUS 10 10 0).event (.func f) 4
    let x := s.ring f
    .next (if x.resetAgain then resetNow (s.setRing f { x with resetAgain := false }) f else s)
  else .next s

/-- FUNC_CTRL_RESET (R391): a write of FUNC_CTRL. -/
def execFuncCtrlReset (m : Master) (f : Fin 64) (value : Word) (s : State) : Host.Outcome State Fault Refusal :=
  .next (writeReg s m (pageBase (.func f) + Reg.FUNC_FUNC_CTRL) (fun _ => none)
    (fun s => if fbit value 0 then funcReset s f else s))

/-! Which functions exist (R371). -/

/-- A FUNC page becomes READY with its port (R530), or loses READY with its function (R371). -/
def setExists (s : State) (f : Nat) (on : Bool) : State :=
  let s := s.setPf (.func f) Reg.FUNC_FUNC_STATUS 9 9 (b2n on)
  if !on then s.clearReady (.func f) 6
  else if s.ready (hif (portOf f)) then s.setReady (.func f) else s

/-- A VF ceases to exist, or comes to exist (R371). -/
def vfExists (s : State) (f : Nat) (on : Bool) : State :=
  if funcExists s f = on then s else if on then setExists s f true else setExists (funcReset s f) f false

/-- VF Enable and NumVFs of a port as the host sets them (R371, R405). -/
def setSriov (s : State) (p : Nat) (enable : Bool) (n : Nat) : State :=
  let was := s.pf (hif p) Reg.HOSTIF_SRIOV 8 8
  let s := s.setPr (hif p) Reg.HOSTIF_SRIOV (w32 (b2n enable * 256 + n))
  let s := (List.range 31).foldl (fun s i => vfExists s (32 * p + i + 1) (enable && i < n)) s
  if was = b2n enable then s else s.event (hif p) 2

/-- Configuration requests of a port reach its functions: link up, page READY (R30, R530). -/
def configOpen (s : State) (p : Nat) : Bool := s.mode.mode != .held && linkUp s p && s.ready (hif p)

/-- VF_ENABLE_CHANGE (R371): the host writes VF Enable and NumVFs. Port A presents no SR-IOV in Legacy Profile
(R555). -/
def execVfEnableChange (p : Fin 2) (enable : Bool) (n : Fin 32) (s : State) : Host.Outcome State Fault Refusal :=
  .next (if configOpen s p && portOn s p && funcExists s (32 * p.val) && !(legacyOn s && p == 0) then
    setSriov s p enable n else s)

/-! Link and resets from the host (R391, R392, R405). -/

/-- What the host programmed into one function is gone. -/
def clearConfig (s : State) (f : Nat) : State :=
  let x := s.hport (portOf f)
  let k := f % 32
  let del (l : List Nat) : List Nat := l.filter (fun i => i != k)
  s.setHport (portOf f) { x with
    msixOn := del x.msixOn, msixMask := del x.msixMask, d3hot := del x.d3hot,
    aer := if k = 0 then 0 else x.aer, intxOff := if k = 0 then false else x.intxOff,
    config := x.config.filter (fun e => e.1 / 4096 != k) }

/-- The B4 model of port A resets with its function (R558). -/
def b4HostReset (s : State) (p : Nat) : State := if legacyOn s && p == 0 then b4ResetOp s else s

/-- Every function of a port is reset, and its VFs cease to exist (R392). -/
def portReset (s : State) (p : Nat) : State :=
  let s := if funcExists s (32 * p) then clearConfig (funcReset s (32 * p)) (32 * p) else s
  let s := (List.range 31).foldl (fun s i => clearConfig s (32 * p + i + 1)) s
  b4HostReset (setSriov s p false 0) p

/-- PCIE_LINK_UP (R369, R405). -/
def execPcieLinkUp (p : Fin 2) (speed : Fin 5) (width : Fin 5) (s : State) : Host.Outcome State Fault Refusal :=
  if s.mode.mode = .held ∨ !portOn s p then .next s
  else
    let was := linkUp s p
    let s := s.setPr (hif p) Reg.HOSTIF_LINK (w32 (2 ^ 31 + 2 ^ 16 * (speed.val + 1) + 2 ^ width.val * 256))
    .next (if s.ready (hif p) && !was then s.event (hif p) 0 else s)

/-- LINK_DOWN (R392, R405). -/
def execLinkDown (p : Fin 2) (s : State) : Host.Outcome State Fault Refusal :=
  if !linkUp s p then .next s
  else
    let s := (s.setPr (hif p) Reg.HOSTIF_LINK 0).event (hif p) 1
    .next (raiseFault (portReset s p) (hif p) 0)

/-- HOT_RESET (R392). -/
def execHotReset (p : Fin 2) (s : State) : Host.Outcome State Fault Refusal :=
  .next (if linkUp s p then portReset s p else s)

/-- FUNCTION_LEVEL_RESET (R391): a PF's also ends every VF of its port. -/
def execFunctionLevelReset (f : Fin 64) (s : State) : Host.Outcome State Fault Refusal :=
  let p := portOf f
  if !configOpen s p || !funcExists s f then .next s
  else
    let s := clearConfig (funcReset s f) f
    .next (if f.val % 32 = 0 then b4HostReset (setSriov s p false 0) p else s)

/-! Configuration space (R369, R370, R555). -/

/-- Dword k of a function's configuration space: the identity the spec gives, else what the host wrote, else a free
value. -/
def configDword (s : State) (f k : Nat) : Word :=
  let b4 := legacyOn s && f == 0
  let raw := (aget none ((s.hport (portOf f)).config.map (fun e => (e.1, some e.2))) (4096 * (f % 32) + 4 * k)).getD
    (Config.configDword f k)
  if k = 0 then (if b4 then 0x0B041CB4 else w32 (0x10000 * ((if f % 32 = 0 then 0x1240 else 0x1241)) + 0x1FC7))
  else if k = 2 then (if b4 then 0x03800005 else w32 (0x03800000 + fget (s.hd .dev .rev) 31 24))
  else if k = 11 then w32 (0x10000 * s.cfg.subId + s.cfg.subVendor)
  else if k = 15 then w32 (raw % 256 + (if b4 then 0x100 else 0) + 65536 * (raw / 65536))
  else w32 raw

/-- A number in or out of a list. -/
def setMember (l : List Nat) (k : Nat) (on : Bool) : List Nat :=
  let r := l.filter (fun i => i != k)
  if on then r ++ [k] else r

/-- The effect of a configuration request on an existing function. -/
def configOp (s : State) (f : Nat) (op : ConfigOp) : State :=
  let p := portOf f
  let k := f % 32
  let x := s.hport p
  match op with
  | .read d => s.send (.completion p 0 false (leBytes 4 (configDword s f d.toNat).toNat))
  | .write d v =>
    (s.setHport p { x with config := ains (4096 * k + 4 * d.toNat) v.toNat (adel x.config (4096 * k + 4 * d.toNat)) }).send
      (.completion p 0 false [])
  | .msix enable mask =>
    let s := s.setHport p { x with msixOn := setMember x.msixOn k enable, msixMask := setMember x.msixMask k mask }
    msixUnmask (s.send (.completion p 0 false [])) f
  | .aer r => (if k = 0 then s.setHport p { x with aer := r.toNat } else s).send (.completion p 0 false [])
  | .power d3 => (s.setHport p { x with d3hot := setMember x.d3hot k d3 }).send (.completion p 0 false [])
  | .intxDisable on => (if k = 0 then s.setHport p { x with intxOff := on } else s).send (.completion p 0 false [])

/-- An Unsupported Request completion, counted (R374, R405, R406). -/
def answerUr (s : State) (p : Nat) (read : Bool) : State :=
  let s := s.count (hif p) Reg.HOSTIF_UR_COUNT
  if read then s.send (.completion p 1 false []) else s

/-- CONFIG_REQUEST (R370, R530): Configuration Request Retry Status until the page is READY, Unsupported Request for
a function that does not exist. -/
def execConfigRequest (p : Fin 2) (fn : BitVec 8) (op : ConfigOp) (s : State) : Host.Outcome State Fault Refusal :=
  if s.mode.mode = .held ∨ !linkUp s p then .next s
  else if !s.ready (hif p) then .next (s.send (.completion p 2 false []))
  else if 32 ≤ fn.toNat ∨ !funcExists s (32 * p.val + fn.toNat) then .next (answerUr s p true)
  else .next (configOp s (32 * p.val + fn.toNat) op)

/-! Device-memory windows (R374, R376, R347, R509, R554, R556). -/

/-- A function answers memory requests: it exists, its port is READY, and it is in D0. -/
def answersMem (s : State) (f : Nat) : Bool :=
  s.mode.mode != .held && linkUp s (portOf f) && s.ready (hif (portOf f)) && funcExists s f &&
    !(s.hport (portOf f)).d3hot.contains (f % 32)

/-- An access outside a window: Unsupported Request or dropped, counted, and logged once per millisecond and port
(R374). -/
def outOfWindow (s : State) (p : Nat) (read : Bool) (a : Nat) : State :=
  (answerUr s p read).logLimited (0x100 + p) 1000000 .host (pageBase (hif p)) 0 a

/-- The bytes of a completion: those read, or undefined ones with the poisoned bit (R347). -/
def completeRead (s : State) (p len : Nat) (r : Except AccErr (List Nat)) : State :=
  match r with
  | .ok b => s.send (.completion p 0 false b)
  | .error _ =>
    let (s, b) := hostBytes s len
    s.send (.completion p 0 true b)

/-- Byte values of written data; none where a byte enable is off. -/
def dataBytes (d : List (Option (BitVec 8))) : List (Option Nat) := d.map (fun x => x.map (·.toNat))

/-- The device physical address of offset x of the PF's window, where len bytes from it lie in the window (R374,
R554, R556). -/
def windowAddr (s : State) (p off len : Nat) : Option Nat :=
  if legacyOn s ∧ p = 0 then (if off + len ≤ frameSize s then some (portBase s 0 + off) else none)
  else
    let a := portBase s p + 0x10000000 * s.pf (hif p) Reg.HOSTIF_BAR2_SLIDE 7 0 + off
    if a + len ≤ portLimit s p ∧ a + len ≤ memTop s then some a else none

/-- BAR2_ACCESS (R374): a read of len bytes, or a write, through the PF's device-memory window. -/
def execBar2Access (p : Fin 2) (off : BitVec 36) (len : Fin 4097) (data : Option (List (Option (BitVec 8)))) (s : State) :
    Host.Outcome State Fault Refusal :=
  let n := match data with | some d => d.length | none => len.val
  if s.mode.mode = .held ∨ !linkUp s p then .next s
  else if !answersMem s (32 * p.val) then .next (answerUr s p data.isNone)
  else match windowAddr s p off.toNat n, data with
    | none, _ => .next (outOfWindow s p data.isNone off.toNat)
    | some a, none =>
      let (s, r) := busRead s (0x17 + p.val) false a n
      .next (completeRead s p n r)
    | some a, some d =>
      if s.mode.mode = .safe then .next (s.count (hif p) Reg.HOSTIF_UR_COUNT)
      else .next (busWriteMasked s (0x17 + p.val) false a (dataBytes d)).1

/-- The pieces of a VF's window access, each translated (R376). -/
def vfRead (s : State) (f a len : Nat) : State × Except AccErr (List Nat) :=
  funcRead s ⟨f, 0x17 + portOf f, false, false, 8, 0, true⟩ a len

/-- Byte values with their enables, written run by run through stage 2. -/
def vfWrite (s : State) (f : Nat) : Nat → List (Option Nat) → State × Option AccErr
  | _, [] => (s, none)
  | a, none :: r => vfWrite s f (a + 1) r
  | a, some b :: r =>
    match funcWrite s ⟨f, 0x17 + portOf f, false, true, 8, 0, true⟩ a [b] with
    | (s, .ok _) => vfWrite s f (a + 1) r
    | (s, .error e) => (s, some e)

/-- VF_BAR2_ACCESS (R376): the same through a VF's window and its stage 2. -/
def execVfBar2Access (f : Fin 64) (off : BitVec 32) (len : Fin 4097) (data : Option (List (Option (BitVec 8))))
    (s : State) : Host.Outcome State Fault Refusal :=
  let p := portOf f
  let n := match data with | some d => d.length | none => len.val
  if s.mode.mode = .held ∨ !linkUp s p ∨ f.val % 32 = 0 then .next s
  else if !answersMem s f then .next (answerUr s p data.isNone)
  else if 2 ^ s.pf (hif p) Reg.HOSTIF_VF_BAR2 4 0 < off.toNat + n then .next (outOfWindow s p data.isNone off.toNat)
  else match data with
    | none =>
      match vfRead s f off.toNat n with
      | (s, .error (.translation a)) => .next (outOfWindow s p true a)
      | (s, r) => .next (completeRead s p n r)
    | some d =>
      if s.mode.mode = .safe then .next (s.count (hif p) Reg.HOSTIF_UR_COUNT)
      else match vfWrite s f off.toNat (dataBytes d) with
        | (s, some (.translation a)) => .next (outOfWindow s p false a)
        | (s, _) => .next s

/-! Host misbehaviour (R406). -/

/-- An AER error is reported where the host has enabled it. -/
def sendAer (s : State) (p code : Nat) : State :=
  if bit (s.hport p).aer (code - 1) then s.send (.aer p code) else s

/-- A port receives packets. -/
def portHears (s : State) (p : Nat) : Bool := s.mode.mode != .held && linkUp s p && s.ready (hif p)

/-- MALFORMED_TLP (R406). -/
def execMalformedTlp (p : Fin 2) (s : State) : Host.Outcome State Fault Refusal :=
  if !portHears s p then .next s
  else
    let s := (s.count (hif p) Reg.HOSTIF_MALFORMED_COUNT).event (hif p) 3
    .next (sendAer (raiseFault s (hif p) 1) p 1)

/-- ECRC_ERROR (R406). -/
def execEcrcError (p : Fin 2) (s : State) : Host.Outcome State Fault Refusal :=
  .next (if portHears s p then sendAer (s.event (hif p) 3) p 2 else s)

/-- A poisoned request or completion arrived. -/
def poisoned (s : State) (p : Nat) : State :=
  let s := (s.count (hif p) Reg.HOSTIF_POISONED_COUNT).event (hif p) 3
  sendAer (raiseFault s (hif p) 2) p 3

/-- POISONED_REQUEST (R406): dropped unwritten. -/
def execPoisonedRequest (p : Fin 2) (s : State) : Host.Outcome State Fault Refusal :=
  .next (if portHears s p then poisoned s p else s)

/-- UNEXPECTED_COMPLETION (R406). -/
def execUnexpectedCompletion (p : Fin 2) (s : State) : Host.Outcome State Fault Refusal :=
  .next (if portHears s p then sendAer (s.event (hif p) 3) p 4 else s)

/-- The requester of a read of host memory gets an error response (R406). -/
def hostReadFails (s : State) (p : Nat) (req : HostReq) : State :=
  match req with
  | .sq f q =>
    if portOf f ≠ p ∨ !ringOn s f q ∨ ringStopped s f q then s else stopRing s f q 8 (ringHead s f q)
  | .cq f => if portOf f ≠ p ∨ !ringOn s f 4 ∨ ringStopped s f 4 then s else cqError s f
  | .job i =>
    match s.job i with
    | some j => if j.rs / 32 = p ∧ j.phase = .running then endJobAs s i .memFault 0 else s
    | none => s
  | .fence i =>
    match s.job i with
    | some j => if j.rs / 32 = p ∧ j.phase = .waiting ∧ j.since ≠ none then endWaiting s i j .fenceError else s
    | none => s

/-- COMPLETION_TIMEOUT (R406): a read of host memory fails: 0 no completion in time, 1 poisoned, 2 error status. -/
def execCompletionTimeout (p : Fin 2) (kind : Fin 3) (req : HostReq) (s : State) : Host.Outcome State Fault Refusal :=
  if !portHears s p then .next s
  else
    let s := match kind.val with
      | 0 => sendAer (raiseFault (s.count (hif p) Reg.HOSTIF_CPL_TIMEOUT_COUNT) (hif p) 3) p 5
      | 1 => poisoned s p
      | _ => s
    .next (hostReadFails s p req)

/-! Invalidations (R403, R404). -/

/-- S1INV_CMD is written: its check (R381, R403). -/
def s1invCheck (s : State) (f : Nat) (v : Word) : Option Cause :=
  if fget v 29 28 = 3 ∨ fget v 15 0 = 0 then some .range
  else if fbit v 31 ∧ s.pf (.func f) Reg.FUNC_S1INV_CMD 30 30 = 1 then some .inuse
  else none

/-- The effect of a write of S1INV_CMD: GO drops what lies in scope. -/
def s1invOp (s : State) (f : Nat) (v : Word) : State :=
  let p : Page := .func f
  let s := s.setPr p Reg.FUNC_S1INV_CMD ((s.pr p Reg.FUNC_S1INV_CMD &&& 0x40000000) ||| (v &&& 0x300FFFFF))
  if !fbit v 31 then s
  else
    let va := 4096 * s.pf p Reg.FUNC_S1INV_ADDR_LO 31 12 + 2 ^ 32 * s.pf p Reg.FUNC_S1INV_ADDR_HI 15 0
    let ve := va + 4096 * fget v 15 0
    let hit (c a n : Nat) : Bool :=
      match fget v 29 28 with
      | 0 => true
      | 1 => c == fget v 19 16
      | _ => c == fget v 19 16 && a < ve && va < a + n
    (dropS1 s f hit).setPf p Reg.FUNC_S1INV_CMD 30 30 1

/-- S1INV_GO (R403). -/
def execS1invGo (m : Master) (f : Fin 64) (value : Word) (s : State) : Host.Outcome State Fault Refusal :=
  .next (writeReg s m (pageBase (.func f) + Reg.FUNC_S1INV_CMD) (fun s => s1invCheck s f value) (fun s => s1invOp s f value))

/-- S1INV_DONE (R403). -/
def execS1invDone (f : Fin 64) (s : State) : Host.Outcome State Fault Refusal :=
  .next (if s.pf (.func f) Reg.FUNC_S1INV_CMD 30 30 = 1 then
    (s.setPf (.func f) Reg.FUNC_S1INV_CMD 30 30 0).event (.func f) 7 else s)

/-- Offset of a register of port p's stage-2 invalidation block (R404). -/
def s2invOff (p o : Nat) : Nat := 0x100 + 0x20 * p + o

/-- S2INV_CMD is written: its check (R404, R403). -/
def s2invCheck (s : State) (p : Nat) (v : Word) : Option Cause :=
  if 2 ≤ fget v 29 28 ∨ fget v 21 16 / 32 ≠ p ∨ fget v 15 0 = 0 then some .range
  else if fbit v 31 ∧ s.pf .xlate (s2invOff p 8) 30 30 = 1 then some .inuse
  else none

/-- The effect of a write of S2INV_CMD. -/
def s2invOp (s : State) (p : Nat) (v : Word) : State :=
  let s := s.setPr .xlate (s2invOff p 8) ((s.pr .xlate (s2invOff p 8) &&& 0x40000000) ||| (v &&& 0x303FFFFF))
  if !fbit v 31 then s
  else
    let ip := 4096 * s.pf .xlate (s2invOff p 0) 31 12 + 2 ^ 32 * s.pf .xlate (s2invOff p 4) 15 0
    let s := if fget v 29 28 = 0 then dropS2 s (fget v 21 16) 0 (2 ^ 64)
      else dropS2 s (fget v 21 16) ip (ip + 4096 * fget v 15 0)
    s.setPf .xlate (s2invOff p 8) 30 30 1

/-- S2INV_GO (R403, R404). -/
def execS2invGo (m : Master) (p : Fin 2) (value : Word) (s : State) : Host.Outcome State Fault Refusal :=
  .next (writeReg s m (pageBase .xlate + s2invOff p 8) (fun s => s2invCheck s p value) (fun s => s2invOp s p value))

/-- S2INV_DONE (R403): the event is in the PF's page. -/
def execS2invDone (p : Fin 2) (s : State) : Host.Outcome State Fault Refusal :=
  .next (if s.pf .xlate (s2invOff p 8) 30 30 = 1 then
    (s.setPf .xlate (s2invOff p 8) 30 30 0).event (.func (32 * p.val)) 8 else s)

/-- The upper word of a pair is written: the lower word the master staged applies with it (R71). -/
def hiWrite (s : State) (m : Master) (lo : Nat) (v : Word) : State :=
  (s.applyStaged m lo lo).setReg (lo + 4) v

/-- S2_ROOT_HI is written: every stage-2 translation of the function is dropped (R403). -/
def s2RootOp (s : State) (m : Master) (f : Nat) (v : Word) : State :=
  dropS2 (hiWrite s m (pageBase (.func f) + Reg.FUNC_S2_ROOT_LO) (v &&& 0xFFFF)) f 0 (2 ^ 64)

/-- S2_ROOT_WRITE (R403). -/
def execS2RootWrite (m : Master) (f : Fin 64) (value : Word) (s : State) : Host.Outcome State Fault Refusal :=
  .next (writeReg s m (pageBase (.func f) + Reg.FUNC_S2_ROOT_HI) (fun _ => none) (fun s => s2RootOp s m f value))

/-- The HOSTIF page of a port becomes READY (R405, R530), and with it the pages of its functions. -/
def hostifReady (s : State) (p : Nat) : State :=
  let s := s.setReady (hif p)
  let s := if linkUp s p then s.event (hif p) 0 else s
  let s := if portOn s p then setExists s (32 * p) true else s
  (List.range 31).foldl (fun s i => if funcExists s (32 * p + i + 1) then s.setReady (.func (32 * p + i + 1)) else s) s

end Sys2Proof.Machine
end

