-- ==== Sys2Proof/Machine/Jobs.lean ====
section
/-!
DEFINITION. Machine/Jobs.lean: the job scheduler: descriptor fetch, fences, modules, presents, the start of compute
jobs, watchdogs and completion (R290 to R301, R310, R314 to R319, R324, R327; R197).
-/
namespace Sys2Proof.Machine

/-! Descriptor fetch (R290 to R294, R384). -/

/-- Byte o of a descriptor. -/
def dByte (d : List Nat) (o : Nat) : Nat := d.getD o 0

/-- n bytes from offset o are 0. -/
def dZero (d : List Nat) (o n : Nat) : Bool := bytesAt d o n == 0

/-- The opcodes each ring accepts for job descriptors (R292). -/
def opcodeOk (q op : Nat) : Bool :=
  op == 0 || (q == 0 && op == 1) || (q == 1 && op == 2) || (q == 2 && 0x20 ≤ op && op ≤ 0x23) || (q == 3 && op == 0x41)

/-- The reserved bytes of a form's body are 0 (R302, R310, R312 to R315). -/
def bodyZero (d : List Nat) : Bool :=
  match dByte d 0 with
  | 0x00 => dZero d 32 32
  | 0x01 => dZero d 60 4
  | 0x02 => dZero d 35 1 && dZero d 56 8
  | 0x20 => dZero d 60 4
  | 0x21 => dZero d 56 8
  | 0x22 => dZero d 46 18
  | 0x23 => dZero d 34 30
  | 0x41 => dZero d 36 4 && dZero d 56 8
  | _ => true

/-- Class of a descriptor (R291). -/
def dClass (d : List Nat) : Nat := dByte d 2 % 4

/-- Every field that must be 0 is 0 (R290, R291). -/
def fieldsZero (d : List Nat) : Bool :=
  dByte d 2 / 64 == 0 && (bit (dByte d 2) 4 || dZero d 8 8) && (bit (dByte d 2) 5 || dZero d 16 8) &&
    (if dClass d = 1 then dByte d 28 / 16 == 0 else dZero d 24 5) && dZero d 29 3 && bodyZero d

/-- The class is one the ring set may not use (R293, R320, R328, R427). -/
def classBad (s : State) (rs cls : Nat) : Bool :=
  if rs = 64 then false
  else if rs = 65 then cls == 0
  else cls == 0 || decide (cls < s.pf .sched (Reg.SCHED_FUNC_LIMIT + 4 * rs) 1 0)

/-- A fence index that is used is out of the table (R293, R295). -/
def fenceBad (d entry : List Nat) : Bool :=
  let n := bytesAt entry 32 2
  (bit (dByte d 2) 4 && decide (n ≤ bytesAt d 8 2 % 4096)) || (bit (dByte d 2) 5 && decide (n ≤ bytesAt d 16 2 % 4096))

/-- The lowest cause code among the checks that a job descriptor fails (R293, R384); no context entry is `none`. -/
def fetchCause (s : State) (rs q : Nat) (d : List Nat) (entry : Option (List Nat)) : Option Nat :=
  let e := entry.getD []
  let failed : List (Nat × Bool) :=
    [(1, !opcodeOk q (dByte d 0)), (2, classBad s rs (dClass d)), (3, !fieldsZero d),
     (4, entry.isNone || !bit (bytesAt e 0 8) 0), (5, fenceBad d e), (6, dClass d == 1 && 11 < dByte d 28 % 16)]
  (failed.find? (·.2)).map (·.1)

/-- Read the context entry that CTX names; none where it names none (R295). -/
def ctxRead (s : State) (rs c : Nat) : State × Except AccErr (Option (List Nat)) :=
  if 15 < c then (s, .ok none)
  else match ringRead s rs (rs == 64) 3 (ctxEntryAddr s rs c) 64 with
    | (s, .error e) => (s, .error e)
    | (s, .ok b) => (s, .ok (some b))

/-- A function is at its slot cap (R294). -/
def atCap (s : State) (rs : Nat) : Bool :=
  rs < 64 && decide (s.pf .sched Reg.SCHED_FUNC_JOB_CAP 9 0 ≤ ((jobsIn s).filter (fun e => e.2.rs == rs)).length)

/-- The lowest free slot a class may use: 960 to 1023 serve only SAFE and DEADLINE (R294). -/
def freeSlot (s : State) (cls : Nat) : Option Nat :=
  (List.range (if cls ≤ 1 then 1024 else 960)).find? (fun i => (s.job i).isNone)

/-- The modes in which jobs run. -/
def jobsMode (s : State) : Bool :=
  match s.mode.mode with
  | .legacy | .native | .degraded => !loadIsShed s
  | _ => false

/-- The ring set's own unit can fetch: the function exists and is neither frozen, freezing nor in reset (R391, R394),
Heartwood is not in a restart (R437), and some shared core is in service. -/
def ringSetLive (s : State) (rs : Nat) : Bool :=
  if rs < 64 then funcExists s rs && !funcFrozen s rs && !funcResetting s rs && !(s.ring rs).freezing
  else if rs = 64 then s.surv.hwLoaded && !restarting s
  else (List.range 8).any (fun c => !isHwCore s c && !coreFenced s c)

/-- An SQ fetches: enabled, not stopped, not empty, with a completion ring that takes records (R385, R388). -/
def sqFetches (s : State) (rs q : Nat) : Bool :=
  jobsMode s && s.ready .sched && s.enabled .sched && ringSetLive s rs && ringOn s rs q && !ringStopped s rs q &&
    ringHead s rs q != ringTail s rs q && cqTakes s rs

/-- HEAD moves past the entry it names. -/
def headNext (s : State) (rs q : Nat) : State := setRingF s rs q rHead 11 0 ((ringHead s rs q + 1) % ringSize s rs q)

/-- A checked descriptor takes a slot (R294). -/
def takeJob (s : State) (rs q i : Nat) (d entry : List Nat) : State :=
  let j : Job := {
    rs := rs, q := q, idx := ringHead s rs q, gen := dByte d 1, op := dByte d 0, flags := dByte d 2,
    ctx := dByte d 3, tag := bytesAt d 4 4, wait := bytesAt d 8 8, signal := bytesAt d 16 8, dlFrame := bytesAt d 24 4,
    dlHead := dByte d 28, body := d.drop 32, entry := entry, seq := s.sched.nextSeq }
  let s := headNext (s.setJob i (some j)) rs q
  waitNext { s with sched := { s.sched with nextSeq := s.sched.nextSeq + 1 } } rs q

/-- Owner code under which a ring set acts (R72). -/
def ringCode (rs : Nat) : Nat := if rs = 65 then 0x42 else rs

/-- The records of a POINT_UPDATE descriptor enter the Legend queue (R197, R200). -/
def pointTake (s : State) (rs : Nat) (d : List Nat) : State :=
  let id := s.legend.jobs.foldl (fun m j => max m (j.id + 1)) 0
  let n := dByte d 2
  let recs := (List.range n).map (fun r =>
    let w := bytesAt d (8 + 8 * r) 8
    (⟨w, ringCode rs, rangeOwned s 0 (bits w 17 0) (ringCode rs), some id⟩ : PointRec))
  let job : PointJob := ⟨id, rs, bytesAt d 4 4, bit (dByte d 3) 0, dByte d 1, n, 0⟩
  headNext (s.setLegend { s.legend with queue := s.legend.queue ++ recs, jobs := s.legend.jobs ++ [job] }) rs 3

/-- A POINT_UPDATE descriptor is checked and taken (R197, R384). -/
def pointFetch (s : State) (rs : Nat) (d : List Nat) : State :=
  if dByte d 3 / 2 ≠ 0 then stopRing s rs 3 3 (ringHead s rs 3)
  else if dByte d 2 = 0 ∨ 7 < dByte d 2 then stopRing s rs 3 7 (ringHead s rs 3)
  else pointTake s rs d

/-- Records of an earlier descriptor of this SQ3 are still to be accepted (R200). -/
def pointsWait (s : State) (rs : Nat) : Bool :=
  s.legend.queue.any (fun r => s.legend.jobs.any (fun j => j.func == rs && r.job == some j.id))

/-- A job descriptor that has been read: its slot, its context, its checks (R293, R294, R296). -/
def jobFetch (s : State) (rs q : Nat) (d : List Nat) : State :=
  match ctxRead s rs (dByte d 3) with
  | (s, .error _) => stopRing s rs q 8 (ringHead s rs q)
  | (s, .ok entry) =>
    match fetchCause s rs q d entry with
    | some c => stopRing s rs q c (ringHead s rs q)
    | none =>
      match freeSlot s (dClass d) with
      | some i => takeJob s rs q i d (entry.getD [])
      | none => s

/-- The descriptor at HEAD returns: GEN check, slot, checks (R293, R294, R384, R390). Without a slot it stays. -/
def fetchOp (s₀ : State) (rs q : Nat) (pointsOnly : Bool) : State :=
  if !sqFetches s₀ rs q || (q == 3 && pointsWait s₀ rs) || (q != 3 && atCap s₀ rs) then s₀
  else
    match ringRead s₀ rs (rs == 64) 1 (ringBase s₀ rs q + 64 * ringHead s₀ rs q) 64 with
    | (s, .error _) => stopRing s rs q 8 (ringHead s rs q)
    | (s, .ok d) =>
      let point := q = 3 ∧ dByte d 0 = 0x40
      if pointsOnly ∧ ¬ point then s₀
      else if ¬ point ∧ (atCap s₀ rs ∨ freeSlot s₀ (dClass d) = none) then s₀
      else if staleGen s rs (dByte d 1) then countStale (headNext s rs q) rs
      else if point then pointFetch s rs d
      else jobFetch s rs q d

/-- DESCRIPTOR_FETCH (R293). -/
def execDescriptorFetch (rs : Fin 66) (q : Fin 4) (s : State) : Host.Outcome State Fault Refusal :=
  .next (fetchOp s rs q false)

/-- POINT_UPDATE (R197): the fetch of an SQ3 entry that is a POINT_UPDATE. -/
def execPointUpdate (rs : Fin 66) (s : State) : Host.Outcome State Fault Refusal := .next (fetchOp s rs 3 true)

/-! Fences (R297 to R300). -/

/-- The waiting job of a slot, where it waits on a fence at the head of its ring. -/
def waitingJob (s : State) (i : Nat) : Option Job :=
  (s.job i).filter (fun j => j.phase == .waiting && j.since.isSome)

/-- The fence word of a waiting job is read; `late` is the read at expiry (R297, R299, R300). -/
def pollOp (s : State) (i : Nat) (j : Job) (late : Bool) : State :=
  match fenceRead s j (j.wait % 4096) with
  | (s, .error _) => endWaiting s i j .fenceError
  | (s, .ok b) =>
    let w := ofLeBytes b
    if bit w 63 then endWaiting s i j .depError
    else if j.wait / 4096 ≤ w then waitNext (makeReady s i j) j.rs j.q
    else if late then (endWaiting s i j .fenceTimeout).event .sched 2
    else s

/-- FENCE_POLL (R299). -/
def execFencePoll (slot : Fin 1024) (s : State) : Host.Outcome State Fault Refusal :=
  match waitingJob s slot with
  | none => .next s
  | some j => .next (pollOp s slot j false)

/-- FENCE_TIMEOUT (R300): the limit has passed since the job came to the wait stage. -/
def execFenceTimeout (slot : Fin 1024) (s : State) : Host.Outcome State Fault Refusal :=
  match waitingJob s slot with
  | none => .next s
  | some j =>
    if j.since.getD 0 + 1000000 * s.pf .sched Reg.SCHED_FENCE_TIMEOUT 15 0 ≤ s.devtime then .next (pollOp s slot j true)
    else .next s

/-- Every waiting job of a ring set that waits on a fence word is looked at (R299). -/
def pollWaiters (s : State) (rs addr : Nat) : State :=
  (jobsIn s).foldl (fun s e =>
    match waitingJob s e.1 with
    | some j => if j.rs = rs ∧ j.fence (j.wait % 4096) = addr then pollOp s e.1 j false else s
    | none => s) s

/-! Completion (R298, R325, R327). -/

/-- The status and the late flag that a job completes with. -/
def settleJob (s : State) (j : Job) : State × Job :=
  let run := (s.devtime - j.started.getD s.devtime) / 1000
  let j := if j.status = 0 ∧ (j.op = 1 ∨ j.op = 2) then { j with detail := min run 0xFFFFFFFF } else j
  if j.deadline.any (fun d => decide (d < (s.devtime : Int))) then
    ((s.count .sched Reg.SCHED_DEADLINE_MISS).event .sched 0, { j with cflags := j.cflags ||| 2 })
  else (s, j)

/-- The signal of a job: an atomic maximum, with bit 63 for a status that is not OK (R298, R300). -/
def signalJob (s : State) (j : Job) : State × Job :=
  if !bit j.flags 5 then (s, j)
  else
    let failed (s : State) : State × Job := (s, if j.status = 0 then { j with status := JStat.fenceError.code, detail := 0 } else j)
    match fenceRead s j (j.signal % 4096) with
    | (s, .error _) => failed s
    | (s, .ok b) =>
      let w := max (ofLeBytes b) (j.signal / 4096)
      match fenceWrite s j (j.signal % 4096) (if j.status = 0 then w else w ||| 2 ^ 63) with
      | (s, .error _) => failed s
      | (s, .ok _) => (s, j)

/-- The completion of a job, or its slot freed where none is written (R291, R294). -/
def completeJob (s : State) (i : Nat) (j : Job) : State :=
  if bit j.flags 3 ∨ j.status ≠ 0 then
    queueCompletion (s.setJob i (some { j with phase := .signalled })) j.rs
      ⟨some i, j.gen, j.tag, j.status, j.cflags, j.q, j.detail⟩
  else freeJob s i

/-- A job of an old generation neither signals nor completes (R298, R390). -/
def discardJob (s : State) (i : Nat) (j : Job) : State :=
  let s := if bit j.flags 5 then countStale s j.rs else s
  let s := if bit j.flags 3 ∨ j.status ≠ 0 then countStale s j.rs else s
  freeJob s i

/-- JOB_COMPLETE (R298). -/
def execJobComplete (slot : Fin 1024) (s : State) : Host.Outcome State Fault Refusal :=
  match s.job slot with
  | none => .next s
  | some j =>
    if j.phase ≠ .ended then .next s
    else if jobStale s j then .next (discardJob s slot j)
    else
      let (s, j) := settleJob s j
      let (s, j) := signalJob s j
      let s := completeJob s slot j
      .next (if bit j.flags 5 then pollWaiters s j.rs (j.fence (j.signal % 4096)) else s)

/-- A ready job of a slot with one of some opcodes. -/
def readyJob (s : State) (i op : Nat) : Option Job :=
  (s.job i).filter (fun j => j.phase == .ready && j.op == op)

/-- NOP (R292). -/
def execNop (slot : Fin 1024) (s : State) : Host.Outcome State Fault Refusal :=
  match readyJob s slot 0 with
  | none => .next s
  | some _ => .next (endJobAs s slot .ok 0)

/-! Modules (R315 to R319). -/

/-- The module a handle of a ring set refers to (R316). -/
def handleOf (s : State) (rs h : Nat) : Option HandleEnt :=
  s.sched.handles.find? (fun e => e.func == rs && e.handle == h)

/-- The SPIR-V bytes behind a handle. -/
def moduleOf (s : State) (rs h : Nat) : Option (List Nat) :=
  match handleOf s rs h with
  | none => none
  | some e => (s.sched.modules.find? (fun m => m.key == e.key)).map (·.bytes)

/-- No handle refers to a module. -/
def unreferenced (s : State) (key : Nat) : Bool := !s.sched.handles.any (fun e => e.key == key)

/-- A miss finds no entry to evict (R318). -/
def cacheFull (s : State) : Bool :=
  decide (4096 ≤ s.sched.modules.length) && !s.sched.modules.any (fun m => unreferenced s m.key)

/-- The module that makes room: the least recently loaded one that nothing refers to (R318). -/
def victim (s : State) : Option ModEnt :=
  s.sched.modules.foldl (fun best m =>
    if !unreferenced s m.key then best
    else match best with
      | some b => if m.loaded < b.loaded then some m else best
      | none => some m) none

/-- A module enters the cache, or counts as loaded again; TC_USED follows (R318, R328). -/
def cacheLoad (s : State) (key : Nat) (bytes : List Nat) : State :=
  let n := s.sched.loads
  let had := s.sched.modules.any (fun m => m.key == key)
  let rest := if had ∨ s.sched.modules.length < 4096 then s.sched.modules.filter (fun m => m.key != key)
    else s.sched.modules.filter (fun m => some m != victim s)
  let ms := rest ++ [⟨key, bytes, n⟩]
  let s := { s with sched := { s.sched with modules := ms, loads := n + 1 } }
  s.setPf .sched Reg.SCHED_TC_USED 12 0 ms.length

/-- A handle takes a module, and its load completes (R316). -/
def loadDone (s : State) (i : Nat) (j : Job) (key : Nat) (bytes : List Nat) (detail : Nat) : State :=
  let h := bytesAt j.body 12 2
  if (handleOf s j.rs h).isSome then endJobAs s i .badState 0
  else
    let s := cacheLoad s key bytes
    let s := { s with sched := { s.sched with handles := s.sched.handles ++ [(⟨j.rs, h, key⟩ : HandleEnt)] } }
    endJobAs s i .ok detail

/-- Another translation of the ring set runs, or an earlier load of it is to start (R318: SQ2 order). -/
def loadWaits (s : State) (j : Job) : Bool :=
  s.sched.trans.any (fun t => t.func == j.rs) ||
    (jobsIn s).any (fun e => e.2.rs == j.rs && e.2.op == 0x22 && e.2.phase == .ready && decide (e.2.seq < j.seq))

/-- The start of a load whose bytes have been read (R318). -/
def loadStart (s : State) (i : Nat) (j : Job) (bytes : List Nat) : State :=
  let key := Config.sha384 bytes / 2 ^ 128
  if s.sched.modules.any (fun m => m.key == key) then
    let j := { j with cflags := j.cflags ||| 8 }
    loadDone ((s.setJob i (some j)).count .sched Reg.SCHED_TC_HITS) i j key bytes 0
  else if cacheFull s then endJobAs s i .cacheFull 0
  else
    let s := s.setJob i (some { j with phase := .running, started := some s.devtime })
    let s := { s with sched := { s.sched with trans := s.sched.trans ++ [(⟨i, j.rs, key, bytes, s.devtime⟩ : Translating)] } }
    s.count .sched Reg.SCHED_TC_MISSES

/-- MODULE_LOAD (R315, R318). -/
def execModuleLoad (slot : Fin 1024) (s : State) : Host.Outcome State Fault Refusal :=
  match readyJob s slot 0x22 with
  | none => .next s
  | some j =>
    let h := bytesAt j.body 12 2
    if 1023 < h ∨ (handleOf s j.rs h).isSome then .next (endJobAs s slot .badState 0)
    else if loadWaits s j then .next s
    else match jRead s j 0x16 (bytesAt j.body 0 8) (bytesAt j.body 8 4) with
      | (s, .error _) => .next (endJobAs s slot .memFault 0)
      | (s, .ok bytes) => .next (loadStart s slot j bytes)

/-- MODULE_UNLOAD (R315, R316). -/
def execModuleUnload (slot : Fin 1024) (s : State) : Host.Outcome State Fault Refusal :=
  match readyJob s slot 0x23 with
  | none => .next s
  | some j =>
    let h := bytesAt j.body 0 2
    if 1023 < h ∨ (handleOf s j.rs h).isNone then .next (endJobAs s slot .badState 0)
    else
      let hs := s.sched.handles.filter (fun e => !(e.func == j.rs && e.handle == h))
      let s := { s with sched := { s.sched with handles := hs } }
      .next (endJobAs s slot .ok 0)

/-- TC_LAST of a load that translated (R319, R328). -/
def tcLast (s : State) (t : Translating) (cause : Nat) : State :=
  let ms := min ((s.devtime - t.start) / 1000000) 0xFFFFF
  s.setPr .sched Reg.SCHED_TC_LAST (w32 (2 ^ 24 * ringCode t.func + 2 ^ 20 * cause + ms))

/-- A translation fails (R319). -/
def translateFails (s : State) (t : Translating) (cause : Nat) : State :=
  let s := tcLast ((s.count .sched Reg.SCHED_TC_FAILS).event .sched 1) t cause
  endJobAs s t.slot .translateFail cause

/-- A module's cause of failure, 0 for none (R317, R319): size, header and version here, the rest by the translator. -/
def moduleCause (b : List Nat) : Nat :=
  if 2 ^ 20 < b.length then 4
  else if b.length < 20 ∨ b.length % 4 ≠ 0 ∨ bytesAt b 0 4 ≠ 0x07230203 then 1
  else if bytesAt b 4 1 ≠ 0 ∨ bytesAt b 6 2 ≠ 1 ∨ 6 < bytesAt b 5 1 then 2
  else Config.moduleVerdict b % 6

/-- A translation ends within its limit (R318). -/
def translateEnds (s : State) (t : Translating) (j : Job) : State :=
  match moduleCause t.bytes with
  | 0 =>
    let s := tcLast s t 0
    if !s.sched.modules.any (fun m => m.key == t.key) && cacheFull s then endJobAs s t.slot .cacheFull 0
    else loadDone s t.slot j t.key t.bytes (min ((s.devtime - t.start) / 1000) 0xFFFFFFFF)
  | c => translateFails s t c

/-- The translation a slot runs, taken off the list. -/
def takeTrans (s : State) (i : Nat) : Option (Translating × Job × State) :=
  match s.sched.trans.find? (fun t => t.slot == i), s.job i with
  | some t, some j => some (t, j, { s with sched := { s.sched with trans := s.sched.trans.filter (fun t => t.slot != i) } })
  | _, _ => none

/-- DEVTIME at which a translation has run out of time. -/
def translateLimit (s : State) (t : Translating) : Nat := t.start + 1000000 * s.pf .sched Reg.SCHED_TRANSLATE 15 0

/-- TRANSLATE_DONE (R318); past the limit it fails with TIMEOUT. -/
def execTranslateDone (slot : Fin 1024) (s : State) : Host.Outcome State Fault Refusal :=
  match takeTrans s slot with
  | none => .next s
  | some (t, j, s) =>
    .next (if translateLimit s t < s.devtime then translateFails s t 6 else translateEnds s t j)

/-- TRANSLATE_TIMEOUT (R318, R319). -/
def execTranslateTimeout (slot : Fin 1024) (s : State) : Host.Outcome State Fault Refusal :=
  match takeTrans s slot with
  | none => .next s
  | some (t, _, s') => .next (if translateLimit s t ≤ s.devtime then translateFails s' t 6 else s)

/-! Presents (R314). -/

/-- The master a ring set writes registers as. -/
def ringMaster (rs : Nat) : Master :=
  if h : rs < 64 then .func ⟨rs, h⟩ else if rs = 64 then .heartwood else .sapwood

/-- The four address registers of a layer that a PRESENT writes, with their values (R314). -/
def presentWrites (p : Page) (body : List Nat) : List (Nat × Nat) :=
  [(Reg.LAYER_BUF_ADDR_LO, 8), (Reg.LAYER_BUF_ADDR_HI, 12), (Reg.LAYER_AUX_ADDR_LO, 16), (Reg.LAYER_AUX_ADDR_HI, 20)].map
    (fun e => (pageBase p + e.1, bytesAt body e.2 4))

/-- A PRESENT whose wait is satisfied (R314): one group of writes, checked as one. -/
def presentOp (s : State) (i : Nat) (j : Job) : State :=
  let n := bytesAt j.body 0 1 % 16
  let l := bytesAt j.body 1 1 % 16
  let seq := bytesAt j.body 2 2
  let m := ringMaster j.rs
  if 11 < n ∨ 14 < l then endJobAs s i .rejected Cause.range.code
  else
    let p : Page := .layer n l
    let ws := presentWrites p j.body
    match ((ws.map (·.1)) ++ [hadr p .commit]).findSome? (fun a => (refusalOf s m a).map (fun r => (a, r))) with
    | some (a, r) => endJobAs (recordRefusal (commitRevoked s m p seq) m a a r) i .rejected r.2.1.code
    | none =>
      let s := ws.foldl (fun s w => (s.setShd w.1 (w32 w.2)).noteWrite w.1) s
      let c := commitCheck s p m
      let s := (commitOp s m p seq).noteWrite (hadr p .commit)
      match c with
      | some c => endJobAs s i .rejected c.code
      | none => endJobAs s i .ok 0

/-- PRESENT (R314). -/
def execPresent (slot : Fin 1024) (s : State) : Host.Outcome State Fault Refusal :=
  match readyJob s slot 0x41 with
  | none => .next s
  | some j => .next (if jobStale s j then freeJob (countStale s j.rs) slot else presentOp s slot j)

/-! Compute jobs: their start, and the watchdogs (R310, R316, R324). -/

/-- Workgroups of a grid. -/
def gridTotal (j : Job) : Nat := bytesAt j.body 4 4 * bytesAt j.body 8 4 * bytesAt j.body 12 4

/-- The entry point of a job's module; none is NO_MODULE (R316). -/
def entryOf (bytes : Option (List Nat)) (e stage : Nat) : Option ShEntry :=
  match bytes with
  | none => none
  | some b => (Config.moduleEntry b e).filter (fun x => x.stage == stage)

/-- A compute job starts (R310, R316, R326). -/
def computeStart (s : State) (i : Nat) (j : Job) : State :=
  let h := bytesAt j.body 0 2
  let m := moduleOf s j.rs h
  if baysIn s = [] then endJobAs s i .fencedLoss 0
  else match entryOf m (bytesAt j.body 2 1) 2 with
  | none => endJobAs s i .noModule h
  | some e =>
    if gridTotal j = 0 then endJobAs s i .badState 0
    else s.setJob i (some { j with
      phase := .running, mods := aset [] j.mods h (m.getD []),
      comp := { total := gridTotal j, perBay := if e.storage = 0 then 8 else max 1 (min 8 (262144 / e.storage)) } })

/-- COMPUTE (R310). -/
def execCompute (slot : Fin 1024) (s : State) : Host.Outcome State Fault Refusal :=
  match readyJob s slot 2 with
  | none => .next s
  | some j => .next (computeStart s slot j)

/-- Running time of a job in ns, without the time it was preempted (R324). -/
def runningNs (s : State) (j : Job) : Nat :=
  match j.started with
  | none => 0
  | some t => s.devtime - t - j.pausedNs - (match j.preempted with | some p => s.devtime - p | none => 0)

/-- JOB_WATCHDOG (R324). -/
def execJobWatchdog (slot : Fin 1024) (s : State) : Host.Outcome State Fault Refusal :=
  match s.job slot with
  | none => .next s
  | some j =>
    if j.phase = .running ∧ j.op = 2 ∧ 1000000000 * s.pf .sched Reg.SCHED_WATCHDOG 31 24 < runningNs s j then
      .next (endJobAs s slot .watchdog 0)
    else .next s

/-- TILE_WATCHDOG (R324). -/
def execTileWatchdog (slot : Fin 1024) (tile : Nat) (s : State) : Host.Outcome State Fault Refusal :=
  match s.job slot with
  | none => .next s
  | some j =>
    if j.phase = .running ∧ j.rend.flying.any (fun e => e.1 == tile) ∧
        aget 0 j.rend.tileAt tile + 1000 * s.pf .sched Reg.SCHED_WATCHDOG 15 0 < s.devtime then
      .next (endJobAs s slot .watchdog 0)
    else .next s

end Sys2Proof.Machine
end

