-- ==== Sys2Proof/Machine/Surfaces.lean ====
section
/-!
DEFINITION. Machine/Surfaces.lean: surface descriptors, the pixel formats of render targets and textures, and reading
and writing surfaces block by block or pixel by pixel (R266, R273, R274, R309, R230 to R234, R244, R246).
-/
namespace Sys2Proof.Machine

/-- Why a job stops: a status and its detail. -/
abbrev JErr := JStat × Nat

/-- The error of a job whose access failed (R327). -/
def memFail : JErr := (.memFault, 0)

/-- Go on with the result of a job's access, or stop with its error. -/
def jThen {α β : Type} (r : State × Except JErr α) (f : State → α → State × Except JErr β) : State × Except JErr β :=
  match r with
  | (s, .error e) => (s, .error e)
  | (s, .ok a) => f s a

/-- One action after the other over a list, up to the first error. -/
def jMap {α β : Type} (f : State → α → State × Except JErr β) : List α → State → State × Except JErr (List β)
  | [], s => (s, .ok [])
  | a :: r, s => jThen (f s a) (fun s b => jThen (jMap f r s) (fun s bs => (s, .ok (b :: bs))))

/-- A fold of actions over a list, up to the first error. -/
def jFold {α β : Type} (f : State → β → α → State × Except JErr β) : List α → β → State → State × Except JErr β
  | [], b, s => (s, .ok b)
  | a :: r, b, s => jThen (f s b a) (fun s b => jFold f r b s)

/-- Read a block of bytes of a job. -/
def jBytes (s : State) (j : Job) (agent a len : Nat) : State × Except JErr (List Nat) :=
  match jRead s j agent a len with
  | (s, .error _) => (s, .error memFail)
  | (s, .ok b) => (s, .ok b)

/-- A surface descriptor from its 64 bytes (R309). -/
def surfOf (b : List Nat) : Surf :=
  { addr := bytesAt b 0 8, map := bytesAt b 8 8, pitch := bytesAt b 16 4, w := bytesAt b 20 2, h := bytesAt b 22 2,
    fmt := bytesAt b 24 1, kind := bytesAt b 25 1, id := bytesAt b 26 2, plane := bytesAt b 32 8, clear := bytesAt b 40 8,
    ok := bytesAt b 28 4 == 0 && bytesAt b 48 16 == 0 }

/-- Bytes of a pixel of a format; LINEAR and A8, I8 and the luma plane of 0x20 count bytes (R138, R266). -/
def fmtBytes (f : Nat) : Nat :=
  if f = 0x00 ∨ f = 0x05 ∨ f = 0x06 ∨ f = 0x20 then 1
  else if f = 0x04 ∨ f = 0x21 ∨ f = 0x22 then 2
  else if f = 0x30 ∨ f = 0x32 then 8
  else 4

/-- Formats of a render pass (R266). -/
def renderFmt (f : Nat) : Bool := [0x01, 0x02, 0x03, 0x04, 0x30, 0x31, 0x32, 0x38, 0x39].contains f

/-- Formats of a raw surface without map: those of R266, the raw codes of R138, and LINEAR (R309). -/
def rawFmt (f : Nat) : Bool := renderFmt f || [0x00, 0x05, 0x06, 0x20, 0x21, 0x22, 0x23].contains f

/-- FORMAT and KIND agree (R230, R266, R309). -/
def kindAgrees (kind fmt : Nat) : Bool :=
  match kind with
  | 0 => rawFmt fmt
  | 1 | 2 => fmt == 1 || fmt == 2 || fmt == 3
  | 3 => renderFmt fmt && fmt != 1 && fmt != 2 && fmt != 3
  | _ => false

/-- A surface that meets R309. -/
def surfOk (f : Surf) : Bool :=
  f.ok && kindAgrees f.kind f.fmt && 1 ≤ f.w && f.w ≤ 16384 && 1 ≤ f.h && f.h ≤ 16384 &&
    (if f.kind = 0 then f.addr % 64 == 0 else f.addr % 4096 == 0 && f.map % 64 == 0 && f.map != 0)

/-- The Kerf kind of a surface (R230). -/
def surfKerf (f : Surf) : KerfKind :=
  if f.kind = 1 then (if f.fmt = 3 then .l10 else .l8)
  else if f.kind = 2 then (if f.fmt = 3 then .h10 else .h8)
  else .mapOnly (64 * fmtBytes f.fmt)

/-- A surface as the Kerf codecs see it; plane p of a multisampled surface lies at the plane stride, block base and
map alike (R275). -/
def kerfSurf (f : Surf) (p src : Nat) : KerfSurf :=
  { kind := surfKerf f, base := f.addr + p * f.plane, map := f.map + p * f.plane, pitch := f.pitch, clear := f.clear,
    id := f.id, src := src }

/-- How a job's agent reads and writes. -/
def jReader (j : Job) (agent : Nat) : Reader := fun s a n => jRead s j agent a n
def jWriter (j : Job) (agent : Nat) : Writer := fun s a b => jWrite s j agent a b

/-- Read a surface descriptor and check it. -/
def readSurf (s : State) (j : Job) (agent a : Nat) : State × Except JErr Surf :=
  match jRead s j agent a 64 with
  | (s, .error _) => (s, .error memFail)
  | (s, .ok b) => (s, if surfOk (surfOf b) then .ok (surfOf b) else .error (.badState, 0))

/-- Read a block of a surface: 64 pixels. A decode error gives zeros to a texture and an attachment (R246). -/
def readBlock (s : State) (j : Job) (agent : Nat) (f : KerfSurf) (bx by_ : Nat) : State × Except JErr (List Nat) :=
  match kerfReadBlock s (jReader j agent) f bx by_ with
  | (s, .ok px) => (s, .ok px)
  | (s, .bad _) => (s, .ok (List.replicate 64 0))
  | (s, .err _) => (s, .error memFail)

/-- Address of pixel x of line y of a raw surface. -/
def rawAddr (f : Surf) (x y : Nat) : Nat := f.addr + y * f.pitch + x * fmtBytes f.fmt

/-- Read one pixel of a surface inside its size, as a container word. -/
def readPixel (s : State) (j : Job) (agent : Nat) (f : Surf) (x y : Nat) : State × Except JErr Nat :=
  if f.kind = 0 then
    match jRead s j agent (rawAddr f x y) (fmtBytes f.fmt) with
    | (s, .error _) => (s, .error memFail)
    | (s, .ok b) => (s, .ok (ofLeBytes b))
  else
    match readBlock s j agent (kerfSurf f 0 0x10) (x / 8) (y / 8) with
    | (s, .error e) => (s, .error e)
    | (s, .ok px) => (s, .ok (px.getD (8 * (y % 8) + x % 8) 0))

/-! Channels of a pixel (R266, R273, R274). -/

/-- Stored channels as R, G, B, A: bit place and width; width 0 is a channel the format does not store. -/
def fmtChannels (f : Nat) : List (Nat × Nat) :=
  match f with
  | 0x01 | 0x02 => [(16, 8), (8, 8), (0, 8), (24, 8)]
  | 0x03 => [(20, 10), (10, 10), (0, 10), (30, 2)]
  | 0x04 => [(11, 5), (5, 6), (0, 5), (0, 0)]
  | 0x05 => [(0, 0), (0, 0), (0, 0), (0, 8)]
  | 0x30 => [(0, 16), (16, 16), (32, 16), (48, 16)]
  | 0x31 | 0x39 => [(0, 32), (0, 0), (0, 0), (0, 0)]
  | 0x32 => [(0, 32), (32, 32), (0, 0), (0, 0)]
  | 0x38 => [(0, 24), (0, 0), (0, 0), (0, 0)]
  | _ => [(0, 8), (0, 0), (0, 0), (0, 0)]

/-- The channels of a format are UNORM. -/
def fmtUnorm (f : Nat) : Bool := [0x30, 0x31, 0x32, 0x39].all (· != f)

/-- A stored channel as FP32 (R273). -/
def chanToF (f n v : Nat) : Nat :=
  if f = 0x30 then fOfHalf v else if fmtUnorm f then fOfUnorm n v else v

/-- An FP32 value as a stored channel (R274). -/
def chanOfF (f n x : Nat) : Nat :=
  if f = 0x30 then fToHalf x else if fmtUnorm f then fToUnorm n x else if fIsNaN x then fNaN else x

/-- A pixel as four FP32 channels; alpha of XRGB8888 and of a format without it is 1.0, a missing colour channel 0. -/
def pixelToF (f w : Nat) : List Nat :=
  (List.range 4).map (fun c =>
    let (lo, n) := (fmtChannels f).getD c (0, 0)
    if c = 3 ∧ (n = 0 ∨ f = 0x02) then fOne
    else if n = 0 then 0
    else chanToF f n (bits w (lo + n - 1) lo))

/-- A pixel from four FP32 channels under a mask of channels to replace; XRGB8888 stores 0xFF above its colour. -/
def pixelOfF (f old : Nat) (mask : Nat) (x : List Nat) : Nat :=
  let w := (List.range 4).foldl (fun w c =>
    let (lo, n) := (fmtChannels f).getD c (0, 0)
    if n = 0 ∨ !bit mask c then w
    else w - 2 ^ lo * bits w (lo + n - 1) lo + 2 ^ lo * chanOfF f n (x.getD c 0)) old
  if f = 0x02 then w % 2 ^ 24 + 0xFF000000 else w

/-- A stored depth of D24S8 or D32F from FP32 (R270). -/
def depthOfF (f z : Nat) : Nat := if f = 0x38 then (fToInt (fClamp z 0 fOne) 16777215).toNat else z

/-- The clear value of an attachment as a pixel (R275, R304). -/
def clearPixel (f : Nat) (ds : Bool) (c : List Nat) : Nat :=
  if ds then depthOfF f (c.getD 0 0) + (if f = 0x38 then 2 ^ 24 * (c.getD 1 0 % 256) else 0)
  else pixelOfF f 0 15 c

end Sys2Proof.Machine
end

