-- ==== Sys2Proof/Machine/Shade.lean ====
section
/-!
DEFINITION. Machine/Shade.lean: running a shader program: what it computes is a free value of Config, and every access
it makes to buffers, images and memory is carried out here by the rules of the bind table (R311, R316, R317).
-/
namespace Sys2Proof.Machine

/-- A bind table entry (R311). -/
structure Bind where
  type : Nat
  filter : Nat
  mode : Nat
  size : Nat
  addr : Nat
  ok : Bool
deriving DecidableEq, Repr

/-- The agent of bay b: one of six groups of eight bays (R7). -/
def bayAgent (b : Nat) : Nat := 0x10 + b / 8

/-- What a running shader has at hand: its job, the agent of its bay, and the bind table. -/
structure ShEnv where
  job : Job
  agent : Nat
  bindAddr : Nat

/-- Read the entry of a descriptor set and binding (R311); a nonzero reserved byte is a bad state. -/
def readBind (s : State) (v : ShEnv) (set binding : Nat) : State × Except JErr Bind :=
  match jRead s v.job v.agent (v.bindAddr + 32 * (32 * (set % 4) + binding % 32)) 32 with
  | (s, .error _) => (s, .error memFail)
  | (s, .ok b) =>
    let e : Bind := ⟨bytesAt b 0 1, bytesAt b 1 1, bytesAt b 2 1, bytesAt b 4 4, bytesAt b 8 8,
      dZero b 3 1 && dZero b 16 16 && bytesAt b 0 1 ≤ 4⟩
    (s, if e.ok then .ok e else .error (.badState, 0))

/-- The bytes of a buffer access that lie inside SIZE. -/
def insideLen (size off len : Nat) : Nat := if off < size then min len (size - off) else 0

/-- Read a buffer: bytes beyond SIZE, and every byte of an entry of another type, read 0 (R311). -/
def bufRead (s : State) (v : ShEnv) (type set binding off len : Nat) : State × Except JErr (List Nat) :=
  match readBind s v set binding with
  | (s, .error e) => (s, .error e)
  | (s, .ok b) =>
    let n := if b.type = type then insideLen b.size off len else 0
    match jRead s v.job v.agent (b.addr + off) n with
    | (s, .error _) => (s, .error memFail)
    | (s, .ok bs) => (s, .ok (bs ++ List.replicate (len - n) 0))

/-- Write a storage buffer: bytes beyond SIZE, and to an entry of another type, are dropped (R311). -/
def bufWrite (s : State) (v : ShEnv) (set binding off : Nat) (bytes : List Nat) : State × Except JErr (List Nat) :=
  match readBind s v set binding with
  | (s, .error e) => (s, .error e)
  | (s, .ok b) =>
    let n := if b.type = 1 then insideLen b.size off bytes.length else 0
    match jWrite s v.job v.agent (b.addr + off) (bytes.take n) with
    | (s, .error _) => (s, .error memFail)
    | (s, .ok _) => (s, .ok [])

/-- A texel coordinate under an ADDRESS mode; none is transparent black (R311). -/
def texCoord (mode : Nat) (x : Int) (n : Nat) : Option Nat :=
  match mode with
  | 0 => some (x % n).toNat
  | 1 =>
    let m := (x % (2 * n : Nat)).toNat
    some (if m < n then m else 2 * n - 1 - m)
  | 2 => some (clampI x 0 ((n : Int) - 1)).toNat
  | _ => if x < 0 ∨ (n : Int) ≤ x then none else some x.toNat

/-- One texel of a sampled image as four FP32 channels (R246, R311). -/
def texRead (s : State) (v : ShEnv) (set binding : Nat) (x y : Int) : State × Except JErr (List Nat) :=
  match readBind s v set binding with
  | (s, .error e) => (s, .error e)
  | (s, .ok b) =>
    if b.type ≠ 3 then (s, .ok [0, 0, 0, 0])
    else if 3 < b.mode then (s, .error (.badState, 0))
    else match readSurf s v.job v.agent b.addr with
      | (s, .error e) => (s, .error e)
      | (s, .ok f) =>
        match texCoord b.mode x f.w, texCoord b.mode y f.h with
        | some x, some y =>
          match readPixel s v.job v.agent f x y with
          | (s, .error e) => (s, .error e)
          | (s, .ok w) => (s, .ok (pixelToF f.fmt w))
        | _, _ => (s, .ok [0, 0, 0, 0])

/-- The surface of a storage image, which has KIND 0 (R309); none for an entry of another type. -/
def imgSurf (s : State) (v : ShEnv) (set binding : Nat) : State × Except JErr (Option Surf) :=
  match readBind s v set binding with
  | (s, .error e) => (s, .error e)
  | (s, .ok b) =>
    if b.type ≠ 4 then (s, .ok none)
    else match readSurf s v.job v.agent b.addr with
      | (s, .error e) => (s, .error e)
      | (s, .ok f) => (s, if f.kind = 0 then .ok (some f) else .error (.badState, 0))

/-- One pixel of a storage image, as its bytes; outside the image it reads 0. -/
def imgRead (s : State) (v : ShEnv) (set binding x y : Nat) : State × Except JErr (List Nat) :=
  match imgSurf s v set binding with
  | (s, .error e) => (s, .error e)
  | (s, .ok none) => (s, .ok [])
  | (s, .ok (some f)) =>
    if f.w ≤ x ∨ f.h ≤ y then (s, .ok (List.replicate (fmtBytes f.fmt) 0))
    else match readPixel s v.job v.agent f x y with
      | (s, .error e) => (s, .error e)
      | (s, .ok w) => (s, .ok (leBytes (fmtBytes f.fmt) w))

/-- Write one pixel of a storage image; outside the image it is dropped. -/
def imgWrite (s : State) (v : ShEnv) (set binding x y : Nat) (bytes : List Nat) : State × Except JErr (List Nat) :=
  match imgSurf s v set binding with
  | (s, .error e) => (s, .error e)
  | (s, .ok none) => (s, .ok [])
  | (s, .ok (some f)) =>
    if f.w ≤ x ∨ f.h ≤ y then (s, .ok [])
    else match jWrite s v.job v.agent (rawAddr f x y) (bytes.take (fmtBytes f.fmt)) with
      | (s, .error _) => (s, .error memFail)
      | (s, .ok _) => (s, .ok [])

/-- What a shader may ask of an image: type, filter, address mode, size, format (R311). -/
def imgQuery (s : State) (v : ShEnv) (set binding : Nat) : State × Except JErr (List Nat) :=
  match readBind s v set binding with
  | (s, .error e) => (s, .error e)
  | (s, .ok b) =>
    if b.type ≠ 3 ∧ b.type ≠ 4 then (s, .ok [b.type, 0, 0, b.size])
    else match readSurf s v.job v.agent b.addr with
      | (s, .error e) => (s, .error e)
      | (s, .ok f) => (s, .ok [b.type, b.filter % 2, b.mode, f.w, f.h, f.fmt])

/-- One action of a shader: its answer, or the error that ends the job. -/
def shAct (s : State) (v : ShEnv) : ShAct → State × Except JErr (List Nat)
  | .done _ => (s, .ok [])
  | .buf u t b o n => bufRead s v (if u then 2 else 1) t b o n
  | .bufWrite t b o bs => bufWrite s v t b o bs
  | .ptr a n =>
    match jRead s v.job v.agent a n with
    | (s, .error _) => (s, .error memFail)
    | (s, .ok b) => (s, .ok b)
  | .ptrWrite a bs =>
    match jWrite s v.job v.agent a bs with
    | (s, .error _) => (s, .error memFail)
    | (s, .ok _) => (s, .ok [])
  | .tex t b x y => texRead s v t b x y
  | .img t b x y => imgRead s v t b x y
  | .imgWrite t b x y bs => imgWrite s v t b x y bs
  | .query t b => imgQuery s v t b

/-- A shader runs for at most n more actions; `ans` are the answers so far. -/
def shRun (v : ShEnv) (bytes : List Nat) (entry : Nat) (inputs : List Nat) :
    Nat → List (List Nat) → State → State × Except JErr (List Nat)
  | 0, _, s => (s, .ok [])
  | n + 1, ans, s =>
    match Config.shader bytes entry inputs ans with
    | .done out => (s, .ok out)
    | a =>
      match shAct s v a with
      | (s, .error e) => (s, .error e)
      | (s, .ok b) => shRun v bytes entry inputs n (ans ++ [b]) s

/-- Run an entry point of a module on its inputs; its outputs. -/
def runShader (s : State) (v : ShEnv) (bytes : List Nat) (entry : Nat) (inputs : List Nat) :
    State × Except JErr (List Nat) :=
  shRun v bytes entry inputs Config.shaderSteps [] s

end Sys2Proof.Machine
end

