-- ==== Sys2Proof/Machine/Geom.lean ====
section
/-!
DEFINITION. Machine/Geom.lean: the start of a render job and its geometry phase: render-pass block, attachments, state
blocks, vertex fetch and assembly, clipping, the viewport, snapping and culling (R253 to R264, R266 to R268, R302 to
R308).
-/
namespace Sys2Proof.Machine

/-- The agent of the render front-end (R7). -/
def frontAgent : Nat := 0x0F

/-! The start of a render job (R266 to R268, R279, R286, R302 to R304). -/

/-- An attachment record that keeps to R304: codes, reserved bytes, RESOLVE for multisampled colour alone. -/
def attachOk (b : List Nat) (ds : Bool) (samples : Nat) (f : Surf) : Bool :=
  let isDs : Bool := f.fmt == 0x38 || f.fmt == 0x39
  bytesAt b 8 1 ≤ 2 && bytesAt b 9 1 ≤ 2 && dZero b 10 6 && (!ds || dZero b 21 11) &&
    f.kind != 0 && isDs == ds && (bytesAt b 9 1 != 1 || (!ds && samples != 1))

/-- Read attachment record k of a render-pass block and its surface (R303, R304, R308). -/
def readAttach (s : State) (j : Job) (rp : List Nat) (samples k : Nat) : State × Except JErr Attach :=
  let b := (rp.drop (64 + 32 * k)).take 32
  jThen (readSurf s j frontAgent (bytesAt b 0 8)) (fun s f =>
    let ds := k = 4
    if !attachOk b ds samples f then (s, .error (.badState, 0))
    else
      let clear := if ds then [bytesAt b 16 4, bytesAt b 20 1] else (List.range 4).map (fun c => bytesAt b (16 + 4 * c) 4)
      (s, .ok ⟨f, bytesAt b 8 1, bytesAt b 9 1, clear, ds⟩))

/-- The render-pass block keeps to R303. -/
def passOk (j : Job) (rp : List Nat) : Bool :=
  bytesAt j.body 0 8 % 64 == 0 && bytesAt j.body 8 8 % 32 == 0 && bytesAt j.body 16 8 % 32 == 0 &&
    bytesAt j.body 24 4 ≤ 2 ^ 24 && bytesAt rp 8 1 ≤ 2 && bytesAt rp 9 1 ≤ 4 && bytesAt rp 10 1 ≤ 1 &&
    dZero rp 11 5 && dZero rp 32 32 && bytesAt rp 16 8 % 64 == 0 &&
    bytesAt j.entry 8 8 % 65536 == 0 && 4 ≤ bytesAt j.entry 16 4 && bytesAt j.entry 16 4 ≤ 256

/-- The render area keeps to R268. -/
def areaOk (r : RenderSt) : Bool :=
  let ends (e : Nat) (size : Surf → Nat) : Bool := r.atts.any (fun a => size a.surf == e)
  r.x % 8 == 0 && r.y % 8 == 0 && 1 ≤ r.w && r.w ≤ 16384 && 1 ≤ r.h && r.h ≤ 16384 &&
    (r.w % 8 == 0 || ends (r.x + r.w) (·.w)) && (r.h % 8 == 0 || ends (r.y + r.h) (·.h)) &&
    r.atts.all (fun a => r.x + r.w ≤ a.surf.w && r.y + r.h ≤ a.surf.h)

/-- Tiles across, and in all (R268). -/
def tilesX (r : RenderSt) : Nat := cdiv r.w 32
def tileCount (r : RenderSt) : Nat := tilesX r * cdiv r.h 32

/-- The footprint F of a tile, and the tiles a bay holds (R267). -/
def footprint (r : RenderSt) : Nat := 1024 * r.samples * (r.atts.map (fun a => fmtBytes a.surf.fmt)).foldl (· + ·) 0
def tilesPerBay (r : RenderSt) : Nat := if footprint r = 0 then 4 else min 4 (262144 / footprint r)

/-- Bytes of the bin pool of the job's context (R279, R295). -/
def poolBytes (j : Job) : Nat := 2 ^ 20 * bytesAt j.entry 16 4

/-- The first limit that a pass breaks (R267, R268, R279). -/
def passLimit (j : Job) (r : RenderSt) : Option JStat :=
  if !areaOk r then some .renderArea
  else if 262144 < footprint r then some .tileTooLarge
  else if poolBytes j < 64 * tileCount r + 65536 then some .binPoolSmall
  else none

/-- The pass as the render-pass block and its attachments give it. -/
def passOf (rp : List Nat) (atts : List Attach) : RenderSt :=
  { x := bytesAt rp 0 2, y := bytesAt rp 2 2, w := bytesAt rp 4 2, h := bytesAt rp 6 2, samples := 2 ^ bytesAt rp 8 1,
    atts := atts, spill := bytesAt rp 16 8, spillSize := bytesAt rp 24 8 }

/-- Read the render-pass block and the attachments (R308). -/
def readPass (s : State) (j : Job) : State × Except JErr RenderSt :=
  jThen (jBytes s j frontAgent (bytesAt j.body 0 8) 224) (fun s rp =>
    if !passOk j rp then (s, .error (.badState, 0))
    else
      let ks := List.range (bytesAt rp 9 1) ++ (if bytesAt rp 10 1 = 1 then [4] else [])
      jThen (jMap (fun s k => readAttach s j rp (2 ^ bytesAt rp 8 1) k) ks s) (fun s atts =>
        (s, .ok (passOf rp atts))))

/-- RENDER (R302): a ready render job starts. -/
def execRender (slot : Fin 1024) (s : State) : Host.Outcome State Fault Refusal :=
  match readyJob s slot 1 with
  | none => .next s
  | some j =>
    if baysIn s = [] then .next (endJobAs s slot .fencedLoss 0)
    else match readPass s j with
      | (s, .error (st, d)) => .next (endJobAs s slot st d)
      | (s, .ok r) =>
        match passLimit j r with
        | some st => .next (endJobAs s slot st 0)
        | none => .next (s.setJob slot (some { j with phase := .running, rend := r }))

/-! State blocks (R259, R269, R272, R305). -/

/-- FP32 constants. -/
def f16384 : Nat := 0x46800000
def fM16384 : Nat := 0xC6800000

/-- A stretch of the viewport lies within −16,384 to +16,384 (R259). -/
def spanOk (x w : Nat) : Bool :=
  let inside (v : Nat) : Bool := fLe fM16384 v && fLe v f16384
  inside x && inside (fAdd x w)

/-- The stencil words carry no bit of their own beside their fields. -/
def stencilOk (w : Nat) : Bool := !bit w 3 && !bit w 7 && !bit w 11 && !bit w 15

/-- A BLEND entry keeps to the codes of R272. -/
def blendOk (w : Nat) : Bool :=
  bits w 4 0 ≤ 0x12 && bits w 9 5 ≤ 0x12 && bits w 12 10 ≤ 4 && bits w 17 13 ≤ 0x12 && bits w 22 18 ≤ 0x12 &&
    bits w 25 23 ≤ 4 && bits w 63 31 == 0

/-- A state block keeps to R305. -/
def blockOk (b : List Nat) : Bool :=
  let w (o : Nat) : Nat := bytesAt b o 4
  let z (o : Nat) : Bool := fLe 0 (w o) && fLe (w o) fOne
  dZero b 3 1 && dZero b 7 1 && 256 ≤ bits (w 24) 31 16 && bits (w 24) 31 16 ≤ 4096 && bits (w 28) 31 6 == 0 &&
    spanOk (w 32) (w 40) && spanOk (w 36) (w 44) && z 48 && z 52 &&
    stencilOk (w 76) && stencilOk (w 84) && dZero b 81 3 && dZero b 89 3 && dZero b 108 4 && dZero b 144 16 &&
    (List.range 4).all (fun k => blendOk (bytesAt b (112 + 8 * k) 8))

/-- What the geometry phase has gathered: primitives, the next number, state blocks, modules, and whether a shader
stores outside the attachments. -/
structure Geo where
  prims : List Prim := []
  num : Nat := 0
  states : Assoc (List Nat) := []
  mods : Assoc (List Nat) := []
  stores : Bool := false
  nvary : Nat := 0

/-- Take up a module by its handle; a free handle, or an entry that is missing or of another stage, is NO_MODULE
(R316). -/
def takeModule (s : State) (j : Job) (g : Geo) (h e stage : Nat) : Except JErr (Geo × List Nat × ShEntry) :=
  let known := aget [] g.mods h
  let b := if known = [] then moduleOf s j.rs h else some known
  match b, entryOf b e stage with
  | some b, some x => .ok ({ g with mods := aset [] g.mods h b, stores := g.stores || x.stores }, b, x)
  | _, _ => .error (.noModule, h)

/-- The state block of a draw, read once (R305, R308). -/
def takeBlock (s : State) (j : Job) (g : Geo) (n : Nat) : State × Except JErr (Geo × List Nat) :=
  let known := aget [] g.states n
  if known ≠ [] then (s, .ok (g, known))
  else
    jThen (jBytes s j frontAgent (bytesAt j.body 8 8 + 160 * n) 160) (fun s b =>
      if blockOk b then (s, .ok ({ g with states := aset [] g.states n b }, b)) else (s, .error (.badState, 0)))

/-! Vertex fetch (R255, R256, R306, R307). -/

/-- Bytes of an attribute format (R306). -/
def attrBytes (f : Nat) : Nat :=
  match f with | 1 => 4 | 2 => 8 | 3 => 12 | 4 => 16 | 5 => 4 | 6 => 8 | 7 => 4 | _ => 16

/-- The four components of an attribute from its bytes; missing ones read 0, a missing fourth 1 (R256, R306). -/
def attrWords (f : Nat) (b : List Nat) : List Nat :=
  let w (i : Nat) : Nat := bytesAt b (4 * i) 4
  match f with
  | 1 => [w 0, 0, 0, fOne]
  | 2 => [w 0, w 1, 0, fOne]
  | 3 => [w 0, w 1, w 2, fOne]
  | 5 => (List.range 4).map (fun i => fOfUnorm 8 (bytesAt b i 1))
  | 6 => (List.range 4).map (fun i => fOfHalf (bytesAt b (2 * i) 2))
  | 7 => [w 0, 0, 0, 1]
  | _ => [w 0, w 1, w 2, w 3]

/-- The components of an attribute whose read lies beyond its buffer (R256). -/
def attrAbsent (f : Nat) : List Nat := [0, 0, 0, if f = 7 ∨ f = 8 then 1 else fOne]

/-- The vertex input block keeps to R306. -/
def vinputOk (b : List Nat) : Bool :=
  bytesAt b 0 1 ≤ 8 && bytesAt b 1 1 ≤ 16 &&
    (List.range (bytesAt b 0 1)).all (fun k => bytesAt b (16 + 16 * k + 14) 1 ≤ 1 && dZero b (16 + 16 * k + 15) 1) &&
    (List.range (bytesAt b 1 1)).all (fun a =>
      let o := 144 + 8 * a
      bytesAt b (o + 1) 1 < bytesAt b 0 1 && 1 ≤ bytesAt b (o + 2) 1 && bytesAt b (o + 2) 1 ≤ 8 && dZero b (o + 3) 1)

/-- One attribute of a vertex: its location and components. -/
def readAttr (s : State) (j : Job) (b : List Nat) (vertex inst a : Nat) : State × Except JErr (List Nat) :=
  let o := 144 + 8 * a
  let k := 16 + 16 * bytesAt b (o + 1) 1
  let f := bytesAt b (o + 2) 1
  let idx := if bytesAt b (k + 14) 1 = 1 then inst else vertex
  let off := bytesAt b (k + 12) 2 * idx + bytesAt b (o + 4) 4
  let loc := bytesAt b o 1
  if bytesAt b (k + 8) 4 < off + attrBytes f then (s, .ok (loc :: attrAbsent f))
  else jThen (jBytes s j frontAgent (bytesAt b k 8 + off) (attrBytes f)) (fun s d => (s, .ok (loc :: attrWords f d)))

/-- Index n of a draw's index buffer; beyond the buffer it is 0 (R255, R256). -/
def readIndex (s : State) (j : Job) (d : List Nat) (n : Nat) : State × Except JErr Nat :=
  let fmt := bytesAt d 1 1
  let size := 2 * fmt
  let off := size * (bytesAt d 12 4 + n)
  if fmt = 0 then (s, .ok (bytesAt d 12 4 + n))
  else if bytesAt d 24 4 < off + size then (s, .ok 0)
  else jThen (jBytes s j frontAgent (bytesAt d 16 8 + off) size) (fun s b => (s, .ok (ofLeBytes b)))

/-- An index that ends a strip or fan (R255). -/
def isRestart (d : List Nat) (block : List Nat) (i : Nat) : Bool :=
  let t := bytesAt d 0 1
  bit (bytesAt block 24 4) 4 && (t == 2 || t == 4 || t == 5) && bytesAt d 1 1 != 0 && i == 2 ^ (16 * bytesAt d 1 1) - 1

/-- What one draw works with. -/
structure DrawSt where
  d : List Nat
  block : List Nat
  vin : List Nat
  vs : List Nat
  x : ShEntry

/-- One vertex: fetched and shaded (R255, R256). Its outputs are position, point size, eight clip distances and the
varyings. -/
def shadeVertex (s : State) (j : Job) (w : DrawSt) (index inst : Nat) : State × Except JErr Vtx :=
  let v := (index + bytesAt w.d 28 4) % 2 ^ 32
  jThen (jMap (fun s a => readAttr s j w.vin v inst a) (List.range (bytesAt w.vin 1 1)) s) (fun s attrs =>
    let env : ShEnv := ⟨j, bayAgent ((baysIn s).headD 0), bytesAt w.block 8 8⟩
    jThen (runShader s env w.vs (bytesAt w.block 2 1) ([v, inst] ++ attrs.flatten)) (fun s out =>
      let word (i : Nat) : Nat := out.getD i 0 % 2 ^ 32
      (s, .ok ⟨(List.range 4).map word, (List.range w.x.varyings).map (fun i => word (13 + i)),
        (List.range 8).map (fun i => word (5 + i)), word 4⟩)))

/-- Vertex n of an instance; none where the index restarts. -/
def drawVertex (s : State) (j : Job) (w : DrawSt) (inst n : Nat) : State × Except JErr (Option Vtx) :=
  jThen (readIndex s j w.d n) (fun s i =>
    if isRestart w.d w.block i then (s, .ok none)
    else jThen (shadeVertex s j w i inst) (fun s v => (s, .ok (some v))))

/-- The runs of vertices between restarts. -/
def runs : List (Option Vtx) → List Vtx → List (List Vtx)
  | [], acc => [acc]
  | none :: r, acc => acc :: runs r []
  | some v :: r, acc => runs r (acc ++ [v])

/-- The primitives of a run of vertices, by topology (R255). -/
def assemble (topo : Nat) (vs : List Vtx) : List (List Vtx) :=
  let n := vs.length
  let pick (is : List Nat) : List Vtx := is.filterMap (fun i => vs[i]?)
  match topo with
  | 0 => (List.range n).map (fun i => pick [i])
  | 1 => (List.range (n / 2)).map (fun i => pick [2 * i, 2 * i + 1])
  | 2 => (List.range (n - 1)).map (fun i => pick [i, i + 1])
  | 3 => (List.range (n / 3)).map (fun i => pick [3 * i, 3 * i + 1, 3 * i + 2])
  | 4 => (List.range (n - 2)).map (fun i => if i % 2 = 0 then pick [i, i + 1, i + 2] else pick [i + 1, i, i + 2])
  | _ => (List.range (n - 2)).map (fun i => pick [i + 1, i + 2, 0])

/-! Clipping (R257, R258). -/

/-- Normalised coordinate at which the window coordinate reaches an edge of the guard band (R257). -/
def guardEdge (edge x w : Nat) : Nat := fSub (fDiv (fSub edge x) (fDiv w 0x40000000)) fOne

/-- Component c of a vertex's position. -/
def Vtx.p (v : Vtx) (c : Nat) : Nat := v.pos.getD c 0

/-- The planes of R257 in their order, each as its distance. -/
def clipPlanes (block : List Nat) : List (Vtx → Nat) :=
  let w (o : Nat) : Nat := bytesAt block o 4
  let gl := guardEdge fM16384 (w 32) (w 40)
  let gr := guardEdge f16384 (w 32) (w 40)
  let gt := guardEdge fM16384 (w 36) (w 44)
  let gb := guardEdge f16384 (w 36) (w 44)
  let clamp := bit (w 24) 3
  [fun v => fSub (v.p 3) 0x33800000] ++
    (if clamp then [] else [fun v => v.p 2, fun v => fSub (v.p 3) (v.p 2)]) ++
    [fun v => fSub (v.p 0) (fMul gl (v.p 3)), fun v => fSub (fMul gr (v.p 3)) (v.p 0),
     fun v => fSub (v.p 1) (fMul gt (v.p 3)), fun v => fSub (fMul gb (v.p 3)) (v.p 1)] ++
    (keysWhere 8 (fun k => bit (w 24) (8 + k))).map (fun k => fun v => v.clip.getD k 0)

/-- A distance counts as inside: d ≥ 0. -/
def isInside (d : Nat) : Bool := fLe 0 d

/-- The cut point of an edge from v0, inside, to v1 (R258). -/
def cutPoint (plane : Vtx → Nat) (v0 v1 : Vtx) : Vtx :=
  let d0 := plane v0
  let t := fDiv d0 (fSub d0 (plane v1))
  let mix (a b : List Nat) : List Nat := List.zipWith (fun x y => fAdd x (fMul t (fSub y x))) a b
  { v0 with pos := mix v0.pos v1.pos, vary := mix v0.vary v1.vary, clip := mix v0.clip v1.clip }

/-- The part of an edge from a to b that a plane leaves: a where it is inside, and the cut point where the edge
crosses. -/
def clipEdge (plane : Vtx → Nat) (a b : Vtx) : List Vtx :=
  match isInside (plane a), isInside (plane b) with
  | true, true => [a]
  | true, false => [a, cutPoint plane a b]
  | false, true => [cutPoint plane b a]
  | false, false => []

/-- A polygon cut by one plane. -/
def clipPoly (plane : Vtx → Nat) (vs : List Vtx) : List Vtx :=
  (List.zipWith (fun a b => clipEdge plane a b) vs (vs.drop 1 ++ vs.take 1)).flatten

/-- A line cut by one plane; its direction stays. -/
def clipLine (plane : Vtx → Nat) (vs : List Vtx) : List Vtx :=
  match vs with
  | [a, b] =>
    match isInside (plane a), isInside (plane b) with
    | true, true => [a, b]
    | true, false => [a, cutPoint plane a b]
    | false, true => [cutPoint plane b a, b]
    | false, false => []
  | _ => vs

/-- A primitive against every plane: it passes, is discarded, or is clipped in table order (R257). -/
def clipPrim (planes : List (Vtx → Nat)) (vs : List Vtx) : List Vtx :=
  if planes.all (fun d => vs.all (fun v => isInside (d v))) then vs
  else if planes.any (fun d => vs.all (fun v => !isInside (d v))) then []
  else if vs.length = 2 then planes.foldl (fun vs d => clipLine d vs) vs
  else planes.foldl (fun vs d => clipPoly d vs) vs

/-! The viewport and the emission of triangles (R259 to R264). -/

/-- A vertex in window coordinates. -/
structure WinVtx where
  x : Nat
  y : Nat
  z : Nat
  iw : Nat
  vary : List Nat

/-- The viewport transform (R259). -/
def toWindow (block : List Nat) (v : Vtx) : WinVtx :=
  let w (o : Nat) : Nat := bytesAt block o 4
  let ndc (c : Nat) : Nat := fDiv (v.p c) (v.p 3)
  let axis (base size d : Nat) : Nat := fAdd base (fMul (fAdd d fOne) (fDiv size 0x40000000))
  ⟨axis (w 32) (w 40) (ndc 0), axis (w 36) (w 44) (ndc 1),
   fAdd (w 48) (fMul (ndc 2) (fSub (w 52) (w 48))), fDiv fOne (v.p 3), v.vary⟩

/-- Snapped coordinates (R260). -/
def WinVtx.sx (v : WinVtx) : Int := fToInt v.x 256
def WinVtx.sy (v : WinVtx) : Int := fToInt v.y 256

/-- The area value of a triangle (R261). -/
def areaOf (xs ys : List Int) : Int :=
  let x (i : Nat) : Int := xs.getD i 0
  let y (i : Nat) : Int := ys.getD i 0
  (x 1 - x 0) * (y 2 - y 0) - (x 2 - x 0) * (y 1 - y 0)

/-- The factor r of the depth bias: for D24S8, and for D32F from the largest |zw| (R270). -/
def biasUnit (d24 : Bool) (zs : List Nat) : Nat :=
  if d24 then 0x33800000
  else
    let m := (zs.map fAbs).foldl (fun a b => if fLt a b then b else a) 0
    fPow2 ((max 1 (bits m 30 23) : Nat) - 127 - 23)

/-- The depth bias of a triangle (R270); its slopes are those of its plane through the snapped corners. -/
def biasOf (block : List Nat) (dsFmt : Nat) (xs ys : List Int) (zs : List Nat) : Nat :=
  if dsFmt = 0 then 0
  else
    let w (o : Nat) : Nat := bytesAt block o 4
    let z (i : Nat) : Nat := zs.getD i 0
    let dx (i k : Nat) : Nat := fOfInt (xs.getD i 0 - xs.getD k 0) (-8)
    let dy (i k : Nat) : Nat := fOfInt (ys.getD i 0 - ys.getD k 0) (-8)
    let a := fOfInt (areaOf xs ys) (-16)
    let z1 := fSub (z 1) (z 0)
    let z2 := fSub (z 2) (z 0)
    let zx := fDiv (fSub (fMul z1 (dy 2 0)) (fMul z2 (dy 1 0))) a
    let zy := fDiv (fSub (fMul z2 (dx 1 0)) (fMul z1 (dx 2 0))) a
    let v := fAdd (fMul (w 64) (biasUnit (dsFmt == 0x38) zs)) (fMul (w 68) (fMax (fAbs zx) (fAbs zy)))
    let lim := fAbs (w 72)
    if lim = 0 then v else fClamp v (fMinus lim) lim

/-- One triangle of a primitive; none where its area is 0 or, for a triangle, it is culled (R261). -/
def emitTri (block : List Nat) (st dsFmt num : Nat) (tri : Bool) (flat : List Nat) (vs : List WinVtx) : Option Prim :=
  let xs := vs.map WinVtx.sx
  let ys := vs.map WinVtx.sy
  let a := areaOf xs ys
  let r := bytesAt block 24 4
  let front : Bool := if bit r 2 then decide (a < 0) else decide (0 < a)
  if a = 0 ∨ (tri ∧ bit r (if front then 0 else 1)) then none
  else some { num := num, st := st, front := front || !tri, tri := tri, xs := xs, ys := ys, zs := vs.map (·.z),
              iw := vs.map (·.iw), vary := vs.map (·.vary), flat := flat,
              bias := biasOf block dsFmt xs ys (vs.map (·.z)) }

/-- A polygon as a fan of triangles from its first vertex (R258). -/
def fan : List WinVtx → List (List WinVtx)
  | v :: r => List.zipWith (fun a b => [v, a, b]) r (r.drop 1)
  | [] => []

/-- A corner of a line or point: a vertex moved by an offset (R264). -/
def WinVtx.move (v : WinVtx) (dx dy : Nat) : WinVtx := { v with x := fAdd v.x dx, y := fAdd v.y dy }

/-- The rectangle of a line, split from its first corner at v₀ (R264). -/
def lineTris (block : List Nat) (v0 v1 : WinVtx) : List (List WinVtx) :=
  let half := fOfInt (bits (bytesAt block 24 4) 31 16) (-9)
  let dx := fSub v1.x v0.x
  let dy := fSub v1.y v0.y
  let len := fSqrt (fAdd (fMul dx dx) (fMul dy dy))
  let nx := fMul (fDiv (fMinus dy) len) half
  let ny := fMul (fDiv dx len) half
  let c0 := v0.move nx ny
  let c1 := v1.move nx ny
  let c2 := v1.move (fMinus nx) (fMinus ny)
  let c3 := v0.move (fMinus nx) (fMinus ny)
  [[c0, c1, c2], [c0, c2, c3]]

/-- The square of a point, split from its top-left corner (R264). -/
def pointTris (v : WinVtx) (psize : Nat) : List (List WinVtx) :=
  let h := fDiv (fClamp psize fOne 0x43800000) 0x40000000
  let m := fMinus h
  [[v.move m m, v.move h m, v.move h h], [v.move m m, v.move h h, v.move m h]]

/-- The triangles of one assembled primitive (R257 to R264). -/
def primTris (block : List Nat) (st dsFmt num : Nat) (vs : List Vtx) : List Prim :=
  let flat := (vs.head?.map (·.vary)).getD []
  let psize := (vs.head?.map (·.psize)).getD 0
  let out := (clipPrim (clipPlanes block) vs).map (toWindow block)
  let tris := match vs.length, out with
    | 1, [v] => pointTris v psize
    | 2, [a, b] => lineTris block a b
    | 3, ps => fan ps
    | _, _ => []
  tris.filterMap (fun t => emitTri block st dsFmt num (vs.length == 3) flat t)

/-! The geometry phase (R253, R307, R308). -/

/-- Format of the pass's depth-stencil attachment; 0 for none. -/
def dsFormat (r : RenderSt) : Nat := ((r.atts.find? (·.ds)).map (fun a => a.surf.fmt)).getD 0

/-- The primitives of one instance. -/
def drawInstance (s : State) (j : Job) (w : DrawSt) (st : Nat) (g : Geo) (inst : Nat) : State × Except JErr Geo :=
  jThen (jMap (fun s n => drawVertex s j w inst n) (List.range (bytesAt w.d 4 4)) s) (fun s vs =>
    let ps := (runs vs []).flatMap (assemble (bytesAt w.d 0 1))
    let prims := (List.zipWith (fun n p => primTris w.block st (dsFormat j.rend) (g.num + n) p)
      (List.range ps.length) ps).flatten
    (s, .ok { g with prims := g.prims ++ prims, num := g.num + ps.length }))

/-- The shaders of a draw (R305, R316). -/
def drawShaders (s : State) (j : Job) (g : Geo) (b : List Nat) : Except JErr (Geo × List Nat × ShEntry) :=
  let fs := bytesAt b 4 2
  let g := if fs = 0xFFFF then Except.ok g
    else (takeModule s j g fs (bytesAt b 6 1) 1).map (fun x => x.1)
  match g with
  | .error e => .error e
  | .ok g => takeModule s j g (bytesAt b 0 2) (bytesAt b 2 1) 0

/-- One draw entry (R307). -/
def drawEntry (s : State) (j : Job) (g : Geo) (n : Nat) : State × Except JErr Geo :=
  jThen (jBytes s j frontAgent (bytesAt j.body 16 8 + 32 * n) 32) (fun s d =>
    let st := bytesAt d 2 2
    if 5 < bytesAt d 0 1 ∨ 2 < bytesAt d 1 1 then (s, .error (.badState, 0))
    else jThen (takeBlock s j g st) (fun s x =>
      match drawShaders s j x.1 x.2 with
      | .error e => (s, .error e)
      | .ok (g, vs, e) =>
        jThen (jBytes s j frontAgent (bytesAt x.2 16 8) 272) (fun s vin =>
          if !vinputOk vin then (s, .error (.badState, 0))
          else
            let w : DrawSt := ⟨d, x.2, vin, vs, e⟩
            jFold (fun s g i => drawInstance s j w st g i) (List.range (bytesAt d 8 4))
              { g with nvary := max g.nvary e.varyings } s)))

/-- The whole geometry phase of a render job. -/
def geometry (s : State) (j : Job) : State × Except JErr Geo :=
  jFold (fun s g n => drawEntry s j g n) (List.range (bytesAt j.body 24 4)) {} s

end Sys2Proof.Machine
end

