-- ==== Sys2Proof/Machine/Tile.lean ====
section
/-!
DEFINITION. Machine/Tile.lean: what one bay does with one tile: load, coverage, tests, shading, blending, and the store
to the surfaces or the spill buffer; and the binning of primitives (R253, R262, R263, R265, R269 to R281).
-/
namespace Sys2Proof.Machine

/-! Coverage and interpolation (R262, R263, R265). -/

/-- Edge value of the edge from corner i to corner k at a point, positive on the inner side of a triangle of positive
area. DEDUCED: the sign is the one R261 states of the interior; the formula printed in R263 has the other. -/
def edgeAt (p : Prim) (i k : Nat) (x y : Int) : Int :=
  let xa := p.xs.getD i 0
  let ya := p.ys.getD i 0
  (p.xs.getD k 0 - xa) * (y - ya) - (p.ys.getD k 0 - ya) * (x - xa)

/-- The corners in the order that makes the area positive (R261). -/
def Prim.turn (p : Prim) : List (Nat × Nat) :=
  if 0 < areaOf p.xs p.ys then [(0, 1), (1, 2), (2, 0)] else [(0, 2), (2, 1), (1, 0)]

/-- An edge is a top or a left edge (R263). -/
def topLeft (p : Prim) (e : Nat × Nat) : Bool :=
  let dx := p.xs.getD e.2 0 - p.xs.getD e.1 0
  let dy := p.ys.getD e.2 0 - p.ys.getD e.1 0
  if dy = 0 then decide (0 < dx) else decide (dy < 0)

/-- A sample point is covered (R263). -/
def covers (p : Prim) (x y : Int) : Bool :=
  p.turn.all (fun e =>
    let v := edgeAt p e.1 e.2 x y
    decide (0 < v) || (v == 0 && topLeft p e))

/-- Sample positions in 1/256 pixel (R262). -/
def samplePos (samples k : Nat) : Int × Int :=
  match samples, k with
  | 1, _ => (128, 128)
  | 2, 0 => (192, 192)
  | 2, _ => (64, 64)
  | _, 0 => (96, 32)
  | _, 1 => (224, 96)
  | _, 2 => (32, 160)
  | _, _ => (160, 224)

/-- Linear barycentric coordinates at a point (R265). -/
def baryAt (p : Prim) (x y : Int) : List Nat :=
  let a := fOfInt (areaOf p.xs p.ys)
  [(1, 2), (2, 0), (0, 1)].map (fun e => fDiv (fOfInt (edgeAt p e.1 e.2 x y)) a)

/-- Perspective coordinates from linear ones (R265). -/
def perspOf (p : Prim) (b : List Nat) : List Nat :=
  let w := List.zipWith fMul b p.iw
  let q := fAdd (fAdd (w.getD 0 0) (w.getD 1 0)) (w.getD 2 0)
  w.map (fun v => fDiv v q)

/-- Depth at a sample: interpolated, clamped with DEPTH_CLAMP, then biased (R265, R270). -/
def depthAt (block : List Nat) (p : Prim) (b : List Nat) : Nat :=
  let z (i : Nat) : Nat := p.zs.getD i 0
  let v := fAdd (fAdd (z 0) (fMul (b.getD 1 0) (fSub (z 1) (z 0)))) (fMul (b.getD 2 0) (fSub (z 2) (z 0)))
  let v := if bit (bytesAt block 24 4) 3 then fClamp v (bytesAt block 48 4) (bytesAt block 52 4) else v
  fAdd v p.bias

/-! Tile memory: attachment, sample, pixel of the tile (R267). -/

abbrev TileMem := List (List (List Nat))

/-- A stored word. -/
def TileMem.at (m : TileMem) (a k i : Nat) : Nat := ((m.getD a []).getD k []).getD i 0

/-- Replace a stored word. -/
def TileMem.put (m : TileMem) (a k i v : Nat) : TileMem :=
  m.set a ((m.getD a []).set k (((m.getD a []).getD k []).set i v))

/-- A tile plane from its sixteen blocks, and block k of a plane. -/
def planeOfBlocks (bs : List (List Nat)) : List Nat :=
  (List.range 1024).map (fun i => (bs.getD (i / 256 * 4 + i % 32 / 8) []).getD (i / 32 % 8 * 8 + i % 8) 0)
def blockOfPlane (p : List Nat) (k : Nat) : List Nat :=
  (List.range 64).map (fun i => p.getD ((k / 4 * 8 + i / 8) * 32 + k % 4 * 8 + i % 8) 0)

/-- Top-left pixel of a tile (R268). -/
def tileOrigin (r : RenderSt) (t : Nat) : Nat × Nat := (r.x + 32 * (t % tilesX r), r.y + 32 * (t / tilesX r))

/-- Block k of a tile, as a block of the surface; none where it lies outside the render area. -/
def tileBlock (r : RenderSt) (t k : Nat) : Option (Nat × Nat) :=
  let o := tileOrigin r t
  let x := o.1 + 8 * (k % 4)
  let y := o.2 + 8 * (k / 4)
  if x < r.x + r.w ∧ y < r.y + r.h then some (x / 8, y / 8) else none

/-! Load (R275, R280, R281). -/

/-- One sample plane of an attachment as its load operation gives it. -/
def loadPlane (s : State) (j : Job) (agent t : Nat) (a : Attach) (k : Nat) : State × Except JErr (List Nat) :=
  match a.load with
  | 0 =>
    jThen (jMap (fun s n =>
      match tileBlock j.rend t n with
      | none => (s, .ok (List.replicate 64 0))
      | some (bx, by_) => readBlock s j agent (kerfSurf a.surf k 0x10) bx by_) (List.range 16) s)
      (fun s bs => (s, .ok (planeOfBlocks bs)))
  | 1 => (s, .ok (List.replicate 1024 (clearPixel a.surf.fmt a.ds a.clear)))
  | _ => (s, .ok (List.replicate 1024 0))

/-- Address of a spill slot of a tile (R281). -/
def spillAddr (r : RenderSt) (t slot : Nat) : Nat := r.spill + (2 * t + slot) * footprint r

/-- Tile memory from the bytes of a spill slot. -/
def memOfSpill (r : RenderSt) (b : List Nat) : TileMem :=
  (r.atts.foldl (fun (acc : TileMem × List Nat) a =>
    let n := fmtBytes a.surf.fmt
    let planes := (List.range r.samples).map (fun k => (List.range 1024).map (fun i => bytesAt acc.2 ((1024 * k + i) * n) n))
    (acc.1 ++ [planes], acc.2.drop (1024 * r.samples * n))) ([], b)).1

/-- The bytes of a spill slot from tile memory. -/
def spillOfMem (r : RenderSt) (m : TileMem) : List Nat :=
  (List.zipWith (fun (a : Attach) planes => planes.flatMap (fun p => p.flatMap (fun w => leBytes (fmtBytes a.surf.fmt) w)))
    r.atts m).flatten

/-- Tile memory at the start of a segment. -/
def loadTile (s : State) (j : Job) (agent t : Nat) : State × Except JErr TileMem :=
  let r := j.rend
  if r.seg = 0 then
    jMap (fun s a => jMap (fun s k => loadPlane s j agent t a k) (List.range r.samples) s) r.atts s
  else match jRead s j agent (spillAddr r t ((r.seg + 1) % 2)) (footprint r) with
    | (s, .ok b) => (s, .ok (memOfSpill r b))
    | (s, .error (.uncorrectable _)) => (raiseFault s .bin 0, .error (.spillError, 0))
    | (s, .error _) => (s, .error memFail)

/-! Depth and stencil (R269, R270). -/

/-- A compare code applied to less, equal, greater. -/
def compareBy (code : Nat) (lt eq gt : Bool) : Bool :=
  match code with
  | 0 => false | 1 => lt | 2 => eq | 3 => lt || eq | 4 => gt | 5 => !eq | 6 => gt || eq | _ => true

/-- A stencil operation. -/
def stencilOp (op old ref : Nat) : Nat :=
  match op with
  | 0 => old | 1 => 0 | 2 => ref | 3 => min 255 (old + 1) | 4 => old - 1 | 5 => 255 - old
  | 6 => (old + 1) % 256 | _ => (old + 255) % 256

/-- The stencil half of a sample's test: the new stencil, and whether the sample lives. -/
def stencilTest (word wmask old : Nat) (depthOk : Bool) : Nat × Bool :=
  let ref := bits word 23 16
  let rm := bits word 31 24
  let l := Nat.land ref rm
  let r := Nat.land old rm
  let ok := compareBy (bits word 2 0) (l < r) (l == r) (r < l)
  let op := if !ok then bits word 6 4 else if !depthOk then bits word 10 8 else bits word 14 12
  (Nat.lor (Nat.land (stencilOp op old ref) wmask) (Nat.land old (255 - wmask)), ok && depthOk)

/-- One sample's tests in the order of R270, with their updates. -/
def testSample (r : RenderSt) (block : List Nat) (front : Bool) (m : TileMem) (k i z : Nat) : TileMem × Bool :=
  match r.atts.findIdx? (·.ds) with
  | none => (m, true)
  | some a =>
    let d24 : Bool := dsFormat r == 0x38
    let cfg := bytesAt block 28 4
    let old := m.at a k i
    let inc := depthOfF (dsFormat r) z
    let oldZ := if d24 then old % 2 ^ 24 else old
    let lt := if d24 then decide (inc < oldZ) else fLt inc oldZ
    let eq := if d24 then inc == oldZ else fEq inc oldZ
    let gt := if d24 then decide (oldZ < inc) else fLt oldZ inc
    let depthOk := !bit cfg 3 || compareBy (bits cfg 2 0) lt eq gt
    let o := if front then 76 else 84
    let (st, live) := if d24 && bit cfg 5 then
        stencilTest (bytesAt block o 4) (bytesAt block (o + 4) 1) (old / 2 ^ 24) depthOk
      else (old / 2 ^ 24, depthOk)
    let newZ := if live && bit cfg 4 then inc else oldZ
    (m.put a k i (if d24 then newZ + 2 ^ 24 * st else newZ), live)

/-! Blending (R272 to R274). -/

/-- A blend factor for channel c: source, second source, destination and constant as R, G, B, A (R272). -/
def factor (code c : Nat) (s s1 d k : List Nat) : Nat :=
  let g (l : List Nat) : Nat := l.getD c 0
  let al (l : List Nat) : Nat := l.getD 3 0
  let inv (x : Nat) : Nat := fSub fOne x
  match code with
  | 0x00 => 0
  | 0x01 => fOne
  | 0x02 => g s
  | 0x03 => inv (g s)
  | 0x04 => g d
  | 0x05 => inv (g d)
  | 0x06 => al s
  | 0x07 => inv (al s)
  | 0x08 => al d
  | 0x09 => inv (al d)
  | 0x0A => g k
  | 0x0B => inv (g k)
  | 0x0C => al k
  | 0x0D => inv (al k)
  | 0x0E => if c = 3 then fOne else fMin (al s) (inv (al d))
  | 0x0F => g s1
  | 0x10 => inv (g s1)
  | 0x11 => al s1
  | _ => inv (al s1)

/-- One blended channel (R273). -/
def blendChan (w c : Nat) (s s1 d k : List Nat) : Nat :=
  let (fs, fd, op) := if c = 3 then (bits w 17 13, bits w 22 18, bits w 25 23) else (bits w 4 0, bits w 9 5, bits w 12 10)
  let ps := fMul (s.getD c 0) (factor fs c s s1 d k)
  let pd := fMul (d.getD c 0) (factor fd c s s1 d k)
  match op with
  | 0 => fAdd ps pd
  | 1 => fSub ps pd
  | 2 => fSub pd ps
  | 3 => fMin (s.getD c 0) (d.getD c 0)
  | _ => fMax (s.getD c 0) (d.getD c 0)

/-- A stored pixel after one fragment (R273, R274): `w` is the attachment's BLEND entry. -/
def blendPixel (f w old : Nat) (src src1 const : List Nat) : Nat :=
  let cl (l : List Nat) : List Nat := if fmtUnorm f then l.map (fun x => fClamp x 0 fOne) else l
  let s := cl src
  let k := cl const
  let d := pixelToF f old
  let out := if bit w 26 then (List.range 4).map (fun c => blendChan w c s src1 d k) else s
  pixelOfF f old (bits w 30 27) out

/-- The fragment of some samples of a pixel is blended into every colour attachment. -/
def blendSamples (r : RenderSt) (block : List Nat) (m : TileMem) (i : Nat) (ks : List Nat) (out : List Nat) : TileMem :=
  let const := (List.range 4).map (fun c => bytesAt block (92 + 4 * c) 4)
  let quad (o : Nat) : List Nat := (List.range 4).map (fun c => out.getD (o + c) 0 % 2 ^ 32)
  (List.range (r.atts.filter (fun a => !a.ds)).length).foldl (fun m a =>
    ks.foldl (fun m k =>
      let f := ((r.atts[a]?).map (fun x => x.surf.fmt)).getD 1
      m.put a k i (blendPixel f (bytesAt block (112 + 8 * a) 8) (m.at a k i) (quad (4 * a)) (quad 16) const)) m) m

/-! Fragments (R253, R265, R271). -/

/-- The fragment shader of a state block, as its bytes, entry index and entry; none for handle 0xFFFF (R305). -/
def fragShader (j : Job) (block : List Nat) : Option (List Nat × Nat × ShEntry) :=
  let h := bytesAt block 4 2
  let b := aget [] j.mods h
  if h = 0xFFFF then none else (Config.moduleEntry b (bytesAt block 6 1)).map (fun e => (b, bytesAt block 6 1, e))

/-- What a fragment shader is given: the pixel, the sample, the facing, the coordinates of R265 at the point its
interpolation mode selects, and the triangle's corners with their varyings. -/
def fragInputs (block : List Nat) (p : Prim) (x y k : Nat) (px py : Int) : List Nat :=
  let b := baryAt p px py
  [x, y, k, b2n p.front, depthAt block p b] ++ b ++ perspOf p b ++ p.xs.map (fun v => toField v 32) ++
    p.ys.map (fun v => toField v 32) ++ p.zs ++ p.iw ++ p.vary.flatten ++ p.flat

/-- What a fragment shader may say beside its colours: discarded, the depth it wrote, the samples it keeps. -/
def fragDiscard (out : List Nat) : Bool := bit (out.getD 20 0) 0
def fragDepth (out : List Nat) (z : Nat) : Nat := if bit (out.getD 20 0) 1 then out.getD 21 0 % 2 ^ 32 else z
def fragKeeps (out : List Nat) (k : Nat) : Bool := !bit (out.getD 20 0) 2 || bit (out.getD 22 0) k

/-- The tests of some samples of a pixel, and the samples that live. -/
def testSamples (r : RenderSt) (block : List Nat) (front : Bool) (i : Nat) (z : Nat → Nat) (m : TileMem) (ks : List Nat) :
    TileMem × List Nat :=
  ks.foldl (fun (acc : TileMem × List Nat) k =>
    let (m, live) := testSample r block front acc.1 k i (z k)
    (m, if live then acc.2 ++ [k] else acc.2)) (m, [])

/-- One pixel of a tile under one primitive. -/
structure PixelAt where
  p : Prim
  block : List Nat
  /-- Pixel in the surface, and its place in the tile. -/
  x : Nat
  y : Nat
  i : Nat

/-- Some samples of a pixel that share one run of the shader (R271). -/
def shadeGroup (s : State) (v : ShEnv) (q : PixelAt) (m : TileMem) (ks : List Nat) (point : Int × Int) (sample : Nat) :
    State × Except JErr TileMem :=
  let r := v.job.rend
  let at_ (k : Nat) : Int × Int :=
    let o := samplePos r.samples k
    (256 * (q.x : Int) + o.1, 256 * (q.y : Int) + o.2)
  let z (k : Nat) : Nat := depthAt q.block q.p (baryAt q.p (at_ k).1 (at_ k).2)
  match fragShader v.job q.block with
  | none =>
    let (m, live) := testSamples r q.block q.p.front q.i z m ks
    (s, .ok (blendSamples r q.block m q.i live []))
  | some (b, n, e) =>
    let ins := fragInputs q.block q.p q.x q.y sample (256 * (q.x : Int) + point.1) (256 * (q.y : Int) + point.2)
    if e.early then
      let (m, live) := testSamples r q.block q.p.front q.i z m ks
      if live = [] then (s, .ok m)
      else jThen (runShader s v b n ins) (fun s out =>
        if fragDiscard out then (s, .ok m)
        else (s, .ok (blendSamples r q.block m q.i (live.filter (fragKeeps out)) out)))
    else jThen (runShader s v b n ins) (fun s out =>
      if fragDiscard out then (s, .ok m)
      else
        let (m, live) := testSamples r q.block q.p.front q.i (fun k => fragDepth out (z k)) m (ks.filter (fragKeeps out))
        (s, .ok (blendSamples r q.block m q.i live out)))

/-- The samples of a pixel that a primitive covers. -/
def coverList (r : RenderSt) (q : PixelAt) : List Nat :=
  keysWhere r.samples (fun k =>
    let o := samplePos r.samples k
    covers q.p (256 * (q.x : Int) + o.1) (256 * (q.y : Int) + o.2))

/-- One pixel under one primitive: one run of the shader, or one for each covered sample. -/
def shadePixel (s : State) (v : ShEnv) (q : PixelAt) (m : TileMem) : State × Except JErr TileMem :=
  let ks := coverList v.job.rend q
  let perSample := ((fragShader v.job q.block).map (fun e => e.2.2.perSample)).getD false
  if ks = [] then (s, .ok m)
  else if perSample then
    jFold (fun s m k => shadeGroup s v q m [k] (samplePos v.job.rend.samples k) k) ks m s
  else shadeGroup s v q m ks (128, 128) 0

/-- A pixel lies in the render area and the scissor (R268, R305). -/
def pixelIn (r : RenderSt) (block : List Nat) (x y : Nat) : Bool :=
  let g (o : Nat) : Nat := bytesAt block o 2
  x < r.x + r.w && y < r.y + r.h && g 56 ≤ x && x < g 56 + g 60 && g 58 ≤ y && y < g 58 + g 62

/-- One primitive over a tile. -/
def shadePrim (s : State) (j : Job) (bay t : Nat) (m : TileMem) (p : Prim) : State × Except JErr TileMem :=
  let o := tileOrigin j.rend t
  let block := aget [] j.rend.states p.st
  let v : ShEnv := ⟨j, bayAgent bay, bytesAt block 8 8⟩
  jFold (fun s m i =>
    let x := o.1 + i % 32
    let y := o.2 + i / 32
    if pixelIn j.rend block x y then shadePixel s v ⟨p, block, x, y, i⟩ m else (s, .ok m)) (List.range 1024) m s

/-! Binning (R278 to R280). -/

/-- A primitive is binned to a tile (R278). -/
def binned (r : RenderSt) (p : Prim) (t : Nat) : Bool :=
  let o := tileOrigin r t
  let block := aget [] r.states p.st
  let g (i : Nat) : Nat := bytesAt block i 2
  let x0 := o.1
  let y0 := o.2
  let x1 := min (o.1 + 32) (r.x + r.w)
  let y1 := min (o.2 + 32) (r.y + r.h)
  let mn (l : List Int) : Int := l.foldl min (l.headD 0)
  let mx (l : List Int) : Int := l.foldl max (l.headD 0)
  let hit (lo hi : Int) (a b : Nat) : Bool := decide (lo < 256 * (b : Int)) && decide (256 * (a : Int) ≤ hi)
  hit (mn p.xs) (mx p.xs) (max x0 (g 56)) (min x1 (g 56 + g 60)) &&
    hit (mn p.ys) (mx p.ys) (max y0 (g 58)) (min y1 (g 58 + g 62)) &&
    p.turn.all (fun e => [(x0, y0), (x1, y0), (x0, y1), (x1, y1)].any (fun c =>
      decide (0 ≤ edgeAt p e.1 e.2 (256 * (c.1 : Int)) (256 * (c.2 : Int)))))

/-- Pool bytes of a primitive's vertex data (R279). -/
def vertexData (p : Prim) : Nat := 64 * cdiv (3 * (16 + 4 * (p.vary.headD []).length)) 64

/-- A primitive's pool bytes, with the entries each tile has so far (R279). -/
def poolTake (r : RenderSt) (used : Nat) (ents : Assoc Nat) (p : Prim) : Nat × Assoc Nat :=
  (List.range (tileCount r)).foldl (fun (acc : Nat × Assoc Nat) t =>
    if !binned r p t then acc
    else
      let n := aget 0 acc.2 t
      (acc.1 + (if n ≠ 0 ∧ n % 15 = 0 then 64 else 0), aset 0 acc.2 t (n + 1))) (used + vertexData p, ents)

/-- Where a segment of the triangles that starts at `first` ends: at the first primitive that does not fit (R280).
`mark` is the start of the primitive being looked at, with the pool as it stood there. -/
def segGo (r : RenderSt) (cap first : Nat) : List Prim → Nat → Nat → Nat → Nat → Assoc Nat → Nat
  | [], n, _, _, _, _ => n
  | p :: rest, n, mark, num, used, ents =>
    let mark := if p.num = num then mark else n
    let (used, ents) := poolTake r used ents p
    if cap < used ∧ mark ≠ first then mark else segGo r cap first rest (n + 1) mark p.num used ents

/-- The end of the segment that starts at triangle `first`. -/
def segEnd (j : Job) (r : RenderSt) (first : Nat) : Nat :=
  let ps := r.prims.drop first
  segGo r (poolBytes j - 64 * tileCount r - 65536) first ps first first ((ps.head?.map (·.num)).getD 0) 0 []

/-! Store (R275 to R277, R280). -/

/-- One value for a pixel from its samples (R276). -/
def resolvePixel (f : Nat) (vs : List Nat) : Nat :=
  let n := vs.length
  if fmtUnorm f then
    (fmtChannels f).foldl (fun w c =>
      if c.2 = 0 then w
      else
        let sum := (vs.map (fun v => bits v (c.1 + c.2 - 1) c.1)).foldl (· + ·) 0
        w + 2 ^ c.1 * ((sum + n / 2) / n)) 0
  else
    let chan (c : Nat) : Nat :=
      fMul ((vs.map (fun v => (pixelToF f v).getD c 0)).foldl (fun (acc : Option Nat) x =>
        match acc with | none => some x | some a => some (fAdd a x)) none |>.getD 0) (fDiv fOne (fOfInt n))
    pixelOfF f 0 15 ((List.range 4).map chan)

/-- One plane of an attachment is encoded and written, block by block (R231, R277). -/
def storePlane (s : State) (j : Job) (agent t : Nat) (a : Attach) (plane : Nat) (words : List Nat) : State × Except JErr Unit :=
  let f := kerfSurf a.surf plane 0x10
  let clear := some (clearPixel a.surf.fmt a.ds a.clear)
  jFold (fun s _ k =>
    match tileBlock j.rend t k with
    | none => (s, .ok ())
    | some (bx, by_) =>
      match kerfWriteBlock s (jWriter j agent) f clear bx by_ (blockOfPlane words k) with
      | (s, .error _) => (s, .error memFail)
      | (s, .ok _) => (s, .ok ())) (List.range 16) () s

/-- The store operation of one attachment. -/
def storeAttach (s : State) (j : Job) (agent t : Nat) (a : Attach) (planes : List (List Nat)) : State × Except JErr Unit :=
  match a.store with
  | 0 => jFold (fun s _ k => storePlane s j agent t a k (planes.getD k [])) (List.range planes.length) () s
  | 1 =>
    storePlane s j agent t a 0
      ((List.range 1024).map (fun i => resolvePixel a.surf.fmt (planes.map (fun p => p.getD i 0))))
  | _ => (s, .ok ())

/-- The end of a tile: the store operations in the final segment, the spill slot before it. -/
def storeTile (s : State) (j : Job) (agent t : Nat) (m : TileMem) : State × Except JErr Unit :=
  let r := j.rend
  if r.stop = r.prims.length then
    jFold (fun s _ e => storeAttach s j agent t e.1 e.2) (r.atts.zip m) () s
  else match jWrite s j agent (spillAddr r t (r.seg % 2)) (spillOfMem r m) with
    | (s, .error _) => (s, .error memFail)
    | (s, .ok _) => (s, .ok ())

/-- The whole of one tile in its segment: load, every primitive in order, store (R253, R277). -/
def renderTile (s : State) (j : Job) (bay t : Nat) : State × Except JErr Unit :=
  let r := j.rend
  jThen (loadTile s j (bayAgent bay) t) (fun s m =>
    jThen (jFold (fun s m p => shadePrim s j bay t m p) ((r.prims.drop r.first).take (r.stop - r.first)) m s) (fun s m =>
      storeTile s j (bayAgent bay) t m))

/-! Commands. -/

/-- A job's tile leaves flight; when every tile of the segment is complete, the next segment starts or the job is done
(R277, R280). -/
def tileDone (s : State) (i : Nat) (j : Job) (t : Nat) : State :=
  let r := { j.rend with flying := j.rend.flying.filter (fun e => e.1 != t), done := t :: j.rend.done }
  if r.done.length < tileCount r then s.setJob i (some { j with rend := r })
  else if r.stop = r.prims.length then endJobAs (s.setJob i (some { j with rend := r })) i .ok 0
  else
    let next : RenderSt := { r with seg := r.seg + 1, first := r.stop, done := [], flushing := false, tileAt := [] }
    s.setJob i (some { j with rend := { next with stop := segEnd j next next.first } })

/-- TILE_COMPLETE (R277): a tile in flight finishes on its bay. -/
def execTileComplete (slot : Fin 1024) (tile : Nat) (s : State) : Host.Outcome State Fault Refusal :=
  match s.job slot with
  | none => .next s
  | some j =>
    match j.rend.flying.find? (fun e => e.1 == tile) with
    | none => .next s
    | some (_, b) =>
      if j.phase ≠ .running then .next s
      else match renderTile s j b tile with
        | (s, .error (st, d)) => .next (endJobAs s slot st d)
        | (s, .ok _) =>
          let s := s.count (.bay b) Reg.BAY_TILES_DONE
          let left := j.rend.flying.filter (fun e => e.1 != tile)
          if jobStale s j && left.isEmpty then .next (discardJob s slot j)
          else .next (tileDone s slot j tile)

/-- PARTIAL_FLUSH (R280 to R282): binning has met a primitive that does not fit the pool. -/
def execPartialFlush (slot : Fin 1024) (s : State) : Host.Outcome State Fault Refusal :=
  match s.job slot with
  | none => .next s
  | some j =>
    let r := j.rend
    if j.phase ≠ .running ∨ !r.geo ∨ r.flushing ∨ r.stop = r.prims.length then .next s
    else if r.spill = 0 ∨ r.spillSize < 2 * footprint r * tileCount r then .next (endJobAs s slot .spillSmall 0)
    else
      let num := ((r.prims[r.stop]?).map (·.num)).getD 0
      let s := s.setJob slot (some { j with rend := { r with flushing := true } })
      let s := (s.count .bin Reg.BIN_PARTIAL_FLUSH_COUNT).event .bin 0
      .next (s.setPr .bin Reg.BIN_LAST_FLUSH (w32 (2 ^ 24 * ringCode j.rs + num % 2 ^ 24)))

end Sys2Proof.Machine
end

