-- ==== Sys2Proof/Machine/Work.lean ====
section
/-!
DEFINITION. Machine/Work.lean: handing work to the bays, the render front-end and the copy engine: class order,
round-robin, port shares, preemption, and the workgroups of compute jobs (R310, R321 to R326, R375).
-/
namespace Sys2Proof.Machine

/-! Which job is offered work first (R321, R375). -/

/-- Class of a job. -/
def Job.cls (j : Job) : Nat := bits j.flags 1 0

/-- A job goes before another within SAFE and within DEADLINE (R321). -/
def goesBefore (a b : Job) : Bool :=
  if a.cls = 1 then
    match a.deadline, b.deadline with
    | some x, some y => x < y || (x == y && (a.rs < b.rs || (a.rs == b.rs && a.seq < b.seq)))
    | some _, none => true
    | none, some _ => false
    | none, none => a.rs < b.rs || (a.rs == b.rs && a.seq < b.seq)
  else a.readyAt < b.readyAt

/-- The first of some jobs under an order. -/
def firstJob (before : Job → Job → Bool) (l : List (Nat × Job)) : Option (Nat × Job) :=
  l.foldl (fun best e => match best with
    | none => some e
    | some b => if before e.2 b.2 then some e else best) none

/-- Key of a function's count in a class. -/
def turnKey (cls rs : Nat) : Nat := 128 * cls + rs

/-- The function served next in a round-robin class: one passed over sixteen times in a row, else the next after the
one served last (R321). -/
def nextFunc (s : State) (cls : Nat) (fs : List Nat) : Option Nat :=
  match fs.find? (fun f => 16 ≤ aget 0 s.sched.passed (turnKey cls f)) with
  | some f => some f
  | none =>
    let last := aget 127 s.sched.lastServed cls
    let dist (f : Nat) : Nat := (f + 127 - last) % 128
    fs.foldl (fun best f => match best with
      | none => some f
      | some b => if dist f < dist b then some f else best) none

/-- A function is served in a round-robin class; the others that were ready have been passed over once more. -/
def served (s : State) (cls : Nat) (fs : List Nat) (f : Nat) : State :=
  let passed := fs.foldl (fun m g =>
    aset 0 m (turnKey cls g) (if g = f then 0 else aget 0 m (turnKey cls g) + 1)) s.sched.passed
  { s with sched := { s.sched with passed := passed, lastServed := aset 127 s.sched.lastServed cls f } }

/-- The port of a ring set: that of its function, none for Heartwood and Sapwood. -/
def ringPort (rs : Nat) : Option Nat := if rs < 64 then some (rs / 32) else none

/-- Bays a port's jobs of a class hold. -/
def portBays (s : State) (cls port : Nat) : Nat :=
  (baysIn s).countP (fun b => (jobsIn s).any (fun e =>
    e.2.cls == cls && ringPort e.2.rs == some port && e.2.phase == .running &&
      (e.2.rend.flying.any (fun x => x.2 == b) || e.2.comp.flying.any (fun x => x.2 == b))))

/-- The bays assured to a port, scaled when fewer are in service than the two shares need (R375). -/
def portShare (s : State) (port : Nat) : Nat :=
  let share (p : Nat) : Nat := s.pf (.hostif p) Reg.HOSTIF_PORT_SHARE 5 0
  let n := (baysIn s).length
  if n < share 0 + share 1 then share port * n / 48 else share port

/-- Jobs of one class that compete for a bay: those of a port below its share go before the other port's (R375). -/
def withinShare (s : State) (cls : Nat) (l : List (Nat × Job)) : List (Nat × Job) :=
  let below (p : Nat) : Bool := decide (portBays s cls p < portShare s p)
  let under := l.filter (fun e => match ringPort e.2.rs with | some p => below p | none => true)
  if under = [] then l else under

/-- The job that is offered work, among some that can use it (R321). -/
def offer (s : State) (bay : Bool) (l : List (Nat × Job)) : Option (Nat × Job × State) :=
  match (List.range 4).find? (fun c => l.any (fun e => e.2.cls == c)) with
  | none => none
  | some c =>
    let l := l.filter (fun e => e.2.cls == c)
    if c ≤ 1 then (firstJob goesBefore l).map (fun e => (e.1, e.2, s))
    else
      let l := if bay then withinShare s c l else l
      let fs := (l.map (fun e => e.2.rs)).eraseDups
      match nextFunc s c fs with
      | none => none
      | some f =>
        (firstJob (fun a b => a.readyAt < b.readyAt) (l.filter (fun e => e.2.rs == f))).map (fun e => (e.1, e.2, served s c fs f))

/-! Work for the bays. -/

/-- Tiles of a job's segment that are neither complete nor in flight; none while its bins are not to be rendered. -/
def tilesLeft (j : Job) : List Nat :=
  let r := j.rend
  if j.op ≠ 1 ∨ !r.geo ∨ (r.stop ≠ r.prims.length ∧ !r.flushing) then []
  else (List.range (tileCount r)).filter (fun t => !r.done.contains t && !r.flying.any (fun e => e.1 == t))

/-- Workgroups still to be dispatched. -/
def groupsLeft (j : Job) : Nat := if j.op = 2 then j.comp.again.length + (j.comp.total - j.comp.nextWg) else 0

/-- A running job has work for a bay. -/
def hasWork (s : State) (j : Job) : Bool :=
  j.phase == .running && !jobStale s j && (tilesLeft j != [] || groupsLeft j != 0)

/-- Tiles or workgroups of a job on a bay, and how many it may hold (R267, R310). -/
def onBay (j : Job) (b : Nat) : Nat :=
  (j.rend.flying.filter (fun e => e.2 == b)).length + (j.comp.flying.filter (fun e => e.2 == b)).length
def bayHolds (j : Job) : Nat := if j.op = 1 then tilesPerBay j.rend else j.comp.perBay

/-- The job whose work a bay holds. -/
def occupant (s : State) (b : Nat) : Option (Nat × Job) := (jobsIn s).find? (fun e => onBay e.2 b != 0)

/-- The jobs that can take a bay's capacity: any with work on an empty bay, else its occupant. -/
def bayTakers (s : State) (b : Nat) : List (Nat × Job) :=
  let l := (jobsIn s).filter (fun e => hasWork s e.2)
  match occupant s b with
  | none => l
  | some (i, j) => if onBay j b < bayHolds j then l.filter (fun e => e.1 == i) else []

/-- A job's first dispatch and its return from preemption (R324, R327). -/
def dispatched (s : State) (j : Job) : Job :=
  let j := { j with started := some (j.started.getD s.devtime) }
  match j.preempted with
  | none => j
  | some t => { j with preempted := none, pausedNs := j.pausedNs + (s.devtime - t) }

/-- One tile or workgroup of a job goes to a bay. -/
def giveBay (s : State) (i : Nat) (j : Job) (b : Nat) : State :=
  let j := dispatched s j
  if j.op = 1 then
    match tilesLeft j with
    | [] => s
    | t :: _ => s.setJob i (some { j with
        rend := { j.rend with flying := j.rend.flying ++ [(t, b)], tileAt := aset 0 j.rend.tileAt t s.devtime } })
  else
    match j.comp.again with
    | w :: r => s.setJob i (some { j with comp := { j.comp with again := r, flying := j.comp.flying ++ [(w, b)] } })
    | [] =>
      if j.comp.nextWg < j.comp.total then
        s.setJob i (some { j with
          comp := { j.comp with nextWg := j.comp.nextWg + 1, flying := j.comp.flying ++ [(j.comp.nextWg, b)] } })
      else s

/-! Preemption (R323). -/

/-- A bay is being released by preempted work. -/
def releasing (s : State) (b : Nat) : Bool := s.sched.preempting.any (fun e => e.1 == b)

/-- Bays in service that hold no work. -/
def idleBays (s : State) : List Nat := (baysIn s).filter (fun b => (occupant s b).isNone)

/-- Bays a job can use at once. -/
def baysUsable (j : Job) : Nat := min 48 (cdiv ((tilesLeft j).length + groupsLeft j) (max 1 (bayHolds j)))

/-- The ready jobs that have no bay and cannot get one otherwise. -/
def starved (s : State) : List (Nat × Job) :=
  if idleBays s ≠ [] then []
  else (jobsIn s).filter (fun e => hasWork s e.2 && e.2.rend.flying.isEmpty && e.2.comp.flying.isEmpty)

/-- Bays that work of a lower class holds: lowest class first, most recently started first. -/
def preemptable (s : State) (cls : Nat) : List (Nat × Nat) :=
  let held := (baysIn s).filterMap (fun b =>
    if releasing s b then none else (occupant s b).map (fun e => (b, e.1, e.2)))
  let lower := held.filter (fun e => cls < e.2.2.cls)
  let rank (j : Job) : Nat × Nat := (j.cls, j.started.getD 0)
  let after (a b : Nat × Nat × Job) : Bool :=
    let x := rank a.2.2
    let y := rank b.2.2
    y.1 < x.1 || (y.1 == x.1 && y.2 ≤ x.2)
  (sortBy after lower).map (fun (e : Nat × Nat × Job) => (e.1, e.2.1))

/-- Preemption for the most urgent starved job: the bays it can use are asked back, beside those asked already. -/
def preempt (s : State) : State :=
  match offer s true (starved s) with
  | none => s
  | some (_, j, _) =>
    let n := baysUsable j - s.sched.preempting.length
    let vs := (preemptable s j.cls).take n
    let jobs := (vs.map (·.2)).eraseDups
    let s := { s with sched := { s.sched with
      preempting := s.sched.preempting ++ vs.map (fun (e : Nat × Nat) => (e.1, e.2, s.devtime)) } }
    s.countBy .sched Reg.SCHED_PREEMPT_COUNT jobs.length

/-- A job that no bay serves any more because of a preemption. -/
def pausedJob (s : State) (j : Job) : Job :=
  if j.rend.flying.isEmpty && j.comp.flying.isEmpty && j.preempted.isNone then { j with preempted := some s.devtime } else j

/-- Compute work stopped on a bay: it runs again later, on any bay. -/
def stopCompute (s : State) (i : Nat) (j : Job) (b : Nat) : State :=
  let ws := (j.comp.flying.filter (fun e => e.2 == b)).map (·.1)
  let keep := j.comp.flying.filter (fun e => e.2 != b)
  let j := { j with cflags := j.cflags ||| 4, comp := { j.comp with flying := keep, again := ws ++ j.comp.again } }
  s.setJob i (some (pausedJob s j))

/-- Bay b is free of the preempted work (R323). -/
def released (s : State) (b : Nat) (since : Nat) : State :=
  let s := { s with sched := { s.sched with preempting := s.sched.preempting.filter (fun e => e.1 != b) } }
  let ns := min (s.devtime - since) 0xFFFFFFFF
  if (s.pr .sched Reg.SCHED_PREEMPT_MAX_NS).toNat < ns then s.setPr .sched Reg.SCHED_PREEMPT_MAX_NS (w32 ns) else s

/-- PREEMPT_DONE (R323): compute work has been saved; render work leaves once its tiles have ended. -/
def execPreemptDone (b : Fin 48) (s : State) : Host.Outcome State Fault Refusal :=
  match s.sched.preempting.find? (fun e => e.1 == b.val) with
  | none => .next s
  | some (_, i, since) =>
    match s.job i with
    | none => .next (released s b since)
    | some j =>
      if j.phase ≠ .running then .next (released s b since)
      else if j.op = 2 then .next (released (stopCompute s i j b) b since)
      else if j.rend.flying.any (fun e => e.2 == b.val) then .next s
      else .next (released (s.setJob i (some (pausedJob s { j with cflags := j.cflags ||| 4 }))) b since)

/-! WORK_DISPATCH (R321). -/

/-- The render front-end runs the geometry phase of the first job in order that has not had it. -/
def frontDispatch (s : State) : State :=
  let l := (jobsIn s).filter (fun e => e.2.op == 1 && e.2.phase == .running && !e.2.rend.geo && !jobStale s e.2)
  match offer s false l with
  | none => s
  | some (i, j, s) =>
    let j := dispatched s j
    match geometry s j with
    | (s, .error (st, d)) => endJobAs s i st d
    | (s, .ok g) =>
      let r := { j.rend with prims := g.prims, states := g.states, nvary := g.nvary, stores := g.stores, geo := true }
      let j := { j with mods := g.mods, rend := { r with stop := segEnd j r 0 } }
      s.setJob i (some j)

/-- A bay takes one tile or workgroup. -/
def bayDispatch (s : State) (b : Nat) : State :=
  if bayFenced s b then s
  else
    let s := preempt s
    if releasing s b then s
    else match offer s true (bayTakers s b) with
      | none => s
      | some (i, j, s) => giveBay s i j b

/-! Workgroups (R310). -/

/-- A shader's inputs for workgroup w: its coordinates and the grid. -/
def groupInputs (j : Job) (w : Nat) : List Nat :=
  let gx := bytesAt j.body 4 4
  let gy := bytesAt j.body 8 4
  [w % gx, w / gx % gy, w / (gx * gy), gx, gy, bytesAt j.body 12 4]

/-- A workgroup leaves flight; the last one ends the job, with FENCED_LOSS after a lost workgroup (R310, R326). -/
def groupDone (s : State) (i : Nat) (j : Job) (w : Nat) : State :=
  let c := { j.comp with flying := j.comp.flying.filter (fun e => e.1 != w), done := j.comp.done + 1 }
  let s := s.setJob i (some { j with comp := c })
  if c.flying ≠ [] then s
  else if j.status = 0x20 then endJobAs s i .fencedLoss (min c.done 0xFFFFFFFF)
  else if c.again = [] ∧ c.nextWg = c.total then endJobAs s i .ok 0
  else s

/-- WORKGROUP_DONE (R310): a workgroup completes on its bay, with everything it computed and wrote. -/
def execWorkgroupDone (slot : Fin 1024) (wg : Nat) (s : State) : Host.Outcome State Fault Refusal :=
  match s.job slot with
  | none => .next s
  | some j =>
    match j.comp.flying.find? (fun e => e.1 == wg) with
    | none => .next s
    | some (_, b) =>
      if j.phase ≠ .running then .next s
      else
        let env : ShEnv := ⟨j, bayAgent b, bytesAt j.body 16 8⟩
        match runShader s env (aget [] j.mods (bytesAt j.body 0 2)) (bytesAt j.body 2 1) (groupInputs j wg) with
        | (s, .error (st, d)) => .next (endJobAs s slot st d)
        | (s, .ok _) => .next (groupDone s slot j wg)

/-- BAY_FENCE (R283): a bay fault of the BAY page. -/
def execBayFence (b : Fin 48) (bit : Fin 3) (s : State) : Host.Outcome State Fault Refusal :=
  .next (raiseFault s (.bay b) bit)

end Sys2Proof.Machine
end

