-- ==== Sys2Proof/Machine/CopyEng.lean ====
section
/-!
DEFINITION. Machine/CopyEng.lean: the copy engine: copies and fills, 8 × 8 pixels of the destination at a time, and its
place in WORK_DISPATCH (R244, R246, R312, R313, R321).
-/
namespace Sys2Proof.Machine

/-- The agent of the copy engine (R7), and its code in the KERF page (R249). -/
def copyAgent : Nat := 0x16
def copySource : Nat := 0x11

/-- A rectangle of pixels. -/
structure Rect where
  x : Nat
  y : Nat
  w : Nat
  h : Nat
deriving DecidableEq, Repr

/-- A rectangle lies in a surface. -/
def Rect.fits (r : Rect) (f : Surf) : Bool := r.x + r.w ≤ f.w && r.y + r.h ≤ f.h

/-- Two rectangles share a pixel. -/
def Rect.meets (a b : Rect) : Bool := a.x < b.x + b.w && b.x < a.x + a.w && a.y < b.y + b.h && b.y < a.y + a.h

/-- Container of a format: XRGB8888 shares that of ARGB8888 (R139, R312). -/
def containerOf (f : Nat) : Nat := if f = 0x02 then 0x01 else f

/-- A decode error of a copy: SOURCE_ERROR with the cause the KERF page has recorded (R246, R312, R327). -/
def sourceFail (s : State) : JErr := (.sourceError, s.pf .kerf Reg.KERF_DEC_ERR_INFO 7 4)

/-- A block of a Kerf operand. -/
def copyBlock (s : State) (j : Job) (f : Surf) (bx by_ : Nat) : State × Except JErr (List Nat) :=
  match kerfReadBlock s (jReader j copyAgent) (kerfSurf f 0 copySource) bx by_ with
  | (s, .ok px) => (s, .ok px)
  | (s, .bad _) => (s, .error (sourceFail s))
  | (s, .err _) => (s, .error memFail)

/-- Words of a run of bytes. -/
def wordRun (n count : Nat) (b : List Nat) : List Nat := (List.range count).map (fun i => bytesAt b (i * n) n)

/-- The pixels of a rectangle of a surface, row by row. -/
def readRect (s : State) (j : Job) (f : Surf) (r : Rect) : State × Except JErr (List (List Nat)) :=
  if f.kind = 0 then
    let n := fmtBytes f.fmt
    jMap (fun s y => jThen (jBytes s j copyAgent (rawAddr f r.x (r.y + y)) (n * r.w)) (fun s b => (s, .ok (wordRun n r.w b))))
      (List.range r.h) s
  else
    let bx0 := r.x / 8
    let by0 := r.y / 8
    let nx := (r.x + r.w - 1) / 8 + 1 - bx0
    let ny := (r.y + r.h - 1) / 8 + 1 - by0
    jThen (jMap (fun s k => copyBlock s j f (bx0 + k % nx) (by0 + k / nx)) (List.range (nx * ny)) s) (fun s bs =>
      let px (x y : Nat) : Nat := (bs.getD ((y / 8 - by0) * nx + (x / 8 - bx0)) []).getD (8 * (y % 8) + x % 8) 0
      (s, .ok ((List.range r.h).map (fun y => (List.range r.w).map (fun x => px (r.x + x) (r.y + y))))))

/-- A byte of memory that reading a rectangle of a surface touches. -/
def readsByte (f : Surf) (r : Rect) (a : Nat) : Bool :=
  if f.kind = 0 then
    (List.range r.h).any (fun y => rawAddr f r.x (r.y + y) ≤ a && a < rawAddr f (r.x + r.w) (r.y + y))
  else
    let k := kerfSurf f 0 0
    r.w != 0 && (List.range ((r.y + r.h + 7) / 8 - r.y / 8)).any (fun n =>
      let by_ := r.y / 8 + n
      let b0 := r.x / 8
      let b1 := (r.x + r.w - 1) / 8
      (k.slotAddr b0 by_ ≤ a && a < k.slotAddr (b1 + 1) by_) || (k.mapAddr b0 by_ ≤ a && a ≤ k.mapAddr b1 by_))

/-- The copy engine's writer: bytes that the source also occupies, through another ADDR, are left undefined: free
values (R312). -/
def copyWriter (j : Job) (lost : Nat → Bool) : Writer := fun s a b =>
  let free := (List.range b.length).filter (fun i => lost (a + i))
  let bytes := (List.range b.length).map (fun i =>
    if lost (a + i) then Config.freeNat (s.fresh + i) % 256 else b.getD i 0)
  let s := if free = [] then s else { s with fresh := s.fresh + b.length }
  jWrite s j copyAgent a (if free = [] then b else bytes)

/-- The part of a rectangle in block (bx, by). -/
def Rect.inBlock (r : Rect) (bx by_ : Nat) : Rect :=
  let x0 := max r.x (8 * bx)
  let y0 := max r.y (8 * by_)
  ⟨x0, y0, min (r.x + r.w) (8 * bx + 8) - x0, min (r.y + r.h) (8 * by_ + 8) - y0⟩

/-- A block with some pixels replaced by rows of new ones. -/
def mergeBlock (old : List Nat) (q : Rect) (bx by_ : Nat) (rows : List (List Nat)) : List Nat :=
  (List.range 64).map (fun i =>
    let x := 8 * bx + i % 8
    let y := 8 * by_ + i / 8
    if q.x ≤ x ∧ x < q.x + q.w ∧ q.y ≤ y ∧ y < q.y + q.h then (rows.getD (y - q.y) []).getD (x - q.x) 0 else old.getD i 0)

/-- Write the new pixels of one block of the destination (R244). -/
def writeBlock (s : State) (j : Job) (f : Surf) (wr : Writer) (q : Rect) (bx by_ : Nat) (rows : List (List Nat)) :
    State × Except JErr Unit :=
  if f.kind = 0 then
    let n := fmtBytes f.fmt
    jFold (fun s _ y =>
      match wr s (rawAddr f q.x (q.y + y)) ((rows.getD y []).flatMap (fun w => leBytes n w)) with
      | (s, .error _) => (s, .error memFail)
      | (s, .ok _) => (s, .ok ())) (List.range q.h) () s
  else
    let old := if q.w = 8 ∧ q.h = 8 then (s, Except.ok []) else copyBlock s j f bx by_
    jThen old (fun s old =>
      match kerfWriteBlock s wr (kerfSurf f 0 copySource) (some f.clear) bx by_ (mergeBlock old q bx by_ rows) with
      | (s, .error _) => (s, .error memFail)
      | (s, .ok _) => (s, .ok ()))

/-- Every block of a rectangle, in raster order; `src` gives its new pixels. -/
def writeRect (s : State) (j : Job) (f : Surf) (wr : Writer) (r : Rect)
    (src : State → Rect → State × Except JErr (List (List Nat))) : State × Except JErr Unit :=
  if r.w = 0 ∨ r.h = 0 then (s, .ok ())
  else
    let nx := (r.x + r.w - 1) / 8 + 1 - r.x / 8
    let ny := (r.y + r.h - 1) / 8 + 1 - r.y / 8
    jFold (fun s _ k =>
      let bx := r.x / 8 + k % nx
      let by_ := r.y / 8 + k / nx
      let q := r.inBlock bx by_
      jThen (src s q) (fun s rows => writeBlock s j f wr q bx by_ rows)) (List.range (nx * ny)) () s

/-- A COPY (R312). -/
def copyRun (s : State) (j : Job) : State × Except JErr Unit :=
  let n (o : Nat) : Nat := bytesAt j.body o 2
  let from_ : Rect := ⟨n 16, n 18, n 24, n 26⟩
  let to_ : Rect := ⟨n 20, n 22, n 24, n 26⟩
  jThen (readSurf s j copyAgent (bytesAt j.body 0 8)) (fun s f =>
    jThen (readSurf s j copyAgent (bytesAt j.body 8 8)) (fun s g =>
      if containerOf f.fmt ≠ containerOf g.fmt ∨ !from_.fits f ∨ !to_.fits g ∨ (f.addr = g.addr ∧ from_.meets to_) then
        (s, .error (.badState, 0))
      else
        let lost (a : Nat) : Bool := f.addr != g.addr && readsByte f from_ a
        writeRect s j g (copyWriter j lost) to_ (fun s q =>
          readRect s j f ⟨from_.x + (q.x - to_.x), from_.y + (q.y - to_.y), q.w, q.h⟩)))

/-- A FILL (R313). -/
def fillRun (s : State) (j : Job) : State × Except JErr Unit :=
  let n (o : Nat) : Nat := bytesAt j.body o 2
  let to_ : Rect := ⟨n 8, n 10, n 12, n 14⟩
  jThen (readSurf s j copyAgent (bytesAt j.body 0 8)) (fun s g =>
    if !to_.fits g then (s, .error (.badState, 0))
    else
      let w := bytesAt j.body 16 8 % 2 ^ (8 * fmtBytes g.fmt)
      writeRect s j g (jWriter j copyAgent) to_ (fun s q => (s, .ok (List.replicate q.h (List.replicate q.w w)))))

/-- The copy engine carries out one job. -/
def copyJob (s : State) (i : Nat) (j : Job) : State :=
  match (if j.op = 0x20 then copyRun s j else fillRun s j) with
  | (s, .error (st, d)) => endJobAs s i st d
  | (s, .ok _) => endJobAs s i .ok 0

/-- The ready jobs of the copy engine. -/
def copyReady (s : State) : List (Nat × Job) :=
  (jobsIn s).filter (fun e => e.2.phase == .ready && (e.2.op == 0x20 || e.2.op == 0x21))

/-- The copy engine takes the first job in order; a command that names a job takes it only where it is that one. -/
def copyDispatch (s : State) (want : Option (Nat × Nat)) : State :=
  match offer s false (copyReady s) with
  | none => s
  | some (i, j, s') =>
    match want with
    | none => copyJob s' i j
    | some (slot, op) => if slot = i ∧ op = j.op then copyJob s' i j else s

/-- COPY (R312). -/
def execCopy (slot : Fin 1024) (s : State) : Host.Outcome State Fault Refusal := .next (copyDispatch s (some (slot, 0x20)))

/-- FILL (R313). -/
def execFill (slot : Fin 1024) (s : State) : Host.Outcome State Fault Refusal := .next (copyDispatch s (some (slot, 0x21)))

/-- WORK_DISPATCH (R321): a bay, the render front-end or the copy engine can take work. -/
def execWorkDispatch (unit : Fin 50) (s : State) : Host.Outcome State Fault Refusal :=
  .next (if unit.val < 48 then bayDispatch s unit else if unit.val = 48 then frontDispatch s else copyDispatch s none)

end Sys2Proof.Machine
end

