-- ==== Sys2Proof/Machine/Owner.lean ====
section
/-!
DEFINITION. Machine/Owner.lean: a change of owner (R74, R75, R77) and Heartwood's claims (R431 to R434).
-/
namespace Sys2Proof.Machine

/-- The shadow set of a page is loaded with the values in force (R75). -/
def reloadShadow (s : State) (p : Page) : State :=
  (shdRegs p).foldl (fun s r => s.setShd r.1 (s.reg r.1)) s

/-- The pending stage of the old owner is discarded: LAST_SEQ takes its SEQ and REJECT is REVOKED (R75). -/
def revokeStage (s : State) (p : Page) : State :=
  match s.pend p with
  | none => s
  | some st => commitResult (s.setPend p none) p st.seq Cause.revoked.code false

/-- OWNER_ID changes: PREV_OWNER takes the old code, the shadow is reloaded, a pending commit is discarded, and
the old owner's later accesses of the cycle find REVOKED (R75, R77). A write of the code in force changes
nothing. -/
def changeOwner (s : State) (p : Page) (code : Nat) : State :=
  let old := s.owner p
  if old = code then s
  else
    let s := (s.setHf p .owner 15 8 old).setHf p .owner 7 0 code
    let s := revokeStage (reloadShadow s p) p
    { s with cyc := { s.cyc with revoked := s.cyc.revoked ++ [(pageBase p, old)] } }

/-- What a claim entry names (R431): pages, or a tone generator. -/
inductive Claimed where
  | pages (ps : List Page)
  | tone (i : Nat)
deriving DecidableEq, Repr

/-- The resource of a KIND and an INDEX; none where the table of R431 has none. -/
def claimTarget (kind index : Nat) : Option Claimed :=
  match kind with
  | 0 =>
    match pageAt (0x1000 * index) with
    | some (p, _) =>
      (match p with
      | .keys | .haptic | .hapch _ | .audio | .legend | .cvu _ => some (.pages [p])
      | _ => none)
    | none => none
  | 1 => if index < 12 then some (.pages [.timing index, .composer index, .dplink index]) else none
  | 2 => if index < 8 then some (.tone index) else none
  | _ => none

/-- A claim register (R439). -/
def claimReg (s : State) (k : Nat) : Word := s.pr .world (Reg.WORLD_CLAIM + 4 * k)

/-- The resource that VALID entry k covers. -/
def claimOf (s : State) (k : Nat) : Option Claimed :=
  let w := claimReg s k
  if fbit w 31 then claimTarget (fget w 29 28) (fget w 13 0) else none

/-- Why a write of VALID = 1 to CLAIMk is refused (R431). -/
def claimCheck (s : State) (k : Nat) (v : Word) : Option Cause :=
  let w := claimReg s k
  match claimTarget (fget v 29 28) (fget v 13 0) with
  | none => some .range
  | some t =>
    if (List.range 32).any (fun j => j != k && claimOf s j == some t) then some .inuse
    else if fbit w 31 && (fget w 29 28 != fget v 29 28 || fget w 13 0 != fget v 13 0) then some .inuse
    else none

/-- The former owner a claim records (R432). -/
def claimPrior (s : State) : Claimed → Nat
  | .pages (p :: _) => s.owner p
  | _ => 0xFF

/-- A resource becomes Heartwood's (R432). -/
def takeClaim (s : State) : Claimed → State
  | .pages ps => ps.foldl (fun s p => changeOwner (s.setHf p .ready 3 3 1) p 0x40) s
  | .tone i => s.setPf .audio (Reg.AUDIO_TONE_STATUS + 32 * i) 31 31 1

/-- A claimed page returns to its own former owner (R433). -/
def releasePage (s : State) (p : Page) : State :=
  let prev := fget (s.hd p .owner) 15 8
  let back := if prev < 64 ∧ ¬ funcExists s prev then 0xFF else prev
  let s := s.setHf p .ready 3 3 0
  let s := (s.setHf p .owner 7 0 back).setHf p .owner 15 8 0x40
  let s := revokeStage (reloadShadow s p) p
  { s with cyc := { s.cyc with revoked := s.cyc.revoked ++ [(pageBase p, 0x40)] } }

/-- A resource leaves Heartwood (R433). -/
def dropClaim (s : State) : Claimed → State
  | .pages ps => ps.foldl releasePage s
  | .tone i => s.setPf .audio (Reg.AUDIO_TONE_STATUS + 32 * i) 31 31 0

/-- VALID = 1 in CLAIMk: a new claim takes effect; one that stands stays as it is (R431, R432). -/
def claimOp (s : State) (k : Nat) (v : Word) : State :=
  if fbit (claimReg s k) 31 then s
  else match claimTarget (fget v 29 28) (fget v 13 0) with
    | none => s
    | some t =>
      let prior := claimPrior s t
      (takeClaim s t).setPr .world (Reg.WORLD_CLAIM + 4 * k)
        (w32 (2 ^ 31 + 2 ^ 28 * fget v 29 28 + 2 ^ 16 * prior + fget v 13 0))

/-- VALID = 0 in CLAIMk: the claim ends, and KIND and INDEX take the values written (R433). -/
def releaseOp (s : State) (k : Nat) (v : Word) : State :=
  let old := claimReg s k
  let s := match claimOf s k with
    | some t => dropClaim s t
    | none => s
  s.setPr .world (Reg.WORLD_CLAIM + 4 * k)
    (w32 (2 ^ 28 * fget v 29 28 + 2 ^ 16 * fget old 23 16 + fget v 13 0))

/-- A write of CLAIMk (R431 to R434). -/
def claimWrite (s : State) (m : Master) (k : Nat) (v : Word) : State :=
  writeReg s m (pageBase .world + Reg.WORLD_CLAIM + 4 * k)
    (fun s => if fbit v 31 then claimCheck s k v else none)
    (fun s => if fbit v 31 then claimOp s k v else releaseOp s k v)

/-- CLAIM (R432). -/
def execClaim (m : Master) (k : Fin 32) (value : Word) (s : State) : Host.Outcome State Fault Refusal :=
  .next (claimWrite s m k (fsetb value 31 true))

/-- CLAIM_RELEASE (R433). -/
def execClaimRelease (m : Master) (k : Fin 32) (value : Word) (s : State) : Host.Outcome State Fault Refusal :=
  .next (claimWrite s m k (fsetb value 31 false))

end Sys2Proof.Machine
end

