-- ==== Sys2Proof/Machine/Cores.lean ====
section
/-!
DEFINITION. Machine/Cores.lean: the control complex: entering and leaving the monitor, interrupts, budget,
watchdog, core faults, the SAFE_OK relay, and the steps of a Heartwood restart (R407 to R440).
-/
namespace Sys2Proof.Machine

/-! Traps of a core. -/

/-- Register values that hardware puts in a0 in place of the monitor's answer (R418, R437). -/
def unavailable : Nat := 0xFFFFFFFFFFFFFF02

/-- The level in ISO_LEVEL for core c (R422). -/
def isoField (s : State) (c : Nat) : Nat := fget (s.pr .world Reg.WORLD_ISO_LEVEL) (2 * c + 1) (2 * c)

/-- The base of a trap vector register and, for a vectored interrupt, the place of its cause (RISC-V). -/
def trapTarget (tvec : Nat) (interrupt : Option Nat) : Nat :=
  let base := tvec / 4 * 4
  match interrupt with
  | some k => if tvec % 4 = 1 then base + 4 * k else base
  | none => base

/-- Core c traps into M-mode from a mode: the saved registers, the world bit, and the record of a secure entry
where the core came from world 0 (R408, R418, R437). -/
def trapM (s : State) (c : Nat) (mode : CoreMode) (epc cause tval pc : Nat) : State :=
  let k := s.core c
  let was := worldBit s c
  let k := { k with
    mepc := epc, mcause := cause, mtval := tval, mpp := mode, mpie := k.mie, mie := false, mode := .m, pc := pc }
  let k := if was then k
    else { k with entryPc := epc, entryMode := mode, entryAt := s.devtime, iso := isoField s c }
  setWorld (s.setCore c k) c true

/-- Core c traps into HS-mode (R423, RISC-V). -/
def trapS (s : State) (c : Nat) (mode : CoreMode) (epc cause tval pc : Nat) : State :=
  let k := s.core c
  s.setCore c { k with
    sepc := epc, scause := cause, stval := tval, spp := mode, spie := k.sie, sie := false, mode := .hs, pc := pc }

/-- A synchronous exception raised in M-mode (R436): the core traps, fault bit 2, and a restart. -/
def monitorException (s : State) (c pc cause tval : Nat) : State :=
  let s := trapM s c .m pc cause tval (trapTarget (s.core c).mtvec none)
  hwRestart (raiseFault s .world 2) 3

/-- An exception of an instruction that core c may not execute in its mode (R417): code 2 illegal instruction, 22
virtual instruction. In M-mode it is a monitor fault; elsewhere it goes to HS-mode where medeleg delegates it and
the core is a shared one, and to M-mode otherwise. What mtval or stval takes, RISC-V leaves to the core: a free
value. -/
def illegal (s : State) (c : Nat) (mode : CoreMode) (pc code : Nat) : State :=
  let (tval, s) := s.draw
  match mode with
  | .m => monitorException s c pc code tval
  | _ =>
    let k := s.core c
    if !isHwCore s c && bit k.medeleg code then trapS s c mode pc code tval (trapTarget k.stvec none)
    else trapM s c mode pc code tval (trapTarget k.mtvec none)

/-- The exception of WCALL or WRET outside the places of R417. -/
def worldIllegal (s : State) (c : Nat) (mode : CoreMode) (pc : Nat) : State :=
  match mode with
  | .vs | .vu => illegal s c mode pc 22
  | _ => illegal s c mode pc 2

/-- A core can be executing in a mode: Heartwood cores have M and U only, and the world bit of a shared core is 1
in M-mode alone (R408). -/
def modeFits (s : State) (c : Nat) (mode : CoreMode) : Bool :=
  if isHwCore s c then mode == .m || mode == .u else worldBit s c == (mode == .m)

/-- The monitor takes no call: a restart is under way, or Safe with Heartwood at fault (R418). -/
def monitorShut (s : State) : Bool := restarting s || (s.mode.mode == .safe && s.safe.hwAtFault)

/-- WCALL in HS-mode of a shared core (R418). -/
def wcallEnter (s : State) (c pc : Nat) : State :=
  if monitorShut s then
    let k := s.core c
    s.setCore c { k with mode := .hs, pc := pc + 4, x := k.x.set 10 unavailable }
  else trapM s c .hs (pc + 4) 24 0 (s.pair .world Reg.WORLD_WCALL_VECTOR_LO)

/-- WCALL (R416 to R418). -/
def execWcall (c : Fin 8) (mode : CoreMode) (pc : BitVec 64) (s : State) : Host.Outcome State Fault Refusal :=
  if !coreRuns s c || !modeFits s c mode then .next s
  else if mode = .hs then .next (wcallEnter s c pc.toNat)
  else .next (worldIllegal s c mode pc.toNat)

/-- A WRET of core c scrubs (R420). -/
def wretScrubs (s : State) (c : Nat) : Bool :=
  fbit (s.pr .world Reg.WORLD_WORLD_CTRL) 0 || s.mode.mode == .survey || s.surv.step == .bist || (s.core c).firstWret

/-- WRET in M-mode of a shared core: an mret that clears the world bit (R419, R420, R422). -/
def wretReturn (s : State) (c pc : Nat) : State :=
  let k := s.core c
  if k.mpp = .m then illegal s c .m pc 2
  else
    let k := if wretScrubs s c then scrub k else k
    let k := { k with mode := k.mpp, pc := k.mepc, mie := k.mpie, mpie := true, mpp := .u, firstWret := false, iso := isoField s c }
    setWorld (s.setCore c k) c false

/-- WRET (R416, R417, R419). -/
def execWret (c : Fin 8) (mode : CoreMode) (pc : BitVec 64) (s : State) : Host.Outcome State Fault Refusal :=
  if !coreRuns s c || !modeFits s c mode then .next s
  else if mode = .m ∧ isHwCore s c = false then .next (wretReturn s c pc.toNat)
  else .next (worldIllegal s c mode pc.toNat)

/-! Interrupts (R423 to R425). -/

/-- The core that a secure interrupt is delivered to (R423, R424). -/
def secureTarget (s : State) : Option Nat :=
  if monitorShut s then none
  else (keysWhere 8 (fun c => bit (s.pf .world Reg.WORLD_SEC_IRQ_TARGET 7 0) c && coreRuns s c)).head?

/-- SECURE_IRQ_TAKEN (R423, R424): a machine external interrupt of the target core. -/
def execSecureIrqTaken (s : State) : Host.Outcome State Fault Refusal :=
  match secureTarget s with
  | none => .next s
  | some c =>
    if irqNext s secureSource = 0 then .next s
    else
      let k := s.core c
      .next (trapM s c k.mode k.pc (2 ^ 63 + 11) 0 (trapTarget k.mtvec (some 11)))

/-- NORMAL_IRQ_TAKEN (R423, R424): a supervisor external interrupt of a shared core in world 0. -/
def execNormalIrqTaken (c : Fin 8) (s : State) : Host.Outcome State Fault Refusal :=
  let k := s.core c
  if isHwCore s c || worldBit s c || !coreRuns s c || !bit (s.pf .ctrlcplx Reg.CTRLCPLX_SAP_IRQ_TARGET 7 0) c ||
      irqNext s normalSource == 0 then .next s
  else .next (trapS s c k.mode k.pc (2 ^ 63 + 9) 0 (trapTarget k.stvec (some 9)))

/-! Budget, watchdog and core faults (R428 to R430, R436). -/

/-- Core c has stayed in world 1 for HW_BUDGET (R428). -/
def budgetOver (s : State) (c : Nat) : Bool :=
  (s.core c).entryAt + 1000 * s.pf .world Reg.WORLD_HW_BUDGET 15 0 ≤ s.devtime

/-- The watchdog count of core c has run out (R429). -/
def wdogOver (s : State) (c : Nat) : Bool :=
  (s.core c).kickAt + 1000000 * s.pf .world Reg.WORLD_WDOG 31 16 ≤ s.devtime

/-- HW_BUDGET_EXPIRY (R428): a hang. -/
def execHwBudgetExpiry (c : Fin 8) (s : State) : Host.Outcome State Fault Refusal :=
  if isHwCore s c || !worldBit s c || !coreRuns s c || !budgetOver s c then .next s
  else .next (hwRestart (raiseFault s .world 1) 1)

/-- WDOG_EXPIRY (R429): a hang of a Heartwood core; the counts stop during a restart. -/
def execWdogExpiry (c : Fin 8) (s : State) : Host.Outcome State Fault Refusal :=
  if !isHwCore s c || !coreRuns s c || restarting s || !wdogOver s c then .next s
  else .next (hwRestart (raiseFault s .world 1) 2)

/-- A write of WDOG in range (R439). -/
def wdogCheck (v : Word) : Option Cause := if fget v 31 16 = 0 then some .range else none

/-- A write of WDOG: MS, and every kicked Heartwood core's count starts again (R429). -/
def wdogOp (s : State) (v : Word) : State :=
  let s := s.setPr .world Reg.WORLD_WDOG (w32 (65536 * fget v 31 16))
  (List.range 8).foldl (fun s c =>
    if fbit v c && isHwCore s c then s.setCore c { s.core c with kickAt := s.devtime } else s) s

/-- KICK (R429). -/
def execKick (m : Master) (value : Word) (s : State) : Host.Outcome State Fault Refusal :=
  .next (writeReg s m (pageBase .world + Reg.WORLD_WDOG) (fun _ => wdogCheck value) (fun s => wdogOp s value))

/-- MONITOR_FAULT (R436): a synchronous exception in M-mode; its cause and value are free. -/
def execMonitorFault (c : Fin 8) (s : State) : Host.Outcome State Fault Refusal :=
  if !coreRuns s c || !worldBit s c then .next s
  else
    let (cause, s) := s.draw
    let (tval, s) := s.draw
    .next (monitorException s c (s.core c).pc cause tval)

/-- CORE_PARITY (R430). -/
def execCoreParity (c : Fin 8) (s : State) : Host.Outcome State Fault Refusal :=
  .next (if coreFenced s c then s else raiseFault s .ctrlcplx c)

/-! The restart (R436 to R438). -/

/-- HW_CTRL_RESTART (R436 code 0x5). -/
def execHwCtrlRestart (m : Master) (value : Word) (s : State) : Host.Outcome State Fault Refusal :=
  .next (writeReg s m (pageBase .world + Reg.WORLD_HW_CTRL) (fun _ => none)
    (fun s => if fbit value 0 then hwRestart s 5 else s))

/-- HW_QUIESCED (R437 step 3): the Heartwood accesses have drained, and clearing starts. -/
def execHwQuiesced (s : State) : Host.Outcome State Fault Refusal :=
  .next (if s.cpx.step = .quiesce then { s with cpx := { s.cpx with step := .clear } } else s)

/-- Zero a region of memory, 4 KiB at a time, as the measurement engine (R410, R437). -/
def zeroRange (s : State) (a len : Nat) : State :=
  (List.range (cdiv len 4096)).foldl (fun s i =>
    (busWrite s 0x19 true (a + 4096 * i) (List.replicate (min 4096 (len - 4096 * i)) 0)).1) s

/-- HW_CLEAR_DONE (R437 step 4): the CLEAR regions and secure SRAM hold zeros. -/
def execHwClearDone (s : State) : Host.Outcome State Fault Refusal :=
  if s.cpx.step = .clear then
    let s := zeroRange (s.cpx.manifest.clear.foldl (fun s r => zeroRange s r.1 r.2) s) 0x1010000000 1048576
    .next { s with cpx := { s.cpx with step := .measure } }
  else .next s

/-- The bytes of the MEASURE regions, in manifest order (R437 step 5). -/
def measureBytes (s : State) : List (Nat × Nat) → State × Except AccErr (List Nat)
  | [] => (s, .ok [])
  | r :: rs =>
    match busRead s 0x19 true r.1 r.2 with
    | (s, .error e) => (s, .error e)
    | (s, .ok b) =>
      match measureBytes s rs with
      | (s, .error e) => (s, .error e)
      | (s, .ok bs) => (s, .ok (b ++ bs))

/-- The measurement of Heartwood: whether the digest matches the manifest's (R437 step 5). -/
def measure (s : State) : State × Bool :=
  match measureBytes s s.cpx.manifest.measure with
  | (s, .error _) => (s, false)
  | (s, .ok b) => (s, Config.sha384 b == s.cpx.manifest.digest)

/-- The Heartwood cores start at RESET_VECTOR in world 1 (R437 step 6). -/
def releaseHeartwood (s : State) : State :=
  (List.range 8).foldl (fun s c =>
    if isHwCore s c && !coreFenced s c then
      let k : CoreSt := { pc := s.pair .world Reg.WORLD_RESET_VECTOR_LO, mode := .m, inReset := false, kickAt := s.devtime }
      setWorld (s.setCore c k) c true
    else s.setCore c { s.core c with firstWret := true }) s

/-- The first measurement after release has ended (R530, R543): the Heartwood cores start and WORLD and CTRLCPLX
become READY; or Surveyor logs it and turns to the other bank, and with none left MEASURE_FAIL is set. -/
def bootMeasured (s : State) (ok : Bool) : State :=
  if ok then
    let s := releaseHeartwood { s with surv := { s.surv with hwLoaded := true } }
    let s := { s with safe := { s.safe with kickAt := s.devtime } }
    (s.setReady .world).setReady .ctrlcplx
  else
    let s := s.logAdd .image 0 0x104 0
    if s.surv.hwTried.length < 2 then s else raiseFault s .world 3

/-- HW_MEASURE_DONE (R437 steps 6 and 7, R435, R543). -/
def execHwMeasureDone (s : State) : Host.Outcome State Fault Refusal :=
  if s.cpx.step ≠ .measure then .next s
  else
    let (s, ok) := measure s
    let s := { s with cpx := { s.cpx with step := .idle } }
    if !s.surv.hwLoaded then .next (bootMeasured s ok)
    else if ok then
      let s := releaseHeartwood s
      let s := s.setPf .world Reg.WORLD_HW_CTRL 31 31 0
      let s := { s with safe := { s.safe with kickAt := s.devtime } }
      .next ((s.event .world 0).event .ctrlcplx 4)
    else .next (raiseFault s .world 3)

/-! The SAFE_OK relay (R435). -/

/-- A write of SAFE_OK in range (R439). -/
def safeOkCheck (v : Word) : Option Cause := if fget v 31 16 = 0 then some .range else none

/-- A write of SAFE_OK: PERIOD_MS and OK; setting OK, or a kick, starts the period (R435). -/
def safeOkOp (s : State) (v : Word) : State :=
  let was := fbit (s.pr .world Reg.WORLD_SAFE_OK) 0
  let s := s.setPr .world Reg.WORLD_SAFE_OK (w32 (65536 * fget v 31 16 + fget v 0 0))
  let s := if fbit v 1 || (!was && fbit v 0) then { s with safe := { s.safe with kickAt := s.devtime } } else s
  relayUpdate s

/-- A write of SAFE_OK. -/
def safeOkWrite (s : State) (m : Master) (v : Word) : State :=
  writeReg s m (pageBase .world + Reg.WORLD_SAFE_OK) (fun _ => safeOkCheck v) (fun s => safeOkOp s v)

/-- SAFE_OK_SET (R435). -/
def execSafeOkSet (m : Master) (value : Word) (s : State) : Host.Outcome State Fault Refusal :=
  .next (safeOkWrite s m (fsetb value 0 true))

/-- SAFE_OK_KICK (R435). -/
def execSafeOkKick (m : Master) (value : Word) (s : State) : Host.Outcome State Fault Refusal :=
  .next (safeOkWrite s m (fsetb value 1 true))

/-- No kick has come within PERIOD_MS (R435). -/
def kickOver (s : State) : Bool :=
  s.safe.kickAt + 1000000 * s.pf .world Reg.WORLD_SAFE_OK 31 16 ≤ s.devtime

/-- SAFE_OK_EXPIRED (R435): the period runs only while OK = 1 and no restart is under way. -/
def execSafeOkExpired (s : State) : Host.Outcome State Fault Refusal :=
  if fbit (s.pr .world Reg.WORLD_SAFE_OK) 0 && !restarting s && kickOver s then
    let s := relayUpdate (s.setPf .world Reg.WORLD_SAFE_OK 0 0 0)
    .next (raiseFault (s.event .world 1) .world 5)
  else .next s

end Sys2Proof.Machine
end

