-- ==== Sys2Proof/Machine/SoftReset.lean ====
section
/-!
DEFINITION. Machine/SoftReset.lean: what a block's reset returns to reset values and what it leaves (R49); units that
re-initialise use it as well (R535).
-/
namespace Sys2Proof.Machine

/-- Offsets of a page that report device-wide state held outside the block, which its reset leaves (R49). The DEV list
is the rule's; for the other pages DEDUCED from what holds each register's truth. -/
def keepsReg (p : Page) (o : Nat) : Bool :=
  match p with
  | .dev => ¬ (Reg.DEV_SAFE_BG0 ≤ o ∧ o ≤ Reg.DEV_SAFE_BORDER1)
  | .clkpwr => o == Reg.CLKPWR_GCLK_STATUS || o == Reg.CLKPWR_SAG_STATUS
  | .fabric => o == Reg.FABRIC_LINK_SPARED_LO || o == Reg.FABRIC_LINK_SPARED_HI
  | .renderFe => o ≤ Reg.RENDERFE_BAY_AVAIL
  | .memctl => o ≤ Reg.MEMCTL_CHAN_MAP || (Reg.MEMCTL_SCRUB_PASSES < o && o ≤ Reg.MEMCTL_SCRUB_POS)
  | .memch _ => o == Reg.MEMCH_CH_STATUS || o == Reg.MEMCH_TEMP
  | .shim => true
  | .hostif _ => o ≤ Reg.HOSTIF_SRIOV
  | .func _ => o == Reg.FUNC_FUNC_STATUS
  | .haptic => o == Reg.HAPTIC_RAIL_STATUS
  | .ctrlcplx => o == Reg.CTRLCPLX_CORE_STATUS
  | .world =>
    (Reg.WORLD_CORE_CFG ≤ o && o ≤ Reg.WORLD_HW_WATERMARK) || (Reg.WORLD_WCALL_VECTOR_LO ≤ o && o ≤ Reg.WORLD_RESET_VECTOR_HI) ||
      o == Reg.WORLD_HW_CTRL || o == Reg.WORLD_CORE_WORLD || (Reg.WORLD_CLAIM ≤ o && o < Reg.WORLD_CLAIM + 128)
  | _ => false

/-- What a block holds beside its registers, at reset. -/
def resetHidden (s : State) (p : Page) : State :=
  match p with
  | .timing n => if (s.head n).pll = .off then s else stopGenerator s n .stopping
  | .composer n =>
    let s := invalidateWhere s n 9 (fun _ => true)
    s.setHead n { s.head n with
      flips := [], bandCommits := [], lines := [], palettes := [], paletteWait := [], inUse := [], retires := [],
      fillFrom := [], faultRetire := [], oneBand := false }
  | .dplink n => s.setHead n { s.head n with candidates := [], auxQueued := false, auxTries := 0, auxDrop := 0 }
  | .veneer => (List.range 12).foldl (fun s n => s.setHead n { s.head n with runs := [] }) s
  | .legend => { s with legend := {} }
  | .sched => { s with sched := { s.sched with jobs := [], trans := [], preempting := [], loads := 0 } }
  | .func k => s.setRing k {}
  | .ctrlcplx => s.setRing 65 {}
  | .world => s.setRing 64 {}
  | .keys => { s with keys := [], keyWait := [], scans := [] }
  | .hapch ch => s.setHap ch {}
  | .audio => s.setAudio {}
  | .cvu u => { s with cvus := aset {} s.cvus u {} }
  | .surveyorMb => { s with surv := { s.surv with replies := [], resetAfter := none } }
  | .legacy => if legacyOn s then b4ResetOp s else s
  | _ => s

/-- The registers of a page that a reset returns to their reset values: the block's own, its shadow registers,
IRQ_STATUS and CTRL (R49). -/
def resetRegs (s : State) (p : Page) : State :=
  let b := pageBase p
  let stays (a : Nat) : Bool :=
    a < b || b + pageSize p ≤ a || (a - b < pageBody p && a != hadr p .ctrl && a != hadr p .irqStatus) ||
      (pageBody p ≤ a - b && keepsReg p (a - b))
  { s with regs := s.regs.filter (fun e => stays e.1), shadow := s.shadow.filter (fun e => stays e.1) }

/-- A block returns to reset: registers, what it holds beside them, and its pending commit, which is discarded with
LAST_SEQ unchanged (R49). HPD and the claim of a tone generator are levels from outside the block. -/
def resetBlock (s : State) (p : Page) : State :=
  let hpd := match p with | .dplink n => s.pf (.dplink n) Reg.DPLINK_LINK_STATUS 31 31 | _ => 0
  let tones := (List.range 8).map (toneClaimed s)
  let s := if (s.pend p).isSome then
      (s.setPend p none).setHd p .commitStatus (fsetb (s.hd p .commitStatus) 0 false)
    else s
  let s := resetHidden (resetRegs s p) p
  match p with
  | .dplink n => s.setPf (.dplink n) Reg.DPLINK_LINK_STATUS 31 31 hpd
  | .audio => (List.range 8).foldl (fun s i =>
      if tones.getD i false then s.setPf .audio (Reg.AUDIO_TONE_STATUS + 32 * i) 31 31 1 else s) s
  | _ => s

/-- The start of a soft reset: the block is reset, BUSY = 1 with REASON 0x07 while it runs (R46, R49). -/
def softResetOp (s : State) (p : Page) : State := (resetBlock s p).setBusy p true |>.setHf p .ready 15 8 7

/-- Why a write of CTRL is refused (R48): ENABLE = 0 where it has no function, ENABLE = 1 while a disable drains or a
soft reset runs, or what the block's chapter names. A write with SOFT_RESET = 1 leaves ENABLE at 0 (R49). -/
def ctrlCheck (s : State) (p : Page) (v : Word) : Option Cause :=
  if !enableHasFunction p then (if fbit v 0 then none else some .range)
  else if !fbit v 0 then none
  else if fbit v 1 then enableCheck s p
  else ctrlOnCheck s p

/-- A write of CTRL takes effect (R48, R49). -/
def ctrlOp (s : State) (p : Page) (v : Word) : State :=
  if fbit v 1 then softResetOp s p
  else
    let s := s.setHf p .ctrl 8 8 (fget v 8 8)
    if !enableHasFunction p then s
    else if fbit v 0 then (if s.enabled p then s else ctrlOnOp s p)
    else ctrlOffOp s p

/-- A write of CTRL of a page with a common header. -/
def ctrlWrite (s : State) (m : Master) (p : Page) (v : Word) : State :=
  writeReg s m (hadr p .ctrl) (fun s => ctrlCheck s p v) (fun s => ctrlOp s p v)

/-- SOFT_RESET (R48, R49): a write of CTRL with SOFT_RESET = 1. -/
def execSoftReset (m : Master) (p : Page) (value : Word) (s : State) : Host.Outcome State Fault Refusal :=
  .next (if !pageOk p || pageBody p ≠ 0x100 then s else ctrlWrite s m p (fsetb value 1 true))

/-- SOFT_RESET_DONE (R49): BUSY clears. A HEAD_TIMING page completes with its PLL (PLL_STOPPED) unless that is off. -/
def execSoftResetDone (p : Page) (s : State) : Host.Outcome State Fault Refusal :=
  let waits := match p with | .timing n => (s.head n).pll == .stopping | _ => false
  .next (if pageOk p && softResetting s p && !waits then (s.setBusy p false).setHf p .ready 15 8 0 else s)

end Sys2Proof.Machine
end

