-- ==== Sys2Proof/Machine/Faults.lean ====
section
/-!
DEFINITION. Machine/Faults.lean: faults that a page detects by itself, the hardwired parity line, SAFE_REQUEST, fault
injection (R57, R58, R496, R505, R519 to R521), the fabric links (R14, R599), and the statistics slots (R250).
-/
namespace Sys2Proof.Machine

/-- The page's fault bit b is defined (R495). -/
def faultDefined (p : Page) (b : Nat) : Bool := b < (faultBits p).length

/-- A page with the common header that is there and in service. -/
def faultable (s : State) (p : Page) : Bool :=
  s.mode.mode != .held && pageOk p && pageBody p == 0x100 && !s.fenced p

/-- The counter register that counts a fault (R520). -/
def faultCounter (p : Page) (b : Nat) : Option Nat :=
  match p, b with
  | .fabric, 0 => some Reg.FABRIC_REPLAY_COUNT
  | .clkpwr, 0 => some Reg.CLKPWR_SAG_COUNT
  | .kerf, 0 => some Reg.KERF_DEC_ERR_COUNT
  | .memctl, 0 => some Reg.MEMCTL_UE_TOTAL
  | .memctl, 1 => some Reg.MEMCTL_CE_TOTAL
  | .memch _, 0 => some Reg.MEMCH_CE_COUNT
  | .memch _, 1 => some Reg.MEMCH_UE_COUNT
  | .memch _, 3 => some Reg.MEMCH_FORCED_REFAB
  | .xlate, 0 => some Reg.XLATE_CACHE_PARITY
  | .hostif _, 1 => some Reg.HOSTIF_MALFORMED_COUNT
  | .hostif _, 2 => some Reg.HOSTIF_POISONED_COUNT
  | .hostif _, 3 => some Reg.HOSTIF_CPL_TIMEOUT_COUNT
  | .keys, 2 => some Reg.KEYS_EVENTS_LOST
  | .audio, 0 => some Reg.AUDIO_SRC_ERROR
  | _, _ => none

/-- A fault bit is set as by its fault, with its counter. -/
def countedFault (s : State) (p : Page) (b : Nat) : State :=
  let s := match faultCounter p b with
    | some o => s.count p o
    | none => s
  raiseFault s p b

/-- What a fault does to the item it damages, where no row of its own does it: a job slot completes (R287, R329), the
rings of a function stop (R384), a translation cache entry is dropped (R404), a port's keys start again (R459), a gain
or sink word reads as 0 (R494), a B4 register returns to its reset value (R582). -/
def faultItem (s : State) (p : Page) (b item : Nat) : State :=
  let running : Bool := match s.job item with | some j => j.phase != .ended | none => false
  match p, b with
  | .sched, 0 | .sched, 1 => if running then endJobAs s item .internal 0 else s
  | .renderFe, 0 => if running then endJobAs s item .rasterError 0 else s
  | .func k, 1 => (List.range 5).foldl (fun s r => if ringOn s k r then stopRing s k r 9 (if r = 4 then ringTail s k 4 else ringHead s k r) else s) s
  | .xlate, 0 =>
    let x := s.xlate
    let n := x.s2.length
    { s with xlate := { x with s2 := x.s2.eraseIdx item, s1 := if n ≤ item then x.s1.eraseIdx (item - n) else x.s1 } }
  | .hapch ch, 3 => hapStop s ch
  | .audio, 1 => s.setAudio { s.audio with badWords := (s.audio.badWords ++ [item]).eraseDups }
  | .legacy, 1 => if legacyOn s then s.setB4 item (b4Rst item) else s
  | _, _ => s

/-- FAULT_RAISED (R495 to R497): a page detects fault b. -/
def execFaultRaised (p : Page) (b : Fin 32) (item : Nat) (s : State) : Host.Outcome State Fault Refusal :=
  .next (if !faultable s p || !faultDefined p b then s
    else match p, b.val with
      | .keys, 1 => senseParity s (item % 4)
      | _, _ => countedFault (faultItem s p b item) p b)

/-- A fault header register of a page fails parity: Safe through the hardwired line (R58, R503, R504). -/
def headerFails (s : State) (p : Page) (r : Nat) : State := enterSafe s true p r 4 (p == .world)

/-- HEADER_PARITY_ERROR (R58). -/
def execHeaderParityError (p : Page) (r : Fin 7) (s : State) : Host.Outcome State Fault Refusal :=
  .next (if pageOk p && pageBody p == 0x100 then headerFails s p (9 + r.val) else s)

/-- The check of SAFE_REQUEST (R505). -/
def safeRequestCheck (v : Word) : Option Cause := if v = 0x00005AFE then none else some .range

/-- SAFE_REQUEST (R505). -/
def execSafeRequest (m : Master) (value : Word) (s : State) : Host.Outcome State Fault Refusal :=
  .next (writeReg s m (pageBase .dev + Reg.DEV_SAFE_REQUEST) (fun _ => safeRequestCheck value) (fun s => raiseFault s .dev 0))

/-! Injection (R57, R519 to R521). -/

/-- The page lists the KIND (R520). -/
def kindListed (p : Page) (kind : Nat) : Bool :=
  kind == 1 || kind == 2 ||
    match p with
    | .fabric => 0x10 ≤ kind && kind ≤ 0x13
    | .hostif _ => kind == 0x20
    | .dplink _ => kind == 0x30
    | .memch _ => 0x40 ≤ kind && kind ≤ 0x42
    | .bay _ => kind == 0x50
    | .keys => kind == 0x60 || kind == 0x61
    | .legend => kind == 0x70
    | .veneer => kind == 0x71
    | _ => false

/-- A link number of the FABRIC page (R599). -/
def linkOk (k : Nat) : Bool := k ≤ 0x1A || (0x20 ≤ k && k ≤ 0x27)

/-- TARGET and PARAM name something (R520). DEDUCED: R520 states the range of each. -/
def targetOk (p : Page) (kind target param : Nat) : Bool :=
  if kind = 1 then faultDefined p target
  else if kind = 2 then 9 ≤ target && target ≤ 15
  else if 0x10 ≤ kind ∧ kind ≤ 0x13 then linkOk target
  else if kind = 0x40 ∨ kind = 0x42 then target < 64 && param < 8
  else if kind = 0x41 then target < 64
  else if kind = 0x60 ∨ kind = 0x61 then 1 ≤ param
  else if kind = 0x71 then target < 12
  else true

/-- Why a write of FAULT_INJECT is refused (R57, R520). -/
def injectCheck (s : State) (p : Page) (v : Word) : Option Cause :=
  if !fbit (s.pr .dev Reg.DEV_INJECT) 0 then some .mode
  else if fbit v 31 && !(kindListed p (fget v 15 8) && targetOk p (fget v 15 8) (fget v 7 0) (fget v 23 16)) then some .range
  else none

/-- The effect of FAULT_INJECT: ARM, PARAM, KIND and TARGET as written, FIRED cleared by 1 (R57). -/
def injectOp (s : State) (p : Page) (v : Word) : State :=
  let fired := fbit (s.hd p .inject) 30 && !fbit v 30
  s.setHd p .inject ((v &&& 0x80FFFFFF) ||| w32 (2 ^ 30 * b2n fired))

/-- FAULT_INJECT_ARM (R57, R519 to R521). -/
def execFaultInjectArm (m : Master) (p : Page) (value : Word) (s : State) : Host.Outcome State Fault Refusal :=
  let v := fsetb value 31 true
  .next (if pageOk p && pageBody p == 0x100 then writeReg s m (hadr p .inject) (fun s => injectCheck s p v) (fun s => injectOp s p v)
    else s)

/-- SET_FAULT (R520): no item is damaged. -/
def execSetFault (p : Page) (s : State) : Host.Outcome State Fault Refusal :=
  .next (if !faultable s p then s
    else match armed s p 0x01 with
      | none => s
      | some (b, _) => countedFault (fireInject s p) p b)

/-- HEADER_PARITY (R520). -/
def execHeaderParity (p : Page) (s : State) : Host.Outcome State Fault Refusal :=
  .next (if !faultable s p then s
    else match armed s p 0x02 with
      | none => s
      | some (r, _) => headerFails (fireInject s p) p r)

/-! The fabric (R14, R599). -/

/-- LINK_INFO takes a link fault. -/
def linkInfo (s : State) (link : Nat) : State :=
  let a := pageBase .fabric + Reg.FABRIC_LINK_INFO
  (s.setPf .fabric Reg.FABRIC_LINK_INFO 7 0 link).hwBits a (2 ^ 31)

/-- The word and bit of LINK_SPARED for a link. -/
def sparedAt (link : Nat) : Nat × Nat :=
  if link < 32 then (Reg.FABRIC_LINK_SPARED_LO, link) else (Reg.FABRIC_LINK_SPARED_HI, link - 32)

/-- A packet on a link needs `failed` transmissions more than one; the fourth failure exhausts the replays. -/
def linkReplay (s : State) (link failed : Nat) : State :=
  if !linkOk link ∨ failed = 0 then s
  else if failed < 4 then raiseFault (linkInfo (s.count .fabric Reg.FABRIC_REPLAY_COUNT) link) .fabric 0
  else
    let (o, k) := sparedAt link
    if s.pf .fabric o k k = 1 then raiseFault (linkInfo s link) .fabric 2
    else raiseFault (linkInfo (s.setPf .fabric o k k 1) link) .fabric 1

/-- LINK_REPLAY (R14, R599). -/
def execLinkReplay (link : Fin 40) (failed : Fin 5) (s : State) : Host.Outcome State Fault Refusal :=
  .next (if s.mode.mode = .held then s else linkReplay s link failed)

/-- An armed FABRIC injection of a KIND is carried out on its link. -/
def fabricInject (s : State) (kind : Nat) (f : State → Nat → Nat → State) : State :=
  match armed s .fabric kind with
  | none => s
  | some (t, n) => f (fireInject s .fabric) t n

/-- A lost or misplaced packet: the spec does not say whether the link notices it as a link error; free. -/
def packetAstray (s : State) (link : Nat) : State :=
  let (v, s) := s.draw
  if v % 2 = 0 then s else linkReplay s link 1

/-- DROP (R520, KIND 0x10). -/
def execDrop (s : State) : Host.Outcome State Fault Refusal :=
  .next (fabricInject s 0x10 (fun s link _ => packetAstray s link))

/-- CORRUPT (R14, R520, KIND 0x11). -/
def execCorrupt (s : State) : Host.Outcome State Fault Refusal :=
  .next (fabricInject s 0x11 (fun s link _ => linkReplay s link 1))

/-- REORDER (R520, KIND 0x12). -/
def execReorder (s : State) : Host.Outcome State Fault Refusal :=
  .next (fabricInject s 0x12 (fun s link _ => packetAstray s link))

/-- BURST (R14, R520, KIND 0x13). -/
def execBurst (s : State) : Host.Outcome State Fault Refusal :=
  .next (fabricInject s 0x13 (fun s link n => linkReplay s link (min 4 (n + 1))))

/-! The other kinds (R520). -/

/-- LCRC (R520, KIND 0x20): the link partner sees it; the TLP is sent again under PCI Express. -/
def execLcrc (port : Fin 2) (s : State) : Host.Outcome State Fault Refusal :=
  .next (if (armed s (.hostif port) 0x20).isSome then fireInject s (.hostif port) else s)

/-- AUX_DROP (R128, R520, KIND 0x30): this reply and the next PARAM are discarded. -/
def execAuxDrop (n : Fin 12) (s : State) : Host.Outcome State Fault Refusal :=
  match armed s (.dplink n) 0x30 with
  | none => .next s
  | some (_, k) =>
    if (s.head n).auxQueued then
      let s := fireInject s (.dplink n)
      .next (auxTimedOut (s.setHead n { s.head n with auxDrop := k }) n)
    else .next s

/-- TILE_PARITY (R520, KIND 0x50). -/
def execTileParity (b : Fin 48) (s : State) : Host.Outcome State Fault Refusal :=
  .next (if (armed s (.bay b) 0x50).isSome && !bayFenced s b then raiseFault (fireInject s (.bay b)) (.bay b) 0 else s)

/-- GLYPH_PARITY (R224, R520, KIND 0x70). -/
def execGlyphParity (n : Fin 12) (g : Fin 8192) (s : State) : Host.Outcome State Fault Refusal :=
  let read := match capturedGlyph s n g with
    | some gl => (residentGlyph s gl).isSome
    | none => false
  .next (if (armed s .legend 0x70).isSome && read then glyphParity (fireInject s .legend) n g else s)

/-- READ_ERROR (R168, R520, KIND 0x71). -/
def execReadError (n : Fin 12) (r : Fin 3) (line : Nat) (s : State) : Host.Outcome State Fault Refusal :=
  let reads := (s.head n).runs.any (fun x => x.idx == r.val && runReads x line) && decide (line < (s.head n).raster.vActive)
  .next (match armed s .veneer 0x71 with
    | some (t, _) => if t = n.val ∧ reads = true then veneerFallback (fireInject s .veneer) n r line else s
    | none => s)

/-! Statistics slots (R250). -/

/-- The effect of STAT_CFGk: its fields, and every counter of the slot and STAT_MAXk at 0. -/
def statCfgOp (s : State) (k : Nat) (v : Word) : State :=
  let o := Reg.KERF_STAT_CFG + 0x80 * k
  let s := (List.range 18).foldl (fun s i => s.setPr .kerf (o + 4 + 4 * i) 0) s
  s.setPr .kerf o (v &&& 0x8000FFFF)

/-- STAT_CFG_WRITE (R250). -/
def execStatCfgWrite (m : Master) (k : Fin 16) (value : Word) (s : State) : Host.Outcome State Fault Refusal :=
  .next (writeReg s m (pageBase .kerf + Reg.KERF_STAT_CFG + 0x80 * k.val) (fun _ => none) (fun s => statCfgOp s k value))

end Sys2Proof.Machine
end

