-- ==== Sys2Proof/Machine/Held.lean ====
section
/-!
DEFINITION. Machine/Held.lean: the way through Held (R22, R26, R523, R543): entering it, the images of Surveyor's
store and their checks (R541, R542), flash energy (R537), and the release of the core die.
-/
namespace Sys2Proof.Machine

/-! Held. -/

/-- Everything on the core die returns to reset; what Surveyor holds stays (R26, R537, R539). -/
def coreDieReset (s : State) : State :=
  { pending := s.pending, fresh := s.fresh, upTicks := s.upTicks, cfg := s.cfg, surv := s.surv,
    log := { s.log with refusalAt := [], limitAt := [] } }

/-- The device enters Held, or stays there with a new step of bring-up (R26, R27). The next run of BIST is full where
the mode was Safe or the cause says so (R526). -/
def toHeld (s : State) (step : BootStep) (full : Bool) : State :=
  let safe := s.mode.mode == .safe
  let s := { s with surv := { s.surv with step := step, fullNext := s.surv.fullNext || full || safe, resetAfter := none } }
  if s.mode.mode = .held then relayUpdate s
  else
    let prior := s.cyc.modeFrom.getD s.mode.mode
    let n := coreDieReset s
    let n := { n with
      mode := { mode := .held, prior := prior },
      cyc := { modeFrom := some prior },
      surv := { n.surv with
        replies := [], units := [], dpOff := [], dpPwr := false, telemetry := {}, hwTried := [], hwLoaded := false,
        sapLoaded := false, condLogged := false } }
    relayUpdate (n.logAdd .mode 0 Mode.held.code 0)

/-- Where bring-up resumes in Held while mains stays, or has come back (R523, R538). -/
def heldStep (s : State) : BootStep := if loadIsShed s && s.surv.acLowAt.isSome then .surveyorUp else .railsGood

/-- A reset cause takes the device to Held; in Held it leaves bring-up where it is (R26). -/
def resetCause (s : State) (full : Bool) : State :=
  if s.mode.mode = .held then toHeld s s.surv.step full
  else
    let lost := loadIsShed s && s.surv.acLowAt.isSome
    let s := toHeld s (heldStep s) full
    { s with surv := { s.surv with mains := s.surv.mains && !lost } }

/-- A reset cause that also ends the wait of R527. -/
def unstick (s : State) : State :=
  if s.surv.step = .stuck then { s with surv := { s.surv with step := .railsGood } } else s

/-- RESET_TO_HELD (R26). -/
def execResetToHeld (s : State) : Host.Outcome State Fault Refusal := .next (resetCause s false)

/-- RESET_IN (R26, R593). -/
def execResetIn (s : State) : Host.Outcome State Fault Refusal :=
  let s := unstick (resetCause s false)
  .next (relayUpdate { s with surv := { s.surv with resetIn := true } })

/-- RESET_IN_DEASSERTED (R593). -/
def execResetInDeasserted (s : State) : Host.Outcome State Fault Refusal :=
  .next { s with surv := { s.surv with resetIn := false } }

/-! Images (R541, R542). -/

/-- Bytes of a bank by component (R541). -/
def bankSize (comp : Nat) : Nat := 1048576 * [2, 8, 6, 6, 1].getD comp 0

/-- A little-endian field of an image. -/
def imgField (b : List Nat) (o n : Nat) : Nat := ofLeBytes ((b.drop o).take n)

/-- A big-endian number in an image. -/
def imgBig (b : List Nat) (o n : Nat) : Nat := ofLeBytes ((b.drop o).take n).reverse

/-- Payload of an image. -/
def imgPayload (b : List Nat) : List Nat := (b.drop 1024).take (imgField b 16 4)

/-- SEC_VERSION of an image. -/
def imgSec (b : List Nat) : Nat := imgField b 12 4

/-- The first of the five checks of R541 that an image fails, 0 for none. -/
def imageCheck (s : State) (comp : Nat) (b : List Nat) : Nat :=
  let key := imgField b 5 1
  if imgField b 0 4 ≠ 0x54494C4A ∨ imgField b 4 1 ≠ comp ∨ bankSize comp - 1024 < imgField b 16 4 then 1
  else if 1 < key ∨ !Config.keyMatches key then 2
  else if !Config.ecdsaOk key (b.take 928) ((b.drop 928).take 96) then 3
  else if Config.sha384 (imgPayload b) ≠ imgBig b 24 48 then 4
  else if imgSec b < aget 0 s.surv.minSec comp then 5
  else 0

/-- Bank b of a component holds a valid image (R541, R544). -/
def bankValid (s : State) (comp b : Nat) : Bool :=
  !(bankOf s comp b).invalid && imageCheck s comp (bankBytes s comp b) == 0

/-- The active bank of a component, and the other one (R541). -/
def activeBankOf (s : State) (comp : Nat) : Nat := aget 0 s.surv.active comp
def otherBankOf (s : State) (comp : Nat) : Nat := 1 - activeBankOf s comp

/-- The bank a component boots from: the active one, else the other; none where both fail (R543). -/
def bootBank (s : State) (comp : Nat) : Option Nat :=
  if bankValid s comp (activeBankOf s comp) then some (activeBankOf s comp)
  else if bankValid s comp (otherBankOf s comp) then some (otherBankOf s comp)
  else none

/-- The regions of a manifest: base, size, kind (R542). -/
def manRegions (b : List Nat) : List (Nat × Nat × Nat) :=
  (List.range (imgField b 132 1)).map (fun r =>
    let o := 208 + 16 * r
    (imgField b o 8, imgField b (o + 8) 4, imgField b (o + 12) 1))

/-- The manifest of a Heartwood image (R542). -/
def manifestOf (b : List Nat) : Manifest :=
  let of (k : Nat) : List (Nat × Nat) := ((manRegions b).filter (fun r => r.2.2 == k)).map (fun r => (r.1, r.2.1))
  { clear := of 2, measure := of 1, digest := imgBig b 136 48 }

/-- Sum of the sizes of a list of regions. -/
def regionSum (l : List (Nat × Nat)) : Nat := l.foldl (fun acc r => acc + r.2) 0

/-- Surveyor accepts a manifest (R542). -/
def manifestOk (s : State) (b : List Nat) : Bool :=
  let rs := manRegions b
  let m := manifestOf b
  let top := 2097152 * s.cfg.wm - 67108864
  imgField b 128 4 == 0x4D464857 && 1 ≤ rs.length && rs.length ≤ 16 &&
    rs.all (fun r => r.1 % 4096 == 0 && r.2.1 % 4096 == 0 && (r.2.2 == 1 || r.2.2 == 2) && r.1 + r.2.1 ≤ top) &&
    (List.range rs.length).all (fun i => (List.range i).all (fun j =>
      let x := rs.getD i (0, 0, 0)
      let y := rs.getD j (0, 0, 0)
      x.1 + x.2.1 ≤ y.1 || y.1 + y.2.1 ≤ x.1)) &&
    regionSum m.measure == imgField b 16 4 && regionSum m.clear ≤ 67108864

/-- A log entry of KIND 0x06: WHERE 0, component and bank in the model's own code. -/
def logImage (s : State) (comp code : Nat) : State := s.logAdd .image 0 (comp * 256 + code) 0

/-! Flash energy (R537). -/

/-- The bulk energy reaches a requirement, given in 0.01 J: E = 165 × (V² − 62500) µJ with V in volts. -/
def energyOk (s : State) (req : Nat) : Bool :=
  (1000000 * req : Int) ≤ 165 * ((s.surv.bulk * s.surv.bulk : Nat) - 6250000 : Int)

/-! Trials (R544). -/

/-- The other bank becomes active again and it is logged. -/
def trialFallback (s : State) (comp : Nat) : State :=
  logImage { s with surv := { s.surv with
    active := aset 0 s.surv.active comp (otherBankOf s comp), trial := aset 0 s.surv.trial comp 0 } } comp 3

/-- One more start of a component on trial; after three that ended before it completed, the other bank is active. -/
def trialStart (s : State) (comp : Nat) : State :=
  let t := aget 0 s.surv.trial comp
  if t = 0 then s
  else if 4 ≤ t then trialFallback s comp
  else { s with surv := { s.surv with trial := aset 0 s.surv.trial comp (t + 1) } }

/-- The trial completes: the stored minimum SEC_VERSION takes the image's value. -/
def trialDone (s : State) (comp : Nat) : State :=
  { s with surv := { s.surv with
    trial := aset 0 s.surv.trial comp 0,
    minSec := aset 0 s.surv.minSec comp (imgSec (bankBytes s comp (activeBankOf s comp))) } }

/-! From mains to release (R523, R524). -/

/-- MAINS_APPLIED (R523): mains returns to a device in Held, and Surveyor starts anew. -/
def execMainsApplied (s : State) : Host.Outcome State Fault Refusal :=
  if s.mode.mode ≠ .held then .next s
  else
    let banks := match s.surv.update with
      | some u => aset {} s.surv.banks (2 * u.comp + otherBankOf s u.comp) { bankOf s u.comp (otherBankOf s u.comp) with invalid := true }
      | none => s.surv.banks
    .next (relayUpdate { s with
      upTicks := 0,
      log := { s.log with queue := [] },
      surv := { s.surv with
        mains := true, step := .charging, fullNext := true, sagOn := [], sagStep := 0, acLowAt := none, deferred := false,
        update := none, banks := banks, service := none, eid := 0, fanLost := [], condLogged := false } })

/-- SURVEYOR_START (R523, R543): Surveyor leaves reset; its boot block takes the active image, or the other. -/
def execSurveyorStart (s : State) : Host.Outcome State Fault Refusal :=
  if s.mode.mode ≠ .held ∨ s.surv.step ≠ .charging then .next s
  else
    let s := { s with upTicks := 0 }
    let s := trialStart s 0
    match bootBank s 0 with
    | none => .next (relayUpdate (logImage { s with surv := { s.surv with step := .recovery } } 0 2))
    | some b =>
      let s := if b = activeBankOf s 0 then s else logImage s 0 1
      .next (relayUpdate { s with surv := { s.surv with step := .surveyorUp, runBank := b } })

/-- RAILS_GOOD (R523). -/
def execRailsGood (s : State) : Host.Outcome State Fault Refusal :=
  .next (if s.mode.mode = .held ∧ s.surv.step = .surveyorUp ∧ s.surv.mains = true
    then { s with surv := { s.surv with step := .railsGood } } else s)

/-- SAG_STATUS follows Surveyor's sag conditions (R535, R536). -/
def sagRegs (s : State) : State :=
  let l := s.surv.sagOn
  s.setPr .clkpwr Reg.CLKPWR_SAG_STATUS
    (w32 (b2n (l.contains 0) + b2n (l.contains 1) * 2 + b2n (l.contains 2) * 4 + (s.surv.sagStep - 1) * 8))

/-- The core die leaves Held (R26, R523, R526, R528): Survey, DEVTIME 0, the stored record in force. -/
def release (s : State) : State :=
  let s := (List.range 4).foldl (fun s k => trialStart s (k + 1)) s
  let n := coreDieReset s
  let full := s.surv.fullNext || s.surv.stored.bistFull == 1
  sagRegs { n with
    cfg := s.surv.stored,
    mode := { mode := .survey, prior := .held },
    surv := { s.surv with
      step := .bist, bootCount := s.surv.bootCount + 1, full := full, fullNext := false, condLogged := false } }

/-- A sensor's reading (R532). -/
def sensor (s : State) (k : Nat) : Int := aget 0 s.surv.sensors k

/-- The conditions of R524 hold: VDD_CORE in whole mV within 698.4 to 741.6 mV, REFCLK as counted, die sites in units
of 0.125 °C. -/
def condsOk (s : State) (ppm : Int) : Bool :=
  decide (699 ≤ sensor s 16 ∧ sensor s 16 ≤ 741 ∧ -100 ≤ ppm ∧ ppm ≤ 100) &&
    (List.range 8).all (fun k => decide (-200 ≤ sensor s k ∧ sensor s k ≤ 800))

/-- BIST_CONDITIONS_CHECK (R523, R524, R593). -/
def execBistConditionsCheck (ppm : Int) (s : State) : Host.Outcome State Fault Refusal :=
  if s.mode.mode ≠ .held ∨ s.surv.step ≠ .railsGood ∨ s.surv.resetIn = true then .next s
  else if condsOk s ppm then .next (relayUpdate (release s))
  else
    let s := if s.surv.condLogged then s else s.logAdd .bist 0 1 0
    .next (relayUpdate { s with surv := { s.surv with condLogged := true } })

/-- CONSOLE_ID_READ (R590): one entry of KIND 0x09 per port. -/
def execConsoleIdRead (k : Fin 4) (data : Option (List (BitVec 8))) (s : State) : Host.Outcome State Fault Refusal :=
  if s.mode.mode = .held then .next s
  else
    let e (code : Nat) (bytes : List Nat) : LogEntry :=
      { seq := 0, boot := s.surv.bootCount % 65536, kind := .config, inHeld := false, injected := false,
        deferral := false, devtime := s.devtime, uptimeUs := s.uptimeUs, place := 30 + k.val, code := code,
        addr := 0, data := bytes }
    match data with
    | none => .next (s.logPut (e 1 (List.replicate 20 0)))
    | some d =>
      let b := (List.range 256).map (fun i => (d.getD i 0).toNat)
      .next (s.logPut (e 0 (b.take 16 ++ leBytes 4 (crc32c b))))

/-- SURVEYOR_WATCHDOG (R26, R526, R550): Surveyor starts again from its boot block and the device enters Held. -/
def execSurveyorWatchdog (s : State) : Host.Outcome State Fault Refusal :=
  if s.surv.step = .unpowered ∨ s.surv.step = .charging ∨ s.surv.step = .recovery then .next s
  else
    let s := toHeld s (if s.surv.step = .stuck then .stuck else .charging) true
    .next (relayUpdate { s with
      upTicks := 0,
      surv := { s.surv with
        service := none, eid := 0, sagAt := 0, sagClearAt := 0, acLowAt := s.surv.acLowAt.map (fun _ => 0),
        update := s.surv.update.map (fun u => { u with lastUs := 0 }) } })

/-- UPDATE_TRIAL_END (R544): a trial completes at the first end of Survey after the first boot, for Surveyor once the
image has run for 60 s; or the third start ended before that. -/
def execUpdateTrialEnd (comp : Fin 5) (s : State) : Host.Outcome State Fault Refusal :=
  let t := aget 0 s.surv.trial comp.val
  let up := s.surv.step != .unpowered && s.surv.step != .charging
  let done := if comp.val = 0 then up && decide (60000000 ≤ s.uptimeUs)
    else s.surv.step == .running || s.surv.step == .shed
  let ended := if comp.val = 0 then !up else s.mode.mode == .held
  if 2 ≤ t ∧ done = true then .next (trialDone s comp.val)
  else if 4 ≤ t ∧ ended = true then .next (trialFallback s comp.val)
  else .next s

end Sys2Proof.Machine
end

