-- ==== Sys2Proof/Machine/Survey.lean ====
section
/-!
DEFINITION. Machine/Survey.lean: the steps of Survey (R525 to R530) and the loading of the images after it (R543).
-/
namespace Sys2Proof.Machine

/-- The vectors and regions of a Heartwood manifest take effect (R525, R542). -/
def useManifest (s : State) (b : List Nat) : State :=
  let s := s.setPair .world Reg.WORLD_RESET_VECTOR_LO (imgField b 184 8)
  let s := s.setPair .world Reg.WORLD_WCALL_VECTOR_LO (imgField b 192 8)
  { s with cpx := { s.cpx with manifest := manifestOf b } }

/-- Step 1 of Survey: what Surveyor writes from the configuration record and the manifest (R525). What the record gives
to pages' reset values is in `regRst`. -/
def configure (s : State) : State :=
  let s := s.setPf .world Reg.WORLD_CORE_CFG 7 0 s.cfg.hwCores
  let s := s.setPr .world Reg.WORLD_CORE_WORLD (w32 s.cfg.hwCores)
  let s := s.setPf .world Reg.WORLD_HW_WATERMARK 12 0 s.cfg.wm
  useManifest s (bankBytes s 1 ((bootBank s 1).getD (activeBankOf s 1)))

/-- A page that failed BIST or training: FENCED with REASON 0x03 (R46, R527). -/
def failPage (s : State) (p : Page) : State := (s.setHf p .ready 15 8 3).setHf p .ready 2 2 1

/-- A bay that failed (R283, R527). -/
def failBay (s : State) (b : Nat) : State :=
  let s := failPage s (.bay b)
  let r := if b < 32 then Reg.RENDERFE_BAY_FENCED_LO else Reg.RENDERFE_BAY_FENCED_HI
  let s := s.setPf .renderFe r (b % 32) (b % 32) 1
  s.setPf .renderFe Reg.RENDERFE_BAY_AVAIL 5 0 (baysIn s).length

/-- Log entry of a failing unit (R527). -/
def logFailed (s : State) : TestUnit → State
  | .bay b => s.logAdd .bist (pageBase (.bay b)) 3 0
  | .channel c => s.logAdd .bist (pageBase (.memch c)) 3 0
  | .other => s.logAdd .bist 0 3 0

/-- A unit is fenced; the fatal one is dealt with by the caller. -/
def failUnit (s : State) : TestUnit → State
  | .bay b => failBay s b
  | .channel c => failPage s (.memch c)
  | .other => s

/-- Channels that BIST or training has fenced. -/
def channelsOut (s : State) : List Nat := keysWhere 32 (fun c => s.fenced (.memch c))

/-- Pages that become READY at the end of BIST (R530). SCHED, WORLD, CTRLCPLX, MEMCTL, SHIM and MEMCH come later, the
HOSTIF and FUNC pages with their port; LEGACY only in Legacy Profile. -/
def bistPages (s : State) : List Page :=
  allPages.filter (fun p =>
    match p with
    | .dev | .surveyorMb | .sched | .world | .ctrlcplx | .memctl | .shim | .memch _ | .hostif _ | .func _ => false
    | .legacy => legacyOn s
    | _ => !s.fenced p)

/-- The pages of memory, which pass to the owner that MEM_OWNER names (R528). -/
def memPages : List Page := [.memctl, .shim] ++ (List.range 32).map Page.memch

/-- The pages that training is to come for read REASON 0x02 until the end of Survey (R46). -/
def trainingReason (s : State) : State :=
  memPages.foldl (fun s p => if s.fenced p then s else s.setHf p .ready 15 8 2) s

/-- BIST_DONE (R525 to R527, R530). -/
def execBistDone (failed : List TestUnit) (ms : BitVec 16) (s : State) : Host.Outcome State Fault Refusal :=
  if s.mode.mode ≠ .survey ∨ s.surv.step ≠ .bist then .next s
  else
    let us := failed.eraseDups
    let s := us.foldl logFailed (configure s)
    let s := us.foldl failUnit s
    if us.contains .other ∨ 4 < (channelsOut s).length then .next (toHeld s .stuck false)
    else
      let s := s.setPr .dev Reg.DEV_BIST_INFO (w32 (2 ^ 31 * b2n s.surv.full + 2 ^ 24 * us.length + ms.toNat))
      let s := (bistPages s).foldl State.setReady s
      let s := if legacyOn s then s else s.setHf .legacy .ready 15 8 5
      let s := hostifReady (hostifReady (trainingReason s) 0) 1
      .next { s with surv := { s.surv with step := .training } }

/-- DRAM_TRAINING_DONE (R331, R360, R527, R543). -/
def execDramTrainingDone (failed : List (Fin 32)) (s : State) : Host.Outcome State Fault Refusal :=
  if s.mode.mode ≠ .survey ∨ s.surv.step ≠ .training then .next s
  else
    let us := (failed.eraseDups.filter (fun (c : Fin 32) => !s.fenced (.memch c.val))).map TestUnit.channel
    let s := us.foldl failUnit (us.foldl logFailed s)
    match bootBank s 4 with
    | none => .next (toHeld (logImage s 4 2) .stuck false)
    | some b =>
      let s := if b = activeBankOf s 4 then s else logImage s 4 1
      if 4 < (channelsOut s).length then .next (toHeld s .stuck false)
      else
        let s := (List.range 32).foldl (fun s c =>
          if s.fenced (.memch c) then s else s.setPf (.memch c) Reg.MEMCH_CH_STATUS 1 1 1) s
        .next { s with surv := { s.surv with step := .endOfSurvey } }

/-- The map is fixed (R331, R364, R366). -/
def fixMap (s : State) : State :=
  let ins := keysWhere 32 (fun c => !s.fenced (.memch c))
  let s := s.setPr .memctl Reg.MEMCTL_CHAN_MAP (w32 (maskOf 32 (fun c => ins.contains c)))
  let s := s.setPf .memctl Reg.MEMCTL_USABLE_PAGES 23 0 (32 * stripesOf ins.length)
  ins.foldl (fun s c => s.setPf (.memch c) Reg.MEMCH_CH_STATUS 0 0 1) s

/-- Surveyor installs its stored shim entries (R355, R525): those whose line still lies in the map. -/
def restoreShims (s : State) : State :=
  (List.range 32).foldl (fun s k =>
    let x := aget 0 s.surv.shims k
    if x = 0 ∨ 37 * stripes s * 64 ≤ x - 1 then s
    else
      let s := s.setPr .shim (Reg.SHIM_SHIM_LO + 8 * k) (w32 (x - 1))
      s.setPr .shim (Reg.SHIM_SHIM_HI + 8 * k) (w32 0xC0000000)) s

/-- The hand-over of the memory pages (R525, R528, R530). -/
def handMemory (s : State) : State :=
  let o := s.cfg.memOwner
  let s := if o = 0xFF then s
    else memPages.foldl (fun s p => (s.setHf p .owner 7 0 o).setHf p .owner 15 8 0x41) s
  memPages.foldl (fun s p => if s.fenced p then s else s.setReady p) s

/-- The mode that follows Survey (R26). -/
def modeAfterSurvey (s : State) : Mode :=
  if channelsOut s ≠ [] ∨ (keysWhere 48 (bayFenced s)) ≠ [] then .degraded
  else if legacyOn s then .legacy else .native

/-- SURVEY_END (R26, R28, R408, R412, R525, R529, R562, R587). -/
def execSurveyEnd (s : State) : Host.Outcome State Fault Refusal :=
  if s.mode.mode ≠ .survey ∨ s.surv.step ≠ .endOfSurvey then .next s
  else
    let s := restoreShims (fixMap s)
    let s := s.setPf .world Reg.WORLD_CORE_CFG 31 31 1
    let s := s.setPf .world Reg.WORLD_HW_WATERMARK 31 31 1
    let s := handMemory s
    let s := s.setPair .dev Reg.DEV_MEM_INIT_WM_LO 0
    let s := { s with mem := { s.mem with initOn := true, touched := [] } }
    let s := if legacyOn s then b4Hold s else s
    let s := { s with surv := { s.surv with step := .running, dpPwr := true } }
    .next (relayUpdate (setMode s (modeAfterSurvey s)))

/-! The images (R541 to R543). -/

/-- Fill the MEASURE regions from the payload in manifest order, and zero the CLEAR regions, as secure writes of the
management link (R542, R543). -/
def loadImage (s : State) (b : List Nat) : State :=
  let m := manifestOf b
  let step (r : State × List Nat) (x : Nat × Nat) : State × List Nat :=
    ((busWrite r.1 0x19 true x.1 (r.2.take x.2)).1, r.2.drop x.2)
  let s := (m.measure.foldl step (s, imgPayload b)).1
  m.clear.foldl (fun s r => zeroRange s r.1 r.2) s

/-- Surveyor tries Heartwood's banks in order, the active one first; each that it refuses is logged. The first that
passes is loaded and its measurement starts; with none left MEASURE_FAIL is set (R543, R504). -/
def loadHeartwood (s : State) : State :=
  let tryBank (r : State × Bool) (b : Nat) : State × Bool :=
    let (s, done) := r
    if done || s.surv.hwTried.contains b then r
    else
      let s := { s with surv := { s.surv with hwTried := s.surv.hwTried ++ [b] } }
      let bytes := bankBytes s 1 b
      if bankValid s 1 b && manifestOk s bytes then
        let s := loadImage (useManifest s bytes) bytes
        ({ s with cpx := { s.cpx with step := .measure } }, true)
      else (logImage s 1 2, false)
  let (s, done) := [activeBankOf s 1, otherBankOf s 1].foldl tryBank (s, false)
  if done then s else raiseFault s .world 3

/-- The Sapwood runtime starts on the shared cores, at an address that the spec does not give: a free value. -/
def startSapwood (s : State) : State :=
  let (pc, s) := s.draw
  (List.range 8).foldl (fun s c =>
    if isHwCore s c || coreFenced s c then s
    else s.setCore c { s.core c with inReset := false, mode := .hs, pc := pc }) s

/-- The Sapwood runtime and the shader translator: where both banks of one fail SCHED never becomes READY (R543). -/
def loadSapwood (s : State) : State :=
  let note (s : State) (comp : Nat) : State :=
    match bootBank s comp with
    | none => logImage s comp 2
    | some b => if b = activeBankOf s comp then s else logImage s comp 1
  let s := note (note s 2) 3
  let s := if (bootBank s 2).isSome then startSapwood s else s
  { s with surv := { s.surv with sapLoaded := (bootBank s 2).isSome && (bootBank s 3).isSome } }

/-- IMAGE_LOAD_DONE (R543): after Survey, once for each Heartwood bank that is tried. -/
def execImageLoadDone (s : State) : Host.Outcome State Fault Refusal :=
  if s.surv.step ≠ .running ∨ s.surv.hwLoaded = true ∨ s.cpx.step ≠ .idle ∨ s.mode.mode = .safe ∨
      2 ≤ s.surv.hwTried.length then .next s
  else
    let first := s.surv.hwTried.isEmpty
    let s := loadHeartwood s
    .next (if first then loadSapwood s else s)

end Sys2Proof.Machine
end

