-- ==== Sys2Proof/Machine/Power.lean ====
section
/-!
DEFINITION. Machine/Power.lean: sensors, thermal and sag limits of GCLK, load shedding and hold-up, flash operations,
telemetry, unit power, and DP_PWR (R532 to R540, R587).
-/
namespace Sys2Proof.Machine

/-! GCLK (R17, R533 to R536). -/

/-- The limits on GCLK as STEP codes: software cap, thermal, sag, fans (R535). -/
def gclkLimits (s : State) : List Nat :=
  [s.pf .clkpwr Reg.CLKPWR_GCLK_CAP 1 0, s.surv.thermal, s.surv.sagStep, if 2 ≤ s.surv.fanLost.length then 3 else 0]

/-- The step that the limits select, and which of them select it (R535). -/
def gclkTarget (s : State) : Nat × Nat :=
  let l := gclkLimits s
  let t := l.foldl max 0
  (t, if t = 0 then 0 else maskOf 4 (fun k => l.getD k 0 == t))

/-- GCLK_STEP_CHANGE (R17, R535). -/
def execGclkStepChange (s : State) : Host.Outcome State Fault Refusal :=
  let (t, by') := gclkTarget s
  let w := w32 (by' * 256 + t)
  let old := s.pr .clkpwr Reg.CLKPWR_GCLK_STATUS
  if s.mode.mode = .held ∨ w = old then .next s
  else
    let s' := s.setPr .clkpwr Reg.CLKPWR_GCLK_STATUS w
    .next (if fget old 1 0 = t then s' else s'.event .clkpwr 0)

/-- The thermal step for a hottest die reading in 0.125 °C: each limit holds from its threshold until the reading is
5 °C below it (R533). -/
def thermalStep (old : Nat) (t : Int) : Nat :=
  let holds (code : Nat) (at' : Int) : Bool := decide (at' ≤ t) || (decide (code ≤ old) && decide (at' - 40 < t))
  if holds 3 840 then 3 else if holds 2 800 then 2 else if holds 1 760 then 1 else 0

/-- SENSOR_SAMPLE (R532 to R534, R537): the readings, the thermal step and its faults. -/
def execSensorSample (values : List (BitVec 16)) (s : State) : Host.Outcome State Fault Refusal :=
  if s.surv.step = .unpowered ∨ s.surv.step = .charging ∨ s.surv.step = .recovery then .next s
  else
    let read (k : Nat) : Int := sext (values.getD k 0).toNat 16
    let sensors := (List.range 45).foldl (fun m k => aset 0 m k (read k)) ([] : Assoc Int)
    let hot := (List.range 8).foldl (fun (acc : Int) k => max acc (read k)) (read 0)
    let dram := (List.range 4).foldl (fun (acc : Int) k => max acc (read (8 + k))) (read 8)
    let old := s.surv.thermal
    let new := thermalStep old hot
    let s := { s with surv := { s.surv with
      sensors := sensors, bulk := (values.getD 38 0).toNat, thermal := new,
      fanLost := s.surv.fanLost.filter (fun k => decide (read (40 + k) < 1000)) } }
    if s.mode.mode = .held then .next s
    else
      let s := if old < new then raiseFault s .clkpwr 1 else s
      .next (if 880 ≤ hot ∨ 840 ≤ dram then raiseFault s .clkpwr 4 else s)

/-- FAN_LOST (R534). -/
def execFanLost (k : Fin 2) (s : State) : Host.Outcome State Fault Refusal :=
  if s.surv.fanLost.contains k.val then .next s
  else
    let s := { s with surv := { s.surv with fanLost := s.surv.fanLost ++ [k.val] } }
    if s.mode.mode = .held then .next s
    else .next (raiseFault s .clkpwr (if 2 ≤ s.surv.fanLost.length then 3 else 2))

/-! Sags (R536). -/

/-- SAG_ONSET (R536): a condition asserts; with none asserted before, a sag begins. -/
def execSagOnset (cond : Fin 3) (s : State) : Host.Outcome State Fault Refusal :=
  if s.surv.sagOn.contains cond.val then .next s
  else
    let first := s.surv.sagOn.isEmpty
    let v := s.surv
    let s := { s with surv := { v with
      sagOn := v.sagOn ++ [cond.val],
      acLowAt := if cond.val = 0 then some s.uptimeUs else v.acLowAt,
      sagAt := if first then s.uptimeUs else v.sagAt,
      sagStep := if first then max 2 v.sagStep else v.sagStep } }
    if s.mode.mode = .held then .next s
    else
      let s := sagRegs s
      .next (if first then raiseFault ((s.count .clkpwr Reg.CLKPWR_SAG_COUNT).event .clkpwr 1) .clkpwr 0 else s)

/-- SAG_ESCALATE (R536): a condition is still asserted 100 µs after the onset. -/
def execSagEscalate (s : State) : Host.Outcome State Fault Refusal :=
  if s.surv.sagOn.isEmpty ∨ s.uptimeUs < s.surv.sagAt + 100 then .next s
  else
    let s := { s with surv := { s.surv with sagStep := 3 } }
    .next (if s.mode.mode = .held then s else sagRegs s)

/-- SAG_CLEAR (R536). -/
def execSagClear (cond : Fin 3) (s : State) : Host.Outcome State Fault Refusal :=
  let v := s.surv
  let out (s : State) : State := if s.mode.mode = .held then s else sagRegs s
  if v.sagOn.contains cond.val then
    .next (out { s with surv := { v with
      sagOn := v.sagOn.filter (fun k => k != cond.val), sagClearAt := s.uptimeUs,
      acLowAt := if cond.val = 0 then none else v.acLowAt } })
  else if v.sagOn.isEmpty ∧ v.sagStep ≠ 0 ∧ v.sagClearAt + 10000 ≤ s.uptimeUs then
    .next (out { s with surv := { v with sagStep := 0 } })
  else .next s

/-! Mains loss (R538). -/

/-- Every timing generator and DP link stops (R538). -/
def shedHeads (s : State) : State :=
  (List.range 12).foldl (fun s n =>
    let s := if (s.head n).pll = .off then s else stopGenerator s n .stopping
    let s := s.setHead n { s.head n with candidates := [] }
    setLink (linkIdle s n) n 29 29 0) s

/-- LOAD_SHED (R538): after 20 ms of continuous AC_LOW. -/
def execLoadShed (s : State) : Host.Outcome State Fault Refusal :=
  match s.surv.acLowAt with
  | none => .next s
  | some t =>
    if s.mode.mode = .held ∨ loadIsShed s ∨ s.uptimeUs < t + 20000 then .next s
    else
      let s := raiseFault s .clkpwr 5
      let s := shedHeads s
      let s := (List.range 16).foldl hapStop s
      let s := (List.range 4).foldl (fun s p => s.setPf .audio (Reg.AUDIO_SIL_TIME + 8 * p) 31 31 0) s
      let s := { s with
        sched := { s.sched with jobs := [], trans := [], preempting := [] },
        surv := { s.surv with step := .shed, dpPwr := false } }
      .next (relayUpdate (s.setPf .sched Reg.SCHED_JOBS 10 0 0))

/-- HOLDUP_HELD (R538): the log queue is empty, and a bus has fallen or AC is back for 100 ms. -/
def execHoldupHeld (bulk rail12 : BitVec 16) (acBack : Bool) (s : State) : Host.Outcome State Fault Refusal :=
  let s := { s with surv := { s.surv with bulk := bulk.toNat } }
  if loadIsShed s && s.log.queue.isEmpty && (decide (bulk.toNat < 2600) || decide (rail12.toNat < 11000) || acBack) then
    let s := toHeld s (if acBack then .railsGood else .surveyorUp) false
    .next { s with surv := { s.surv with mains := s.surv.mains && acBack } }
  else .next s

/-! Flash operations (R537, R539). -/

/-- Up to four of the oldest queued entries fill one flash page; readers see the newest 32,768. -/
def commitLog (s : State) : State :=
  let n := 4
  let out := match s.log.queue.take n with
    | e :: es => { e with deferral := e.deferral || s.surv.deferred } :: es
    | [] => []
  let all := s.log.flash ++ out
  { s with
    log := { s.log with flash := all.drop (all.length - 32768), queue := s.log.queue.drop n },
    surv := { s.surv with deferred := false } }

/-- One attempt at a page program: done, or deferred with the deferral logged once (R537). -/
def flashTry (s : State) : State :=
  if energyOk s 100 then commitLog s
  else if s.surv.deferred then s
  else { s.logAdd .power 39 1 0 with surv := { s.surv with deferred := true } }

/-- FLASH_OPERATION (R537): a page program of the log. -/
def execFlashOperation (bulk : BitVec 16) (s : State) : Host.Outcome State Fault Refusal :=
  let s := { s with surv := { s.surv with bulk := bulk.toNat } }
  .next (if s.log.queue.isEmpty || s.surv.step == .unpowered || s.surv.step == .charging then s else flashTry s)

/-- FLASH_DEFER_RETRY (R537). -/
def execFlashDeferRetry (bulk : BitVec 16) (s : State) : Host.Outcome State Fault Refusal :=
  let s := { s with surv := { s.surv with bulk := bulk.toNat } }
  .next (if s.surv.deferred then flashTry s else s)

/-! Telemetry (R540). -/

/-- Offsets of a page's wrapping counters. -/
def wrapOffs : Page → List Nat
  | .clkpwr => [Reg.CLKPWR_SAG_COUNT]
  | .fabric => [Reg.FABRIC_REPLAY_COUNT]
  | .sched => [Reg.SCHED_DEADLINE_MISS, Reg.SCHED_PREEMPT_COUNT, Reg.SCHED_TC_HITS, Reg.SCHED_TC_MISSES, Reg.SCHED_TC_FAILS]
  | .xlate => [Reg.XLATE_WALKS, Reg.XLATE_FAULTS, Reg.XLATE_CACHE_PARITY]
  | .hostif _ => [Reg.HOSTIF_MALFORMED_COUNT, Reg.HOSTIF_POISONED_COUNT, Reg.HOSTIF_UR_COUNT, Reg.HOSTIF_CPL_TIMEOUT_COUNT]
  | .func _ => [Reg.FUNC_STALE_GEN_COUNT, Reg.FUNC_DB_BAD_COUNT]
  | .timing _ => [Reg.TIMING_FRAME_COUNT]
  | .composer _ => [Reg.COMPOSER_UNDERRUN_COUNT]
  | .layer _ l => if l = 14 then [Reg.LAYERL_LG_BAD_CELLS, Reg.LAYERL_LG_MISS_LINES] else []
  | .veneer => (List.range 12).flatMap (fun n => [Reg.VENEER_VFALLBACK_LINES + 0x40 * n, Reg.VENEER_VINVAL_COUNT + 0x40 * n])
  | .legend => [Reg.LEGEND_ACCEPTED, Reg.LEGEND_DROPPED]
  | .kerf => [Reg.KERF_DEC_ERR_COUNT]
  | .renderFe => [Reg.RENDERFE_REPLAY_COUNT, Reg.RENDERFE_LOSS_COUNT]
  | .bin => [Reg.BIN_PARTIAL_FLUSH_COUNT]
  | .bay _ => [Reg.BAY_TILES_DONE]
  | .memctl => [Reg.MEMCTL_SCRUB_PASSES, Reg.MEMCTL_CE_TOTAL, Reg.MEMCTL_UE_TOTAL]
  | .memch _ => [Reg.MEMCH_CE_COUNT, Reg.MEMCH_UE_COUNT, Reg.MEMCH_FORCED_REFAB, Reg.MEMCH_RETRAINS, Reg.MEMCH_SR_COUNT]
  | .keys => [Reg.KEYS_EVENTS_LOST, Reg.KEYS_BIND_DENIED]
  | .haptic => [Reg.HAPTIC_CAP_COUNT]
  | .hapch _ => [Reg.HAPCH_TRIG_COUNT, Reg.HAPCH_ZC_MISSED]
  | .audio => [Reg.AUDIO_SAMPLE_COUNT, Reg.AUDIO_SRC_UNDERRUN, Reg.AUDIO_SRC_ERROR, Reg.AUDIO_CLAMP_COUNT]
  | .legacy => [Reg.LEGACY_REJECT_COUNT, Reg.LEGACY_KEY_DROPS, Reg.LEGACY_DE_OVERFLOW_COUNT, Reg.LEGACY_DROPPED_ACCESS]
  | _ => []

/-- Every page and layer block that has wrapping counters, with the offset, by PF BAR0 address (R540). -/
def wrapRegs : List (Page × Nat) :=
  let ps := allPages ++ (List.range 12).map (fun n => Page.layer n 14)
  let rs := ps.flatMap (fun p => (wrapOffs p).map (fun o => (p, o)))
  sortBy (fun a b => pageBase a.1 + a.2 ≤ pageBase b.1 + b.2) rs

/-- The master as whom the telemetry writer reads (R540). -/
def telemetryMaster (owner : Nat) : Master :=
  if owner = 0x40 then .heartwood
  else if owner = 0x41 then .surveyor
  else if owner = 0x20 then .func 32
  else .func 0

/-- The 4,096 bytes of a telemetry record (R540). -/
def telemetryBytes (s : State) : List Nat :=
  let t := s.surv.telemetry
  let head := leBytes 8 s.devtime ++ leBytes 4 t.seq ++ leBytes 4 0
  let sens := ((List.range 45).flatMap (fun k => leBytes 2 (toField (sensor s k) 16)) ++ List.replicate 6 0)
  let m := telemetryMaster t.owner
  let regs := (wrapRegs.filter (fun r => shownTo s m r.1 r.2)).take 996
  let words := regs.flatMap (fun r => leBytes 4 (readReg s m (pageBase r.1 + r.2)).toNat)
  head ++ sens ++ words ++ List.replicate (3984 - words.length) 0

/-- TELEMETRY_RECORD (R540). -/
def execTelemetryRecord (s : State) : Host.Outcome State Fault Refusal :=
  let t := s.surv.telemetry
  if !t.en || s.mode.mode == .held || t.count == 0 then .next s
  else
    let s' := (busWrite s 0x19 (t.owner == 0x40) (t.base + 4096 * (t.seq % t.count)) (telemetryBytes s)).1
    .next { s' with surv := { s'.surv with telemetry := { t with seq := (t.seq + 1) % 2 ^ 32 } } }

/-! Units (R535). -/

/-- The pages of a unit, by the number of `unitOf`. -/
def unitPages (u : Nat) : List Page :=
  if u < 12 then [.timing u, .composer u, .dplink u]
  else if u < 32 then [.cvu (u - 16)]
  else if u < 48 then [.hapch (u - 32)]
  else if u = 48 then [.keys] else if u = 49 then [.audio] else if u = 50 then [.legend] else [.veneer]

/-- The layer blocks of a head unit. -/
def unitLayers (u : Nat) : List Page := if u < 12 then (List.range 16).map (fun l => .layer u l) else []

/-- Why a write of UNIT_CTRL is refused (R432, R535). -/
def unitCheck (s : State) (v : Word) : Option Cause :=
  match unitOf s with
  | none => some .range
  | some u =>
    let old := aget 0 s.surv.units u
    let sets := (List.range 3).any (fun k => fbit v k && !bit old k)
    if sets && (unitPages u).any (fun p => enableHasFunction p && s.enabled p) then some .inuse
    else if sets && (unitPages u).any s.claimed then some .claimed
    else none

/-- The effect of UNIT_CTRL (R535). -/
def unitOp (s : State) (v : Word) : State :=
  match unitOf s with
  | none => s
  | some u =>
    let old := aget 0 s.surv.units u
    let new := fget v 2 0
    let s := { s with surv := { s.surv with units := aset 0 s.surv.units u new } }
    let ps := (unitPages u ++ unitLayers u).filter (fun p => !s.fenced p)
    if new ≠ 0 then ps.foldl (fun s p => s.clearReady p 1) s
    else if old ≠ 0 then ps.foldl (fun s p => ((resetBlock s p).setBusy p false).setReady p) s
    else s

/-- UNIT_CTRL_WRITE (R535). -/
def execUnitCtrlWrite (m : Master) (value : Word) (s : State) : Host.Outcome State Fault Refusal :=
  .next (writeReg s m (pageBase .clkpwr + Reg.CLKPWR_UNIT_CTRL) (fun s => unitCheck s value) (fun s => unitOp s value))

/-! DP_PWR (R587). -/

/-- DP_PWR_OVERCURRENT (R587): the receptacle of head n switches off, logged at most once per second. -/
def execDpPwrOvercurrent (n : Fin 12) (s : State) : Host.Outcome State Fault Refusal :=
  if !s.surv.dpPwr || s.surv.dpOff.contains n.val then .next s
  else
    let s := { s with surv := { s.surv with dpOff := s.surv.dpOff ++ [n.val] } }
    .next (s.logLimited (3200 + n.val) 1000000000 .power (10 + n.val) 2 0)

/-- DP_PWR_RETRY (R587). -/
def execDpPwrRetry (n : Fin 12) (s : State) : Host.Outcome State Fault Refusal :=
  .next { s with surv := { s.surv with dpOff := s.surv.dpOff.filter (fun k => k != n.val) } }

end Sys2Proof.Machine
end

