-- ==== Sys2Proof/Machine/Mailbox.lean ====
section
/-!
DEFINITION. Machine/Mailbox.lean: Surveyor's mailbox and service port (R539, R544 to R549).
-/
namespace Sys2Proof.Machine

/-! Slots (R545). -/

/-- A register of slot k: offset o in the slot. -/
def slotOff (k o : Nat) : Nat := Reg.SURVEYOR_MB_REQ + 0x300 * k + o

/-- The slot's request is being served. -/
def slotBusy (s : State) (k : Nat) : Bool := s.pf .surveyorMb (slotOff k 4) 31 31 == 1

/-- Bytes of the request in slot k. -/
def slotRequest (s : State) (k : Nat) : List Nat :=
  ((List.range 64).flatMap (fun i => leBytes 4 (s.pr .surveyorMb (slotOff k (0x100 + 4 * i))).toNat)).take
    (s.pf .surveyorMb (slotOff k 0) 8 0)

/-- Why a write of MB_REQ is refused: BUSY, or a length outside 8 to 256 (R545). -/
def mbReqCheck (s : State) (k : Nat) (v : Word) : Option Cause :=
  if slotBusy s k then some .inuse
  else if fget v 8 0 < 8 ∨ 256 < fget v 8 0 then some .range
  else none

/-- The effect of MB_REQ. -/
def mbReqOp (s : State) (k : Nat) (v : Word) : State :=
  let s := s.setPf .surveyorMb (slotOff k 0) 8 0 (fget v 8 0)
  if fbit v 31 then s.setPf .surveyorMb (slotOff k 4) 31 31 1 else s

/-- MB_REQ_GO (R545). -/
def execMbReqGo (m : Master) (k : Fin 4) (value : Word) (s : State) : Host.Outcome State Fault Refusal :=
  let v := fsetb value 31 true
  .next (writeReg s m (pageBase .surveyorMb + slotOff k 0) (fun s => mbReqCheck s k v) (fun s => mbReqOp s k v))

/-! Serving a request (R546, R547). -/

/-- An answer: status, DETAIL, data. -/
structure MbAnswer where
  status : Nat := 0
  detail : Nat := 0
  data : List Nat := []
deriving DecidableEq, Repr

/-- Letters of the paths: P, H, S, V (R547). -/
inductive MbWho where
  | p | h | sap | v
deriving DecidableEq, Repr

/-- The letter of a path. -/
def pathWho : MbPath → MbWho
  | .slot k => if k.val < 2 then .p else if k.val = 2 then .h else .sap
  | .service _ => .v

/-- The number of a path: slots 0 to 3, service port 4. -/
def pathNo : MbPath → Nat
  | .slot k => k.val
  | .service _ => 4

/-- The bytes of a response (R546). -/
def mbResponse (req : List Nat) (a : MbAnswer) : List Nat :=
  [req.getD 0 0, a.status, req.getD 2 0, req.getD 3 0] ++ leBytes 4 a.detail ++ a.data

/-- Surveyor's image runs: it serves requests; in the recovery loop only the service port (R543, R550). -/
def servesPath (s : State) (p : MbPath) : Bool :=
  match p with
  | .slot k =>
    s.mode.mode != .held && slotBusy s k && (aget none s.surv.replies k).isNone
  | .service _ => s.surv.step != .unpowered && s.surv.step != .charging

/-- The bytes of a request. -/
def pathRequest (s : State) : MbPath → List Nat
  | .slot k => slotRequest s k
  | .service r => r.map (·.toNat)

/-- The answer waits in the slot, or goes out on the service port. -/
def putReply (s : State) (p : MbPath) (r : List Nat) : State :=
  match p with
  | .slot k => { s with surv := { s.surv with replies := aset none s.surv.replies k (some r) } }
  | .service _ => { s with surv := { s.surv with service := some r } }

/-- Surveyor carries out a request of a given CMD: the path must permit it, and the arguments must be there (R546 to
R548). `f` sees the argument bytes. -/
def mbServe (s : State) (p : MbPath) (cmd : Nat) (paths : List MbWho) (argLen : Nat)
    (f : State → List Nat → State × MbAnswer) : State :=
  let req := pathRequest s p
  if !servesPath s p || req.getD 0 256 != cmd || req.length < 8 then s
  else if !paths.contains (pathWho p) then putReply s p (mbResponse req { status := 3 })
  else if req.length < 8 + argLen then putReply s p (mbResponse req { status := 2 })
  else
    let (s, a) := f s (req.drop 8)
    putReply s p (mbResponse req a)

/-- A little-endian argument. -/
def arg (l : List Nat) (o n : Nat) : Nat := ofLeBytes ((l.drop o).take n)

/-- Every path; the paths of a PF, Heartwood and the service port. -/
def allWho : List MbWho := [.p, .h, .sap, .v]
def phv : List MbWho := [.p, .h, .v]

/-- The CMD codes of R548. -/
def mbCmds : List Nat :=
  [0x01, 0x02, 0x03, 0x04, 0x05, 0x10, 0x11, 0x12, 0x13, 0x20, 0x21, 0x30, 0x31, 0x32, 0x40, 0x41]

/-- MAILBOX_DONE (R545, R546, R548): the response is in the buffer, BUSY clears and the slot's interrupt bit is set; a
RESET then takes effect. -/
def execMailboxDone (k : Fin 4) (s : State) : Host.Outcome State Fault Refusal :=
  if s.mode.mode = .held ∨ !slotBusy s k then .next s
  else
    let req := slotRequest s k
    let bad : Option (List Nat) :=
      if mbCmds.contains (req.getD 0 256) then none else some (mbResponse req { status := 1 })
    let reply : Option (List Nat) := aget none s.surv.replies k
    match reply.orElse (fun _ => bad) with
    | none => .next s
    | some r =>
      let s := (List.range (cdiv r.length 4)).foldl (fun s i =>
        s.setPr .surveyorMb (slotOff k (0x200 + 4 * i)) (w32 (arg r (4 * i) 4))) s
      let s := s.setPr .surveyorMb (slotOff k 4) (w32 r.length)
      let s := { s with surv := { s.surv with replies := aset none s.surv.replies k none } }
      let s := s.event .surveyorMb k
      let again : Bool := s.surv.resetAfter == some k.val
      .next (if again then unstick (resetCause s false) else s)

/-! The configuration record (R528). -/

/-- The 64 bytes of a record. -/
def cfgBytes (c : CfgRec) : List Nat :=
  [c.profile, c.portB, c.hwCores, c.bistFull] ++ leBytes 2 c.wm ++ [c.baysA, c.baysB] ++ leBytes 8 c.memBaseA ++
    leBytes 8 c.memLimitA ++ leBytes 8 c.memBaseB ++ leBytes 8 c.memLimitB ++ [c.vfBar2A, c.vfBar2B] ++
    leBytes 2 c.subVendor ++ leBytes 2 c.subId ++ leBytes 2 c.headsB ++ leBytes 2 c.cvusB ++ leBytes 2 c.hapchsB ++
    [c.sharedB, c.memOwner] ++ List.replicate 10 0

/-- The record that 64 bytes hold. -/
def cfgOf (b : List Nat) : CfgRec :=
  { profile := arg b 0 1, portB := arg b 1 1, hwCores := arg b 2 1, bistFull := arg b 3 1, wm := arg b 4 2,
    baysA := arg b 6 1, baysB := arg b 7 1, memBaseA := arg b 8 8, memLimitA := arg b 16 8, memBaseB := arg b 24 8,
    memLimitB := arg b 32 8, vfBar2A := arg b 40 1, vfBar2B := arg b 41 1, subVendor := arg b 42 2,
    subId := arg b 44 2, headsB := arg b 46 2, cvusB := arg b 48 2, hapchsB := arg b 50 2, sharedB := arg b 52 1,
    memOwner := arg b 53 1 }

/-- End of device memory as a record is checked against: the map in force, or that of 32 channels before one is fixed. -/
def memEnd (s : State) : Nat := if memTop s = 0 then 4096 * (32 * stripesOf 32) else memTop s

/-- A port's range: 2 MiB aligned, at or above the watermark, within memory (R528). -/
def rangeOk (s : State) (wm lo hi : Nat) : Bool :=
  lo % 2097152 == 0 && hi % 2097152 == 0 && lo ≤ hi && 2097152 * wm ≤ lo && hi ≤ memEnd s

/-- Surveyor accepts a record (R528): its six cases of refusal, and the widths that its fields state. -/
def cfgOk (s : State) (b : List Nat) : Bool :=
  let c := cfgOf b
  rangeOk s c.wm c.memBaseA c.memLimitA && rangeOk s c.wm c.memBaseB c.memLimitB &&
    (c.memLimitA ≤ c.memBaseB || c.memLimitB ≤ c.memBaseA) && c.baysA + c.baysB ≤ 48 &&
    c.hwCores != 0 && c.hwCores != 0xFF && !(c.profile == 1 && c.headsB % 16 != 0) &&
    72 ≤ c.wm && c.wm ≤ 4096 && [0x00, 0x20, 0x40, 0x42, 0xFF].contains c.memOwner &&
    c.profile ≤ 1 && c.portB ≤ 1 && c.bistFull ≤ 1 && 26 ≤ c.vfBar2A && c.vfBar2A ≤ 32 && 26 ≤ c.vfBar2B &&
    c.vfBar2B ≤ 32 && c.sharedB < 128 && arg b 54 10 == 0

/-- CONFIG_READ (R548). -/
def execConfigRead (p : MbPath) (s : State) : Host.Outcome State Fault Refusal :=
  .next (mbServe s p 0x20 allWho 1 (fun s a =>
    match arg a 0 1 with
    | 0 => (s, { data := cfgBytes s.cfg })
    | 1 => (s, { data := cfgBytes s.surv.stored })
    | _ => (s, { status := 7 })))

/-- CONFIG_WRITE (R528, R537, R548). -/
def execConfigWrite (p : MbPath) (s : State) : Host.Outcome State Fault Refusal :=
  .next (mbServe s p 0x21 [.h, .v] 64 (fun s a =>
    if !cfgOk s a then (s, { status := 7 })
    else if !energyOk s 300 then (s, { status := 5 })
    else ({ s with surv := { s.surv with stored := cfgOf a } }, {})))

/-! Information, sensors and the log (R532, R539, R548). -/

/-- Bank b of a component in GET_INFO: VERSION and SEC_VERSION. -/
def bankInfo (s : State) (comp b : Nat) : List Nat :=
  let x := bankBytes s comp b
  leBytes 4 (imgField x 8 4) ++ leBytes 4 (imgSec x)

/-- GET_INFO (R548). -/
def execGetInfo (p : MbPath) (s : State) : Host.Outcome State Fault Refusal :=
  .next (mbServe s p 0x01 allWho 0 (fun s _ =>
    let comps := (List.range 5).flatMap (fun c =>
      bankInfo s c 0 ++ bankInfo s c 1 ++ [activeBankOf s c, if aget 0 s.surv.trial c = 0 then 0 else 1])
    (s, { data := comps ++ leBytes 4 s.surv.bootCount ++ cfgBytes s.cfg })))

/-- READ_SENSORS (R548). -/
def execReadSensors (p : MbPath) (s : State) : Host.Outcome State Fault Refusal :=
  .next (mbServe s p 0x02 allWho 2 (fun s a =>
    let first := arg a 0 1
    let n := arg a 1 1
    if 45 < first + n then (s, { status := 7 })
    else (s, { data := (List.range n).flatMap (fun i => leBytes 2 (toField (sensor s (first + i)) 16)) })))

/-- KIND code of a log entry (R539). -/
def LogKind.code : LogKind → Nat
  | .fault => 1 | .refusal => 2 | .memory => 3 | .mode => 4 | .sensor => 5 | .image => 6 | .power => 7 | .bist => 8
  | .config => 9 | .host => 10

/-- CODE of an entry: stated for faults (R539) and for a console that does not answer (R590), else kind-specific and free. -/
def entryCode (e : LogEntry) : Nat :=
  match e.kind with
  | .fault => e.code
  | .config => if e.code = 1 then 1 else Config.logCode e.kind.code e.code % 2 ^ 32
  | _ => Config.logCode e.kind.code e.code % 2 ^ 32

/-- DATA of an entry: stated for console IDs (R590), else kind-specific and free. -/
def entryData (e : LogEntry) : List Nat :=
  if e.data = [] then (List.range 20).map (fun i => Config.logData e.seq i % 256) else e.data

/-- The 64 bytes of an entry (R539). -/
def entryBytes (e : LogEntry) : List Nat :=
  let b := leBytes 4 e.seq ++ leBytes 2 e.boot ++
    [e.kind.code, b2n e.inHeld + b2n e.injected * 2 + b2n e.deferral * 4] ++ leBytes 8 e.devtime ++
    leBytes 8 e.uptimeUs ++ leBytes 4 e.place ++ leBytes 4 (entryCode e) ++ leBytes 8 e.addr ++ entryData e
  b ++ leBytes 4 (crc32c b)

/-- The entries that readers see: the newest 32,768 (R539). -/
def logSeen (s : State) : List LogEntry :=
  let l := s.log.flash ++ s.log.queue
  l.drop (l.length - 32768)

/-- LOG_READ (R548). -/
def execLogRead (p : MbPath) (s : State) : Host.Outcome State Fault Refusal :=
  .next (mbServe s p 0x03 allWho 5 (fun s a =>
    let n := arg a 4 1
    if n = 0 ∨ 3 < n then (s, { status := 7 })
    else
      let es := ((logSeen s).filter (fun e => decide (arg a 0 4 ≤ e.seq))).take n
      (s, { detail := es.length, data := es.flatMap entryBytes })))

/-- LOG_STATUS (R548). With no entry, oldest and newest SEQ are free values. -/
def execLogStatus (p : MbPath) (s : State) : Host.Outcome State Fault Refusal :=
  .next (mbServe s p 0x04 allWho 0 (fun s _ =>
    let tail := leBytes 4 s.log.queue.length ++ leBytes 4 s.log.lost
    match (logSeen s).head?, (logSeen s).getLast? with
    | some a, some b => (s, { data := leBytes 4 a.seq ++ leBytes 4 b.seq ++ tail })
    | _, _ =>
      let (a, s) := s.draw
      let (b, s) := s.draw
      (s, { data := leBytes 4 a ++ leBytes 4 b ++ tail })))

/-! Telemetry (R540). -/

/-- Bytes [lo, hi) lie in the range of a port (R374, R547). -/
def inPortRange (s : State) (port lo hi : Nat) : Bool :=
  s.pair (.hostif port) Reg.HOSTIF_MEM_BASE_LO ≤ lo && hi ≤ s.pair (.hostif port) Reg.HOSTIF_MEM_LIMIT_LO

/-- Owner code with whose rights a path's telemetry is written. -/
def pathOwner : MbPath → Nat
  | .slot k => mbMaster k
  | .service _ => 0x41

/-- TELEMETRY_CFG (R540, R547, R548). -/
def execTelemetryCfg (p : MbPath) (s : State) : Host.Outcome State Fault Refusal :=
  .next (mbServe s p 0x05 phv 13 (fun s a =>
    let base := arg a 0 8
    let n := arg a 8 4
    let en := arg a 12 1 != 0
    let out := pathWho p == .p && !inPortRange s (pathNo p) base (base + 4096 * n)
    if en && (n == 0 || out) then (s, { status := 7 })
    else ({ s with surv := { s.surv with telemetry := { base := base, count := n, en := en, seq := 0, owner := pathOwner p } } }, {})))

/-! Updates (R544, R548). -/

/-- Mark the inactive bank of a component. -/
def markBank (s : State) (comp : Nat) (invalid : Bool) : State :=
  let b := otherBankOf s comp
  { s with surv := { s.surv with banks := aset {} s.surv.banks (2 * comp + b) { bankOf s comp b with invalid := invalid } } }

/-- An update is abandoned: its bank is marked invalid (R544). -/
def abandonUpdate (s : State) : State :=
  match s.surv.update with
  | none => s
  | some u => { markBank s u.comp true with surv := { (markBank s u.comp true).surv with update := none } }

/-- UPDATE_BEGIN (R544, R548). -/
def execUpdateBegin (p : MbPath) (s : State) : Host.Outcome State Fault Refusal :=
  .next (mbServe s p 0x10 phv 5 (fun s a =>
    let comp := arg a 0 1
    let size := arg a 1 4
    let other := match s.surv.update with | some u => u.path != pathNo p | none => false
    if other then (s, { status := 4 })
    else if 4 < comp ∨ size < 1024 ∨ bankSize comp < size then (s, { status := 7 })
    else
      let s := abandonUpdate s
      ({ s with surv := { s.surv with update := some ⟨comp, size, 0, pathNo p, s.uptimeUs⟩ } }, {})))

/-- Bytes of a bank after data at an offset: each sector is erased as it is reached (R548). -/
def programBytes (old : List Nat) (next off : Nat) (data : List Nat) : List Nat :=
  let sector := 4096 * (off / 4096)
  let keep := if sector < next then off else sector
  let stop := off + data.length
  let last := 4096 * cdiv stop 4096
  (List.range keep).map (fun i => old.getD i 0xFF) ++ List.replicate (off - keep) 0xFF ++ data ++
    List.replicate (last - stop) 0xFF ++ old.drop last

/-- The update of a path: BUSY where it is another path's, RANGE where none runs. -/
def updateOf (s : State) (p : MbPath) : Except Nat UpdateSt :=
  match s.surv.update with
  | none => .error 7
  | some u => if u.path = pathNo p then .ok u else .error 4

/-- UPDATE_DATA (R537, R544, R548). -/
def execUpdateData (p : MbPath) (s : State) : Host.Outcome State Fault Refusal :=
  .next (mbServe s p 0x11 phv 5 (fun s a =>
    let off := arg a 0 4
    let n := arg a 4 1
    match updateOf s p with
    | .error e => (s, { status := e })
    | .ok u =>
      if a.length < 5 + n then (s, { status := 2 })
      else if 240 < n ∨ off < u.next ∨ u.size < off + n then (s, { status := 7 })
      else if !energyOk s 100 then (s, { status := 5 })
      else
        let b := otherBankOf s u.comp
        let bytes := programBytes (bankBytes s u.comp b) u.next off ((a.drop 5).take n)
        ({ s with surv := { s.surv with
            banks := aset {} s.surv.banks (2 * u.comp + b) { bytes := some bytes, invalid := true },
            update := some { u with next := off + n, lastUs := s.uptimeUs } } }, {})))

/-- Whether the inactive bank of a component holds an image that Surveyor takes: 0, a failed check of R541, or 6 where
it refuses the manifest (R542). -/
def updateCheck (s : State) (comp : Nat) : Nat :=
  let b := bankBytes s comp (otherBankOf s comp)
  let c := imageCheck s comp b
  if c ≠ 0 then c else if comp = 1 ∧ !manifestOk s b then 6 else 0

/-- The answer INVALID_IMAGE: DETAIL is the failed check; for a refused manifest the spec gives none, and it is free. -/
def invalidImage (s : State) (c : Nat) : State × MbAnswer :=
  if c = 6 then
    let (v, s) := s.draw
    (s, { status := 6, detail := v % 2 ^ 32 })
  else (s, { status := 6, detail := c })

/-- UPDATE_END (R541, R542, R544, R548). -/
def execUpdateEnd (p : MbPath) (s : State) : Host.Outcome State Fault Refusal :=
  .next (mbServe s p 0x12 phv 0 (fun s _ =>
    match updateOf s p with
    | .error e => (s, { status := e })
    | .ok u =>
      let c := updateCheck s u.comp
      let s := markBank s u.comp (c != 0)
      let s := { s with surv := { s.surv with update := none } }
      if c = 0 then (s, {}) else invalidImage s c))

/-- UPDATE_ACTIVATE (R537, R544, R548): the other bank is active, on trial. -/
def execUpdateActivate (p : MbPath) (s : State) : Host.Outcome State Fault Refusal :=
  .next (mbServe s p 0x13 phv 1 (fun s a =>
    let comp := arg a 0 1
    let running := match s.surv.update with | some u => u.comp == comp | none => false
    if 4 < comp then (s, { status := 7 })
    else if running then (s, { status := 4 })
    else
      let b := otherBankOf s comp
      let c := if (bankOf s comp b).invalid then 1 else updateCheck s comp
      if c ≠ 0 then invalidImage s c
      else if !energyOk s 300 then (s, { status := 5 })
      else ({ s with surv := { s.surv with
          active := aset 0 s.surv.active comp b, trial := aset 0 s.surv.trial comp 1 } }, {})))

/-- UPDATE_IDLE_TIMEOUT (R544). -/
def execUpdateIdleTimeout (s : State) : Host.Outcome State Fault Refusal :=
  match s.surv.update with
  | none => .next s
  | some u => .next (if u.lastUs + 60000000 ≤ s.uptimeUs then logImage (abandonUpdate s) u.comp 5 else s)

/-! Retired pages and shim entries (R355, R356, R548). -/

/-- RETIRE_READ (R548). -/
def execRetireRead (p : MbPath) (s : State) : Host.Outcome State Fault Refusal :=
  .next (mbServe s p 0x30 allWho 5 (fun s a =>
    let n := arg a 4 1
    if 30 < n then (s, { status := 7 })
    else (s, { data := ((s.surv.retired.drop (arg a 0 4)).take n).flatMap (leBytes 8) })))

/-- RETIRE_ADD (R537, R547, R548). -/
def execRetireAdd (p : MbPath) (s : State) : Host.Outcome State Fault Refusal :=
  .next (mbServe s p 0x31 allWho 1 (fun s a =>
    let n := arg a 0 1
    if 30 < n then (s, { status := 7 })
    else if a.length < 1 + 8 * n then (s, { status := 2 })
    else
      let pages := (List.range n).map (fun i => arg a (1 + 8 * i) 8)
      let fresh := (pages.eraseDups).filter (fun x => !s.surv.retired.contains x)
      let out := pathWho p == .p && !(pages.all (fun x => inPortRange s (pathNo p) (4096 * x) (4096 * x + 4096)))
      if out || decide (4096 < s.surv.retired.length + fresh.length) then (s, { status := 7 })
      else if !energyOk s 300 then (s, { status := 5 })
      else ({ s with surv := { s.surv with retired := s.surv.retired ++ fresh } }, { detail := fresh.length })))

/-- SHIM_READ (R548). -/
def execShimRead (p : MbPath) (s : State) : Host.Outcome State Fault Refusal :=
  .next (mbServe s p 0x32 allWho 0 (fun s _ =>
    (s, { data := (List.range 32).flatMap (fun k =>
      let x := aget 0 s.surv.shims k
      leBytes 4 (if x = 0 then 0 else 2 ^ 31 + (x - 1))) })))

/-! RESET and INJECT_ENABLE. -/

/-- RESET (R26, R548): the response is sent, then Held. On the service port it is sent at once. -/
def execReset (p : MbPath) (s : State) : Host.Outcome State Fault Refusal :=
  let was := s.surv.service
  let t := mbServe s p 0x40 phv 0 (fun s _ =>
    match p with
    | .slot k => ({ s with surv := { s.surv with resetAfter := some k.val } }, {})
    | .service _ => ({ s with surv := { s.surv with service := none } }, {}))
  match p with
  | .slot _ => .next t
  | .service req =>
    if servesPath s p && (req.map (·.toNat)).getD 0 256 == 0x40 && 8 ≤ req.length then .next (relayUpdate (unstick (resetCause t false)))
    else .next { t with surv := { t.surv with service := was } }

/-- INJECT_ENABLE (R519, R548): on the service port. The core die is in reset in Held. -/
def execInjectEnable (p : MbPath) (s : State) : Host.Outcome State Fault Refusal :=
  .next (mbServe s p 0x41 [.v] 0 (fun s _ =>
    (if s.mode.mode = .held then s else s.setPf .dev Reg.DEV_INJECT 0 0 1, {})))

/-! The service port's own protocols (R549). Formats PRESUMED from MCTP and PLDM. -/

/-- An answer of the SMBus endpoint, while Surveyor runs. -/
def mctpReply (s : State) (f : State → State × List Nat) : State :=
  if s.surv.step = .unpowered ∨ s.surv.step = .charging then s
  else
    let (s, r) := f s
    { s with surv := { s.surv with service := some r } }

/-- SET_ENDPOINT_ID (R549): the null and broadcast ids are no endpoint's. -/
def execSetEndpointId (eid : BitVec 8) (s : State) : Host.Outcome State Fault Refusal :=
  .next (mctpReply s (fun s =>
    if eid = 0 ∨ eid = 0xFF then (s, [2])
    else ({ s with surv := { s.surv with eid := eid.toNat } }, [0, 0, eid.toNat, 0])))

/-- GET_ENDPOINT_ID (R549). -/
def execGetEndpointId (s : State) : Host.Outcome State Fault Refusal :=
  .next (mctpReply s (fun s => (s, [0, s.surv.eid, 0, 0])))

/-- GET_MCTP_VERSION_SUPPORT (R549): one version, which the spec does not give. -/
def execGetMctpVersionSupport (s : State) : Host.Outcome State Fault Refusal :=
  .next (mctpReply s (fun s =>
    let (v, s) := s.draw
    (s, [0, 1] ++ leBytes 4 v)))

/-- GET_MESSAGE_TYPE_SUPPORT (R549): PLDM and vendor-defined PCI messages. -/
def execGetMessageTypeSupport (s : State) : Host.Outcome State Fault Refusal :=
  .next (mctpReply s (fun s => (s, [0, 2, 0x01, 0x7E])))

/-- GETTID (R549). -/
def execGettid (s : State) : Host.Outcome State Fault Refusal :=
  .next (mctpReply s (fun s =>
    let (v, s) := s.draw
    (s, [0, v % 256])))

/-- GETPLDMVERSION (R549). -/
def execGetpldmversion (s : State) : Host.Outcome State Fault Refusal :=
  .next (mctpReply s (fun s =>
    let (v, s) := s.draw
    let (c, s) := s.draw
    (s, [0] ++ leBytes 4 0 ++ [5] ++ leBytes 4 v ++ leBytes 4 c)))

/-- GETPLDMTYPES (R549): types 0 and 2. -/
def execGetpldmtypes (s : State) : Host.Outcome State Fault Refusal :=
  .next (mctpReply s (fun s => (s, [0] ++ leBytes 8 5)))

/-- GETPLDMCOMMANDS (R549). -/
def execGetpldmcommands (type : BitVec 8) (s : State) : Host.Outcome State Fault Refusal :=
  .next (mctpReply s (fun s =>
    if type = 0 then (s, [0] ++ leBytes 32 (2 ^ 2 + 2 ^ 3 + 2 ^ 4 + 2 ^ 5))
    else if type = 2 then (s, [0] ++ leBytes 32 (2 ^ 0x11 + 2 ^ 0x51))
    else (s, [0x83])))

/-- GETPDR (R549): one numeric sensor PDR for each sensor of R532, record handle id + 1; handle 0 asks for the first. -/
def execGetpdr (handle : Word) (s : State) : Host.Outcome State Fault Refusal :=
  .next (mctpReply s (fun s =>
    let k := handle.toNat - 1
    if 45 ≤ k then (s, [0x82])
    else
      let b := (Config.pdrBody k).map (· % 256)
      (s, [0] ++ leBytes 4 (if k = 44 then 0 else k + 2) ++ leBytes 4 0 ++ [5] ++ leBytes 2 b.length ++ b)))

/-- GETSENSORREADING (R549). -/
def execGetsensorreading (id : BitVec 16) (s : State) : Host.Outcome State Fault Refusal :=
  .next (mctpReply s (fun s =>
    if 45 ≤ id.toNat then (s, [0x80])
    else
      let (v, s) := s.draw
      (s, [0, 3, 0, 0] ++ leBytes 3 v ++ leBytes 2 (toField (sensor s id.toNat) 16))))

/-- SLIP_FRAME_BAD_CRC (R549): dropped and not answered. -/
def execSlipFrameBadCrc (s : State) : Host.Outcome State Fault Refusal := .next s

end Sys2Proof.Machine
end

