-- ==== Sys2Proof/Machine/Migrate.lean ====
section
/-!
DEFINITION. Machine/Migrate.lean: migrating a VF: FREEZE, SAVE, RESTORE and RESUME (R393 to R396).
-/
namespace Sys2Proof.Machine

/-- Results of a migration command (R393). -/
inductive MigResult where
  | ok | notFrozen | badMagic | version | crc | owner | access | state
deriving DecidableEq, Repr

def MigResult.code : MigResult → Nat
  | .ok => 0 | .notFrozen => 1 | .badMagic => 2 | .version => 3 | .crc => 4 | .owner => 5 | .access => 6 | .state => 7

/-- A command ends: RESULT, BUSY clear, MIG_DONE. -/
def migEnd (s : State) (f : Nat) (r : MigResult) : State :=
  let s := s.setPf (.func f) Reg.FUNC_MIG_STATUS 31 31 0
  (s.setPf (.func f) Reg.FUNC_MIG_STATUS 19 16 r.code).event (.func f) 5

/-- Why a write of MIG_CTRL is refused (R381, R393). -/
def migCheck (s : State) (f : Nat) (v : Word) : Option Cause :=
  let cmd := fget v 2 0
  if cmd = 0 ∨ 4 < cmd then some .range
  else if !fbit v 31 then none
  else if f % 32 = 0 then some .range
  else if s.pf (.func f) Reg.FUNC_MIG_STATUS 31 31 = 1 ∨ funcResetting s f then some .inuse
  else none

/-! FREEZE (R394). -/

/-- The jobs of a function that have not passed the wait stage are released, and HEAD returns to the oldest. -/
def releaseWaiting (s : State) (f : Nat) : State :=
  (List.range 4).foldl (fun s q =>
    match waitHead s f q with
    | none => s
    | some (_, j) =>
      let s := setRingF s f q rHead 11 0 j.idx
      ((jobsIn s).filter (fun e => e.2.rs == f && e.2.q == q && e.2.phase == .waiting)).foldl (fun s e => freeJob s e.1) s) s

/-- FREEZE on a function. -/
def freezeOp (s : State) (f : Nat) : State :=
  if funcFrozen s f then migEnd s f .state
  else
    let s := s.setPf (.func f) Reg.FUNC_MIG_STATUS 31 31 1
    releaseWaiting (s.setRing f { s.ring f with freezing := true }) f

/-- FREEZE_DONE (R394): every slot of the function is free, and every point record applied. -/
def execFreezeDone (f : Fin 64) (s : State) : Host.Outcome State Fault Refusal :=
  let busy := (jobsIn s).any (fun e => e.2.rs == f) || !(s.ring f).cqWait.isEmpty ||
    s.legend.jobs.any (fun j => j.func == f)
  if !(s.ring f).freezing || busy then .next s
  else
    let s := s.setRing f { s.ring f with freezing := false }
    .next (migEnd (s.setPf (.func f) Reg.FUNC_FUNC_STATUS 11 11 1) f .ok)

/-! The image (R395). -/

/-- Layers a function owns, by head and layer. -/
def ownedLayers (s : State) (f : Nat) : List (Nat × Nat) :=
  ((List.range 180).map (fun i => (i / 15, i % 15))).filter (fun e => s.owner (.layer e.1 e.2) == f)

/-- A layer record. -/
def layerRecord (s : State) (n l : Nat) : List Nat :=
  let p : Page := .layer n l
  let seq := match s.pend p with
    | some st => st.seq
    | none => fget (s.hd p .commitStatus) 31 16
  [n, l, b2n (s.pend p).isSome, 0] ++ leBytes 2 seq ++ List.replicate 26 0 ++
    (List.range 56).flatMap (fun k => leBytes 4 (s.pendReg p (0x20 + 4 * k)).toNat)

/-- Bytes 16 on of an image. -/
def imageBody (s : State) (f : Nat) : List Nat :=
  let words (o n : Nat) : List Nat := (List.range n).flatMap (fun k => leBytes 4 (pageReg s false (.func f) (o + 4 * k)).toNat)
  let raw (o n : Nat) : List Nat := (List.range n).flatMap (fun k => leBytes 4 (s.pr (.func f) (o + 4 * k)).toNat)
  let ls := ownedLayers s f
  [funcGen s f, ls.length, f] ++ List.replicate 5 0 ++ leBytes 8 s.devtime ++ List.replicate 32 0 ++
    words 0x100 128 ++ raw Reg.FUNC_MSIX 32 ++ raw Reg.FUNC_MSIX_PBA 2 ++ List.replicate 56 0 ++
    ls.flatMap (fun e => layerRecord s e.1 e.2)

/-- A migration image. -/
def imageOf (s : State) (f : Nat) : List Nat :=
  let body := imageBody s f
  leBytes 4 0x494D5843 ++ leBytes 2 0 ++ leBytes 2 1 ++ leBytes 4 (16 + body.length) ++ leBytes 4 (crc32c body) ++ body

/-- The image buffer, where it is aligned and lies in the port's range (R381, R393). -/
def imageAddr (s : State) (f : Nat) : Option Nat :=
  let a := s.pair (.func f) Reg.FUNC_MIG_ADDR_LO
  if a % 4096 = 0 ∧ inPort s (portOf f) a 65536 then some a else none

/-- The agent of a port. -/
def portAgent (f : Nat) : Nat := 0x17 + portOf f

/-- SAVE (R395). -/
def saveOp (s : State) (f : Nat) : State :=
  if !funcFrozen s f then migEnd s f .notFrozen
  else match imageAddr s f with
    | none => migEnd s f .access
    | some a =>
      let img := imageOf s f
      match busWrite s (portAgent f) false a img with
      | (s, .error _) => migEnd s f .access
      | (s, .ok _) => migEnd (s.setPf (.func f) Reg.FUNC_MIG_STATUS 10 0 (img.length / 64)) f .ok

/-! RESTORE (R396). -/

/-- The checks of an image, in their order. -/
def migImageCheck (s : State) (f : Nat) (img : List Nat) : MigResult :=
  let size := bytesAt img 8 4
  let n := bytesAt img 17 1
  let owned (i : Nat) : Bool :=
    let o := 768 + 256 * i
    bytesAt img o 1 < 12 && bytesAt img (o + 1) 1 < 15 && s.owner (.layer (bytesAt img o 1) (bytesAt img (o + 1) 1)) == f
  if bytesAt img 0 4 ≠ 0x494D5843 then .badMagic
  else if bytesAt img 6 2 ≠ 1 ∨ bytesAt img 4 2 ≠ 0 then .version
  else if size ≠ 768 + 256 * n ∨ 47104 < size ∨ bytesAt img 12 4 ≠ crc32c ((img.take size).drop 16) then .crc
  else if (List.range n).all owned then .ok
  else .owner

/-- Words of the FUNC page that RESTORE loads whole: the ring blocks, CTX_BASE, VEC_MAP, CQ_MOD. -/
def restoredWords : List Nat :=
  (List.range 40).map (fun k => Reg.FUNC_RING_BASE_LO + 4 * k) ++
    [Reg.FUNC_CTX_BASE_LO, Reg.FUNC_CTX_BASE_HI, Reg.FUNC_VEC_MAP, Reg.FUNC_CQ_MOD]

/-- One layer record is written into the layer's shadow and committed as the VF. -/
def restoreLayer (s : State) (f : Fin 64) (img : List Nat) (i : Nat) : State :=
  let o := 768 + 256 * i
  let p : Page := .layer (bytesAt img o 1) (bytesAt img (o + 1) 1)
  let s := (shdRegs p).foldl (fun s r =>
    let k := r.1 - pageBase p
    let v := w32 (bytesAt img (o + k) 4)
    let m := w32 r.2
    s.setShd r.1 ((s.shd r.1 &&& ~~~m) ||| (v &&& m))) s
  commitOp s (.func f) p (bytesAt img (o + 4) 2)

/-- The image takes effect. -/
def imageLoad (s : State) (f : Fin 64) (img : List Nat) : State :=
  let p : Page := .func f
  let word (o : Nat) : Nat := bytesAt img (64 + (o - 0x100)) 4
  let s := s.setPf p Reg.FUNC_FUNC_STATUS 31 24 (bytesAt img 16 1)
  let s := restoredWords.foldl (fun s o => if (rowAt p o).isSome then s.setPr p o (w32 (word o)) else s) s
  let s := s.setPf p Reg.FUNC_LAYER_EVENTS 19 16 (bits (word Reg.FUNC_LAYER_EVENTS) 19 16)
  let s := (List.range 32).foldl (fun s k => s.setPr p (Reg.FUNC_MSIX + 4 * k) (w32 (bytesAt img (576 + 4 * k) 4))) s
  let s := (List.range 2).foldl (fun s k => s.setPr p (Reg.FUNC_MSIX_PBA + 4 * k) (w32 (bytesAt img (704 + 4 * k) 4))) s
  (List.range (bytesAt img 17 1)).foldl (fun s i => restoreLayer s f img i) s

/-- RESTORE (R396). -/
def restoreOp (s : State) (f : Fin 64) : State :=
  if !funcFrozen s f then migEnd s f .notFrozen
  else match imageAddr s f with
    | none => migEnd s f .access
    | some a =>
      match busRead s (portAgent f) false a 47104 with
      | (s, .error _) => migEnd s f .access
      | (s, .ok img) =>
        match migImageCheck s f img with
        | .ok => migEnd (imageLoad s f img) f .ok
        | r => migEnd s f r

/-- RESUME (R396). -/
def resumeOp (s : State) (f : Nat) : State :=
  if !funcFrozen s f then migEnd s f .state
  else migEnd (s.setPf (.func f) Reg.FUNC_FUNC_STATUS 11 11 0) f .ok

/-- A write of MIG_CTRL (R393). -/
def migWriteOp (s : State) (f : Fin 64) (v : Word) : State :=
  let s := s.setPf (.func f) Reg.FUNC_MIG_CTRL 2 0 (fget v 2 0)
  if !fbit v 31 then s
  else match fget v 2 0 with
    | 1 => freezeOp s f
    | 2 => saveOp s f
    | 3 => restoreOp s f
    | _ => resumeOp s f

/-- A master writes MIG_CTRL. -/
def migWrite (s : State) (m : Master) (f : Fin 64) (v : Word) : State :=
  writeReg s m (pageBase (.func f) + Reg.FUNC_MIG_CTRL) (fun s => migCheck s f v) (fun s => migWriteOp s f v)

/-- FREEZE (R394). -/
def execFreeze (m : Master) (f : Fin 64) (s : State) : Host.Outcome State Fault Refusal :=
  .next (migWrite s m f (w32 (2 ^ 31 + 1)))

/-- SAVE (R395). -/
def execSave (m : Master) (f : Fin 64) (s : State) : Host.Outcome State Fault Refusal :=
  .next (migWrite s m f (w32 (2 ^ 31 + 2)))

/-- RESTORE (R396). -/
def execRestore (m : Master) (f : Fin 64) (s : State) : Host.Outcome State Fault Refusal :=
  .next (migWrite s m f (w32 (2 ^ 31 + 3)))

/-- RESUME (R396). -/
def execResume (m : Master) (f : Fin 64) (s : State) : Host.Outcome State Fault Refusal :=
  .next (migWrite s m f (w32 (2 ^ 31 + 4)))

end Sys2Proof.Machine
end

