-- ==== Sys2Proof/Machine/RegWrite.lean ====
section
/-!
DEFINITION. Machine/RegWrite.lean: register writes and reads as a master presents them (R40 to R42, R373, R377 to
R379): the route to a register's own rule, plain registers (R16, R62), the common header (R43 to R60), staged entries
and pairs (R69 to R71), and reads that latch (R41).
-/
namespace Sys2Proof.Machine

/-! Where an access goes. -/

/-- What an offset that a master presents names. -/
inductive Target where
  /-- A PF BAR0 offset. -/
  | at (a : Nat)
  /-- Nothing (R42, R379). -/
  | unmapped
  /-- An offset of function f's doorbell page that R385 does not list (R386). -/
  | badDoorbell (f : Nat)
  /-- An offset of the B4 window (R559). -/
  | b4 (o : Nat)
deriving DecidableEq, Repr

/-- The offset in PF BAR0 that a VF reaches at an offset of VF BAR0 (R377, R379). -/
def vfTarget (s : State) (f x : Nat) : Target :=
  let k := x / 0x1000
  let o := x % 0x1000
  if k = 0 then .at (pageBase (.func f) + o)
  else if k = 1 then (if o < 0x14 then .at (pageBase (.func f) + Reg.FUNC_DOORBELL + o) else .badDoorbell f)
  else if k < 16 then
    let w := s.pr (.func f) (Reg.FUNC_SLOT + 4 * (k - 2))
    if fbit w 31 then .at (0x1000 * fget w 13 0 + o) else .unmapped
  else if k < 64 then .at (0x100000 + (x - 0x10000))
  else .unmapped

/-- What a master's offset names: a VF presents VF BAR0, the PF of port A the B4 window in Legacy Profile, everyone
else PF BAR0. -/
def targetOf (s : State) (m : Master) (x : Nat) : Target :=
  match m with
  | .func f =>
    if f.val = 0 ∧ legacyOn s then .b4 (x / 4 * 4)
    else if f.val % 32 = 0 then .at x
    else vfTarget s f.val x
  | _ => .at x

/-! Registers with a rule of their own. -/

/-- The ring set of a page, and the ring and offset in its block of a register (R382). -/
def ringBlockAt (p : Page) (o : Nat) : Option (Nat × Nat × Nat) :=
  let blk (rs base : Nat) : Option (Nat × Nat × Nat) :=
    if base ≤ o ∧ o < base + 0xA0 then some (rs, (o - base) / 0x20, (o - base) % 0x20) else none
  match p with
  | .func k => blk k 0x200
  | .world => blk 64 0x300
  | .ctrlcplx => blk 65 0x200
  | _ => none

/-- The doorbell at an offset of a page (R385). -/
def doorbellAt (p : Page) (o : Nat) : Option (Nat × Nat) :=
  let hit (rs : Nat) : Option (Nat × Nat) :=
    if Reg.FUNC_DOORBELL ≤ o ∧ o < Reg.FUNC_DOORBELL + 20 then some (rs, (o - Reg.FUNC_DOORBELL) / 4) else none
  match p with
  | .func k => hit k
  | .world => hit 64
  | .ctrlcplx => hit 65
  | _ => none

/-- The words of table regions with a rule of their own: coefficients, and word 3 of style and glyph entries. -/
def routeTable (s : State) (m : Master) (a : Nat) (k : TableKind) (o : Nat) (v : Word) : Option State :=
  match k with
  | .coef => some (gated s m a (fun s => coefWriteOp s m (o / 0x800) (o % 0x800) v))
  | .style => if o % 16 = 12 then some (gated s m a (fun s => styleEntryOp s m (o / 16) v)) else none
  | .glyph => if o % 16 = 12 then some (gated s m a (fun s => glyphEntryOp s m (o / 16) v)) else none
  | .gain => none

/-- CTRL, COMMIT with GO and FAULT_INJECT of a page, or a layer's COMMIT. -/
def routeHeader (s : State) (m : Master) (p : Page) (o : Nat) (v : Word) : Option State :=
  match p with
  | .layer _ _ => if o = 0x08 ∧ fbit v 0 then some (commitGo s m p (fget v 31 16)) else none
  | _ =>
    if o = hdrOff .ctrl then some (ctrlWrite s m p v)
    else if o = hdrOff .commit ∧ fbit v 0 then some (commitGo s m p (fget v 31 16))
    else if o = hdrOff .inject then
      some (writeReg s m (hadr p .inject) (fun s => injectCheck s p v) (fun s => injectOp s p v))
    else none

/-- FUNC registers with a rule of their own. -/
def routeFunc (s : State) (m : Master) (f o a : Nat) (v : Word) : Option State :=
  if o = Reg.FUNC_FUNC_CTRL then
    some (writeReg s m a (fun _ => none) (fun s => if fbit v 0 then funcReset s f else s))
  else if o = Reg.FUNC_S2_ROOT_HI then some (writeReg s m a (fun _ => none) (fun s => s2RootOp s m f v))
  else if o = Reg.FUNC_S1INV_CMD then some (writeReg s m a (fun s => s1invCheck s f v) (fun s => s1invOp s f v))
  else if o = Reg.FUNC_MIG_CTRL then some (migWrite s m ⟨f % 64, Nat.mod_lt _ (by decide)⟩ v)
  else none

/-- WORLD registers with a rule of their own. -/
def routeWorld (s : State) (m : Master) (o a : Nat) (v : Word) : Option State :=
  if o = Reg.WORLD_WDOG then some (writeReg s m a (fun _ => wdogCheck v) (fun s => wdogOp s v))
  else if o = Reg.WORLD_SAFE_OK then some (safeOkWrite s m v)
  else if o = Reg.WORLD_HW_CTRL then
    some (writeReg s m a (fun _ => none) (fun s => if fbit v 0 then hwRestart s 5 else s))
  else if Reg.WORLD_CLAIM ≤ o ∧ o < Reg.WORLD_CLAIM + 128 then some (claimWrite s m ((o - Reg.WORLD_CLAIM) / 4) v)
  else none

/-- KEYS registers with a rule of their own. -/
def routeKeys (s : State) (m : Master) (o a : Nat) (v : Word) : Option State :=
  if o = Reg.KEYS_SELFTEST then some (writeReg s m a (fun s => selftestCheck s v) (fun s => selftestOp s v))
  else if Reg.KEYS_EQ_BASE_LO ≤ o ∧ o < Reg.KEYS_EQ_BASE_LO + 0x100 then
    let q := (o - Reg.KEYS_EQ_BASE_LO) / 16
    if o % 16 = 4 then some (eqBaseWrite s m q v)
    else if o % 16 = 8 then
      some (writeReg s m a (fun s => eqHeadCheck s q v) (fun s => s.setPr .keys o (v &&& 0xFFF)))
    else none
  else none

/-- LEGEND registers with a rule of their own. -/
def routeLegend (s : State) (m : Master) (o a : Nat) (v : Word) : Option State :=
  let rng (t base cnt : Nat) : Option State :=
    if base ≤ o ∧ o < base + 8 * cnt ∧ o % 8 = 4 then some (gated s m a (fun s => rangeWriteOp s m t ((o - base) / 8) v))
    else none
  if o = Reg.LEGEND_UPD_HI then some (gated s m a (fun s => updHiOp s m v))
  else match rng 0 Reg.LEGEND_PR_LO 64 with
    | some x => some x
    | none => match rng 1 Reg.LEGEND_SR_LO 16 with
      | some x => some x
      | none => rng 2 Reg.LEGEND_GR_LO 16

/-- LEGACY registers with a rule of their own. -/
def routeLegacy (s : State) (m : Master) (o a : Nat) (v : Word) : Option State :=
  if o = Reg.LEGACY_DE_RING_RD then some (writeReg s m a (fun _ => none) (fun s => deRingRdOp s v))
  else if o = Reg.LEGACY_DE_REPORT then some (writeReg s m a (fun _ => none) (fun s => deReport s v))
  else none

/-- Registers of the other pages with a rule of their own. -/
def routeBody (s : State) (m : Master) (p : Page) (o a : Nat) (v : Word) : Option State :=
  match p with
  | .dev =>
    if o = Reg.DEV_SAFE_REQUEST then some (writeReg s m a (fun _ => safeRequestCheck v) (fun s => raiseFault s .dev 0))
    else none
  | .clkpwr =>
    if o = Reg.CLKPWR_UNIT_CTRL then some (writeReg s m a (fun s => unitCheck s v) (fun s => unitOp s v)) else none
  | .func f => routeFunc s m f o a v
  | .world => routeWorld s m o a v
  | .keys => routeKeys s m o a v
  | .legend => routeLegend s m o a v
  | .legacy => routeLegacy s m o a v
  | .kerf =>
    if Reg.KERF_STAT_CFG ≤ o ∧ o < Reg.KERF_STAT_CFG + 0x800 ∧ o % 0x80 = 0 then
      some (writeReg s m a (fun _ => none) (fun s => statCfgOp s ((o - Reg.KERF_STAT_CFG) / 0x80) v))
    else none
  | .dplink n =>
    if o = Reg.DPLINK_AUX_CTRL ∧ fbit v 31 then
      some (writeReg s m a (fun s => auxGoCheck s n) (fun s => auxGoOp s n (fget v 7 4) (fget v 3 0)))
    else none
  | .memctl =>
    if o = Reg.MEMCTL_RECODE_CFG then some (writeReg s m a (fun _ => recodeCfgCheck v) (fun s => recodeCfgOp s v))
    else if Reg.MEMCTL_MIR_LO ≤ o ∧ o < Reg.MEMCTL_MIR_LO + 128 ∧ o % 8 = 4 then
      let k := (o - Reg.MEMCTL_MIR_LO) / 8
      some (writeReg s m a (fun s => mirWindowCheck s m k v) (fun s => mirWindowOp s m k v))
    else none
  | .shim =>
    if Reg.SHIM_SHIM_LO ≤ o ∧ o < Reg.SHIM_SHIM_LO + 256 ∧ o % 8 = 4 then
      let k := (o - Reg.SHIM_SHIM_LO) / 8
      some (writeReg s m a (fun s => shimCheck s m k v) (fun s => shimOp s m k v))
    else none
  | .xlate =>
    if o = s2invOff 0 8 then some (writeReg s m a (fun s => s2invCheck s 0 v) (fun s => s2invOp s 0 v))
    else if o = s2invOff 1 8 then some (writeReg s m a (fun s => s2invCheck s 1 v) (fun s => s2invOp s 1 v))
    else none
  | .hapch ch =>
    if o = Reg.HAPCH_TRIGGER then
      some (writeReg s m a (fun _ => none) (fun s =>
        let s := if fbit v 30 then hapStopOp s ch else s
        if fbit v 31 then hostTriggerOp s ch (fget v 5 0) else s))
    else none
  | .audio =>
    if Reg.AUDIO_SRC_BASE_LO ≤ o ∧ o < Reg.AUDIO_SRC_BASE_LO + 768 ∧ o % 16 = 4 then
      let k := (o - Reg.AUDIO_SRC_BASE_LO) / 16
      some (writeReg s m a (fun s => srcEnableCheck s m k v) (fun s => srcEnableOp s m k v))
    else none
  | .cvu u =>
    if o = Reg.CVU_CVU_CLOSE then some (writeReg s m a (fun _ => none) (fun s => cvuCloseOp s u v)) else none
  | .surveyorMb =>
    match mbSlotAt o with
    | some k =>
      if o = slotOff k 0 then some (writeReg s m a (fun s => mbReqCheck s k v) (fun s => mbReqOp s k v)) else none
    | none => none
  | _ => none

/-- The state after a write of a register that has a rule of its own; none for the others. -/
def routeOwn (s : State) (m : Master) (a : Nat) (v : Word) : Option State :=
  match tableAt a with
  | some (k, o) => routeTable s m a k o v
  | none =>
    match pageAt a with
    | none => none
    | some (p, o) =>
      if o < pageBody p then routeHeader s m p o v
      else match ringBlockAt p o with
        | some (rs, r, x) => if x = rCtrl then some (ringCtrlWrite s m rs r v) else none
        | none =>
          match doorbellAt p o with
          | some (rs, r) => some (doorbellWrite s m rs r v)
          | none => routeBody s m p o a v

/-! Values a plain register takes (R62). The ranges are those the rules of the registers state. -/

/-- RANGE where a test fails. -/
def need (b : Bool) : Option Cause := if b then none else some .range

/-- A number lies in a range. -/
def within (x lo hi : Nat) : Bool := lo ≤ x && x ≤ hi

/-- HIGH words whose bits 31:16 must be 0 (R140). -/
def highZero (v : Word) : Bool := fget v 31 16 == 0

/-- Ranges of the head and scaler registers (R83, R120, R122, R185). -/
def rangeHead (s : State) (p : Page) (o : Nat) (v : Word) : Option Cause :=
  match p with
  | .timing n =>
    let w0 := if o = Reg.TIMING_PLL_CFG0 then v else s.pr (.timing n) Reg.TIMING_PLL_CFG0
    let w1 := if o = Reg.TIMING_PLL_CFG1 then v else s.pr (.timing n) Reg.TIMING_PLL_CFG1
    if o = Reg.TIMING_PLL_CFG0 ∨ o = Reg.TIMING_PLL_CFG1 then
      need (within (fget w0 24 16) 2 432 && within (fget w0 6 0) 54 108 && (fget w0 6 0 != 108 || fget w1 23 0 == 0))
    else none
  | .dplink n =>
    if o = Reg.DPLINK_LINK_CFG then need (fget v 5 4 != 3 && fget v 2 0 != 7)
    else if o = Reg.DPLINK_DSC_CFG then need (fget v 5 4 != 3 && within (fget v 24 16) 128 464)
    else if o = Reg.DPLINK_DSC_SLICE then need (within (fget v 15 0) 8 (rasterInForce s n).vActive)
    else none
  | _ => need (!(Reg.SCALER_SET_OWNER ≤ o && o < Reg.SCALER_SET_OWNER + 64) || ownerCodeOk (fget v 7 0))

/-- Ranges of FUNC registers (R379, R381). -/
def rangeFunc (o : Nat) (v : Word) : Option Cause :=
  if o = Reg.FUNC_CQ_MOD then need (fget v 11 0 != 0)
  else if o = Reg.FUNC_MIG_ADDR_HI then need (highZero v)
  else if Reg.FUNC_SLOT ≤ o ∧ o < Reg.FUNC_SLOT + 56 then
    let t := 0x1000 * fget v 13 0
    need (match tableAt t with
      | some _ => true
      | none => match pageAt t with
        | some (.func _, _) | some (.world, _) | none => false
        | some _ => true)
  else none

/-- Ranges of WORLD registers, with the lock of the watermark (R408, R412, R439). -/
def rangeWorld (s : State) (o : Nat) (v : Word) : Option Cause :=
  if o = Reg.WORLD_ISO_LEVEL then need ((List.range 8).all (fun c => within (fget v (2 * c + 1) (2 * c)) 1 2))
  else if o = Reg.WORLD_HW_BUDGET then need (10 ≤ fget v 15 0)
  else if o = Reg.WORLD_CORE_CFG then need (within (fget v 7 0) 1 254)
  else if o = Reg.WORLD_HW_WATERMARK then
    if s.pf .world o 31 31 = 1 then some .mode else need (fget v 12 0 ≤ 4096)
  else if o = Reg.WORLD_WCALL_VECTOR_LO ∨ o = Reg.WORLD_RESET_VECTOR_LO then need (fget v 1 0 == 0)
  else if o = Reg.WORLD_HW_CTX_BASE_LO then need (fget v 9 0 == 0)
  else if o = Reg.WORLD_HW_CTX_BASE_HI then need (highZero v)
  else none

/-- A sink bank that a write may not touch: the active one, or either while a swap is pending (R481, R493). -/
def bankHeld (s : State) (k : Nat) : Bool := activeBank s == k || (s.pend .audio).isSome

/-- Ranges of AUDIO registers, and the banks in use (R477, R492, R493). -/
def rangeAudio (s : State) (o : Nat) (v : Word) : Option Cause :=
  if o = Reg.AUDIO_ACFG then need (within (fget v 31 16) 5 2000)
  else if o = Reg.AUDIO_METER_CFG then need (1 ≤ fget v 15 12 && 4 ≤ fget v 11 8)
  else if Reg.AUDIO_SIL_CFG ≤ o ∧ o < Reg.AUDIO_SIL_CFG + 32 ∧ o % 8 = 4 then need (10 ≤ fget v 15 0)
  else if Reg.AUDIO_SRC_BASE_LO ≤ o ∧ o < Reg.AUDIO_SRC_BASE_LO + 768 ∧ o % 16 = 12 then need (ownerCodeOk (fget v 7 0))
  else if Reg.AUDIO_SINK_ROUTE0 ≤ o then
    if bankHeld s (if o < Reg.AUDIO_SINK_ROUTE1 then 0 else 1) then some .inuse
    else match o % 16 with
      | 0 => need (fget v 29 27 ≤ 5)
      | 4 => need (fget v 30 0 != 0)
      | 8 => need (within (fget v 24 0) 1 (2 ^ 24))
      | _ => none
  else none

/-- Ranges of the console block's registers (R460, R470, R471). -/
def rangeConsole (p : Page) (o : Nat) (v : Word) : Option Cause :=
  match p with
  | .keys =>
    if o = Reg.KEYS_KEYS_CFG then need (within (fget v 15 12) 2 12 && fget v 11 0 != 0)
    else if Reg.KEYS_KEY_THRESH ≤ o ∧ o < Reg.KEYS_KEY_THRESH + 1024 then
      need (fget v 23 12 < fget v 11 0 && fget v 31 28 != 0 && fget v 27 24 != 0)
    else if Reg.KEYS_KEY_CFG ≤ o ∧ o < Reg.KEYS_KEY_CFG + 1024 then need (ownerCodeOk (fget v 7 0))
    else none
  | .haptic => need (o != Reg.HAPTIC_POWER_CAP || within (fget v 15 0) 1 4000)
  | _ =>
    if o = Reg.HAPCH_HCFG then need (within (fget v 31 24) 1 240 && within (fget v 20 16) 10 20 && within (fget v 8 0) 50 400)
    else if o = Reg.HAPCH_HLIMITS then need (within (fget v 15 0) 1 1200)
    else none

/-- Ranges of SCHED registers (R328). -/
def rangeSched (o : Nat) (v : Word) : Option Cause :=
  if o = Reg.SCHED_FENCE_TIMEOUT ∨ o = Reg.SCHED_TRANSLATE then need (fget v 15 0 != 0)
  else if o = Reg.SCHED_WATCHDOG then need (fget v 31 24 != 0 && 100 ≤ fget v 15 0)
  else if o = Reg.SCHED_FUNC_JOB_CAP then need (within (fget v 9 0) 8 960)
  else if Reg.SCHED_FUNC_LIMIT ≤ o ∧ o < Reg.SCHED_FUNC_LIMIT + 256 then need (fget v 1 0 != 0)
  else none

/-- Ranges of CVU registers (R514). -/
def rangeCvu (o : Nat) (v : Word) : Option Cause :=
  if o = Reg.CVU_CVU_CFG then need (fget v 31 24 ≤ 0x19 && fget v 21 16 ≤ 55 && fget v 11 8 ≤ 11)
  else if o = Reg.CVU_CVU_RECT_SIZE then need (within (fget v 29 16) 1 8192 && within (fget v 13 0) 1 8192)
  else if o = Reg.CVU_CVU_COUNT then need (fget v 15 0 != 0)
  else if o = Reg.CVU_CVU_BASE_LO ∨ o = Reg.CVU_CVU_LIMIT_LO then need (fget v 5 0 == 0)
  else if o = Reg.CVU_CVU_BASE_HI ∨ o = Reg.CVU_CVU_LIMIT_HI then need (highZero v)
  else none

/-- The base of the draw-engine ring lies at or above the watermark (R582). -/
def deBaseOk (s : State) (m : Master) (hi : Word) : Bool :=
  let lo := pageBase .legacy + Reg.LEGACY_DE_RING_BASE_LO
  let w := ((s.staged m lo lo).find? (fun w => w.1 == lo)).elim (s.reg lo) (·.2)
  watermarkAddr s ≤ 65536 * (w.toNat / 65536) + 2 ^ 32 * fget hi 15 0

/-- Why the value of a block-specific register is refused. -/
def valueCheck (s : State) (m : Master) (p : Page) (o : Nat) (v : Word) : Option Cause :=
  match p with
  | .dev => if o = Reg.DEV_INJECT ∧ s.pf .dev o 0 0 = 1 ∧ fbit v 0 = false then some .mode else none
  | .timing _ | .dplink _ | .scaler => rangeHead s p o v
  | .legend => need (o != Reg.LEGEND_PT_BASE_LO || fget v 19 0 == 0)
  | .sched => rangeSched o v
  | .memctl => need (o != Reg.MEMCTL_SCRUB_PERIOD || fget v 15 0 != 0)
  | .memch _ => need (o != Reg.MEMCH_SR_CFG || fget v 31 16 != 0)
  | .func _ => rangeFunc o v
  | .world => rangeWorld s o v
  | .ctrlcplx =>
    if o = Reg.CTRLCPLX_SAP_CTX_BASE_LO then need (fget v 9 0 == 0)
    else if o = Reg.CTRLCPLX_SAP_CTX_BASE_HI then need (highZero v)
    else none
  | .hostif q =>
    need (o != Reg.HOSTIF_BAR2_SLIDE ||
      s.pair (.hostif q) Reg.HOSTIF_MEM_BASE_LO + 0x10000000 * fget v 7 0 < s.pair (.hostif q) Reg.HOSTIF_MEM_LIMIT_LO)
  | .keys | .haptic | .hapch _ => rangeConsole p o v
  | .audio => rangeAudio s o v
  | .cvu _ => rangeCvu o v
  | .legacy => need (o != Reg.LEGACY_DE_RING_BASE_HI || deBaseOk s m v)
  | .surveyorMb =>
    (match mbSlotAt o with
      | some k => if slotBusy s k then some .inuse else none
      | none => none)
  | _ => none

/-- The RWL fields at an offset may not change now (R62, R382). -/
def rwlLocked (s : State) (p : Page) (o : Nat) : Bool :=
  match ringBlockAt p o with
  | some (rs, r, _) => ringOn s rs r
  | none => if enableHasFunction p then s.enabled p || s.busy p else s.busy p

/-- Why a write of a block-specific register is refused once R73 permits it: read-only, a locked RWL field, or its
value (R62). -/
def bodyCheck (s : State) (m : Master) (p : Page) (o : Nat) (r : RegRow) (v : Word) : Option Cause :=
  let a := pageBase p + o
  let open_ := accMask r (fun t => t != .ro && (t != .sv || m.code == 0x41))
  let rwl := w32 (accMask r (fun t => t == .rwl))
  if open_ = 0 then some .range
  else if rwlLocked s p o && (s.reg a ^^^ v) &&& rwl != 0 then some .inuse
  else valueCheck s m p o v

/-! The header (R43 to R60). -/

/-- The ones of a write, less the bits hardware sets in the same cycle (R52). -/
def clears (s : State) (a : Nat) (v : Word) : Word := v &&& ~~~ (w32 (aget 0 s.cyc.hwSet a))

/-- FAULT_STATUS is written: bits clear, and VALID of FAULT_FIRST with the last of them (R53, R54, R499). -/
def faultClear (s : State) (p : Page) (v : Word) : State :=
  let a := hadr p .faultStatus
  let s := s.setReg a (s.reg a &&& ~~~ (clears s a v))
  if s.reg a = 0 then s.setHf p .faultFirst 16 16 0 else s

/-- CFG_REJECT_INFO is written: clearing VALID clears COUNT and OVERRUN (R60). -/
def rejectClear (s : State) (p : Page) (v : Word) : State :=
  let a := hadr p .reject
  let w := s.reg a &&& ~~~ (clears s a v &&& 3)
  s.setReg a (if fbit w 0 then w else fset (fset w 19 12 0) 1 1 0)

/-- An action word with every action below its floor replaced by the floor (R56). -/
def floored (p : Page) (k : Nat) (v : Word) : Word :=
  (List.range 16).foldl (fun w i =>
    if fget w (2 * i + 1) (2 * i) < faultFloor p (16 * k + i) then fset w (2 * i + 1) (2 * i) (faultFloor p (16 * k + i))
    else w) v

/-- FAULT_ACTION0 or 1 is written (R56). -/
def actionWrite (s : State) (m : Master) (p : Page) (k : Nat) (v : Word) : State :=
  let a := hadr p (if k = 0 then .action0 else .action1)
  let w := floored p k v
  let s := ((s.notePrev a).setReg a w).noteWrite a
  if w = v then s else s.refuse m p .range a a

/-- The bits of the SURVEYOR_MB interrupt registers that are a master's own (R545). -/
def mbOwnBits (m : Master) : Word := w32 (maskOf 4 (fun k => mbMaster k == m.code))

/-- The bits of IRQ_STATUS and IRQ_ENABLE that a write may change. -/
def irqBits (m : Master) (p : Page) : Word := if p = .surveyorMb then mbOwnBits m else 0xFFFFFFFF

/-- Why a write of OWNER is refused once R73 permits the master (R59, R72, R73, R380, R432, R545): the pages whose
owner never changes, a code that a PF may not give, a code or a PORT that is not used. -/
def ownerCheck (m : Master) (p : Page) (v : Word) : Option Cause :=
  let c := fget v 7 0
  let fixed := match p with
    | .func _ | .surveyorMb | .layer _ 15 => true
    | _ => false
  let pf := match m with
    | .func _ => true
    | _ => false
  if fixed then some .range
  else if pf && !(c == 0xFF || (m.code ≤ c && c < m.code + 32)) then some .owner
  else if !ownerCodeOk c then some .range
  else if m.code = 0x41 ∧ fget v 17 16 = 3 then some .range
  else none

/-- OWNER is written: OWNER_ID, and PORT by Surveyor (R59, R75). -/
def ownerWrite (s : State) (m : Master) (p : Page) (v : Word) : State :=
  let s := if m.code = 0x41 then s.setHf p .owner 17 16 (fget v 17 16) else s
  changeOwner s p (fget v 7 0)

/-- A register of the common header or of a layer header, after the checks of the fabric. CTRL, FAULT_INJECT and a
COMMIT with GO take their own route. -/
def headerWrite (s : State) (m : Master) (p : Page) (o a : Nat) (v : Word) : State :=
  if a = hadr p .commit then s
  else if a = hadr p .commitStatus then (s.setReg a (s.reg a &&& ~~~ (clears s a v &&& 2))).noteWrite a
  else if a = hadr p .owner then
    (match ownerCheck m p v with
      | some c => s.refuse m p c a a
      | none => (ownerWrite s m p v).noteWrite a)
  else if a = hadr p .reject then (rejectClear s p v).noteWrite a
  else if pageBody p ≠ 0x100 then s.refuse m p .range a a
  else if o = hdrOff .irqStatus then
    (s.setReg a (s.reg a &&& ~~~ (clears s a v &&& irqBits m p &&& 0x7FFFFFFF))).noteWrite a
  else if o = hdrOff .irqEnable then
    (s.setReg a ((s.reg a &&& ~~~ (irqBits m p)) ||| (v &&& irqBits m p))).noteWrite a
  else if o = hdrOff .irqSet then (s.hwBits (hadr p .irqStatus) (v &&& 0x7FFFFFFF).toNat).noteWrite a
  else if o = hdrOff .faultStatus then (faultClear s p v).noteWrite a
  else if o = hdrOff .action0 then actionWrite s m p 0 v
  else if o = hdrOff .action1 then actionWrite s m p 1 v
  else s.refuse m p .range a a

/-! Staged entries and pairs (R69 to R71). -/

/-- The row is half of a writable pair. -/
def stagedPair (r : RegRow) : Bool := r.pair != 0 && accMask r (fun t => t != .ro && t != .w1c) != 0

/-- The table of a pair whose lower word lies at an address: the three range tables, else the pair itself. -/
def pairTable (p : Page) (o lo : Nat) : Nat :=
  match p with
  | .legend =>
    if Reg.LEGEND_PR_LO ≤ o ∧ o < Reg.LEGEND_PR_LO + 512 then pageBase .legend + Reg.LEGEND_PR_LO
    else if Reg.LEGEND_SR_LO ≤ o ∧ o < Reg.LEGEND_SR_LO + 128 then pageBase .legend + Reg.LEGEND_SR_LO
    else if Reg.LEGEND_GR_LO ≤ o ∧ o < Reg.LEGEND_GR_LO + 128 then pageBase .legend + Reg.LEGEND_GR_LO
    else lo
  | _ => lo

/-- The bits of a row that a write stores: SHD fields in the shadow, the others in force. -/
def storeMask (r : RegRow) (code : Nat) : Nat := shdMask r ||| plainMask r code

/-- A word of a register takes a value: SHD fields in the shadow, the others in force (R62). -/
def putWord (s : State) (m : Master) (r : RegRow) (a : Nat) (v : Word) : State :=
  let sm := w32 (shdMask r)
  let s := if shdMask r = 0 then s else s.setShd a ((s.shd a &&& ~~~ sm) ||| (v &&& sm))
  let pm := w32 (plainMask r m.code)
  if plainMask r m.code = 0 then s else s.setReg a ((s.reg a &&& ~~~ pm) ||| (v &&& pm))

/-- The upper word of a pair is written: the staged lower word and the upper word take effect together, both checked
(R69, R71). -/
def pairWrite (s : State) (m : Master) (p : Page) (o : Nat) (r : RegRow) (v : Word) : State :=
  let a := pageBase p + o
  let lo := a - 4
  let low := (s.staged m lo lo).find? (fun w => w.1 == lo)
  let lowRow := rowAt p (o - 4)
  let lowCheck := match low, lowRow with
    | some w, some q => bodyCheck s m p (o - 4) q w.2
    | _, _ => none
  match bodyCheck s m p o r v with
  | some c => s.refuse m p c a a
  | none =>
    match lowCheck with
    | some c => s.refuse m p c a a
    | none =>
      let s := flushPage s p
      let s := match low, lowRow with
        | some w, some q => putWord (s.unstage m lo) m q lo w.2
        | _, _ => s
      (putWord s m r a v).noteWrite a

/-- The words of an effect entry as a write of its word 3 leaves them are in range (R464). -/
def effectOk (w0 w1 w2 w3 : Word) : Bool :=
  fget w1 31 26 == 0 && fget w1 15 10 == 0 && fget w2 31 10 == 0 && fget w3 31 1 == 0 &&
    (!fbit w3 0 || 2 ≤ fget w0 7 0)

/-- A word of the effect library is written (R464, R69, R70). -/
def effectWrite (s : State) (m : Master) (o : Nat) (v : Word) : State :=
  let a := pageBase .haptic + o
  let table := pageBase .haptic + Reg.HAPTIC_EFFECT_W0
  let e := a / 16 * 16
  if o % 16 ≠ 12 then s.stageWord m table e a v
  else
    let st := s.staged m table e
    let w (k : Nat) : Word := (st.find? (fun x => x.1 == e + 4 * k)).elim (s.reg (e + 4 * k)) (·.2)
    if effectOk (w 0) (w 1) (w 2) v then
      (((((s.unstage m table).setReg e (w 0)).setReg (e + 4) (w 1)).setReg (e + 8) (w 2)).setReg (e + 12) v).noteWrite a
    else s.refuse m .haptic .range a a

/-! Plain registers. -/

/-- A write of plain fields: SHD fields reach the shadow at once, the others the block, at once or after the crossing
into its domain (R16, R62). -/
def plainWrite (s : State) (m : Master) (p : Page) (r : RegRow) (a : Nat) (v : Word) : State :=
  let sm := w32 (shdMask r)
  let s := if shdMask r = 0 then s else s.setShd a ((s.shd a &&& ~~~ sm) ||| (v &&& sm))
  let rest := accMask r (fun t => t != .ro && t != .shd)
  let s :=
    if rest = 0 then s
    else if pageForeign p then { s with crossings := s.crossings ++ [⟨m.code, a, v⟩] }
    else
      let s := landWrite s ⟨m.code, a, v⟩
      match p with
      | .func f => if isMsixOff (a - pageBase p) then msixUnmask s f else s
      | _ => s
  s.noteWrite a

/-- A block-specific register of a page, after the checks of the fabric; a reserved word is ignored (R62). -/
def bodyWrite (s : State) (m : Master) (p : Page) (o : Nat) (v : Word) : State :=
  let a := pageBase p + o
  match rowAt p o with
  | none => s
  | some r =>
    if p = .haptic ∧ Reg.HAPTIC_EFFECT_W0 ≤ o then effectWrite s m o v
    else if stagedPair r && r.pair == 2 then pairWrite s m p o r v
    else match bodyCheck s m p o r v with
      | some c => s.refuse m p c a a
      | none =>
        if stagedPair r then s.stageWord m (pairTable p o a) a a (v &&& w32 (storeMask r m.code ||| accMask r (fun t => t == .wo)))
        else plainWrite s m p r a v

/-- A word of a table region without a route of its own: the lower words of style and glyph entries are staged by
their range's owner (R206, R211), a gain takes effect in a bank that is not in use (R481). -/
def tableWord (s : State) (m : Master) (a : Nat) (k : TableKind) (o : Nat) (v : Word) : State :=
  match k with
  | .coef => s
  | .style =>
    if rangeOwned s 1 (o / 16) m.code then s.stageWord m 0x170000 (a / 16 * 16) a v else s.refuse m .legend .owner a a
  | .glyph =>
    if rangeOwned s 2 (o / 16) m.code then s.stageWord m 0x180000 (a / 16 * 16) a v else s.refuse m .legend .owner a a
  | .gain =>
    if !ownerPermits s m .audio then s.refuse m .audio (denied s .audio) a a
    else if bankHeld s (o / 0x2000) then s.refuse m .audio .inuse a a
    else
      let s := { s with audio := { s.audio with badWords := s.audio.badWords.filter (fun x => x != a) } }
      (s.setReg a v).noteWrite a

/-- A write of a register without a route of its own, at an aligned PF BAR0 offset; `shown` is the offset as the
master presented it. -/
def plainAccess (s : State) (m : Master) (a shown : Nat) (v : Word) : State :=
  if !masterThere s m then s
  else
    let s := beginAccess s m
    match refusalOf s m a with
    | some r => recordRefusal s m a shown r
    | none =>
      match tableAt a with
      | some (k, o) => tableWord s m a k o v
      | none =>
        match pageAt a with
        | none => s
        | some (p, o) => if o < pageBody p then (if (rowAt p o).isSome then headerWrite s m p o a v else s) else bodyWrite s m p o v

/-- A write that is not an aligned one of all four bytes (R40). -/
def partialAccess (s : State) (m : Master) (a shown : Nat) : State :=
  if !masterThere s m then s
  else
    let s := beginAccess s m
    match refusalOf s m a with
    | some (p, c, true) => recordRefusal s m a shown (p, c, true)
    | _ => s.refuse m (recordPage a) .range a a

/-- A write as a master presents it: offset, byte enables, value. -/
def regWrite (s : State) (m : Master) (x : Nat) (be : BitVec 4) (v : Word) : State :=
  let whole := be == 15 && x % 4 == 0
  match targetOf s m x with
  | .b4 o => b4Access s o (fun s => if whole then b4Write s o v else b4Drop s)
  | .unmapped => if !masterThere s m then s else (beginAccess s m).refuse m .dev .range x x
  | .badDoorbell f => gated (flushAll s) m (doorbellAddr f 0) (fun s => doorbellBad s f)
  | .at y =>
    let a := y / 4 * 4
    if !whole then partialAccess s m a x
    else match routeOwn s m a v with
      | some s => s
      | none => plainAccess s m a x v

/-- REGISTER_WRITE (R62): presented `wait` FCLK cycles after the command before it. -/
def execRegisterWrite (m : Master) (addr : BitVec 26) (be : BitVec 4) (value : Word) (wait : BitVec 32) (s : State) :
    Host.Outcome State Fault Refusal :=
  .next (regWrite (advance s wait.toNat) m addr.toNat be value)

/-- OWNER_CHANGE (R75): a write of OWNER of a page, or of a layer's LAYER_OWNER. -/
def execOwnerChange (m : Master) (p : Page) (value : Word) (s : State) : Host.Outcome State Fault Refusal :=
  .next (if pageOk p then plainAccess s m (hadr p .owner) (hadr p .owner) value else s)

/-- The address is that of the highest word of a staged entry or of a pair (R69, R71). -/
def isTopWord (a : Nat) : Bool :=
  match tableAt a with
  | some (.style, o) | some (.glyph, o) => o % 16 == 12
  | some _ => false
  | none =>
    match pageAt a with
    | none => false
    | some (p, o) =>
      (p == .haptic && Reg.HAPTIC_EFFECT_W0 ≤ o && o % 16 == 12) ||
        (match rowAt p o with | some r => stagedPair r && r.pair == 2 | none => false)

/-- TABLE_ENTRY_WRITE (R69 to R71): a write of the highest word of an entry, at its PF BAR0 offset. -/
def execTableEntryWrite (m : Master) (addr : BitVec 26) (value : Word) (s : State) : Host.Outcome State Fault Refusal :=
  let a := addr.toNat / 4 * 4
  .next (if isTopWord a then (match routeOwn s m a value with | some s => s | none => plainAccess s m a a value) else s)

/-- FOREIGN_WRITE_EFFECT (R16): the oldest write on its way takes effect. -/
def execForeignWriteEffect (s : State) : Host.Outcome State Fault Refusal :=
  match s.crossings with
  | [] => .next s
  | c :: r => .next (landWrite { s with crossings := r } c)

/-! Reads (R40 to R42). -/

/-- The registers that a read of the one at an offset of a page latches for the reading master (R41, R109, R514). -/
def latchedBy (p : Page) (o : Nat) : List Nat :=
  match p with
  | .composer _ =>
    if Reg.COMPOSER_FLIP_SEQ ≤ o ∧ o < Reg.COMPOSER_FLIP_SEQ + 288 ∧ o % 16 = 0 then [o + 4, o + 8, o + 12] else []
  | .cvu _ => if o = Reg.CVU_RESULT then [o + 4, o + 8, o + 12, o + 16] else
      (match rowAt p o with | some r => if r.pair = 1 then [o + 4] else [] | none => [])
  | _ => match rowAt p o with
    | some r => if r.pair = 1 then [o + 4] else []
    | none => []

/-- The register at an offset is read from a latch where the master holds one: the upper word of a pair and the words
that one read latches together. -/
def readsLatch (p : Page) (o : Nat) : Bool :=
  match p with
  | .composer _ => Reg.COMPOSER_FLIP_SEQ ≤ o && o < Reg.COMPOSER_FLIP_SEQ + 288 && o % 16 != 0
  | .cvu _ => (Reg.CVU_RESULT < o && o ≤ Reg.CVU_RESULT + 16) ||
      (match rowAt p o with | some r => r.pair == 2 | none => false)
  | _ => match rowAt p o with | some r => r.pair == 2 | none => false

/-- A read of CVU RESULT by a master that is shown it marks the results read (R514). -/
def resultRead (s : State) (m : Master) (p : Page) (o : Nat) : State :=
  match p with
  | .cvu u => if o = Reg.CVU_RESULT && shownTo s m p o && readable s p o then s.setCvu u { s.cvu u with unread := 0 } else s
  | _ => s

/-- A read at an aligned PF BAR0 offset: the latches it fills, and the answer (R41). -/
def pfRead (s : State) (m : Master) (a shown : Nat) : State :=
  let plain (s : State) : State := { s with answer := some ⟨m.code, shown, readReg s m a⟩ }
  match tableAt a, pageAt a with
  | none, some (p, o) =>
    let fresh := readReg s m a
    let v := if readsLatch p o && shownTo s m p o && readable s p o then (s.latched m a).getD fresh else fresh
    let s := (latchedBy p o).foldl (fun s x => s.latch m (pageBase p + x) (readReg s m (pageBase p + x))) s
    { resultRead s m p o with answer := some ⟨m.code, shown, v⟩ }
  | _, _ => plain s

/-- A read as a master presents it; a function's read follows its earlier writes (R373). -/
def regRead (s : State) (m : Master) (x : Nat) : State :=
  match targetOf s m x with
  | .b4 o => b4ReadAccess s o
  | t =>
    if !masterThere s m then s
    else
      let s := beginAccess s m
      let s := if isFunc m then flushAll s else s
      match t with
      | .at y => pfRead s m (y / 4 * 4) x
      | _ => { s with answer := some ⟨m.code, x, 0⟩ }

/-- LO_READ_LATCH (R41): a read, presented `wait` FCLK cycles after the command before it. -/
def execLoReadLatch (m : Master) (addr : BitVec 26) (wait : BitVec 32) (s : State) : Host.Outcome State Fault Refusal :=
  .next (regRead (advance s wait.toNat) m addr.toNat)

end Sys2Proof.Machine
end

