-- ==== Sys2Proof/Machine/Dispatch.lean ====
section
/-!
DEFINITION. Machine/Dispatch.lean: exec, the effect of a command on everything but the queue: one arm per
constructor of Instr, each one direct call of its meaning.
-/
namespace Sys2Proof.Machine

/-- The effect of a command (spec/opcode_table.json). -/
def exec (i : Instr) (s : State) : Host.Outcome State Fault Refusal :=
  match i with
  | .registerWrite m addr be value wait => Sys2Proof.Machine.execRegisterWrite m addr be value wait s
  | .loReadLatch m addr wait => Sys2Proof.Machine.execLoReadLatch m addr wait s
  | .foreignWriteEffect => Sys2Proof.Machine.execForeignWriteEffect s
  | .softReset m p value => Sys2Proof.Machine.execSoftReset m p value s
  | .softResetDone p => Sys2Proof.Machine.execSoftResetDone p s
  | .enableDrainDone p => Sys2Proof.Machine.execEnableDrainDone p s
  | .commitGo m p seq => Sys2Proof.Machine.execCommitGo m p seq s
  | .commitApply p => Sys2Proof.Machine.execCommitApply p s
  | .ownerChange m p value => Sys2Proof.Machine.execOwnerChange m p value s
  | .tableEntryWrite m addr value => Sys2Proof.Machine.execTableEntryWrite m addr value s
  | .headEnable m n => Sys2Proof.Machine.execHeadEnable m n s
  | .pllLock n => Sys2Proof.Machine.execPllLock n s
  | .headDisable m n => Sys2Proof.Machine.execHeadDisable m n s
  | .timingStop n => Sys2Proof.Machine.execTimingStop n s
  | .pllStopped n => Sys2Proof.Machine.execPllStopped n s
  | .pllUnlock n => Sys2Proof.Machine.execPllUnlock n s
  | .pllRelock n => Sys2Proof.Machine.execPllRelock n s
  | .frameStart n => Sys2Proof.Machine.execFrameStart n s
  | .frameLatch n => Sys2Proof.Machine.execFrameLatch n s
  | .bandLatch n b => Sys2Proof.Machine.execBandLatch n b s
  | .disabledLatch n => Sys2Proof.Machine.execDisabledLatch n s
  | .layerFetch n veneer k line => Sys2Proof.Machine.execLayerFetch n veneer k line s
  | .lineCompose n line => Sys2Proof.Machine.execLineCompose n line s
  | .layerFetchFault n k line watermark addr => Sys2Proof.Machine.execLayerFetchFault n k line watermark addr s
  | .layerDataError n k line addr => Sys2Proof.Machine.execLayerDataError n k line addr s
  | .paletteRead n k => Sys2Proof.Machine.execPaletteRead n k s
  | .retireWrite n k => Sys2Proof.Machine.execRetireWrite n k s
  | .veneerWriteBehind n r row => Sys2Proof.Machine.execVeneerWriteBehind n r row s
  | .writeBehindAbandon n => Sys2Proof.Machine.execWriteBehindAbandon n s
  | .veneerReadError n r line => Sys2Proof.Machine.execVeneerReadError n r line s
  | .veneerWriteError n r => Sys2Proof.Machine.execVeneerWriteError n r s
  | .hpdPlug n rate lanes dsc => Sys2Proof.Machine.execHpdPlug n rate lanes dsc s
  | .hpdUnplug n => Sys2Proof.Machine.execHpdUnplug n s
  | .irqHpd n lostLock => Sys2Proof.Machine.execIrqHpd n lostLock s
  | .edidReadDone n blocks => Sys2Proof.Machine.execEdidReadDone n blocks s
  | .linkTraining n => Sys2Proof.Machine.execLinkTraining n s
  | .trainingAttemptEnd n ok => Sys2Proof.Machine.execTrainingAttemptEnd n ok s
  | .auxGo m n cmd len => Sys2Proof.Machine.execAuxGo m n cmd len s
  | .auxReply n reply => Sys2Proof.Machine.execAuxReply n reply s
  | .auxTimeout n => Sys2Proof.Machine.execAuxTimeout n s
  | .streamUnderflow n => Sys2Proof.Machine.execStreamUnderflow n s
  | .phyFault n => Sys2Proof.Machine.execPhyFault n s
  | .coefWrite m k off value => Sys2Proof.Machine.execCoefWrite m k off value s
  | .legendEnable m => Sys2Proof.Machine.execLegendEnable m s
  | .pointRecordAccept m => Sys2Proof.Machine.execPointRecordAccept m s
  | .pointEntryRead => Sys2Proof.Machine.execPointEntryRead s
  | .updHiWrite m value => Sys2Proof.Machine.execUpdHiWrite m value s
  | .rangeWrite m t j value => Sys2Proof.Machine.execRangeWrite m t j value s
  | .styleEntryWrite m e value => Sys2Proof.Machine.execStyleEntryWrite m e value s
  | .glyphEntryWrite m e value => Sys2Proof.Machine.execGlyphEntryWrite m e value s
  | .snapshot n r => Sys2Proof.Machine.execSnapshot n r s
  | .glyphFill n g => Sys2Proof.Machine.execGlyphFill n g s
  | .glyphCacheParity n g => Sys2Proof.Machine.execGlyphCacheParity n g s
  | .glyphFetchFault n g => Sys2Proof.Machine.execGlyphFetchFault n g s
  | .pointReadFail n r c => Sys2Proof.Machine.execPointReadFail n r c s
  | .memoryRead agent sec addr len => Sys2Proof.Machine.execMemoryRead agent sec addr len s
  | .memoryWrite agent sec addr bytes => Sys2Proof.Machine.execMemoryWrite agent sec addr bytes s
  | .correctingRead agent sec addr damage => Sys2Proof.Machine.execCorrectingRead agent sec addr damage s
  | .staleReread agent sec addr damage gone => Sys2Proof.Machine.execStaleReread agent sec addr damage gone s
  | .mirrorRead agent sec addr damage mirrorDamage => Sys2Proof.Machine.execMirrorRead agent sec addr damage mirrorDamage s
  | .pageRecode => Sys2Proof.Machine.execPageRecode s
  | .mirWindowWrite m k value => Sys2Proof.Machine.execMirWindowWrite m k value s
  | .mirrorSyncDone k => Sys2Proof.Machine.execMirrorSyncDone k s
  | .shimInstall m k value => Sys2Proof.Machine.execShimInstall m k value s
  | .shimCopyDone k => Sys2Proof.Machine.execShimCopyDone k s
  | .scrubStripe => Sys2Proof.Machine.execScrubStripe s
  | .scrubPeriodStart => Sys2Proof.Machine.execScrubPeriodStart s
  | .refreshInterval c issued => Sys2Proof.Machine.execRefreshInterval c issued s
  | .tempPoll c rate temp => Sys2Proof.Machine.execTempPoll c rate temp s
  | .periodicRetrain c => Sys2Proof.Machine.execPeriodicRetrain c s
  | .retrainDone c ok => Sys2Proof.Machine.execRetrainDone c ok s
  | .selfRefreshEntry c => Sys2Proof.Machine.execSelfRefreshEntry c s
  | .selfRefreshExit c => Sys2Proof.Machine.execSelfRefreshExit c s
  | .clrMax m value => Sys2Proof.Machine.execClrMax m value s
  | .memInitStripe => Sys2Proof.Machine.execMemInitStripe s
  | .secureSramParity agent off => Sys2Proof.Machine.execSecureSramParity agent off s
  | .dataFlip agent sec addr bytes => Sys2Proof.Machine.execDataFlip agent sec addr bytes s
  | .parityFlip agent sec addr bytes => Sys2Proof.Machine.execParityFlip agent sec addr bytes s
  | .silentFlip agent sec addr bytes => Sys2Proof.Machine.execSilentFlip agent sec addr bytes s
  | .sqDoorbell m rs q value => Sys2Proof.Machine.execSqDoorbell m rs q value s
  | .cqDoorbell m rs value => Sys2Proof.Machine.execCqDoorbell m rs value s
  | .descriptorFetch rs q => Sys2Proof.Machine.execDescriptorFetch rs q s
  | .completionWrite rs => Sys2Proof.Machine.execCompletionWrite rs s
  | .cqWrite rs => Sys2Proof.Machine.execCqWrite rs s
  | .msixMessage f => Sys2Proof.Machine.execMsixMessage f s
  | .cqModTimer f => Sys2Proof.Machine.execCqModTimer f s
  | .ringEnable m rs r value => Sys2Proof.Machine.execRingEnable m rs r value s
  | .restart m rs r value => Sys2Proof.Machine.execRestart m rs r value s
  | .pcieLinkUp p speed width => Sys2Proof.Machine.execPcieLinkUp p speed width s
  | .linkDown p => Sys2Proof.Machine.execLinkDown p s
  | .hotReset p => Sys2Proof.Machine.execHotReset p s
  | .functionLevelReset f => Sys2Proof.Machine.execFunctionLevelReset f s
  | .funcCtrlReset m f value => Sys2Proof.Machine.execFuncCtrlReset m f value s
  | .resetDone f => Sys2Proof.Machine.execResetDone f s
  | .vfEnableChange p enable n => Sys2Proof.Machine.execVfEnableChange p enable n s
  | .configRequest p fn op => Sys2Proof.Machine.execConfigRequest p fn op s
  | .bar2Access p off len data => Sys2Proof.Machine.execBar2Access p off len data s
  | .vfBar2Access f off len data => Sys2Proof.Machine.execVfBar2Access f off len data s
  | .malformedTlp p => Sys2Proof.Machine.execMalformedTlp p s
  | .ecrcError p => Sys2Proof.Machine.execEcrcError p s
  | .poisonedRequest p => Sys2Proof.Machine.execPoisonedRequest p s
  | .unexpectedCompletion p => Sys2Proof.Machine.execUnexpectedCompletion p s
  | .completionTimeout p kind req => Sys2Proof.Machine.execCompletionTimeout p kind req s
  | .xlateWalk f ctx addr write agent source => Sys2Proof.Machine.execXlateWalk f ctx addr write agent source s
  | .s1invGo m f value => Sys2Proof.Machine.execS1invGo m f value s
  | .s1invDone f => Sys2Proof.Machine.execS1invDone f s
  | .s2invGo m p value => Sys2Proof.Machine.execS2invGo m p value s
  | .s2RootWrite m f value => Sys2Proof.Machine.execS2RootWrite m f value s
  | .s2invDone p => Sys2Proof.Machine.execS2invDone p s
  | .freeze m f => Sys2Proof.Machine.execFreeze m f s
  | .freezeDone f => Sys2Proof.Machine.execFreezeDone f s
  | .save m f => Sys2Proof.Machine.execSave m f s
  | .restore m f => Sys2Proof.Machine.execRestore m f s
  | .resume m f => Sys2Proof.Machine.execResume m f s
  | .cvuEnable m u => Sys2Proof.Machine.execCvuEnable m u s
  | .cvuClose m u value => Sys2Proof.Machine.execCvuClose m u value s
  | .nop slot => Sys2Proof.Machine.execNop slot s
  | .render slot => Sys2Proof.Machine.execRender slot s
  | .compute slot => Sys2Proof.Machine.execCompute slot s
  | .copy slot => Sys2Proof.Machine.execCopy slot s
  | .fill slot => Sys2Proof.Machine.execFill slot s
  | .moduleLoad slot => Sys2Proof.Machine.execModuleLoad slot s
  | .moduleUnload slot => Sys2Proof.Machine.execModuleUnload slot s
  | .pointUpdate rs => Sys2Proof.Machine.execPointUpdate rs s
  | .present slot => Sys2Proof.Machine.execPresent slot s
  | .fencePoll slot => Sys2Proof.Machine.execFencePoll slot s
  | .fenceTimeout slot => Sys2Proof.Machine.execFenceTimeout slot s
  | .workDispatch unit => Sys2Proof.Machine.execWorkDispatch unit s
  | .preemptDone b => Sys2Proof.Machine.execPreemptDone b s
  | .workgroupDone slot wg => Sys2Proof.Machine.execWorkgroupDone slot wg s
  | .partialFlush slot => Sys2Proof.Machine.execPartialFlush slot s
  | .tileComplete slot tile => Sys2Proof.Machine.execTileComplete slot tile s
  | .bayFence b bit => Sys2Proof.Machine.execBayFence b bit s
  | .tileWatchdog slot tile => Sys2Proof.Machine.execTileWatchdog slot tile s
  | .jobWatchdog slot => Sys2Proof.Machine.execJobWatchdog slot s
  | .translateDone slot => Sys2Proof.Machine.execTranslateDone slot s
  | .translateTimeout slot => Sys2Proof.Machine.execTranslateTimeout slot s
  | .jobComplete slot => Sys2Proof.Machine.execJobComplete slot s
  | .wcall c mode pc => Sys2Proof.Machine.execWcall c mode pc s
  | .wret c mode pc => Sys2Proof.Machine.execWret c mode pc s
  | .secureIrqTaken => Sys2Proof.Machine.execSecureIrqTaken s
  | .normalIrqTaken c => Sys2Proof.Machine.execNormalIrqTaken c s
  | .hwBudgetExpiry c => Sys2Proof.Machine.execHwBudgetExpiry c s
  | .wdogExpiry c => Sys2Proof.Machine.execWdogExpiry c s
  | .kick m value => Sys2Proof.Machine.execKick m value s
  | .monitorFault c => Sys2Proof.Machine.execMonitorFault c s
  | .coreParity c => Sys2Proof.Machine.execCoreParity c s
  | .hwCtrlRestart m value => Sys2Proof.Machine.execHwCtrlRestart m value s
  | .hwQuiesced => Sys2Proof.Machine.execHwQuiesced s
  | .hwClearDone => Sys2Proof.Machine.execHwClearDone s
  | .hwMeasureDone => Sys2Proof.Machine.execHwMeasureDone s
  | .claim m k value => Sys2Proof.Machine.execClaim m k value s
  | .claimRelease m k value => Sys2Proof.Machine.execClaimRelease m k value s
  | .safeOkSet m value => Sys2Proof.Machine.execSafeOkSet m value s
  | .safeOkKick m value => Sys2Proof.Machine.execSafeOkKick m value s
  | .safeOkExpired => Sys2Proof.Machine.execSafeOkExpired s
  | .keysEnable m => Sys2Proof.Machine.execKeysEnable m s
  | .scanStart p => Sys2Proof.Machine.execScanStart p s
  | .slotEnd p counts => Sys2Proof.Machine.execSlotEnd p counts s
  | .keyEventWrite err => Sys2Proof.Machine.execKeyEventWrite err s
  | .selftest m value => Sys2Proof.Machine.execSelftest m value s
  | .selftestDone counts right lower => Sys2Proof.Machine.execSelftestDone counts right lower s
  | .eqBaseWrite m q value => Sys2Proof.Machine.execEqBaseWrite m q value s
  | .eqHeadWrite m q value => Sys2Proof.Machine.execEqHeadWrite m q value s
  | .senseParity p => Sys2Proof.Machine.execSenseParity p s
  | .forceTouch => Sys2Proof.Machine.execForceTouch s
  | .forceOpen => Sys2Proof.Machine.execForceOpen s
  | .hapchEnable m ch => Sys2Proof.Machine.execHapchEnable m ch s
  | .hostTrigger m ch effect => Sys2Proof.Machine.execHostTrigger m ch effect s
  | .stop m ch => Sys2Proof.Machine.execStop m ch s
  | .halfCycleEnd ch crossing iPeak bemf limited => Sys2Proof.Machine.execHalfCycleEnd ch crossing iPeak bemf limited s
  | .powerMeasure p => Sys2Proof.Machine.execPowerMeasure p s
  | .railFault => Sys2Proof.Machine.execRailFault s
  | .railOk => Sys2Proof.Machine.execRailOk s
  | .audioEnable m => Sys2Proof.Machine.execAudioEnable m s
  | .sampleBoundary din => Sys2Proof.Machine.execSampleBoundary din s
  | .sourceFetch k => Sys2Proof.Machine.execSourceFetch k s
  | .srcEnable m k value => Sys2Proof.Machine.execSrcEnable m k value s
  | .gclkStepChange => Sys2Proof.Machine.execGclkStepChange s
  | .mainsApplied => Sys2Proof.Machine.execMainsApplied s
  | .surveyorStart => Sys2Proof.Machine.execSurveyorStart s
  | .railsGood => Sys2Proof.Machine.execRailsGood s
  | .bistConditionsCheck ppm => Sys2Proof.Machine.execBistConditionsCheck ppm s
  | .consoleIdRead k data => Sys2Proof.Machine.execConsoleIdRead k data s
  | .bistDone failed ms => Sys2Proof.Machine.execBistDone failed ms s
  | .dramTrainingDone failed => Sys2Proof.Machine.execDramTrainingDone failed s
  | .surveyEnd => Sys2Proof.Machine.execSurveyEnd s
  | .resetToHeld => Sys2Proof.Machine.execResetToHeld s
  | .resetIn => Sys2Proof.Machine.execResetIn s
  | .resetInDeasserted => Sys2Proof.Machine.execResetInDeasserted s
  | .imageLoadDone => Sys2Proof.Machine.execImageLoadDone s
  | .sensorSample values => Sys2Proof.Machine.execSensorSample values s
  | .fanLost k => Sys2Proof.Machine.execFanLost k s
  | .sagOnset cond => Sys2Proof.Machine.execSagOnset cond s
  | .sagEscalate => Sys2Proof.Machine.execSagEscalate s
  | .sagClear cond => Sys2Proof.Machine.execSagClear cond s
  | .loadShed => Sys2Proof.Machine.execLoadShed s
  | .holdupHeld bulk rail12 acBack => Sys2Proof.Machine.execHoldupHeld bulk rail12 acBack s
  | .flashOperation bulk => Sys2Proof.Machine.execFlashOperation bulk s
  | .flashDeferRetry bulk => Sys2Proof.Machine.execFlashDeferRetry bulk s
  | .telemetryRecord => Sys2Proof.Machine.execTelemetryRecord s
  | .unitCtrlWrite m value => Sys2Proof.Machine.execUnitCtrlWrite m value s
  | .mbReqGo m k value => Sys2Proof.Machine.execMbReqGo m k value s
  | .mailboxDone k => Sys2Proof.Machine.execMailboxDone k s
  | .getInfo p => Sys2Proof.Machine.execGetInfo p s
  | .readSensors p => Sys2Proof.Machine.execReadSensors p s
  | .logRead p => Sys2Proof.Machine.execLogRead p s
  | .logStatus p => Sys2Proof.Machine.execLogStatus p s
  | .telemetryCfg p => Sys2Proof.Machine.execTelemetryCfg p s
  | .updateBegin p => Sys2Proof.Machine.execUpdateBegin p s
  | .updateData p => Sys2Proof.Machine.execUpdateData p s
  | .updateEnd p => Sys2Proof.Machine.execUpdateEnd p s
  | .updateActivate p => Sys2Proof.Machine.execUpdateActivate p s
  | .configRead p => Sys2Proof.Machine.execConfigRead p s
  | .configWrite p => Sys2Proof.Machine.execConfigWrite p s
  | .retireRead p => Sys2Proof.Machine.execRetireRead p s
  | .retireAdd p => Sys2Proof.Machine.execRetireAdd p s
  | .shimRead p => Sys2Proof.Machine.execShimRead p s
  | .reset p => Sys2Proof.Machine.execReset p s
  | .injectEnable p => Sys2Proof.Machine.execInjectEnable p s
  | .setEndpointId eid => Sys2Proof.Machine.execSetEndpointId eid s
  | .getEndpointId => Sys2Proof.Machine.execGetEndpointId s
  | .getMctpVersionSupport => Sys2Proof.Machine.execGetMctpVersionSupport s
  | .getMessageTypeSupport => Sys2Proof.Machine.execGetMessageTypeSupport s
  | .gettid => Sys2Proof.Machine.execGettid s
  | .getpldmversion => Sys2Proof.Machine.execGetpldmversion s
  | .getpldmtypes => Sys2Proof.Machine.execGetpldmtypes s
  | .getpldmcommands type => Sys2Proof.Machine.execGetpldmcommands type s
  | .getpdr handle => Sys2Proof.Machine.execGetpdr handle s
  | .getsensorreading id => Sys2Proof.Machine.execGetsensorreading id s
  | .surveyorWatchdog => Sys2Proof.Machine.execSurveyorWatchdog s
  | .updateIdleTimeout => Sys2Proof.Machine.execUpdateIdleTimeout s
  | .updateTrialEnd comp => Sys2Proof.Machine.execUpdateTrialEnd comp s
  | .slipFrameBadCrc => Sys2Proof.Machine.execSlipFrameBadCrc s
  | .dpPwrOvercurrent n => Sys2Proof.Machine.execDpPwrOvercurrent n s
  | .dpPwrRetry n => Sys2Proof.Machine.execDpPwrRetry n s
  | .b4SoftReset => Sys2Proof.Machine.execB4SoftReset s
  | .b4SoftResetDone => Sys2Proof.Machine.execB4SoftResetDone s
  | .b4KeyfifoRead => Sys2Proof.Machine.execB4KeyfifoRead s
  | .b4KeycfgWrite value => Sys2Proof.Machine.execB4KeycfgWrite value s
  | .keyEn value => Sys2Proof.Machine.execKeyEn value s
  | .headBlockFlip h r value => Sys2Proof.Machine.execHeadBlockFlip h r value s
  | .flipCutoff h => Sys2Proof.Machine.execFlipCutoff h s
  | .hctrlEn h value => Sys2Proof.Machine.execHctrlEn h value s
  | .pixclkWrite h value => Sys2Proof.Machine.execPixclkWrite h value s
  | .deFifoWrite value => Sys2Proof.Machine.execDeFifoWrite value s
  | .deDisable value => Sys2Proof.Machine.execDeDisable value s
  | .fillRect => Sys2Proof.Machine.execFillRect s
  | .copyRect => Sys2Proof.Machine.execCopyRect s
  | .drawLine => Sys2Proof.Machine.execDrawLine s
  | .monoExpand => Sys2Proof.Machine.execMonoExpand s
  | .streamError m => Sys2Proof.Machine.execStreamError m s
  | .pixelRange m => Sys2Proof.Machine.execPixelRange m s
  | .deRingRdWrite m value => Sys2Proof.Machine.execDeRingRdWrite m value s
  | .deIdle => Sys2Proof.Machine.execDeIdle s
  | .beepGo value => Sys2Proof.Machine.execBeepGo value s
  | .beepDone => Sys2Proof.Machine.execBeepDone s
  | .assertInta => Sys2Proof.Machine.execAssertInta s
  | .deassertInta => Sys2Proof.Machine.execDeassertInta s
  | .faultRaised p b item => Sys2Proof.Machine.execFaultRaised p b item s
  | .headerParityError p r => Sys2Proof.Machine.execHeaderParityError p r s
  | .safeRequest m value => Sys2Proof.Machine.execSafeRequest m value s
  | .faultInjectArm m p value => Sys2Proof.Machine.execFaultInjectArm m p value s
  | .setFault p => Sys2Proof.Machine.execSetFault p s
  | .headerParity p => Sys2Proof.Machine.execHeaderParity p s
  | .drop => Sys2Proof.Machine.execDrop s
  | .corrupt => Sys2Proof.Machine.execCorrupt s
  | .reorder => Sys2Proof.Machine.execReorder s
  | .burst => Sys2Proof.Machine.execBurst s
  | .lcrc port => Sys2Proof.Machine.execLcrc port s
  | .auxDrop n => Sys2Proof.Machine.execAuxDrop n s
  | .tileParity b => Sys2Proof.Machine.execTileParity b s
  | .glyphParity n g => Sys2Proof.Machine.execGlyphParity n g s
  | .readError n r line => Sys2Proof.Machine.execReadError n r line s
  | .linkReplay link failed => Sys2Proof.Machine.execLinkReplay link failed s
  | .statCfgWrite m k value => Sys2Proof.Machine.execStatCfgWrite m k value s

end Sys2Proof.Machine
end

