-- ==== Sys2Proof/Machine/Step.lean ====
section
/-!
DEFINITION. Machine/Step.lean: one step of the block: the command at the front of the queue is carried out;
with no command waiting one FCLK cycle passes.
-/
namespace Sys2Proof.Machine

/-- One step. With the queue empty an FCLK cycle passes (DESIGN CHOICE: the table has no row for the clock). -/
def step (s : State) : Host.Outcome State Fault Refusal :=
  match s.pending with
  | [] => .next (passCycles s 1)
  | c :: rest => exec c { s with pending := rest }

/-- The state with the command that a table word spells in front of the queue; no row of the table gives bits,
so no word spells one. -/
def State.withFetchWord (s : State) (nbits w : Nat) : State :=
  match decodeTableWord nbits w with
  | some c => { s with pending := c :: s.pending }
  | none => s

end Sys2Proof.Machine
end

