-- ==== Sys2Proof/Safety.lean ====
section
/-!
DEFINITION. Safety.lean: the words in which statements about the block are made.
-/
namespace Sys2Proof.Machine

/-- The register fabric takes a write of master m at PF BAR0 offset a: the master can issue one, and none of the
checks that come before the register's own rule refuses it (R30, R42, R47, R49, R73 to R77). -/
def Accepts (s : State) (m : Master) (a : Nat) : Prop :=
  masterThere s m = true ∧ refusalOf (beginAccess s m) m a = none

/-- The state in which an access that the fabric takes has its effect: the access has its place in the cycle, and the
page's earlier writes have landed (R16, R41, R76). -/
def taken (s : State) (m : Master) (a : Nat) : State := flushPage (beginAccess s m) (recordPage a)

/-- Every register outside a list of addresses holds in t what it holds in s. -/
def RegsBut (s t : State) (l : List Nat) : Prop := ∀ a, a ∉ l → t.reg a = s.reg a

/-- Every byte of device memory outside a set of addresses reads in t what it reads in s. -/
def BytesBut (s t : State) (p : Nat → Prop) : Prop := ∀ a, ¬ p a → memByte t a = memByte s a

/-- t differs from s in nothing but registers and the parts that recording a fault and carrying out its action can
touch: the cycle's record, the mode, pending stages, the log, heads, rings, the Safe state, jobs, cores, haptic
channels, and Surveyor's outputs (R496 to R509). -/
def FaultParts (s t : State) : Prop :=
  t = { s with
    cyc := t.cyc, mode := t.mode, regs := t.regs, pends := t.pends, log := t.log, heads := t.heads,
    rings := t.rings, safe := t.safe, sched := t.sched, cpx := t.cpx, haps := t.haps, surv := t.surv }

/-- The bytes that a store of len bytes at a can reach: those bytes, and their mirror copies (R335, R349). -/
def Stored (a len x : Nat) : Prop := (a ≤ x ∧ x < a + len) ∨ (a ≤ x ^^^ 0x200000 ∧ x ^^^ 0x200000 < a + len)

/-- t differs from s in nothing but what a store into device memory can touch: memory, the check values, and the parts
of `FaultParts` (R335, R338, R348, R413, R517). -/
def StoreParts (s t : State) : Prop :=
  t = { s with
    cyc := t.cyc, mode := t.mode, regs := t.regs, pends := t.pends, log := t.log, heads := t.heads, mem := t.mem,
    rings := t.rings, cvus := t.cvus, safe := t.safe, sched := t.sched, cpx := t.cpx, haps := t.haps, surv := t.surv }

/-- The window of the B4 model takes an access: Legacy Profile, a host on port A, the LEGACY page READY, not Safe, and
no soft reset running (R30, R47, R561). -/
def WindowTakes (s : State) : Prop :=
  legacyOn s = true ∧ masterThere s (.func 0) = true ∧ (beginAccess s (.func 0)).ready .legacy = true ∧
    (beginAccess s (.func 0)).mode.mode ≠ .safe ∧ (beginAccess s (.func 0)).b4.resetting = false

/-- Surveyor serves a path, and the request on it is for the command CMD with its header and its arguments whole
(R545, R546). -/
def Asked (s : State) (p : MbPath) (cmd argLen : Nat) : Prop :=
  servesPath s p = true ∧ (pathRequest s p).getD 0 256 = cmd ∧ 8 + argLen ≤ (pathRequest s p).length

/-- The argument bytes of a request (R546). -/
def argsOf (s : State) (p : MbPath) : List Nat := (pathRequest s p).drop 8

/-- The response that waits on a path: in its slot, or gone out on the service port (R545, R549). -/
def replyOn (s : State) : MbPath → Option (List Nat)
  | .slot k => aget none s.surv.replies k
  | .service _ => s.surv.service

/-- t holds the response to the request on path p in s, with its STATUS, DETAIL and data behind the echoed CMD and TAG
(R546). -/
def Replied (s t : State) (p : MbPath) (status detail : Nat) (data : List Nat) : Prop :=
  replyOn t p = some ([(pathRequest s p).getD 0 0, status, (pathRequest s p).getD 2 0, (pathRequest s p).getD 3 0] ++
    leBytes 4 detail ++ data)

/-- t differs from s in nothing but the responses that Surveyor holds. -/
def OnlyReplied (s t : State) : Prop :=
  t = { s with surv := { s.surv with replies := t.surv.replies, service := t.surv.service } }

end Sys2Proof.Machine
end

