-- ==== Sys2Proof/Certificates/Slice0/Obligations.lean ====
section
/-!
DEFINITION. Certificates/Slice0/Obligations.lean: the statements about the block, for the provers.
-/
open Sys2Proof Sys2Proof.Machine

/-- The queue of commands. A step with a command in front of the queue is that command on the state with the rest of
the queue; with no command waiting it is one FCLK cycle, in which no register and no byte of memory changes. (That
an empty queue lets a cycle pass, and does not hold the clock, is the model's own choice: log entry 2.) -/
def Obligations.StepRunsFrontCommand : Prop :=
  (∀ (c : Instr) (rest : List Instr) (s : State),
    step { s with pending := c :: rest } = exec c { s with pending := rest }) ∧
  (∀ s : State, s.pending = [] →
    ∃ t, step s = .next t ∧ t.pending = [] ∧ t.regs = s.regs ∧ t.mem = s.mem ∧
      t.mode = s.mode ∧ t.fclk = (if s.mode.mode = .held then s.fclk else s.fclk + 1))

/-- R18, R22, R26, R59, R530: what the release from Held leaves. Survey after Held, device time 0, DEV and
SURVEYOR_MB the only pages that are READY, the device-internal pages' owner codes, no commit pending, memory with no
byte listed, and no command waiting; memory is in its canonical form and the log within its bound. -/
def Obligations.ResetState : Prop :=
  State.reset.mode.mode = .survey ∧ State.reset.mode.prior = .held ∧ State.reset.devtime = 0 ∧
    (∀ p ∈ allPages, State.reset.ready p = (p == .dev || p == .surveyorMb)) ∧
    (∀ p ∈ allPages, State.reset.pend p = none) ∧
    State.reset.owner .clkpwr = 0x42 ∧ State.reset.owner .legacy = 0x42 ∧ State.reset.owner .surveyorMb = 0x41 ∧
    State.reset.owner .world = 0x40 ∧ State.reset.mem.cells = [] ∧ State.reset.pending = [] ∧
    Memory.wf State.reset.mem.cells = true ∧ State.reset.log.queue.length ≤ 1024

/-- Every command is answered, in every state: the step takes it from the front of the queue, and what it does adds
no command and takes none. (R35: every register access returns, and every job, flip commit and memory transaction
completes.) -/
def Obligations.EveryStepAnswers : Prop :=
  ∀ s : State, ∃ t, step s = .next t ∧ t.pending = s.pending.tail

/-- R529, R15: device memory stays in its canonical form, addresses strictly rising and no listed byte equal to what
an unlisted address reads as, whatever a step does. -/
def Obligations.MemoryStaysCanonical : Prop :=
  ∀ s t : State, Memory.wf s.mem.cells = true → step s = .next t → Memory.wf t.mem.cells = true

/-- R537: Surveyor's log queue holds at most 1,024 entries, whatever a step does. -/
def Obligations.LogQueueStaysBounded : Prop :=
  ∀ s t : State, s.log.queue.length ≤ 1024 → step s = .next t → t.log.queue.length ≤ 1024

/-- R30: in Held no master issues an access. Commands that are a master's write do nothing there. -/
def Obligations.NoAccessInHeld : Prop :=
  ∀ (m : Master) (p : Page) (v : Word) (seq : BitVec 16) (s : State), s.mode.mode = .held → s.crossings = [] →
    exec (.commitGo m p seq) s = .next s ∧ exec (.softReset m p v) s = .next s ∧
    exec (.ownerChange m p v) s = .next s ∧ exec (.faultInjectArm m p v) s = .next s ∧
    exec (.safeRequest m v) s = .next s ∧ exec (.unitCtrlWrite m v) s = .next s ∧
    exec (.safeOkSet m v) s = .next s ∧ exec (.kick m v) s = .next s ∧ exec (.hwCtrlRestart m v) s = .next s ∧
    (∀ k, exec (.claim m k v) s = .next s) ∧ (∀ k, exec (.mbReqGo m k v) s = .next s) ∧
    (∀ k, exec (.statCfgWrite m k v) s = .next s) ∧
    (∀ a : BitVec 26, exec (.registerWrite m a 15 v 0) s = .next s)

/-- R42: a read of an unmapped offset of PF BAR0 answers 0, and a write of one is refused with cause RANGE and
recorded in DEV.CFG_REJECT_INFO, with no other register changed. -/
def Obligations.UnmappedOffsets : Prop :=
  (∀ (m : Master) (addr : BitVec 26) (wait : BitVec 32) (s : State),
    let u := advance s wait.toNat
    targetOf u m addr.toNat = .at addr.toNat → masterThere u m = true → tableAt (addr.toNat / 4 * 4) = none →
    pageAt (addr.toNat / 4 * 4) = none →
    ∃ t, exec (.loReadLatch m addr wait) s = .next t ∧ t.answer = some ⟨m.code, addr.toNat, 0⟩) ∧
  (∀ (m : Master) (addr : BitVec 26) (be : BitVec 4) (v : Word) (wait : BitVec 32) (s : State),
    let u := advance s wait.toNat
    targetOf u m addr.toNat = .at addr.toNat → masterThere u m = true → tableAt (addr.toNat / 4 * 4) = none →
    pageAt (addr.toNat / 4 * 4) = none →
    ∃ t, exec (.registerWrite m addr be v wait) s = .next t ∧ fget (t.hd .dev .reject) 23 20 = Cause.range.code ∧
      fget (t.hd .dev .reject) 31 24 = m.code ∧ fbit (t.hd .dev .reject) 0 = true ∧
      fget (t.hd .dev .reject) 11 2 = addr.toNat % 4096 / 4 ∧
      RegsBut (beginAccess u m) t [hadr .dev .reject] ∧ t = { beginAccess u m with regs := t.regs, cyc := t.cyc })

/-- R81: a host's read of the WORLD page answers 0, and its write is refused with cause CLAIMED, recorded in
DEV.CFG_REJECT_INFO, with no register of the WORLD page changed. -/
def Obligations.WorldHiddenFromHosts : Prop :=
  (∀ (f : Fin 64) (o : Fin 4096) (wait : BitVec 32) (s : State),
    let m := Master.func f
    let x := pageBase .world + o.val
    let u := advance s wait.toNat
    targetOf u m x = .at x → masterThere u m = true →
    ∃ t, exec (.loReadLatch m (BitVec.ofNat 26 x) wait) s = .next t ∧ t.answer = some ⟨m.code, x, 0⟩) ∧
  (∀ (f : Fin 64) (o : Fin 4096) (be : BitVec 4) (v : Word) (wait : BitVec 32) (s : State),
    let m := Master.func f
    let x := pageBase .world + o.val
    let u := advance s wait.toNat
    targetOf u m x = .at x → masterThere u m = true →
    ∃ t, exec (.registerWrite m (BitVec.ofNat 26 x) be v wait) s = .next t ∧
      fget (t.hd .dev .reject) 23 20 = Cause.claimed.code ∧ fget (t.hd .dev .reject) 31 24 = f.val ∧
      fbit (t.hd .dev .reject) 0 = true ∧
      (u.crossings = [] → (pageBase .world, f.val) ∉ (beginAccess u m).cyc.revoked →
        RegsBut (beginAccess u m) t [hadr .dev .reject] ∧ t.mem = u.mem))

/-- R505: SAFE_REQUEST. Heartwood, Surveyor, FUNC0 and FUNC32 may write it: 0x0000_5AFE sets DEV fault bit 0, whose
severity and action floor are SAFE, and with that action in force and the bit clear before the device is in Safe;
any other value is refused with cause RANGE. Any other master is refused with cause OWNER. The register is
write-only: it reads 0. -/
def Obligations.SafeRequestRule : Prop :=
  (faultBits .dev = [(4, 3)]) ∧
  (∀ (m : Master) (s : State), let a := pageBase .dev + Reg.DEV_SAFE_REQUEST
    let u := taken s m a
    m.code = 0x40 ∨ m.code = 0x41 ∨ m.code = 0 ∨ m.code = 0x20 → Accepts s m a →
    ∃ t, exec (.safeRequest m 0x5AFE) s = .next t ∧ fbit (t.hd .dev .faultStatus) 0 = true ∧ FaultParts u t ∧
      (actionOf u .dev 0 = 3 → fbit (u.hd .dev .faultStatus) 0 = false → t.mode.mode = .safe)) ∧
  (∀ (m : Master) (v : Word) (s : State), let a := pageBase .dev + Reg.DEV_SAFE_REQUEST
    m.code = 0x40 ∨ m.code = 0x41 ∨ m.code = 0 ∨ m.code = 0x20 → Accepts s m a → v ≠ 0x5AFE →
    ∃ t, exec (.safeRequest m v) s = .next t ∧ fget (t.hd .dev .reject) 23 20 = Cause.range.code ∧
      t = { taken s m a with regs := t.regs, cyc := t.cyc } ∧ RegsBut (taken s m a) t [hadr .dev .reject]) ∧
  (∀ (m : Master) (v : Word) (s : State), let u := beginAccess s m
    ¬ (m.code = 0x40 ∨ m.code = 0x41 ∨ m.code = 0 ∨ m.code = 0x20) → masterThere s m = true →
    u.ready .dev = true → u.fenced .dev = false → u.mode.mode ≠ .safe → frozenOut u m .dev = false →
    (pageBase .dev, m.code) ∉ u.cyc.revoked →
    ∃ t, exec (.safeRequest m v) s = .next t ∧ fget (t.hd .dev .reject) 23 20 = Cause.owner.code ∧
      fget (t.hd .dev .reject) 31 24 = m.code ∧ t.mode = u.mode ∧ RegsBut u t [hadr .dev .reject]) ∧
  (∀ (m : Master) (wait : BitVec 32) (s : State), let x := pageBase .dev + Reg.DEV_SAFE_REQUEST
    let u := advance s wait.toNat
    targetOf u m x = .at x → masterThere u m = true →
    ∃ t, exec (.loReadLatch m (BitVec.ofNat 26 x) wait) s = .next t ∧ t.answer = some ⟨m.code, x, 0⟩)

/-- R40, R41, R62, R15, R16: register accesses that name a register of PF BAR0 with no rule of its own. An aligned
write of all four bytes to a register of a block in another clock domain goes on its way and changes no register
until it arrives; where it arrives at a READY block, the plain bits take the value, the ones clear W1C bits that
hardware has not set in the cycle, and no other register changes; a read of the lower word of a pair answers it and
latches the upper word for the reading master; and the write of the highest word of a haptic effect puts the entry
in force whole, with the words staged by the master. -/
def Obligations.RegisterAccesses : Prop :=
  (∀ (m : Master) (addr : BitVec 26) (v : Word) (wait : BitVec 32) (s : State) (p : Page) (o : Nat) (r : RegRow),
    targetOf (advance s wait.toNat) m addr.toNat = .at addr.toNat → addr.toNat % 4 = 0 → tableAt addr.toNat = none →
    pageAt addr.toNat = some (p, o) → addr.toNat = pageBase p + o → pageBody p ≤ o → rowAt p o = some r → p ≠ .haptic →
    stagedPair r = false → shdMask r = 0 → accMask r (fun t => t != .ro && t != .shd) ≠ 0 → pageForeign p = true →
    routeOwn (advance s wait.toNat) m addr.toNat v = none → Accepts (advance s wait.toNat) m addr.toNat →
    bodyCheck (beginAccess (advance s wait.toNat) m) m p o r v = none →
    ∃ t, exec (.registerWrite m addr 15 v wait) s = .next t ∧
      t.crossings = s.crossings ++ [⟨m.code, addr.toNat, v⟩] ∧ RegsBut s t [] ∧
      addr.toNat ∈ t.cyc.stands ∧ BytesBut s t (fun _ => False)) ∧
  (∀ (s : State) (c : Crossing) (q : List Crossing) (p : Page) (o : Nat) (r : RegRow),
    s.crossings = c :: q → pageAt c.addr = some (p, o) → rowAt p o = some r → s.ready p = true →
    p ≠ .audio → p ≠ .world → (∀ k, p ≠ .func k) →
    ∃ t, exec .foreignWriteEffect s = .next t ∧ t = { s with crossings := q, regs := t.regs, cyc := t.cyc } ∧
      RegsBut s t [c.addr] ∧
      t.reg c.addr = ((s.reg c.addr &&& ~~~ (w32 (plainMask r c.master))) ||| (c.val &&& w32 (plainMask r c.master))) &&&
        ~~~ (w32 (accMask r (fun t => t == .w1c)) &&& c.val &&& ~~~ (w32 (aget 0 s.cyc.hwSet c.addr)))) ∧
  (∀ (m : Master) (addr : BitVec 26) (wait : BitVec 32) (s : State) (p : Page) (o : Nat) (r : RegRow),
    targetOf (advance s wait.toNat) m addr.toNat = .at addr.toNat → addr.toNat % 4 = 0 → tableAt addr.toNat = none →
    pageAt addr.toNat = some (p, o) → rowAt p o = some r → r.pair = 1 → (∀ n, p ≠ .composer n) → (∀ u, p ≠ .cvu u) →
    masterThere (advance s wait.toNat) m = true → isFunc m = false →
    ∃ t, exec (.loReadLatch m addr wait) s = .next t ∧
      t.answer = some ⟨m.code, addr.toNat, readReg (beginAccess (advance s wait.toNat) m) m addr.toNat⟩ ∧
      t.latched m (pageBase p + (o + 4)) =
        some (readReg (beginAccess (advance s wait.toNat) m) m (pageBase p + (o + 4))) ∧
      RegsBut s t [] ∧ BytesBut s t (fun _ => False)) ∧
  (∀ (m : Master) (e : Fin 64) (addr : BitVec 26) (v : Word) (s : State),
    addr.toNat = pageBase .haptic + Reg.HAPTIC_EFFECT_W0 + 16 * e.val + 12 → Accepts s m addr.toNat →
    let st := (beginAccess s m).staged m (pageBase .haptic + Reg.HAPTIC_EFFECT_W0) (addr.toNat - 12)
    let w (k : Nat) : Word :=
      (st.find? (fun x => x.1 == addr.toNat - 12 + 4 * k)).elim (s.reg (addr.toNat - 12 + 4 * k)) (·.2)
    effectOk (w 0) (w 1) (w 2) v = true →
    ∃ t, exec (.tableEntryWrite m addr v) s = .next t ∧ t.reg (addr.toNat - 12) = w 0 ∧ t.reg (addr.toNat - 8) = w 1 ∧
      t.reg (addr.toNat - 4) = w 2 ∧ t.reg addr.toNat = v ∧
      RegsBut s t [addr.toNat - 12, addr.toNat - 8, addr.toNat - 4, addr.toNat] ∧
      t.staged m (pageBase .haptic + Reg.HAPTIC_EFFECT_W0) (addr.toNat - 12) = [])

/-- R59, R73, R75, R432, R433: who owns a page. A write of OWNER that the fabric and its own checks take gives the
page the owner code written; where that is a new one, PREV_OWNER takes the old code, a pending commit is discarded
with REVOKED, and the old owner's accesses later in the cycle are refused. A claim of one page makes it claimed and
Heartwood's; the release of a claim of one page gives it back to its former owner, or to none where that function is
gone. -/
def Obligations.Ownership : Prop :=
  (∀ (m : Master) (p : Page) (value : Word) (s : State), pageOk p = true → Accepts s m (hadr p .owner) →
    ownerCheck m p value = none → fget value 7 0 ≠ (beginAccess s m).owner p →
    ∃ t, exec (.ownerChange m p value) s = .next t ∧ t.owner p = fget value 7 0 ∧
      fget (t.hd p .owner) 15 8 = (beginAccess s m).owner p ∧ t.pend p = none ∧
      (pageBase p, (beginAccess s m).owner p) ∈ t.cyc.revoked ∧ (m.code ≠ 0x41 → t.port p = s.port p) ∧
      (m.code = 0x41 → t.port p = fget value 17 16) ∧
      RegsBut s t [hadr p .owner, hadr p .commitStatus] ∧ BytesBut s t (fun _ => False) ∧ t.heads = s.heads) ∧
  (∀ (m : Master) (k : Fin 32) (value : Word) (s : State) (p : Page),
    let a := pageBase .world + Reg.WORLD_CLAIM + 4 * k.val
    Accepts s m a → claimCheck (taken s m a) k (fsetb value 31 true) = none →
    fbit (claimReg (taken s m a) k) 31 = false → claimTarget (fget value 29 28) (fget value 13 0) = some (.pages [p]) →
    ∃ t, exec (.claim m k value) s = .next t ∧ t.owner p = 0x40 ∧ t.claimed p = true ∧ fbit (claimReg t k) 31 = true ∧
      fget (claimReg t k) 23 16 = (taken s m a).owner p ∧ fget (claimReg t k) 29 28 = fget value 29 28 ∧
      fget (claimReg t k) 13 0 = fget value 13 0 ∧
      RegsBut (taken s m a) t [hadr p .ready, hadr p .owner, hadr p .commitStatus, a]) ∧
  (∀ (m : Master) (k : Fin 32) (value : Word) (s : State) (p : Page),
    let a := pageBase .world + Reg.WORLD_CLAIM + 4 * k.val
    let prev := fget ((taken s m a).hd p .owner) 15 8
    Accepts s m a → claimOf (taken s m a) k = some (.pages [p]) →
    ∃ t, exec (.claimRelease m k value) s = .next t ∧ t.claimed p = false ∧ t.pend p = none ∧
      t.owner p = (if prev < 64 ∧ ¬ funcExists (taken s m a) prev then 0xFF else prev) ∧
      fget (t.hd p .owner) 15 8 = 0x40 ∧ (pageBase p, 0x40) ∈ t.cyc.revoked ∧ fbit (claimReg t k) 31 = false ∧
      RegsBut (taken s m a) t [hadr p .ready, hadr p .owner, hadr p .commitStatus, a])

/-- R46, R48, R49, R535: resets and drains of blocks. A write of CTRL with SOFT_RESET leaves the page BUSY with
REASON 0x07 and, on a page that keeps nothing beside its registers, every register of its own that the reset does
not leave at its reset value; the end of a soft reset and the end of a drain clear BUSY and touch nothing else. -/
def Obligations.SoftResets : Prop :=
  (∀ (m : Master) (p : Page) (value : Word) (s : State), pageOk p = true → pageBody p = 0x100 →
    Accepts s m (hadr p .ctrl) → ctrlCheck (taken s m (hadr p .ctrl)) p (fsetb value 1 true) = none →
    ∃ t, exec (.softReset m p value) s = .next t ∧ t.busy p = true ∧ fget (t.hd p .ready) 15 8 = 7 ∧
      (p ∈ [.fabric, .xlate, .kerf, .scaler, .renderFe, .bin, .memctl, .haptic] →
        ∀ o, 0x100 ≤ o → o < 0x1000 → keepsReg p o = false → t.pr p o = regRst s.cfg (pageBase p + o))) ∧
  (∀ (p : Page) (s : State), pageOk p = true → softResetting s p = true →
    (∀ n, p = .timing n → (s.head n).pll ≠ .stopping) →
    ∃ t, exec (.softResetDone p) s = .next t ∧ t.busy p = false ∧ fget (t.hd p .ready) 15 8 = 0 ∧
      t.ready p = s.ready p ∧ t.fenced p = s.fenced p ∧ t.claimed p = s.claimed p ∧ RegsBut s t [hadr p .ready] ∧
      t = { s with regs := t.regs }) ∧
  (∀ (p : Page) (s : State), enableHasFunction p = true → pageOk p = true → s.enabled p = false → s.busy p = true →
    fget (s.hd p .ready) 15 8 ≠ 7 → drained s p = true →
    ∃ t, exec (.enableDrainDone p) s = .next t ∧ t.busy p = false ∧
      fget (t.hd p .ready) 15 8 = fget (s.hd p .ready) 15 8 ∧ t.ready p = s.ready p ∧ RegsBut s t [hadr p .ready] ∧
      t = { s with regs := t.regs })

/-- R64, R65, R66, R67: commits. COMMIT with GO on a page that no running head owns: a shadow set that the block's
check refuses leaves the pending stage and reports the cause with the commit's SEQ; one that it takes becomes the
pending stage, with the committer's code and SEQ, and PENDING reads 1. A pending stage of a page with no latch of
its own takes effect at its apply point: PENDING clears, LAST_SEQ takes its SEQ and REJECT is 0. -/
def Obligations.Commits : Prop :=
  (∀ (m : Master) (p : Page) (seq : BitVec 16) (s : State) (c : Cause), pageOk p = true →
    Accepts s m (hadr p .commit) → commitCheck (taken s m (hadr p .commit)) p m = some c →
    ∃ t, exec (.commitGo m p seq) s = .next t ∧ t.pend p = (taken s m (hadr p .commit)).pend p ∧
      fget (t.hd p .commitStatus) 15 12 = c.code ∧ fget (t.hd p .commitStatus) 31 16 = seq.toNat ∧
      fbit (t.hd p .commitStatus) 0 = ((taken s m (hadr p .commit)).pend p).isSome ∧
      RegsBut (taken s m (hadr p .commit)) t [hadr p .commitStatus] ∧
      t.mem = (taken s m (hadr p .commit)).mem) ∧
  (∀ (m : Master) (p : Page) (seq : BitVec 16) (s : State), pageOk p = true →
    Accepts s m (hadr p .commit) → commitCheck (taken s m (hadr p .commit)) p m = none →
    (∀ n, ((taken s m (hadr p .commit)).head n).running = false) →
    ∃ t, exec (.commitGo m p seq) s = .next t ∧
      t.pend p = some {
        seq := seq.toNat, master := m.code, vals := shadowSet (taken s m (hadr p .commit)) p,
        cost := commitCost (taken s m (hadr p .commit)) p } ∧
      fbit (t.hd p .commitStatus) 0 = true ∧
      (((taken s m (hadr p .commit)).pend p).isSome = true → fbit (t.hd p .commitStatus) 1 = true) ∧
      RegsBut (taken s m (hadr p .commit)) t [hadr p .commitStatus] ∧
      t.mem = (taken s m (hadr p .commit)).mem) ∧
  (∀ (p : Page) (s : State) (st : PendStage), (∀ n, p ≠ .timing n) → (∀ n, p ≠ .composer n) → (∀ n l, p ≠ .layer n l) →
    p ≠ .audio → s.pend p = some st → st.seq < 0x10000 →
    ∃ t, exec (.commitApply p) s = .next t ∧ t.pend p = none ∧ fget (t.hd p .commitStatus) 31 16 = st.seq ∧
      fget (t.hd p .commitStatus) 15 12 = 0 ∧ fbit (t.hd p .commitStatus) 0 = false ∧ t.mem = s.mem)

/-- R514, R515: enabling a check-value unit clears RESULT_STATUS and starts its accumulation afresh; CLOSE in an
accumulation that runs until CLOSE latches a result, reports it and starts again. -/
def Obligations.CheckValues : Prop :=
  (∀ (m : Master) (u : Fin 16) (s : State), Accepts s m (hadr (.cvu u) .ctrl) →
    cvuEnableCheck (taken s m (hadr (.cvu u) .ctrl)) u = none →
    (taken s m (hadr (.cvu u) .ctrl)).enabled (.cvu u) = false →
    ∃ t, exec (.cvuEnable m u) s = .next t ∧ t.enabled (.cvu u) = true ∧ t.pr (.cvu u) Reg.CVU_RESULT_STATUS = 0 ∧
      t.cvu u = {
        running := cvuSource (taken s m (hadr (.cvu u) .ctrl)) u == 5,
        crc := if cvuSource (taken s m (hadr (.cvu u) .ctrl)) u = 5 then 0 else 0xFFFFFFFF } ∧
      RegsBut (taken s m (hadr (.cvu u) .ctrl)) t [hadr (.cvu u) .ctrl, pageBase (.cvu u) + Reg.CVU_RESULT_STATUS]) ∧
  (∀ (m : Master) (u : Fin 16) (value : Word) (s : State),
    let a := pageBase (.cvu u) + Reg.CVU_CVU_CLOSE
    let b := taken s m a
    Accepts s m a → fbit value 0 = true → cvuOn b u = true → cvuWindow b u = 2 →
    ∃ t, exec (.cvuClose m u value) s = .next t ∧ fbit (t.hd (.cvu u) .irqStatus) 0 = true ∧
      (t.cvu u).windows = (b.cvu u).windows + 1 ∧ (t.cvu u).unread = (b.cvu u).unread + 1 ∧ (t.cvu u).words = 0 ∧
      (b.pf (.cvu u) Reg.CVU_CVU_CMP 0 0 = 0 → t.pr (.cvu u) Reg.CVU_RESULT_SEQ = w32 ((b.cvu u).windows + 1) ∧
        t.pr (.cvu u) Reg.CVU_RESULT =
          w32 (if cvuSource b u = 5 then (b.cvu u).crc else (b.cvu u).crc ^^^ 0xFFFFFFFF)) ∧
      t.mem = b.mem)

/-- R14, R599, R520: the links of the fabric. A packet that one to three transmissions lose counts a replay and sets
FABRIC fault bit 0, with the link in LINK_INFO where that fault's action is LOG; a fourth failure sets bit 1, and
bit 2 on a link that runs on its spare already. An armed CORRUPT is one such loss, an armed BURST as many as PARAM +
1 up to four, and an armed DROP or REORDER changes only what faults change. LCRC is carried out with nothing else
changed. -/
def Obligations.FabricLinks : Prop :=
  (∀ (link : Fin 40) (failed : Fin 5) (s : State), s.mode.mode ≠ .held → linkOk link = true →
    0 < failed.val → failed.val < 4 →
    ∃ t, exec (.linkReplay link failed) s = .next t ∧ fbit (t.hd .fabric .faultStatus) 0 = true ∧ FaultParts s t ∧
      (actionOf s .fabric 0 < 2 →
        t.pr .fabric Reg.FABRIC_REPLAY_COUNT = s.pr .fabric Reg.FABRIC_REPLAY_COUNT + 1 ∧
        t.pf .fabric Reg.FABRIC_LINK_INFO 7 0 = link ∧ fbit (t.pr .fabric Reg.FABRIC_LINK_INFO) 31 = true)) ∧
  (∀ (link : Fin 40) (s : State), s.mode.mode ≠ .held → linkOk link = true →
    s.pf .fabric (sparedAt link).1 (sparedAt link).2 (sparedAt link).2 ≠ 1 →
    ∃ t, exec (.linkReplay link 4) s = .next t ∧ fbit (t.hd .fabric .faultStatus) 1 = true ∧ FaultParts s t) ∧
  (∀ (link : Fin 40) (s : State), s.mode.mode ≠ .held → linkOk link = true →
    s.pf .fabric (sparedAt link).1 (sparedAt link).2 (sparedAt link).2 = 1 →
    ∃ t, exec (.linkReplay link 4) s = .next t ∧ fbit (t.hd .fabric .faultStatus) 2 = true ∧ FaultParts s t) ∧
  (∀ (link n : Nat) (s : State), armed s .fabric 0x11 = some (link, n) → linkOk link = true →
    ∃ t, exec .corrupt s = .next t ∧ fbit (t.hd .fabric .faultStatus) 0 = true ∧ FaultParts s t) ∧
  (∀ (link n : Nat) (s : State), armed s .fabric 0x13 = some (link, n) → linkOk link = true →
    ∃ t, exec .burst s = .next t ∧ FaultParts s t ∧
      (n < 3 → fbit (t.hd .fabric .faultStatus) 0 = true) ∧
      (3 ≤ n → fbit (t.hd .fabric .faultStatus) 1 = true ∨ fbit (t.hd .fabric .faultStatus) 2 = true)) ∧
  (∀ (x : Nat × Nat) (s : State), armed s .fabric 0x10 = some x →
    ∃ t, exec .drop s = .next t ∧ t.fresh = s.fresh + 1 ∧ FaultParts { s with fresh := t.fresh } t) ∧
  (∀ (x : Nat × Nat) (s : State), armed s .fabric 0x12 = some x →
    ∃ t, exec .reorder s = .next t ∧ t.fresh = s.fresh + 1 ∧ FaultParts { s with fresh := t.fresh } t) ∧
  (∀ (port : Fin 2) (x : Nat × Nat) (s : State), armed s (.hostif port) 0x20 = some x →
    ∃ t, exec (.lcrc port) s = .next t ∧ t = { s with regs := t.regs, log := t.log } ∧
      fbit (t.hd (.hostif port) .inject) 31 = false ∧ fbit (t.hd (.hostif port) .inject) 30 = true ∧
      RegsBut s t [hadr (.hostif port) .inject])

/-- R495, R496, R58, R503, R57, R520, R53, R54, R55: faults and their injection. A fault that a page in service
detects sets its bit in FAULT_STATUS, and outside the tables, keys, audio words and B4 registers that the fault
itself damages it touches only what faults and their actions touch. A parity error in a page's fault registers takes
the device to Safe through the hardwired line. FAULT_INJECT_ARM that the rules allow arms the page with the KIND,
TARGET and PARAM written; SET_FAULT sets the fault bit that TARGET names, and HEADER_PARITY takes the device to
Safe. A first fault whose action is no more than a report writes FAULT_FIRST with VALID, its severity and its
number, and FAULT_FIRST_TIME with the device time, adds one entry to the log, and changes nothing else; a later one
leaves FAULT_FIRST and its time. -/
def Obligations.FaultsRaised : Prop :=
  (∀ (p : Page) (b : Fin 32) (item : Nat) (s : State), faultable s p = true → faultDefined p b = true →
    ∃ t, exec (.faultRaised p b item) s = .next t ∧ fbit (t.hd p .faultStatus) b = true ∧ t.mem = s.mem ∧
      (p ∉ [.xlate, .keys, .audio, .legacy] → FaultParts s t)) ∧
  (∀ (p : Page) (r : Fin 7) (s : State), pageOk p = true → pageBody p = 0x100 → s.mode.mode ≠ .held →
    s.mode.mode ≠ .safe →
    ∃ t, exec (.headerParityError p r) s = .next t ∧ t.mode.mode = .safe ∧ t.mode.safeHw = true ∧ FaultParts s t) ∧
  (∀ (m : Master) (p : Page) (value : Word) (s : State), pageOk p = true → pageBody p = 0x100 →
    Accepts s m (hadr p .inject) → injectCheck (taken s m (hadr p .inject)) p (fsetb value 31 true) = none →
    ∃ t, exec (.faultInjectArm m p value) s = .next t ∧ fbit (t.hd p .inject) 31 = true ∧
      fget (t.hd p .inject) 23 0 = fget value 23 0 ∧
      fbit (t.hd p .inject) 30 = (fbit ((taken s m (hadr p .inject)).hd p .inject) 30 && !fbit value 30) ∧
      RegsBut (taken s m (hadr p .inject)) t [hadr p .inject] ∧
      t = { taken s m (hadr p .inject) with regs := t.regs, cyc := t.cyc }) ∧
  (∀ (p : Page) (b x : Nat) (s : State), faultable s p = true → armed s p 1 = some (b, x) →
    faultDefined p b = true →
    ∃ t, exec (.setFault p) s = .next t ∧ fbit (t.hd p .faultStatus) b = true ∧ FaultParts s t) ∧
  (∀ (p : Page) (x : Nat × Nat) (s : State), faultable s p = true → armed s p 2 = some x → s.mode.mode ≠ .safe →
    ∃ t, exec (.headerParity p) s = .next t ∧ t.mode.mode = .safe ∧ t.mode.safeHw = true ∧ FaultParts s t) ∧
  (∀ (n : Fin 12) (s : State), s.hd (.dplink n) .faultStatus = 0 → actionOf s (.dplink n) 3 < 2 →
    s.log.queue.length < 1024 →
    ∃ t e, exec (.phyFault n) s = .next t ∧ t = { s with regs := t.regs, cyc := t.cyc, log := t.log } ∧
      t.hd (.dplink n) .faultStatus = 8 ∧ fbit (t.hd (.dplink n) .faultFirst) 16 = true ∧
      fget (t.hd (.dplink n) .faultFirst) 10 8 = 3 ∧ fget (t.hd (.dplink n) .faultFirst) 7 0 = 3 ∧
      (t.hd (.dplink n) .ffTimeLo).toNat = s.devtime % 2 ^ 32 ∧
      (t.hd (.dplink n) .ffTimeHi).toNat = s.devtime / 2 ^ 32 % 2 ^ 32 ∧
      t.log.queue = s.log.queue ++ [e] ∧ e.kind = .fault ∧ e.place = pageBase (.dplink n) ∧
      RegsBut s t [hadr (.dplink n) .faultStatus, hadr (.dplink n) .faultFirst, hadr (.dplink n) .ffTimeLo,
        hadr (.dplink n) .ffTimeHi]) ∧
  (∀ (n : Fin 12) (s : State), s.hd (.dplink n) .faultStatus ≠ 0 → fbit (s.hd (.dplink n) .faultStatus) 3 = false →
    actionOf s (.dplink n) 3 < 2 → s.cyc.firsts.contains (pageBase (.dplink n)) = false →
    ∃ t, exec (.phyFault n) s = .next t ∧ t = { s with regs := t.regs, cyc := t.cyc, log := t.log } ∧
      t.hd (.dplink n) .faultStatus = s.hd (.dplink n) .faultStatus ||| 8 ∧
      RegsBut s t [hadr (.dplink n) .faultStatus])

/-- R520, R128, R224, R168, R250: injections into units, and the statistics slots. An armed AUX_DROP with a request
queued counts a retry and holds PARAM more replies to discard; an armed TILE_PARITY sets BAY fault bit 0; an armed
GLYPH_PARITY on a resident glyph that a head reads drops it, sets LEGEND fault bit 2 and fetches it again; an armed
READ_ERROR on a run that the head reads sets VENEER fault bit 0. A write of STAT_CFG puts its fields in force with
every counter of the slot and its maximum at 0. -/
def Obligations.UnitInjections : Prop :=
  (∀ (n : Fin 12) (t0 k : Nat) (s : State), armed s (.dplink n) 0x30 = some (t0, k) → (s.head n).auxQueued = true →
    (s.head n).auxTries < 7 →
    ∃ t, exec (.auxDrop n) s = .next t ∧ t = { s with regs := t.regs, heads := t.heads, log := t.log } ∧
      t.head n = { s.head n with auxDrop := k, auxTries := (s.head n).auxTries + 1 } ∧
      (∀ q, q ≠ n.val → t.head q = s.head q) ∧ fbit (t.hd (.dplink n) .inject) 31 = false ∧
      fbit (t.hd (.dplink n) .inject) 30 = true ∧
      RegsBut s t [hadr (.dplink n) .inject, pageBase (.dplink n) + Reg.DPLINK_AUX_STATUS]) ∧
  (∀ (b : Fin 48) (x : Nat × Nat) (s : State), armed s (.bay b) 0x50 = some x → bayFenced s b = false →
    ∃ t, exec (.tileParity b) s = .next t ∧ fbit (t.hd (.bay b) .faultStatus) 0 = true ∧ FaultParts s t) ∧
  (∀ (n : Fin 12) (g : Fin 8192) (x : Nat × Nat) (gl : CellGlyph) (r : GlyphRes) (s : State),
    armed s .legend 0x70 = some x → capturedGlyph s n g = some gl → residentGlyph s gl = some r →
    ∃ t u, exec (.glyphParity n g) s = .next t ∧ FaultParts (dropGlyph s g) u ∧
      fbit (u.hd .legend .faultStatus) 2 = true ∧ t = glyphFetch u n gl) ∧
  (∀ (n : Fin 12) (r : Fin 3) (line : Nat) (x : Nat) (run : Run) (s : State),
    armed s .veneer 0x71 = some (n.val, x) → run ∈ (s.head n).runs → run.idx = r.val → runReads run line = true →
    line < (s.head n).raster.vActive →
    ∃ t, exec (.readError n r line) s = .next t ∧ fbit (t.hd .veneer .faultStatus) 0 = true ∧ FaultParts s t) ∧
  (∀ (m : Master) (k : Fin 16) (value : Word) (s : State),
    let a := pageBase .kerf + Reg.KERF_STAT_CFG + 0x80 * k.val
    Accepts s m a →
    ∃ t, exec (.statCfgWrite m k value) s = .next t ∧ t = { taken s m a with regs := t.regs, cyc := t.cyc } ∧
      t.reg a = value &&& 0x8000FFFF ∧ (∀ i < 18, t.reg (a + 4 + 4 * i) = 0) ∧
      RegsBut (taken s m a) t (a :: (List.range 18).map (fun i => a + 4 + 4 * i)))

/-- R408, R417, R418, R419, R420, R422, R423, R424: WCALL, WRET and the interrupts of the control complex. WCALL in
HS-mode of a shared core with the monitor open enters M-mode at WCALL_VECTOR with the core's world bit set and its
trap registers written; with the monitor shut the core goes on behind the WCALL with a0 holding UNAVAILABLE. WRET in
M-mode goes back to the mode and address that the trap registers record with the world bit clear and the isolation
level of ISO_LEVEL, and where it scrubs, every general register but a0 and a1 and every floating-point register
holds 0. A secure interrupt is taken in M-mode by the first core of SEC_IRQ_TARGET that runs, a normal one by its
shared core in world 0 in HS-mode; each masks the core's own interrupt enable and saves where the core was. No other
core and no other register changes. -/
def Obligations.WorldSwitches : Prop :=
  (∀ (c : Fin 8) (pc : BitVec 64) (s : State),
    coreRuns s c = true → isHwCore s c = false → worldBit s c = false →
    ∃ t, exec (.wcall c .hs pc) s = .next t ∧ t = { s with regs := t.regs, cpx := t.cpx } ∧
      RegsBut s t [pageBase .world + Reg.WORLD_CORE_WORLD] ∧ (∀ d, d ≠ c.val → t.core d = s.core d) ∧
      (∀ k, k ≠ c.val → worldBit t k = worldBit s k) ∧
      (monitorShut s = false →
        worldBit t c = true ∧ (t.core c).mode = .m ∧ (t.core c).pc = s.pair .world Reg.WORLD_WCALL_VECTOR_LO ∧
        (t.core c).mepc = pc.toNat + 4 ∧ (t.core c).mcause = 24 ∧ (t.core c).mtval = 0 ∧ (t.core c).mpp = .hs ∧
        (t.core c).mie = false ∧ (t.core c).mpie = (s.core c).mie ∧ (t.core c).x = (s.core c).x) ∧
      (monitorShut s = true →
        worldBit t c = false ∧
        t.core c = { s.core c with mode := .hs, pc := pc.toNat + 4, x := (s.core c).x.set 10 0xFFFFFFFFFFFFFF02 })) ∧
  (∀ (c : Fin 8) (pc : BitVec 64) (s : State),
    coreRuns s c = true → isHwCore s c = false → worldBit s c = true → (s.core c).mpp ≠ .m →
    ∃ t, exec (.wret c .m pc) s = .next t ∧ t = { s with regs := t.regs, cpx := t.cpx } ∧
      RegsBut s t [pageBase .world + Reg.WORLD_CORE_WORLD] ∧ (∀ d, d ≠ c.val → t.core d = s.core d) ∧
      (∀ k, k ≠ c.val → worldBit t k = worldBit s k) ∧
      worldBit t c = false ∧ (t.core c).mode = (s.core c).mpp ∧ (t.core c).pc = (s.core c).mepc ∧
      (t.core c).mie = (s.core c).mpie ∧ (t.core c).iso = isoField s c ∧ (t.core c).firstWret = false ∧
      (t.core c).mtvec = (s.core c).mtvec ∧
      (wretScrubs s c = false → (t.core c).x = (s.core c).x ∧ (t.core c).f = (s.core c).f) ∧
      (wretScrubs s c = true →
        (t.core c).fcsr = 0 ∧ (∀ v ∈ (t.core c).f, v = 0) ∧
        ∀ i, (t.core c).x[i]? = (s.core c).x[i]?.map (fun v => if i = 10 ∨ i = 11 then v else 0))) ∧
  (∀ (c : Nat) (s : State), secureTarget s = some c → irqNext s secureSource ≠ 0 →
    ∃ t, exec .secureIrqTaken s = .next t ∧ t = { s with regs := t.regs, cpx := t.cpx } ∧
      RegsBut s t [pageBase .world + Reg.WORLD_CORE_WORLD] ∧ (∀ d, d ≠ c → t.core d = s.core d) ∧
      (t.core c).mode = .m ∧ (t.core c).mepc = (s.core c).pc ∧ (t.core c).mpp = (s.core c).mode ∧
      (t.core c).mcause = 2 ^ 63 + 11 ∧ (t.core c).mie = false ∧ (t.core c).mpie = (s.core c).mie ∧
      (t.core c).pc = trapTarget (s.core c).mtvec (some 11) ∧ (c < 32 → worldBit t c = true)) ∧
  (∀ (c : Fin 8) (s : State), isHwCore s c = false → worldBit s c = false → coreRuns s c = true →
    bit (s.pf .ctrlcplx Reg.CTRLCPLX_SAP_IRQ_TARGET 7 0) c = true → irqNext s normalSource ≠ 0 →
    ∃ t, exec (.normalIrqTaken c) s = .next t ∧ t = { s with cpx := t.cpx } ∧ (∀ d, d ≠ c.val → t.core d = s.core d) ∧
      t.core c = { s.core c with
        mode := .hs, sepc := (s.core c).pc, scause := 2 ^ 63 + 9, stval := 0, spp := (s.core c).mode,
        spie := (s.core c).sie, sie := false, pc := trapTarget (s.core c).stvec (some 9) })

/-- R428, R429, R430, R436, R437: the faults of cores and the restart of Heartwood. A budget that runs out and a
watchdog count that runs out set fault bit 1 of WORLD, an exception in M-mode sets bit 2, and each leaves a restart
of Heartwood under way; a parity error of a core sets that core's bit in CTRLCPLX. No fault touches memory or
anything else that `FaultParts` does not name. A write of HW_CTRL with RESTART starts one; it goes from quiescing to
clearing and from clearing to measuring, each step when it is done; a digest that matches after a restart releases
the Heartwood cores at RESET_VECTOR, clears RESTARTING and reports it, and one that does not sets fault bit 3 of
WORLD. -/
def Obligations.HeartwoodRecovery : Prop :=
  (∀ (c : Fin 8) (s : State), isHwCore s c = false → worldBit s c = true → coreRuns s c = true → budgetOver s c = true →
    ∃ t, exec (.hwBudgetExpiry c) s = .next t ∧ fbit (t.hd .world .faultStatus) 1 = true ∧ restarting t = true ∧
      FaultParts s t) ∧
  (∀ (c : Fin 8) (s : State), isHwCore s c = true → coreRuns s c = true → restarting s = false → wdogOver s c = true →
    ∃ t, exec (.wdogExpiry c) s = .next t ∧ fbit (t.hd .world .faultStatus) 1 = true ∧ restarting t = true ∧
      FaultParts s t) ∧
  (∀ (c : Fin 8) (s : State), coreRuns s c = true → worldBit s c = true →
    ∃ t, exec (.monitorFault c) s = .next t ∧ fbit (t.hd .world .faultStatus) 2 = true ∧ restarting t = true ∧
      t.fresh = s.fresh + 2 ∧ FaultParts { s with fresh := t.fresh } t) ∧
  (∀ (c : Fin 8) (s : State), coreFenced s c = false →
    ∃ t, exec (.coreParity c) s = .next t ∧ fbit (t.hd .ctrlcplx .faultStatus) c = true ∧ FaultParts s t) ∧
  (∀ (m : Master) (value : Word) (s : State), Accepts s m (pageBase .world + Reg.WORLD_HW_CTRL) → fbit value 0 = true →
    ∃ t, exec (.hwCtrlRestart m value) s = .next t ∧ restarting t = true) ∧
  (∀ s : State, s.cpx.step = .quiesce →
    exec .hwQuiesced s = .next { s with cpx := { s.cpx with step := .clear } }) ∧
  (∀ s : State, s.cpx.step = .clear → s.cpx.manifest.clear = [] →
    ∃ t, exec .hwClearDone s = .next t ∧ t.cpx.step = .measure ∧
      t.mem = (zeroRange s 0x1010000000 1048576).mem) ∧
  (∀ s : State, s.cpx.step = .measure → (measure s).1.surv.hwLoaded = true → (measure s).2 = false →
    ∃ t, exec .hwMeasureDone s = .next t ∧ fbit (t.hd .world .faultStatus) 3 = true) ∧
  (∀ s : State, s.cpx.step = .measure → (measure s).1.surv.hwLoaded = true → (measure s).2 = true →
    ∃ t, exec .hwMeasureDone s = .next t ∧ t.cpx.step = .idle ∧ restarting t = false ∧
      fbit (t.hd .world .irqStatus) 0 = true ∧ fbit (t.hd .ctrlcplx .irqStatus) 4 = true ∧
      t.safe.kickAt = (measure s).1.devtime ∧ t.mem = (measure s).1.mem)

/-- R429, R435, R439: KICK, SAFE_OK_SET, SAFE_OK_KICK and SAFE_OK_EXPIRED. A kick sets the watchdog's time and
starts the count of each Heartwood core it names; a write of SAFE_OK sets the period and OK, and with OK going to 1
or KICK it starts the period; a time of 0 is refused with RANGE; and a period that runs out with no kick clears OK,
reports it and raises fault bit 5 of WORLD. -/
def Obligations.KicksAndSafeOk : Prop :=
  (∀ (m : Master) (value : Word) (s : State), Accepts s m (pageBase .world + Reg.WORLD_WDOG) → fget value 31 16 ≠ 0 →
    ∃ t, exec (.kick m value) s = .next t ∧ t.pr .world Reg.WORLD_WDOG = value &&& 0xFFFF0000 ∧
      (∀ c < 8, fbit value c = true → isHwCore (taken s m (pageBase .world + Reg.WORLD_WDOG)) c = true →
        (t.core c).kickAt = (taken s m (pageBase .world + Reg.WORLD_WDOG)).devtime) ∧
      (∀ c, fbit value c = false → t.core c = (taken s m (pageBase .world + Reg.WORLD_WDOG)).core c) ∧
      RegsBut (taken s m (pageBase .world + Reg.WORLD_WDOG)) t [pageBase .world + Reg.WORLD_WDOG]) ∧
  (∀ (m : Master) (value : Word) (s : State), Accepts s m (pageBase .world + Reg.WORLD_WDOG) → fget value 31 16 = 0 →
    ∃ t, exec (.kick m value) s = .next t ∧ t.pr .world Reg.WORLD_WDOG = (taken s m (pageBase .world + Reg.WORLD_WDOG)).pr .world Reg.WORLD_WDOG) ∧
  (∀ (m : Master) (value : Word) (s : State), Accepts s m (pageBase .world + Reg.WORLD_SAFE_OK) → fget value 31 16 ≠ 0 →
    ∃ t, exec (.safeOkSet m value) s = .next t ∧ t.pf .world Reg.WORLD_SAFE_OK 31 16 = fget value 31 16 ∧
      fbit (t.pr .world Reg.WORLD_SAFE_OK) 0 = true ∧
      (fbit value 1 = true → t.safe.kickAt = (taken s m (pageBase .world + Reg.WORLD_SAFE_OK)).devtime) ∧
      RegsBut (taken s m (pageBase .world + Reg.WORLD_SAFE_OK)) t [pageBase .world + Reg.WORLD_SAFE_OK]) ∧
  (∀ (m : Master) (value : Word) (s : State), Accepts s m (pageBase .world + Reg.WORLD_SAFE_OK) → fget value 31 16 ≠ 0 →
    ∃ t, exec (.safeOkKick m value) s = .next t ∧ t.pf .world Reg.WORLD_SAFE_OK 31 16 = fget value 31 16 ∧
      fbit (t.pr .world Reg.WORLD_SAFE_OK) 0 = fbit value 0 ∧
      t.safe.kickAt = (taken s m (pageBase .world + Reg.WORLD_SAFE_OK)).devtime ∧
      RegsBut (taken s m (pageBase .world + Reg.WORLD_SAFE_OK)) t [pageBase .world + Reg.WORLD_SAFE_OK]) ∧
  (∀ s : State, fbit (s.pr .world Reg.WORLD_SAFE_OK) 0 = true → restarting s = false → kickOver s = true →
    ∃ t, exec .safeOkExpired s = .next t ∧ fbit (t.hd .world .irqStatus) 1 = true ∧
      fbit (t.hd .world .faultStatus) 5 = true ∧ FaultParts s t)

/-- R85, R86, R87: the life of a head's generator. Enabling it leaves TIMING enabled and BUSY with the PLL locking
and FRAME_COUNT 0; the lock starts the generator in a frame latch and clears BUSY; disabling it lets a running
generator drain to its stop, after which the PLL stops and BUSY clears; a lock that is lost stops the generator with
fault bit 0 until the PLL locks again. -/
def Obligations.HeadLife : Prop :=
  (∀ (m : Master) (n : Fin 12) (s : State),
    let a := hadr (.timing n) .ctrl
    Accepts s m a → headEnableCheck (taken s m a) n = none → (taken s m a).enabled (.timing n) = false →
    ∃ t, exec (.headEnable m n) s = .next t ∧ t.enabled (.timing n) = true ∧ t.busy (.timing n) = true ∧
      (t.head n).pll = .locking ∧ (t.head n).flips = [] ∧ t.pr (.timing n) Reg.TIMING_FRAME_COUNT = 0 ∧
      (∀ r < 18, t.pf (.composer n) (Reg.COMPOSER_FLIP_SEQ + 16 * r) 0 0 = 0) ∧
      (∀ k, k ≠ n.val → t.head k = (taken s m a).head k) ∧ t.mem = (taken s m a).mem) ∧
  (∀ (n : Fin 12) (s : State), (s.head n).pll = .locking → loadIsShed s = false → legacyOn s = false →
    ∃ t, exec (.pllLock n) s = .next t ∧ (t.head n).running = true ∧ (t.head n).pll = .locked ∧
      (t.head n).latched = true ∧ (t.head n).latchCycle = some s.fclk ∧ t.busy (.timing n) = false ∧
      t.pf (.timing n) Reg.TIMING_PLL_STATUS 0 0 = 1 ∧ t.mem = s.mem) ∧
  (∀ (n : Fin 12) (s : State), (s.head n).pll = .unlocked → s.enabled (.timing n) = true → loadIsShed s = false →
    legacyOn s = false →
    ∃ t, exec (.pllRelock n) s = .next t ∧ (t.head n).running = true ∧ (t.head n).pll = .locked ∧
      (t.head n).latched = true ∧ t.pr (.timing n) Reg.TIMING_FRAME_COUNT = s.pr (.timing n) Reg.TIMING_FRAME_COUNT) ∧
  (∀ (m : Master) (n : Fin 12) (s : State),
    let a := hadr (.timing n) .ctrl
    Accepts s m a → (taken s m a).enabled (.timing n) = true →
    ∃ t, exec (.headDisable m n) s = .next t ∧ t.enabled (.timing n) = false ∧ t.busy (.timing n) = true ∧
      (t.head n).runs = [] ∧ (t.head n).running = ((taken s m a).head n).running ∧
      (((taken s m a).head n).running = true → (t.head n).draining = true) ∧
      (((taken s m a).head n).running = false → (t.head n).pll = .stopping)) ∧
  (∀ (n : Fin 12) (s : State), (s.head n).draining = true →
    ∃ t, exec (.timingStop n) s = .next t ∧ t = { s with regs := t.regs, heads := t.heads } ∧
      (t.head n).running = false ∧ (t.head n).draining = false ∧ (t.head n).pll = .stopping ∧
      fbit (t.pr (.dplink n) Reg.DPLINK_LINK_STATUS) 28 = true ∧ (∀ k, k ≠ n.val → t.head k = s.head k) ∧
      RegsBut s t [pageBase (.dplink n) + Reg.DPLINK_LINK_STATUS]) ∧
  (∀ (n : Fin 12) (s : State), (s.head n).pll = .stopping → s.b4.restarts.contains n.val = false →
    fget (s.hd (.timing n) .ready) 15 8 ≠ 7 →
    ∃ t, exec (.pllStopped n) s = .next t ∧ t = { s with regs := t.regs, heads := t.heads } ∧
      t.head n = { s.head n with pll := .off } ∧ t.busy (.timing n) = false ∧
      t.pf (.timing n) Reg.TIMING_PLL_STATUS 0 0 = 0 ∧ (∀ k, k ≠ n.val → t.head k = s.head k) ∧
      RegsBut s t [pageBase (.timing n) + Reg.TIMING_PLL_STATUS, hadr (.timing n) .ready]) ∧
  (∀ (n : Fin 12) (s : State), (s.head n).pll = .locked →
    ∃ t, exec (.pllUnlock n) s = .next t ∧ fbit (t.hd (.timing n) .faultStatus) 0 = true ∧ FaultParts s t)

/-- R93, R94, R96, R97, R98, R100, R101, R105: the latches of a head. Line 0 counts the frame and stamps it; at the
frame latch of a running head every pending stage of its pages takes effect, at the latch line and in the latch's
cycle; a band latch marks its band and the line four before it; and while the head is disabled its pending stages
take effect with no latch. -/
def Obligations.HeadLatches : Prop :=
  (∀ (n : Fin 12) (s : State), (s.head n).running = true → (s.head n).draining = false →
    ∃ t, exec (.frameStart n) s = .next t ∧
      t.pr (.timing n) Reg.TIMING_FRAME_COUNT = s.pr (.timing n) Reg.TIMING_FRAME_COUNT + 1 ∧
      t.pair (.timing n) Reg.TIMING_FRAME_TIME_LO = s.devtime % 2 ^ 64 ∧ fbit (t.hd (.timing n) .irqStatus) 0 = true ∧
      (t.head n).line = 0 ∧ (t.head n).latched = false ∧ (t.head n).running = true ∧
      (t.head n).raster = rasterInForce s n ∧ t.mem = s.mem) ∧
  (∀ (n : Fin 12) (s : State), (s.head n).running = true → s.enabled (.timing n) = true → legacyOn s = false →
    ∃ t, exec (.frameLatch n) s = .next t ∧ t.pend (.timing n) = none ∧ t.pend (.composer n) = none ∧
      (∀ l < 16, t.pend (.layer n l) = none) ∧ (t.head n).latched = true ∧ (t.head n).latchCycle = some s.fclk ∧
      (t.head n).line = (rasterInForce t n).latchLine ∧ (t.head n).bandCommits = [] ∧
      fbit (t.hd (.composer n) .irqStatus) 4 = true ∧ t.mem = s.mem) ∧
  (∀ (n : Fin 12) (b : Fin 8) (s : State), (s.head n).running = true → 1 ≤ b.val → b.val < numBands s n →
    ∃ t, exec (.bandLatch n b) s = .next t ∧ (t.head n).bandLatched = some b.val ∧
      (t.head n).bandCycle = some s.fclk ∧ (t.head n).line = bandStart s n b - 4 ∧
      fbit (t.hd (.composer n) .irqStatus) 5 = true ∧
      (∀ l < 16, fbit (s.pr (.layer n l) Reg.LAYER_LAYER_CTRL) 1 = true → t.pend (.layer n l) = none) ∧ t.mem = s.mem) ∧
  (∀ (n : Fin 12) (s : State), s.enabled (.timing n) = false → legacyOn s = false →
    ∃ t, exec (.disabledLatch n) s = .next t ∧ t.pend (.timing n) = none ∧ t.pend (.composer n) = none ∧
      (∀ l < 16, t.pend (.layer n l) = none) ∧ (t.head n).latched = (s.head n).latched ∧
      (t.head n).flips = (s.head n).flips ∧ t.mem = s.mem)

/-- R144, R145, R146, R151, R163, R186: what a head fetches, composes and writes. A layer line that arrives is kept
with its number and marks the frame it was read in; a palette that arrives is on chip and no longer awaited; a line
that is composed is the one sent, with a pixel for each column; a block row that is written behind is marked written
and its held lines go; a coefficient that the fabric, its owner and its use allow takes its two fields. -/
def Obligations.LinesAndCoefficients : Prop :=
  (∀ (n : Fin 12) (k : Fin 16) (line : Nat) (s : State) (x0 : Nat) (px : List Px),
    (s.head n).running = true → line < (rasterInForce s n).vActive → layerActive s n k = true →
    (s.head n).paletteWait.contains k.val = false → (visibleSpan s n k line).isSome = true → k.val ≠ 14 →
    (fetchLine s n k line).2 = .ok (x0, px) →
    ∃ t, exec (.layerFetch n false k line) s = .next t ∧ ⟨.layer k, line, x0, px, false⟩ ∈ (t.head n).lines ∧
      t.pr (.layer n k) Reg.LAYER_CUR_READ_FRAME = fetchFrame (fetchLine s n k line).1 n ∧
      t.mem = (fetchLine s n k line).1.mem) ∧
  (∀ (n : Fin 12) (line : Nat) (s : State), (s.head n).running = true → line < (s.head n).raster.vActive →
    safePicture s = false →
    ∃ t, exec (.lineCompose n line) s = .next t ∧ (t.head n).outLine = line ∧
      (t.head n).out.length = (s.head n).raster.hActive ∧ (t.head n).line = line ∧
      (∀ f ∈ (t.head n).lines, f.line ≠ line)) ∧
  (∀ (n : Fin 12) (k : Fin 16) (s : State) (b : List Nat), (s.head n).paletteWait.contains k.val = true →
    (layerRead s n k (s.pair (.layer n k) Reg.LAYER_PALETTE_ADDR_LO) 1024).2 = .ok b →
    ∃ t, exec (.paletteRead n k) s = .next t ∧ aget [] (t.head n).palettes k = wordsOf 4 256 b ∧
      (t.head n).paletteWait.contains k.val = false) ∧
  (∀ (n : Fin 12) (r : Fin 3) (row : Nat) (s : State) (x : Run),
    (s.head n).runs.find? (fun x => x.idx == r.val) = some x → s.fenced .veneer = false →
    8 * row < (s.head n).raster.vActive →
    (∀ i < 8, 8 * row + i < (s.head n).raster.vActive → ∃ e ∈ x.held, e.1 = 8 * row + i) →
    ∃ t, exec (.veneerWriteBehind n r row) s = .next t ∧
      ∀ y ∈ (t.head n).runs, y.idx = r.val → row ∈ y.rows ∧ ∀ e ∈ y.held, e.1 / 8 ≠ row) ∧
  (∀ (m : Master) (k : Fin 16) (off : BitVec 11) (value : Word) (s : State),
    let a := 0x148000 + 0x800 * k.val + off.toNat / 4 * 4
    Accepts s m a → coefPermits (taken s m a) m k = true → off.toNat < 0x700 → setInUse (taken s m a) k = false →
    ∃ t, exec (.coefWrite m k off value) s = .next t ∧ t.reg a = value &&& 0x03FF03FF ∧ RegsBut (taken s m a) t [a] ∧
      t.mem = (taken s m a).mem)

/-- R152, R154, R155, R166, R168, R171: what goes wrong on a head's fetches and veneers. A fetch that faults reports
the layer with fault bit 0, and one with uncorrectable data with bit 1; a veneer read error sets VENEER fault bit 0,
a write error invalidates its run and sets bit 1; an abandoned write-behind leaves no run being built; and a retired
buffer set whose owner asked for no signal shows as retired. -/
def Obligations.LayerTroubles : Prop :=
  (∀ (n : Fin 12) (k : Fin 16) (line addr : Nat) (w : Bool) (s : State), layerActive s n k = true →
    ∃ t, exec (.layerFetchFault n k line w addr) s = .next t ∧ fbit (t.hd (.composer n) .faultStatus) 0 = true ∧
      fbit (t.hd (.composer n) .irqStatus) 3 = true ∧ FaultParts s t) ∧
  (∀ (n : Fin 12) (k : Fin 16) (line addr : Nat) (s : State), layerActive s n k = true → k.val ≠ 14 →
    ∃ t, exec (.layerDataError n k line addr) s = .next t ∧ fbit (t.hd (.composer n) .faultStatus) 1 = true ∧
      FaultParts s t) ∧
  (∀ (n : Fin 12) (r : Fin 3) (line : Nat) (s : State),
    (s.head n).runs.any (fun x => x.idx == r.val && runReads x line) = true → line < (s.head n).raster.vActive →
    ∃ t, exec (.veneerReadError n r line) s = .next t ∧ fbit (t.hd .veneer .faultStatus) 0 = true ∧ FaultParts s t) ∧
  (∀ (n : Fin 12) (r : Fin 3) (s : State), (s.head n).runs.any (fun x => x.idx == r.val) = true →
    ∃ t, exec (.veneerWriteError n r) s = .next t ∧ fbit (t.hd .veneer .faultStatus) 1 = true ∧
      fbit (t.hd .veneer .irqStatus) 1 = true ∧ FaultParts s t) ∧
  (∀ (n : Fin 12) (s : State),
    ∃ t, exec (.writeBehindAbandon n) s = .next t ∧ (∀ x ∈ (t.head n).runs, x.building = false) ∧
      (∀ x ∈ (t.head n).runs, x ∈ (s.head n).runs) ∧ (∀ k, k ≠ n.val → t.head k = s.head k) ∧ FaultParts s t) ∧
  (∀ (n : Fin 12) (k : Fin 16) (s : State) (w : RetireWait),
    (s.head n).retires.find? (fun w => w.layer == k.val) = some w → w.addr = 0 →
    ∃ t, exec (.retireWrite n k) s = .next t ∧ t = { s with regs := t.regs, heads := t.heads } ∧
      t.pf (.layer n k) Reg.LAYER_LAYER_STATUS 3 3 = 1 ∧
      t.head n = { s.head n with retires := (s.head n).retires.eraseP (fun x => x.layer == k.val) } ∧
      RegsBut s t [pageBase (.layer n k) + Reg.LAYER_LAYER_STATUS])

/-- R123, R124, R126, R127, R130, R131: sinks and the training of links. A plug sets HPD, reports the change and
shows the sink's capabilities; an unplug clears HPD, reports the change, gives up training and leaves the idle
pattern, with the loss of a trained link reported. Neither changes a register elsewhere, memory, or another head.
Training that may start and has candidates begins at the top of the list; an interrupt of the sink reports itself
where no lock was lost; an attempt that succeeds reports the rate and the lanes of its candidate and the trained
link; the failure of the last one reports the failure with fault bit 2 and leaves the idle pattern; a stream
underflow and a fault of the PHY set bits 4 and 3. -/
def Obligations.LinksTrained : Prop :=
  (∀ (n : Fin 12) (rate : Fin 7) (lanes : Fin 3) (dsc : Bool) (s : State),
    ∃ t, exec (.hpdPlug n rate lanes dsc) s = .next t ∧ t = { s with regs := t.regs, cyc := t.cyc, b4 := t.b4 } ∧
      fbit (t.pr (.dplink n) Reg.DPLINK_LINK_STATUS) 31 = true ∧ fbit (t.hd (.dplink n) .irqStatus) 2 = true ∧
      t.pf (.dplink n) Reg.DPLINK_SINK_CAPS 2 0 = rate ∧ t.pf (.dplink n) Reg.DPLINK_SINK_CAPS 5 4 = lanes ∧
      fbit (t.pr (.dplink n) Reg.DPLINK_SINK_CAPS) 8 = dsc ∧
      RegsBut s t [pageBase (.dplink n) + Reg.DPLINK_LINK_STATUS, hadr (.dplink n) .irqStatus,
        pageBase (.dplink n) + Reg.DPLINK_SINK_CAPS]) ∧
  (∀ (n : Fin 12) (s : State),
    ∃ t, exec (.hpdUnplug n) s = .next t ∧ t = { s with regs := t.regs, cyc := t.cyc, heads := t.heads, b4 := t.b4 } ∧
      fbit (t.pr (.dplink n) Reg.DPLINK_LINK_STATUS) 31 = false ∧
      fbit (t.pr (.dplink n) Reg.DPLINK_LINK_STATUS) 30 = false ∧
      fbit (t.pr (.dplink n) Reg.DPLINK_LINK_STATUS) 29 = false ∧
      fbit (t.pr (.dplink n) Reg.DPLINK_LINK_STATUS) 28 = true ∧
      fbit (t.hd (.dplink n) .irqStatus) 2 = true ∧
      (fbit (s.pr (.dplink n) Reg.DPLINK_LINK_STATUS) 30 = true → fbit (t.hd (.dplink n) .irqStatus) 1 = true) ∧
      t.head n = { s.head n with candidates := [] } ∧ (∀ k, k ≠ n.val → t.head k = s.head k) ∧
      RegsBut s t [pageBase (.dplink n) + Reg.DPLINK_LINK_STATUS, hadr (.dplink n) .irqStatus]) ∧
  (∀ (n : Fin 12) (s : State), mayTrain s n = true → candidates s n ≠ [] →
    ∃ t, exec (.linkTraining n) s = .next t ∧ t = { s with regs := t.regs, heads := t.heads } ∧
      (t.head n).candidates = candidates s n ∧ fbit (t.pr (.dplink n) Reg.DPLINK_LINK_STATUS) 29 = true ∧
      fbit (t.pr (.dplink n) Reg.DPLINK_LINK_STATUS) 30 = false ∧ t.pf (.dplink n) Reg.DPLINK_LINK_STATUS 15 8 = 0 ∧
      RegsBut s t [pageBase (.dplink n) + Reg.DPLINK_LINK_STATUS] ∧ (∀ k, k ≠ n.val → t.head k = s.head k)) ∧
  (∀ (n : Fin 12) (s : State),
    ∃ t, exec (.irqHpd n false) s = .next t ∧ t = { s with regs := t.regs, cyc := t.cyc } ∧
      fbit (t.hd (.dplink n) .irqStatus) 3 = true ∧ RegsBut s t [hadr (.dplink n) .irqStatus]) ∧
  (∀ (n : Fin 12) (s : State) (c : Nat × Nat) (rest : List (Nat × Nat)), (s.head n).candidates = c :: rest →
    c.1 < 8 → c.2 < 4 →
    ∃ t, exec (.trainingAttemptEnd n true) s = .next t ∧ t = { s with regs := t.regs, cyc := t.cyc, heads := t.heads } ∧
      t.pf (.dplink n) Reg.DPLINK_LINK_STATUS 6 4 = c.1 ∧ t.pf (.dplink n) Reg.DPLINK_LINK_STATUS 1 0 = c.2 ∧
      fbit (t.pr (.dplink n) Reg.DPLINK_LINK_STATUS) 30 = true ∧
      fbit (t.pr (.dplink n) Reg.DPLINK_LINK_STATUS) 29 = false ∧ (t.head n).candidates = [] ∧
      fbit (t.hd (.dplink n) .irqStatus) 0 = true ∧
      RegsBut s t [pageBase (.dplink n) + Reg.DPLINK_LINK_STATUS, hadr (.dplink n) .irqStatus]) ∧
  (∀ (n : Fin 12) (s : State) (c : Nat × Nat), (s.head n).candidates = [c] →
    ∃ t, exec (.trainingAttemptEnd n false) s = .next t ∧ fbit (t.hd (.dplink n) .faultStatus) 2 = true ∧
      fbit (t.hd (.dplink n) .irqStatus) 4 = true ∧ t.mem = s.mem) ∧
  (∀ (n : Fin 12) (s : State), mayTrain s n = false →
    ∃ t, exec (.streamUnderflow n) s = .next t ∧ fbit (t.hd (.dplink n) .faultStatus) 4 = true ∧
      fbit (t.hd (.dplink n) .irqStatus) 1 = true ∧ t.mem = s.mem) ∧
  (∀ (n : Fin 12) (s : State),
    ∃ t, exec (.phyFault n) s = .next t ∧ fbit (t.hd (.dplink n) .faultStatus) 3 = true ∧ FaultParts s t)

/-- R128, R129, R130, R520: the EDID buffer and the AUX port. What an EDID read brings is in the buffer with its
count and validity; an AUX request with a sink present is busy until it ends; the reply ends it with the bytes, a
refusal or an error; a timeout counts a retry, and the one behind the seventh fails the request with fault bit 1; a
reply that an armed AUX_DROP discards counts as none. -/
def Obligations.EdidAndAux : Prop :=
  (∀ (n : Fin 12) (b : List (BitVec 8)) (s : State),
    ∃ t, exec (.edidReadDone n [b]) s = .next t ∧ t = { s with regs := t.regs, cyc := t.cyc } ∧
      fbit (t.hd (.dplink n) .irqStatus) 6 = true ∧ t.pf (.dplink n) Reg.DPLINK_EDID_STATUS 8 8 = 1 ∧
      t.pf (.dplink n) Reg.DPLINK_EDID_STATUS 4 0 = 1 ∧
      (∀ i < 32, t.pr (.dplink n) (Reg.DPLINK_EDID_BUF + 4 * i) =
        w32 (ofLeBytes ((List.range 4).map (fun j => (b.getD (4 * i + j) 0).toNat))))) ∧
  (∀ (m : Master) (n : Fin 12) (cmd len : BitVec 4) (s : State),
    let a := pageBase (.dplink n) + Reg.DPLINK_AUX_CTRL
    Accepts s m a → auxGoCheck (taken s m a) n = none →
    fbit ((taken s m a).pr (.dplink n) Reg.DPLINK_LINK_STATUS) 31 = true →
    ∃ t, exec (.auxGo m n cmd len) s = .next t ∧ (t.head n).auxQueued = true ∧ (t.head n).auxTries = 0 ∧
      t.pr (.dplink n) Reg.DPLINK_AUX_STATUS = 1 ∧ t.pf (.dplink n) Reg.DPLINK_AUX_CTRL 7 4 = cmd.toNat ∧
      t.pf (.dplink n) Reg.DPLINK_AUX_CTRL 3 0 = len.toNat ∧
      RegsBut (taken s m a) t [a, pageBase (.dplink n) + Reg.DPLINK_AUX_STATUS]) ∧
  (∀ (n : Fin 12) (s : State), (s.head n).auxQueued = true → (s.head n).auxTries < 7 →
    ∃ t, exec (.auxTimeout n) s = .next t ∧ t = { s with regs := t.regs, heads := t.heads } ∧
      t.head n = { s.head n with auxTries := (s.head n).auxTries + 1 } ∧
      t.pf (.dplink n) Reg.DPLINK_AUX_STATUS 15 8 = (s.head n).auxTries + 1 ∧
      RegsBut s t [pageBase (.dplink n) + Reg.DPLINK_AUX_STATUS]) ∧
  (∀ (n : Fin 12) (s : State), (s.head n).auxQueued = true → 7 ≤ (s.head n).auxTries →
    ∃ t, exec (.auxTimeout n) s = .next t ∧ fbit (t.hd (.dplink n) .faultStatus) 1 = true ∧
      fbit (t.hd (.dplink n) .irqStatus) 5 = true ∧ t.mem = s.mem) ∧
  (∀ (n : Fin 12) (s : State), (s.head n).auxQueued = true → (s.head n).auxDrop = 0 →
    ∃ t, exec (.auxReply n .nack) s = .next t ∧ t = { s with regs := t.regs, cyc := t.cyc, heads := t.heads } ∧
      (t.head n).auxQueued = false ∧ fbit (t.pr (.dplink n) Reg.DPLINK_AUX_STATUS) 0 = false ∧
      t.pf (.dplink n) Reg.DPLINK_AUX_STATUS 3 1 = 1 ∧ fbit (t.hd (.dplink n) .irqStatus) 5 = true ∧
      RegsBut s t [pageBase (.dplink n) + Reg.DPLINK_AUX_STATUS, hadr (.dplink n) .irqStatus]) ∧
  (∀ (n : Fin 12) (s : State), (s.head n).auxQueued = true → 0 < (s.head n).auxDrop → (s.head n).auxTries < 7 →
    ∀ r, ∃ t, exec (.auxReply n r) s = .next t ∧ (t.head n).auxDrop = (s.head n).auxDrop - 1 ∧
      (t.head n).auxTries = (s.head n).auxTries + 1)

/-- R195, R199, R200, R202, R353: point records. Enabling the engine starts the mirror of its table; a record that
the register path submits takes the staged low word; the oldest record of a master is accepted and counted, or
dropped as BAD and counted; and an accepted record replaces its entry of the table, and no other byte. -/
def Obligations.PointRecords : Prop :=
  (∀ (m : Master) (s : State), let a := hadr .legend .ctrl
    Accepts s m a → legendEnableCheck (taken s m a) = none → (taken s m a).enabled .legend = false →
    ∃ t, exec (.legendEnable m) s = .next t ∧ t.enabled .legend = true ∧
      t.pf .memctl Reg.MEMCTL_MIRROR_STATUS 16 16 = 0 ∧
      RegsBut (taken s m a) t [a, pageBase .memctl + Reg.MEMCTL_MIRROR_STATUS] ∧ t.mem = (taken s m a).mem ∧
      t.legend = (taken s m a).legend) ∧
  (∀ (m : Master) (v lo : Word) (s : State), let a := pageBase .legend + Reg.LEGEND_UPD_HI
    let u := taken s m a
    m = .heartwood ∨ m = .sapwood → Accepts s m a → u.staged m (a - 4) (a - 4) = [(a - 4, lo)] →
    let w := lo.toNat + 2 ^ 32 * v.toNat
    ∃ t, exec (.updHiWrite m v) s = .next t ∧ RegsBut u t [] ∧ t.mem = u.mem ∧
      t.legend = { u.legend with
        queue := u.legend.queue ++ [⟨w, m.code, rangeOwned u 0 (bits w 17 0) m.code, none⟩] }) ∧
  (∀ (m : Master) (r : PointRec) (s : State), s.legend.queue.find? (fun r => r.code == m.code) = some r →
    staleRecord s r = none → pointCheck s r = none →
    ∃ t, exec (.pointRecordAccept m) s = .next t ∧ t = { s with regs := t.regs, legend := t.legend } ∧
      t.legend = { s.legend with
        queue := s.legend.queue.eraseP (fun x => x.code == m.code), accepted := s.legend.accepted ++ [r] } ∧
      t.pr .legend Reg.LEGEND_ACCEPTED = s.pr .legend Reg.LEGEND_ACCEPTED + 1 ∧
      RegsBut s t [pageBase .legend + Reg.LEGEND_ACCEPTED]) ∧
  (∀ (m : Master) (r : PointRec) (s : State), s.legend.queue.find? (fun r => r.code == m.code) = some r →
    staleRecord s r = none → pointCheck s r = some .bad → r.job = none →
    ∃ t, exec (.pointRecordAccept m) s = .next t ∧ t = { s with regs := t.regs, legend := t.legend, cyc := t.cyc } ∧
      t.legend.accepted = s.legend.accepted ∧ t.pr .legend Reg.LEGEND_UPD_RESULT = 3 ∧
      t.pr .legend Reg.LEGEND_DROPPED = s.pr .legend Reg.LEGEND_DROPPED + 1 ∧
      fbit (t.hd .legend .irqStatus) 0 = true ∧
      RegsBut s t [pageBase .legend + Reg.LEGEND_ACCEPTED, pageBase .legend + Reg.LEGEND_UPD_RESULT,
        pageBase .legend + Reg.LEGEND_DROPPED, hadr .legend .irqStatus]) ∧
  (∀ (r : PointRec) (rest : List PointRec) (b : List Nat) (s v : State), s.legend.accepted = r :: rest →
    let a := ptBase s + 4 * bits r.word 17 0
    busRead (s.setLegend { s.legend with accepted := rest }) legendAgent false a 4 = (v, .ok b) → v.legend.accepted = rest →
    ∃ t, exec .pointEntryRead s = .next t ∧ t.legend.accepted = rest ∧ BytesBut v t (Stored a 4) ∧
      t.mem = (busWrite v legendAgent false a (leBytes 4 (pointEntry (ofLeBytes b) r.word))).1.mem)

/-- R204, R206, R211, R214, R226: the tables of the Legend engine. The write of a range's high word, in range, puts
both words in force; the write of word 3 of a style or glyph entry that the master owns and the rules allow puts the
entry in force whole, a glyph with the writer's code and its resident copy dropped. -/
def Obligations.LegendTables : Prop :=
  (∀ (m : Master) (t : Fin 3) (j : Fin 64) (v : Word) (s : State),
    let b := pageBase .legend + (rangeTable t).1
    let a := b + 8 * j.val
    let u := taken s m (a + 4)
    let lo := ((u.staged m b a).find? (fun w => w.1 == a)).elim (u.reg a) (·.2)
    Accepts s m (a + 4) → j.val < (rangeTable t).2.1 → rangeWriteOk (u.unstage m b) t j lo (v &&& 0xFFC3FFFF) = true →
    ∃ x, exec (.rangeWrite m t j v) s = .next x ∧ x.reg a = lo &&& 0x3FFFF ∧ x.reg (a + 4) = v &&& 0xFFC3FFFF ∧
      RegsBut u x [a, a + 4] ∧ x.mem = u.mem ∧ x.legend = u.legend) ∧
  (∀ (m : Master) (e : Fin 4096) (v : Word) (s : State),
    let a := 0x170000 + 16 * e.val
    let u := taken s m (a + 12)
    let w (k : Nat) : Word := (entryWords u m 0x170000 a v).getD k 0
    Accepts s m (a + 12) → rangeOwned u 1 e m.code = true → styleOk (w 0) (w 1) (w 2) v = true →
    ∃ t, exec (.styleEntryWrite m e v) s = .next t ∧ t.reg a = w 0 ∧ t.reg (a + 4) = w 1 ∧ t.reg (a + 8) = w 2 ∧
      t.reg (a + 12) = v ∧ RegsBut u t [a, a + 4, a + 8, a + 12] ∧ t.mem = u.mem ∧ t.legend = u.legend) ∧
  (∀ (m : Master) (e : Fin 4096) (v : Word) (s : State),
    let a := 0x170000 + 16 * e.val
    Accepts s m (a + 12) → rangeOwned (taken s m (a + 12)) 1 e m.code = false →
    ∃ t, exec (.styleEntryWrite m e v) s = .next t ∧
      (∀ k, k < 4 → t.reg (a + 4 * k) = (taken s m (a + 12)).reg (a + 4 * k)) ∧ t.mem = (taken s m (a + 12)).mem) ∧
  (∀ (m : Master) (e : Fin 8192) (v : Word) (s : State),
    let a := 0x180000 + 16 * e.val
    let u := taken s m (a + 12)
    let w (k : Nat) : Word := (entryWords u m 0x180000 a v).getD k 0
    Accepts s m (a + 12) → rangeOwned u 2 e m.code = true → glyphOk (w 0) (w 2) = true →
    ∃ t, exec (.glyphEntryWrite m e v) s = .next t ∧ t.reg a = w 0 ∧
      t.reg (a + 4) = (w 1 &&& 0xFFFF) ||| w32 (2 ^ 24 * m.code) ∧ t.reg (a + 8) = w 2 &&& 0x33F3F ∧
      t.reg (a + 12) = v &&& 0xFFFF ∧ RegsBut u t [a, a + 4, a + 8, a + 12] ∧ t.mem = u.mem ∧
      t.legend = { u.legend with cache := u.legend.cache.filter (fun r => r.glyph != e.val) })

/-- R219 to R226, R228, R246: captures and glyphs. A capture of a visible row keeps its cells for the head; a fill
of a captured glyph within the tokens makes it resident, and one with bad blocks is recorded by KERF besides; a
parity error drops it with fault bit 2 and fetches it again; a fetch that fails sets fault bit 3; and a point entry
that could not be read sets fault bit 0. -/
def Obligations.LegendCaptures : Prop :=
  (∀ (n : Fin 12) (r : Fin 540) (b : List Nat) (s v : State),
    let cols := visibleCols s n
    let a := s.pair (.layer n 14) Reg.LAYERL_CELLMAP_LO + r.val * fget (s.pr (.layer n 14) Reg.LAYERL_CM_PITCH) 15 0
    layerActive s n 14 = true → s.enabled .legend = true →
    r.val < fget (s.pr (.layer n 14) Reg.LAYERL_LG_GRID) 25 16 → legendRowSpan s n r ≠ [] → s.legend.accepted = [] →
    ownerRead s (committer s n 14) legendAgent false (a + 4 * cols.headD 0) (4 * cols.length) = (v, .ok b) →
    ∃ t, exec (.snapshot n r) s = .next t ∧
      ⟨n, r, (captureCells v n (cols.zip (wordsOf 4 cols.length b))).2⟩ ∈ t.legend.snaps ∧
      (∀ x ∈ t.legend.snaps, x.head = n.val → x.row = r.val →
        x.cells = (captureCells v n (cols.zip (wordsOf 4 cols.length b))).2)) ∧
  (∀ (n : Fin 12) (g : Fin 8192) (gl : CellGlyph) (b : List Nat) (s v : State),
    let need := 1200 * glyphBytes gl.words
    let u := s.setLegend { s.legend with
      tokens := aset (65536 * 1200, 0) s.legend.tokens n (fillTokens s n - need, s.fclk) }
    capturedGlyph s n g = some gl → residentGlyph s gl = none → need ≤ fillTokens s n →
    ownerRead u (bits (gl.words.getD 1 0) 31 24) legendAgent false (glyphAddr gl.words) (glyphBytes gl.words) =
      (v, .ok b) →
    cacheSize (makeRoom v (cdiv b.length 64 * 64) v.legend.cache) + cdiv b.length 64 * 64 ≤ 2097152 → glyphBad gl.words b = [] →
    ∃ t, exec (.glyphFill n g) s = .next t ∧ ⟨gl.glyph, gl.words, b⟩ ∈ t.legend.cache ∧
      t = { v with legend := { v.legend with cache := t.legend.cache } }) ∧
  (∀ (n : Fin 12) (g : Fin 8192) (gl : CellGlyph) (b : List Nat) (s v : State),
    let need := 1200 * glyphBytes gl.words
    let u := s.setLegend { s.legend with
      tokens := aset (65536 * 1200, 0) s.legend.tokens n (fillTokens s n - need, s.fclk) }
    capturedGlyph s n g = some gl → residentGlyph s gl = none → need ≤ fillTokens s n →
    ownerRead u (bits (gl.words.getD 1 0) 31 24) legendAgent false (glyphAddr gl.words) (glyphBytes gl.words) =
      (v, .ok b) →
    cacheSize (makeRoom v (cdiv b.length 64 * 64) v.legend.cache) + cdiv b.length 64 * 64 ≤ 2097152 → glyphBad gl.words b ≠ [] →
    ∃ t, exec (.glyphFill n g) s = .next t ∧ ⟨gl.glyph, gl.words, b⟩ ∈ t.legend.cache ∧
      fbit (t.hd .kerf .faultStatus) 0 = true ∧ t.legend.snaps = v.legend.snaps ∧ t.mem = v.mem) ∧
  (∀ (n : Fin 12) (g : Fin 8192) (gl : CellGlyph) (s : State), capturedGlyph s n g = some gl →
    (residentGlyph s gl).isSome = true →
    ∃ u, FaultParts (dropGlyph s g) u ∧ fbit (u.hd .legend .faultStatus) 2 = true ∧
      exec (.glyphCacheParity n g) s = .next (glyphFetch u n gl)) ∧
  (∀ (n : Fin 12) (g : Fin 8192) (s : State), (capturedGlyph s n g).isSome = true →
    ∃ t, exec (.glyphFetchFault n g) s = .next t ∧ fbit (t.hd .legend .faultStatus) 3 = true ∧
      (∀ r ∈ t.legend.cache, r.glyph ≠ g.val) ∧ t.legend.snaps = s.legend.snaps ∧ t.mem = s.mem) ∧
  (∀ (n : Fin 12) (r : Fin 540) (c : Fin 960) (sn : Snap) (b : List Nat) (s v : State),
    let a := s.pair (.layer n 14) Reg.LAYERL_CELLMAP_LO +
      r.val * fget (s.pr (.layer n 14) Reg.LAYERL_CM_PITCH) 15 0 + 4 * c.val
    s.legend.snaps.find? (fun x => x.head == n.val && x.row == r.val) = some sn →
    ownerRead s (committer s n 14) legendAgent false a 4 = (v, .ok b) →
    ∃ t, exec (.pointReadFail n r c) s = .next t ∧ fbit (t.hd .legend .faultStatus) 0 = true ∧ t.mem = v.mem ∧
      t.legend.accepted = v.legend.accepted)

/-- R559, R560, R561, R568, R574, R575: the window of the B4 model. A soft reset clears its FIFOs, held flips and
registers and keeps it shut until it is done; B4_KEYCFG takes a write with no zero field and drops another; KEY_EN
starts the scan counter at 0; a read of a key FIFO entry answers and removes it; a word for the draw engine waits,
goes into the ring, or is lost with an overflow; and clearing DE_EN discards every word not yet taken. -/
def Obligations.WindowRegisters : Prop :=
  (∀ s : State, WindowTakes s →
    ∃ t, exec .b4SoftReset s = .next t ∧ t.b4.resetting = true ∧ t.b4.regs = [] ∧ t.b4.keyFifo = [] ∧
      t.b4.deFifo = [] ∧ t.b4.deError = false ∧ t.b4.heldFlips = [] ∧ t.b4.restarts = [] ∧
      t.mem = (beginAccess s (.func 0)).mem) ∧
  (∀ s : State, exec .b4SoftResetDone s = .next { s with b4 := { s.b4 with resetting := false } }) ∧
  (∀ (v : Word) (s : State), let u := beginAccess s (.func 0)
    WindowTakes s → fget v 11 0 ≠ 0 → fget v 19 16 ≠ 0 →
    ∃ t, exec (.b4KeycfgWrite v) s = .next t ∧ t = { u with b4 := t.b4 } ∧ t.b4r 0x14 = v &&& 0x000F0FFF ∧
      ∀ o, o ≠ 0x14 → t.b4r o = u.b4r o) ∧
  (∀ (v : Word) (s : State), let u := beginAccess s (.func 0)
    WindowTakes s → fget v 11 0 = 0 ∨ fget v 19 16 = 0 →
    ∃ t, exec (.b4KeycfgWrite v) s = .next t ∧ t = { u with regs := t.regs } ∧
      t.pr .legacy Reg.LEGACY_DROPPED_ACCESS = u.pr .legacy Reg.LEGACY_DROPPED_ACCESS + 1 ∧
      RegsBut u t [pageBase .legacy + Reg.LEGACY_DROPPED_ACCESS]) ∧
  (∀ (v : Word) (s : State), let u := beginAccess s (.func 0)
    WindowTakes s → fbit v 31 = false → fbit v 1 = true → fbit (u.b4r 4) 1 = false →
    fbit v 2 = fbit (u.b4r 4) 2 → fbit v 3 = fbit (u.b4r 4) 3 →
    ∃ t, exec (.keyEn v) s = .next t ∧ t = { u with b4 := t.b4, scans := t.scans } ∧ t.b4r 4 = v &&& 0xF ∧
      t.b4r 0x18 = 0 ∧ t.scan 0 = {} ∧ (∀ p, p ≠ 0 → t.scan p = u.scan p) ∧
      ∀ o, o ≠ 4 → o ≠ 0x18 → t.b4r o = u.b4r o) ∧
  (∀ (e : Nat) (rest : List Nat) (s : State), let u := beginAccess s (.func 0)
    legacyOn s = true → masterThere s (.func 0) = true → u.ready .legacy = true → u.b4.keyFifo = e :: rest →
    ∃ t, exec .b4KeyfifoRead s = .next t ∧ t = { u with b4 := { u.b4 with keyFifo := rest }, answer := t.answer } ∧
      t.answer = some ⟨0, 0x10, w32 (2 ^ 31 + e)⟩) ∧
  (∀ (v : Word) (s : State), let u := beginAccess s (.func 0)
    WindowTakes s → fbit (u.b4r 4) 2 = true → deFree u ≠ 0 → u.b4.deError = false → u.enabled .legacy = false →
    ∃ t, exec (.deFifoWrite v) s = .next t ∧
      t = { u with b4 := { u.b4 with deFifo := u.b4.deFifo ++ [v], deBusy := true } }) ∧
  (∀ (v : Word) (s : State), let u := beginAccess s (.func 0)
    let wr := u.pf .legacy Reg.LEGACY_DE_RING_WR 13 0
    let w := { u with b4 := { u.b4 with deFifo := [v], deBusy := true } }
    WindowTakes s → fbit (u.b4r 4) 2 = true → deFree u ≠ 0 → u.b4.deError = false → u.enabled .legacy = true →
    u.b4.deFifo = [] → (wr + 1) % 16384 ≠ u.pf .legacy Reg.LEGACY_DE_RING_RD 13 0 →
    (busWrite w 0x17 false (deRingAddr u wr) (leBytes 4 v.toNat)).2 = .ok () →
    ∃ t, exec (.deFifoWrite v) s = .next t ∧ t.b4 = { u.b4 with deFifo := [], deBusy := true } ∧
      t.pf .legacy Reg.LEGACY_DE_RING_WR 13 0 = (wr + 1) % 16384 ∧ fbit (t.hd .legacy .irqStatus) 0 = true ∧
      t.mem = (busWrite w 0x17 false (deRingAddr u wr) (leBytes 4 v.toNat)).1.mem ∧
      BytesBut u t (Stored (deRingAddr u wr) 4)) ∧
  (∀ (v : Word) (s : State), let u := beginAccess s (.func 0)
    WindowTakes s → fbit (u.b4r 4) 2 = false ∨ deFree u = 0 →
    ∃ t, exec (.deFifoWrite v) s = .next t ∧ t = { u with cyc := t.cyc, regs := t.regs, b4 := t.b4 } ∧
      t.b4r 8 = u.b4r 8 ||| 0x2000 ∧ t.b4.deFifo = u.b4.deFifo ∧
      t.pr .legacy Reg.LEGACY_DE_OVERFLOW_COUNT = u.pr .legacy Reg.LEGACY_DE_OVERFLOW_COUNT + 1 ∧
      RegsBut u t [pageBase .legacy + Reg.LEGACY_DE_OVERFLOW_COUNT]) ∧
  (∀ (v : Word) (s : State), let u := beginAccess s (.func 0)
    WindowTakes s → fbit v 31 = false → fbit v 2 = false → fbit (u.b4r 4) 2 = true →
    fbit v 1 = fbit (u.b4r 4) 1 → fbit v 3 = fbit (u.b4r 4) 3 →
    ∃ t, exec (.deDisable v) s = .next t ∧ t = { u with regs := t.regs, b4 := t.b4 } ∧ t.b4r 4 = v &&& 0xF ∧
      t.b4.deFifo = [] ∧ t.b4.deError = false ∧ deUntaken t = 0 ∧
      RegsBut u t [pageBase .legacy + Reg.LEGACY_DE_RING_WR])

/-- R557, R565, R566, R567, R572, R573: heads, beeps and the interrupt of the B4 model. A flip behind the cutoff is
held for its head, and before it is committed to the native page; a cutoff of a running head is noted; an HCTRL that
changes nothing of an enabled head only stores it, and one that clears EN disables the head's native pages; PIXCLK
of a disabled head programs its PLL, and of an enabled one stops it first; a beep takes generator 7 until it is
done; and INTA follows the interrupt condition. -/
def Obligations.WindowHeads : Prop :=
  (∀ (h : Fin 4) (r : Fin 16) (v : Word) (s : State), let u := beginAccess s (.func 0)
    WindowTakes s → headMask r ≠ 0 → r.val ≠ 0 → r.val ≠ 5 → u.b4.cutoff.contains h.val = true →
    ∃ t, exec (.headBlockFlip h r v) s = .next t ∧ t = { u with b4 := t.b4 } ∧ hb t h r = v &&& w32 (headMask r) ∧
      (h.val, r.val) ∈ t.b4.heldFlips ∧ h.val ∈ t.b4.flipPending) ∧
  (∀ (h : Fin 4) (v : Word) (s : State), let u := beginAccess s (.func 0)
    let w := u.setB4 (0x118 + 0x40 * h.val) v
    let x := { w with b4 := { w.b4 with flipPending := (w.b4.flipPending ++ [h.val]).eraseDups } }
    WindowTakes s → u.b4.cutoff.contains h.val = false →
    ∃ t, exec (.headBlockFlip h 6 v) s = .next t ∧ t = b4Commit x h 1 (.composer h) (b4ComposerVals w h) ∧
      hb t h 6 = v ∧ h.val ∈ t.b4.flipPending) ∧
  (∀ (h : Fin 4) (s : State), legacyOn s = true → (s.head h).running = true → s.enabled (.timing h) = true →
    ∃ t, exec (.flipCutoff h) s = .next t ∧ t = { s with b4 := { s.b4 with cutoff := t.b4.cutoff } } ∧
      ∀ k, k ∈ t.b4.cutoff ↔ k = h.val ∨ k ∈ s.b4.cutoff) ∧
  (∀ (h : Fin 4) (v : Word) (s : State), let u := beginAccess s (.func 0)
    WindowTakes s → fbit v 0 = true → u.enabled (.timing h) = true →
    fbit v 1 = fbit (hb u h 0) 1 → fbit v 2 = fbit (hb u h 0) 2 → fbit v 5 = fbit (hb u h 0) 5 →
    ∃ t, exec (.hctrlEn h v) s = .next t ∧ t = { u with b4 := t.b4 } ∧ hb t h 0 = v &&& 0x27 ∧
      ∀ o, o ≠ 0x100 + 0x40 * h.val → t.b4r o = u.b4r o) ∧
  (∀ (h : Fin 4) (v : Word) (s : State), let u := beginAccess s (.func 0)
    let w := u.setB4 (0x100 + 0x40 * h.val) (v &&& 0x27)
    let x := { w with b4 := { w.b4 with restarts := w.b4.restarts.filter (fun k => k != h.val) } }
    let y := b4Enable (b4Enable x h (.dplink h) false) h (.composer h) false
    WindowTakes s → fbit v 0 = false → refusalOf y (.func 0) (hadr (.timing h) .ctrl) = none →
    fbit v 1 = fbit (hb u h 0) 1 → fbit v 2 = fbit (hb u h 0) 2 → fbit v 5 = fbit (hb u h 0) 5 →
    ∃ t, exec (.hctrlEn h v) s = .next t ∧ t = ctrlOffOp y (.timing h) ∧ t.enabled (.timing h) = false) ∧
  (∀ (h : Fin 4) (v : Word) (c0 c1 : Word) (s : State), let u := beginAccess s (.func 0)
    let w := u.setB4 (0x114 + 0x40 * h.val) v
    let a := pageBase (.timing h) + Reg.TIMING_PLL_CFG0
    WindowTakes s → fbit (hb u h 0) 0 = false → u.b4.restarts.contains h.val = false → b4Pll v.toNat = some (c0, c1) →
    refusalOf w (.func 0) a = none → u.enabled (.timing h) = false → u.busy (.timing h) = false →
    v.toNat * cdiv 5400000000 (v.toNat * 1000) ≤ 10800000 → pllCfgOk c0 c1 = true →
    ∃ t, exec (.pixclkWrite h v) s = .next t ∧ t = { u with regs := t.regs, b4 := t.b4 } ∧ hb t h 5 = v ∧
      t.pr (.timing h) Reg.TIMING_PLL_CFG0 = c0 ∧ t.pr (.timing h) Reg.TIMING_PLL_CFG1 = c1 ∧
      RegsBut u t [a, pageBase (.timing h) + Reg.TIMING_PLL_CFG1]) ∧
  (∀ (v : Word) (s : State), let u := beginAccess s (.func 0)
    let o := Reg.AUDIO_TONE_CTRL + 224
    WindowTakes s → fbit v 31 = true → fbit (u.b4r 4) 3 = true → toneClaimed u 7 = false →
    ∃ t, exec (.beepGo v) s = .next t ∧ t = { u with regs := t.regs, b4 := t.b4 } ∧ fbit (t.b4r 0x800) 30 = true ∧
      fget (t.b4r 0x800) 3 0 = fget v 3 0 ∧ t.b4.beepSet = true ∧ t.pr .audio o = 1 ∧
      t.pr .audio (o + 4) = w32 ((4294967296 * fget (u.b4r 0x804) 15 0 + audioFs u / 2) / audioFs u) ∧
      t.pr .audio (o + 8) = w32 (0x08888888 * fget v 3 0) ∧
      RegsBut u t ((List.range 5).map (fun k => pageBase .audio + (o + 4 * k)))) ∧
  (∀ s : State, beepSounds s = true → s.b4.beepLeft ≤ 1 →
    ∃ t, exec .beepDone s = .next t ∧ t = { s with cyc := t.cyc, regs := t.regs, b4 := t.b4 } ∧
      fbit (t.b4r 0x800) 30 = false ∧ fbit (t.b4r 8) 12 = true ∧
      t.pf .audio (Reg.AUDIO_TONE_CTRL + 224) 31 31 = 0 ∧ RegsBut s t [pageBase .audio + (Reg.AUDIO_TONE_CTRL + 224)]) ∧
  (∀ s : State, intaOn s = true → (s.hport 0).inta = false →
    ∃ t, exec .assertInta s = .next t ∧ t = { s with cyc := t.cyc, ports := t.ports } ∧
      t.hport 0 = { s.hport 0 with inta := true } ∧ t.cyc.sent = s.cyc.sent ++ [.inta true]) ∧
  (∀ s : State, intaOn s = false → (s.hport 0).inta = true →
    ∃ t, exec .deassertInta s = .next t ∧ t = { s with cyc := t.cyc, ports := t.ports } ∧
      t.hport 0 = { s.hport 0 with inta := false } ∧ t.cyc.sent = s.cyc.sent ++ [.inta false])

/-- R574 to R577, R582: the draw engine. A command whose words are all in the ring is taken with its parameters;
where it covers one pixel of the frame memory, that pixel takes the colour, and no other byte changes; an error of
the stream discards it and reports it; a pixel out of range is reported; the runtime's pointer moves; and the engine
shows idle. -/
def Obligations.DrawEngine : Prop :=
  (∀ (o : Nat) (s : State), let w := deWord s 0
    let g (i : Nat) := deWord s (i + 1)
    let u := { s with b4 := { s.b4 with taken := (s.b4.taken + 6) % 16384 } }
    deRuntime s = true → 5 < deUntaken s → deHeaderOk w 1 5 = true → hi16 (g 3) = 1 → lo16 (g 3) = 1 →
    dePixel u (deBpp w) (g 0) (g 1) (hi16 (g 2)) (lo16 (g 2)) = some o →
    ∃ t, exec .fillRect s = .next t ∧
      t = (busWrite u 0x10 false (portBase s 0 + o) (leBytes (deBpp w) (g 4))).1 ∧
      BytesBut s t (Stored (portBase s 0 + o) (deBpp w)) ∧ StoreParts u t) ∧
  (∀ (o v : Nat) (s : State), let w := deWord s 0
    let g (i : Nat) := deWord s (i + 1)
    let u := { s with b4 := { s.b4 with taken := (s.b4.taken + 8) % 16384 } }
    deRuntime s = true → 7 < deUntaken s → deHeaderOk w 2 7 = true → hi16 (g 6) = 1 → lo16 (g 6) = 1 →
    deRead u (deBpp w) (g 0) (g 1) (hi16 (g 4)) (lo16 (g 4)) = some v →
    dePixel u (deBpp w) (g 2) (g 3) (hi16 (g 5)) (lo16 (g 5)) = some o →
    ∃ t, exec .copyRect s = .next t ∧ t = (busWrite u 0x10 false (portBase s 0 + o) (leBytes (deBpp w) v)).1 ∧
      BytesBut s t (Stored (portBase s 0 + o) (deBpp w)) ∧ StoreParts u t) ∧
  (∀ (o : Nat) (s : State), let w := deWord s 0
    let g (i : Nat) := deWord s (i + 1)
    let x := sext (hi16 (g 2)) 16
    let y := sext (lo16 (g 2)) 16
    let u := { s with b4 := { s.b4 with taken := (s.b4.taken + 8) % 16384 } }
    deRuntime s = true → 7 < deUntaken s → deHeaderOk w 3 7 = true → bit w 17 = false → g 3 = g 2 →
    sext (hi16 (g 5)) 16 ≤ x → x ≤ sext (hi16 (g 6)) 16 → sext (lo16 (g 5)) 16 ≤ y → y ≤ sext (lo16 (g 6)) 16 →
    dePixel u (deBpp w) (g 0) (g 1) x y = some o →
    ∃ t, exec .drawLine s = .next t ∧
      t = (busWrite u 0x10 false (portBase s 0 + o) (leBytes (deBpp w) (g 4))).1 ∧
      BytesBut s t (Stored (portBase s 0 + o) (deBpp w)) ∧ StoreParts u t) ∧
  (∀ (o b : Nat) (s : State), let w := deWord s 0
    let g (i : Nat) := deWord s (i + 1)
    let u := { s with b4 := { s.b4 with taken := (s.b4.taken + 9) % 16384 } }
    deRuntime s = true → 8 < deUntaken s → deHeaderOk w 4 8 = true → hi16 (g 5) = 1 → lo16 (g 5) = 1 →
    deRead u 1 (g 0) (g 1) 0 0 = some b → bit w 18 = false →
    dePixel u (deBpp w) (g 2) (g 3) (hi16 (g 4)) (lo16 (g 4)) = some o →
    ∃ t, exec .monoExpand s = .next t ∧
      t = (busWrite u 0x10 false (portBase s 0 + o) (leBytes (deBpp w) (if bit b 7 then g 6 else g 7))).1 ∧
      BytesBut s t (Stored (portBase s 0 + o) (deBpp w)) ∧ StoreParts u t) ∧
  (∀ (m : Master) (s : State), let a := pageBase .legacy + Reg.LEGACY_DE_REPORT
    Accepts s m a →
    ∃ t, exec (.streamError m) s = .next t ∧ t.b4.deError = true ∧ t.b4.deFifo = [] ∧ deUntaken t = 0 ∧
      t.b4r 8 = (taken s m a).b4r 8 ||| 0x800 ∧ RegsBut (taken s m a) t [pageBase .legacy + Reg.LEGACY_DE_RING_WR] ∧
      t.mem = (taken s m a).mem) ∧
  (∀ (m : Master) (s : State), let a := pageBase .legacy + Reg.LEGACY_DE_REPORT
    Accepts s m a →
    ∃ t, exec (.pixelRange m) s = .next t ∧ t.b4r 8 = (taken s m a).b4r 8 ||| 0x800 ∧
      t.b4.deError = (taken s m a).b4.deError ∧ t.b4.deFifo = (taken s m a).b4.deFifo ∧
      RegsBut (taken s m a) t [] ∧ t.mem = (taken s m a).mem) ∧
  (∀ (m : Master) (v : Word) (s : State), let a := pageBase .legacy + Reg.LEGACY_DE_RING_RD
    Accepts s m a → (taken s m a).b4.deFifo = [] →
    ∃ t, exec (.deRingRdWrite m v) s = .next t ∧ t.pf .legacy Reg.LEGACY_DE_RING_RD 13 0 = fget v 13 0 ∧
      RegsBut (taken s m a) t [a] ∧ t.mem = (taken s m a).mem) ∧
  (∀ s : State, legacyOn s = true → s.b4.deBusy = true → s.b4.deFifo = [] →
    s.pf .legacy Reg.LEGACY_DE_RING_WR 13 0 = s.pf .legacy Reg.LEGACY_DE_RING_RD 13 0 →
    ∃ t, exec .deIdle s = .next t ∧ t = { s with cyc := t.cyc, b4 := t.b4 } ∧ t.b4.deBusy = false ∧
      t.b4r 8 = s.b4r 8 ||| 0x400)

/-- R332, R335, R343, R413, R414, R520: accesses of device memory. A write changes no byte but those it stores and
their mirror copies; a byte written to usable memory holds its value with sound parity, except that an armed flip
that meets the write inverts the byte's bit, its parity, or both; a read of sound bytes answers them; a read below
the watermark by an agent that is not secure is blocked and reported; and a secure SRAM byte whose parity fails
answers with an error and sets WORLD fault bit 6. -/
def Obligations.MemoryAccesses : Prop :=
  let plain (s : State) (agent : Nat) (sec : Bool) (addr : Nat) : Prop :=
    isSecureSram addr = false ∧ addr < memTop s ∧ (watermarkAddr s ≤ addr ∨ sec = true ∨ wmExempt agent = true) ∧
      mirrorOf s (addr / 64 * 64) = none ∧ s.mem.recq.length < 65536
  let bitOf (par : Nat) (b : BitVec 8) : Nat := b.toNat ^^^ 2 ^ (par % 8)
  (∀ (agent : Fin 29) (sec : Bool) (addr : BitVec 48) (bytes : List (Option (BitVec 8))) (s : State),
    ∃ t, exec (.memoryWrite agent sec addr bytes) s = .next t ∧ StoreParts s t ∧
      BytesBut s t (Stored addr.toNat bytes.length) ∧ t.mem.answer.map (·.addr) = some addr.toNat) ∧
  (∀ (agent : Fin 29) (sec : Bool) (addr : BitVec 48) (b : BitVec 8) (s : State), plain s agent sec addr.toNat →
    (∀ k, k = 0x40 ∨ k = 0x41 ∨ k = 0x42 → armed s (.memch (chanOf s addr.toNat)) k = none) →
    ∃ t, exec (.memoryWrite agent sec addr [some b]) s = .next t ∧ memByte t addr.toNat = b.toNat ∧
      isBad t addr.toNat = false ∧ BytesBut s t (fun x => x = addr.toNat) ∧
      t.mem.answer = some ⟨agent, addr.toNat, 0, []⟩) ∧
  (∀ (agent : Fin 26) (sec : Bool) (addr : BitVec 48) (b : BitVec 8) (tg par : Nat) (s : State),
    plain s agent sec addr.toNat → armed s (.memch (chanOf s addr.toNat)) 0x40 = some (tg, par) →
    tg % 64 = addr.toNat % 64 →
    ∃ t, exec (.dataFlip agent sec addr [some b]) s = .next t ∧ memByte t addr.toNat = bitOf par b ∧
      isBad t addr.toNat = true ∧ BytesBut s t (fun x => x = addr.toNat)) ∧
  (∀ (agent : Fin 26) (sec : Bool) (addr : BitVec 48) (b : BitVec 8) (tg par : Nat) (s : State),
    plain s agent sec addr.toNat → armed s (.memch (chanOf s addr.toNat)) 0x41 = some (tg, par) →
    tg % 64 = addr.toNat % 64 →
    ∃ t, exec (.parityFlip agent sec addr [some b]) s = .next t ∧ memByte t addr.toNat = b.toNat ∧
      isBad t addr.toNat = true ∧ BytesBut s t (fun x => x = addr.toNat)) ∧
  (∀ (agent : Fin 26) (sec : Bool) (addr : BitVec 48) (b : BitVec 8) (tg par : Nat) (s : State),
    plain s agent sec addr.toNat → armed s (.memch (chanOf s addr.toNat)) 0x42 = some (tg, par) →
    tg % 64 = addr.toNat % 64 →
    ∃ t, exec (.silentFlip agent sec addr [some b]) s = .next t ∧ memByte t addr.toNat = bitOf par b ∧
      isBad t addr.toNat = false ∧ BytesBut s t (fun x => x = addr.toNat)) ∧
  (∀ (agent : Fin 29) (sec : Bool) (addr : BitVec 48) (len : Fin 4097) (s : State), plain s agent sec addr.toNat →
    len.val ≠ 0 → addr.toNat % 64 + len.val ≤ 64 → untouched s (addr.toNat / 4096) = false →
    (∀ i < 64, isBad s (addr.toNat / 64 * 64 + i) = false) →
    ∃ t, exec (.memoryRead agent sec addr len) s = .next t ∧ t.mem.cells = s.mem.cells ∧
      t.mem.answer = some ⟨agent, addr.toNat, 0, memBytes s addr.toNat len⟩) ∧
  (∀ (agent : Fin 29) (addr : BitVec 48) (len : Fin 4097) (s : State), isSecureSram (addr.toNat / 64 * 64) = false →
    addr.toNat / 64 * 64 < memTop s → addr.toNat / 64 * 64 < watermarkAddr s → wmExempt agent = false → len.val ≠ 0 →
    ∃ t, exec (.memoryRead agent false addr len) s = .next t ∧ t.mem.cells = s.mem.cells ∧
      t.mem.answer = some ⟨agent, addr.toNat, 2, []⟩ ∧ fbit (t.hd .world .faultStatus) 0 = true ∧
      fbit (t.hd .world .irqStatus) 3 = true) ∧
  (∀ (agent : Fin 26) (off : BitVec 20) (s : State),
    ∃ t, exec (.secureSramParity agent off) s = .next t ∧ fbit (t.hd .world .faultStatus) 6 = true ∧
      isBad t (0x1010000000 + off.toNat) = true ∧ t.mem.cells = s.mem.cells ∧
      t.mem.answer = some ⟨agent, 0x1010000000 + off.toNat, 3, []⟩)

/-- R339, R341, R344, R346, R350 to R352, R355: corrections, the recoder, mirrors and shims. A correcting read meets
the damage as a read of its line does; a mismatch that the second read does not show counts as corrected; a page
that is recoded gets the check bytes of its data, and one with bad bytes is held with fault bit 3; a mirror window
goes into force unsynchronised, and synchronised when its copy is done; a spare line's entry goes into force, and
shows its copy done. -/
def Obligations.MemoryUpkeep : Prop :=
  (∀ (agent : Fin 29) (sec : Bool) (addr : BitVec 48) (d : List (BitVec 12 × BitVec 9)) (s : State),
    damageable s addr.toNat = true → codeCurrent s (addr.toNat / 4096) = true →
    ∃ t, exec (.correctingRead agent sec addr d) s = .next t ∧
      t = answerRead agent addr.toNat
        (busRead (damagePage s (addr.toNat / 4096) d) agent sec (addr.toNat / 64 * 64) 64) ∧
      t.mem.answer.map (·.addr) = some addr.toNat) ∧
  (∀ (agent : Fin 29) (sec : Bool) (addr : BitVec 48) (d : List (BitVec 12 × BitVec 9)) (s v : State) (b : List Nat),
    damageable s addr.toNat = true → codeCurrent s (addr.toNat / 4096) = false →
    busRead s agent sec (addr.toNat / 64 * 64) 64 = (v, .ok b) →
    ∃ t, exec (.staleReread agent sec addr d true) s = .next t ∧ t.mem.answer = some ⟨agent, addr.toNat, 0, b⟩ ∧
      t.mem.cells = v.mem.cells ∧ fbit (t.hd .memctl .faultStatus) 1 = true) ∧
  (∀ (agent : Fin 29) (sec : Bool) (addr : BitVec 48) (k : Nat) (s : State), mirrorOf s addr.toNat = some (k, false) →
    ∃ t, exec (.mirrorRead agent sec addr [] []) s = .next t ∧
      t = answerRead agent addr.toNat (busRead s agent sec (addr.toNat / 64 * 64) 64) ∧
      t.mem.answer.map (·.addr) = some addr.toNat) ∧
  (∀ (e : RecodeEnt) (rest : List RecodeEnt) (s : State), s.mem.recq = e :: rest →
    s.mem.bad.any (fun a => a / 4096 == e.page) = false →
    ∃ t, exec .pageRecode s = .next t ∧ t = { s with mem := t.mem, regs := t.regs } ∧ t.mem.recq = rest ∧
      t.mem.cells = s.mem.cells ∧ storedCode t e.page = pageCode s e.page ∧
      RegsBut s t [pageBase .memctl + Reg.MEMCTL_STALE_WINDOW_MAX_LO,
        pageBase .memctl + (Reg.MEMCTL_STALE_WINDOW_MAX_LO + 4)]) ∧
  (∀ (e : RecodeEnt) (rest : List RecodeEnt) (s : State), s.mem.recq = e :: rest →
    s.mem.bad.any (fun a => a / 4096 == e.page) = true → s.mem.held.length < 64 →
    ∃ t, exec .pageRecode s = .next t ∧ t.mem.recq = rest ∧ t.mem.held = s.mem.held ++ [e.page] ∧
      t.mem.cells = s.mem.cells ∧ fbit (t.hd .memctl .faultStatus) 3 = true ∧ fbit (t.hd .memctl .irqStatus) 2 = true) ∧
  (∀ (m : Master) (k : Fin 16) (v w : Word) (s : State),
    let lo := pageBase .memctl + Reg.MEMCTL_MIR_LO + 8 * k.val
    let a := pageBase .memctl + Reg.MEMCTL_MIR_HI + 8 * k.val
    let u := taken s m a
    Accepts s m a → mirWindowCheck u m k v = none → fbit v 31 = true → mirWindow u k = none →
    u.staged m lo lo = [(lo, w)] →
    ∃ t, exec (.mirWindowWrite m k v) s = .next t ∧ t.reg lo = w ∧ t.reg a = v &&& 0x80003FFF ∧
      mirrorSynced t k = false ∧ RegsBut u t [lo, a, pageBase .memctl + Reg.MEMCTL_MIRROR_STATUS] ∧ t.mem = u.mem) ∧
  (∀ (k : Fin 17) (s : State), primaryHalves s k ≠ [] →
    ∃ t, exec (.mirrorSyncDone k) s = .next t ∧ mirrorSynced t k = true ∧ fbit (t.hd .memctl .irqStatus) 1 = true) ∧
  (∀ (m : Master) (k : Fin 32) (v w : Word) (s : State),
    let lo := pageBase .shim + Reg.SHIM_SHIM_LO + 8 * k.val
    let a := pageBase .shim + Reg.SHIM_SHIM_HI + 8 * k.val
    let u := taken s m a
    Accepts s m a → shimCheck u m k v = none → u.staged m lo lo = [(lo, w)] →
    ∃ t, exec (.shimInstall m k v) s = .next t ∧ t.reg lo = w ∧ t.reg a = v &&& 0x80000000 ∧ RegsBut u t [lo, a] ∧
      t.mem = u.mem) ∧
  (∀ (k : Fin 32) (s : State), shimValid s k = true → s.pf .shim (Reg.SHIM_SHIM_HI + 8 * k.val) 30 30 = 0 →
    ∃ t, exec (.shimCopyDone k) s = .next t ∧ t.pf .shim (Reg.SHIM_SHIM_HI + 8 * k.val) 30 30 = 1 ∧
      fbit (t.hd .shim .irqStatus) 0 = true)

/-- R357 to R364, R529: the scrubber, refresh, retraining, self-refresh and initialisation. A stripe that is
scrubbed moves SCRUB_POS on; a pass waits for its period; a refresh interval counts the refreshes owed and forces
them at eight; a temperature poll shows rate and temperature; retraining pauses a channel, and its end counts as
done or failed; a channel enters and leaves self-refresh; CLR_MAX clears the longest stale window; and
initialisation raises its watermark by a stripe. -/
def Obligations.MemoryTiming : Prop :=
  (∀ s : State, let k := s.pf .memctl Reg.MEMCTL_SCRUB_POS 19 0
    let v := (List.range 32).foldl (fun s j => scrubPage s (32 * k + j)) s
    s.mem.scrubWait = false → stripes s ≠ 0 → k + 1 < stripes v → stripes v ≤ 2 ^ 20 →
    ∃ t, exec .scrubStripe s = .next t ∧ t = { v with regs := t.regs } ∧ t.pf .memctl Reg.MEMCTL_SCRUB_POS 19 0 = k + 1 ∧
      RegsBut v t [pageBase .memctl + Reg.MEMCTL_SCRUB_POS]) ∧
  (∀ s : State, s.mem.scrubWait = true → s.mem.scrubStart + scrubPeriod s ≤ s.devtime →
    exec .scrubPeriodStart s =
      .next { s with mem := { s.mem with scrubWait := false, scrubStart := s.devtime } }) ∧
  (∀ (c : Fin 32) (i : Fin 10) (s : State), chStatus s c 15 12 + 1 - i.val < 8 →
    ∃ t, exec (.refreshInterval c i) s = .next t ∧ t = { s with regs := t.regs } ∧
      chStatus t c 15 12 = chStatus s c 15 12 + 1 - i.val ∧
      RegsBut s t [pageBase (.memch c) + Reg.MEMCH_CH_STATUS]) ∧
  (∀ (c : Fin 32) (i : Fin 10) (s : State), 8 ≤ chStatus s c 15 12 + 1 - i.val →
    ∃ t, exec (.refreshInterval c i) s = .next t ∧ fbit (t.hd (.memch c) .faultStatus) 3 = true ∧ FaultParts s t) ∧
  (∀ (c : Fin 32) (rate : BitVec 4) (temp : BitVec 8) (s : State), s.mem.retrainDue = [] →
    sext temp.toNat 8 - sext (s.pf (.memch c) Reg.MEMCH_TEMP 7 0) 8 < 5 →
    -5 < sext temp.toNat 8 - sext (s.pf (.memch c) Reg.MEMCH_TEMP 7 0) 8 →
    ∃ t, exec (.tempPoll c rate temp) s = .next t ∧ t = { s with regs := t.regs } ∧
      chStatus t c 11 8 = rate.toNat ∧ t.pf (.memch c) Reg.MEMCH_TEMP 15 8 = temp.toNat ∧
      t.pf (.memch c) Reg.MEMCH_TEMP 7 0 = s.pf (.memch c) Reg.MEMCH_TEMP 7 0 ∧
      RegsBut s t [pageBase (.memch c) + Reg.MEMCH_CH_STATUS, pageBase (.memch c) + Reg.MEMCH_TEMP]) ∧
  (∀ (c : Fin 32) (s : State), s.mem.retrainDue = [] → mayRetrain s c = true → chStatus s c 2 2 = 0 →
    ∃ t, exec (.periodicRetrain c) s = .next t ∧ t = { s with regs := t.regs } ∧ chStatus t c 3 3 = 1 ∧
      RegsBut s t [pageBase (.memch c) + Reg.MEMCH_CH_STATUS]) ∧
  (∀ (c : Fin 32) (s : State), chStatus s c 3 3 = 1 → s.mem.retrainDue = [] →
    ∃ t, exec (.retrainDone c true) s = .next t ∧ t = { s with regs := t.regs } ∧ chStatus t c 3 3 = 0 ∧
      t.pf (.memch c) Reg.MEMCH_RETRAINS 15 0 = (s.pf (.memch c) Reg.MEMCH_RETRAINS 15 0 + 1) % 65536 ∧
      t.pf (.memch c) Reg.MEMCH_TEMP 7 0 = s.pf (.memch c) Reg.MEMCH_TEMP 15 8 ∧
      RegsBut s t [pageBase (.memch c) + Reg.MEMCH_CH_STATUS, pageBase (.memch c) + Reg.MEMCH_RETRAINS,
        pageBase (.memch c) + Reg.MEMCH_TEMP]) ∧
  (∀ (c : Fin 32) (s : State), chStatus s c 3 3 = 1 → s.mem.retrainDue = [] →
    ∃ t, exec (.retrainDone c false) s = .next t ∧ fbit (t.hd (.memch c) .faultStatus) 2 = true ∧ FaultParts s t) ∧
  (∀ (c : Fin 32) (s : State), let w := s.pr (.memch c) Reg.MEMCH_SR_CFG
    fbit w 0 = true → fbit w 1 = false → aget 0 s.mem.lastReq c + 1000 * fget w 31 16 ≤ s.devtime →
    s.mem.retrainDue.contains c.val = false → chStatus s c 3 3 = 0 → chStatus s c 2 2 = 0 → realTimePins s = false →
    ∃ t, exec (.selfRefreshEntry c) s = .next t ∧ t = { s with regs := t.regs } ∧ chStatus t c 2 2 = 1 ∧
      t.pr (.memch c) Reg.MEMCH_SR_COUNT = s.pr (.memch c) Reg.MEMCH_SR_COUNT + 1 ∧
      RegsBut s t [pageBase (.memch c) + Reg.MEMCH_CH_STATUS, pageBase (.memch c) + Reg.MEMCH_SR_COUNT]) ∧
  (∀ (c : Fin 32) (s : State), chStatus s c 2 2 = 1 →
    ∃ t, exec (.selfRefreshExit c) s = .next t ∧ chStatus t c 2 2 = 0 ∧ fbit (t.hd (.memch c) .irqStatus) 0 = true ∧
      t = { s with regs := t.regs, cyc := t.cyc, mem := t.mem } ∧ t.mem.cells = s.mem.cells ∧
      RegsBut s t [pageBase (.memch c) + Reg.MEMCH_CH_STATUS, hadr (.memch c) .irqStatus]) ∧
  (∀ (m : Master) (v : Word) (s : State), let a := pageBase .memctl + Reg.MEMCTL_RECODE_CFG
    Accepts s m a → 1 ≤ fget v 5 0 → fget v 5 0 ≤ 50 → fbit v 31 = true →
    ∃ t, exec (.clrMax m v) s = .next t ∧ t.reg a = v &&& 0x3F ∧
      t.pair .memctl Reg.MEMCTL_STALE_WINDOW_MAX_LO = 0 ∧ t.mem = (taken s m a).mem ∧
      RegsBut (taken s m a) t [a, pageBase .memctl + Reg.MEMCTL_STALE_WINDOW_MAX_LO,
        pageBase .memctl + (Reg.MEMCTL_STALE_WINDOW_MAX_LO + 4)]) ∧
  (∀ s : State, s.mem.initOn = true → initWm s + 0x20000 < memTop s → initWm s + 0x20000 < 2 ^ 64 →
    ∃ t, exec .memInitStripe s = .next t ∧ t = { s with regs := t.regs, mem := t.mem } ∧
      initWm t = initWm s + 0x20000 ∧ t.mem.cells = s.mem.cells ∧
      RegsBut s t [pageBase .dev + Reg.DEV_MEM_INIT_WM_LO, pageBase .dev + (Reg.DEV_MEM_INIT_WM_LO + 4)])

/-- R382 to R390, R427: rings. Enabling a ring starts it anew; a restart leaves the stopped state; a doorbell in
range moves TAIL, or HEAD of the completion ring, and another is counted; the oldest completion record is written
behind the records before it and leaves the queue; a completion write that gets an error stops its ring; and the
interrupt groups of a function are looked at, and its moderated records announced, with no effect but messages and
pending bits. -/
def Obligations.Rings : Prop :=
  (∀ (m : Master) (rs : Fin 66) (r : Fin 5) (v : Word) (s : State),
    let b := pageBase (ringPage rs) + ringOff rs r
    let u := taken s m (b + rCtrl)
    Accepts s m (b + rCtrl) → ringOn u rs r = false → ringCtrlCheck u rs r (fsetb v 0 true) = none →
    ∃ t, exec (.ringEnable m rs r v) s = .next t ∧ ringOn t rs r = true ∧ ringSize t rs r = 2 ^ fget v 11 8 ∧
      ringHead t rs r = 0 ∧ ringTail t rs r = 0 ∧ ringStopped t rs r = false ∧
      t.reg (b + rStatus) = (if r = 4 then 0x20000000 else 0) ∧
      RegsBut u t [b + rCtrl, b + rHead, b + rTail, b + rStatus] ∧ t.mem = u.mem) ∧
  (∀ (m : Master) (rs : Fin 66) (r : Fin 5) (v : Word) (s : State),
    let b := pageBase (ringPage rs) + ringOff rs r
    let u := taken s m (b + rCtrl)
    Accepts s m (b + rCtrl) → ringOn u rs r = true → ringStopped u rs r = true →
    ringCtrlCheck u rs r (fsetb v 1 true) = none → ringSize u rs r ≤ 4096 →
    ∃ t, exec (.restart m rs r v) s = .next t ∧ ringStopped t rs r = false ∧ ringTail t rs r = ringTail u rs r ∧
      ringHead t rs r = (if r.val < 4 ∧ fbit v 2 ∧ ringHead u rs r ≠ ringTail u rs r then
        (ringHead u rs r + 1) % ringSize u rs r else ringHead u rs r) ∧
      RegsBut u t [b + rCtrl, b + rHead, b + rStatus] ∧ t.mem = u.mem) ∧
  (∀ (m : Master) (rs : Fin 66) (q : Fin 4) (v : Word) (s : State),
    let a := doorbellAddr rs q
    let u := taken (flushAll s) m a
    Accepts (flushAll s) m a → doorbellOut u rs q v = false →
    ∃ t, exec (.sqDoorbell m rs q v) s = .next t ∧ ringTail t rs q = fget v 11 0 ∧
      RegsBut u t [pageBase (ringPage rs) + (ringOff rs q + rTail)] ∧ t.mem = u.mem) ∧
  (∀ (m : Master) (rs : Fin 66) (q : Fin 4) (v : Word) (s : State),
    let a := doorbellAddr rs q
    let u := taken (flushAll s) m a
    Accepts (flushAll s) m a → doorbellOut u rs q v = true → rs.val < 64 →
    ∃ t, exec (.sqDoorbell m rs q v) s = .next t ∧ fbit (t.hd (.func rs) .irqStatus) 6 = true ∧
      t.pr (.func rs) Reg.FUNC_DB_BAD_COUNT = u.pr (.func rs) Reg.FUNC_DB_BAD_COUNT + 1 ∧
      RegsBut u t [pageBase (.func rs) + Reg.FUNC_DB_BAD_COUNT, hadr (.func rs) .irqStatus] ∧ t.mem = u.mem) ∧
  (∀ (m : Master) (rs : Fin 66) (v : Word) (s : State),
    let a := doorbellAddr rs 4
    let u := taken (flushAll s) m a
    let n := ringSize u rs 4
    let dist (x : Nat) : Nat := (x + n - ringHead u rs 4 % n) % n
    Accepts (flushAll s) m a → doorbellOut u rs 4 v = false → dist (fget v 11 0) ≤ dist (ringTail u rs 4) →
    ∃ t, exec (.cqDoorbell m rs v) s = .next t ∧ ringHead t rs 4 = fget v 11 0 ∧
      cqFull t rs = ((ringTail u rs 4 + 1) % n == fget v 11 0) ∧ t.mem = u.mem ∧
      RegsBut u t [pageBase (ringPage rs) + (ringOff rs 4 + rHead), pageBase (ringPage rs) + (ringOff rs 4 + rStatus),
        hadr (ringPage rs) .irqStatus]) ∧
  (∀ (rs : Fin 66) (r : CqRec) (rest : List CqRec) (s v : State), (s.ring rs).cqWait = r :: rest →
    staleGen s rs r.gen = false → cqTakes s rs = true →
    ringWrite s rs (rs.val == 64) 2 (ringBase s rs 4 + 16 * ringTail s rs 4) (cqBytes s rs r) = (v, .ok ()) →
    ringSize v rs 4 ≤ 4096 →
    ∃ t, exec (.completionWrite rs) s = .next t ∧ (t.ring rs).cqWait = (v.ring rs).cqWait.tail ∧
      ringTail t rs 4 = (ringTail v rs 4 + 1) % ringSize v rs 4 ∧ t.mem = v.mem ∧
      (∀ i, r.slot = some i → t.job i = none) ∧
      (64 ≤ rs.val → BytesBut s t (Stored (ringBase s rs 4 + 16 * ringTail s rs 4) 16))) ∧
  (∀ (rs : Fin 66) (r : CqRec) (rest : List CqRec) (s : State), (s.ring rs).cqWait = r :: rest →
    staleGen s rs r.gen = false → cqTakes s rs = true →
    ∃ t, exec (.cqWrite rs) s = .next t ∧ ringStopped t rs 4 = true ∧ ringF t rs 4 rStatus 23 16 = 8 ∧
      (rs.val < 64 → fbit (t.hd (.func rs) .faultStatus) 0 = true) ∧ t.mem = s.mem) ∧
  (∀ (f : Fin 64) (s : State), funcExists s f = true →
    ∃ t, exec (.msixMessage f) s = .next t ∧ t = { s with regs := t.regs, cyc := t.cyc, rings := t.rings } ∧
      (t.ring f).groups = maskOf 8 (fun g => g != 0 && groupOn s f g) ∧ (t.ring f).cqWait = (s.ring f).cqWait ∧
      (∀ k, k ≠ f.val → t.ring k = s.ring k) ∧ RegsBut s t [pageBase (.func f) + Reg.FUNC_MSIX_PBA]) ∧
  (∀ (f : Fin 64) (s : State), let w := s.pf (.func f) Reg.FUNC_CQ_MOD 31 16
    w ≠ 0 → (s.ring f).modCount ≠ 0 → (s.ring f).modFirst + 1000 * w ≤ s.devtime →
    ∃ t, exec (.cqModTimer f) s = .next t ∧ t = { s with regs := t.regs, cyc := t.cyc, rings := t.rings } ∧
      t.ring f = { s.ring f with modCount := 0 } ∧ (∀ k, k ≠ f.val → t.ring k = s.ring k) ∧
      RegsBut s t [pageBase (.func f) + Reg.FUNC_MSIX_PBA])

/-- R369 to R371, R391, R392, R405: host ports and their functions. A link that comes up shows its speed and width;
one that goes down is off in LINK while its port resets, with HOSTIF fault bit 0; a reset of a function starts its
next generation and is over when its work is settled; the VFs that a host enables exist and others do not; and a
configuration read of a function is answered, one of an absent function is refused, and one of a port that is not
READY is to be retried. -/
def Obligations.HostPorts : Prop :=
  (∀ (p : Fin 2) (sp w : Fin 5) (s : State), s.mode.mode ≠ .held → portOn s p = true →
    ∃ t, exec (.pcieLinkUp p sp w) s = .next t ∧ t = { s with regs := t.regs, cyc := t.cyc } ∧ linkUp t p = true ∧
      t.pf (hif p) Reg.HOSTIF_LINK 18 16 = sp.val + 1 ∧ t.pf (hif p) Reg.HOSTIF_LINK 12 8 = 2 ^ w.val ∧
      (s.ready (hif p) = true → linkUp s p = false → fbit (t.hd (hif p) .irqStatus) 0 = true) ∧
      RegsBut s t [pageBase (hif p) + Reg.HOSTIF_LINK, hadr (hif p) .irqStatus]) ∧
  (∀ (p : Fin 2) (s : State), linkUp s p = true →
    ∃ u t, exec (.linkDown p) s = .next t ∧ t = raiseFault (portReset u p) (hif p) 0 ∧ linkUp u p = false ∧
      fbit (u.hd (hif p) .irqStatus) 1 = true ∧ fbit (t.hd (hif p) .faultStatus) 0 = true ∧
      RegsBut s u [pageBase (hif p) + Reg.HOSTIF_LINK, hadr (hif p) .irqStatus]) ∧
  (∀ (p : Fin 2) (s : State), linkUp s p = true → legacyOn s = false →
    ∃ t, exec (.hotReset p) s = .next t ∧ t.pr (hif p) Reg.HOSTIF_SRIOV = 0 ∧
      (∀ k, 0 < k → k < 32 → k ∉ (t.hport p).msixOn ∧ k ∉ (t.hport p).d3hot) ∧ t.mem = s.mem) ∧
  (∀ (f : Fin 64) (s : State), configOpen s (portOf f) = true → funcExists s f = true → f.val % 32 ≠ 0 →
    funcResetting s f = false →
    ∃ t, exec (.functionLevelReset f) s = .next t ∧ funcGen t f = (funcGen s f + 1) % 256 ∧ funcResetting t f = true ∧
      t.mem = s.mem) ∧
  (∀ (m : Master) (f : Fin 64) (v : Word) (s : State), let a := pageBase (.func f) + Reg.FUNC_FUNC_CTRL
    Accepts s m a → fbit v 0 = true → funcResetting (taken s m a) f = false →
    ∃ t, exec (.funcCtrlReset m f v) s = .next t ∧ funcGen t f = (funcGen (taken s m a) f + 1) % 256 ∧
      funcResetting t f = true ∧ t.mem = (taken s m a).mem) ∧
  (∀ (f : Fin 64) (s : State), funcResetting s f = true → resetSettled s f = true → (s.ring f).resetAgain = false →
    ∃ t, exec (.resetDone f) s = .next t ∧ t = { s with regs := t.regs, cyc := t.cyc } ∧ funcResetting t f = false ∧
      fbit (t.hd (.func f) .irqStatus) 4 = true ∧
      RegsBut s t [pageBase (.func f) + Reg.FUNC_FUNC_STATUS, hadr (.func f) .irqStatus]) ∧
  (∀ (p : Fin 2) (on : Bool) (n : Fin 32) (s : State), configOpen s p = true → portOn s p = true →
    funcExists s (32 * p.val) = true → legacyOn s = false →
    ∃ t, exec (.vfEnableChange p on n) s = .next t ∧ t.pf (hif p) Reg.HOSTIF_SRIOV 8 8 = b2n on ∧
      t.pf (hif p) Reg.HOSTIF_SRIOV 4 0 = n ∧ (∀ i < 31, funcExists t (32 * p.val + i + 1) = (on && decide (i < n.val))) ∧
      t.mem = s.mem) ∧
  (∀ (p : Fin 2) (fn : BitVec 8) (d : BitVec 10) (s : State), configOpen s p = true → fn.toNat < 32 →
    funcExists s (32 * p.val + fn.toNat) = true →
    ∃ t, exec (.configRequest p fn (.read d)) s = .next t ∧ t = { s with cyc := t.cyc } ∧
      t.cyc.sent = s.cyc.sent ++
        [.completion p 0 false (leBytes 4 (configDword s (32 * p.val + fn.toNat) d.toNat).toNat)]) ∧
  (∀ (p : Fin 2) (fn : BitVec 8) (op : ConfigOp) (s : State), configOpen s p = true →
    32 ≤ fn.toNat ∨ funcExists s (32 * p.val + fn.toNat) = false →
    ∃ t, exec (.configRequest p fn op) s = .next t ∧ t = { s with cyc := t.cyc, regs := t.regs } ∧
      t.cyc.sent = s.cyc.sent ++ [.completion p 1 false []] ∧
      t.pr (hif p) Reg.HOSTIF_UR_COUNT = s.pr (hif p) Reg.HOSTIF_UR_COUNT + 1 ∧
      RegsBut s t [pageBase (hif p) + Reg.HOSTIF_UR_COUNT]) ∧
  (∀ (p : Fin 2) (fn : BitVec 8) (op : ConfigOp) (s : State), s.mode.mode ≠ .held → linkUp s p = true →
    s.ready (hif p) = false →
    exec (.configRequest p fn op) s = .next (s.send (.completion p 2 false [])))

/-- R374, R376, R406: memory requests and errors of a host. A read through a PF's window answers the bytes of device
memory and a write stores them there; an access outside the window is unsupported and counted; a VF's window goes
through its stage 2; and each error of the host is counted, reported in HOSTIF and raises the fault the spec names. -/
def Obligations.HostTraffic : Prop :=
  (∀ (p : Fin 2) (off : BitVec 36) (len : Fin 4097) (a : Nat) (b : List Nat) (s v : State),
    answersMem s (32 * p.val) = true → windowAddr s p off.toNat len = some a →
    busRead s (0x17 + p.val) false a len = (v, .ok b) →
    ∃ t, exec (.bar2Access p off len none) s = .next t ∧ t = { v with cyc := t.cyc } ∧
      t.cyc.sent = v.cyc.sent ++ [.completion p 0 false b]) ∧
  (∀ (p : Fin 2) (off : BitVec 36) (len : Fin 4097) (d : List (Option (BitVec 8))) (a : Nat) (s : State),
    answersMem s (32 * p.val) = true → windowAddr s p off.toNat d.length = some a → s.mode.mode ≠ .safe →
    ∃ t, exec (.bar2Access p off len (some d)) s = .next t ∧
      t = (busWriteMasked s (0x17 + p.val) false a (dataBytes d)).1 ∧ BytesBut s t (Stored a d.length) ∧
      StoreParts s t) ∧
  (∀ (p : Fin 2) (off : BitVec 36) (len : Fin 4097) (s : State), answersMem s (32 * p.val) = true →
    windowAddr s p off.toNat len = none →
    ∃ t, exec (.bar2Access p off len none) s = .next t ∧ t.mem = s.mem ∧
      t.cyc.sent = s.cyc.sent ++ [.completion p 1 false []] ∧
      t.pr (hif p) Reg.HOSTIF_UR_COUNT = s.pr (hif p) Reg.HOSTIF_UR_COUNT + 1) ∧
  (∀ (f : Fin 64) (off : BitVec 32) (len : Fin 4097) (b : List Nat) (s v : State), answersMem s f = true →
    f.val % 32 ≠ 0 → off.toNat + len.val ≤ 2 ^ s.pf (hif (portOf f)) Reg.HOSTIF_VF_BAR2 4 0 →
    vfRead s f off.toNat len = (v, .ok b) →
    ∃ t, exec (.vfBar2Access f off len none) s = .next t ∧ t = { v with cyc := t.cyc } ∧
      t.cyc.sent = v.cyc.sent ++ [.completion (portOf f) 0 false b]) ∧
  (∀ (f : Fin 64) (off : BitVec 32) (len : Fin 4097) (d : List (Option (BitVec 8))) (s v : State), answersMem s f = true →
    f.val % 32 ≠ 0 → off.toNat + d.length ≤ 2 ^ s.pf (hif (portOf f)) Reg.HOSTIF_VF_BAR2 4 0 → s.mode.mode ≠ .safe →
    vfWrite s f off.toNat (dataBytes d) = (v, none) →
    exec (.vfBar2Access f off len (some d)) s = .next v) ∧
  (∀ (p : Fin 2) (s : State), portHears s p = true →
    ∃ t, exec (.malformedTlp p) s = .next t ∧ fbit (t.hd (hif p) .faultStatus) 1 = true ∧
      fbit (t.hd (hif p) .irqStatus) 3 = true ∧ FaultParts s t) ∧
  (∀ (p : Fin 2) (s : State), portHears s p = true →
    ∃ t, exec (.ecrcError p) s = .next t ∧ t = { s with regs := t.regs, cyc := t.cyc } ∧
      fbit (t.hd (hif p) .irqStatus) 3 = true ∧ RegsBut s t [hadr (hif p) .irqStatus]) ∧
  (∀ (p : Fin 2) (s : State), portHears s p = true →
    ∃ t, exec (.poisonedRequest p) s = .next t ∧ fbit (t.hd (hif p) .faultStatus) 2 = true ∧
      fbit (t.hd (hif p) .irqStatus) 3 = true ∧ FaultParts s t) ∧
  (∀ (p : Fin 2) (s : State), portHears s p = true →
    ∃ t, exec (.unexpectedCompletion p) s = .next t ∧ t = { s with regs := t.regs, cyc := t.cyc } ∧
      fbit (t.hd (hif p) .irqStatus) 3 = true ∧ RegsBut s t [hadr (hif p) .irqStatus]) ∧
  (∀ (p : Fin 2) (req : HostReq) (s : State), portHears s p = true →
    ∃ u, exec (.completionTimeout p 0 req) s = .next (hostReadFails u p req) ∧
      fbit (u.hd (hif p) .faultStatus) 3 = true ∧ FaultParts s u) ∧
  (∀ (p : Fin 2) (f : Fin 64) (q : Fin 4) (s : State), portHears s p = true → portOf f = p.val → ringOn s f q = true →
    ringStopped s f q = false →
    ∃ t, exec (.completionTimeout p 2 (.sq f q)) s = .next t ∧ ringStopped t f q = true ∧
      ringF t f q rStatus 23 16 = 8 ∧ ringF t f q rStatus 11 0 = ringHead s f q ∧
      fbit (t.hd (.func f) .irqStatus) 0 = true ∧
      RegsBut s t [pageBase (.func f) + (ringOff f q + rStatus), hadr (.func f) .irqStatus] ∧ t.mem = s.mem)

/-- R398, R402 to R404: translations. An access that a cached leaf allows changes nothing; one of a function whose
stage 2 has no root records its fault; an invalidation drops what lies in its scope and is busy until it is done;
and a new stage-2 root drops every leaf of its function. -/
def Obligations.Translations : Prop :=
  (∀ (f : Fin 64) (addr : BitVec 48) (w : Bool) (ag : Fin 29) (src : Fin 12) (e : S2Ent) (s : State),
    funcExists s f = true → legacyOn s = false →
    s.xlate.s2.find? (fun e => e.func == f.val && e.ip ≤ addr.toNat && addr.toNat < e.ip + e.size) = some e →
    leafCause s ⟨f, ag, false, w, src, 0, [5, 6, 7, 8, 9, 0xB].contains src.val⟩ e = none →
    exec (.xlateWalk f none addr w ag src) s = .next s) ∧
  (∀ (f : Fin 64) (addr : BitVec 48) (w : Bool) (ag : Fin 29) (src : Fin 12) (s : State),
    funcExists s f = true → legacyOn s = false →
    s.xlate.s2.find? (fun e => e.func == f.val && e.ip ≤ addr.toNat && addr.toNat < e.ip + e.size) = none →
    bit (s.pair (.func f) Reg.FUNC_S2_ROOT_LO) 0 = false →
    ∃ t, exec (.xlateWalk f none addr w ag src) s = .next t ∧ t = { s with regs := t.regs, cyc := t.cyc, log := t.log } ∧
      t.pr (.func f) Reg.FUNC_XFAULT_INFO = w32 (2 ^ 31 + 2 ^ 24 * 6 + 2 ^ 23 + 2 ^ 22 * b2n w + src.val) ∧
      t.pair (.func f) Reg.FUNC_XFAULT_ADDR_LO = addr.toNat ∧ fbit (t.hd (.func f) .irqStatus) 2 = true ∧
      t.pr .xlate Reg.XLATE_FAULTS = s.pr .xlate Reg.XLATE_FAULTS + 1) ∧
  (∀ (m : Master) (f : Fin 64) (v : Word) (s : State), let a := pageBase (.func f) + Reg.FUNC_S1INV_CMD
    let u := taken s m a
    Accepts s m a → s1invCheck u f v = none → fbit v 31 = true →
    ∃ t, exec (.s1invGo m f v) s = .next t ∧ t.pf (.func f) Reg.FUNC_S1INV_CMD 30 30 = 1 ∧ RegsBut u t [a] ∧
      t.xlate.s2 = u.xlate.s2 ∧ t.mem = u.mem ∧ (∀ e ∈ u.xlate.s1, e.func ≠ f.val → e ∈ t.xlate.s1) ∧
      (fget v 29 28 = 0 → ∀ e ∈ t.xlate.s1, e.func ≠ f.val) ∧
      (fget v 29 28 = 1 → ∀ e ∈ t.xlate.s1, e.func = f.val → e.ctx ≠ fget v 19 16)) ∧
  (∀ (f : Fin 64) (s : State), s.pf (.func f) Reg.FUNC_S1INV_CMD 30 30 = 1 →
    ∃ t, exec (.s1invDone f) s = .next t ∧ t = { s with regs := t.regs, cyc := t.cyc } ∧
      t.pf (.func f) Reg.FUNC_S1INV_CMD 30 30 = 0 ∧ fbit (t.hd (.func f) .irqStatus) 7 = true ∧
      RegsBut s t [pageBase (.func f) + Reg.FUNC_S1INV_CMD, hadr (.func f) .irqStatus]) ∧
  (∀ (m : Master) (p : Fin 2) (v : Word) (s : State), let a := pageBase .xlate + s2invOff p 8
    let u := taken s m a
    Accepts s m a → s2invCheck u p v = none → fbit v 31 = true → fget v 29 28 = 0 →
    ∃ t, exec (.s2invGo m p v) s = .next t ∧ t.pf .xlate (s2invOff p 8) 30 30 = 1 ∧ RegsBut u t [a] ∧ t.mem = u.mem ∧
      (∀ e ∈ u.xlate.s2, e.func ≠ fget v 21 16 → e ∈ t.xlate.s2) ∧
      ∀ e ∈ t.xlate.s2, e.func = fget v 21 16 → 2 ^ 64 ≤ e.ip ∨ e.ip + e.size = 0) ∧
  (∀ (p : Fin 2) (s : State), s.pf .xlate (s2invOff p 8) 30 30 = 1 →
    ∃ t, exec (.s2invDone p) s = .next t ∧ t = { s with regs := t.regs, cyc := t.cyc } ∧
      t.pf .xlate (s2invOff p 8) 30 30 = 0 ∧ fbit (t.hd (.func (32 * p.val)) .irqStatus) 8 = true ∧
      RegsBut s t [pageBase .xlate + s2invOff p 8, hadr (.func (32 * p.val)) .irqStatus]) ∧
  (∀ (m : Master) (f : Fin 64) (v w : Word) (s : State), let a := pageBase (.func f) + Reg.FUNC_S2_ROOT_HI
    let u := taken s m a
    Accepts s m a → u.staged m (a - 4) (a - 4) = [(a - 4, w)] →
    ∃ t, exec (.s2RootWrite m f v) s = .next t ∧ t.reg (a - 4) = w ∧ t.reg a = v &&& 0xFFFF ∧
      RegsBut u t [a - 4, a] ∧ t.mem = u.mem ∧
      ∀ e ∈ t.xlate.s2, e.func = f.val → 2 ^ 64 ≤ e.ip ∨ e.ip + e.size = 0)

/-- R291 to R297, R300, R301, R384, R390: descriptors and fences. A checked descriptor takes a slot with its fields
and moves HEAD on, and one that fails a check stops its ring with the cause; a POINT_UPDATE enters its records
behind those before it; a job whose fence word has reached its value passes the wait stage, and one whose time has
run out ends with FENCE_TIMEOUT; and a job that has ended completes, or frees its slot where no completion is asked
for. -/
def Obligations.JobStages : Prop :=
  (∀ (rs : Fin 66) (q : Fin 4) (d : List Nat) (i0 i : Nat) (e : Option (List Nat)) (s v w : State),
    sqFetches s rs q = true → q.val ≠ 3 → atCap s rs = false →
    ringRead s rs (rs.val == 64) 1 (ringBase s rs q + 64 * ringHead s rs q) 64 = (v, .ok d) →
    freeSlot s (dClass d) = some i0 → staleGen v rs (dByte d 1) = false → ctxRead v rs (dByte d 3) = (w, .ok e) →
    fetchCause w rs q d e = none → freeSlot w (dClass d) = some i → ringSize w rs q ≤ 4096 →
    ∃ t j, exec (.descriptorFetch rs q) s = .next t ∧ t.job i = some j ∧ j.rs = rs ∧ j.q = q ∧ j.op = dByte d 0 ∧
      j.flags = dByte d 2 ∧ j.ctx = dByte d 3 ∧ j.tag = bytesAt d 4 4 ∧ j.body = d.drop 32 ∧ j.entry = e.getD [] ∧
      ringHead t rs q = (ringHead w rs q + 1) % ringSize w rs q ∧ t.mem = w.mem) ∧
  (∀ (rs : Fin 66) (q : Fin 4) (d : List Nat) (i0 c : Nat) (e : Option (List Nat)) (s v w : State),
    sqFetches s rs q = true → q.val ≠ 3 → atCap s rs = false →
    ringRead s rs (rs.val == 64) 1 (ringBase s rs q + 64 * ringHead s rs q) 64 = (v, .ok d) →
    freeSlot s (dClass d) = some i0 → staleGen v rs (dByte d 1) = false → ctxRead v rs (dByte d 3) = (w, .ok e) →
    fetchCause w rs q d e = some c →
    ∃ t, exec (.descriptorFetch rs q) s = .next t ∧ ringStopped t rs q = true ∧ ringF t rs q rStatus 23 16 = c ∧
      ringF t rs q rStatus 11 0 = ringHead w rs q ∧ ringHead t rs q = ringHead w rs q ∧ t.sched = w.sched) ∧
  (∀ (rs : Fin 66) (d : List Nat) (s v : State), sqFetches s rs 3 = true → pointsWait s rs = false →
    ringRead s rs (rs.val == 64) 1 (ringBase s rs 3 + 64 * ringHead s rs 3) 64 = (v, .ok d) →
    dByte d 0 = 0x40 → staleGen v rs (dByte d 1) = false → dByte d 3 / 2 = 0 → 1 ≤ dByte d 2 → dByte d 2 ≤ 7 →
    ringSize v rs 3 ≤ 4096 →
    ∃ t, exec (.pointUpdate rs) s = .next t ∧ v.legend.queue <+: t.legend.queue ∧
      t.legend.queue.length = v.legend.queue.length + dByte d 2 ∧ t.legend.accepted = v.legend.accepted ∧
      ringHead t rs 3 = (ringHead v rs 3 + 1) % ringSize v rs 3 ∧ t.sched = v.sched ∧ t.mem = v.mem) ∧
  (∀ (i : Fin 1024) (j : Job) (b : List Nat) (s v : State), waitingJob s i = some j →
    fenceRead s j (j.wait % 4096) = (v, .ok b) → bit (ofLeBytes b) 63 = false → j.wait / 4096 ≤ ofLeBytes b →
    ∃ t k, exec (.fencePoll i) s = .next t ∧ t.job i = some k ∧ k.phase = .ready ∧ k.since = none ∧ k.tag = j.tag ∧
      t.mem = v.mem) ∧
  (∀ (i : Fin 1024) (j : Job) (b : List Nat) (s v : State), waitingJob s i = some j →
    fenceRead s j (j.wait % 4096) = (v, .ok b) → bit (ofLeBytes b) 63 = false → ofLeBytes b < j.wait / 4096 →
    exec (.fencePoll i) s = .next v) ∧
  (∀ (i : Fin 1024) (j : Job) (b : List Nat) (s v : State), waitingJob s i = some j →
    j.since.getD 0 + 1000000 * s.pf .sched Reg.SCHED_FENCE_TIMEOUT 15 0 ≤ s.devtime →
    fenceRead s j (j.wait % 4096) = (v, .ok b) → bit (ofLeBytes b) 63 = false → ofLeBytes b < j.wait / 4096 →
    v.job i = some j →
    ∃ t k, exec (.fenceTimeout i) s = .next t ∧ t.job i = some k ∧ k.phase = .ended ∧ k.status = 0x22 ∧
      fbit (t.hd .sched .irqStatus) 2 = true ∧ t.mem = v.mem) ∧
  (∀ (i : Fin 1024) (j : Job) (s : State), s.job i = some j → j.phase = .ended → jobStale s j = false →
    bit j.flags 5 = false → bit j.flags 3 = true ∨ j.status ≠ 0 →
    ∃ t k r, exec (.jobComplete i) s = .next t ∧ t.job i = some k ∧ k.phase = .signalled ∧
      (t.ring j.rs).cqWait = (s.ring j.rs).cqWait ++ [r] ∧ r.slot = some i.val ∧ r.gen = j.gen ∧ r.tag = j.tag ∧
      r.status = j.status ∧ r.sq = j.q ∧ t.mem = s.mem) ∧
  (∀ (i : Fin 1024) (j : Job) (s : State), s.job i = some j → j.phase = .ended → jobStale s j = false →
    bit j.flags 5 = false → bit j.flags 3 = false → j.status = 0 →
    ∃ t, exec (.jobComplete i) s = .next t ∧ t.job i = none ∧ t.rings = s.rings ∧ t.mem = s.mem)

/-- R292, R310, R314 to R319, R324: jobs without bays. A NOP ends with OK; a module that is not in the cache starts
to translate, its handle is taken or its failure reported when the translation ends, a translation past its limit
fails, and an unload frees the handle; a present whose writes no check refuses is committed; a compute job starts
with its grid, or ends with NO_MODULE; and a job or a tile that runs too long ends with WATCHDOG. -/
def Obligations.JobKinds : Prop :=
  (∀ (i : Fin 1024) (j : Job) (s : State), readyJob s i 0 = some j →
    ∃ t k, exec (.nop i) s = .next t ∧ t.job i = some k ∧ k.phase = .ended ∧ k.status = 0 ∧ t.mem = s.mem) ∧
  (∀ (i : Fin 1024) (j : Job) (b : List Nat) (s v : State), readyJob s i 0x22 = some j → bytesAt j.body 12 2 ≤ 1023 →
    handleOf s j.rs (bytesAt j.body 12 2) = none → loadWaits s j = false →
    jRead s j 0x16 (bytesAt j.body 0 8) (bytesAt j.body 8 4) = (v, .ok b) → v.sched.modules = [] →
    ∃ t k, exec (.moduleLoad i) s = .next t ∧ t.job i = some k ∧ k.phase = .running ∧
      t.sched.trans = v.sched.trans ++ [⟨i, j.rs, Config.sha384 b / 2 ^ 128, b, v.devtime⟩] ∧
      t.pr .sched Reg.SCHED_TC_MISSES = v.pr .sched Reg.SCHED_TC_MISSES + 1 ∧ t.mem = v.mem) ∧
  (∀ (i : Fin 1024) (j : Job) (s : State), readyJob s i 0x23 = some j → bytesAt j.body 0 2 ≤ 1023 →
    (handleOf s j.rs (bytesAt j.body 0 2)).isSome = true →
    ∃ t k, exec (.moduleUnload i) s = .next t ∧ t.job i = some k ∧ k.phase = .ended ∧ k.status = 0 ∧
      handleOf t j.rs (bytesAt j.body 0 2) = none ∧ t.mem = s.mem) ∧
  (∀ (i : Fin 1024) (x : Translating) (j : Job) (s u : State), takeTrans s i = some (x, j, u) → x.slot = i →
    s.devtime ≤ translateLimit u x → handleOf s j.rs (bytesAt j.body 12 2) = none → cacheFull u = false →
    ∃ t k, exec (.translateDone i) s = .next t ∧ t.job i = some k ∧ k.phase = .ended ∧ t.mem = s.mem ∧
      (moduleCause x.bytes = 0 → k.status = 0 ∧ (handleOf t j.rs (bytesAt j.body 12 2)).map (·.key) = some x.key) ∧
      (moduleCause x.bytes ≠ 0 → k.status = 0x28 ∧ k.detail = moduleCause x.bytes ∧
        fbit (t.hd .sched .irqStatus) 1 = true)) ∧
  (∀ (i : Fin 1024) (x : Translating) (j : Job) (s u : State), takeTrans s i = some (x, j, u) → x.slot = i →
    translateLimit s x ≤ s.devtime →
    ∃ t k, exec (.translateTimeout i) s = .next t ∧ t.job i = some k ∧ k.phase = .ended ∧ k.status = 0x28 ∧
      k.detail = 6 ∧ fbit (t.hd .sched .irqStatus) 1 = true ∧ t.mem = s.mem) ∧
  (∀ (i : Fin 1024) (j : Job) (n : Fin 12) (l : Fin 15) (s : State), readyJob s i 0x41 = some j → jobStale s j = false →
    bytesAt j.body 0 1 % 16 = n → bytesAt j.body 1 1 % 16 = l →
    let m := ringMaster j.rs
    let p : Page := .layer n l
    let u := (presentWrites p j.body).foldl (fun s w => (s.setShd w.1 (w32 w.2)).noteWrite w.1) s
    (∀ a, a ∈ (presentWrites p j.body).map (·.1) ∨ a = hadr p .commit → refusalOf s m a = none) →
    commitCheck u p m = none → (s.head n).running = false →
    ∃ t k, exec (.present i) s = .next t ∧ t.job i = some k ∧ k.phase = .ended ∧ k.status = 0 ∧
      (t.pend p).map (·.seq) = some (bytesAt j.body 2 2) ∧
      t.shd (pageBase p + Reg.LAYER_BUF_ADDR_LO) = w32 (bytesAt j.body 8 4) ∧ t.mem = s.mem) ∧
  (∀ (i : Fin 1024) (j : Job) (s : State), readyJob s i 2 = some j → baysIn s ≠ [] →
    let x := entryOf (moduleOf s j.rs (bytesAt j.body 0 2)) (bytesAt j.body 2 1) 2
    ∃ t k, exec (.compute i) s = .next t ∧ t.job i = some k ∧ t.mem = s.mem ∧
      (x = none → k.phase = .ended ∧ k.status = 0x27 ∧ k.detail = bytesAt j.body 0 2) ∧
      (x ≠ none → gridTotal j = 0 → k.phase = .ended ∧ k.status = 0x10) ∧
      (x ≠ none → gridTotal j ≠ 0 → k.phase = .running ∧ k.comp.total = gridTotal j ∧ k.comp.nextWg = 0)) ∧
  (∀ (i : Fin 1024) (j : Job) (s : State), s.job i = some j → j.phase = .running → j.op = 2 →
    1000000000 * s.pf .sched Reg.SCHED_WATCHDOG 31 24 < runningNs s j →
    ∃ t k, exec (.jobWatchdog i) s = .next t ∧ t.job i = some k ∧ k.phase = .ended ∧ k.status = 0x21 ∧ t.mem = s.mem) ∧
  (∀ (i : Fin 1024) (tile : Nat) (j : Job) (s : State), s.job i = some j → j.phase = .running →
    j.rend.flying.any (fun e => e.1 == tile) = true →
    aget 0 j.rend.tileAt tile + 1000 * s.pf .sched Reg.SCHED_WATCHDOG 15 0 < s.devtime →
    ∃ t k, exec (.tileWatchdog i tile) s = .next t ∧ t.job i = some k ∧ k.phase = .ended ∧ k.status = 0x21 ∧
      t.mem = s.mem)

/-- R277, R281, R283, R302, R310, R312, R313, R321, R323: work of bays and of the copy engine. A render job whose
pass keeps the limits runs; a tile and a workgroup that complete leave flight; a flush is noted with the job's
owner; a bay that is free takes a workgroup of the job the order offers; a bay that a preempted job has left is
released; a bay fault shows its bit; and the copy engine carries out the first copy or fill in order, with its
status. -/
def Obligations.BayWork : Prop :=
  (∀ (i : Fin 1024) (j : Job) (r : RenderSt) (s v : State), readyJob s i 1 = some j → baysIn s ≠ [] →
    readPass s j = (v, .ok r) → passLimit j r = none →
    ∃ t, exec (.render i) s = .next t ∧ t.job i = some { j with phase := .running, rend := r } ∧ t.mem = v.mem) ∧
  (∀ (i : Fin 1024) (tile : Nat) (b : Fin 48) (j : Job) (s v : State), s.job i = some j → j.phase = .running →
    j.rend.flying.find? (fun e => e.1 == tile) = some (tile, b.val) → renderTile s j b tile = (v, .ok ()) →
    jobStale v j = false → j.rend.done.length + 1 < tileCount j.rend →
    ∃ t, exec (.tileComplete i tile) s = .next t ∧ t.mem = v.mem ∧
      t.pr (.bay b) Reg.BAY_TILES_DONE = v.pr (.bay b) Reg.BAY_TILES_DONE + 1 ∧
      t.job i = some { j with rend := { j.rend with
        flying := j.rend.flying.filter (fun e => e.1 != tile), done := tile :: j.rend.done } }) ∧
  (∀ (i : Fin 1024) (j : Job) (s : State), s.job i = some j → j.phase = .running → j.rend.geo = true →
    j.rend.flushing = false → j.rend.stop ≠ j.rend.prims.length → j.rend.spill ≠ 0 →
    2 * footprint j.rend * tileCount j.rend ≤ j.rend.spillSize →
    ∃ t, exec (.partialFlush i) s = .next t ∧ t.job i = some { j with rend := { j.rend with flushing := true } } ∧
      t.pr .bin Reg.BIN_PARTIAL_FLUSH_COUNT = s.pr .bin Reg.BIN_PARTIAL_FLUSH_COUNT + 1 ∧
      fbit (t.hd .bin .irqStatus) 0 = true ∧ t.mem = s.mem) ∧
  (∀ (i : Fin 1024) (wg b : Nat) (j : Job) (s : State), s.job i = some j → j.phase = .running →
    j.comp.flying.find? (fun e => e.1 == wg) = some (wg, b) →
    let r := runShader s ⟨j, bayAgent b, bytesAt j.body 16 8⟩ (aget [] j.mods (bytesAt j.body 0 2)) (bytesAt j.body 2 1)
      (groupInputs j wg)
    ∃ t, exec (.workgroupDone i wg) s = .next t ∧ (∀ v x, r = (v, .ok x) → t = groupDone v i j wg) ∧
      ∀ v st d, r = (v, .error (st, d)) → t = endJobAs v i st d) ∧
  (∀ (b : Fin 48) (k : Fin 3) (s : State),
    ∃ t, exec (.bayFence b k) s = .next t ∧ fbit (t.hd (.bay b) .faultStatus) k = true ∧ FaultParts s t) ∧
  (∀ (u : Fin 50) (i : Nat) (j : Job) (s s' : State), u.val < 48 → bayFenced s u = false → starved s = [] →
    releasing s u = false → offer s true (bayTakers s u) = some (i, j, s') → j.op = 2 → j.comp.again = [] →
    j.comp.nextWg < j.comp.total →
    ∃ t k, exec (.workDispatch u) s = .next t ∧ t.job i = some k ∧ (j.comp.nextWg, u.val) ∈ k.comp.flying ∧
      k.comp.nextWg = j.comp.nextWg + 1 ∧ k.started.isSome = true ∧ t.mem = s'.mem) ∧
  (∀ (b : Fin 48) (i since : Nat) (j : Job) (s : State), s.sched.preempting.find? (fun e => e.1 == b.val) = some (b.val, i, since) →
    s.job i = some j → j.phase = .running → j.op = 2 →
    ∃ t k, exec (.preemptDone b) s = .next t ∧ releasing t b = false ∧ t.job i = some k ∧
      (∀ e ∈ k.comp.flying, e.2 ≠ b.val) ∧ k.cflags = j.cflags ||| 4 ∧
      k.comp.again = (j.comp.flying.filter (fun e => e.2 == b.val)).map (·.1) ++ j.comp.again ∧ t.mem = s.mem) ∧
  (∀ (i : Fin 1024) (j : Job) (s s' v : State), offer s false (copyReady s) = some (i.val, j, s') → j.op = 0x20 →
    copyRun s' j = (v, .ok ()) → v.job i = some j →
    ∃ t k, exec (.copy i) s = .next t ∧ t.job i = some k ∧ k.phase = .ended ∧ k.status = 0 ∧ t.mem = v.mem) ∧
  (∀ (i : Fin 1024) (j : Job) (s s' v : State), offer s false (copyReady s) = some (i.val, j, s') → j.op = 0x21 →
    fillRun s' j = (v, .ok ()) → v.job i = some j →
    ∃ t k, exec (.fill i) s = .next t ∧ t.job i = some k ∧ k.phase = .ended ∧ k.status = 0 ∧ t.mem = v.mem)

/-- R393 to R396: migration. FREEZE makes a function busy until every slot of it is free, and then it is frozen;
SAVE of a frozen function writes its image at MIG_ADDR and no other byte; RESTORE ends with the result of the
image's checks; and RESUME ends the freeze. -/
def Obligations.Migration : Prop :=
  (∀ (m : Master) (f : Fin 64) (s : State), let a := pageBase (.func f) + Reg.FUNC_MIG_CTRL
    let u := taken s m a
    Accepts s m a → migCheck u f 0x80000001 = none → funcFrozen u f = false →
    ∃ t, exec (.freeze m f) s = .next t ∧ t.pf (.func f) Reg.FUNC_MIG_STATUS 31 31 = 1 ∧
      (t.ring f).freezing = true ∧ t.mem = u.mem) ∧
  (∀ (f : Fin 64) (s : State), (s.ring f).freezing = true → (∀ e ∈ jobsIn s, e.2.rs ≠ f.val) → (s.ring f).cqWait = [] →
    (∀ j ∈ s.legend.jobs, j.func ≠ f.val) →
    ∃ t, exec (.freezeDone f) s = .next t ∧ t = { s with regs := t.regs, cyc := t.cyc, rings := t.rings } ∧
      funcFrozen t f = true ∧ (t.ring f).freezing = false ∧ t.pf (.func f) Reg.FUNC_MIG_STATUS 31 31 = 0 ∧
      t.pf (.func f) Reg.FUNC_MIG_STATUS 19 16 = 0 ∧ fbit (t.hd (.func f) .irqStatus) 5 = true ∧
      RegsBut s t [pageBase (.func f) + Reg.FUNC_FUNC_STATUS, pageBase (.func f) + Reg.FUNC_MIG_STATUS,
        hadr (.func f) .irqStatus]) ∧
  (∀ (m : Master) (f : Fin 64) (b : Nat) (s : State), let a := pageBase (.func f) + Reg.FUNC_MIG_CTRL
    let u := taken s m a
    let w := u.setPf (.func f) Reg.FUNC_MIG_CTRL 2 0 2
    Accepts s m a → migCheck u f 0x80000002 = none → funcFrozen u f = true → imageAddr w f = some b →
    ∃ t, exec (.save m f) s = .next t ∧ t.mem = (busWrite w (portAgent f) false b (imageOf w f)).1.mem ∧
      BytesBut u t (Stored b (imageOf w f).length) ∧
      t.pf (.func f) Reg.FUNC_MIG_STATUS 31 31 = 0 ∧ fbit (t.hd (.func f) .irqStatus) 5 = true ∧
      ((busWrite w (portAgent f) false b (imageOf w f)).2 = .ok () → t.pf (.func f) Reg.FUNC_MIG_STATUS 19 16 = 0)) ∧
  (∀ (m : Master) (f : Fin 64) (b : Nat) (s : State), let a := pageBase (.func f) + Reg.FUNC_MIG_CTRL
    let u := taken s m a
    let w := u.setPf (.func f) Reg.FUNC_MIG_CTRL 2 0 3
    Accepts s m a → migCheck u f 0x80000003 = none → funcFrozen u f = true → imageAddr w f = some b →
    ∃ t, exec (.restore m f) s = .next t ∧ t.pf (.func f) Reg.FUNC_MIG_STATUS 31 31 = 0 ∧
      fbit (t.hd (.func f) .irqStatus) 5 = true ∧
      ∀ v img, busRead w (portAgent f) false b 47104 = (v, .ok img) →
        t.pf (.func f) Reg.FUNC_MIG_STATUS 19 16 = (migImageCheck v f img).code ∧
        (migImageCheck v f img ≠ .ok → t = { v with regs := t.regs, cyc := t.cyc } ∧
          RegsBut v t [pageBase (.func f) + Reg.FUNC_MIG_STATUS, hadr (.func f) .irqStatus])) ∧
  (∀ (m : Master) (f : Fin 64) (s : State), let a := pageBase (.func f) + Reg.FUNC_MIG_CTRL
    let u := taken s m a
    Accepts s m a → migCheck u f 0x80000004 = none → funcFrozen u f = true →
    ∃ t, exec (.resume m f) s = .next t ∧ funcFrozen t f = false ∧ t.pf (.func f) Reg.FUNC_MIG_STATUS 19 16 = 0 ∧
      fbit (t.hd (.func f) .irqStatus) 5 = true ∧ t.mem = u.mem ∧
      RegsBut u t [a, pageBase (.func f) + Reg.FUNC_FUNC_STATUS, pageBase (.func f) + Reg.FUNC_MIG_STATUS,
        hadr (.func f) .irqStatus])

/-- R443, R442, R446, R449, R451, R459: scans and self-tests of the keys. Enabling KEYS sets only ENABLE; a scan
starts in slot 0 at the current time; the end of a slot before the last moves the scan to the next slot, and while a
port initialises it stores each electrode's raw count as its baseline; a self-test with GO is busy until its results
set three flags of every key of the port, report its end and make the port initialise; a parity error of a port
reports itself and makes the port initialise. -/
def Obligations.KeyScans : Prop :=
  (∀ (m : Master) (s : State), let a := hadr .keys .ctrl
    Accepts s m a → (taken s m a).busy .keys = false → s.mode.mode ≠ .survey →
    (taken s m a).mode.mode ≠ .survey →
    ∃ t, exec (.keysEnable m) s = .next t ∧ t.enabled .keys = true ∧ RegsBut (taken s m a) t [a] ∧
      t.mem = (taken s m a).mem ∧ t.keys = (taken s m a).keys ∧ t.scans = (taken s m a).scans) ∧
  (∀ (p : Fin 4) (s : State), s.enabled .keys = true → s.pf .keys Reg.KEYS_PORT_EN p p = 1 → b4Keys s = false →
    (s.scan p).slot = none → (s.scan p).testing = false →
    ∃ t, exec (.scanStart p) s = .next t ∧ t = { s with regs := t.regs, scans := t.scans } ∧
      t.scan p = { s.scan p with slot := some 0, start := s.devtime, detected := false } ∧
      t.pf .keys Reg.KEYS_SCAN_STATUS (8 * p + 1) (8 * p) =
        (if (s.scan p).initScan then 0 else scanRate (s.devtime - (s.scan p).detectEnd)) ∧
      (∀ q, q ≠ p.val → t.scan q = s.scan q) ∧ RegsBut s t [pageBase .keys + Reg.KEYS_SCAN_STATUS]) ∧
  (∀ (p : Fin 4) (counts : List (BitVec 16)) (sl : Nat) (s : State), (s.scan p).slot = some sl → sl < 7 →
    (s.scan p).initScan = true → armed s .keys 0x60 = none → armed s .keys 0x61 = none →
    (∀ c < 8, (s.key (64 * p + 8 * sl + c)).forcedLeft = 0) →
    ∃ t, exec (.slotEnd p counts) s = .next t ∧ t.scan p = { s.scan p with slot := some (sl + 1) } ∧
      (∀ c < 8, (t.key (64 * p + 8 * sl + c)).b24 = (counts.getD c 0).toNat * 256 ∧
        t.pf .keys (Reg.KEYS_KEY_STATE + 4 * (64 * p + 8 * sl + c)) 15 0 = (counts.getD c 0).toNat) ∧
      RegsBut s t ((List.range 8).map (fun c => pageBase .keys + (Reg.KEYS_KEY_STATE + 4 * (64 * p + 8 * sl + c)))) ∧
      t.mem = s.mem) ∧
  (∀ (m : Master) (value : Word) (s : State), let a := pageBase .keys + Reg.KEYS_SELFTEST
    Accepts s m a → fbit value 31 = true → selftestCheck (taken s m a) value = none →
    ∃ t, exec (.selftest m value) s = .next t ∧ t.pf .keys Reg.KEYS_SELFTEST 30 30 = 1 ∧
      t.pf .keys Reg.KEYS_SELFTEST 1 0 = fget value 1 0 ∧ (t.scan (fget value 1 0)).testing = true ∧
      (t.scan (fget value 1 0)).slot = none ∧
      RegsBut (taken s m a) t [a, pageBase .keys + Reg.KEYS_SCAN_STATUS] ∧ t.mem = (taken s m a).mem) ∧
  (∀ (counts right lower : List (BitVec 16)) (s : State), s.pf .keys Reg.KEYS_SELFTEST 30 30 = 1 →
    let p := s.pf .keys Reg.KEYS_SELFTEST 1 0
    let lim := s.pr .keys Reg.KEYS_ST_LIMITS
    let fl := testFlags (fget lim 15 0) (fget lim 31 16) (s.pf .keys Reg.KEYS_NEIGH_LIMIT 15 0) counts right lower
    ∃ t, exec (.selftestDone counts right lower) s = .next t ∧ t.pf .keys Reg.KEYS_SELFTEST 30 30 = 0 ∧
      (∀ e < 64, t.pf .keys (Reg.KEYS_KEY_STATE + 4 * (64 * p + e)) 30 28 = fl e) ∧
      fbit (t.hd .keys .irqStatus) 2 = true ∧
      ((∃ e, e < 64 ∧ fl e ≠ 0) → fbit (t.hd .keys .faultStatus) 0 = true) ∧ t.mem = s.mem ∧ t.keys = s.keys ∧
      t.scan p = { s.scan p with testing := false, initScan := true, slot := none }) ∧
  (∀ (p : Fin 4) (s : State),
    ∃ t, exec (.senseParity p) s = .next t ∧ fbit (t.hd .keys .faultStatus) 1 = true ∧
      t.scan p = { s.scan p with slot := none, initScan := true } ∧ (∀ q, q ≠ p.val → t.scan q = s.scan q) ∧
      t.mem = s.mem)

/-- R453 to R458, R520: key events. An event of an owner without a queue counts as lost; one whose queue has room is
written as eight bytes at TAIL, which advances; one whose queue is full sets OVERFLOW, counts as lost and is
reported; a queue's base that the rules allow goes into force whole and starts it empty; a HEAD that frees only
written entries is taken; and an armed injection on a key holds for its number of measurements. -/
def Obligations.KeyEvents : Prop :=
  (∀ (err : Bool) (r : KeyRec) (rest : List KeyRec) (s : State), s.keyWait = r :: rest →
    ¬ (s.mode.mode = .safe ∧ r.owner ≠ 0x40) → queueOf s r.owner = none →
    ∃ t, exec (.keyEventWrite err) s = .next t ∧ t = { s with keyWait := rest, regs := t.regs } ∧
      RegsBut s t [pageBase .keys + Reg.KEYS_EVENTS_LOST]) ∧
  (∀ (err : Bool) (r : KeyRec) (rest : List KeyRec) (q : Nat) (s : State), s.keyWait = r :: rest →
    ¬ (s.mode.mode = .safe ∧ r.owner ≠ 0x40) → queueOf s r.owner = some q →
    (eqTail s q + 1) % eqSize s q = eqHead s q →
    ∃ t, exec (.keyEventWrite err) s = .next t ∧ t = { s with keyWait := rest, regs := t.regs, cyc := t.cyc } ∧
      fbit (t.pr .keys (Reg.KEYS_EQ_TAIL + 16 * q)) 31 = true ∧ fbit (t.hd .keys .irqStatus) 3 = true ∧
      RegsBut s t [pageBase .keys + (Reg.KEYS_EQ_TAIL + 16 * q), pageBase .keys + Reg.KEYS_EVENTS_LOST,
        hadr .keys .irqStatus]) ∧
  (∀ (r : KeyRec) (rest : List KeyRec) (q : Nat) (s : State), s.keyWait = r :: rest →
    ¬ (s.mode.mode = .safe ∧ r.owner ≠ 0x40) → queueOf s r.owner = some q →
    (eqTail s q + 1) % eqSize s q ≠ eqHead s q → eqSize s q ≤ 4096 →
    (busWrite { s with keyWait := rest } 0x0E (r.owner == 0x40) (eqBase s q + 8 * eqTail s q)
      ([r.key, r.edge + s.pf .keys (Reg.KEYS_EQ_TAIL + 16 * q) 30 30 * 128] ++ leBytes 6 r.time)).2 = .ok () →
    ∃ t, exec (.keyEventWrite false) s = .next t ∧
      t.pf .keys (Reg.KEYS_EQ_TAIL + 16 * q) 11 0 = (eqTail s q + 1) % eqSize s q ∧
      t.mem = (busWrite { s with keyWait := rest } 0x0E (r.owner == 0x40) (eqBase s q + 8 * eqTail s q)
        ([r.key, r.edge + s.pf .keys (Reg.KEYS_EQ_TAIL + 16 * q) 30 30 * 128] ++ leBytes 6 r.time)).1.mem) ∧
  (∀ (m : Master) (q : Fin 16) (value : Word) (s : State), let a := pageBase .keys + Reg.KEYS_EQ_BASE_HI + 16 * q.val
    Accepts s m a → fbit value 31 = true → eqValid (taken s m a) q = false →
    eqBaseCheck (taken s m a) m q value = none →
    ∃ t, exec (.eqBaseWrite m q value) s = .next t ∧ eqValid t q = true ∧ queueOwner t q = fget value 23 16 ∧
      eqHead t q = 0 ∧ eqTail t q = 0 ∧ t.pf .keys (Reg.KEYS_EQ_TAIL + 16 * q) 30 30 = 1 ∧
      t.reg a = value &&& 0x8FFFFFFF ∧ RegsBut (taken s m a) t [a - 4, a, a + 4, a + 8]) ∧
  (∀ (m : Master) (q : Fin 16) (value : Word) (s : State), let a := pageBase .keys + Reg.KEYS_EQ_HEAD + 16 * q.val
    Accepts s m a → eqHeadCheck (taken s m a) q value = none →
    ∃ t, exec (.eqHeadWrite m q value) s = .next t ∧ eqHead t q = fget value 11 0 ∧ RegsBut (taken s m a) t [a] ∧
      t.mem = (taken s m a).mem) ∧
  (∀ (k par : Nat) (s : State), armed s .keys 0x60 = some (k, par) →
    ∃ t, exec .forceTouch s = .next t ∧ (t.key k).forced = 1 ∧ (t.key k).forcedLeft = par ∧
      (∀ j, j ≠ k → t.key j = s.key j) ∧ t.mem = s.mem) ∧
  (∀ (k par : Nat) (s : State), armed s .keys 0x61 = some (k, par) →
    ∃ t, exec .forceOpen s = .next t ∧ (t.key k).forced = 2 ∧ (t.key k).forcedLeft = par ∧
      (∀ j, j ≠ k → t.key j = s.key j) ∧ t.mem = s.mem)

/-- R463, R466, R467, R468, R470: the haptic channels. Enabling a channel sets the half-period of its resonance; a
host trigger of a valid effect in an idle channel counts and starts the ATTACK; one of an invalid effect is only
reported; a stop makes a driven phase end at the next crossing; a half-cycle that ends without a crossing counts as
missed and leaves one half-cycle less; the measured power sets SCALE from the cap; a rail fault stops every channel
with fault bit 0, and RAIL_OK makes the rail serve again. -/
def Obligations.Haptics : Prop :=
  (∀ (m : Master) (ch : Fin 16) (s : State), let a := hadr (.hapch ch) .ctrl
    let f0 := (taken s m a).pf (.hapch ch) Reg.HAPCH_HCFG 8 0
    Accepts s m a → (taken s m a).busy (.hapch ch) = false → (taken s m a).enabled (.hapch ch) = false →
    ∃ t, exec (.hapchEnable m ch) s = .next t ∧ t.enabled (.hapch ch) = true ∧
      t.pr (.hapch ch) Reg.HAPCH_HALF_PERIOD = w32 ((40000000 + f0) / (2 * f0)) ∧
      RegsBut (taken s m a) t [a, pageBase (.hapch ch) + Reg.HAPCH_HALF_PERIOD] ∧ t.mem = (taken s m a).mem) ∧
  (∀ (m : Master) (ch : Fin 16) (e : Fin 64) (s : State), let a := pageBase (.hapch ch) + Reg.HAPCH_TRIGGER
    Accepts s m a → hapReady (taken s m a) ch = true → keyTook (taken s m a) ch = false →
    hapPhase (taken s m a) ch = 0 → bit (effWord (effectWords (taken s m a) e) 3) 0 = true →
    ∃ t, exec (.hostTrigger m ch e) s = .next t ∧ hapPhase t ch = 1 ∧ hstat t ch 13 8 = e ∧ hstat t ch 17 17 = 0 ∧
      (t.hap ch).words = effectWords (taken s m a) e ∧
      (t.hap ch).left = phaseLen (effectWords (taken s m a) e) 1 ∧
      (∀ c, c ≠ ch.val → t.hap c = (taken s m a).hap c) ∧
      RegsBut (taken s m a) t
        [pageBase (.hapch ch) + Reg.HAPCH_HSTATUS, pageBase (.hapch ch) + Reg.HAPCH_TRIG_COUNT]) ∧
  (∀ (m : Master) (ch : Fin 16) (e : Fin 64) (s : State), let a := pageBase (.hapch ch) + Reg.HAPCH_TRIGGER
    Accepts s m a → hapReady (taken s m a) ch = true → keyTook (taken s m a) ch = false →
    bit (effWord (effectWords (taken s m a) e) 3) 0 = false →
    ∃ t, exec (.hostTrigger m ch e) s = .next t ∧ fbit (t.hd (.hapch ch) .irqStatus) 2 = true ∧
      t.haps = (taken s m a).haps ∧ RegsBut (taken s m a) t [hadr (.hapch ch) .irqStatus]) ∧
  (∀ (m : Master) (ch : Fin 16) (s : State), let a := pageBase (.hapch ch) + Reg.HAPCH_TRIGGER
    Accepts s m a → hapPhase (taken s m a) ch = 1 ∨ hapPhase (taken s m a) ch = 2 →
    ∃ t, exec (.stop m ch) s = .next t ∧ t.hap ch = { (taken s m a).hap ch with stopping := true } ∧
      (∀ c, c ≠ ch.val → t.hap c = (taken s m a).hap c) ∧ RegsBut (taken s m a) t []) ∧
  (∀ (ch : Fin 16) (iPeak bemf : BitVec 16) (s : State), hapPhase s ch = 2 → 1 < (s.hap ch).left →
    (s.hap ch).checkStall = false →
    ∃ t, exec (.halfCycleEnd ch none iPeak bemf false) s = .next t ∧ (t.hap ch).left = (s.hap ch).left - 1 ∧
      (t.hap ch).positive = !(s.hap ch).positive ∧ hapPhase t ch = 2 ∧
      (∀ c, c ≠ ch.val → t.hap c = s.hap c) ∧ RegsBut s t [pageBase (.hapch ch) + Reg.HAPCH_ZC_MISSED] ∧
      t.mem = s.mem) ∧
  (∀ (p : BitVec 16) (s : State), p ≠ 0 →
    let scale := min 1024 (1024 * s.pf .haptic Reg.HAPTIC_POWER_CAP 15 0 / p.toNat)
    ∃ t, exec (.powerMeasure p) s = .next t ∧ t.pr .haptic Reg.HAPTIC_SCALE = w32 scale ∧
      t.pf .haptic Reg.HAPTIC_RAIL_STATUS 15 0 = p.toNat ∧
      t.pf .haptic Reg.HAPTIC_RAIL_STATUS 30 30 = (if scale < 1024 then 1 else 0) ∧
      (scale < 1024 → s.pf .haptic Reg.HAPTIC_RAIL_STATUS 30 30 = 0 → fbit (t.hd .haptic .irqStatus) 0 = true) ∧
      (∀ ch < 16, hapPhase t ch = hapPhase s ch) ∧ t.mem = s.mem) ∧
  (∀ s : State,
    ∃ t, exec .railFault s = .next t ∧ fbit (t.pr .haptic Reg.HAPTIC_RAIL_STATUS) 31 = false ∧
      fbit (t.hd .haptic .faultStatus) 0 = true ∧ (∀ ch < 16, hapPhase t ch = 0) ∧ t.mem = s.mem) ∧
  (∀ s : State,
    ∃ t, exec .railOk s = .next t ∧ t = { s with regs := t.regs } ∧
      fbit (t.pr .haptic Reg.HAPTIC_RAIL_STATUS) 31 = true ∧
      RegsBut s t [pageBase .haptic + Reg.HAPTIC_RAIL_STATUS])

/-- R473, R476, R477: the mixer. Enabling AUDIO sets its counts to 0 and takes each stream's WR as read; enabling a
stream makes RD equal WR; a line that a stream needs is kept with the WR it was fetched under; and at a boundary the
sample count rises by one. -/
def Obligations.AudioStreams : Prop :=
  (∀ (m : Master) (s : State), let a := hadr .audio .ctrl
    Accepts s m a → (taken s m a).busy .audio = false → (taken s m a).enabled .audio = false →
    ∃ t, exec (.audioEnable m) s = .next t ∧ t.enabled .audio = true ∧ t.audio.n = 0 ∧ t.audio.sinks = [] ∧
      t.pr .audio Reg.AUDIO_SAMPLE_COUNT = 0 ∧
      (∀ k < 48, (t.stream k).wrPrev = srcWr (taken s m a) k) ∧
      RegsBut (taken s m a) t [a, pageBase .audio + Reg.AUDIO_SAMPLE_COUNT] ∧ t.mem = (taken s m a).mem) ∧
  (∀ (m : Master) (k : Fin 48) (value : Word) (s : State),
    let a := pageBase .audio + Reg.AUDIO_SRC_BASE_HI + 16 * k.val
    let lo := (((taken s m a).staged m (a - 4) (a - 4)).find? (fun w => w.1 == a - 4)).elim ((taken s m a).reg (a - 4)) (·.2)
    Accepts s m a → srcEn (taken s m a) k = false → fbit lo 0 = true → 8 ≤ fget value 19 16 →
    ∃ t, exec (.srcEnable m k value) s = .next t ∧ srcEn t k = true ∧ srcSize t k = 2 ^ fget value 19 16 ∧
      srcBase t k = fget lo 31 6 * 64 + 2 ^ 32 * fget value 15 0 ∧
      srcRd t k = srcWr t k ∧ srcWr t k = srcWr (taken s m a) k ∧ (t.stream k).wrPrev = srcWr (taken s m a) k ∧
      RegsBut (taken s m a) t [a - 4, a, a + 4] ∧ t.mem = (taken s m a).mem) ∧
  (∀ (k : Fin 48) (s s' : State) (b : List Nat), srcEn s k = true → s.enabled .audio = true → s.mode.mode ≠ .safe →
    srcRd s k ≠ srcWr s k → lineServes s k = false →
    ownerRead s (streamOwner s k) 0x0E (streamOwner s k == 0x40)
      ((srcBase s k + 4 * srcRd s k) / 64 * 64) 64 = (s', .ok b) →
    ∃ t, exec (.sourceFetch k) s = .next t ∧ t = { s' with audio := t.audio } ∧
      (t.stream k).line = some ((srcBase s k + 4 * srcRd s k) / 64 * 64, srcWr s' k,
        some ((List.range 16).map (fun i => ofLeBytes ((b.drop (4 * i)).take 4)))) ∧
      (∀ j, j ≠ k.val → t.stream j = s'.stream j)) ∧
  (∀ (din : List (BitVec 32)) (s : State), s.enabled .audio = true → s.mode.mode ≠ .held → loadIsShed s = false →
    ∃ t, exec (.sampleBoundary din) s = .next t ∧ t.audio.n = s.audio.n + 1 ∧
      t.pending = s.pending ∧ t.keys = s.keys ∧ t.cfg = s.cfg)

/-- R26, R593, R523, R537: the way into Held and through it. A reset cause takes the device to Held with everything
on the core die at its reset value, and keeps the configuration in force and what Surveyor stores; RESET_IN also
holds there until it is released. Mains power starts a charge with an empty log queue; a charged bus starts
Surveyor, which runs from the bank that its boot block takes, or stays in recovery with none; the rails follow. -/
def Obligations.HeldEntry : Prop :=
  (∀ s : State, s.mode.mode ≠ .held →
    ∃ t, exec .resetToHeld s = .next t ∧ t.mode.mode = .held ∧
      t.mode.prior = s.cyc.modeFrom.getD s.mode.mode ∧ t.regs = [] ∧ t.mem = {} ∧ t.heads = [] ∧ t.rings = [] ∧
      t.fclk = 0 ∧ t.pending = s.pending ∧ t.cfg = s.cfg ∧ t.surv.stored = s.surv.stored ∧
      t.surv.banks = s.surv.banks ∧ t.surv.retired = s.surv.retired ∧ t.log.flash = s.log.flash ∧
      s.log.queue <+: t.log.queue) ∧
  (∀ s : State, s.mode.mode = .held →
    ∃ t, exec .resetToHeld s = .next t ∧ t.mode = s.mode ∧ t.regs = s.regs ∧ t.surv.step = s.surv.step) ∧
  (∀ s : State, ∃ t, exec .resetIn s = .next t ∧ t.mode.mode = .held ∧ t.surv.resetIn = true ∧
    t.surv.step ≠ .stuck ∧ (s.mode.mode ≠ .held → t.regs = [] ∧ t.mem = {})) ∧
  (∀ s : State, ∃ t, exec .resetInDeasserted s = .next t ∧ t = { s with surv := t.surv } ∧
    t.surv = { s.surv with resetIn := false }) ∧
  (∀ s : State, s.mode.mode = .held →
    ∃ t, exec .mainsApplied s = .next t ∧ t.surv.mains = true ∧ t.surv.step = .charging ∧ t.surv.fullNext = true ∧
      t.surv.update = none ∧ t.log.queue = [] ∧ t.log.flash = s.log.flash ∧ t.upTicks = 0 ∧ t.mode = s.mode ∧
      t.regs = s.regs) ∧
  (∀ s : State, s.mode.mode = .held → s.surv.step = .charging → aget 0 s.surv.trial 0 = 0 →
    ∃ t, exec .surveyorStart s = .next t ∧ t.mode = s.mode ∧ t.regs = s.regs ∧ t.upTicks = 0 ∧
      (∀ b, bootBank s 0 = some b → t.surv.step = .surveyorUp ∧ t.surv.runBank = b) ∧
      (bootBank s 0 = none → t.surv.step = .recovery)) ∧
  (∀ s : State, s.mode.mode = .held → s.surv.step = .surveyorUp → s.surv.mains = true →
    ∃ t, exec .railsGood s = .next t ∧ t = { s with surv := { s.surv with step := .railsGood } })

/-- R26, R523, R524, R526, R528, R590, R550, R544: release, and Surveyor's own events. With the rails good, no
RESET_IN and every condition in its range the core die leaves Held for Survey: device time 0, the stored
configuration in force, one more boot counted; else it stays in Held with the failure noted. Reading a console's ID
logs one entry for its port. Surveyor's watchdog takes the device to Held and starts Surveyor again. A trial that
completes ends; one whose third start ended before it falls back to the other bank. -/
def Obligations.ReleaseFromHeld : Prop :=
  (∀ (ppm : Int) (s : State), s.mode.mode = .held → s.surv.step = .railsGood → s.surv.resetIn = false →
    condsOk s ppm = true →
    ∃ t, exec (.bistConditionsCheck ppm) s = .next t ∧ t.mode.mode = .survey ∧ t.mode.prior = .held ∧
      t.surv.step = .bist ∧ t.surv.bootCount = s.surv.bootCount + 1 ∧ t.devtime = 0 ∧ t.cfg = s.surv.stored ∧
      t.mem = {} ∧ RegsBut { cfg := s.surv.stored } t [pageBase .clkpwr + Reg.CLKPWR_SAG_STATUS] ∧ t.pending = s.pending) ∧
  (∀ (ppm : Int) (s : State), s.mode.mode = .held → s.surv.step = .railsGood → s.surv.resetIn = false →
    condsOk s ppm = false →
    ∃ t, exec (.bistConditionsCheck ppm) s = .next t ∧ t.mode = s.mode ∧ t.surv.step = .railsGood ∧
      t.surv.condLogged = true ∧ t.regs = s.regs ∧ t.mem = s.mem) ∧
  (∀ (k : Fin 4) (d : Option (List (BitVec 8))) (s : State), s.mode.mode ≠ .held → s.log.queue.length < 1024 →
    ∃ t e, exec (.consoleIdRead k d) s = .next t ∧ t = { s with log := t.log } ∧ t.log.queue = s.log.queue ++ [e] ∧
      e.kind = .config ∧ e.place = 30 + k.val ∧ e.seq = s.log.nextSeq ∧ e.devtime = s.devtime ∧
      (d = none → e.code = 1) ∧ (∀ b, d = some b → e.code = 0 ∧
        e.data.take 16 = (List.range 16).map (fun i => (b.getD i 0).toNat))) ∧
  (∀ s : State, s.surv.step ≠ .unpowered → s.surv.step ≠ .charging → s.surv.step ≠ .recovery →
    ∃ t, exec .surveyorWatchdog s = .next t ∧ t.mode.mode = .held ∧ t.surv.fullNext = true ∧ t.upTicks = 0 ∧
      t.surv.service = none ∧ t.surv.stored = s.surv.stored ∧ t.surv.banks = s.surv.banks ∧
      (s.surv.step ≠ .stuck → t.surv.step = .charging) ∧ (s.mode.mode ≠ .held → t.regs = [] ∧ t.mem = {})) ∧
  (∀ (comp : Fin 5) (s : State), comp.val ≠ 0 → 2 ≤ aget 0 s.surv.trial comp → s.surv.step = .running →
    ∃ t, exec (.updateTrialEnd comp) s = .next t ∧ t = { s with surv := t.surv } ∧ aget 0 t.surv.trial comp = 0 ∧
      aget 0 t.surv.minSec comp = imgSec (bankBytes s comp (activeBankOf s comp)) ∧
      t.surv.active = s.surv.active) ∧
  (∀ (comp : Fin 5) (s : State), comp.val ≠ 0 → 4 ≤ aget 0 s.surv.trial comp → s.mode.mode = .held →
    s.surv.step = .railsGood →
    ∃ t, exec (.updateTrialEnd comp) s = .next t ∧ aget 0 t.surv.trial comp = 0 ∧
      activeBankOf t comp = otherBankOf s comp ∧ t.surv.minSec = s.surv.minSec)

/-- R525, R526, R527, R530, R543: the steps of Survey. A self-test that fences at most four channels and nothing
fatal leaves the configuration in WORLD and the bays and channels that failed fenced, every other page that comes
into service here READY, and the training next; a fatal unit returns the device to Held for good. Training that
fences at most four channels in all, with a bank to train from, is followed by the end of Survey; without a bank the
device returns to Held for good. -/
def Obligations.SurveySteps : Prop :=
  (∀ (ms : BitVec 16) (s : State), s.mode.mode = .survey → s.surv.step = .bist → (channelsOut s).length ≤ 4 →
    ∃ t, exec (.bistDone [] ms) s = .next t ∧ t.surv.step = .training ∧ t.mode = s.mode ∧
      t.pf .world Reg.WORLD_CORE_CFG 7 0 = s.cfg.hwCores % 256 ∧
      t.pf .world Reg.WORLD_HW_WATERMARK 12 0 = s.cfg.wm % 8192 ∧
      t.pf .dev Reg.DEV_BIST_INFO 15 0 = ms.toNat ∧ t.pf .dev Reg.DEV_BIST_INFO 31 31 = b2n s.surv.full ∧
      (∀ p ∈ bistPages s, t.ready p = true) ∧ t.mem = s.mem) ∧
  (∀ (b : Fin 48) (ms : BitVec 16) (s : State), s.mode.mode = .survey → s.surv.step = .bist →
    (channelsOut s).length ≤ 4 →
    ∃ t, exec (.bistDone [.bay b] ms) s = .next t ∧ t.surv.step = .training ∧ t.fenced (.bay b) = true ∧
      t.pf .dev Reg.DEV_BIST_INFO 30 24 = 1) ∧
  (∀ (ms : BitVec 16) (s : State), s.mode.mode = .survey → s.surv.step = .bist →
    ∃ t, exec (.bistDone [.other] ms) s = .next t ∧ t.mode.mode = .held ∧ t.surv.step = .stuck ∧ t.regs = [] ∧
      t.mem = {}) ∧
  (∀ s : State, s.mode.mode = .survey → s.surv.step = .training → (channelsOut s).length ≤ 4 →
    ∃ t, exec (.dramTrainingDone []) s = .next t ∧
      (bootBank s 4 ≠ none → t.surv.step = .endOfSurvey ∧ t.mode = s.mode ∧ t.mem = s.mem ∧
        ∀ c < 32, s.fenced (.memch c) = false → t.pf (.memch c) Reg.MEMCH_CH_STATUS 1 1 = 1) ∧
      (bootBank s 4 = none → t.mode.mode = .held ∧ t.surv.step = .stuck))

/-- R26, R331, R408, R412, R525, R528, R529, R543: the end of Survey, and the images. The channel map holds the
channels that passed, the core split and the watermark are locked, the memory pages that are not fenced are READY
and the map's channels active, the memory is to be read as zero until it is written, and the mode is Native, Legacy
or Degraded as the profile and the fenced units say. Where both of its banks are invalid WORLD fault bit 3 is set;
where its active bank passes every check and its manifest is accepted, its measurement starts. -/
def Obligations.SurveyEnds : Prop :=
  (∀ s : State, s.mode.mode = .survey → s.surv.step = .endOfSurvey →
    ∃ t, exec .surveyEnd s = .next t ∧ t.surv.step = .running ∧ t.mode.mode = modeAfterSurvey s ∧
      t.mode.prior = s.cyc.modeFrom.getD .survey ∧ fbit (t.hd .dev .irqStatus) 0 = true ∧
      t.pf .world Reg.WORLD_CORE_CFG 31 31 = 1 ∧ t.pf .world Reg.WORLD_HW_WATERMARK 31 31 = 1 ∧
      t.pr .memctl Reg.MEMCTL_CHAN_MAP = w32 (maskOf 32 (fun c => !s.fenced (.memch c))) ∧
      (∀ p ∈ memPages, s.fenced p = false → t.ready p = true) ∧ t.mem.initOn = true ∧ t.mem.cells = s.mem.cells ∧
      t.surv.dpPwr = true) ∧
  (∀ s : State, s.surv.step = .running → s.surv.hwLoaded = false → s.cpx.step = .idle → s.mode.mode ≠ .safe →
    s.surv.hwTried = [] → activeBankOf s 1 ≤ 1 →
    ∃ t, exec .imageLoadDone s = .next t ∧
      (bankValid s 1 0 = false → bankValid s 1 1 = false → fbit (t.hd .world .faultStatus) 3 = true) ∧
      (bankValid s 1 (activeBankOf s 1) = true → manifestOk s (bankBytes s 1 (activeBankOf s 1)) = true →
        t.cpx.step = .measure))

/-- R17, R532, R533, R535: sensors and the graphics clock. A sample gives Surveyor each reading and the thermal step
that the hottest die site asks for; a higher step sets CLKPWR fault bit 1, a trip temperature fault bit 4, and with
neither no register changes. The step of GCLK follows the strictest limit, with the limits that ask for it shown and
an event where the step differs. -/
def Obligations.SensorsAndClock : Prop :=
  (∀ (values : List (BitVec 16)) (s : State), s.surv.step ≠ .unpowered → s.surv.step ≠ .charging →
    s.surv.step ≠ .recovery → s.mode.mode ≠ .held →
    let read (k : Nat) : Int := sext (values.getD k 0).toNat 16
    let hot := (List.range 8).foldl (fun (acc : Int) k => max acc (read k)) (read 0)
    let dram := (List.range 4).foldl (fun (acc : Int) k => max acc (read (8 + k))) (read 8)
    ∃ t u, exec (.sensorSample values) s = .next t ∧ u = { s with surv := u.surv } ∧
      (∀ k < 45, sensor u k = read k) ∧ u.surv.bulk = (values.getD 38 0).toNat ∧
      u.surv.thermal = thermalStep s.surv.thermal hot ∧
      u.surv.fanLost = s.surv.fanLost.filter (fun k => decide (read (40 + k) < 1000)) ∧ FaultParts u t ∧
      (u.surv.thermal ≤ s.surv.thermal → hot < 880 → dram < 840 → t = u) ∧
      (s.surv.thermal < u.surv.thermal → fbit (t.hd .clkpwr .faultStatus) 1 = true) ∧
      (880 ≤ hot ∨ 840 ≤ dram → fbit (t.hd .clkpwr .faultStatus) 4 = true)) ∧
  (∀ s : State, s.mode.mode ≠ .held →
    let step := (gclkLimits s).foldl max 0
    let by' := if step = 0 then 0 else maskOf 4 (fun k => (gclkLimits s).getD k 0 == step)
    let w := w32 (by' * 256 + step)
    w ≠ s.pr .clkpwr Reg.CLKPWR_GCLK_STATUS →
    ∃ t, exec .gclkStepChange s = .next t ∧ t = { s with regs := t.regs, cyc := t.cyc } ∧
      t.pr .clkpwr Reg.CLKPWR_GCLK_STATUS = w ∧
      (s.pf .clkpwr Reg.CLKPWR_GCLK_STATUS 1 0 ≠ step → fbit (t.hd .clkpwr .irqStatus) 0 = true) ∧
      RegsBut s t [pageBase .clkpwr + Reg.CLKPWR_GCLK_STATUS, hadr .clkpwr .irqStatus])

/-- R534, R536: fans and sags. The first fan lost sets CLKPWR fault bit 2, the second bit 3. A first sag condition
begins a sag with at least step 2, counts it and reports it with fault bit 0; a further one only joins it; 100 µs
later the step is 3; a condition that clears leaves the others, and 10 ms after the last one cleared the limit ends. -/
def Obligations.FansAndSags : Prop :=
  (∀ (k : Fin 2) (s : State), s.surv.fanLost = [] → s.mode.mode ≠ .held →
    ∃ t, exec (.fanLost k) s = .next t ∧ fbit (t.hd .clkpwr .faultStatus) 2 = true ∧ FaultParts s t) ∧
  (∀ (k j : Fin 2) (s : State), s.surv.fanLost = [j.val] → k ≠ j → s.mode.mode ≠ .held →
    ∃ t, exec (.fanLost k) s = .next t ∧ fbit (t.hd .clkpwr .faultStatus) 3 = true ∧ FaultParts s t) ∧
  (∀ (cond : Fin 3) (s : State), s.surv.sagOn = [] → s.mode.mode ≠ .held →
    ∃ t u, exec (.sagOnset cond) s = .next t ∧ u = { s with surv := u.surv } ∧ u.surv.sagOn = [cond.val] ∧
      u.surv.sagStep = max 2 s.surv.sagStep ∧ u.surv.sagAt = s.uptimeUs ∧
      (cond.val = 0 → u.surv.acLowAt = some s.uptimeUs) ∧ FaultParts u t ∧
      fbit (t.hd .clkpwr .faultStatus) 0 = true ∧ fbit (t.hd .clkpwr .irqStatus) 1 = true) ∧
  (∀ (cond : Fin 3) (s : State), s.surv.sagOn ≠ [] → cond.val ∉ s.surv.sagOn → s.mode.mode ≠ .held →
    ∃ t, exec (.sagOnset cond) s = .next t ∧ t = { s with regs := t.regs, surv := t.surv } ∧
      t.surv.sagOn = s.surv.sagOn ++ [cond.val] ∧ t.surv.sagStep = s.surv.sagStep ∧
      bit (t.pf .clkpwr Reg.CLKPWR_SAG_STATUS 2 0) cond.val = true ∧
      RegsBut s t [pageBase .clkpwr + Reg.CLKPWR_SAG_STATUS]) ∧
  (∀ s : State, s.surv.sagOn ≠ [] → s.surv.sagAt + 100 ≤ s.uptimeUs → s.mode.mode ≠ .held →
    ∃ t, exec .sagEscalate s = .next t ∧ t = { s with regs := t.regs, surv := { s.surv with sagStep := 3 } } ∧
      t.pf .clkpwr Reg.CLKPWR_SAG_STATUS 4 3 = 2 ∧ RegsBut s t [pageBase .clkpwr + Reg.CLKPWR_SAG_STATUS]) ∧
  (∀ (cond : Fin 3) (s : State), cond.val ∈ s.surv.sagOn → s.mode.mode ≠ .held →
    ∃ t, exec (.sagClear cond) s = .next t ∧ t = { s with regs := t.regs, surv := t.surv } ∧
      cond.val ∉ t.surv.sagOn ∧ (∀ k, k ≠ cond.val → (k ∈ t.surv.sagOn ↔ k ∈ s.surv.sagOn)) ∧
      t.surv.sagClearAt = s.uptimeUs ∧ t.surv.sagStep = s.surv.sagStep ∧
      RegsBut s t [pageBase .clkpwr + Reg.CLKPWR_SAG_STATUS]) ∧
  (∀ (cond : Fin 3) (s : State), s.surv.sagOn = [] → s.surv.sagStep ≠ 0 →
    s.surv.sagClearAt + 10000 ≤ s.uptimeUs → s.mode.mode ≠ .held →
    ∃ t, exec (.sagClear cond) s = .next t ∧ t = { s with regs := t.regs, surv := { s.surv with sagStep := 0 } } ∧
      RegsBut s t [pageBase .clkpwr + Reg.CLKPWR_SAG_STATUS])

/-- R537, R538, R539: loss of mains and flash. After 20 ms of AC_LOW the load is shed: CLKPWR fault bit 5, no jobs,
no DP_PWR, memory as it was; the device then enters Held once the log is committed and the bus falls or mains is
back. A page program with enough energy commits the four oldest entries of the queue to flash; without it the
program is deferred, once, with the queue kept, and a retry with enough energy commits. -/
def Obligations.MainsLoss : Prop :=
  (∀ (t0 : Nat) (s : State), s.surv.acLowAt = some t0 → s.mode.mode ≠ .held → loadIsShed s = false →
    t0 + 20000 ≤ s.uptimeUs →
    ∃ t, exec .loadShed s = .next t ∧ t.surv.step = .shed ∧ t.surv.dpPwr = false ∧ t.sched.jobs = [] ∧
      t.pf .sched Reg.SCHED_JOBS 10 0 = 0 ∧ fbit (t.hd .clkpwr .faultStatus) 5 = true ∧ t.safe.relay = false ∧
      t.mem = s.mem) ∧
  (∀ (bulk rail12 : BitVec 16) (ac : Bool) (s : State), loadIsShed s = true → s.log.queue = [] →
    bulk.toNat < 2600 ∨ rail12.toNat < 11000 ∨ ac = true →
    ∃ t, exec (.holdupHeld bulk rail12 ac) s = .next t ∧ t.mode.mode = .held ∧
      t.surv.step = (if ac then .railsGood else .surveyorUp) ∧ t.surv.mains = (s.surv.mains && ac) ∧
      (s.mode.mode ≠ .held → t.regs = [] ∧ t.mem = {})) ∧
  (∀ (bulk : BitVec 16) (s : State), s.log.queue ≠ [] → s.surv.step ≠ .unpowered → s.surv.step ≠ .charging →
    s.log.flash.length + 4 ≤ 32768 → s.surv.deferred = false →
    energyOk { s with surv := { s.surv with bulk := bulk.toNat } } 100 = true →
    ∃ t, exec (.flashOperation bulk) s = .next t ∧ t = { s with log := t.log, surv := t.surv } ∧
      t.log.queue = s.log.queue.drop 4 ∧ t.log.flash = s.log.flash ++ s.log.queue.take 4 ∧
      t.log.nextSeq = s.log.nextSeq ∧ t.surv.bulk = bulk.toNat) ∧
  (∀ (bulk : BitVec 16) (s : State), s.log.queue ≠ [] → s.surv.step ≠ .unpowered → s.surv.step ≠ .charging →
    s.surv.deferred = false → energyOk { s with surv := { s.surv with bulk := bulk.toNat } } 100 = false →
    ∃ t, exec (.flashOperation bulk) s = .next t ∧ t.surv.deferred = true ∧ s.log.queue <+: t.log.queue ∧
      t.log.flash = s.log.flash ∧ t.regs = s.regs ∧ t.mem = s.mem) ∧
  (∀ (bulk : BitVec 16) (e : LogEntry) (rest : List LogEntry) (s : State), s.surv.deferred = true →
    s.log.queue = e :: rest → s.log.flash.length + 4 ≤ 32768 →
    energyOk { s with surv := { s.surv with bulk := bulk.toNat } } 100 = true →
    ∃ t, exec (.flashDeferRetry bulk) s = .next t ∧ t.surv.deferred = false ∧
      t.log.queue = s.log.queue.drop 4 ∧ t.log.flash = s.log.flash ++ { e with deferral := true } :: rest.take 3)

/-- R535, R540, R587: telemetry, the power of units, and DP_PWR. A record in service is written at its slot of the
buffer, with nothing else of memory changed, and its sequence number advances. A write of UNIT_CTRL that the rules
allow is in force for the selected unit, and one that powers it off or holds it leaves its pages that are not fenced
not READY. A receptacle on overload is switched off until its retry. -/
def Obligations.TelemetryAndPower : Prop :=
  (∀ s : State, s.surv.telemetry.en = true → s.mode.mode ≠ .held → s.surv.telemetry.count ≠ 0 →
    let tl := s.surv.telemetry
    ∃ t, exec .telemetryRecord s = .next t ∧ StoreParts s t ∧
      t.mem = (busWrite s 0x19 (tl.owner == 0x40) (tl.base + 4096 * (tl.seq % tl.count)) (telemetryBytes s)).1.mem ∧
      BytesBut s t (Stored (tl.base + 4096 * (tl.seq % tl.count)) (telemetryBytes s).length) ∧
      t.surv.telemetry = { tl with seq := (tl.seq + 1) % 2 ^ 32 }) ∧
  (∀ (m : Master) (value : Word) (u : Nat) (s : State), let a := pageBase .clkpwr + Reg.CLKPWR_UNIT_CTRL
    Accepts s m a → unitOf (taken s m a) = some u → unitCheck (taken s m a) value = none →
    ∃ t, exec (.unitCtrlWrite m value) s = .next t ∧ aget 0 t.surv.units u = fget value 2 0 ∧
      (fget value 2 0 ≠ 0 → ∀ p ∈ unitPages u, (taken s m a).fenced p = false → t.ready p = false) ∧
      (fget value 2 0 ≠ 0 → t.mem = (taken s m a).mem)) ∧
  (∀ (n : Fin 12) (s : State), s.surv.dpPwr = true → n.val ∉ s.surv.dpOff →
    ∃ t, exec (.dpPwrOvercurrent n) s = .next t ∧ t = { s with log := t.log, surv := t.surv } ∧
      t.surv = { s.surv with dpOff := s.surv.dpOff ++ [n.val] } ∧
      (aget 0 s.log.limitAt (3200 + n.val) = 0 → s.log.queue.length < 1024 →
        ∃ e, t.log.queue = s.log.queue ++ [e] ∧ e.kind = .power ∧ e.place = 10 + n.val)) ∧
  (∀ (n : Fin 12) (s : State),
    ∃ t, exec (.dpPwrRetry n) s = .next t ∧ t = { s with surv := t.surv } ∧ n.val ∉ t.surv.dpOff ∧
      (∀ k, k ≠ n.val → (k ∈ t.surv.dpOff ↔ k ∈ s.surv.dpOff)))

/-- R545, R546, R547, R549: the mailbox. MB_REQ with GO that the rules allow leaves the slot busy with the length
written. The end of a request puts the response in the slot's buffer with its length, clears BUSY and reports
itself; a request whose CMD is none of the spec's is answered BAD_CMD. A command on a path that may not send it is
answered DENIED, one whose arguments are not whole BAD_LEN, and neither has another effect. A frame of the service
port whose check value is wrong is dropped. -/
def Obligations.MailboxSlots : Prop :=
  (∀ (m : Master) (k : Fin 4) (value : Word) (s : State), let a := pageBase .surveyorMb + slotOff k 0
    Accepts s m a → slotBusy (taken s m a) k = false → 8 ≤ fget value 8 0 → fget value 8 0 ≤ 256 →
    ∃ t, exec (.mbReqGo m k value) s = .next t ∧ t = { taken s m a with regs := t.regs, cyc := t.cyc } ∧
      slotBusy t k = true ∧ t.pf .surveyorMb (slotOff k 0) 8 0 = fget value 8 0 ∧
      RegsBut (taken s m a) t [a, pageBase .surveyorMb + slotOff k 4]) ∧
  (∀ (k : Fin 4) (r : List Nat) (s : State), s.mode.mode ≠ .held → slotBusy s k = true →
    aget none s.surv.replies k = some r → r.length ≤ 256 → s.surv.resetAfter ≠ some k.val →
    ∃ t, exec (.mailboxDone k) s = .next t ∧ t = { s with regs := t.regs, cyc := t.cyc, surv := t.surv } ∧
      slotBusy t k = false ∧ t.pr .surveyorMb (slotOff k 4) = w32 r.length ∧
      (∀ i < cdiv r.length 4, t.pr .surveyorMb (slotOff k (0x200 + 4 * i)) = w32 (arg r (4 * i) 4)) ∧
      fbit (t.hd .surveyorMb .irqStatus) k = true ∧ aget none t.surv.replies k = none ∧
      RegsBut s t (hadr .surveyorMb .irqStatus :: (pageBase .surveyorMb + slotOff k 4) ::
        (List.range 64).map (fun i => pageBase .surveyorMb + slotOff k (0x200 + 4 * i)))) ∧
  (∀ (k : Fin 4) (s : State), s.mode.mode ≠ .held → slotBusy s k = true → aget none s.surv.replies k = none →
    s.surv.resetAfter ≠ some k.val → (slotRequest s k).getD 0 256 ∉ mbCmds →
    ∃ t, exec (.mailboxDone k) s = .next t ∧ slotBusy t k = false ∧ t.pr .surveyorMb (slotOff k 4) = 8 ∧
      fget (t.pr .surveyorMb (slotOff k 0x200)) 15 8 = 1 ∧ fbit (t.hd .surveyorMb .irqStatus) k = true) ∧
  (∀ (k : Fin 4) (r : List Nat) (s : State), s.mode.mode ≠ .held → slotBusy s k = true →
    aget none s.surv.replies k = some r → s.surv.resetAfter = some k.val →
    ∃ t, exec (.mailboxDone k) s = .next t ∧ t.mode.mode = .held ∧ t.regs = [] ∧ t.mem = {}) ∧
  (∀ (p : MbPath) (s : State), Asked s p 0x21 0 → pathWho p = .p ∨ pathWho p = .sap →
    ∃ t, exec (.configWrite p) s = .next t ∧ OnlyReplied s t ∧ Replied s t p 3 0 []) ∧
  (∀ (p : MbPath) (s : State), Asked s p 0x21 0 → pathWho p = .h ∨ pathWho p = .v → (argsOf s p).length < 64 →
    ∃ t, exec (.configWrite p) s = .next t ∧ OnlyReplied s t ∧ Replied s t p 2 0 []) ∧
  (∀ s : State, exec .slipFrameBadCrc s = .next s)

/-- R528, R532, R539, R544, R548: what Surveyor reads out. GET_INFO, READ_SENSORS, LOG_READ, LOG_STATUS,
CONFIG_READ, RETIRE_READ and SHIM_READ that are permitted and in range are answered OK with the data that the spec
lists, and change nothing but the response. -/
def Obligations.MailboxReads : Prop :=
  (∀ (p : MbPath) (s : State), Asked s p 0x01 0 →
    ∃ t d, exec (.getInfo p) s = .next t ∧ OnlyReplied s t ∧ Replied s t p 0 0 d ∧ d.length = 158 ∧
      d.drop 94 = cfgBytes s.cfg ∧ (d.drop 90).take 4 = leBytes 4 s.surv.bootCount) ∧
  (∀ (p : MbPath) (s : State), Asked s p 0x02 2 → arg (argsOf s p) 0 1 + arg (argsOf s p) 1 1 ≤ 45 →
    ∃ t, exec (.readSensors p) s = .next t ∧ OnlyReplied s t ∧
      Replied s t p 0 0 ((List.range (arg (argsOf s p) 1 1)).flatMap (fun i =>
        leBytes 2 (toField (sensor s (arg (argsOf s p) 0 1 + i)) 16)))) ∧
  (∀ (p : MbPath) (s : State), Asked s p 0x02 2 → 45 < arg (argsOf s p) 0 1 + arg (argsOf s p) 1 1 →
    ∃ t, exec (.readSensors p) s = .next t ∧ OnlyReplied s t ∧ Replied s t p 7 0 []) ∧
  (∀ (p : MbPath) (s : State), Asked s p 0x03 5 → 1 ≤ arg (argsOf s p) 4 1 → arg (argsOf s p) 4 1 ≤ 3 →
    let es := ((logSeen s).filter (fun e => decide (arg (argsOf s p) 0 4 ≤ e.seq))).take (arg (argsOf s p) 4 1)
    ∃ t, exec (.logRead p) s = .next t ∧ OnlyReplied s t ∧ Replied s t p 0 es.length (es.flatMap entryBytes)) ∧
  (∀ (p : MbPath) (a b : LogEntry) (s : State), Asked s p 0x04 0 → (logSeen s).head? = some a →
    (logSeen s).getLast? = some b →
    ∃ t, exec (.logStatus p) s = .next t ∧ OnlyReplied s t ∧
      Replied s t p 0 0 (leBytes 4 a.seq ++ leBytes 4 b.seq ++ leBytes 4 s.log.queue.length ++
        leBytes 4 s.log.lost)) ∧
  (∀ (p : MbPath) (s : State), Asked s p 0x04 0 → logSeen s = [] →
    ∃ t a b, exec (.logStatus p) s = .next t ∧ OnlyReplied { s with fresh := s.fresh + 2 } t ∧
      Replied s t p 0 0 (leBytes 4 a ++ leBytes 4 b ++ leBytes 4 s.log.queue.length ++ leBytes 4 s.log.lost)) ∧
  (∀ (p : MbPath) (s : State), Asked s p 0x20 1 → arg (argsOf s p) 0 1 ≤ 1 →
    ∃ t, exec (.configRead p) s = .next t ∧ OnlyReplied s t ∧
      Replied s t p 0 0 (cfgBytes (if arg (argsOf s p) 0 1 = 0 then s.cfg else s.surv.stored))) ∧
  (∀ (p : MbPath) (s : State), Asked s p 0x30 5 → arg (argsOf s p) 4 1 ≤ 30 →
    ∃ t, exec (.retireRead p) s = .next t ∧ OnlyReplied s t ∧
      Replied s t p 0 0 (((s.surv.retired.drop (arg (argsOf s p) 0 4)).take (arg (argsOf s p) 4 1)).flatMap
        (leBytes 8))) ∧
  (∀ (p : MbPath) (s : State), Asked s p 0x32 0 →
    ∃ t, exec (.shimRead p) s = .next t ∧ OnlyReplied s t ∧
      Replied s t p 0 0 ((List.range 32).flatMap (fun k =>
        leBytes 4 (if aget 0 s.surv.shims k = 0 then 0 else 2 ^ 31 + (aget 0 s.surv.shims k - 1)))))

/-- R528, R537, R540, R547, R548, R519: what Surveyor takes in. CONFIG_WRITE stores a record that passes its checks
when the energy is there, answers RANGE to one that does not, and leaves the configuration in force; TELEMETRY_CFG
starts or stops the writer with the rights of its path; RETIRE_ADD adds the pages that are not listed yet and counts
them; INJECT_ENABLE lets FAULT_INJECT be written; RESET is answered and then takes the device to Held. -/
def Obligations.MailboxWrites : Prop :=
  (∀ (p : MbPath) (s : State), Asked s p 0x21 64 → pathWho p = .h ∨ pathWho p = .v →
    cfgOk s (argsOf s p) = true → energyOk s 300 = true →
    ∃ t, exec (.configWrite p) s = .next t ∧ t = { s with surv := t.surv } ∧ t.surv.stored = cfgOf (argsOf s p) ∧
      t.cfg = s.cfg ∧ Replied s t p 0 0 []) ∧
  (∀ (p : MbPath) (s : State), Asked s p 0x21 64 → pathWho p = .h ∨ pathWho p = .v →
    cfgOk s (argsOf s p) = false →
    ∃ t, exec (.configWrite p) s = .next t ∧ OnlyReplied s t ∧ Replied s t p 7 0 []) ∧
  (∀ (p : MbPath) (s : State), Asked s p 0x21 64 → pathWho p = .h ∨ pathWho p = .v →
    cfgOk s (argsOf s p) = true → energyOk s 300 = false →
    ∃ t, exec (.configWrite p) s = .next t ∧ OnlyReplied s t ∧ Replied s t p 5 0 []) ∧
  (∀ (p : MbPath) (s : State), Asked s p 0x05 13 → pathWho p = .h ∨ pathWho p = .v →
    arg (argsOf s p) 12 1 ≠ 0 → arg (argsOf s p) 8 4 ≠ 0 →
    ∃ t, exec (.telemetryCfg p) s = .next t ∧ t = { s with surv := t.surv } ∧ Replied s t p 0 0 [] ∧
      t.surv.telemetry = { base := arg (argsOf s p) 0 8, count := arg (argsOf s p) 8 4, en := true, seq := 0, owner := pathOwner p }) ∧
  (∀ (p : MbPath) (s : State), Asked s p 0x31 1 → pathWho p ≠ .p → arg (argsOf s p) 0 1 ≤ 30 →
    1 + 8 * arg (argsOf s p) 0 1 ≤ (argsOf s p).length → energyOk s 300 = true →
    let pages := (List.range (arg (argsOf s p) 0 1)).map (fun i => arg (argsOf s p) (1 + 8 * i) 8)
    let new := pages.eraseDups.filter (fun x => !s.surv.retired.contains x)
    s.surv.retired.length + new.length ≤ 4096 →
    ∃ t, exec (.retireAdd p) s = .next t ∧ t = { s with surv := t.surv } ∧
      t.surv.retired = s.surv.retired ++ new ∧ Replied s t p 0 new.length []) ∧
  (∀ (r : List (BitVec 8)) (s : State), Asked s (.service r) 0x41 0 → s.mode.mode ≠ .held →
    ∃ t, exec (.injectEnable (.service r)) s = .next t ∧ t = { s with regs := t.regs, surv := t.surv } ∧
      t.pf .dev Reg.DEV_INJECT 0 0 = 1 ∧ Replied s t (.service r) 0 0 [] ∧
      RegsBut s t [pageBase .dev + Reg.DEV_INJECT]) ∧
  (∀ (k : Fin 4) (s : State), Asked s (.slot k) 0x40 0 → k.val < 3 →
    ∃ t, exec (.reset (.slot k)) s = .next t ∧ t = { s with surv := t.surv } ∧ t.surv.resetAfter = some k.val ∧
      Replied s t (.slot k) 0 0 []) ∧
  (∀ (r : List (BitVec 8)) (s : State), Asked s (.service r) 0x40 0 →
    ∃ t, exec (.reset (.service r)) s = .next t ∧ t.mode.mode = .held ∧ Replied s t (.service r) 0 0 [] ∧
      (s.mode.mode ≠ .held → t.regs = [] ∧ t.mem = {}))

/-- R537, R541, R544, R548: updates. UPDATE_BEGIN of a size that the bank holds starts an update of the inactive
bank; UPDATE_DATA in order and with the energy there programs its bytes behind erased ones; UPDATE_END ends the
update and answers whether the bank passes its checks; UPDATE_ACTIVATE makes a bank that passes them active, on
trial; an update idle for 60 s is abandoned and its bank marked invalid. -/
def Obligations.Updates : Prop :=
  (∀ (p : MbPath) (s : State), Asked s p 0x10 5 → pathWho p ≠ .sap → s.surv.update = none →
    arg (argsOf s p) 0 1 ≤ 4 → 1024 ≤ arg (argsOf s p) 1 4 →
    arg (argsOf s p) 1 4 ≤ bankSize (arg (argsOf s p) 0 1) →
    ∃ t, exec (.updateBegin p) s = .next t ∧ t = { s with surv := t.surv } ∧ Replied s t p 0 0 [] ∧
      t.surv.update = some ⟨arg (argsOf s p) 0 1, arg (argsOf s p) 1 4, 0, pathNo p, s.uptimeUs⟩) ∧
  (∀ (p : MbPath) (u : UpdateSt) (s : State), Asked s p 0x11 5 → pathWho p ≠ .sap → s.surv.update = some u →
    u.path = pathNo p → 5 + arg (argsOf s p) 4 1 ≤ (argsOf s p).length → arg (argsOf s p) 4 1 ≤ 240 →
    u.next ≤ arg (argsOf s p) 0 4 → arg (argsOf s p) 0 4 + arg (argsOf s p) 4 1 ≤ u.size →
    energyOk s 100 = true →
    ∃ t, exec (.updateData p) s = .next t ∧ t = { s with surv := t.surv } ∧ Replied s t p 0 0 [] ∧
      t.surv.update = some { u with next := arg (argsOf s p) 0 4 + arg (argsOf s p) 4 1, lastUs := s.uptimeUs } ∧
      (bankOf t u.comp (otherBankOf s u.comp)).invalid = true ∧
      ((bankBytes t u.comp (otherBankOf s u.comp)).drop (arg (argsOf s p) 0 4)).take (arg (argsOf s p) 4 1) =
        ((argsOf s p).drop 5).take (arg (argsOf s p) 4 1)) ∧
  (∀ (p : MbPath) (u : UpdateSt) (s : State), Asked s p 0x12 0 → pathWho p ≠ .sap → s.surv.update = some u →
    u.path = pathNo p →
    let c := updateCheck s u.comp
    ∃ t, exec (.updateEnd p) s = .next t ∧ t = { s with fresh := t.fresh, surv := t.surv } ∧
      t.surv.update = none ∧ (bankOf t u.comp (otherBankOf s u.comp)).invalid = (c != 0) ∧
      (c = 0 → Replied s t p 0 0 []) ∧ (c ≠ 0 → c ≠ 6 → Replied s t p 6 c []) ∧
      (c = 6 → ∃ v, Replied s t p 6 v [])) ∧
  (∀ (p : MbPath) (s : State), let comp := arg (argsOf s p) 0 1
    Asked s p 0x13 1 → pathWho p ≠ .sap → s.surv.update = none → comp ≤ 4 → energyOk s 300 = true →
    ∃ t, exec (.updateActivate p) s = .next t ∧ t = { s with fresh := t.fresh, surv := t.surv } ∧
      ((bankOf s comp (otherBankOf s comp)).invalid = true → Replied s t p 6 1 [] ∧ t.surv.active = s.surv.active) ∧
      ((bankOf s comp (otherBankOf s comp)).invalid = false → updateCheck s comp = 0 →
        activeBankOf t comp = otherBankOf s comp ∧ aget 0 t.surv.trial comp = 1 ∧ Replied s t p 0 0 [])) ∧
  (∀ (u : UpdateSt) (s : State), s.surv.update = some u → u.lastUs + 60000000 ≤ s.uptimeUs →
    ∃ t, exec .updateIdleTimeout s = .next t ∧ t = { s with log := t.log, surv := t.surv } ∧
      t.surv.update = none ∧ (bankOf t u.comp (otherBankOf s u.comp)).invalid = true)

/-- R549: the service port's MCTP and PLDM commands, while Surveyor runs. Each is answered and changes nothing but
the answer, the endpoint id where SET_ENDPOINT_ID gives a usable one, and the count of values that the spec leaves
open. (The formats are the model's own choice from MCTP and PLDM, which the spec names: log entry 31.) -/
def Obligations.ServicePort : Prop :=
  ∀ s : State, s.surv.step ≠ .unpowered → s.surv.step ≠ .charging →
    (∀ eid : BitVec 8, eid ≠ 0 → eid ≠ 0xFF → ∃ t, exec (.setEndpointId eid) s = .next t ∧
      t = { s with surv := { s.surv with eid := eid.toNat, service := some [0, 0, eid.toNat, 0] } }) ∧
    (∃ t, exec .getEndpointId s = .next t ∧
      t = { s with surv := { s.surv with service := some [0, s.surv.eid, 0, 0] } }) ∧
    (∃ t v, exec .getMctpVersionSupport s = .next t ∧
      t = { s with fresh := s.fresh + 1, surv := { s.surv with service := some ([0, 1] ++ leBytes 4 v) } }) ∧
    (∃ t, exec .getMessageTypeSupport s = .next t ∧
      t = { s with surv := { s.surv with service := some [0, 2, 0x01, 0x7E] } }) ∧
    (∃ t v, exec .gettid s = .next t ∧
      t = { s with fresh := s.fresh + 1, surv := { s.surv with service := some [0, v % 256] } }) ∧
    (∃ t v c, exec .getpldmversion s = .next t ∧ t = { s with
      fresh := s.fresh + 2
      surv := { s.surv with service := some ([0] ++ leBytes 4 0 ++ [5] ++ leBytes 4 v ++ leBytes 4 c) } }) ∧
    (∃ t, exec .getpldmtypes s = .next t ∧
      t = { s with surv := { s.surv with service := some ([0] ++ leBytes 8 5) } }) ∧
    (∀ type : BitVec 8, ∃ t, exec (.getpldmcommands type) s = .next t ∧ t = { s with surv := { s.surv with
      service := some (if type = 0 then [0] ++ leBytes 32 (2 ^ 2 + 2 ^ 3 + 2 ^ 4 + 2 ^ 5)
        else if type = 2 then [0] ++ leBytes 32 (2 ^ 0x11 + 2 ^ 0x51) else [0x83]) } }) ∧
    (∀ h : Word, h.toNat ≤ 45 → ∃ t b, exec (.getpdr h) s = .next t ∧
      t = { s with surv := { s.surv with service := some b } } ∧ b.take 5 =
        [0] ++ leBytes 4 (if h.toNat = 45 then 0 else max h.toNat 1 + 1)) ∧
    (∀ id : BitVec 16, id.toNat < 45 → ∃ t v, exec (.getsensorreading id) s = .next t ∧
      t = { s with
        fresh := s.fresh + 1
        surv := { s.surv with
          service := some ([0, 3, 0, 0] ++ leBytes 3 v ++ leBytes 2 (toField (sensor s id.toNat) 16)) } })
end

