-- ==== Sys2Proof/Laws/Assoc.lean ====
section
/-!
SUPPORT. Laws/Assoc.lean: what a sparse store reads after a write, that a write keeps the canonical form, and what
bit fields read after a field is written.
-/
namespace Sys2Proof.Machine

/-! Sparse stores. -/

theorem aget_adel_same {α : Type} (d : α) (m : Assoc α) (k : Nat) : aget d (adel m k) k = d := by
  induction m with
  | nil => rfl
  | cons e r ih =>
    obtain ⟨k', v⟩ := e
    by_cases h : k' = k
    · simpa [adel, h] using ih
    · simpa [adel, aget, h] using ih

theorem aget_adel_ne {α : Type} (d : α) (m : Assoc α) {k j : Nat} (h : j ≠ k) :
    aget d (adel m k) j = aget d m j := by
  induction m with
  | nil => rfl
  | cons e r ih =>
    obtain ⟨k', v⟩ := e
    by_cases hk : k' = k
    · have : ¬ k = j := fun e => h e.symm
      simpa [adel, aget, hk, this] using ih
    · by_cases hj : k' = j
      · subst hj
        simp [adel, aget, hk]
      · simpa [adel, aget, hk, hj] using ih

theorem aget_ains_same {α : Type} (d : α) (m : Assoc α) (k : Nat) (v : α)
    (h : aget d (adel m k) k = d) (hm : adel m k = m) : aget d (ains k v m) k = v := by
  induction m with
  | nil => simp [ains, aget]
  | cons e r ih =>
    obtain ⟨k', v'⟩ := e
    have hne : k' ≠ k := by
      intro he
      have := congrArg List.length hm
      have hl := List.length_filter_le (fun e : Nat × α => e.1 != k) r
      simp [adel, he] at this
      omega
    have hr : adel r k = r := by simpa [adel, hne] using hm
    by_cases hlt : k < k'
    · simp [ains, hlt, aget]
    · simp only [ains, hlt, if_false, aget, hne]
      exact ih (aget_adel_same d r k) hr

theorem aget_ains_ne {α : Type} (d : α) (m : Assoc α) {k j : Nat} (v : α) (h : j ≠ k) :
    aget d (ains k v m) j = aget d m j := by
  induction m with
  | nil => simp [ains, aget, Ne.symm h]
  | cons e r ih =>
    obtain ⟨k', v'⟩ := e
    by_cases hlt : k < k'
    · simp [ains, hlt, aget, Ne.symm h]
    · by_cases hj : k' = j
      · subst hj
        simp [ains, hlt, aget]
      · simpa [ains, hlt, aget, hj] using ih

theorem adel_adel {α : Type} (m : Assoc α) (k : Nat) : adel (adel m k) k = adel m k := by
  simp [adel, List.filter_filter]

/-- A key reads as the value written to it. -/
@[simp] theorem aget_aset {α : Type} [DecidableEq α] (d : α) (m : Assoc α) (k : Nat) (v : α) :
    aget d (aset d m k v) k = v := by
  by_cases h : v = d
  · simp [aset, h, aget_adel_same]
  · simp only [aset, h, if_false]
    exact aget_ains_same d _ k v (aget_adel_same d _ k) (adel_adel m k)

/-- Every other key reads as before. -/
theorem aget_aset_ne {α : Type} [DecidableEq α] (d d' : α) (m : Assoc α) {k j : Nat} (v : α) (h : j ≠ k) :
    aget d' (aset d m k v) j = aget d' m j := by
  by_cases hv : v = d
  · simp [aset, hv, aget_adel_ne _ _ h]
  · simp [aset, hv, aget_ains_ne _ _ _ h, aget_adel_ne _ _ h]

/-- What any key reads after a write. -/
theorem aget_aset_cases {α : Type} [DecidableEq α] (d : α) (m : Assoc α) (k j : Nat) (v : α) :
    aget d (aset d m k v) j = if j = k then v else aget d m j := by
  by_cases h : j = k
  · subst h; simp
  · simp [h, aget_aset_ne d d m v h]

/-! The canonical form. -/

/-- Every key of a store lies above k. -/
def aabove {α : Type} (k : Nat) (m : Assoc α) : Bool := m.all (fun e => decide (k < e.1))

theorem akeysRise_cons {α : Type} (e : Nat × α) (r : Assoc α) :
    akeysRise (e :: r) = true ↔ aabove e.1 r = true ∧ akeysRise r = true := by
  induction r generalizing e with
  | nil => simp [akeysRise, aabove]
  | cons f r ih =>
    simp only [akeysRise, Bool.and_eq_true, decide_eq_true_eq, ih f, aabove, List.all_cons, List.all_eq_true]
    constructor
    · rintro ⟨h1, h2, h3⟩
      exact ⟨⟨h1, fun x hx => by have := h2 x hx; omega⟩, h2, h3⟩
    · rintro ⟨⟨h1, h2⟩, h3, h4⟩
      exact ⟨h1, h3, h4⟩

theorem akeysRise_adel {α : Type} (m : Assoc α) (k : Nat) (h : akeysRise m = true) : akeysRise (adel m k) = true := by
  induction m with
  | nil => rfl
  | cons e r ih =>
    obtain ⟨ha, hr⟩ := (akeysRise_cons e r).1 h
    by_cases he : e.1 = k
    · simpa [adel, he] using ih hr
    · have : adel (e :: r) k = e :: adel r k := by simp [adel, he]
      rw [this, akeysRise_cons]
      refine ⟨?_, ih hr⟩
      simp only [aabove, List.all_eq_true, decide_eq_true_eq, adel] at ha ⊢
      exact fun x hx => ha x (List.mem_of_mem_filter hx)

theorem akeysRise_ains {α : Type} (m : Assoc α) (k : Nat) (v : α) (h : akeysRise m = true)
    (hk : ∀ e ∈ m, e.1 ≠ k) : akeysRise (ains k v m) = true := by
  induction m with
  | nil => rfl
  | cons e r ih =>
    obtain ⟨ha, hr⟩ := (akeysRise_cons e r).1 h
    obtain ⟨k', v'⟩ := e
    have hne : k' ≠ k := hk (k', v') (by simp)
    by_cases hlt : k < k'
    · simp only [ains, hlt, if_true]
      rw [akeysRise_cons]
      refine ⟨?_, h⟩
      simp only [aabove, List.all_eq_true, decide_eq_true_eq, List.mem_cons, forall_eq_or_imp] at ha ⊢
      exact ⟨hlt, fun x hx => by have := ha x hx; omega⟩
    · simp only [ains, hlt, if_false]
      rw [akeysRise_cons]
      refine ⟨?_, ih hr (fun e he => hk e (by simp [he]))⟩
      have hsub : ∀ x ∈ ains k v r, x = (k, v) ∨ x ∈ r := by
        clear ih ha hr h hk
        induction r with
        | nil => simp [ains]
        | cons f r ih =>
          obtain ⟨kf, vf⟩ := f
          by_cases hf : k < kf
          · simp [ains, hf]
          · simp only [ains, hf, if_false, List.mem_cons]
            rintro x (hx | hx)
            · exact Or.inr (Or.inl hx)
            · rcases ih x hx with h | h
              · exact Or.inl h
              · exact Or.inr (Or.inr h)
      simp only [aabove, List.all_eq_true, decide_eq_true_eq] at ha ⊢
      intro x hx
      rcases hsub x hx with rfl | hx
      · simp; omega
      · exact ha x hx

theorem mem_ains {α : Type} (m : Assoc α) (k : Nat) (v : α) (x : Nat × α) (h : x ∈ ains k v m) :
    x = (k, v) ∨ x ∈ m := by
  induction m with
  | nil => simpa [ains] using h
  | cons e r ih =>
    obtain ⟨k', v'⟩ := e
    by_cases hlt : k < k'
    · simpa [ains, hlt] using h
    · simp only [ains, hlt, if_false, List.mem_cons] at h
      rcases h with h | h
      · exact Or.inr (by simp [h])
      · rcases ih h with h | h
        · exact Or.inl h
        · exact Or.inr (by simp [h])

/-- A write keeps the canonical form of a store whose unlisted keys all read as d. -/
theorem awf_aset {α : Type} [DecidableEq α] (d : Nat → α) (m : Assoc α) (k : Nat) (v : α)
    (h : awf d m = true) : awf d (aset (d k) m k v) = true := by
  simp only [awf, Bool.and_eq_true, List.all_eq_true, bne_iff_ne, ne_eq] at h ⊢
  have hd : ∀ e ∈ adel m k, e ∈ m ∧ e.1 ≠ k := by
    intro e he
    simp [adel] at he
    exact he
  by_cases hv : v = d k
  · simp only [aset, hv, if_true]
    exact ⟨akeysRise_adel m k h.1, fun e he => h.2 e (hd e he).1⟩
  · simp only [aset, hv, if_false]
    refine ⟨akeysRise_ains _ k v (akeysRise_adel m k h.1) (fun e he => (hd e he).2), ?_⟩
    intro e he
    rcases mem_ains _ k v e he with rfl | he
    · exact hv
    · exact h.2 e (hd e he).1

/-! Bit fields. -/

@[simp] theorem w32_toNat (n : Nat) : (w32 n).toNat = n % 2 ^ 32 := by simp [w32]

theorem fset_toNat (w : Word) (hi lo v : Nat) : (fset w hi lo v).toNat =
    (w.toNat % 2 ^ lo + (v % 2 ^ (hi + 1 - lo)) * 2 ^ lo + (w.toNat >>> (hi + 1)) * 2 ^ (hi + 1)) % 2 ^ 32 := by
  simp [fset, Nat.mul_comm]

theorem fset_sum_lt (w : Word) {hi lo : Nat} (v : Nat) (h : lo ≤ hi) (hh : hi < 32) :
    w.toNat % 2 ^ lo + (v % 2 ^ (hi + 1 - lo)) * 2 ^ lo + (w.toNat >>> (hi + 1)) * 2 ^ (hi + 1) < 2 ^ 32 := by
  have hw := w.isLt
  have h1 : w.toNat % 2 ^ lo < 2 ^ lo := Nat.mod_lt _ (by positivity)
  have h2 : v % 2 ^ (hi + 1 - lo) < 2 ^ (hi + 1 - lo) := Nat.mod_lt _ (by positivity)
  have h3 : 2 ^ (hi + 1) = 2 ^ (hi + 1 - lo) * 2 ^ lo := by rw [← pow_add]; congr 1; omega
  have h4 : (v % 2 ^ (hi + 1 - lo) + 1) * 2 ^ lo ≤ 2 ^ (hi + 1) := by
    rw [h3]; exact Nat.mul_le_mul_right _ h2
  have h5 : (2 : Nat) ^ 32 = 2 ^ (32 - (hi + 1)) * 2 ^ (hi + 1) := by rw [← pow_add]; congr 1; omega
  have h6 : w.toNat >>> (hi + 1) < 2 ^ (32 - (hi + 1)) := by
    rw [Nat.shiftRight_eq_div_pow]
    exact Nat.div_lt_of_lt_mul (by rw [Nat.mul_comm, ← h5]; exact hw)
  have h7 : (w.toNat >>> (hi + 1) + 1) * 2 ^ (hi + 1) ≤ 2 ^ 32 := by
    rw [h5]; exact Nat.mul_le_mul_right _ h6
  have h8 : (v % 2 ^ (hi + 1 - lo) + 1) * 2 ^ lo = (v % 2 ^ (hi + 1 - lo)) * 2 ^ lo + 2 ^ lo := by ring
  have h9 : (w.toNat >>> (hi + 1) + 1) * 2 ^ (hi + 1) = (w.toNat >>> (hi + 1)) * 2 ^ (hi + 1) + 2 ^ (hi + 1) := by ring
  omega

/-- Bit i of a word after a field is written. -/
theorem fset_testBit (w : Word) {hi lo : Nat} (v i : Nat) (h : lo ≤ hi) (hh : hi < 32) :
    (fset w hi lo v).toNat.testBit i = if lo ≤ i ∧ i ≤ hi then v.testBit (i - lo) else w.toNat.testBit i := by
  rw [fset_toNat, Nat.mod_eq_of_lt (fset_sum_lt w v h hh)]
  have e : w.toNat % 2 ^ lo + (v % 2 ^ (hi + 1 - lo)) * 2 ^ lo + (w.toNat >>> (hi + 1)) * 2 ^ (hi + 1) =
      2 ^ lo * (2 ^ (hi + 1 - lo) * (w.toNat >>> (hi + 1)) + v % 2 ^ (hi + 1 - lo)) + w.toNat % 2 ^ lo := by
    have : (2 : Nat) ^ (hi + 1) = 2 ^ lo * 2 ^ (hi + 1 - lo) := by rw [← pow_add]; congr 1; omega
    rw [this]; ring
  rw [e, Nat.testBit_two_pow_mul_add _ (Nat.mod_lt _ (by positivity))]
  by_cases h1 : i < lo
  · have : ¬ (lo ≤ i ∧ i ≤ hi) := by omega
    simp only [h1, if_true, this, if_false, Nat.testBit_mod_two_pow, decide_true, Bool.true_and]
  · rw [if_neg h1, Nat.testBit_two_pow_mul_add _ (Nat.mod_lt _ (by positivity))]
    by_cases h2 : i - lo < hi + 1 - lo
    · have : lo ≤ i ∧ i ≤ hi := by omega
      simp only [h2, if_true, this, and_self, Nat.testBit_mod_two_pow, decide_true, Bool.true_and]
    · have h3 : ¬ (lo ≤ i ∧ i ≤ hi) := by omega
      rw [if_neg h2, if_neg h3, Nat.testBit_shiftRight]
      congr 1; omega

theorem bits_testBit (n hi lo i : Nat) :
    (bits n hi lo).testBit i = (decide (i < hi + 1 - lo) && n.testBit (lo + i)) := by
  rw [bits, Nat.testBit_mod_two_pow, Nat.testBit_shiftRight]

/-- A field reads as the value written, cut to its width. -/
theorem fget_fset (w : Word) {hi lo : Nat} (v : Nat) (h : lo ≤ hi) (hh : hi < 32) :
    fget (fset w hi lo v) hi lo = v % 2 ^ (hi + 1 - lo) := by
  apply Nat.eq_of_testBit_eq
  intro i
  rw [fget, bits_testBit, fset_testBit w v _ h hh, Nat.testBit_mod_two_pow]
  by_cases hi' : i < hi + 1 - lo
  · have : lo ≤ lo + i ∧ lo + i ≤ hi := by omega
    simp [hi', this]
  · simp [hi']

/-- A field that shares no bit with the one written reads as before. -/
theorem fget_fset_other (w : Word) {hi lo hi' lo' : Nat} (v : Nat) (h : lo ≤ hi) (hh : hi < 32)
    (hd : hi' < lo ∨ hi < lo') : fget (fset w hi lo v) hi' lo' = fget w hi' lo' := by
  apply Nat.eq_of_testBit_eq
  intro i
  rw [fget, fget, bits_testBit, bits_testBit, fset_testBit w v _ h hh]
  by_cases hi' : i < hi' + 1 - lo'
  · have : ¬ (lo ≤ lo' + i ∧ lo' + i ≤ hi) := by omega
    simp [this]
  · simp [hi']

theorem bit_testBit (n k : Nat) : bit n k = n.testBit k := by
  rw [bit, Nat.testBit, Nat.one_and_eq_mod_two]
  rcases Nat.mod_two_eq_zero_or_one (n >>> k) with h | h <;> simp [h]

theorem fbit_eq (w : Word) (k : Nat) : fbit w k = w.toNat.testBit k := bit_testBit _ _

/-- A bit of a word after a field is written. -/
theorem fbit_fset (w : Word) {hi lo : Nat} (v k : Nat) (h : lo ≤ hi) (hh : hi < 32) :
    fbit (fset w hi lo v) k = if lo ≤ k ∧ k ≤ hi then v.testBit (k - lo) else fbit w k := by
  simp only [fbit_eq, fset_testBit w v k h hh]

/-- A bit reads as set after it is set. -/
theorem fbit_fsetb (w : Word) {k : Nat} (b : Bool) (hk : k < 32) : fbit (fsetb w k b) k = b := by
  rw [fsetb, fbit_fset w _ k (Nat.le_refl k) hk]
  cases b <;> simp

theorem fbit_fsetb_other (w : Word) {k j : Nat} (b : Bool) (hk : k < 32) (h : j ≠ k) :
    fbit (fsetb w k b) j = fbit w j := by
  rw [fsetb, fbit_fset w _ j (Nat.le_refl k) hk, if_neg (by omega)]

/-- Setting bits of a word by or. -/
theorem fbit_or (w : Word) (n k : Nat) : fbit (w ||| w32 n) k = (fbit w k || (decide (k < 32) && n.testBit k)) := by
  rw [fbit_eq, fbit_eq, BitVec.toNat_or, Nat.testBit_or, w32_toNat, Nat.testBit_mod_two_pow]

theorem fbit_or_self (w : Word) {k : Nat} (hk : k < 32) : fbit (w ||| w32 (2 ^ k)) k = true := by
  rw [fbit_or]; simp [hk]

/-- A one-bit field is the bit. -/
theorem fget_bit (w : Word) (k : Nat) : fget w k k = b2n (fbit w k) := by
  have e : k + 1 - k = 1 := by omega
  simp only [fget, bits, fbit, bit, e, pow_one, b2n]
  rcases Nat.mod_two_eq_zero_or_one (w.toNat >>> k) with h | h <;> simp [h]

theorem fget_lt (w : Word) (hi lo : Nat) : fget w hi lo < 2 ^ (hi + 1 - lo) := Nat.mod_lt _ (by positivity)

end Sys2Proof.Machine
end

