-- ==== Sys2Proof/Laws/State.lean ====
section
/-!
SUPPORT. Laws/State.lean: the fields of State that each update leaves as they were, one lemma for each field
and update, and what a register, a header field and an event bit read after a write.
-/
namespace Sys2Proof.Machine

/-! State.setReg. -/

@[simp] theorem State.setReg_pending (s : State) (a : Nat) (v : Word) : (s.setReg a v).pending = s.pending := rfl
@[simp] theorem State.setReg_fresh (s : State) (a : Nat) (v : Word) : (s.setReg a v).fresh = s.fresh := rfl
@[simp] theorem State.setReg_fclk (s : State) (a : Nat) (v : Word) : (s.setReg a v).fclk = s.fclk := rfl
@[simp] theorem State.setReg_upTicks (s : State) (a : Nat) (v : Word) : (s.setReg a v).upTicks = s.upTicks := rfl
@[simp] theorem State.setReg_cyc (s : State) (a : Nat) (v : Word) : (s.setReg a v).cyc = s.cyc := rfl
@[simp] theorem State.setReg_mode (s : State) (a : Nat) (v : Word) : (s.setReg a v).mode = s.mode := rfl
@[simp] theorem State.setReg_cfg (s : State) (a : Nat) (v : Word) : (s.setReg a v).cfg = s.cfg := rfl
@[simp] theorem State.setReg_shadow (s : State) (a : Nat) (v : Word) : (s.setReg a v).shadow = s.shadow := rfl
@[simp] theorem State.setReg_pends (s : State) (a : Nat) (v : Word) : (s.setReg a v).pends = s.pends := rfl
@[simp] theorem State.setReg_slots (s : State) (a : Nat) (v : Word) : (s.setReg a v).slots = s.slots := rfl
@[simp] theorem State.setReg_latches (s : State) (a : Nat) (v : Word) : (s.setReg a v).latches = s.latches := rfl
@[simp] theorem State.setReg_crossings (s : State) (a : Nat) (v : Word) : (s.setReg a v).crossings = s.crossings := rfl
@[simp] theorem State.setReg_answer (s : State) (a : Nat) (v : Word) : (s.setReg a v).answer = s.answer := rfl
@[simp] theorem State.setReg_log (s : State) (a : Nat) (v : Word) : (s.setReg a v).log = s.log := rfl
@[simp] theorem State.setReg_legend (s : State) (a : Nat) (v : Word) : (s.setReg a v).legend = s.legend := rfl
@[simp] theorem State.setReg_heads (s : State) (a : Nat) (v : Word) : (s.setReg a v).heads = s.heads := rfl
@[simp] theorem State.setReg_mem (s : State) (a : Nat) (v : Word) : (s.setReg a v).mem = s.mem := rfl
@[simp] theorem State.setReg_xlate (s : State) (a : Nat) (v : Word) : (s.setReg a v).xlate = s.xlate := rfl
@[simp] theorem State.setReg_rings (s : State) (a : Nat) (v : Word) : (s.setReg a v).rings = s.rings := rfl
@[simp] theorem State.setReg_ports (s : State) (a : Nat) (v : Word) : (s.setReg a v).ports = s.ports := rfl
@[simp] theorem State.setReg_cvus (s : State) (a : Nat) (v : Word) : (s.setReg a v).cvus = s.cvus := rfl
@[simp] theorem State.setReg_safe (s : State) (a : Nat) (v : Word) : (s.setReg a v).safe = s.safe := rfl
@[simp] theorem State.setReg_sched (s : State) (a : Nat) (v : Word) : (s.setReg a v).sched = s.sched := rfl
@[simp] theorem State.setReg_cpx (s : State) (a : Nat) (v : Word) : (s.setReg a v).cpx = s.cpx := rfl
@[simp] theorem State.setReg_keys (s : State) (a : Nat) (v : Word) : (s.setReg a v).keys = s.keys := rfl
@[simp] theorem State.setReg_keyWait (s : State) (a : Nat) (v : Word) : (s.setReg a v).keyWait = s.keyWait := rfl
@[simp] theorem State.setReg_scans (s : State) (a : Nat) (v : Word) : (s.setReg a v).scans = s.scans := rfl
@[simp] theorem State.setReg_haps (s : State) (a : Nat) (v : Word) : (s.setReg a v).haps = s.haps := rfl
@[simp] theorem State.setReg_audio (s : State) (a : Nat) (v : Word) : (s.setReg a v).audio = s.audio := rfl
@[simp] theorem State.setReg_surv (s : State) (a : Nat) (v : Word) : (s.setReg a v).surv = s.surv := rfl
@[simp] theorem State.setReg_b4 (s : State) (a : Nat) (v : Word) : (s.setReg a v).b4 = s.b4 := rfl
@[simp] theorem memByte_setReg (s : State) (a : Nat) (v : Word) (adr : Nat) : memByte (s.setReg a v) adr = memByte s adr := rfl

/-! State.setShd. -/

@[simp] theorem State.setShd_pending (s : State) (a : Nat) (v : Word) : (s.setShd a v).pending = s.pending := rfl
@[simp] theorem State.setShd_fresh (s : State) (a : Nat) (v : Word) : (s.setShd a v).fresh = s.fresh := rfl
@[simp] theorem State.setShd_fclk (s : State) (a : Nat) (v : Word) : (s.setShd a v).fclk = s.fclk := rfl
@[simp] theorem State.setShd_upTicks (s : State) (a : Nat) (v : Word) : (s.setShd a v).upTicks = s.upTicks := rfl
@[simp] theorem State.setShd_cyc (s : State) (a : Nat) (v : Word) : (s.setShd a v).cyc = s.cyc := rfl
@[simp] theorem State.setShd_mode (s : State) (a : Nat) (v : Word) : (s.setShd a v).mode = s.mode := rfl
@[simp] theorem State.setShd_cfg (s : State) (a : Nat) (v : Word) : (s.setShd a v).cfg = s.cfg := rfl
@[simp] theorem State.setShd_regs (s : State) (a : Nat) (v : Word) : (s.setShd a v).regs = s.regs := rfl
@[simp] theorem State.setShd_pends (s : State) (a : Nat) (v : Word) : (s.setShd a v).pends = s.pends := rfl
@[simp] theorem State.setShd_slots (s : State) (a : Nat) (v : Word) : (s.setShd a v).slots = s.slots := rfl
@[simp] theorem State.setShd_latches (s : State) (a : Nat) (v : Word) : (s.setShd a v).latches = s.latches := rfl
@[simp] theorem State.setShd_crossings (s : State) (a : Nat) (v : Word) : (s.setShd a v).crossings = s.crossings := rfl
@[simp] theorem State.setShd_answer (s : State) (a : Nat) (v : Word) : (s.setShd a v).answer = s.answer := rfl
@[simp] theorem State.setShd_log (s : State) (a : Nat) (v : Word) : (s.setShd a v).log = s.log := rfl
@[simp] theorem State.setShd_legend (s : State) (a : Nat) (v : Word) : (s.setShd a v).legend = s.legend := rfl
@[simp] theorem State.setShd_heads (s : State) (a : Nat) (v : Word) : (s.setShd a v).heads = s.heads := rfl
@[simp] theorem State.setShd_mem (s : State) (a : Nat) (v : Word) : (s.setShd a v).mem = s.mem := rfl
@[simp] theorem State.setShd_xlate (s : State) (a : Nat) (v : Word) : (s.setShd a v).xlate = s.xlate := rfl
@[simp] theorem State.setShd_rings (s : State) (a : Nat) (v : Word) : (s.setShd a v).rings = s.rings := rfl
@[simp] theorem State.setShd_ports (s : State) (a : Nat) (v : Word) : (s.setShd a v).ports = s.ports := rfl
@[simp] theorem State.setShd_cvus (s : State) (a : Nat) (v : Word) : (s.setShd a v).cvus = s.cvus := rfl
@[simp] theorem State.setShd_safe (s : State) (a : Nat) (v : Word) : (s.setShd a v).safe = s.safe := rfl
@[simp] theorem State.setShd_sched (s : State) (a : Nat) (v : Word) : (s.setShd a v).sched = s.sched := rfl
@[simp] theorem State.setShd_cpx (s : State) (a : Nat) (v : Word) : (s.setShd a v).cpx = s.cpx := rfl
@[simp] theorem State.setShd_keys (s : State) (a : Nat) (v : Word) : (s.setShd a v).keys = s.keys := rfl
@[simp] theorem State.setShd_keyWait (s : State) (a : Nat) (v : Word) : (s.setShd a v).keyWait = s.keyWait := rfl
@[simp] theorem State.setShd_scans (s : State) (a : Nat) (v : Word) : (s.setShd a v).scans = s.scans := rfl
@[simp] theorem State.setShd_haps (s : State) (a : Nat) (v : Word) : (s.setShd a v).haps = s.haps := rfl
@[simp] theorem State.setShd_audio (s : State) (a : Nat) (v : Word) : (s.setShd a v).audio = s.audio := rfl
@[simp] theorem State.setShd_surv (s : State) (a : Nat) (v : Word) : (s.setShd a v).surv = s.surv := rfl
@[simp] theorem State.setShd_b4 (s : State) (a : Nat) (v : Word) : (s.setShd a v).b4 = s.b4 := rfl
@[simp] theorem State.setShd_reg (s : State) (a : Nat) (v : Word) (adr : Nat) : (s.setShd a v).reg adr = s.reg adr := rfl
@[simp] theorem memByte_setShd (s : State) (a : Nat) (v : Word) (adr : Nat) : memByte (s.setShd a v) adr = memByte s adr := rfl

/-! State.setPr. -/

@[simp] theorem State.setPr_pending (s : State) (p : Page) (o : Nat) (v : Word) : (s.setPr p o v).pending = s.pending := rfl
@[simp] theorem State.setPr_fresh (s : State) (p : Page) (o : Nat) (v : Word) : (s.setPr p o v).fresh = s.fresh := rfl
@[simp] theorem State.setPr_fclk (s : State) (p : Page) (o : Nat) (v : Word) : (s.setPr p o v).fclk = s.fclk := rfl
@[simp] theorem State.setPr_upTicks (s : State) (p : Page) (o : Nat) (v : Word) : (s.setPr p o v).upTicks = s.upTicks := rfl
@[simp] theorem State.setPr_cyc (s : State) (p : Page) (o : Nat) (v : Word) : (s.setPr p o v).cyc = s.cyc := rfl
@[simp] theorem State.setPr_mode (s : State) (p : Page) (o : Nat) (v : Word) : (s.setPr p o v).mode = s.mode := rfl
@[simp] theorem State.setPr_cfg (s : State) (p : Page) (o : Nat) (v : Word) : (s.setPr p o v).cfg = s.cfg := rfl
@[simp] theorem State.setPr_shadow (s : State) (p : Page) (o : Nat) (v : Word) : (s.setPr p o v).shadow = s.shadow := rfl
@[simp] theorem State.setPr_pends (s : State) (p : Page) (o : Nat) (v : Word) : (s.setPr p o v).pends = s.pends := rfl
@[simp] theorem State.setPr_slots (s : State) (p : Page) (o : Nat) (v : Word) : (s.setPr p o v).slots = s.slots := rfl
@[simp] theorem State.setPr_latches (s : State) (p : Page) (o : Nat) (v : Word) : (s.setPr p o v).latches = s.latches := rfl
@[simp] theorem State.setPr_crossings (s : State) (p : Page) (o : Nat) (v : Word) : (s.setPr p o v).crossings = s.crossings := rfl
@[simp] theorem State.setPr_answer (s : State) (p : Page) (o : Nat) (v : Word) : (s.setPr p o v).answer = s.answer := rfl
@[simp] theorem State.setPr_log (s : State) (p : Page) (o : Nat) (v : Word) : (s.setPr p o v).log = s.log := rfl
@[simp] theorem State.setPr_legend (s : State) (p : Page) (o : Nat) (v : Word) : (s.setPr p o v).legend = s.legend := rfl
@[simp] theorem State.setPr_heads (s : State) (p : Page) (o : Nat) (v : Word) : (s.setPr p o v).heads = s.heads := rfl
@[simp] theorem State.setPr_mem (s : State) (p : Page) (o : Nat) (v : Word) : (s.setPr p o v).mem = s.mem := rfl
@[simp] theorem State.setPr_xlate (s : State) (p : Page) (o : Nat) (v : Word) : (s.setPr p o v).xlate = s.xlate := rfl
@[simp] theorem State.setPr_rings (s : State) (p : Page) (o : Nat) (v : Word) : (s.setPr p o v).rings = s.rings := rfl
@[simp] theorem State.setPr_ports (s : State) (p : Page) (o : Nat) (v : Word) : (s.setPr p o v).ports = s.ports := rfl
@[simp] theorem State.setPr_cvus (s : State) (p : Page) (o : Nat) (v : Word) : (s.setPr p o v).cvus = s.cvus := rfl
@[simp] theorem State.setPr_safe (s : State) (p : Page) (o : Nat) (v : Word) : (s.setPr p o v).safe = s.safe := rfl
@[simp] theorem State.setPr_sched (s : State) (p : Page) (o : Nat) (v : Word) : (s.setPr p o v).sched = s.sched := rfl
@[simp] theorem State.setPr_cpx (s : State) (p : Page) (o : Nat) (v : Word) : (s.setPr p o v).cpx = s.cpx := rfl
@[simp] theorem State.setPr_keys (s : State) (p : Page) (o : Nat) (v : Word) : (s.setPr p o v).keys = s.keys := rfl
@[simp] theorem State.setPr_keyWait (s : State) (p : Page) (o : Nat) (v : Word) : (s.setPr p o v).keyWait = s.keyWait := rfl
@[simp] theorem State.setPr_scans (s : State) (p : Page) (o : Nat) (v : Word) : (s.setPr p o v).scans = s.scans := rfl
@[simp] theorem State.setPr_haps (s : State) (p : Page) (o : Nat) (v : Word) : (s.setPr p o v).haps = s.haps := rfl
@[simp] theorem State.setPr_audio (s : State) (p : Page) (o : Nat) (v : Word) : (s.setPr p o v).audio = s.audio := rfl
@[simp] theorem State.setPr_surv (s : State) (p : Page) (o : Nat) (v : Word) : (s.setPr p o v).surv = s.surv := rfl
@[simp] theorem State.setPr_b4 (s : State) (p : Page) (o : Nat) (v : Word) : (s.setPr p o v).b4 = s.b4 := rfl
@[simp] theorem memByte_setPr (s : State) (p : Page) (o : Nat) (v : Word) (adr : Nat) : memByte (s.setPr p o v) adr = memByte s adr := rfl

/-! State.setPf. -/

@[simp] theorem State.setPf_pending (s : State) (p : Page) (o hi lo v : Nat) : (s.setPf p o hi lo v).pending = s.pending := rfl
@[simp] theorem State.setPf_fresh (s : State) (p : Page) (o hi lo v : Nat) : (s.setPf p o hi lo v).fresh = s.fresh := rfl
@[simp] theorem State.setPf_fclk (s : State) (p : Page) (o hi lo v : Nat) : (s.setPf p o hi lo v).fclk = s.fclk := rfl
@[simp] theorem State.setPf_upTicks (s : State) (p : Page) (o hi lo v : Nat) : (s.setPf p o hi lo v).upTicks = s.upTicks := rfl
@[simp] theorem State.setPf_cyc (s : State) (p : Page) (o hi lo v : Nat) : (s.setPf p o hi lo v).cyc = s.cyc := rfl
@[simp] theorem State.setPf_mode (s : State) (p : Page) (o hi lo v : Nat) : (s.setPf p o hi lo v).mode = s.mode := rfl
@[simp] theorem State.setPf_cfg (s : State) (p : Page) (o hi lo v : Nat) : (s.setPf p o hi lo v).cfg = s.cfg := rfl
@[simp] theorem State.setPf_shadow (s : State) (p : Page) (o hi lo v : Nat) : (s.setPf p o hi lo v).shadow = s.shadow := rfl
@[simp] theorem State.setPf_pends (s : State) (p : Page) (o hi lo v : Nat) : (s.setPf p o hi lo v).pends = s.pends := rfl
@[simp] theorem State.setPf_slots (s : State) (p : Page) (o hi lo v : Nat) : (s.setPf p o hi lo v).slots = s.slots := rfl
@[simp] theorem State.setPf_latches (s : State) (p : Page) (o hi lo v : Nat) : (s.setPf p o hi lo v).latches = s.latches := rfl
@[simp] theorem State.setPf_crossings (s : State) (p : Page) (o hi lo v : Nat) : (s.setPf p o hi lo v).crossings = s.crossings := rfl
@[simp] theorem State.setPf_answer (s : State) (p : Page) (o hi lo v : Nat) : (s.setPf p o hi lo v).answer = s.answer := rfl
@[simp] theorem State.setPf_log (s : State) (p : Page) (o hi lo v : Nat) : (s.setPf p o hi lo v).log = s.log := rfl
@[simp] theorem State.setPf_legend (s : State) (p : Page) (o hi lo v : Nat) : (s.setPf p o hi lo v).legend = s.legend := rfl
@[simp] theorem State.setPf_heads (s : State) (p : Page) (o hi lo v : Nat) : (s.setPf p o hi lo v).heads = s.heads := rfl
@[simp] theorem State.setPf_mem (s : State) (p : Page) (o hi lo v : Nat) : (s.setPf p o hi lo v).mem = s.mem := rfl
@[simp] theorem State.setPf_xlate (s : State) (p : Page) (o hi lo v : Nat) : (s.setPf p o hi lo v).xlate = s.xlate := rfl
@[simp] theorem State.setPf_rings (s : State) (p : Page) (o hi lo v : Nat) : (s.setPf p o hi lo v).rings = s.rings := rfl
@[simp] theorem State.setPf_ports (s : State) (p : Page) (o hi lo v : Nat) : (s.setPf p o hi lo v).ports = s.ports := rfl
@[simp] theorem State.setPf_cvus (s : State) (p : Page) (o hi lo v : Nat) : (s.setPf p o hi lo v).cvus = s.cvus := rfl
@[simp] theorem State.setPf_safe (s : State) (p : Page) (o hi lo v : Nat) : (s.setPf p o hi lo v).safe = s.safe := rfl
@[simp] theorem State.setPf_sched (s : State) (p : Page) (o hi lo v : Nat) : (s.setPf p o hi lo v).sched = s.sched := rfl
@[simp] theorem State.setPf_cpx (s : State) (p : Page) (o hi lo v : Nat) : (s.setPf p o hi lo v).cpx = s.cpx := rfl
@[simp] theorem State.setPf_keys (s : State) (p : Page) (o hi lo v : Nat) : (s.setPf p o hi lo v).keys = s.keys := rfl
@[simp] theorem State.setPf_keyWait (s : State) (p : Page) (o hi lo v : Nat) : (s.setPf p o hi lo v).keyWait = s.keyWait := rfl
@[simp] theorem State.setPf_scans (s : State) (p : Page) (o hi lo v : Nat) : (s.setPf p o hi lo v).scans = s.scans := rfl
@[simp] theorem State.setPf_haps (s : State) (p : Page) (o hi lo v : Nat) : (s.setPf p o hi lo v).haps = s.haps := rfl
@[simp] theorem State.setPf_audio (s : State) (p : Page) (o hi lo v : Nat) : (s.setPf p o hi lo v).audio = s.audio := rfl
@[simp] theorem State.setPf_surv (s : State) (p : Page) (o hi lo v : Nat) : (s.setPf p o hi lo v).surv = s.surv := rfl
@[simp] theorem State.setPf_b4 (s : State) (p : Page) (o hi lo v : Nat) : (s.setPf p o hi lo v).b4 = s.b4 := rfl
@[simp] theorem memByte_setPf (s : State) (p : Page) (o hi lo v : Nat) (adr : Nat) : memByte (s.setPf p o hi lo v) adr = memByte s adr := rfl

/-! State.setHd. -/

@[simp] theorem State.setHd_pending (s : State) (p : Page) (h : Hdr) (v : Word) : (s.setHd p h v).pending = s.pending := rfl
@[simp] theorem State.setHd_fresh (s : State) (p : Page) (h : Hdr) (v : Word) : (s.setHd p h v).fresh = s.fresh := rfl
@[simp] theorem State.setHd_fclk (s : State) (p : Page) (h : Hdr) (v : Word) : (s.setHd p h v).fclk = s.fclk := rfl
@[simp] theorem State.setHd_upTicks (s : State) (p : Page) (h : Hdr) (v : Word) : (s.setHd p h v).upTicks = s.upTicks := rfl
@[simp] theorem State.setHd_cyc (s : State) (p : Page) (h : Hdr) (v : Word) : (s.setHd p h v).cyc = s.cyc := rfl
@[simp] theorem State.setHd_mode (s : State) (p : Page) (h : Hdr) (v : Word) : (s.setHd p h v).mode = s.mode := rfl
@[simp] theorem State.setHd_cfg (s : State) (p : Page) (h : Hdr) (v : Word) : (s.setHd p h v).cfg = s.cfg := rfl
@[simp] theorem State.setHd_shadow (s : State) (p : Page) (h : Hdr) (v : Word) : (s.setHd p h v).shadow = s.shadow := rfl
@[simp] theorem State.setHd_pends (s : State) (p : Page) (h : Hdr) (v : Word) : (s.setHd p h v).pends = s.pends := rfl
@[simp] theorem State.setHd_slots (s : State) (p : Page) (h : Hdr) (v : Word) : (s.setHd p h v).slots = s.slots := rfl
@[simp] theorem State.setHd_latches (s : State) (p : Page) (h : Hdr) (v : Word) : (s.setHd p h v).latches = s.latches := rfl
@[simp] theorem State.setHd_crossings (s : State) (p : Page) (h : Hdr) (v : Word) : (s.setHd p h v).crossings = s.crossings := rfl
@[simp] theorem State.setHd_answer (s : State) (p : Page) (h : Hdr) (v : Word) : (s.setHd p h v).answer = s.answer := rfl
@[simp] theorem State.setHd_log (s : State) (p : Page) (h : Hdr) (v : Word) : (s.setHd p h v).log = s.log := rfl
@[simp] theorem State.setHd_legend (s : State) (p : Page) (h : Hdr) (v : Word) : (s.setHd p h v).legend = s.legend := rfl
@[simp] theorem State.setHd_heads (s : State) (p : Page) (h : Hdr) (v : Word) : (s.setHd p h v).heads = s.heads := rfl
@[simp] theorem State.setHd_mem (s : State) (p : Page) (h : Hdr) (v : Word) : (s.setHd p h v).mem = s.mem := rfl
@[simp] theorem State.setHd_xlate (s : State) (p : Page) (h : Hdr) (v : Word) : (s.setHd p h v).xlate = s.xlate := rfl
@[simp] theorem State.setHd_rings (s : State) (p : Page) (h : Hdr) (v : Word) : (s.setHd p h v).rings = s.rings := rfl
@[simp] theorem State.setHd_ports (s : State) (p : Page) (h : Hdr) (v : Word) : (s.setHd p h v).ports = s.ports := rfl
@[simp] theorem State.setHd_cvus (s : State) (p : Page) (h : Hdr) (v : Word) : (s.setHd p h v).cvus = s.cvus := rfl
@[simp] theorem State.setHd_safe (s : State) (p : Page) (h : Hdr) (v : Word) : (s.setHd p h v).safe = s.safe := rfl
@[simp] theorem State.setHd_sched (s : State) (p : Page) (h : Hdr) (v : Word) : (s.setHd p h v).sched = s.sched := rfl
@[simp] theorem State.setHd_cpx (s : State) (p : Page) (h : Hdr) (v : Word) : (s.setHd p h v).cpx = s.cpx := rfl
@[simp] theorem State.setHd_keys (s : State) (p : Page) (h : Hdr) (v : Word) : (s.setHd p h v).keys = s.keys := rfl
@[simp] theorem State.setHd_keyWait (s : State) (p : Page) (h : Hdr) (v : Word) : (s.setHd p h v).keyWait = s.keyWait := rfl
@[simp] theorem State.setHd_scans (s : State) (p : Page) (h : Hdr) (v : Word) : (s.setHd p h v).scans = s.scans := rfl
@[simp] theorem State.setHd_haps (s : State) (p : Page) (h : Hdr) (v : Word) : (s.setHd p h v).haps = s.haps := rfl
@[simp] theorem State.setHd_audio (s : State) (p : Page) (h : Hdr) (v : Word) : (s.setHd p h v).audio = s.audio := rfl
@[simp] theorem State.setHd_surv (s : State) (p : Page) (h : Hdr) (v : Word) : (s.setHd p h v).surv = s.surv := rfl
@[simp] theorem State.setHd_b4 (s : State) (p : Page) (h : Hdr) (v : Word) : (s.setHd p h v).b4 = s.b4 := rfl
@[simp] theorem memByte_setHd (s : State) (p : Page) (h : Hdr) (v : Word) (adr : Nat) : memByte (s.setHd p h v) adr = memByte s adr := rfl

/-! State.setHf. -/

@[simp] theorem State.setHf_pending (s : State) (p : Page) (h : Hdr) (hi lo v : Nat) : (s.setHf p h hi lo v).pending = s.pending := rfl
@[simp] theorem State.setHf_fresh (s : State) (p : Page) (h : Hdr) (hi lo v : Nat) : (s.setHf p h hi lo v).fresh = s.fresh := rfl
@[simp] theorem State.setHf_fclk (s : State) (p : Page) (h : Hdr) (hi lo v : Nat) : (s.setHf p h hi lo v).fclk = s.fclk := rfl
@[simp] theorem State.setHf_upTicks (s : State) (p : Page) (h : Hdr) (hi lo v : Nat) : (s.setHf p h hi lo v).upTicks = s.upTicks := rfl
@[simp] theorem State.setHf_cyc (s : State) (p : Page) (h : Hdr) (hi lo v : Nat) : (s.setHf p h hi lo v).cyc = s.cyc := rfl
@[simp] theorem State.setHf_mode (s : State) (p : Page) (h : Hdr) (hi lo v : Nat) : (s.setHf p h hi lo v).mode = s.mode := rfl
@[simp] theorem State.setHf_cfg (s : State) (p : Page) (h : Hdr) (hi lo v : Nat) : (s.setHf p h hi lo v).cfg = s.cfg := rfl
@[simp] theorem State.setHf_shadow (s : State) (p : Page) (h : Hdr) (hi lo v : Nat) : (s.setHf p h hi lo v).shadow = s.shadow := rfl
@[simp] theorem State.setHf_pends (s : State) (p : Page) (h : Hdr) (hi lo v : Nat) : (s.setHf p h hi lo v).pends = s.pends := rfl
@[simp] theorem State.setHf_slots (s : State) (p : Page) (h : Hdr) (hi lo v : Nat) : (s.setHf p h hi lo v).slots = s.slots := rfl
@[simp] theorem State.setHf_latches (s : State) (p : Page) (h : Hdr) (hi lo v : Nat) : (s.setHf p h hi lo v).latches = s.latches := rfl
@[simp] theorem State.setHf_crossings (s : State) (p : Page) (h : Hdr) (hi lo v : Nat) : (s.setHf p h hi lo v).crossings = s.crossings := rfl
@[simp] theorem State.setHf_answer (s : State) (p : Page) (h : Hdr) (hi lo v : Nat) : (s.setHf p h hi lo v).answer = s.answer := rfl
@[simp] theorem State.setHf_log (s : State) (p : Page) (h : Hdr) (hi lo v : Nat) : (s.setHf p h hi lo v).log = s.log := rfl
@[simp] theorem State.setHf_legend (s : State) (p : Page) (h : Hdr) (hi lo v : Nat) : (s.setHf p h hi lo v).legend = s.legend := rfl
@[simp] theorem State.setHf_heads (s : State) (p : Page) (h : Hdr) (hi lo v : Nat) : (s.setHf p h hi lo v).heads = s.heads := rfl
@[simp] theorem State.setHf_mem (s : State) (p : Page) (h : Hdr) (hi lo v : Nat) : (s.setHf p h hi lo v).mem = s.mem := rfl
@[simp] theorem State.setHf_xlate (s : State) (p : Page) (h : Hdr) (hi lo v : Nat) : (s.setHf p h hi lo v).xlate = s.xlate := rfl
@[simp] theorem State.setHf_rings (s : State) (p : Page) (h : Hdr) (hi lo v : Nat) : (s.setHf p h hi lo v).rings = s.rings := rfl
@[simp] theorem State.setHf_ports (s : State) (p : Page) (h : Hdr) (hi lo v : Nat) : (s.setHf p h hi lo v).ports = s.ports := rfl
@[simp] theorem State.setHf_cvus (s : State) (p : Page) (h : Hdr) (hi lo v : Nat) : (s.setHf p h hi lo v).cvus = s.cvus := rfl
@[simp] theorem State.setHf_safe (s : State) (p : Page) (h : Hdr) (hi lo v : Nat) : (s.setHf p h hi lo v).safe = s.safe := rfl
@[simp] theorem State.setHf_sched (s : State) (p : Page) (h : Hdr) (hi lo v : Nat) : (s.setHf p h hi lo v).sched = s.sched := rfl
@[simp] theorem State.setHf_cpx (s : State) (p : Page) (h : Hdr) (hi lo v : Nat) : (s.setHf p h hi lo v).cpx = s.cpx := rfl
@[simp] theorem State.setHf_keys (s : State) (p : Page) (h : Hdr) (hi lo v : Nat) : (s.setHf p h hi lo v).keys = s.keys := rfl
@[simp] theorem State.setHf_keyWait (s : State) (p : Page) (h : Hdr) (hi lo v : Nat) : (s.setHf p h hi lo v).keyWait = s.keyWait := rfl
@[simp] theorem State.setHf_scans (s : State) (p : Page) (h : Hdr) (hi lo v : Nat) : (s.setHf p h hi lo v).scans = s.scans := rfl
@[simp] theorem State.setHf_haps (s : State) (p : Page) (h : Hdr) (hi lo v : Nat) : (s.setHf p h hi lo v).haps = s.haps := rfl
@[simp] theorem State.setHf_audio (s : State) (p : Page) (h : Hdr) (hi lo v : Nat) : (s.setHf p h hi lo v).audio = s.audio := rfl
@[simp] theorem State.setHf_surv (s : State) (p : Page) (h : Hdr) (hi lo v : Nat) : (s.setHf p h hi lo v).surv = s.surv := rfl
@[simp] theorem State.setHf_b4 (s : State) (p : Page) (h : Hdr) (hi lo v : Nat) : (s.setHf p h hi lo v).b4 = s.b4 := rfl
@[simp] theorem memByte_setHf (s : State) (p : Page) (h : Hdr) (hi lo v : Nat) (adr : Nat) : memByte (s.setHf p h hi lo v) adr = memByte s adr := rfl

/-! State.setPair. -/

@[simp] theorem State.setPair_pending (s : State) (p : Page) (o v : Nat) : (s.setPair p o v).pending = s.pending := rfl
@[simp] theorem State.setPair_fresh (s : State) (p : Page) (o v : Nat) : (s.setPair p o v).fresh = s.fresh := rfl
@[simp] theorem State.setPair_fclk (s : State) (p : Page) (o v : Nat) : (s.setPair p o v).fclk = s.fclk := rfl
@[simp] theorem State.setPair_upTicks (s : State) (p : Page) (o v : Nat) : (s.setPair p o v).upTicks = s.upTicks := rfl
@[simp] theorem State.setPair_cyc (s : State) (p : Page) (o v : Nat) : (s.setPair p o v).cyc = s.cyc := rfl
@[simp] theorem State.setPair_mode (s : State) (p : Page) (o v : Nat) : (s.setPair p o v).mode = s.mode := rfl
@[simp] theorem State.setPair_cfg (s : State) (p : Page) (o v : Nat) : (s.setPair p o v).cfg = s.cfg := rfl
@[simp] theorem State.setPair_shadow (s : State) (p : Page) (o v : Nat) : (s.setPair p o v).shadow = s.shadow := rfl
@[simp] theorem State.setPair_pends (s : State) (p : Page) (o v : Nat) : (s.setPair p o v).pends = s.pends := rfl
@[simp] theorem State.setPair_slots (s : State) (p : Page) (o v : Nat) : (s.setPair p o v).slots = s.slots := rfl
@[simp] theorem State.setPair_latches (s : State) (p : Page) (o v : Nat) : (s.setPair p o v).latches = s.latches := rfl
@[simp] theorem State.setPair_crossings (s : State) (p : Page) (o v : Nat) : (s.setPair p o v).crossings = s.crossings := rfl
@[simp] theorem State.setPair_answer (s : State) (p : Page) (o v : Nat) : (s.setPair p o v).answer = s.answer := rfl
@[simp] theorem State.setPair_log (s : State) (p : Page) (o v : Nat) : (s.setPair p o v).log = s.log := rfl
@[simp] theorem State.setPair_legend (s : State) (p : Page) (o v : Nat) : (s.setPair p o v).legend = s.legend := rfl
@[simp] theorem State.setPair_heads (s : State) (p : Page) (o v : Nat) : (s.setPair p o v).heads = s.heads := rfl
@[simp] theorem State.setPair_mem (s : State) (p : Page) (o v : Nat) : (s.setPair p o v).mem = s.mem := rfl
@[simp] theorem State.setPair_xlate (s : State) (p : Page) (o v : Nat) : (s.setPair p o v).xlate = s.xlate := rfl
@[simp] theorem State.setPair_rings (s : State) (p : Page) (o v : Nat) : (s.setPair p o v).rings = s.rings := rfl
@[simp] theorem State.setPair_ports (s : State) (p : Page) (o v : Nat) : (s.setPair p o v).ports = s.ports := rfl
@[simp] theorem State.setPair_cvus (s : State) (p : Page) (o v : Nat) : (s.setPair p o v).cvus = s.cvus := rfl
@[simp] theorem State.setPair_safe (s : State) (p : Page) (o v : Nat) : (s.setPair p o v).safe = s.safe := rfl
@[simp] theorem State.setPair_sched (s : State) (p : Page) (o v : Nat) : (s.setPair p o v).sched = s.sched := rfl
@[simp] theorem State.setPair_cpx (s : State) (p : Page) (o v : Nat) : (s.setPair p o v).cpx = s.cpx := rfl
@[simp] theorem State.setPair_keys (s : State) (p : Page) (o v : Nat) : (s.setPair p o v).keys = s.keys := rfl
@[simp] theorem State.setPair_keyWait (s : State) (p : Page) (o v : Nat) : (s.setPair p o v).keyWait = s.keyWait := rfl
@[simp] theorem State.setPair_scans (s : State) (p : Page) (o v : Nat) : (s.setPair p o v).scans = s.scans := rfl
@[simp] theorem State.setPair_haps (s : State) (p : Page) (o v : Nat) : (s.setPair p o v).haps = s.haps := rfl
@[simp] theorem State.setPair_audio (s : State) (p : Page) (o v : Nat) : (s.setPair p o v).audio = s.audio := rfl
@[simp] theorem State.setPair_surv (s : State) (p : Page) (o v : Nat) : (s.setPair p o v).surv = s.surv := rfl
@[simp] theorem State.setPair_b4 (s : State) (p : Page) (o v : Nat) : (s.setPair p o v).b4 = s.b4 := rfl
@[simp] theorem memByte_setPair (s : State) (p : Page) (o v : Nat) (adr : Nat) : memByte (s.setPair p o v) adr = memByte s adr := rfl

/-! State.count. -/

@[simp] theorem State.count_pending (s : State) (p : Page) (o : Nat) : (s.count p o).pending = s.pending := rfl
@[simp] theorem State.count_fresh (s : State) (p : Page) (o : Nat) : (s.count p o).fresh = s.fresh := rfl
@[simp] theorem State.count_fclk (s : State) (p : Page) (o : Nat) : (s.count p o).fclk = s.fclk := rfl
@[simp] theorem State.count_upTicks (s : State) (p : Page) (o : Nat) : (s.count p o).upTicks = s.upTicks := rfl
@[simp] theorem State.count_cyc (s : State) (p : Page) (o : Nat) : (s.count p o).cyc = s.cyc := rfl
@[simp] theorem State.count_mode (s : State) (p : Page) (o : Nat) : (s.count p o).mode = s.mode := rfl
@[simp] theorem State.count_cfg (s : State) (p : Page) (o : Nat) : (s.count p o).cfg = s.cfg := rfl
@[simp] theorem State.count_shadow (s : State) (p : Page) (o : Nat) : (s.count p o).shadow = s.shadow := rfl
@[simp] theorem State.count_pends (s : State) (p : Page) (o : Nat) : (s.count p o).pends = s.pends := rfl
@[simp] theorem State.count_slots (s : State) (p : Page) (o : Nat) : (s.count p o).slots = s.slots := rfl
@[simp] theorem State.count_latches (s : State) (p : Page) (o : Nat) : (s.count p o).latches = s.latches := rfl
@[simp] theorem State.count_crossings (s : State) (p : Page) (o : Nat) : (s.count p o).crossings = s.crossings := rfl
@[simp] theorem State.count_answer (s : State) (p : Page) (o : Nat) : (s.count p o).answer = s.answer := rfl
@[simp] theorem State.count_log (s : State) (p : Page) (o : Nat) : (s.count p o).log = s.log := rfl
@[simp] theorem State.count_legend (s : State) (p : Page) (o : Nat) : (s.count p o).legend = s.legend := rfl
@[simp] theorem State.count_heads (s : State) (p : Page) (o : Nat) : (s.count p o).heads = s.heads := rfl
@[simp] theorem State.count_mem (s : State) (p : Page) (o : Nat) : (s.count p o).mem = s.mem := rfl
@[simp] theorem State.count_xlate (s : State) (p : Page) (o : Nat) : (s.count p o).xlate = s.xlate := rfl
@[simp] theorem State.count_rings (s : State) (p : Page) (o : Nat) : (s.count p o).rings = s.rings := rfl
@[simp] theorem State.count_ports (s : State) (p : Page) (o : Nat) : (s.count p o).ports = s.ports := rfl
@[simp] theorem State.count_cvus (s : State) (p : Page) (o : Nat) : (s.count p o).cvus = s.cvus := rfl
@[simp] theorem State.count_safe (s : State) (p : Page) (o : Nat) : (s.count p o).safe = s.safe := rfl
@[simp] theorem State.count_sched (s : State) (p : Page) (o : Nat) : (s.count p o).sched = s.sched := rfl
@[simp] theorem State.count_cpx (s : State) (p : Page) (o : Nat) : (s.count p o).cpx = s.cpx := rfl
@[simp] theorem State.count_keys (s : State) (p : Page) (o : Nat) : (s.count p o).keys = s.keys := rfl
@[simp] theorem State.count_keyWait (s : State) (p : Page) (o : Nat) : (s.count p o).keyWait = s.keyWait := rfl
@[simp] theorem State.count_scans (s : State) (p : Page) (o : Nat) : (s.count p o).scans = s.scans := rfl
@[simp] theorem State.count_haps (s : State) (p : Page) (o : Nat) : (s.count p o).haps = s.haps := rfl
@[simp] theorem State.count_audio (s : State) (p : Page) (o : Nat) : (s.count p o).audio = s.audio := rfl
@[simp] theorem State.count_surv (s : State) (p : Page) (o : Nat) : (s.count p o).surv = s.surv := rfl
@[simp] theorem State.count_b4 (s : State) (p : Page) (o : Nat) : (s.count p o).b4 = s.b4 := rfl
@[simp] theorem memByte_count (s : State) (p : Page) (o : Nat) (adr : Nat) : memByte (s.count p o) adr = memByte s adr := rfl

/-! State.countBy. -/

@[simp] theorem State.countBy_pending (s : State) (p : Page) (o n : Nat) : (s.countBy p o n).pending = s.pending := rfl
@[simp] theorem State.countBy_fresh (s : State) (p : Page) (o n : Nat) : (s.countBy p o n).fresh = s.fresh := rfl
@[simp] theorem State.countBy_fclk (s : State) (p : Page) (o n : Nat) : (s.countBy p o n).fclk = s.fclk := rfl
@[simp] theorem State.countBy_upTicks (s : State) (p : Page) (o n : Nat) : (s.countBy p o n).upTicks = s.upTicks := rfl
@[simp] theorem State.countBy_cyc (s : State) (p : Page) (o n : Nat) : (s.countBy p o n).cyc = s.cyc := rfl
@[simp] theorem State.countBy_mode (s : State) (p : Page) (o n : Nat) : (s.countBy p o n).mode = s.mode := rfl
@[simp] theorem State.countBy_cfg (s : State) (p : Page) (o n : Nat) : (s.countBy p o n).cfg = s.cfg := rfl
@[simp] theorem State.countBy_shadow (s : State) (p : Page) (o n : Nat) : (s.countBy p o n).shadow = s.shadow := rfl
@[simp] theorem State.countBy_pends (s : State) (p : Page) (o n : Nat) : (s.countBy p o n).pends = s.pends := rfl
@[simp] theorem State.countBy_slots (s : State) (p : Page) (o n : Nat) : (s.countBy p o n).slots = s.slots := rfl
@[simp] theorem State.countBy_latches (s : State) (p : Page) (o n : Nat) : (s.countBy p o n).latches = s.latches := rfl
@[simp] theorem State.countBy_crossings (s : State) (p : Page) (o n : Nat) : (s.countBy p o n).crossings = s.crossings := rfl
@[simp] theorem State.countBy_answer (s : State) (p : Page) (o n : Nat) : (s.countBy p o n).answer = s.answer := rfl
@[simp] theorem State.countBy_log (s : State) (p : Page) (o n : Nat) : (s.countBy p o n).log = s.log := rfl
@[simp] theorem State.countBy_legend (s : State) (p : Page) (o n : Nat) : (s.countBy p o n).legend = s.legend := rfl
@[simp] theorem State.countBy_heads (s : State) (p : Page) (o n : Nat) : (s.countBy p o n).heads = s.heads := rfl
@[simp] theorem State.countBy_mem (s : State) (p : Page) (o n : Nat) : (s.countBy p o n).mem = s.mem := rfl
@[simp] theorem State.countBy_xlate (s : State) (p : Page) (o n : Nat) : (s.countBy p o n).xlate = s.xlate := rfl
@[simp] theorem State.countBy_rings (s : State) (p : Page) (o n : Nat) : (s.countBy p o n).rings = s.rings := rfl
@[simp] theorem State.countBy_ports (s : State) (p : Page) (o n : Nat) : (s.countBy p o n).ports = s.ports := rfl
@[simp] theorem State.countBy_cvus (s : State) (p : Page) (o n : Nat) : (s.countBy p o n).cvus = s.cvus := rfl
@[simp] theorem State.countBy_safe (s : State) (p : Page) (o n : Nat) : (s.countBy p o n).safe = s.safe := rfl
@[simp] theorem State.countBy_sched (s : State) (p : Page) (o n : Nat) : (s.countBy p o n).sched = s.sched := rfl
@[simp] theorem State.countBy_cpx (s : State) (p : Page) (o n : Nat) : (s.countBy p o n).cpx = s.cpx := rfl
@[simp] theorem State.countBy_keys (s : State) (p : Page) (o n : Nat) : (s.countBy p o n).keys = s.keys := rfl
@[simp] theorem State.countBy_keyWait (s : State) (p : Page) (o n : Nat) : (s.countBy p o n).keyWait = s.keyWait := rfl
@[simp] theorem State.countBy_scans (s : State) (p : Page) (o n : Nat) : (s.countBy p o n).scans = s.scans := rfl
@[simp] theorem State.countBy_haps (s : State) (p : Page) (o n : Nat) : (s.countBy p o n).haps = s.haps := rfl
@[simp] theorem State.countBy_audio (s : State) (p : Page) (o n : Nat) : (s.countBy p o n).audio = s.audio := rfl
@[simp] theorem State.countBy_surv (s : State) (p : Page) (o n : Nat) : (s.countBy p o n).surv = s.surv := rfl
@[simp] theorem State.countBy_b4 (s : State) (p : Page) (o n : Nat) : (s.countBy p o n).b4 = s.b4 := rfl
@[simp] theorem memByte_countBy (s : State) (p : Page) (o n : Nat) (adr : Nat) : memByte (s.countBy p o n) adr = memByte s adr := rfl

/-! State.setPend. -/

@[simp] theorem State.setPend_pending (s : State) (p : Page) (x : Option PendStage) : (s.setPend p x).pending = s.pending := rfl
@[simp] theorem State.setPend_fresh (s : State) (p : Page) (x : Option PendStage) : (s.setPend p x).fresh = s.fresh := rfl
@[simp] theorem State.setPend_fclk (s : State) (p : Page) (x : Option PendStage) : (s.setPend p x).fclk = s.fclk := rfl
@[simp] theorem State.setPend_upTicks (s : State) (p : Page) (x : Option PendStage) : (s.setPend p x).upTicks = s.upTicks := rfl
@[simp] theorem State.setPend_cyc (s : State) (p : Page) (x : Option PendStage) : (s.setPend p x).cyc = s.cyc := rfl
@[simp] theorem State.setPend_mode (s : State) (p : Page) (x : Option PendStage) : (s.setPend p x).mode = s.mode := rfl
@[simp] theorem State.setPend_cfg (s : State) (p : Page) (x : Option PendStage) : (s.setPend p x).cfg = s.cfg := rfl
@[simp] theorem State.setPend_regs (s : State) (p : Page) (x : Option PendStage) : (s.setPend p x).regs = s.regs := rfl
@[simp] theorem State.setPend_shadow (s : State) (p : Page) (x : Option PendStage) : (s.setPend p x).shadow = s.shadow := rfl
@[simp] theorem State.setPend_slots (s : State) (p : Page) (x : Option PendStage) : (s.setPend p x).slots = s.slots := rfl
@[simp] theorem State.setPend_latches (s : State) (p : Page) (x : Option PendStage) : (s.setPend p x).latches = s.latches := rfl
@[simp] theorem State.setPend_crossings (s : State) (p : Page) (x : Option PendStage) : (s.setPend p x).crossings = s.crossings := rfl
@[simp] theorem State.setPend_answer (s : State) (p : Page) (x : Option PendStage) : (s.setPend p x).answer = s.answer := rfl
@[simp] theorem State.setPend_log (s : State) (p : Page) (x : Option PendStage) : (s.setPend p x).log = s.log := rfl
@[simp] theorem State.setPend_legend (s : State) (p : Page) (x : Option PendStage) : (s.setPend p x).legend = s.legend := rfl
@[simp] theorem State.setPend_heads (s : State) (p : Page) (x : Option PendStage) : (s.setPend p x).heads = s.heads := rfl
@[simp] theorem State.setPend_mem (s : State) (p : Page) (x : Option PendStage) : (s.setPend p x).mem = s.mem := rfl
@[simp] theorem State.setPend_xlate (s : State) (p : Page) (x : Option PendStage) : (s.setPend p x).xlate = s.xlate := rfl
@[simp] theorem State.setPend_rings (s : State) (p : Page) (x : Option PendStage) : (s.setPend p x).rings = s.rings := rfl
@[simp] theorem State.setPend_ports (s : State) (p : Page) (x : Option PendStage) : (s.setPend p x).ports = s.ports := rfl
@[simp] theorem State.setPend_cvus (s : State) (p : Page) (x : Option PendStage) : (s.setPend p x).cvus = s.cvus := rfl
@[simp] theorem State.setPend_safe (s : State) (p : Page) (x : Option PendStage) : (s.setPend p x).safe = s.safe := rfl
@[simp] theorem State.setPend_sched (s : State) (p : Page) (x : Option PendStage) : (s.setPend p x).sched = s.sched := rfl
@[simp] theorem State.setPend_cpx (s : State) (p : Page) (x : Option PendStage) : (s.setPend p x).cpx = s.cpx := rfl
@[simp] theorem State.setPend_keys (s : State) (p : Page) (x : Option PendStage) : (s.setPend p x).keys = s.keys := rfl
@[simp] theorem State.setPend_keyWait (s : State) (p : Page) (x : Option PendStage) : (s.setPend p x).keyWait = s.keyWait := rfl
@[simp] theorem State.setPend_scans (s : State) (p : Page) (x : Option PendStage) : (s.setPend p x).scans = s.scans := rfl
@[simp] theorem State.setPend_haps (s : State) (p : Page) (x : Option PendStage) : (s.setPend p x).haps = s.haps := rfl
@[simp] theorem State.setPend_audio (s : State) (p : Page) (x : Option PendStage) : (s.setPend p x).audio = s.audio := rfl
@[simp] theorem State.setPend_surv (s : State) (p : Page) (x : Option PendStage) : (s.setPend p x).surv = s.surv := rfl
@[simp] theorem State.setPend_b4 (s : State) (p : Page) (x : Option PendStage) : (s.setPend p x).b4 = s.b4 := rfl
@[simp] theorem State.setPend_reg (s : State) (p : Page) (x : Option PendStage) (adr : Nat) : (s.setPend p x).reg adr = s.reg adr := rfl
@[simp] theorem memByte_setPend (s : State) (p : Page) (x : Option PendStage) (adr : Nat) : memByte (s.setPend p x) adr = memByte s adr := rfl

/-! State.hwBits. -/

@[simp] theorem State.hwBits_pending (s : State) (a mask : Nat) : (s.hwBits a mask).pending = s.pending := rfl
@[simp] theorem State.hwBits_fresh (s : State) (a mask : Nat) : (s.hwBits a mask).fresh = s.fresh := rfl
@[simp] theorem State.hwBits_fclk (s : State) (a mask : Nat) : (s.hwBits a mask).fclk = s.fclk := rfl
@[simp] theorem State.hwBits_upTicks (s : State) (a mask : Nat) : (s.hwBits a mask).upTicks = s.upTicks := rfl
@[simp] theorem State.hwBits_mode (s : State) (a mask : Nat) : (s.hwBits a mask).mode = s.mode := rfl
@[simp] theorem State.hwBits_cfg (s : State) (a mask : Nat) : (s.hwBits a mask).cfg = s.cfg := rfl
@[simp] theorem State.hwBits_shadow (s : State) (a mask : Nat) : (s.hwBits a mask).shadow = s.shadow := rfl
@[simp] theorem State.hwBits_pends (s : State) (a mask : Nat) : (s.hwBits a mask).pends = s.pends := rfl
@[simp] theorem State.hwBits_slots (s : State) (a mask : Nat) : (s.hwBits a mask).slots = s.slots := rfl
@[simp] theorem State.hwBits_latches (s : State) (a mask : Nat) : (s.hwBits a mask).latches = s.latches := rfl
@[simp] theorem State.hwBits_crossings (s : State) (a mask : Nat) : (s.hwBits a mask).crossings = s.crossings := rfl
@[simp] theorem State.hwBits_answer (s : State) (a mask : Nat) : (s.hwBits a mask).answer = s.answer := rfl
@[simp] theorem State.hwBits_log (s : State) (a mask : Nat) : (s.hwBits a mask).log = s.log := rfl
@[simp] theorem State.hwBits_legend (s : State) (a mask : Nat) : (s.hwBits a mask).legend = s.legend := rfl
@[simp] theorem State.hwBits_heads (s : State) (a mask : Nat) : (s.hwBits a mask).heads = s.heads := rfl
@[simp] theorem State.hwBits_mem (s : State) (a mask : Nat) : (s.hwBits a mask).mem = s.mem := rfl
@[simp] theorem State.hwBits_xlate (s : State) (a mask : Nat) : (s.hwBits a mask).xlate = s.xlate := rfl
@[simp] theorem State.hwBits_rings (s : State) (a mask : Nat) : (s.hwBits a mask).rings = s.rings := rfl
@[simp] theorem State.hwBits_ports (s : State) (a mask : Nat) : (s.hwBits a mask).ports = s.ports := rfl
@[simp] theorem State.hwBits_cvus (s : State) (a mask : Nat) : (s.hwBits a mask).cvus = s.cvus := rfl
@[simp] theorem State.hwBits_safe (s : State) (a mask : Nat) : (s.hwBits a mask).safe = s.safe := rfl
@[simp] theorem State.hwBits_sched (s : State) (a mask : Nat) : (s.hwBits a mask).sched = s.sched := rfl
@[simp] theorem State.hwBits_cpx (s : State) (a mask : Nat) : (s.hwBits a mask).cpx = s.cpx := rfl
@[simp] theorem State.hwBits_keys (s : State) (a mask : Nat) : (s.hwBits a mask).keys = s.keys := rfl
@[simp] theorem State.hwBits_keyWait (s : State) (a mask : Nat) : (s.hwBits a mask).keyWait = s.keyWait := rfl
@[simp] theorem State.hwBits_scans (s : State) (a mask : Nat) : (s.hwBits a mask).scans = s.scans := rfl
@[simp] theorem State.hwBits_haps (s : State) (a mask : Nat) : (s.hwBits a mask).haps = s.haps := rfl
@[simp] theorem State.hwBits_audio (s : State) (a mask : Nat) : (s.hwBits a mask).audio = s.audio := rfl
@[simp] theorem State.hwBits_surv (s : State) (a mask : Nat) : (s.hwBits a mask).surv = s.surv := rfl
@[simp] theorem State.hwBits_b4 (s : State) (a mask : Nat) : (s.hwBits a mask).b4 = s.b4 := rfl
@[simp] theorem memByte_hwBits (s : State) (a mask : Nat) (adr : Nat) : memByte (s.hwBits a mask) adr = memByte s adr := rfl

/-! State.event. -/

@[simp] theorem State.event_pending (s : State) (p : Page) (k : Nat) : (s.event p k).pending = s.pending := rfl
@[simp] theorem State.event_fresh (s : State) (p : Page) (k : Nat) : (s.event p k).fresh = s.fresh := rfl
@[simp] theorem State.event_fclk (s : State) (p : Page) (k : Nat) : (s.event p k).fclk = s.fclk := rfl
@[simp] theorem State.event_upTicks (s : State) (p : Page) (k : Nat) : (s.event p k).upTicks = s.upTicks := rfl
@[simp] theorem State.event_mode (s : State) (p : Page) (k : Nat) : (s.event p k).mode = s.mode := rfl
@[simp] theorem State.event_cfg (s : State) (p : Page) (k : Nat) : (s.event p k).cfg = s.cfg := rfl
@[simp] theorem State.event_shadow (s : State) (p : Page) (k : Nat) : (s.event p k).shadow = s.shadow := rfl
@[simp] theorem State.event_pends (s : State) (p : Page) (k : Nat) : (s.event p k).pends = s.pends := rfl
@[simp] theorem State.event_slots (s : State) (p : Page) (k : Nat) : (s.event p k).slots = s.slots := rfl
@[simp] theorem State.event_latches (s : State) (p : Page) (k : Nat) : (s.event p k).latches = s.latches := rfl
@[simp] theorem State.event_crossings (s : State) (p : Page) (k : Nat) : (s.event p k).crossings = s.crossings := rfl
@[simp] theorem State.event_answer (s : State) (p : Page) (k : Nat) : (s.event p k).answer = s.answer := rfl
@[simp] theorem State.event_log (s : State) (p : Page) (k : Nat) : (s.event p k).log = s.log := rfl
@[simp] theorem State.event_legend (s : State) (p : Page) (k : Nat) : (s.event p k).legend = s.legend := rfl
@[simp] theorem State.event_heads (s : State) (p : Page) (k : Nat) : (s.event p k).heads = s.heads := rfl
@[simp] theorem State.event_mem (s : State) (p : Page) (k : Nat) : (s.event p k).mem = s.mem := rfl
@[simp] theorem State.event_xlate (s : State) (p : Page) (k : Nat) : (s.event p k).xlate = s.xlate := rfl
@[simp] theorem State.event_rings (s : State) (p : Page) (k : Nat) : (s.event p k).rings = s.rings := rfl
@[simp] theorem State.event_ports (s : State) (p : Page) (k : Nat) : (s.event p k).ports = s.ports := rfl
@[simp] theorem State.event_cvus (s : State) (p : Page) (k : Nat) : (s.event p k).cvus = s.cvus := rfl
@[simp] theorem State.event_safe (s : State) (p : Page) (k : Nat) : (s.event p k).safe = s.safe := rfl
@[simp] theorem State.event_sched (s : State) (p : Page) (k : Nat) : (s.event p k).sched = s.sched := rfl
@[simp] theorem State.event_cpx (s : State) (p : Page) (k : Nat) : (s.event p k).cpx = s.cpx := rfl
@[simp] theorem State.event_keys (s : State) (p : Page) (k : Nat) : (s.event p k).keys = s.keys := rfl
@[simp] theorem State.event_keyWait (s : State) (p : Page) (k : Nat) : (s.event p k).keyWait = s.keyWait := rfl
@[simp] theorem State.event_scans (s : State) (p : Page) (k : Nat) : (s.event p k).scans = s.scans := rfl
@[simp] theorem State.event_haps (s : State) (p : Page) (k : Nat) : (s.event p k).haps = s.haps := rfl
@[simp] theorem State.event_audio (s : State) (p : Page) (k : Nat) : (s.event p k).audio = s.audio := rfl
@[simp] theorem State.event_surv (s : State) (p : Page) (k : Nat) : (s.event p k).surv = s.surv := rfl
@[simp] theorem State.event_b4 (s : State) (p : Page) (k : Nat) : (s.event p k).b4 = s.b4 := rfl
@[simp] theorem memByte_event (s : State) (p : Page) (k : Nat) (adr : Nat) : memByte (s.event p k) adr = memByte s adr := rfl

/-! State.unstage. -/

@[simp] theorem State.unstage_pending (s : State) (m : Master) (t : Nat) : (s.unstage m t).pending = s.pending := rfl
@[simp] theorem State.unstage_fresh (s : State) (m : Master) (t : Nat) : (s.unstage m t).fresh = s.fresh := rfl
@[simp] theorem State.unstage_fclk (s : State) (m : Master) (t : Nat) : (s.unstage m t).fclk = s.fclk := rfl
@[simp] theorem State.unstage_upTicks (s : State) (m : Master) (t : Nat) : (s.unstage m t).upTicks = s.upTicks := rfl
@[simp] theorem State.unstage_cyc (s : State) (m : Master) (t : Nat) : (s.unstage m t).cyc = s.cyc := rfl
@[simp] theorem State.unstage_mode (s : State) (m : Master) (t : Nat) : (s.unstage m t).mode = s.mode := rfl
@[simp] theorem State.unstage_cfg (s : State) (m : Master) (t : Nat) : (s.unstage m t).cfg = s.cfg := rfl
@[simp] theorem State.unstage_regs (s : State) (m : Master) (t : Nat) : (s.unstage m t).regs = s.regs := rfl
@[simp] theorem State.unstage_shadow (s : State) (m : Master) (t : Nat) : (s.unstage m t).shadow = s.shadow := rfl
@[simp] theorem State.unstage_pends (s : State) (m : Master) (t : Nat) : (s.unstage m t).pends = s.pends := rfl
@[simp] theorem State.unstage_latches (s : State) (m : Master) (t : Nat) : (s.unstage m t).latches = s.latches := rfl
@[simp] theorem State.unstage_crossings (s : State) (m : Master) (t : Nat) : (s.unstage m t).crossings = s.crossings := rfl
@[simp] theorem State.unstage_answer (s : State) (m : Master) (t : Nat) : (s.unstage m t).answer = s.answer := rfl
@[simp] theorem State.unstage_log (s : State) (m : Master) (t : Nat) : (s.unstage m t).log = s.log := rfl
@[simp] theorem State.unstage_legend (s : State) (m : Master) (t : Nat) : (s.unstage m t).legend = s.legend := rfl
@[simp] theorem State.unstage_heads (s : State) (m : Master) (t : Nat) : (s.unstage m t).heads = s.heads := rfl
@[simp] theorem State.unstage_mem (s : State) (m : Master) (t : Nat) : (s.unstage m t).mem = s.mem := rfl
@[simp] theorem State.unstage_xlate (s : State) (m : Master) (t : Nat) : (s.unstage m t).xlate = s.xlate := rfl
@[simp] theorem State.unstage_rings (s : State) (m : Master) (t : Nat) : (s.unstage m t).rings = s.rings := rfl
@[simp] theorem State.unstage_ports (s : State) (m : Master) (t : Nat) : (s.unstage m t).ports = s.ports := rfl
@[simp] theorem State.unstage_cvus (s : State) (m : Master) (t : Nat) : (s.unstage m t).cvus = s.cvus := rfl
@[simp] theorem State.unstage_safe (s : State) (m : Master) (t : Nat) : (s.unstage m t).safe = s.safe := rfl
@[simp] theorem State.unstage_sched (s : State) (m : Master) (t : Nat) : (s.unstage m t).sched = s.sched := rfl
@[simp] theorem State.unstage_cpx (s : State) (m : Master) (t : Nat) : (s.unstage m t).cpx = s.cpx := rfl
@[simp] theorem State.unstage_keys (s : State) (m : Master) (t : Nat) : (s.unstage m t).keys = s.keys := rfl
@[simp] theorem State.unstage_keyWait (s : State) (m : Master) (t : Nat) : (s.unstage m t).keyWait = s.keyWait := rfl
@[simp] theorem State.unstage_scans (s : State) (m : Master) (t : Nat) : (s.unstage m t).scans = s.scans := rfl
@[simp] theorem State.unstage_haps (s : State) (m : Master) (t : Nat) : (s.unstage m t).haps = s.haps := rfl
@[simp] theorem State.unstage_audio (s : State) (m : Master) (t : Nat) : (s.unstage m t).audio = s.audio := rfl
@[simp] theorem State.unstage_surv (s : State) (m : Master) (t : Nat) : (s.unstage m t).surv = s.surv := rfl
@[simp] theorem State.unstage_b4 (s : State) (m : Master) (t : Nat) : (s.unstage m t).b4 = s.b4 := rfl
@[simp] theorem State.unstage_reg (s : State) (m : Master) (t : Nat) (adr : Nat) : (s.unstage m t).reg adr = s.reg adr := rfl
@[simp] theorem memByte_unstage (s : State) (m : Master) (t : Nat) (adr : Nat) : memByte (s.unstage m t) adr = memByte s adr := rfl

/-! State.stageWord. -/

@[simp] theorem State.stageWord_pending (s : State) (m : Master) (t e a : Nat) (v : Word) : (s.stageWord m t e a v).pending = s.pending := rfl
@[simp] theorem State.stageWord_fresh (s : State) (m : Master) (t e a : Nat) (v : Word) : (s.stageWord m t e a v).fresh = s.fresh := rfl
@[simp] theorem State.stageWord_fclk (s : State) (m : Master) (t e a : Nat) (v : Word) : (s.stageWord m t e a v).fclk = s.fclk := rfl
@[simp] theorem State.stageWord_upTicks (s : State) (m : Master) (t e a : Nat) (v : Word) : (s.stageWord m t e a v).upTicks = s.upTicks := rfl
@[simp] theorem State.stageWord_cyc (s : State) (m : Master) (t e a : Nat) (v : Word) : (s.stageWord m t e a v).cyc = s.cyc := rfl
@[simp] theorem State.stageWord_mode (s : State) (m : Master) (t e a : Nat) (v : Word) : (s.stageWord m t e a v).mode = s.mode := rfl
@[simp] theorem State.stageWord_cfg (s : State) (m : Master) (t e a : Nat) (v : Word) : (s.stageWord m t e a v).cfg = s.cfg := rfl
@[simp] theorem State.stageWord_regs (s : State) (m : Master) (t e a : Nat) (v : Word) : (s.stageWord m t e a v).regs = s.regs := rfl
@[simp] theorem State.stageWord_shadow (s : State) (m : Master) (t e a : Nat) (v : Word) : (s.stageWord m t e a v).shadow = s.shadow := rfl
@[simp] theorem State.stageWord_pends (s : State) (m : Master) (t e a : Nat) (v : Word) : (s.stageWord m t e a v).pends = s.pends := rfl
@[simp] theorem State.stageWord_latches (s : State) (m : Master) (t e a : Nat) (v : Word) : (s.stageWord m t e a v).latches = s.latches := rfl
@[simp] theorem State.stageWord_crossings (s : State) (m : Master) (t e a : Nat) (v : Word) : (s.stageWord m t e a v).crossings = s.crossings := rfl
@[simp] theorem State.stageWord_answer (s : State) (m : Master) (t e a : Nat) (v : Word) : (s.stageWord m t e a v).answer = s.answer := rfl
@[simp] theorem State.stageWord_log (s : State) (m : Master) (t e a : Nat) (v : Word) : (s.stageWord m t e a v).log = s.log := rfl
@[simp] theorem State.stageWord_legend (s : State) (m : Master) (t e a : Nat) (v : Word) : (s.stageWord m t e a v).legend = s.legend := rfl
@[simp] theorem State.stageWord_heads (s : State) (m : Master) (t e a : Nat) (v : Word) : (s.stageWord m t e a v).heads = s.heads := rfl
@[simp] theorem State.stageWord_mem (s : State) (m : Master) (t e a : Nat) (v : Word) : (s.stageWord m t e a v).mem = s.mem := rfl
@[simp] theorem State.stageWord_xlate (s : State) (m : Master) (t e a : Nat) (v : Word) : (s.stageWord m t e a v).xlate = s.xlate := rfl
@[simp] theorem State.stageWord_rings (s : State) (m : Master) (t e a : Nat) (v : Word) : (s.stageWord m t e a v).rings = s.rings := rfl
@[simp] theorem State.stageWord_ports (s : State) (m : Master) (t e a : Nat) (v : Word) : (s.stageWord m t e a v).ports = s.ports := rfl
@[simp] theorem State.stageWord_cvus (s : State) (m : Master) (t e a : Nat) (v : Word) : (s.stageWord m t e a v).cvus = s.cvus := rfl
@[simp] theorem State.stageWord_safe (s : State) (m : Master) (t e a : Nat) (v : Word) : (s.stageWord m t e a v).safe = s.safe := rfl
@[simp] theorem State.stageWord_sched (s : State) (m : Master) (t e a : Nat) (v : Word) : (s.stageWord m t e a v).sched = s.sched := rfl
@[simp] theorem State.stageWord_cpx (s : State) (m : Master) (t e a : Nat) (v : Word) : (s.stageWord m t e a v).cpx = s.cpx := rfl
@[simp] theorem State.stageWord_keys (s : State) (m : Master) (t e a : Nat) (v : Word) : (s.stageWord m t e a v).keys = s.keys := rfl
@[simp] theorem State.stageWord_keyWait (s : State) (m : Master) (t e a : Nat) (v : Word) : (s.stageWord m t e a v).keyWait = s.keyWait := rfl
@[simp] theorem State.stageWord_scans (s : State) (m : Master) (t e a : Nat) (v : Word) : (s.stageWord m t e a v).scans = s.scans := rfl
@[simp] theorem State.stageWord_haps (s : State) (m : Master) (t e a : Nat) (v : Word) : (s.stageWord m t e a v).haps = s.haps := rfl
@[simp] theorem State.stageWord_audio (s : State) (m : Master) (t e a : Nat) (v : Word) : (s.stageWord m t e a v).audio = s.audio := rfl
@[simp] theorem State.stageWord_surv (s : State) (m : Master) (t e a : Nat) (v : Word) : (s.stageWord m t e a v).surv = s.surv := rfl
@[simp] theorem State.stageWord_b4 (s : State) (m : Master) (t e a : Nat) (v : Word) : (s.stageWord m t e a v).b4 = s.b4 := rfl
@[simp] theorem State.stageWord_reg (s : State) (m : Master) (t e a : Nat) (v : Word) (adr : Nat) : (s.stageWord m t e a v).reg adr = s.reg adr := rfl
@[simp] theorem memByte_stageWord (s : State) (m : Master) (t e a : Nat) (v : Word) (adr : Nat) : memByte (s.stageWord m t e a v) adr = memByte s adr := rfl

/-! State.latch. -/

@[simp] theorem State.latch_pending (s : State) (m : Master) (a : Nat) (v : Word) : (s.latch m a v).pending = s.pending := rfl
@[simp] theorem State.latch_fresh (s : State) (m : Master) (a : Nat) (v : Word) : (s.latch m a v).fresh = s.fresh := rfl
@[simp] theorem State.latch_fclk (s : State) (m : Master) (a : Nat) (v : Word) : (s.latch m a v).fclk = s.fclk := rfl
@[simp] theorem State.latch_upTicks (s : State) (m : Master) (a : Nat) (v : Word) : (s.latch m a v).upTicks = s.upTicks := rfl
@[simp] theorem State.latch_cyc (s : State) (m : Master) (a : Nat) (v : Word) : (s.latch m a v).cyc = s.cyc := rfl
@[simp] theorem State.latch_mode (s : State) (m : Master) (a : Nat) (v : Word) : (s.latch m a v).mode = s.mode := rfl
@[simp] theorem State.latch_cfg (s : State) (m : Master) (a : Nat) (v : Word) : (s.latch m a v).cfg = s.cfg := rfl
@[simp] theorem State.latch_regs (s : State) (m : Master) (a : Nat) (v : Word) : (s.latch m a v).regs = s.regs := rfl
@[simp] theorem State.latch_shadow (s : State) (m : Master) (a : Nat) (v : Word) : (s.latch m a v).shadow = s.shadow := rfl
@[simp] theorem State.latch_pends (s : State) (m : Master) (a : Nat) (v : Word) : (s.latch m a v).pends = s.pends := rfl
@[simp] theorem State.latch_slots (s : State) (m : Master) (a : Nat) (v : Word) : (s.latch m a v).slots = s.slots := rfl
@[simp] theorem State.latch_crossings (s : State) (m : Master) (a : Nat) (v : Word) : (s.latch m a v).crossings = s.crossings := rfl
@[simp] theorem State.latch_answer (s : State) (m : Master) (a : Nat) (v : Word) : (s.latch m a v).answer = s.answer := rfl
@[simp] theorem State.latch_log (s : State) (m : Master) (a : Nat) (v : Word) : (s.latch m a v).log = s.log := rfl
@[simp] theorem State.latch_legend (s : State) (m : Master) (a : Nat) (v : Word) : (s.latch m a v).legend = s.legend := rfl
@[simp] theorem State.latch_heads (s : State) (m : Master) (a : Nat) (v : Word) : (s.latch m a v).heads = s.heads := rfl
@[simp] theorem State.latch_mem (s : State) (m : Master) (a : Nat) (v : Word) : (s.latch m a v).mem = s.mem := rfl
@[simp] theorem State.latch_xlate (s : State) (m : Master) (a : Nat) (v : Word) : (s.latch m a v).xlate = s.xlate := rfl
@[simp] theorem State.latch_rings (s : State) (m : Master) (a : Nat) (v : Word) : (s.latch m a v).rings = s.rings := rfl
@[simp] theorem State.latch_ports (s : State) (m : Master) (a : Nat) (v : Word) : (s.latch m a v).ports = s.ports := rfl
@[simp] theorem State.latch_cvus (s : State) (m : Master) (a : Nat) (v : Word) : (s.latch m a v).cvus = s.cvus := rfl
@[simp] theorem State.latch_safe (s : State) (m : Master) (a : Nat) (v : Word) : (s.latch m a v).safe = s.safe := rfl
@[simp] theorem State.latch_sched (s : State) (m : Master) (a : Nat) (v : Word) : (s.latch m a v).sched = s.sched := rfl
@[simp] theorem State.latch_cpx (s : State) (m : Master) (a : Nat) (v : Word) : (s.latch m a v).cpx = s.cpx := rfl
@[simp] theorem State.latch_keys (s : State) (m : Master) (a : Nat) (v : Word) : (s.latch m a v).keys = s.keys := rfl
@[simp] theorem State.latch_keyWait (s : State) (m : Master) (a : Nat) (v : Word) : (s.latch m a v).keyWait = s.keyWait := rfl
@[simp] theorem State.latch_scans (s : State) (m : Master) (a : Nat) (v : Word) : (s.latch m a v).scans = s.scans := rfl
@[simp] theorem State.latch_haps (s : State) (m : Master) (a : Nat) (v : Word) : (s.latch m a v).haps = s.haps := rfl
@[simp] theorem State.latch_audio (s : State) (m : Master) (a : Nat) (v : Word) : (s.latch m a v).audio = s.audio := rfl
@[simp] theorem State.latch_surv (s : State) (m : Master) (a : Nat) (v : Word) : (s.latch m a v).surv = s.surv := rfl
@[simp] theorem State.latch_b4 (s : State) (m : Master) (a : Nat) (v : Word) : (s.latch m a v).b4 = s.b4 := rfl
@[simp] theorem State.latch_reg (s : State) (m : Master) (a : Nat) (v : Word) (adr : Nat) : (s.latch m a v).reg adr = s.reg adr := rfl
@[simp] theorem memByte_latch (s : State) (m : Master) (a : Nat) (v : Word) (adr : Nat) : memByte (s.latch m a v) adr = memByte s adr := rfl

/-! State.noteWrite. -/

@[simp] theorem State.noteWrite_pending (s : State) (a : Nat) : (s.noteWrite a).pending = s.pending := rfl
@[simp] theorem State.noteWrite_fresh (s : State) (a : Nat) : (s.noteWrite a).fresh = s.fresh := rfl
@[simp] theorem State.noteWrite_fclk (s : State) (a : Nat) : (s.noteWrite a).fclk = s.fclk := rfl
@[simp] theorem State.noteWrite_upTicks (s : State) (a : Nat) : (s.noteWrite a).upTicks = s.upTicks := rfl
@[simp] theorem State.noteWrite_mode (s : State) (a : Nat) : (s.noteWrite a).mode = s.mode := rfl
@[simp] theorem State.noteWrite_cfg (s : State) (a : Nat) : (s.noteWrite a).cfg = s.cfg := rfl
@[simp] theorem State.noteWrite_regs (s : State) (a : Nat) : (s.noteWrite a).regs = s.regs := rfl
@[simp] theorem State.noteWrite_shadow (s : State) (a : Nat) : (s.noteWrite a).shadow = s.shadow := rfl
@[simp] theorem State.noteWrite_pends (s : State) (a : Nat) : (s.noteWrite a).pends = s.pends := rfl
@[simp] theorem State.noteWrite_slots (s : State) (a : Nat) : (s.noteWrite a).slots = s.slots := rfl
@[simp] theorem State.noteWrite_latches (s : State) (a : Nat) : (s.noteWrite a).latches = s.latches := rfl
@[simp] theorem State.noteWrite_crossings (s : State) (a : Nat) : (s.noteWrite a).crossings = s.crossings := rfl
@[simp] theorem State.noteWrite_answer (s : State) (a : Nat) : (s.noteWrite a).answer = s.answer := rfl
@[simp] theorem State.noteWrite_log (s : State) (a : Nat) : (s.noteWrite a).log = s.log := rfl
@[simp] theorem State.noteWrite_legend (s : State) (a : Nat) : (s.noteWrite a).legend = s.legend := rfl
@[simp] theorem State.noteWrite_heads (s : State) (a : Nat) : (s.noteWrite a).heads = s.heads := rfl
@[simp] theorem State.noteWrite_mem (s : State) (a : Nat) : (s.noteWrite a).mem = s.mem := rfl
@[simp] theorem State.noteWrite_xlate (s : State) (a : Nat) : (s.noteWrite a).xlate = s.xlate := rfl
@[simp] theorem State.noteWrite_rings (s : State) (a : Nat) : (s.noteWrite a).rings = s.rings := rfl
@[simp] theorem State.noteWrite_ports (s : State) (a : Nat) : (s.noteWrite a).ports = s.ports := rfl
@[simp] theorem State.noteWrite_cvus (s : State) (a : Nat) : (s.noteWrite a).cvus = s.cvus := rfl
@[simp] theorem State.noteWrite_safe (s : State) (a : Nat) : (s.noteWrite a).safe = s.safe := rfl
@[simp] theorem State.noteWrite_sched (s : State) (a : Nat) : (s.noteWrite a).sched = s.sched := rfl
@[simp] theorem State.noteWrite_cpx (s : State) (a : Nat) : (s.noteWrite a).cpx = s.cpx := rfl
@[simp] theorem State.noteWrite_keys (s : State) (a : Nat) : (s.noteWrite a).keys = s.keys := rfl
@[simp] theorem State.noteWrite_keyWait (s : State) (a : Nat) : (s.noteWrite a).keyWait = s.keyWait := rfl
@[simp] theorem State.noteWrite_scans (s : State) (a : Nat) : (s.noteWrite a).scans = s.scans := rfl
@[simp] theorem State.noteWrite_haps (s : State) (a : Nat) : (s.noteWrite a).haps = s.haps := rfl
@[simp] theorem State.noteWrite_audio (s : State) (a : Nat) : (s.noteWrite a).audio = s.audio := rfl
@[simp] theorem State.noteWrite_surv (s : State) (a : Nat) : (s.noteWrite a).surv = s.surv := rfl
@[simp] theorem State.noteWrite_b4 (s : State) (a : Nat) : (s.noteWrite a).b4 = s.b4 := rfl
@[simp] theorem State.noteWrite_reg (s : State) (a : Nat) (adr : Nat) : (s.noteWrite a).reg adr = s.reg adr := rfl
@[simp] theorem memByte_noteWrite (s : State) (a : Nat) (adr : Nat) : memByte (s.noteWrite a) adr = memByte s adr := rfl

/-! State.setHead. -/

@[simp] theorem State.setHead_pending (s : State) (n : Nat) (h : HeadSt) : (s.setHead n h).pending = s.pending := rfl
@[simp] theorem State.setHead_fresh (s : State) (n : Nat) (h : HeadSt) : (s.setHead n h).fresh = s.fresh := rfl
@[simp] theorem State.setHead_fclk (s : State) (n : Nat) (h : HeadSt) : (s.setHead n h).fclk = s.fclk := rfl
@[simp] theorem State.setHead_upTicks (s : State) (n : Nat) (h : HeadSt) : (s.setHead n h).upTicks = s.upTicks := rfl
@[simp] theorem State.setHead_cyc (s : State) (n : Nat) (h : HeadSt) : (s.setHead n h).cyc = s.cyc := rfl
@[simp] theorem State.setHead_mode (s : State) (n : Nat) (h : HeadSt) : (s.setHead n h).mode = s.mode := rfl
@[simp] theorem State.setHead_cfg (s : State) (n : Nat) (h : HeadSt) : (s.setHead n h).cfg = s.cfg := rfl
@[simp] theorem State.setHead_regs (s : State) (n : Nat) (h : HeadSt) : (s.setHead n h).regs = s.regs := rfl
@[simp] theorem State.setHead_shadow (s : State) (n : Nat) (h : HeadSt) : (s.setHead n h).shadow = s.shadow := rfl
@[simp] theorem State.setHead_pends (s : State) (n : Nat) (h : HeadSt) : (s.setHead n h).pends = s.pends := rfl
@[simp] theorem State.setHead_slots (s : State) (n : Nat) (h : HeadSt) : (s.setHead n h).slots = s.slots := rfl
@[simp] theorem State.setHead_latches (s : State) (n : Nat) (h : HeadSt) : (s.setHead n h).latches = s.latches := rfl
@[simp] theorem State.setHead_crossings (s : State) (n : Nat) (h : HeadSt) : (s.setHead n h).crossings = s.crossings := rfl
@[simp] theorem State.setHead_answer (s : State) (n : Nat) (h : HeadSt) : (s.setHead n h).answer = s.answer := rfl
@[simp] theorem State.setHead_log (s : State) (n : Nat) (h : HeadSt) : (s.setHead n h).log = s.log := rfl
@[simp] theorem State.setHead_legend (s : State) (n : Nat) (h : HeadSt) : (s.setHead n h).legend = s.legend := rfl
@[simp] theorem State.setHead_mem (s : State) (n : Nat) (h : HeadSt) : (s.setHead n h).mem = s.mem := rfl
@[simp] theorem State.setHead_xlate (s : State) (n : Nat) (h : HeadSt) : (s.setHead n h).xlate = s.xlate := rfl
@[simp] theorem State.setHead_rings (s : State) (n : Nat) (h : HeadSt) : (s.setHead n h).rings = s.rings := rfl
@[simp] theorem State.setHead_ports (s : State) (n : Nat) (h : HeadSt) : (s.setHead n h).ports = s.ports := rfl
@[simp] theorem State.setHead_cvus (s : State) (n : Nat) (h : HeadSt) : (s.setHead n h).cvus = s.cvus := rfl
@[simp] theorem State.setHead_safe (s : State) (n : Nat) (h : HeadSt) : (s.setHead n h).safe = s.safe := rfl
@[simp] theorem State.setHead_sched (s : State) (n : Nat) (h : HeadSt) : (s.setHead n h).sched = s.sched := rfl
@[simp] theorem State.setHead_cpx (s : State) (n : Nat) (h : HeadSt) : (s.setHead n h).cpx = s.cpx := rfl
@[simp] theorem State.setHead_keys (s : State) (n : Nat) (h : HeadSt) : (s.setHead n h).keys = s.keys := rfl
@[simp] theorem State.setHead_keyWait (s : State) (n : Nat) (h : HeadSt) : (s.setHead n h).keyWait = s.keyWait := rfl
@[simp] theorem State.setHead_scans (s : State) (n : Nat) (h : HeadSt) : (s.setHead n h).scans = s.scans := rfl
@[simp] theorem State.setHead_haps (s : State) (n : Nat) (h : HeadSt) : (s.setHead n h).haps = s.haps := rfl
@[simp] theorem State.setHead_audio (s : State) (n : Nat) (h : HeadSt) : (s.setHead n h).audio = s.audio := rfl
@[simp] theorem State.setHead_surv (s : State) (n : Nat) (h : HeadSt) : (s.setHead n h).surv = s.surv := rfl
@[simp] theorem State.setHead_b4 (s : State) (n : Nat) (h : HeadSt) : (s.setHead n h).b4 = s.b4 := rfl
@[simp] theorem State.setHead_reg (s : State) (n : Nat) (h : HeadSt) (adr : Nat) : (s.setHead n h).reg adr = s.reg adr := rfl
@[simp] theorem memByte_setHead (s : State) (n : Nat) (h : HeadSt) (adr : Nat) : memByte (s.setHead n h) adr = memByte s adr := rfl

/-! State.setCore. -/

@[simp] theorem State.setCore_pending (s : State) (c : Nat) (x : CoreSt) : (s.setCore c x).pending = s.pending := rfl
@[simp] theorem State.setCore_fresh (s : State) (c : Nat) (x : CoreSt) : (s.setCore c x).fresh = s.fresh := rfl
@[simp] theorem State.setCore_fclk (s : State) (c : Nat) (x : CoreSt) : (s.setCore c x).fclk = s.fclk := rfl
@[simp] theorem State.setCore_upTicks (s : State) (c : Nat) (x : CoreSt) : (s.setCore c x).upTicks = s.upTicks := rfl
@[simp] theorem State.setCore_cyc (s : State) (c : Nat) (x : CoreSt) : (s.setCore c x).cyc = s.cyc := rfl
@[simp] theorem State.setCore_mode (s : State) (c : Nat) (x : CoreSt) : (s.setCore c x).mode = s.mode := rfl
@[simp] theorem State.setCore_cfg (s : State) (c : Nat) (x : CoreSt) : (s.setCore c x).cfg = s.cfg := rfl
@[simp] theorem State.setCore_regs (s : State) (c : Nat) (x : CoreSt) : (s.setCore c x).regs = s.regs := rfl
@[simp] theorem State.setCore_shadow (s : State) (c : Nat) (x : CoreSt) : (s.setCore c x).shadow = s.shadow := rfl
@[simp] theorem State.setCore_pends (s : State) (c : Nat) (x : CoreSt) : (s.setCore c x).pends = s.pends := rfl
@[simp] theorem State.setCore_slots (s : State) (c : Nat) (x : CoreSt) : (s.setCore c x).slots = s.slots := rfl
@[simp] theorem State.setCore_latches (s : State) (c : Nat) (x : CoreSt) : (s.setCore c x).latches = s.latches := rfl
@[simp] theorem State.setCore_crossings (s : State) (c : Nat) (x : CoreSt) : (s.setCore c x).crossings = s.crossings := rfl
@[simp] theorem State.setCore_answer (s : State) (c : Nat) (x : CoreSt) : (s.setCore c x).answer = s.answer := rfl
@[simp] theorem State.setCore_log (s : State) (c : Nat) (x : CoreSt) : (s.setCore c x).log = s.log := rfl
@[simp] theorem State.setCore_legend (s : State) (c : Nat) (x : CoreSt) : (s.setCore c x).legend = s.legend := rfl
@[simp] theorem State.setCore_heads (s : State) (c : Nat) (x : CoreSt) : (s.setCore c x).heads = s.heads := rfl
@[simp] theorem State.setCore_mem (s : State) (c : Nat) (x : CoreSt) : (s.setCore c x).mem = s.mem := rfl
@[simp] theorem State.setCore_xlate (s : State) (c : Nat) (x : CoreSt) : (s.setCore c x).xlate = s.xlate := rfl
@[simp] theorem State.setCore_rings (s : State) (c : Nat) (x : CoreSt) : (s.setCore c x).rings = s.rings := rfl
@[simp] theorem State.setCore_ports (s : State) (c : Nat) (x : CoreSt) : (s.setCore c x).ports = s.ports := rfl
@[simp] theorem State.setCore_cvus (s : State) (c : Nat) (x : CoreSt) : (s.setCore c x).cvus = s.cvus := rfl
@[simp] theorem State.setCore_safe (s : State) (c : Nat) (x : CoreSt) : (s.setCore c x).safe = s.safe := rfl
@[simp] theorem State.setCore_sched (s : State) (c : Nat) (x : CoreSt) : (s.setCore c x).sched = s.sched := rfl
@[simp] theorem State.setCore_keys (s : State) (c : Nat) (x : CoreSt) : (s.setCore c x).keys = s.keys := rfl
@[simp] theorem State.setCore_keyWait (s : State) (c : Nat) (x : CoreSt) : (s.setCore c x).keyWait = s.keyWait := rfl
@[simp] theorem State.setCore_scans (s : State) (c : Nat) (x : CoreSt) : (s.setCore c x).scans = s.scans := rfl
@[simp] theorem State.setCore_haps (s : State) (c : Nat) (x : CoreSt) : (s.setCore c x).haps = s.haps := rfl
@[simp] theorem State.setCore_audio (s : State) (c : Nat) (x : CoreSt) : (s.setCore c x).audio = s.audio := rfl
@[simp] theorem State.setCore_surv (s : State) (c : Nat) (x : CoreSt) : (s.setCore c x).surv = s.surv := rfl
@[simp] theorem State.setCore_b4 (s : State) (c : Nat) (x : CoreSt) : (s.setCore c x).b4 = s.b4 := rfl
@[simp] theorem State.setCore_reg (s : State) (c : Nat) (x : CoreSt) (adr : Nat) : (s.setCore c x).reg adr = s.reg adr := rfl
@[simp] theorem memByte_setCore (s : State) (c : Nat) (x : CoreSt) (adr : Nat) : memByte (s.setCore c x) adr = memByte s adr := rfl

/-! State.setRing. -/

@[simp] theorem State.setRing_pending (s : State) (r : Nat) (x : RingSt) : (s.setRing r x).pending = s.pending := rfl
@[simp] theorem State.setRing_fresh (s : State) (r : Nat) (x : RingSt) : (s.setRing r x).fresh = s.fresh := rfl
@[simp] theorem State.setRing_fclk (s : State) (r : Nat) (x : RingSt) : (s.setRing r x).fclk = s.fclk := rfl
@[simp] theorem State.setRing_upTicks (s : State) (r : Nat) (x : RingSt) : (s.setRing r x).upTicks = s.upTicks := rfl
@[simp] theorem State.setRing_cyc (s : State) (r : Nat) (x : RingSt) : (s.setRing r x).cyc = s.cyc := rfl
@[simp] theorem State.setRing_mode (s : State) (r : Nat) (x : RingSt) : (s.setRing r x).mode = s.mode := rfl
@[simp] theorem State.setRing_cfg (s : State) (r : Nat) (x : RingSt) : (s.setRing r x).cfg = s.cfg := rfl
@[simp] theorem State.setRing_regs (s : State) (r : Nat) (x : RingSt) : (s.setRing r x).regs = s.regs := rfl
@[simp] theorem State.setRing_shadow (s : State) (r : Nat) (x : RingSt) : (s.setRing r x).shadow = s.shadow := rfl
@[simp] theorem State.setRing_pends (s : State) (r : Nat) (x : RingSt) : (s.setRing r x).pends = s.pends := rfl
@[simp] theorem State.setRing_slots (s : State) (r : Nat) (x : RingSt) : (s.setRing r x).slots = s.slots := rfl
@[simp] theorem State.setRing_latches (s : State) (r : Nat) (x : RingSt) : (s.setRing r x).latches = s.latches := rfl
@[simp] theorem State.setRing_crossings (s : State) (r : Nat) (x : RingSt) : (s.setRing r x).crossings = s.crossings := rfl
@[simp] theorem State.setRing_answer (s : State) (r : Nat) (x : RingSt) : (s.setRing r x).answer = s.answer := rfl
@[simp] theorem State.setRing_log (s : State) (r : Nat) (x : RingSt) : (s.setRing r x).log = s.log := rfl
@[simp] theorem State.setRing_legend (s : State) (r : Nat) (x : RingSt) : (s.setRing r x).legend = s.legend := rfl
@[simp] theorem State.setRing_heads (s : State) (r : Nat) (x : RingSt) : (s.setRing r x).heads = s.heads := rfl
@[simp] theorem State.setRing_mem (s : State) (r : Nat) (x : RingSt) : (s.setRing r x).mem = s.mem := rfl
@[simp] theorem State.setRing_xlate (s : State) (r : Nat) (x : RingSt) : (s.setRing r x).xlate = s.xlate := rfl
@[simp] theorem State.setRing_ports (s : State) (r : Nat) (x : RingSt) : (s.setRing r x).ports = s.ports := rfl
@[simp] theorem State.setRing_cvus (s : State) (r : Nat) (x : RingSt) : (s.setRing r x).cvus = s.cvus := rfl
@[simp] theorem State.setRing_safe (s : State) (r : Nat) (x : RingSt) : (s.setRing r x).safe = s.safe := rfl
@[simp] theorem State.setRing_sched (s : State) (r : Nat) (x : RingSt) : (s.setRing r x).sched = s.sched := rfl
@[simp] theorem State.setRing_cpx (s : State) (r : Nat) (x : RingSt) : (s.setRing r x).cpx = s.cpx := rfl
@[simp] theorem State.setRing_keys (s : State) (r : Nat) (x : RingSt) : (s.setRing r x).keys = s.keys := rfl
@[simp] theorem State.setRing_keyWait (s : State) (r : Nat) (x : RingSt) : (s.setRing r x).keyWait = s.keyWait := rfl
@[simp] theorem State.setRing_scans (s : State) (r : Nat) (x : RingSt) : (s.setRing r x).scans = s.scans := rfl
@[simp] theorem State.setRing_haps (s : State) (r : Nat) (x : RingSt) : (s.setRing r x).haps = s.haps := rfl
@[simp] theorem State.setRing_audio (s : State) (r : Nat) (x : RingSt) : (s.setRing r x).audio = s.audio := rfl
@[simp] theorem State.setRing_surv (s : State) (r : Nat) (x : RingSt) : (s.setRing r x).surv = s.surv := rfl
@[simp] theorem State.setRing_b4 (s : State) (r : Nat) (x : RingSt) : (s.setRing r x).b4 = s.b4 := rfl
@[simp] theorem State.setRing_reg (s : State) (r : Nat) (x : RingSt) (adr : Nat) : (s.setRing r x).reg adr = s.reg adr := rfl
@[simp] theorem memByte_setRing (s : State) (r : Nat) (x : RingSt) (adr : Nat) : memByte (s.setRing r x) adr = memByte s adr := rfl

/-! State.setJob. -/

@[simp] theorem State.setJob_pending (s : State) (i : Nat) (j : Option Job) : (s.setJob i j).pending = s.pending := rfl
@[simp] theorem State.setJob_fresh (s : State) (i : Nat) (j : Option Job) : (s.setJob i j).fresh = s.fresh := rfl
@[simp] theorem State.setJob_fclk (s : State) (i : Nat) (j : Option Job) : (s.setJob i j).fclk = s.fclk := rfl
@[simp] theorem State.setJob_upTicks (s : State) (i : Nat) (j : Option Job) : (s.setJob i j).upTicks = s.upTicks := rfl
@[simp] theorem State.setJob_cyc (s : State) (i : Nat) (j : Option Job) : (s.setJob i j).cyc = s.cyc := rfl
@[simp] theorem State.setJob_mode (s : State) (i : Nat) (j : Option Job) : (s.setJob i j).mode = s.mode := rfl
@[simp] theorem State.setJob_cfg (s : State) (i : Nat) (j : Option Job) : (s.setJob i j).cfg = s.cfg := rfl
@[simp] theorem State.setJob_shadow (s : State) (i : Nat) (j : Option Job) : (s.setJob i j).shadow = s.shadow := rfl
@[simp] theorem State.setJob_pends (s : State) (i : Nat) (j : Option Job) : (s.setJob i j).pends = s.pends := rfl
@[simp] theorem State.setJob_slots (s : State) (i : Nat) (j : Option Job) : (s.setJob i j).slots = s.slots := rfl
@[simp] theorem State.setJob_latches (s : State) (i : Nat) (j : Option Job) : (s.setJob i j).latches = s.latches := rfl
@[simp] theorem State.setJob_crossings (s : State) (i : Nat) (j : Option Job) : (s.setJob i j).crossings = s.crossings := rfl
@[simp] theorem State.setJob_answer (s : State) (i : Nat) (j : Option Job) : (s.setJob i j).answer = s.answer := rfl
@[simp] theorem State.setJob_log (s : State) (i : Nat) (j : Option Job) : (s.setJob i j).log = s.log := rfl
@[simp] theorem State.setJob_legend (s : State) (i : Nat) (j : Option Job) : (s.setJob i j).legend = s.legend := rfl
@[simp] theorem State.setJob_heads (s : State) (i : Nat) (j : Option Job) : (s.setJob i j).heads = s.heads := rfl
@[simp] theorem State.setJob_mem (s : State) (i : Nat) (j : Option Job) : (s.setJob i j).mem = s.mem := rfl
@[simp] theorem State.setJob_xlate (s : State) (i : Nat) (j : Option Job) : (s.setJob i j).xlate = s.xlate := rfl
@[simp] theorem State.setJob_rings (s : State) (i : Nat) (j : Option Job) : (s.setJob i j).rings = s.rings := rfl
@[simp] theorem State.setJob_ports (s : State) (i : Nat) (j : Option Job) : (s.setJob i j).ports = s.ports := rfl
@[simp] theorem State.setJob_cvus (s : State) (i : Nat) (j : Option Job) : (s.setJob i j).cvus = s.cvus := rfl
@[simp] theorem State.setJob_safe (s : State) (i : Nat) (j : Option Job) : (s.setJob i j).safe = s.safe := rfl
@[simp] theorem State.setJob_cpx (s : State) (i : Nat) (j : Option Job) : (s.setJob i j).cpx = s.cpx := rfl
@[simp] theorem State.setJob_keys (s : State) (i : Nat) (j : Option Job) : (s.setJob i j).keys = s.keys := rfl
@[simp] theorem State.setJob_keyWait (s : State) (i : Nat) (j : Option Job) : (s.setJob i j).keyWait = s.keyWait := rfl
@[simp] theorem State.setJob_scans (s : State) (i : Nat) (j : Option Job) : (s.setJob i j).scans = s.scans := rfl
@[simp] theorem State.setJob_haps (s : State) (i : Nat) (j : Option Job) : (s.setJob i j).haps = s.haps := rfl
@[simp] theorem State.setJob_audio (s : State) (i : Nat) (j : Option Job) : (s.setJob i j).audio = s.audio := rfl
@[simp] theorem State.setJob_surv (s : State) (i : Nat) (j : Option Job) : (s.setJob i j).surv = s.surv := rfl
@[simp] theorem State.setJob_b4 (s : State) (i : Nat) (j : Option Job) : (s.setJob i j).b4 = s.b4 := rfl
@[simp] theorem memByte_setJob (s : State) (i : Nat) (j : Option Job) (adr : Nat) : memByte (s.setJob i j) adr = memByte s adr := rfl

/-! State.setB4. -/

@[simp] theorem State.setB4_pending (s : State) (o : Nat) (v : Word) : (s.setB4 o v).pending = s.pending := rfl
@[simp] theorem State.setB4_fresh (s : State) (o : Nat) (v : Word) : (s.setB4 o v).fresh = s.fresh := rfl
@[simp] theorem State.setB4_fclk (s : State) (o : Nat) (v : Word) : (s.setB4 o v).fclk = s.fclk := rfl
@[simp] theorem State.setB4_upTicks (s : State) (o : Nat) (v : Word) : (s.setB4 o v).upTicks = s.upTicks := rfl
@[simp] theorem State.setB4_cyc (s : State) (o : Nat) (v : Word) : (s.setB4 o v).cyc = s.cyc := rfl
@[simp] theorem State.setB4_mode (s : State) (o : Nat) (v : Word) : (s.setB4 o v).mode = s.mode := rfl
@[simp] theorem State.setB4_cfg (s : State) (o : Nat) (v : Word) : (s.setB4 o v).cfg = s.cfg := rfl
@[simp] theorem State.setB4_regs (s : State) (o : Nat) (v : Word) : (s.setB4 o v).regs = s.regs := rfl
@[simp] theorem State.setB4_shadow (s : State) (o : Nat) (v : Word) : (s.setB4 o v).shadow = s.shadow := rfl
@[simp] theorem State.setB4_pends (s : State) (o : Nat) (v : Word) : (s.setB4 o v).pends = s.pends := rfl
@[simp] theorem State.setB4_slots (s : State) (o : Nat) (v : Word) : (s.setB4 o v).slots = s.slots := rfl
@[simp] theorem State.setB4_latches (s : State) (o : Nat) (v : Word) : (s.setB4 o v).latches = s.latches := rfl
@[simp] theorem State.setB4_crossings (s : State) (o : Nat) (v : Word) : (s.setB4 o v).crossings = s.crossings := rfl
@[simp] theorem State.setB4_answer (s : State) (o : Nat) (v : Word) : (s.setB4 o v).answer = s.answer := rfl
@[simp] theorem State.setB4_log (s : State) (o : Nat) (v : Word) : (s.setB4 o v).log = s.log := rfl
@[simp] theorem State.setB4_legend (s : State) (o : Nat) (v : Word) : (s.setB4 o v).legend = s.legend := rfl
@[simp] theorem State.setB4_heads (s : State) (o : Nat) (v : Word) : (s.setB4 o v).heads = s.heads := rfl
@[simp] theorem State.setB4_mem (s : State) (o : Nat) (v : Word) : (s.setB4 o v).mem = s.mem := rfl
@[simp] theorem State.setB4_xlate (s : State) (o : Nat) (v : Word) : (s.setB4 o v).xlate = s.xlate := rfl
@[simp] theorem State.setB4_rings (s : State) (o : Nat) (v : Word) : (s.setB4 o v).rings = s.rings := rfl
@[simp] theorem State.setB4_ports (s : State) (o : Nat) (v : Word) : (s.setB4 o v).ports = s.ports := rfl
@[simp] theorem State.setB4_cvus (s : State) (o : Nat) (v : Word) : (s.setB4 o v).cvus = s.cvus := rfl
@[simp] theorem State.setB4_safe (s : State) (o : Nat) (v : Word) : (s.setB4 o v).safe = s.safe := rfl
@[simp] theorem State.setB4_sched (s : State) (o : Nat) (v : Word) : (s.setB4 o v).sched = s.sched := rfl
@[simp] theorem State.setB4_cpx (s : State) (o : Nat) (v : Word) : (s.setB4 o v).cpx = s.cpx := rfl
@[simp] theorem State.setB4_keys (s : State) (o : Nat) (v : Word) : (s.setB4 o v).keys = s.keys := rfl
@[simp] theorem State.setB4_keyWait (s : State) (o : Nat) (v : Word) : (s.setB4 o v).keyWait = s.keyWait := rfl
@[simp] theorem State.setB4_scans (s : State) (o : Nat) (v : Word) : (s.setB4 o v).scans = s.scans := rfl
@[simp] theorem State.setB4_haps (s : State) (o : Nat) (v : Word) : (s.setB4 o v).haps = s.haps := rfl
@[simp] theorem State.setB4_audio (s : State) (o : Nat) (v : Word) : (s.setB4 o v).audio = s.audio := rfl
@[simp] theorem State.setB4_surv (s : State) (o : Nat) (v : Word) : (s.setB4 o v).surv = s.surv := rfl
@[simp] theorem State.setB4_reg (s : State) (o : Nat) (v : Word) (adr : Nat) : (s.setB4 o v).reg adr = s.reg adr := rfl
@[simp] theorem memByte_setB4 (s : State) (o : Nat) (v : Word) (adr : Nat) : memByte (s.setB4 o v) adr = memByte s adr := rfl

/-! State.setCvu. -/

@[simp] theorem State.setCvu_pending (s : State) (u : Nat) (c : CvuSt) : (s.setCvu u c).pending = s.pending := rfl
@[simp] theorem State.setCvu_fresh (s : State) (u : Nat) (c : CvuSt) : (s.setCvu u c).fresh = s.fresh := rfl
@[simp] theorem State.setCvu_fclk (s : State) (u : Nat) (c : CvuSt) : (s.setCvu u c).fclk = s.fclk := rfl
@[simp] theorem State.setCvu_upTicks (s : State) (u : Nat) (c : CvuSt) : (s.setCvu u c).upTicks = s.upTicks := rfl
@[simp] theorem State.setCvu_cyc (s : State) (u : Nat) (c : CvuSt) : (s.setCvu u c).cyc = s.cyc := rfl
@[simp] theorem State.setCvu_mode (s : State) (u : Nat) (c : CvuSt) : (s.setCvu u c).mode = s.mode := rfl
@[simp] theorem State.setCvu_cfg (s : State) (u : Nat) (c : CvuSt) : (s.setCvu u c).cfg = s.cfg := rfl
@[simp] theorem State.setCvu_regs (s : State) (u : Nat) (c : CvuSt) : (s.setCvu u c).regs = s.regs := rfl
@[simp] theorem State.setCvu_shadow (s : State) (u : Nat) (c : CvuSt) : (s.setCvu u c).shadow = s.shadow := rfl
@[simp] theorem State.setCvu_pends (s : State) (u : Nat) (c : CvuSt) : (s.setCvu u c).pends = s.pends := rfl
@[simp] theorem State.setCvu_slots (s : State) (u : Nat) (c : CvuSt) : (s.setCvu u c).slots = s.slots := rfl
@[simp] theorem State.setCvu_latches (s : State) (u : Nat) (c : CvuSt) : (s.setCvu u c).latches = s.latches := rfl
@[simp] theorem State.setCvu_crossings (s : State) (u : Nat) (c : CvuSt) : (s.setCvu u c).crossings = s.crossings := rfl
@[simp] theorem State.setCvu_answer (s : State) (u : Nat) (c : CvuSt) : (s.setCvu u c).answer = s.answer := rfl
@[simp] theorem State.setCvu_log (s : State) (u : Nat) (c : CvuSt) : (s.setCvu u c).log = s.log := rfl
@[simp] theorem State.setCvu_legend (s : State) (u : Nat) (c : CvuSt) : (s.setCvu u c).legend = s.legend := rfl
@[simp] theorem State.setCvu_heads (s : State) (u : Nat) (c : CvuSt) : (s.setCvu u c).heads = s.heads := rfl
@[simp] theorem State.setCvu_mem (s : State) (u : Nat) (c : CvuSt) : (s.setCvu u c).mem = s.mem := rfl
@[simp] theorem State.setCvu_xlate (s : State) (u : Nat) (c : CvuSt) : (s.setCvu u c).xlate = s.xlate := rfl
@[simp] theorem State.setCvu_rings (s : State) (u : Nat) (c : CvuSt) : (s.setCvu u c).rings = s.rings := rfl
@[simp] theorem State.setCvu_ports (s : State) (u : Nat) (c : CvuSt) : (s.setCvu u c).ports = s.ports := rfl
@[simp] theorem State.setCvu_safe (s : State) (u : Nat) (c : CvuSt) : (s.setCvu u c).safe = s.safe := rfl
@[simp] theorem State.setCvu_sched (s : State) (u : Nat) (c : CvuSt) : (s.setCvu u c).sched = s.sched := rfl
@[simp] theorem State.setCvu_cpx (s : State) (u : Nat) (c : CvuSt) : (s.setCvu u c).cpx = s.cpx := rfl
@[simp] theorem State.setCvu_keys (s : State) (u : Nat) (c : CvuSt) : (s.setCvu u c).keys = s.keys := rfl
@[simp] theorem State.setCvu_keyWait (s : State) (u : Nat) (c : CvuSt) : (s.setCvu u c).keyWait = s.keyWait := rfl
@[simp] theorem State.setCvu_scans (s : State) (u : Nat) (c : CvuSt) : (s.setCvu u c).scans = s.scans := rfl
@[simp] theorem State.setCvu_haps (s : State) (u : Nat) (c : CvuSt) : (s.setCvu u c).haps = s.haps := rfl
@[simp] theorem State.setCvu_audio (s : State) (u : Nat) (c : CvuSt) : (s.setCvu u c).audio = s.audio := rfl
@[simp] theorem State.setCvu_surv (s : State) (u : Nat) (c : CvuSt) : (s.setCvu u c).surv = s.surv := rfl
@[simp] theorem State.setCvu_b4 (s : State) (u : Nat) (c : CvuSt) : (s.setCvu u c).b4 = s.b4 := rfl
@[simp] theorem State.setCvu_reg (s : State) (u : Nat) (c : CvuSt) (adr : Nat) : (s.setCvu u c).reg adr = s.reg adr := rfl
@[simp] theorem memByte_setCvu (s : State) (u : Nat) (c : CvuSt) (adr : Nat) : memByte (s.setCvu u c) adr = memByte s adr := rfl

/-! State.setHap. -/

@[simp] theorem State.setHap_pending (s : State) (ch : Nat) (h : HapSt) : (s.setHap ch h).pending = s.pending := rfl
@[simp] theorem State.setHap_fresh (s : State) (ch : Nat) (h : HapSt) : (s.setHap ch h).fresh = s.fresh := rfl
@[simp] theorem State.setHap_fclk (s : State) (ch : Nat) (h : HapSt) : (s.setHap ch h).fclk = s.fclk := rfl
@[simp] theorem State.setHap_upTicks (s : State) (ch : Nat) (h : HapSt) : (s.setHap ch h).upTicks = s.upTicks := rfl
@[simp] theorem State.setHap_cyc (s : State) (ch : Nat) (h : HapSt) : (s.setHap ch h).cyc = s.cyc := rfl
@[simp] theorem State.setHap_mode (s : State) (ch : Nat) (h : HapSt) : (s.setHap ch h).mode = s.mode := rfl
@[simp] theorem State.setHap_cfg (s : State) (ch : Nat) (h : HapSt) : (s.setHap ch h).cfg = s.cfg := rfl
@[simp] theorem State.setHap_regs (s : State) (ch : Nat) (h : HapSt) : (s.setHap ch h).regs = s.regs := rfl
@[simp] theorem State.setHap_shadow (s : State) (ch : Nat) (h : HapSt) : (s.setHap ch h).shadow = s.shadow := rfl
@[simp] theorem State.setHap_pends (s : State) (ch : Nat) (h : HapSt) : (s.setHap ch h).pends = s.pends := rfl
@[simp] theorem State.setHap_slots (s : State) (ch : Nat) (h : HapSt) : (s.setHap ch h).slots = s.slots := rfl
@[simp] theorem State.setHap_latches (s : State) (ch : Nat) (h : HapSt) : (s.setHap ch h).latches = s.latches := rfl
@[simp] theorem State.setHap_crossings (s : State) (ch : Nat) (h : HapSt) : (s.setHap ch h).crossings = s.crossings := rfl
@[simp] theorem State.setHap_answer (s : State) (ch : Nat) (h : HapSt) : (s.setHap ch h).answer = s.answer := rfl
@[simp] theorem State.setHap_log (s : State) (ch : Nat) (h : HapSt) : (s.setHap ch h).log = s.log := rfl
@[simp] theorem State.setHap_legend (s : State) (ch : Nat) (h : HapSt) : (s.setHap ch h).legend = s.legend := rfl
@[simp] theorem State.setHap_heads (s : State) (ch : Nat) (h : HapSt) : (s.setHap ch h).heads = s.heads := rfl
@[simp] theorem State.setHap_mem (s : State) (ch : Nat) (h : HapSt) : (s.setHap ch h).mem = s.mem := rfl
@[simp] theorem State.setHap_xlate (s : State) (ch : Nat) (h : HapSt) : (s.setHap ch h).xlate = s.xlate := rfl
@[simp] theorem State.setHap_rings (s : State) (ch : Nat) (h : HapSt) : (s.setHap ch h).rings = s.rings := rfl
@[simp] theorem State.setHap_ports (s : State) (ch : Nat) (h : HapSt) : (s.setHap ch h).ports = s.ports := rfl
@[simp] theorem State.setHap_cvus (s : State) (ch : Nat) (h : HapSt) : (s.setHap ch h).cvus = s.cvus := rfl
@[simp] theorem State.setHap_safe (s : State) (ch : Nat) (h : HapSt) : (s.setHap ch h).safe = s.safe := rfl
@[simp] theorem State.setHap_sched (s : State) (ch : Nat) (h : HapSt) : (s.setHap ch h).sched = s.sched := rfl
@[simp] theorem State.setHap_cpx (s : State) (ch : Nat) (h : HapSt) : (s.setHap ch h).cpx = s.cpx := rfl
@[simp] theorem State.setHap_keys (s : State) (ch : Nat) (h : HapSt) : (s.setHap ch h).keys = s.keys := rfl
@[simp] theorem State.setHap_keyWait (s : State) (ch : Nat) (h : HapSt) : (s.setHap ch h).keyWait = s.keyWait := rfl
@[simp] theorem State.setHap_scans (s : State) (ch : Nat) (h : HapSt) : (s.setHap ch h).scans = s.scans := rfl
@[simp] theorem State.setHap_audio (s : State) (ch : Nat) (h : HapSt) : (s.setHap ch h).audio = s.audio := rfl
@[simp] theorem State.setHap_surv (s : State) (ch : Nat) (h : HapSt) : (s.setHap ch h).surv = s.surv := rfl
@[simp] theorem State.setHap_b4 (s : State) (ch : Nat) (h : HapSt) : (s.setHap ch h).b4 = s.b4 := rfl
@[simp] theorem State.setHap_reg (s : State) (ch : Nat) (h : HapSt) (adr : Nat) : (s.setHap ch h).reg adr = s.reg adr := rfl
@[simp] theorem memByte_setHap (s : State) (ch : Nat) (h : HapSt) (adr : Nat) : memByte (s.setHap ch h) adr = memByte s adr := rfl

/-! State.setKey. -/

@[simp] theorem State.setKey_pending (s : State) (k : Nat) (x : KeySt) : (s.setKey k x).pending = s.pending := rfl
@[simp] theorem State.setKey_fresh (s : State) (k : Nat) (x : KeySt) : (s.setKey k x).fresh = s.fresh := rfl
@[simp] theorem State.setKey_fclk (s : State) (k : Nat) (x : KeySt) : (s.setKey k x).fclk = s.fclk := rfl
@[simp] theorem State.setKey_upTicks (s : State) (k : Nat) (x : KeySt) : (s.setKey k x).upTicks = s.upTicks := rfl
@[simp] theorem State.setKey_cyc (s : State) (k : Nat) (x : KeySt) : (s.setKey k x).cyc = s.cyc := rfl
@[simp] theorem State.setKey_mode (s : State) (k : Nat) (x : KeySt) : (s.setKey k x).mode = s.mode := rfl
@[simp] theorem State.setKey_cfg (s : State) (k : Nat) (x : KeySt) : (s.setKey k x).cfg = s.cfg := rfl
@[simp] theorem State.setKey_regs (s : State) (k : Nat) (x : KeySt) : (s.setKey k x).regs = s.regs := rfl
@[simp] theorem State.setKey_shadow (s : State) (k : Nat) (x : KeySt) : (s.setKey k x).shadow = s.shadow := rfl
@[simp] theorem State.setKey_pends (s : State) (k : Nat) (x : KeySt) : (s.setKey k x).pends = s.pends := rfl
@[simp] theorem State.setKey_slots (s : State) (k : Nat) (x : KeySt) : (s.setKey k x).slots = s.slots := rfl
@[simp] theorem State.setKey_latches (s : State) (k : Nat) (x : KeySt) : (s.setKey k x).latches = s.latches := rfl
@[simp] theorem State.setKey_crossings (s : State) (k : Nat) (x : KeySt) : (s.setKey k x).crossings = s.crossings := rfl
@[simp] theorem State.setKey_answer (s : State) (k : Nat) (x : KeySt) : (s.setKey k x).answer = s.answer := rfl
@[simp] theorem State.setKey_log (s : State) (k : Nat) (x : KeySt) : (s.setKey k x).log = s.log := rfl
@[simp] theorem State.setKey_legend (s : State) (k : Nat) (x : KeySt) : (s.setKey k x).legend = s.legend := rfl
@[simp] theorem State.setKey_heads (s : State) (k : Nat) (x : KeySt) : (s.setKey k x).heads = s.heads := rfl
@[simp] theorem State.setKey_mem (s : State) (k : Nat) (x : KeySt) : (s.setKey k x).mem = s.mem := rfl
@[simp] theorem State.setKey_xlate (s : State) (k : Nat) (x : KeySt) : (s.setKey k x).xlate = s.xlate := rfl
@[simp] theorem State.setKey_rings (s : State) (k : Nat) (x : KeySt) : (s.setKey k x).rings = s.rings := rfl
@[simp] theorem State.setKey_ports (s : State) (k : Nat) (x : KeySt) : (s.setKey k x).ports = s.ports := rfl
@[simp] theorem State.setKey_cvus (s : State) (k : Nat) (x : KeySt) : (s.setKey k x).cvus = s.cvus := rfl
@[simp] theorem State.setKey_safe (s : State) (k : Nat) (x : KeySt) : (s.setKey k x).safe = s.safe := rfl
@[simp] theorem State.setKey_sched (s : State) (k : Nat) (x : KeySt) : (s.setKey k x).sched = s.sched := rfl
@[simp] theorem State.setKey_cpx (s : State) (k : Nat) (x : KeySt) : (s.setKey k x).cpx = s.cpx := rfl
@[simp] theorem State.setKey_keyWait (s : State) (k : Nat) (x : KeySt) : (s.setKey k x).keyWait = s.keyWait := rfl
@[simp] theorem State.setKey_scans (s : State) (k : Nat) (x : KeySt) : (s.setKey k x).scans = s.scans := rfl
@[simp] theorem State.setKey_haps (s : State) (k : Nat) (x : KeySt) : (s.setKey k x).haps = s.haps := rfl
@[simp] theorem State.setKey_audio (s : State) (k : Nat) (x : KeySt) : (s.setKey k x).audio = s.audio := rfl
@[simp] theorem State.setKey_surv (s : State) (k : Nat) (x : KeySt) : (s.setKey k x).surv = s.surv := rfl
@[simp] theorem State.setKey_b4 (s : State) (k : Nat) (x : KeySt) : (s.setKey k x).b4 = s.b4 := rfl
@[simp] theorem State.setKey_reg (s : State) (k : Nat) (x : KeySt) (adr : Nat) : (s.setKey k x).reg adr = s.reg adr := rfl
@[simp] theorem memByte_setKey (s : State) (k : Nat) (x : KeySt) (adr : Nat) : memByte (s.setKey k x) adr = memByte s adr := rfl

/-! State.setScan. -/

@[simp] theorem State.setScan_pending (s : State) (p : Nat) (x : ScanSt) : (s.setScan p x).pending = s.pending := rfl
@[simp] theorem State.setScan_fresh (s : State) (p : Nat) (x : ScanSt) : (s.setScan p x).fresh = s.fresh := rfl
@[simp] theorem State.setScan_fclk (s : State) (p : Nat) (x : ScanSt) : (s.setScan p x).fclk = s.fclk := rfl
@[simp] theorem State.setScan_upTicks (s : State) (p : Nat) (x : ScanSt) : (s.setScan p x).upTicks = s.upTicks := rfl
@[simp] theorem State.setScan_cyc (s : State) (p : Nat) (x : ScanSt) : (s.setScan p x).cyc = s.cyc := rfl
@[simp] theorem State.setScan_mode (s : State) (p : Nat) (x : ScanSt) : (s.setScan p x).mode = s.mode := rfl
@[simp] theorem State.setScan_cfg (s : State) (p : Nat) (x : ScanSt) : (s.setScan p x).cfg = s.cfg := rfl
@[simp] theorem State.setScan_regs (s : State) (p : Nat) (x : ScanSt) : (s.setScan p x).regs = s.regs := rfl
@[simp] theorem State.setScan_shadow (s : State) (p : Nat) (x : ScanSt) : (s.setScan p x).shadow = s.shadow := rfl
@[simp] theorem State.setScan_pends (s : State) (p : Nat) (x : ScanSt) : (s.setScan p x).pends = s.pends := rfl
@[simp] theorem State.setScan_slots (s : State) (p : Nat) (x : ScanSt) : (s.setScan p x).slots = s.slots := rfl
@[simp] theorem State.setScan_latches (s : State) (p : Nat) (x : ScanSt) : (s.setScan p x).latches = s.latches := rfl
@[simp] theorem State.setScan_crossings (s : State) (p : Nat) (x : ScanSt) : (s.setScan p x).crossings = s.crossings := rfl
@[simp] theorem State.setScan_answer (s : State) (p : Nat) (x : ScanSt) : (s.setScan p x).answer = s.answer := rfl
@[simp] theorem State.setScan_log (s : State) (p : Nat) (x : ScanSt) : (s.setScan p x).log = s.log := rfl
@[simp] theorem State.setScan_legend (s : State) (p : Nat) (x : ScanSt) : (s.setScan p x).legend = s.legend := rfl
@[simp] theorem State.setScan_heads (s : State) (p : Nat) (x : ScanSt) : (s.setScan p x).heads = s.heads := rfl
@[simp] theorem State.setScan_mem (s : State) (p : Nat) (x : ScanSt) : (s.setScan p x).mem = s.mem := rfl
@[simp] theorem State.setScan_xlate (s : State) (p : Nat) (x : ScanSt) : (s.setScan p x).xlate = s.xlate := rfl
@[simp] theorem State.setScan_rings (s : State) (p : Nat) (x : ScanSt) : (s.setScan p x).rings = s.rings := rfl
@[simp] theorem State.setScan_ports (s : State) (p : Nat) (x : ScanSt) : (s.setScan p x).ports = s.ports := rfl
@[simp] theorem State.setScan_cvus (s : State) (p : Nat) (x : ScanSt) : (s.setScan p x).cvus = s.cvus := rfl
@[simp] theorem State.setScan_safe (s : State) (p : Nat) (x : ScanSt) : (s.setScan p x).safe = s.safe := rfl
@[simp] theorem State.setScan_sched (s : State) (p : Nat) (x : ScanSt) : (s.setScan p x).sched = s.sched := rfl
@[simp] theorem State.setScan_cpx (s : State) (p : Nat) (x : ScanSt) : (s.setScan p x).cpx = s.cpx := rfl
@[simp] theorem State.setScan_keys (s : State) (p : Nat) (x : ScanSt) : (s.setScan p x).keys = s.keys := rfl
@[simp] theorem State.setScan_keyWait (s : State) (p : Nat) (x : ScanSt) : (s.setScan p x).keyWait = s.keyWait := rfl
@[simp] theorem State.setScan_haps (s : State) (p : Nat) (x : ScanSt) : (s.setScan p x).haps = s.haps := rfl
@[simp] theorem State.setScan_audio (s : State) (p : Nat) (x : ScanSt) : (s.setScan p x).audio = s.audio := rfl
@[simp] theorem State.setScan_surv (s : State) (p : Nat) (x : ScanSt) : (s.setScan p x).surv = s.surv := rfl
@[simp] theorem State.setScan_b4 (s : State) (p : Nat) (x : ScanSt) : (s.setScan p x).b4 = s.b4 := rfl
@[simp] theorem State.setScan_reg (s : State) (p : Nat) (x : ScanSt) (adr : Nat) : (s.setScan p x).reg adr = s.reg adr := rfl
@[simp] theorem memByte_setScan (s : State) (p : Nat) (x : ScanSt) (adr : Nat) : memByte (s.setScan p x) adr = memByte s adr := rfl

/-! State.setAudio. -/

@[simp] theorem State.setAudio_pending (s : State) (a : AudioSt) : (s.setAudio a).pending = s.pending := rfl
@[simp] theorem State.setAudio_fresh (s : State) (a : AudioSt) : (s.setAudio a).fresh = s.fresh := rfl
@[simp] theorem State.setAudio_fclk (s : State) (a : AudioSt) : (s.setAudio a).fclk = s.fclk := rfl
@[simp] theorem State.setAudio_upTicks (s : State) (a : AudioSt) : (s.setAudio a).upTicks = s.upTicks := rfl
@[simp] theorem State.setAudio_cyc (s : State) (a : AudioSt) : (s.setAudio a).cyc = s.cyc := rfl
@[simp] theorem State.setAudio_mode (s : State) (a : AudioSt) : (s.setAudio a).mode = s.mode := rfl
@[simp] theorem State.setAudio_cfg (s : State) (a : AudioSt) : (s.setAudio a).cfg = s.cfg := rfl
@[simp] theorem State.setAudio_regs (s : State) (a : AudioSt) : (s.setAudio a).regs = s.regs := rfl
@[simp] theorem State.setAudio_shadow (s : State) (a : AudioSt) : (s.setAudio a).shadow = s.shadow := rfl
@[simp] theorem State.setAudio_pends (s : State) (a : AudioSt) : (s.setAudio a).pends = s.pends := rfl
@[simp] theorem State.setAudio_slots (s : State) (a : AudioSt) : (s.setAudio a).slots = s.slots := rfl
@[simp] theorem State.setAudio_latches (s : State) (a : AudioSt) : (s.setAudio a).latches = s.latches := rfl
@[simp] theorem State.setAudio_crossings (s : State) (a : AudioSt) : (s.setAudio a).crossings = s.crossings := rfl
@[simp] theorem State.setAudio_answer (s : State) (a : AudioSt) : (s.setAudio a).answer = s.answer := rfl
@[simp] theorem State.setAudio_log (s : State) (a : AudioSt) : (s.setAudio a).log = s.log := rfl
@[simp] theorem State.setAudio_legend (s : State) (a : AudioSt) : (s.setAudio a).legend = s.legend := rfl
@[simp] theorem State.setAudio_heads (s : State) (a : AudioSt) : (s.setAudio a).heads = s.heads := rfl
@[simp] theorem State.setAudio_mem (s : State) (a : AudioSt) : (s.setAudio a).mem = s.mem := rfl
@[simp] theorem State.setAudio_xlate (s : State) (a : AudioSt) : (s.setAudio a).xlate = s.xlate := rfl
@[simp] theorem State.setAudio_rings (s : State) (a : AudioSt) : (s.setAudio a).rings = s.rings := rfl
@[simp] theorem State.setAudio_ports (s : State) (a : AudioSt) : (s.setAudio a).ports = s.ports := rfl
@[simp] theorem State.setAudio_cvus (s : State) (a : AudioSt) : (s.setAudio a).cvus = s.cvus := rfl
@[simp] theorem State.setAudio_safe (s : State) (a : AudioSt) : (s.setAudio a).safe = s.safe := rfl
@[simp] theorem State.setAudio_sched (s : State) (a : AudioSt) : (s.setAudio a).sched = s.sched := rfl
@[simp] theorem State.setAudio_cpx (s : State) (a : AudioSt) : (s.setAudio a).cpx = s.cpx := rfl
@[simp] theorem State.setAudio_keys (s : State) (a : AudioSt) : (s.setAudio a).keys = s.keys := rfl
@[simp] theorem State.setAudio_keyWait (s : State) (a : AudioSt) : (s.setAudio a).keyWait = s.keyWait := rfl
@[simp] theorem State.setAudio_scans (s : State) (a : AudioSt) : (s.setAudio a).scans = s.scans := rfl
@[simp] theorem State.setAudio_haps (s : State) (a : AudioSt) : (s.setAudio a).haps = s.haps := rfl
@[simp] theorem State.setAudio_surv (s : State) (a : AudioSt) : (s.setAudio a).surv = s.surv := rfl
@[simp] theorem State.setAudio_b4 (s : State) (a : AudioSt) : (s.setAudio a).b4 = s.b4 := rfl
@[simp] theorem State.setAudio_reg (s : State) (a : AudioSt) (adr : Nat) : (s.setAudio a).reg adr = s.reg adr := rfl
@[simp] theorem memByte_setAudio (s : State) (a : AudioSt) (adr : Nat) : memByte (s.setAudio a) adr = memByte s adr := rfl

/-! State.setLegend. -/

@[simp] theorem State.setLegend_pending (s : State) (g : LegendSt) : (s.setLegend g).pending = s.pending := rfl
@[simp] theorem State.setLegend_fresh (s : State) (g : LegendSt) : (s.setLegend g).fresh = s.fresh := rfl
@[simp] theorem State.setLegend_fclk (s : State) (g : LegendSt) : (s.setLegend g).fclk = s.fclk := rfl
@[simp] theorem State.setLegend_upTicks (s : State) (g : LegendSt) : (s.setLegend g).upTicks = s.upTicks := rfl
@[simp] theorem State.setLegend_cyc (s : State) (g : LegendSt) : (s.setLegend g).cyc = s.cyc := rfl
@[simp] theorem State.setLegend_mode (s : State) (g : LegendSt) : (s.setLegend g).mode = s.mode := rfl
@[simp] theorem State.setLegend_cfg (s : State) (g : LegendSt) : (s.setLegend g).cfg = s.cfg := rfl
@[simp] theorem State.setLegend_regs (s : State) (g : LegendSt) : (s.setLegend g).regs = s.regs := rfl
@[simp] theorem State.setLegend_shadow (s : State) (g : LegendSt) : (s.setLegend g).shadow = s.shadow := rfl
@[simp] theorem State.setLegend_pends (s : State) (g : LegendSt) : (s.setLegend g).pends = s.pends := rfl
@[simp] theorem State.setLegend_slots (s : State) (g : LegendSt) : (s.setLegend g).slots = s.slots := rfl
@[simp] theorem State.setLegend_latches (s : State) (g : LegendSt) : (s.setLegend g).latches = s.latches := rfl
@[simp] theorem State.setLegend_crossings (s : State) (g : LegendSt) : (s.setLegend g).crossings = s.crossings := rfl
@[simp] theorem State.setLegend_answer (s : State) (g : LegendSt) : (s.setLegend g).answer = s.answer := rfl
@[simp] theorem State.setLegend_log (s : State) (g : LegendSt) : (s.setLegend g).log = s.log := rfl
@[simp] theorem State.setLegend_heads (s : State) (g : LegendSt) : (s.setLegend g).heads = s.heads := rfl
@[simp] theorem State.setLegend_mem (s : State) (g : LegendSt) : (s.setLegend g).mem = s.mem := rfl
@[simp] theorem State.setLegend_xlate (s : State) (g : LegendSt) : (s.setLegend g).xlate = s.xlate := rfl
@[simp] theorem State.setLegend_rings (s : State) (g : LegendSt) : (s.setLegend g).rings = s.rings := rfl
@[simp] theorem State.setLegend_ports (s : State) (g : LegendSt) : (s.setLegend g).ports = s.ports := rfl
@[simp] theorem State.setLegend_cvus (s : State) (g : LegendSt) : (s.setLegend g).cvus = s.cvus := rfl
@[simp] theorem State.setLegend_safe (s : State) (g : LegendSt) : (s.setLegend g).safe = s.safe := rfl
@[simp] theorem State.setLegend_sched (s : State) (g : LegendSt) : (s.setLegend g).sched = s.sched := rfl
@[simp] theorem State.setLegend_cpx (s : State) (g : LegendSt) : (s.setLegend g).cpx = s.cpx := rfl
@[simp] theorem State.setLegend_keys (s : State) (g : LegendSt) : (s.setLegend g).keys = s.keys := rfl
@[simp] theorem State.setLegend_keyWait (s : State) (g : LegendSt) : (s.setLegend g).keyWait = s.keyWait := rfl
@[simp] theorem State.setLegend_scans (s : State) (g : LegendSt) : (s.setLegend g).scans = s.scans := rfl
@[simp] theorem State.setLegend_haps (s : State) (g : LegendSt) : (s.setLegend g).haps = s.haps := rfl
@[simp] theorem State.setLegend_audio (s : State) (g : LegendSt) : (s.setLegend g).audio = s.audio := rfl
@[simp] theorem State.setLegend_surv (s : State) (g : LegendSt) : (s.setLegend g).surv = s.surv := rfl
@[simp] theorem State.setLegend_b4 (s : State) (g : LegendSt) : (s.setLegend g).b4 = s.b4 := rfl
@[simp] theorem State.setLegend_reg (s : State) (g : LegendSt) (adr : Nat) : (s.setLegend g).reg adr = s.reg adr := rfl
@[simp] theorem memByte_setLegend (s : State) (g : LegendSt) (adr : Nat) : memByte (s.setLegend g) adr = memByte s adr := rfl

/-! State.setHport. -/

@[simp] theorem State.setHport_pending (s : State) (p : Nat) (x : PortSt) : (s.setHport p x).pending = s.pending := rfl
@[simp] theorem State.setHport_fresh (s : State) (p : Nat) (x : PortSt) : (s.setHport p x).fresh = s.fresh := rfl
@[simp] theorem State.setHport_fclk (s : State) (p : Nat) (x : PortSt) : (s.setHport p x).fclk = s.fclk := rfl
@[simp] theorem State.setHport_upTicks (s : State) (p : Nat) (x : PortSt) : (s.setHport p x).upTicks = s.upTicks := rfl
@[simp] theorem State.setHport_cyc (s : State) (p : Nat) (x : PortSt) : (s.setHport p x).cyc = s.cyc := rfl
@[simp] theorem State.setHport_mode (s : State) (p : Nat) (x : PortSt) : (s.setHport p x).mode = s.mode := rfl
@[simp] theorem State.setHport_cfg (s : State) (p : Nat) (x : PortSt) : (s.setHport p x).cfg = s.cfg := rfl
@[simp] theorem State.setHport_regs (s : State) (p : Nat) (x : PortSt) : (s.setHport p x).regs = s.regs := rfl
@[simp] theorem State.setHport_shadow (s : State) (p : Nat) (x : PortSt) : (s.setHport p x).shadow = s.shadow := rfl
@[simp] theorem State.setHport_pends (s : State) (p : Nat) (x : PortSt) : (s.setHport p x).pends = s.pends := rfl
@[simp] theorem State.setHport_slots (s : State) (p : Nat) (x : PortSt) : (s.setHport p x).slots = s.slots := rfl
@[simp] theorem State.setHport_latches (s : State) (p : Nat) (x : PortSt) : (s.setHport p x).latches = s.latches := rfl
@[simp] theorem State.setHport_crossings (s : State) (p : Nat) (x : PortSt) : (s.setHport p x).crossings = s.crossings := rfl
@[simp] theorem State.setHport_answer (s : State) (p : Nat) (x : PortSt) : (s.setHport p x).answer = s.answer := rfl
@[simp] theorem State.setHport_log (s : State) (p : Nat) (x : PortSt) : (s.setHport p x).log = s.log := rfl
@[simp] theorem State.setHport_legend (s : State) (p : Nat) (x : PortSt) : (s.setHport p x).legend = s.legend := rfl
@[simp] theorem State.setHport_heads (s : State) (p : Nat) (x : PortSt) : (s.setHport p x).heads = s.heads := rfl
@[simp] theorem State.setHport_mem (s : State) (p : Nat) (x : PortSt) : (s.setHport p x).mem = s.mem := rfl
@[simp] theorem State.setHport_xlate (s : State) (p : Nat) (x : PortSt) : (s.setHport p x).xlate = s.xlate := rfl
@[simp] theorem State.setHport_rings (s : State) (p : Nat) (x : PortSt) : (s.setHport p x).rings = s.rings := rfl
@[simp] theorem State.setHport_cvus (s : State) (p : Nat) (x : PortSt) : (s.setHport p x).cvus = s.cvus := rfl
@[simp] theorem State.setHport_safe (s : State) (p : Nat) (x : PortSt) : (s.setHport p x).safe = s.safe := rfl
@[simp] theorem State.setHport_sched (s : State) (p : Nat) (x : PortSt) : (s.setHport p x).sched = s.sched := rfl
@[simp] theorem State.setHport_cpx (s : State) (p : Nat) (x : PortSt) : (s.setHport p x).cpx = s.cpx := rfl
@[simp] theorem State.setHport_keys (s : State) (p : Nat) (x : PortSt) : (s.setHport p x).keys = s.keys := rfl
@[simp] theorem State.setHport_keyWait (s : State) (p : Nat) (x : PortSt) : (s.setHport p x).keyWait = s.keyWait := rfl
@[simp] theorem State.setHport_scans (s : State) (p : Nat) (x : PortSt) : (s.setHport p x).scans = s.scans := rfl
@[simp] theorem State.setHport_haps (s : State) (p : Nat) (x : PortSt) : (s.setHport p x).haps = s.haps := rfl
@[simp] theorem State.setHport_audio (s : State) (p : Nat) (x : PortSt) : (s.setHport p x).audio = s.audio := rfl
@[simp] theorem State.setHport_surv (s : State) (p : Nat) (x : PortSt) : (s.setHport p x).surv = s.surv := rfl
@[simp] theorem State.setHport_b4 (s : State) (p : Nat) (x : PortSt) : (s.setHport p x).b4 = s.b4 := rfl
@[simp] theorem State.setHport_reg (s : State) (p : Nat) (x : PortSt) (adr : Nat) : (s.setHport p x).reg adr = s.reg adr := rfl
@[simp] theorem memByte_setHport (s : State) (p : Nat) (x : PortSt) (adr : Nat) : memByte (s.setHport p x) adr = memByte s adr := rfl

/-! State.send. -/

@[simp] theorem State.send_pending (s : State) (o : Outbound) : (s.send o).pending = s.pending := rfl
@[simp] theorem State.send_fresh (s : State) (o : Outbound) : (s.send o).fresh = s.fresh := rfl
@[simp] theorem State.send_fclk (s : State) (o : Outbound) : (s.send o).fclk = s.fclk := rfl
@[simp] theorem State.send_upTicks (s : State) (o : Outbound) : (s.send o).upTicks = s.upTicks := rfl
@[simp] theorem State.send_mode (s : State) (o : Outbound) : (s.send o).mode = s.mode := rfl
@[simp] theorem State.send_cfg (s : State) (o : Outbound) : (s.send o).cfg = s.cfg := rfl
@[simp] theorem State.send_regs (s : State) (o : Outbound) : (s.send o).regs = s.regs := rfl
@[simp] theorem State.send_shadow (s : State) (o : Outbound) : (s.send o).shadow = s.shadow := rfl
@[simp] theorem State.send_pends (s : State) (o : Outbound) : (s.send o).pends = s.pends := rfl
@[simp] theorem State.send_slots (s : State) (o : Outbound) : (s.send o).slots = s.slots := rfl
@[simp] theorem State.send_latches (s : State) (o : Outbound) : (s.send o).latches = s.latches := rfl
@[simp] theorem State.send_crossings (s : State) (o : Outbound) : (s.send o).crossings = s.crossings := rfl
@[simp] theorem State.send_answer (s : State) (o : Outbound) : (s.send o).answer = s.answer := rfl
@[simp] theorem State.send_log (s : State) (o : Outbound) : (s.send o).log = s.log := rfl
@[simp] theorem State.send_legend (s : State) (o : Outbound) : (s.send o).legend = s.legend := rfl
@[simp] theorem State.send_heads (s : State) (o : Outbound) : (s.send o).heads = s.heads := rfl
@[simp] theorem State.send_mem (s : State) (o : Outbound) : (s.send o).mem = s.mem := rfl
@[simp] theorem State.send_xlate (s : State) (o : Outbound) : (s.send o).xlate = s.xlate := rfl
@[simp] theorem State.send_rings (s : State) (o : Outbound) : (s.send o).rings = s.rings := rfl
@[simp] theorem State.send_ports (s : State) (o : Outbound) : (s.send o).ports = s.ports := rfl
@[simp] theorem State.send_cvus (s : State) (o : Outbound) : (s.send o).cvus = s.cvus := rfl
@[simp] theorem State.send_safe (s : State) (o : Outbound) : (s.send o).safe = s.safe := rfl
@[simp] theorem State.send_sched (s : State) (o : Outbound) : (s.send o).sched = s.sched := rfl
@[simp] theorem State.send_cpx (s : State) (o : Outbound) : (s.send o).cpx = s.cpx := rfl
@[simp] theorem State.send_keys (s : State) (o : Outbound) : (s.send o).keys = s.keys := rfl
@[simp] theorem State.send_keyWait (s : State) (o : Outbound) : (s.send o).keyWait = s.keyWait := rfl
@[simp] theorem State.send_scans (s : State) (o : Outbound) : (s.send o).scans = s.scans := rfl
@[simp] theorem State.send_haps (s : State) (o : Outbound) : (s.send o).haps = s.haps := rfl
@[simp] theorem State.send_audio (s : State) (o : Outbound) : (s.send o).audio = s.audio := rfl
@[simp] theorem State.send_surv (s : State) (o : Outbound) : (s.send o).surv = s.surv := rfl
@[simp] theorem State.send_b4 (s : State) (o : Outbound) : (s.send o).b4 = s.b4 := rfl
@[simp] theorem State.send_reg (s : State) (o : Outbound) (adr : Nat) : (s.send o).reg adr = s.reg adr := rfl
@[simp] theorem memByte_send (s : State) (o : Outbound) (adr : Nat) : memByte (s.send o) adr = memByte s adr := rfl

/-! What each update writes. -/

/-- A register reads the value written to it, and every other one as before. -/
@[simp] theorem State.reg_setReg (s : State) (a b : Nat) (v : Word) :
    (s.setReg a v).reg b = if b = a then v else s.reg b := by
  by_cases h : b = a
  · subst h; simp [State.reg, State.setReg]
  · simp only [State.reg, State.setReg, h, if_false]
    exact aget_aset_ne _ _ _ _ h

@[simp] theorem State.pr_setPr (s : State) (p : Page) (o : Nat) (v : Word) : (s.setPr p o v).pr p o = v := by
  simp [State.pr, State.setPr]

@[simp] theorem State.hd_setHd (s : State) (p : Page) (h : Hdr) (v : Word) : (s.setHd p h v).hd p h = v := by
  simp [State.hd, State.setHd]

@[simp] theorem State.pend_setPend (s : State) (p : Page) (x : Option PendStage) : (s.setPend p x).pend p = x := by
  simp [State.pend, State.setPend]

@[simp] theorem State.head_setHead (s : State) (n : Nat) (h : HeadSt) : (s.setHead n h).head n = h := by
  simp [State.head, State.setHead]

@[simp] theorem State.core_setCore (s : State) (c : Nat) (x : CoreSt) : (s.setCore c x).core c = x := by
  simp [State.core, State.setCore]

@[simp] theorem State.ring_setRing (s : State) (r : Nat) (x : RingSt) : (s.setRing r x).ring r = x := by
  simp [State.ring, State.setRing]

@[simp] theorem State.job_setJob (s : State) (i : Nat) (j : Option Job) : (s.setJob i j).job i = j := by
  simp [State.job, State.setJob, State.setPf, State.setPr, State.setReg]

@[simp] theorem State.b4r_setB4 (s : State) (o : Nat) (v : Word) : (s.setB4 o v).b4r o = v := by
  simp [State.b4r, State.setB4]

@[simp] theorem State.setHead_sameReg (s : State) (n : Nat) (h : HeadSt) (p : Page) (o : Nat) :
    (s.setHead n h).pr p o = s.pr p o := rfl

/-- Hardware sets the bits of a mask in a register, and leaves every other register. -/
@[simp] theorem State.reg_hwBits (s : State) (a b mask : Nat) :
    (s.hwBits a mask).reg b = if b = a then s.reg a ||| w32 mask else s.reg b :=
  State.reg_setReg s a b _

@[simp] theorem State.reg_event (s : State) (p : Page) (k b : Nat) :
    (s.event p k).reg b = if b = hadr p .irqStatus then s.reg b ||| w32 (2 ^ k) else s.reg b := by
  unfold State.event
  rw [State.reg_hwBits]
  by_cases h : b = hadr p .irqStatus
  · simp [h]
  · simp [h]

@[simp] theorem State.reg_setPr (s : State) (p : Page) (o b : Nat) (v : Word) :
    (s.setPr p o v).reg b = if b = pageBase p + o then v else s.reg b := State.reg_setReg s _ b v

@[simp] theorem State.reg_setHd (s : State) (p : Page) (h : Hdr) (b : Nat) (v : Word) :
    (s.setHd p h v).reg b = if b = hadr p h then v else s.reg b := State.reg_setReg s _ b v

@[simp] theorem State.reg_setPf (s : State) (p : Page) (o hi lo v b : Nat) :
    (s.setPf p o hi lo v).reg b = if b = pageBase p + o then fset (s.reg (pageBase p + o)) hi lo v else s.reg b :=
  State.reg_setReg s _ b _

@[simp] theorem State.reg_setHf (s : State) (p : Page) (h : Hdr) (hi lo v b : Nat) :
    (s.setHf p h hi lo v).reg b = if b = hadr p h then fset (s.reg (hadr p h)) hi lo v else s.reg b :=
  State.reg_setReg s _ b _

@[simp] theorem State.reg_count (s : State) (p : Page) (o b : Nat) :
    (s.count p o).reg b = if b = pageBase p + o then s.reg (pageBase p + o) + 1 else s.reg b :=
  State.reg_setReg s _ b _

@[simp] theorem State.reg_countBy (s : State) (p : Page) (o n b : Nat) :
    (s.countBy p o n).reg b = if b = pageBase p + o then s.reg (pageBase p + o) + w32 n else s.reg b :=
  State.reg_setReg s _ b _

/-- A log entry changes the log only. -/
theorem State.logPut_only (s : State) (e : LogEntry) : s.logPut e = { s with log := (s.logPut e).log } := by
  unfold State.logPut
  split <;> rfl

theorem State.logAdd_only (s : State) (k : LogKind) (place code addr : Nat) (injected : Bool) :
    s.logAdd k place code addr injected = { s with log := (s.logAdd k place code addr injected).log } :=
  State.logPut_only s _

theorem State.logLimited_only (s : State) (key interval : Nat) (k : LogKind) (place code addr : Nat) :
    s.logLimited key interval k place code addr = { s with log := (s.logLimited key interval k place code addr).log } := by
  unfold State.logLimited
  dsimp only
  split
  · rw [State.logAdd_only]
  · rfl

@[simp] theorem State.logAdd_pending (s : State) (k : LogKind) (place code addr : Nat) (injected : Bool) :
    (s.logAdd k place code addr injected).pending = s.pending := by
  rw [State.logAdd_only]
@[simp] theorem State.logAdd_fresh (s : State) (k : LogKind) (place code addr : Nat) (injected : Bool) :
    (s.logAdd k place code addr injected).fresh = s.fresh := by
  rw [State.logAdd_only]
@[simp] theorem State.logAdd_fclk (s : State) (k : LogKind) (place code addr : Nat) (injected : Bool) :
    (s.logAdd k place code addr injected).fclk = s.fclk := by
  rw [State.logAdd_only]
@[simp] theorem State.logAdd_upTicks (s : State) (k : LogKind) (place code addr : Nat) (injected : Bool) :
    (s.logAdd k place code addr injected).upTicks = s.upTicks := by
  rw [State.logAdd_only]
@[simp] theorem State.logAdd_cyc (s : State) (k : LogKind) (place code addr : Nat) (injected : Bool) :
    (s.logAdd k place code addr injected).cyc = s.cyc := by
  rw [State.logAdd_only]
@[simp] theorem State.logAdd_mode (s : State) (k : LogKind) (place code addr : Nat) (injected : Bool) :
    (s.logAdd k place code addr injected).mode = s.mode := by
  rw [State.logAdd_only]
@[simp] theorem State.logAdd_cfg (s : State) (k : LogKind) (place code addr : Nat) (injected : Bool) :
    (s.logAdd k place code addr injected).cfg = s.cfg := by
  rw [State.logAdd_only]
@[simp] theorem State.logAdd_regs (s : State) (k : LogKind) (place code addr : Nat) (injected : Bool) :
    (s.logAdd k place code addr injected).regs = s.regs := by
  rw [State.logAdd_only]
@[simp] theorem State.logAdd_shadow (s : State) (k : LogKind) (place code addr : Nat) (injected : Bool) :
    (s.logAdd k place code addr injected).shadow = s.shadow := by
  rw [State.logAdd_only]
@[simp] theorem State.logAdd_pends (s : State) (k : LogKind) (place code addr : Nat) (injected : Bool) :
    (s.logAdd k place code addr injected).pends = s.pends := by
  rw [State.logAdd_only]
@[simp] theorem State.logAdd_slots (s : State) (k : LogKind) (place code addr : Nat) (injected : Bool) :
    (s.logAdd k place code addr injected).slots = s.slots := by
  rw [State.logAdd_only]
@[simp] theorem State.logAdd_latches (s : State) (k : LogKind) (place code addr : Nat) (injected : Bool) :
    (s.logAdd k place code addr injected).latches = s.latches := by
  rw [State.logAdd_only]
@[simp] theorem State.logAdd_crossings (s : State) (k : LogKind) (place code addr : Nat) (injected : Bool) :
    (s.logAdd k place code addr injected).crossings = s.crossings := by
  rw [State.logAdd_only]
@[simp] theorem State.logAdd_answer (s : State) (k : LogKind) (place code addr : Nat) (injected : Bool) :
    (s.logAdd k place code addr injected).answer = s.answer := by
  rw [State.logAdd_only]
@[simp] theorem State.logAdd_legend (s : State) (k : LogKind) (place code addr : Nat) (injected : Bool) :
    (s.logAdd k place code addr injected).legend = s.legend := by
  rw [State.logAdd_only]
@[simp] theorem State.logAdd_heads (s : State) (k : LogKind) (place code addr : Nat) (injected : Bool) :
    (s.logAdd k place code addr injected).heads = s.heads := by
  rw [State.logAdd_only]
@[simp] theorem State.logAdd_mem (s : State) (k : LogKind) (place code addr : Nat) (injected : Bool) :
    (s.logAdd k place code addr injected).mem = s.mem := by
  rw [State.logAdd_only]
@[simp] theorem State.logAdd_xlate (s : State) (k : LogKind) (place code addr : Nat) (injected : Bool) :
    (s.logAdd k place code addr injected).xlate = s.xlate := by
  rw [State.logAdd_only]
@[simp] theorem State.logAdd_rings (s : State) (k : LogKind) (place code addr : Nat) (injected : Bool) :
    (s.logAdd k place code addr injected).rings = s.rings := by
  rw [State.logAdd_only]
@[simp] theorem State.logAdd_ports (s : State) (k : LogKind) (place code addr : Nat) (injected : Bool) :
    (s.logAdd k place code addr injected).ports = s.ports := by
  rw [State.logAdd_only]
@[simp] theorem State.logAdd_cvus (s : State) (k : LogKind) (place code addr : Nat) (injected : Bool) :
    (s.logAdd k place code addr injected).cvus = s.cvus := by
  rw [State.logAdd_only]
@[simp] theorem State.logAdd_safe (s : State) (k : LogKind) (place code addr : Nat) (injected : Bool) :
    (s.logAdd k place code addr injected).safe = s.safe := by
  rw [State.logAdd_only]
@[simp] theorem State.logAdd_sched (s : State) (k : LogKind) (place code addr : Nat) (injected : Bool) :
    (s.logAdd k place code addr injected).sched = s.sched := by
  rw [State.logAdd_only]
@[simp] theorem State.logAdd_cpx (s : State) (k : LogKind) (place code addr : Nat) (injected : Bool) :
    (s.logAdd k place code addr injected).cpx = s.cpx := by
  rw [State.logAdd_only]
@[simp] theorem State.logAdd_keys (s : State) (k : LogKind) (place code addr : Nat) (injected : Bool) :
    (s.logAdd k place code addr injected).keys = s.keys := by
  rw [State.logAdd_only]
@[simp] theorem State.logAdd_keyWait (s : State) (k : LogKind) (place code addr : Nat) (injected : Bool) :
    (s.logAdd k place code addr injected).keyWait = s.keyWait := by
  rw [State.logAdd_only]
@[simp] theorem State.logAdd_scans (s : State) (k : LogKind) (place code addr : Nat) (injected : Bool) :
    (s.logAdd k place code addr injected).scans = s.scans := by
  rw [State.logAdd_only]
@[simp] theorem State.logAdd_haps (s : State) (k : LogKind) (place code addr : Nat) (injected : Bool) :
    (s.logAdd k place code addr injected).haps = s.haps := by
  rw [State.logAdd_only]
@[simp] theorem State.logAdd_audio (s : State) (k : LogKind) (place code addr : Nat) (injected : Bool) :
    (s.logAdd k place code addr injected).audio = s.audio := by
  rw [State.logAdd_only]
@[simp] theorem State.logAdd_surv (s : State) (k : LogKind) (place code addr : Nat) (injected : Bool) :
    (s.logAdd k place code addr injected).surv = s.surv := by
  rw [State.logAdd_only]
@[simp] theorem State.logAdd_b4 (s : State) (k : LogKind) (place code addr : Nat) (injected : Bool) :
    (s.logAdd k place code addr injected).b4 = s.b4 := by
  rw [State.logAdd_only]

@[simp] theorem State.logAdd_reg (s : State) (k : LogKind) (place code addr : Nat) (injected : Bool) (x : Nat) :
    (s.logAdd k place code addr injected).reg x = s.reg x := by
  rw [State.logAdd_only]
  rfl

@[simp] theorem State.logLimited_reg (s : State) (key interval : Nat) (k : LogKind) (place code addr x : Nat) :
    (s.logLimited key interval k place code addr).reg x = s.reg x := by
  rw [State.logLimited_only]
  rfl

/-- A byte reads as it was stored, and every other byte as before. -/
@[simp] theorem memByte_memSet (s : State) (a b v : Nat) :
    memByte (memSet s a v) b = if b = a then v % 256 else memByte s b := by
  by_cases h : b = a
  · subst h; simp [memByte, memSet]
  · simp only [memByte, memSet, h, if_false]
    rw [aget_aset_ne _ _ _ _ h]

/-- A byte store keeps memory in its canonical form. -/
theorem memSet_wf (s : State) (a v : Nat) (h : Memory.wf s.mem.cells = true) :
    Memory.wf (memSet s a v).mem.cells = true := awf_aset (fun _ => (0 : BitVec 8)) _ a _ h

/-- Memory at reset lists nothing, in its canonical form. -/
theorem reset_wf : Memory.wf State.reset.mem.cells = true := rfl

/-- The fabric refuses a write: what is recorded, and nothing else. -/
theorem gated_refused {s : State} {m : Master} {a : Nat} {op : State → State} {r : Page × Cause × Bool}
    (hm : masterThere s m = true) (hr : refusalOf (beginAccess s m) m a = some r) :
    gated s m a op = recordRefusal (beginAccess s m) m a a r := by
  simp [gated, hm, hr]

/-- The fabric takes a write: the register's own effect, after the page's earlier writes. -/
theorem gated_taken {s : State} {m : Master} {a : Nat} {op : State → State}
    (hm : masterThere s m = true) (hr : refusalOf (beginAccess s m) m a = none) :
    gated s m a op = op (flushPage (beginAccess s m) (recordPage a)) := by
  simp [gated, hm, hr]

/-- No access reaches the fabric from a master that is not there. -/
theorem gated_absent {s : State} {m : Master} {a : Nat} {op : State → State} (hm : masterThere s m = false) :
    gated s m a op = s := by
  simp [gated, hm]

end Sys2Proof.Machine
end

