-- ==== Sys2Proof/Laws/Access.lean ====
section
/-!
SUPPORT. Laws/Access.lean: what the frame of a register access (its FCLK cycles and its cycle record) leaves alone,
and what a latch of a read keeps (R41).
-/
namespace Sys2Proof.Machine

theorem relayUpdate_reg (s : State) (a : Nat) : (relayUpdate s).reg a = s.reg a := rfl

theorem passCycles_reg (s : State) (n a : Nat) : (passCycles s n).reg a = s.reg a := rfl

theorem advance_reg (s : State) (n a : Nat) : (advance s n).reg a = s.reg a := by
  unfold advance; split <;> rfl

theorem advance_crossings (s : State) (n : Nat) : (advance s n).crossings = s.crossings := by
  unfold advance; split <;> rfl

theorem advance_mem (s : State) (n : Nat) : (advance s n).mem = s.mem := by
  unfold advance; split <;> rfl

theorem beginAccess_reg (s : State) (m : Master) (a : Nat) : (beginAccess s m).reg a = s.reg a := by
  unfold beginAccess; dsimp only; split <;> rfl

theorem beginAccess_crossings (s : State) (m : Master) : (beginAccess s m).crossings = s.crossings := by
  unfold beginAccess; dsimp only; split <;> rfl

theorem beginAccess_mem (s : State) (m : Master) : (beginAccess s m).mem = s.mem := by
  unfold beginAccess; dsimp only; split <;> rfl

theorem notePrev_reg (s : State) (a b : Nat) : (s.notePrev a).reg b = s.reg b := by
  unfold State.notePrev; split <;> rfl

/-- Noting the value before an access changes the cycle record alone. -/
theorem notePrev_only (s : State) (a : Nat) : s.notePrev a = { s with cyc := (s.notePrev a).cyc } := by
  unfold State.notePrev; split <;> rfl

theorem notePrev_hwSet (s : State) (a : Nat) : (s.notePrev a).cyc.hwSet = s.cyc.hwSet := by
  unfold State.notePrev; split <;> rfl

/-- What a read latched for its master is what that master's latch holds (R41). -/
theorem latched_latch (s : State) (m : Master) (a : Nat) (v : Word) : (s.latch m a v).latched m a = some v := by
  have h : (List.filter (fun x => !(x.master == m.code && x.addr == a)) s.latches).find?
      (fun x => x.master == m.code && x.addr == a) = none := by
    rw [List.find?_eq_none]
    intro x hx
    have := (List.mem_filter.mp hx).2
    cases hc : (x.master == m.code && x.addr == a) <;> simp_all
  unfold State.latched State.latch
  rw [List.find?_append, h]
  simp

/-- A claim about a state that every turn of a fold keeps holds after it. -/
theorem State.foldl_invariant {β : Type} (P : State → Prop) (f : State → β → State) (l : List β) (s : State) (h : P s)
    (hf : ∀ x b, P x → P (f x b)) : P (l.foldl f s) := by
  induction l generalizing s with
  | nil => exact h
  | cons a l ih => exact ih _ (hf _ _ h)

/-- The top words of the stored effects are registers of the HAPTIC page outside every table region. -/
theorem effect_top_word : ∀ e : Fin 64,
    isTopWord (pageBase .haptic + Reg.HAPTIC_EFFECT_W0 + 16 * e.val + 12) = true ∧
    tableAt (pageBase .haptic + Reg.HAPTIC_EFFECT_W0 + 16 * e.val + 12) = none ∧
    pageAt (pageBase .haptic + Reg.HAPTIC_EFFECT_W0 + 16 * e.val + 12) = some (.haptic, Reg.HAPTIC_EFFECT_W0 + 16 * e.val + 12) ∧
    (rowAt .haptic (Reg.HAPTIC_EFFECT_W0 + 16 * e.val + 12)).isSome = true := by decide +kernel

end Sys2Proof.Machine
end

