-- ==== Sys2Proof/Laws/Faults.lean ====
section
/-!
SUPPORT. Laws/Faults.lean: bits of FAULT_STATUS and IRQ_STATUS that are set stay set through every operation that
records, contains or answers a fault, so that a fault raised shows in its page whatever its action does.
-/
set_option linter.unusedTactic false
set_option linter.unreachableTactic false
set_option linter.unusedVariables false
set_option linter.unusedSimpArgs false

namespace Sys2Proof.Machine

/-- The parts of State that recording and answering a fault leave as they are. -/
structure FaultKeeps (s t : State) : Prop where
  pending : t.pending = s.pending
  fresh : t.fresh = s.fresh
  fclk : t.fclk = s.fclk
  upTicks : t.upTicks = s.upTicks
  cfg : t.cfg = s.cfg
  shadow : t.shadow = s.shadow
  slots : t.slots = s.slots
  latches : t.latches = s.latches
  crossings : t.crossings = s.crossings
  answer : t.answer = s.answer
  legend : t.legend = s.legend
  mem : t.mem = s.mem
  xlate : t.xlate = s.xlate
  ports : t.ports = s.ports
  cvus : t.cvus = s.cvus
  keys : t.keys = s.keys
  keyWait : t.keyWait = s.keyWait
  scans : t.scans = s.scans
  audio : t.audio = s.audio
  b4 : t.b4 = s.b4

/-- No bit of a register at 0x18 or 0x24 of a page falls, and a restart of Heartwood that is under way stays so. -/
structure Rises (s t : State) : Prop where
  keeps : FaultKeeps s t
  restart : restarting s = true → restarting t = true
  bits : ∀ a, a % 4096 = 0x18 ∨ a % 4096 = 0x24 → ∀ k, fbit (s.reg a) k = true → fbit (t.reg a) k = true

theorem Rises.refl (s : State) : Rises s s := ⟨⟨rfl, rfl, rfl, rfl, rfl, rfl, rfl, rfl, rfl, rfl, rfl, rfl, rfl, rfl, rfl, rfl, rfl, rfl, rfl, rfl⟩, id, fun _ _ _ h => h⟩

theorem Rises.lit {s0 s : State} {cyc' : Cycle} {mode' : ModeSt} {pends' : Assoc (Option PendStage)} {log' : LogSt}
    {heads' : Assoc HeadSt} {rings' : Assoc RingSt} {safe' : SafeSt} {sched' : SchedSt} {cpx' : CoresSt} {haps' :
    Assoc HapSt} {surv' : SurvSt} (h : Rises s0 s) :
    Rises s0 (State.mk s.pending s.fresh s.fclk s.upTicks cyc' mode' s.cfg s.regs s.shadow pends' s.slots s.latches
      s.crossings s.answer log' s.legend heads' s.mem s.xlate rings' s.ports s.cvus safe' sched' cpx' s.keys s.keyWait
      s.scans haps' s.audio surv' s.b4) :=
  ⟨⟨h.keeps.pending, h.keeps.fresh, h.keeps.fclk, h.keeps.upTicks, h.keeps.cfg, h.keeps.shadow, h.keeps.slots,
    h.keeps.latches, h.keeps.crossings, h.keeps.answer, h.keeps.legend, h.keeps.mem, h.keeps.xlate, h.keeps.ports,
    h.keeps.cvus, h.keeps.keys, h.keeps.keyWait, h.keeps.scans, h.keeps.audio, h.keeps.b4⟩,
    fun r => h.restart r, fun a ha k hk => h.bits a ha k hk⟩

/-- What a fault and its answer touch, as one update. -/
theorem Rises.parts {s t : State} (h : Rises s t) : FaultParts s t := by
  obtain ⟨⟨h0, h1, h2, h3, h4, h5, h6, h7, h8, h9, h10, h11, h12, h13, h14, h15, h16, h17, h18, h19⟩, -, -⟩ := h
  cases s
  cases t
  simp only [FaultParts] at *
  simp_all

theorem Rises.ite {s0 a b : State} {c : Prop} [Decidable c] (ha : Rises s0 a) (hb : Rises s0 b) :
    Rises s0 (if c then a else b) := by
  split
  · exact ha
  · exact hb

theorem Rises.foldl {β : Type} {s0 s : State} {f : State → β → State} {l : List β} (hs : Rises s0 s)
    (hf : ∀ s x, Rises s0 s → Rises s0 (f s x)) : Rises s0 (l.foldl f s) := by
  induction l generalizing s with
  | nil => exact hs
  | cons x r ih => exact ih (hf s x hs)

theorem Rises.cut {s0 s1 : State} {P : Prop} (h : Rises s0 s1) (k : Rises s0 s1 → P) : P := k h

theorem State.setReg_rises {s0 s : State} {a : Nat} {v : Word} (ha : a % 4096 ≠ 0x18 ∧ a % 4096 ≠ 0x24 ∧ a ≠ 0x411000 + Reg.WORLD_HW_CTRL) (h : Rises s0 s) :
    Rises s0 (s.setReg a v) := by
  have e : restarting (s.setReg a v) = restarting s := by
    have : ¬ pageBase .world + Reg.WORLD_HW_CTRL = a := fun e => ha.2.2 e.symm
    simp only [restarting, State.pr, State.reg_setReg, this, if_false]
  refine ⟨?_, fun r => e.trans (h.restart r), fun b hb k hk => ?_⟩
  · exact ⟨h.keeps.pending, h.keeps.fresh, h.keeps.fclk, h.keeps.upTicks, h.keeps.cfg, h.keeps.shadow, h.keeps.slots,
      h.keeps.latches, h.keeps.crossings, h.keeps.answer, h.keeps.legend, h.keeps.mem, h.keeps.xlate, h.keeps.ports,
      h.keeps.cvus, h.keeps.keys, h.keeps.keyWait, h.keeps.scans, h.keeps.audio, h.keeps.b4⟩
  have : b ≠ a := by rintro rfl; omega
  simpa [this] using h.bits b hb k hk

theorem State.setPr_rises {s0 s : State} {p : Page} {o : Nat} {v : Word}
    (ha : (pageBase p + o) % 4096 ≠ 0x18 ∧ (pageBase p + o) % 4096 ≠ 0x24 ∧
      pageBase p + o ≠ 0x411000 + Reg.WORLD_HW_CTRL) (h : Rises s0 s) : Rises s0 (s.setPr p o v) :=
  State.setReg_rises ha h

theorem State.setPf_rises {s0 s : State} {p : Page} {o hi lo v : Nat}
    (ha : (pageBase p + o) % 4096 ≠ 0x18 ∧ (pageBase p + o) % 4096 ≠ 0x24 ∧
      pageBase p + o ≠ 0x411000 + Reg.WORLD_HW_CTRL) (h : Rises s0 s) : Rises s0 (s.setPf p o hi lo v) :=
  State.setReg_rises ha h

theorem State.count_rises {s0 s : State} {p : Page} {o : Nat}
    (ha : (pageBase p + o) % 4096 ≠ 0x18 ∧ (pageBase p + o) % 4096 ≠ 0x24 ∧
      pageBase p + o ≠ 0x411000 + Reg.WORLD_HW_CTRL) (h : Rises s0 s) : Rises s0 (s.count p o) :=
  State.setReg_rises ha h

theorem State.countBy_rises {s0 s : State} {p : Page} {o n : Nat}
    (ha : (pageBase p + o) % 4096 ≠ 0x18 ∧ (pageBase p + o) % 4096 ≠ 0x24 ∧
      pageBase p + o ≠ 0x411000 + Reg.WORLD_HW_CTRL) (h : Rises s0 s) : Rises s0 (s.countBy p o n) :=
  State.setReg_rises ha h

/-- The header registers other than IRQ_STATUS and FAULT_STATUS stand at other offsets. -/
theorem hdr_apart (p : Page) (h : Hdr) (h1 : h ≠ .irqStatus) (h2 : h ≠ .faultStatus) :
    hadr p h % 4096 ≠ 0x18 ∧ hadr p h % 4096 ≠ 0x24 ∧ hadr p h ≠ 0x411000 + Reg.WORLD_HW_CTRL := by
  cases p <;> cases h <;> simp_all [hadr, layerHdrOff, hdrOff, pageBase, Reg.WORLD_HW_CTRL] <;> omega

theorem State.setHd_rises {s0 s : State} {p : Page} {h : Hdr} {v : Word} (h1 : h ≠ .irqStatus ∧ h ≠ .faultStatus)
    (h0 : Rises s0 s) : Rises s0 (s.setHd p h v) :=
  State.setReg_rises (hdr_apart p h h1.1 h1.2) h0

theorem State.setHf_rises {s0 s : State} {p : Page} {h : Hdr} {hi lo v : Nat} (h1 : h ≠ .irqStatus ∧ h ≠ .faultStatus)
    (h0 : Rises s0 s) : Rises s0 (s.setHf p h hi lo v) :=
  State.setReg_rises (hdr_apart p h h1.1 h1.2) h0

theorem fbit_or_left {v w : Word} {k : Nat} (h : fbit v k = true) : fbit (v ||| w) k = true := by
  have e : w = w32 w.toNat := by simp [w32]
  rw [e, fbit_or, h, Bool.true_or]

theorem State.hwBits_rises {s0 s : State} {a m : Nat} (h : Rises s0 s) : Rises s0 (s.hwBits a m) := by
  refine ⟨?_, fun r => ?_, fun b hb k hk => ?_⟩
  · exact ⟨h.keeps.pending, h.keeps.fresh, h.keeps.fclk, h.keeps.upTicks, h.keeps.cfg, h.keeps.shadow, h.keeps.slots,
      h.keeps.latches, h.keeps.crossings, h.keeps.answer, h.keeps.legend, h.keeps.mem, h.keeps.xlate, h.keeps.ports,
      h.keeps.cvus, h.keeps.keys, h.keeps.keyWait, h.keeps.scans, h.keeps.audio, h.keeps.b4⟩
  · have := h.restart r
    unfold restarting State.pr at this ⊢
    rw [State.reg_hwBits]
    split
    · next e => exact fbit_or_left (e ▸ this)
    · exact this
  · rw [State.reg_hwBits]
    by_cases e : b = a
    · subst e
      simpa using fbit_or_left (h.bits b hb k hk)
    · simpa [e] using h.bits b hb k hk

theorem State.event_rises {s0 s : State} {p : Page} {k : Nat} (h : Rises s0 s) : Rises s0 (s.event p k) :=
  State.hwBits_rises h

theorem State.setPend_rises {s0 s : State} {p : Page} {x : Option PendStage} (h : Rises s0 s) : Rises s0 (s.setPend p x) :=
  Rises.lit h

theorem State.setHead_rises {s0 s : State} {n : Nat} {x : HeadSt} (h : Rises s0 s) : Rises s0 (s.setHead n x) :=
  Rises.lit h

theorem State.setCore_rises {s0 s : State} {n : Nat} {x : CoreSt} (h : Rises s0 s) : Rises s0 (s.setCore n x) :=
  Rises.lit h

theorem State.setRing_rises {s0 s : State} {n : Nat} {x : RingSt} (h : Rises s0 s) : Rises s0 (s.setRing n x) :=
  Rises.lit h

/-- RESTARTING is set with the cause of a restart. -/
theorem hwCtrl_restarting {cause : Nat} {w : Word} (hc : cause < 16) :
    fbit (w32 (2 ^ 31 + 2 ^ 24 * cause + 2 ^ 16 * satInc (fget w 23 16) 255)) 31 = true := by
  have h1 : satInc (fget w 23 16) 255 < 256 := by
    unfold satInc
    split <;> omega
  simp only [fbit, bit, w32, BitVec.toNat_ofNat, Nat.shiftRight_eq_div_pow, beq_iff_eq]
  omega

theorem hwCtrlSet_rises {s0 s : State} {cause : Nat} {w : Word} (hc : cause < 16) (h : Rises s0 s) :
    Rises s0 (s.setPr .world Reg.WORLD_HW_CTRL (w32 (2 ^ 31 + 2 ^ 24 * cause + 2 ^ 16 * satInc (fget w 23 16) 255))) := by
  refine ⟨?_, fun _ => ?_, fun b hb k hk => ?_⟩
  · exact ⟨h.keeps.pending, h.keeps.fresh, h.keeps.fclk, h.keeps.upTicks, h.keeps.cfg, h.keeps.shadow, h.keeps.slots,
      h.keeps.latches, h.keeps.crossings, h.keeps.answer, h.keeps.legend, h.keeps.mem, h.keeps.xlate, h.keeps.ports,
      h.keeps.cvus, h.keeps.keys, h.keeps.keyWait, h.keeps.scans, h.keeps.audio, h.keeps.b4⟩
  · simpa [restarting] using hwCtrl_restarting hc
  · have : b ≠ pageBase .world + Reg.WORLD_HW_CTRL := by
      rintro rfl
      exact absurd hb (by decide)
    simpa [this] using h.bits b hb k hk

theorem State.setJob_rises {s0 s : State} (i : Nat) (j : Option Job) (h0 : Rises s0 s) : Rises s0 (State.setJob s i j) := by
  unfold State.setJob
  try lift_lets -underBinder
  repeat' (first
    | (intro x; first | (refine Rises.cut (s0 := s0) (s1 := x) ?_ (fun _ => ?_); on_goal 1 => unfold x) | skip)
    | with_reducible assumption
    | with_reducible apply Rises.ite
    | with_reducible refine Rises.foldl ?_ (fun _ _ _ => ?_)
    | (with_reducible refine State.setPf_rises ?_ ?_; on_goal 1 => (first | (constructor <;> decide) | (refine ⟨?_, ?_, ?_⟩ <;> decide) | (refine ⟨?_, ?_, ?_⟩ <;> simp only [pageBase, Reg.VENEER_VSTATUS, Reg.VENEER_VINVAL_COUNT, Reg.FUNC_STALE_GEN_COUNT, Reg.HAPCH_HSTATUS, Reg.WORLD_HW_CTRL] <;> omega) | (refine ⟨?_, ?_, ?_⟩ <;> dsimp +zetaDelta only <;> split <;> decide)))
    | split
    | fail_if_no_progress (with_reducible refine Rises.lit ?_)
    | (lift_lets -underBinder; intro x; first | (refine Rises.cut (s0 := s0) (s1 := x) ?_ (fun _ => ?_); on_goal 1 => unfold x) | skip))

theorem readyChange_rises {s0 s : State} (was : State) (s : State) (p : Page) (h0 : Rises s0 s) : Rises s0 (readyChange was s p) := by
  unfold readyChange
  repeat' (first
    | with_reducible assumption
    | with_reducible apply Rises.ite
    | with_reducible refine Rises.foldl ?_ (fun _ _ _ => ?_)
    | with_reducible apply State.event_rises
    | split
    | fail_if_no_progress (with_reducible refine Rises.lit ?_)
    | (lift_lets -underBinder; intro x; first | (refine Rises.cut (s0 := s0) (s1 := x) ?_ (fun _ => ?_); on_goal 1 => unfold x) | skip))

theorem State.setReady_rises {s0 s : State} (p : Page) (h0 : Rises s0 s) : Rises s0 (State.setReady s p) := by
  unfold State.setReady
  repeat' (first
    | with_reducible assumption
    | with_reducible apply Rises.ite
    | with_reducible refine Rises.foldl ?_ (fun _ _ _ => ?_)
    | (with_reducible refine State.setHf_rises ?_ ?_; on_goal 1 => (first | (constructor <;> decide) | (refine ⟨?_, ?_, ?_⟩ <;> decide) | (refine ⟨?_, ?_, ?_⟩ <;> simp only [pageBase, Reg.VENEER_VSTATUS, Reg.VENEER_VINVAL_COUNT, Reg.FUNC_STALE_GEN_COUNT, Reg.HAPCH_HSTATUS, Reg.WORLD_HW_CTRL] <;> omega) | (refine ⟨?_, ?_, ?_⟩ <;> dsimp +zetaDelta only <;> split <;> decide)))
    | with_reducible apply readyChange_rises
    | split
    | fail_if_no_progress (with_reducible refine Rises.lit ?_)
    | (lift_lets -underBinder; intro x; first | (refine Rises.cut (s0 := s0) (s1 := x) ?_ (fun _ => ?_); on_goal 1 => unfold x) | skip))

theorem State.clearReady_rises {s0 s : State} (p : Page) (reason : Nat) (h0 : Rises s0 s) : Rises s0 (State.clearReady s p reason) := by
  unfold State.clearReady
  repeat' (first
    | with_reducible assumption
    | with_reducible apply Rises.ite
    | with_reducible refine Rises.foldl ?_ (fun _ _ _ => ?_)
    | (with_reducible refine State.setHf_rises ?_ ?_; on_goal 1 => (first | (constructor <;> decide) | (refine ⟨?_, ?_, ?_⟩ <;> decide) | (refine ⟨?_, ?_, ?_⟩ <;> simp only [pageBase, Reg.VENEER_VSTATUS, Reg.VENEER_VINVAL_COUNT, Reg.FUNC_STALE_GEN_COUNT, Reg.HAPCH_HSTATUS, Reg.WORLD_HW_CTRL] <;> omega) | (refine ⟨?_, ?_, ?_⟩ <;> dsimp +zetaDelta only <;> split <;> decide)))
    | with_reducible apply readyChange_rises
    | split
    | fail_if_no_progress (with_reducible refine Rises.lit ?_)
    | (lift_lets -underBinder; intro x; first | (refine Rises.cut (s0 := s0) (s1 := x) ?_ (fun _ => ?_); on_goal 1 => unfold x) | skip))

theorem State.logPut_rises {s0 s : State} (e : LogEntry) (h0 : Rises s0 s) : Rises s0 (State.logPut s e) := by
  unfold State.logPut
  repeat' (first
    | with_reducible assumption
    | with_reducible apply Rises.ite
    | with_reducible refine Rises.foldl ?_ (fun _ _ _ => ?_)
    | split
    | fail_if_no_progress (with_reducible refine Rises.lit ?_)
    | (lift_lets -underBinder; intro x; first | (refine Rises.cut (s0 := s0) (s1 := x) ?_ (fun _ => ?_); on_goal 1 => unfold x) | skip))

theorem State.logAdd_rises {s0 s : State} (k : LogKind) (place code addr : Nat) (injected : Bool) (h0 : Rises s0 s) : Rises s0 (State.logAdd s k place code addr injected) := by
  unfold State.logAdd
  repeat' (first
    | with_reducible assumption
    | with_reducible apply Rises.ite
    | with_reducible refine Rises.foldl ?_ (fun _ _ _ => ?_)
    | with_reducible apply State.logPut_rises
    | split
    | fail_if_no_progress (with_reducible refine Rises.lit ?_)
    | (lift_lets -underBinder; intro x; first | (refine Rises.cut (s0 := s0) (s1 := x) ?_ (fun _ => ?_); on_goal 1 => unfold x) | skip))

theorem setWorld_rises {s0 s : State} (c : Nat) (b : Bool) (h0 : Rises s0 s) : Rises s0 (setWorld s c b) := by
  unfold setWorld
  repeat' (first
    | with_reducible assumption
    | with_reducible apply Rises.ite
    | with_reducible refine Rises.foldl ?_ (fun _ _ _ => ?_)
    | (with_reducible refine State.setPf_rises ?_ ?_; on_goal 1 => (first | (constructor <;> decide) | (refine ⟨?_, ?_, ?_⟩ <;> decide) | (refine ⟨?_, ?_, ?_⟩ <;> simp only [pageBase, Reg.VENEER_VSTATUS, Reg.VENEER_VINVAL_COUNT, Reg.FUNC_STALE_GEN_COUNT, Reg.HAPCH_HSTATUS, Reg.WORLD_HW_CTRL] <;> omega) | (refine ⟨?_, ?_, ?_⟩ <;> dsimp +zetaDelta only <;> split <;> decide)))
    | split
    | fail_if_no_progress (with_reducible refine Rises.lit ?_)
    | (lift_lets -underBinder; intro x; first | (refine Rises.cut (s0 := s0) (s1 := x) ?_ (fun _ => ?_); on_goal 1 => unfold x) | skip))

theorem countStale_rises {s0 s : State} (rs : Nat) (h0 : Rises s0 s) : Rises s0 (countStale s rs) := by
  unfold countStale
  repeat' (first
    | with_reducible assumption
    | with_reducible apply Rises.ite
    | with_reducible refine Rises.foldl ?_ (fun _ _ _ => ?_)
    | (with_reducible refine State.count_rises ?_ ?_; on_goal 1 => (first | (constructor <;> decide) | (refine ⟨?_, ?_, ?_⟩ <;> decide) | (refine ⟨?_, ?_, ?_⟩ <;> simp only [pageBase, Reg.VENEER_VSTATUS, Reg.VENEER_VINVAL_COUNT, Reg.FUNC_STALE_GEN_COUNT, Reg.HAPCH_HSTATUS, Reg.WORLD_HW_CTRL] <;> omega) | (refine ⟨?_, ?_, ?_⟩ <;> dsimp +zetaDelta only <;> split <;> decide)))
    | split
    | fail_if_no_progress (with_reducible refine Rises.lit ?_)
    | (lift_lets -underBinder; intro x; first | (refine Rises.cut (s0 := s0) (s1 := x) ?_ (fun _ => ?_); on_goal 1 => unfold x) | skip))

theorem setMode_rises {s0 s : State} (m : Mode) (h0 : Rises s0 s) : Rises s0 (setMode s m) := by
  unfold setMode
  try lift_lets -underBinder
  repeat' (first
    | (intro x; first | (refine Rises.cut (s0 := s0) (s1 := x) ?_ (fun _ => ?_); on_goal 1 => unfold x) | skip)
    | with_reducible assumption
    | with_reducible apply Rises.ite
    | with_reducible refine Rises.foldl ?_ (fun _ _ _ => ?_)
    | with_reducible apply State.event_rises
    | with_reducible apply State.logAdd_rises
    | split
    | fail_if_no_progress (with_reducible refine Rises.lit ?_)
    | (lift_lets -underBinder; intro x; first | (refine Rises.cut (s0 := s0) (s1 := x) ?_ (fun _ => ?_); on_goal 1 => unfold x) | skip))

theorem enterDegraded_rises {s0 s : State} (h0 : Rises s0 s) : Rises s0 (enterDegraded s) := by
  unfold enterDegraded
  repeat' (first
    | with_reducible assumption
    | with_reducible apply Rises.ite
    | with_reducible refine Rises.foldl ?_ (fun _ _ _ => ?_)
    | with_reducible apply setMode_rises
    | split
    | fail_if_no_progress (with_reducible refine Rises.lit ?_)
    | (lift_lets -underBinder; intro x; first | (refine Rises.cut (s0 := s0) (s1 := x) ?_ (fun _ => ?_); on_goal 1 => unfold x) | skip))

theorem layerEvent_rises {s0 s : State} (code bit : Nat) (h0 : Rises s0 s) : Rises s0 (layerEvent s code bit) := by
  unfold layerEvent
  repeat' (first
    | with_reducible assumption
    | with_reducible apply Rises.ite
    | with_reducible refine Rises.foldl ?_ (fun _ _ _ => ?_)
    | with_reducible apply State.hwBits_rises
    | split
    | fail_if_no_progress (with_reducible refine Rises.lit ?_)
    | (lift_lets -underBinder; intro x; first | (refine Rises.cut (s0 := s0) (s1 := x) ?_ (fun _ => ?_); on_goal 1 => unfold x) | skip))

theorem invalidateRun_rises {s0 s : State} (n r code : Nat) (h0 : Rises s0 s) : Rises s0 (invalidateRun s n r code) := by
  unfold invalidateRun
  try lift_lets -underBinder
  repeat' (first
    | (intro x; first | (refine Rises.cut (s0 := s0) (s1 := x) ?_ (fun _ => ?_); on_goal 1 => unfold x) | skip)
    | with_reducible assumption
    | with_reducible apply Rises.ite
    | with_reducible refine Rises.foldl ?_ (fun _ _ _ => ?_)
    | (with_reducible refine State.setPf_rises ?_ ?_; on_goal 1 => (first | (constructor <;> decide) | (refine ⟨?_, ?_, ?_⟩ <;> decide) | (refine ⟨?_, ?_, ?_⟩ <;> simp only [pageBase, Reg.VENEER_VSTATUS, Reg.VENEER_VINVAL_COUNT, Reg.FUNC_STALE_GEN_COUNT, Reg.HAPCH_HSTATUS, Reg.WORLD_HW_CTRL] <;> omega) | (refine ⟨?_, ?_, ?_⟩ <;> dsimp +zetaDelta only <;> split <;> decide)))
    | (with_reducible refine State.count_rises ?_ ?_; on_goal 1 => (first | (constructor <;> decide) | (refine ⟨?_, ?_, ?_⟩ <;> decide) | (refine ⟨?_, ?_, ?_⟩ <;> simp only [pageBase, Reg.VENEER_VSTATUS, Reg.VENEER_VINVAL_COUNT, Reg.FUNC_STALE_GEN_COUNT, Reg.HAPCH_HSTATUS, Reg.WORLD_HW_CTRL] <;> omega) | (refine ⟨?_, ?_, ?_⟩ <;> dsimp +zetaDelta only <;> split <;> decide)))
    | with_reducible apply State.event_rises
    | with_reducible apply State.setHead_rises
    | split
    | fail_if_no_progress (with_reducible refine Rises.lit ?_)
    | (lift_lets -underBinder; intro x; first | (refine Rises.cut (s0 := s0) (s1 := x) ?_ (fun _ => ?_); on_goal 1 => unfold x) | skip))

theorem invalidateWhere_rises {s0 s : State} (n code : Nat) (p : Run → Bool) (h0 : Rises s0 s) : Rises s0 (invalidateWhere s n code p) := by
  unfold invalidateWhere
  repeat' (first
    | with_reducible assumption
    | with_reducible apply Rises.ite
    | with_reducible refine Rises.foldl ?_ (fun _ _ _ => ?_)
    | with_reducible apply invalidateRun_rises
    | split
    | fail_if_no_progress (with_reducible refine Rises.lit ?_)
    | (lift_lets -underBinder; intro x; first | (refine Rises.cut (s0 := s0) (s1 := x) ?_ (fun _ => ?_); on_goal 1 => unfold x) | skip))

theorem recordFirst_rises {s0 s : State} (p : Page) (b sev : Nat) (multi : Bool) (h0 : Rises s0 s) : Rises s0 (recordFirst s p b sev multi) := by
  unfold recordFirst
  try lift_lets -underBinder
  repeat' (first
    | (intro x; first | (refine Rises.cut (s0 := s0) (s1 := x) ?_ (fun _ => ?_); on_goal 1 => unfold x) | skip)
    | with_reducible assumption
    | with_reducible apply Rises.ite
    | with_reducible refine Rises.foldl ?_ (fun _ _ _ => ?_)
    | (with_reducible refine State.setHd_rises ?_ ?_; on_goal 1 => (first | (constructor <;> decide) | (refine ⟨?_, ?_, ?_⟩ <;> decide) | (refine ⟨?_, ?_, ?_⟩ <;> simp only [pageBase, Reg.VENEER_VSTATUS, Reg.VENEER_VINVAL_COUNT, Reg.FUNC_STALE_GEN_COUNT, Reg.HAPCH_HSTATUS, Reg.WORLD_HW_CTRL] <;> omega) | (refine ⟨?_, ?_, ?_⟩ <;> dsimp +zetaDelta only <;> split <;> decide)))
    | split
    | fail_if_no_progress (with_reducible refine Rises.lit ?_)
    | (lift_lets -underBinder; intro x; first | (refine Rises.cut (s0 := s0) (s1 := x) ?_ (fun _ => ?_); on_goal 1 => unfold x) | skip))

theorem mergeFirst_rises {s0 s : State} (p : Page) (b sev : Nat) (h0 : Rises s0 s) : Rises s0 (mergeFirst s p b sev) := by
  unfold mergeFirst
  try lift_lets -underBinder
  repeat' (first
    | (intro x; first | (refine Rises.cut (s0 := s0) (s1 := x) ?_ (fun _ => ?_); on_goal 1 => unfold x) | skip)
    | with_reducible assumption
    | with_reducible apply Rises.ite
    | with_reducible refine Rises.foldl ?_ (fun _ _ _ => ?_)
    | (with_reducible refine State.setHd_rises ?_ ?_; on_goal 1 => (first | (constructor <;> decide) | (refine ⟨?_, ?_, ?_⟩ <;> decide) | (refine ⟨?_, ?_, ?_⟩ <;> simp only [pageBase, Reg.VENEER_VSTATUS, Reg.VENEER_VINVAL_COUNT, Reg.FUNC_STALE_GEN_COUNT, Reg.HAPCH_HSTATUS, Reg.WORLD_HW_CTRL] <;> omega) | (refine ⟨?_, ?_, ?_⟩ <;> dsimp +zetaDelta only <;> split <;> decide)))
    | with_reducible apply recordFirst_rises
    | split
    | fail_if_no_progress (with_reducible refine Rises.lit ?_)
    | (lift_lets -underBinder; intro x; first | (refine Rises.cut (s0 := s0) (s1 := x) ?_ (fun _ => ?_); on_goal 1 => unfold x) | skip))

theorem recordFault_rises {s0 s : State} (p : Page) (b : Nat) (injected : Bool) (h0 : Rises s0 s) : Rises s0 (recordFault s p b injected) := by
  unfold recordFault
  try lift_lets -underBinder
  repeat' (first
    | (intro x; first | (refine Rises.cut (s0 := s0) (s1 := x) ?_ (fun _ => ?_); on_goal 1 => unfold x) | skip)
    | with_reducible assumption
    | with_reducible apply Rises.ite
    | with_reducible refine Rises.foldl ?_ (fun _ _ _ => ?_)
    | with_reducible apply State.hwBits_rises
    | with_reducible apply State.logAdd_rises
    | with_reducible apply recordFirst_rises
    | with_reducible apply mergeFirst_rises
    | split
    | fail_if_no_progress (with_reducible refine Rises.lit ?_)
    | (lift_lets -underBinder; intro x; first | (refine Rises.cut (s0 := s0) (s1 := x) ?_ (fun _ => ?_); on_goal 1 => unfold x) | skip))

theorem endJob_rises {s0 s : State} (i : Nat) (status detail : Nat) (h0 : Rises s0 s) : Rises s0 (endJob s i status detail) := by
  unfold endJob
  try lift_lets -underBinder
  repeat' (first
    | (intro x; first | (refine Rises.cut (s0 := s0) (s1 := x) ?_ (fun _ => ?_); on_goal 1 => unfold x) | skip)
    | with_reducible assumption
    | with_reducible apply Rises.ite
    | with_reducible refine Rises.foldl ?_ (fun _ _ _ => ?_)
    | (with_reducible refine State.count_rises ?_ ?_; on_goal 1 => (first | (constructor <;> decide) | (refine ⟨?_, ?_, ?_⟩ <;> decide) | (refine ⟨?_, ?_, ?_⟩ <;> simp only [pageBase, Reg.VENEER_VSTATUS, Reg.VENEER_VINVAL_COUNT, Reg.FUNC_STALE_GEN_COUNT, Reg.HAPCH_HSTATUS, Reg.WORLD_HW_CTRL] <;> omega) | (refine ⟨?_, ?_, ?_⟩ <;> dsimp +zetaDelta only <;> split <;> decide)))
    | with_reducible apply State.setJob_rises
    | split
    | fail_if_no_progress (with_reducible refine Rises.lit ?_)
    | (lift_lets -underBinder; intro x; first | (refine Rises.cut (s0 := s0) (s1 := x) ?_ (fun _ => ?_); on_goal 1 => unfold x) | skip))

theorem jobLosesBay_rises {s0 s : State} (b i : Nat) (h0 : Rises s0 s) : Rises s0 (jobLosesBay s b i) := by
  unfold jobLosesBay
  try lift_lets -underBinder
  repeat' (first
    | (intro x; first | (refine Rises.cut (s0 := s0) (s1 := x) ?_ (fun _ => ?_); on_goal 1 => unfold x) | skip)
    | with_reducible assumption
    | with_reducible apply Rises.ite
    | with_reducible refine Rises.foldl ?_ (fun _ _ _ => ?_)
    | (with_reducible refine State.countBy_rises ?_ ?_; on_goal 1 => (first | (constructor <;> decide) | (refine ⟨?_, ?_, ?_⟩ <;> decide) | (refine ⟨?_, ?_, ?_⟩ <;> simp only [pageBase, Reg.VENEER_VSTATUS, Reg.VENEER_VINVAL_COUNT, Reg.FUNC_STALE_GEN_COUNT, Reg.HAPCH_HSTATUS, Reg.WORLD_HW_CTRL] <;> omega) | (refine ⟨?_, ?_, ?_⟩ <;> dsimp +zetaDelta only <;> split <;> decide)))
    | with_reducible apply State.event_rises
    | with_reducible apply State.setJob_rises
    | with_reducible apply endJob_rises
    | split
    | fail_if_no_progress (with_reducible refine Rises.lit ?_)
    | (lift_lets -underBinder; intro x; first | (refine Rises.cut (s0 := s0) (s1 := x) ?_ (fun _ => ?_); on_goal 1 => unfold x) | skip))

theorem bayLost_rises {s0 s : State} (b : Nat) (h0 : Rises s0 s) : Rises s0 (bayLost s b) := by
  unfold bayLost
  try lift_lets -underBinder
  repeat' (first
    | (intro x; first | (refine Rises.cut (s0 := s0) (s1 := x) ?_ (fun _ => ?_); on_goal 1 => unfold x) | skip)
    | with_reducible assumption
    | with_reducible apply Rises.ite
    | with_reducible refine Rises.foldl ?_ (fun _ _ _ => ?_)
    | with_reducible apply endJob_rises
    | with_reducible apply jobLosesBay_rises
    | split
    | fail_if_no_progress (with_reducible refine Rises.lit ?_)
    | (lift_lets -underBinder; intro x; first | (refine Rises.cut (s0 := s0) (s1 := x) ?_ (fun _ => ?_); on_goal 1 => unfold x) | skip))

theorem hapStop_rises {s0 s : State} (ch : Nat) (h0 : Rises s0 s) : Rises s0 (hapStop s ch) := by
  unfold hapStop
  try lift_lets -underBinder
  repeat' (first
    | (intro x; first | (refine Rises.cut (s0 := s0) (s1 := x) ?_ (fun _ => ?_); on_goal 1 => unfold x) | skip)
    | with_reducible assumption
    | with_reducible apply Rises.ite
    | with_reducible refine Rises.foldl ?_ (fun _ _ _ => ?_)
    | (with_reducible refine State.setPr_rises ?_ ?_; on_goal 1 => (first | (constructor <;> decide) | (refine ⟨?_, ?_, ?_⟩ <;> decide) | (refine ⟨?_, ?_, ?_⟩ <;> simp only [pageBase, Reg.VENEER_VSTATUS, Reg.VENEER_VINVAL_COUNT, Reg.FUNC_STALE_GEN_COUNT, Reg.HAPCH_HSTATUS, Reg.WORLD_HW_CTRL] <;> omega) | (refine ⟨?_, ?_, ?_⟩ <;> dsimp +zetaDelta only <;> split <;> decide)))
    | split
    | fail_if_no_progress (with_reducible refine Rises.lit ?_)
    | (lift_lets -underBinder; intro x; first | (refine Rises.cut (s0 := s0) (s1 := x) ?_ (fun _ => ?_); on_goal 1 => unfold x) | skip))

theorem dropStage_rises {s0 s : State} (p : Page) (reject : Nat) (h0 : Rises s0 s) : Rises s0 (dropStage s p reject) := by
  unfold dropStage
  try lift_lets -underBinder
  repeat' (first
    | (intro x; first | (refine Rises.cut (s0 := s0) (s1 := x) ?_ (fun _ => ?_); on_goal 1 => unfold x) | skip)
    | with_reducible assumption
    | with_reducible apply Rises.ite
    | with_reducible refine Rises.foldl ?_ (fun _ _ _ => ?_)
    | (with_reducible refine State.setHd_rises ?_ ?_; on_goal 1 => (first | (constructor <;> decide) | (refine ⟨?_, ?_, ?_⟩ <;> decide) | (refine ⟨?_, ?_, ?_⟩ <;> simp only [pageBase, Reg.VENEER_VSTATUS, Reg.VENEER_VINVAL_COUNT, Reg.FUNC_STALE_GEN_COUNT, Reg.HAPCH_HSTATUS, Reg.WORLD_HW_CTRL] <;> omega) | (refine ⟨?_, ?_, ?_⟩ <;> dsimp +zetaDelta only <;> split <;> decide)))
    | with_reducible apply State.setPend_rises
    | split
    | fail_if_no_progress (with_reducible refine Rises.lit ?_)
    | (lift_lets -underBinder; intro x; first | (refine Rises.cut (s0 := s0) (s1 := x) ?_ (fun _ => ?_); on_goal 1 => unfold x) | skip))

theorem safeStops_rises {s0 s : State} (h0 : Rises s0 s) : Rises s0 (safeStops s) := by
  unfold safeStops
  try lift_lets -underBinder
  repeat' (first
    | (intro x; first | (refine Rises.cut (s0 := s0) (s1 := x) ?_ (fun _ => ?_); on_goal 1 => unfold x) | skip)
    | with_reducible assumption
    | with_reducible apply Rises.ite
    | with_reducible refine Rises.foldl ?_ (fun _ _ _ => ?_)
    | (with_reducible refine State.setPf_rises ?_ ?_; on_goal 1 => (first | (constructor <;> decide) | (refine ⟨?_, ?_, ?_⟩ <;> decide) | (refine ⟨?_, ?_, ?_⟩ <;> simp only [pageBase, Reg.VENEER_VSTATUS, Reg.VENEER_VINVAL_COUNT, Reg.FUNC_STALE_GEN_COUNT, Reg.HAPCH_HSTATUS, Reg.WORLD_HW_CTRL] <;> omega) | (refine ⟨?_, ?_, ?_⟩ <;> dsimp +zetaDelta only <;> split <;> decide)))
    | with_reducible apply invalidateWhere_rises
    | with_reducible apply hapStop_rises
    | with_reducible apply dropStage_rises
    | split
    | fail_if_no_progress (with_reducible refine Rises.lit ?_)
    | (lift_lets -underBinder; intro x; first | (refine Rises.cut (s0 := s0) (s1 := x) ?_ (fun _ => ?_); on_goal 1 => unfold x) | skip))

theorem holdHeartwood_rises {s0 s : State} (h0 : Rises s0 s) : Rises s0 (holdHeartwood s) := by
  unfold holdHeartwood
  repeat' (first
    | with_reducible assumption
    | with_reducible apply Rises.ite
    | with_reducible refine Rises.foldl ?_ (fun _ _ _ => ?_)
    | with_reducible apply State.setCore_rises
    | split
    | fail_if_no_progress (with_reducible refine Rises.lit ?_)
    | (lift_lets -underBinder; intro x; first | (refine Rises.cut (s0 := s0) (s1 := x) ?_ (fun _ => ?_); on_goal 1 => unfold x) | skip))

theorem enterSafe_rises {s0 s : State} (hw : Bool) (p : Page) (b sev : Nat) (atFault : Bool) (h0 : Rises s0 s) : Rises s0 (enterSafe s hw p b sev atFault) := by
  unfold enterSafe
  try lift_lets -underBinder
  repeat' (first
    | (intro x; first | (refine Rises.cut (s0 := s0) (s1 := x) ?_ (fun _ => ?_); on_goal 1 => unfold x) | skip)
    | with_reducible assumption
    | with_reducible apply Rises.ite
    | with_reducible refine Rises.foldl ?_ (fun _ _ _ => ?_)
    | (with_reducible refine State.setPr_rises ?_ ?_; on_goal 1 => (first | (constructor <;> decide) | (refine ⟨?_, ?_, ?_⟩ <;> decide) | (refine ⟨?_, ?_, ?_⟩ <;> simp only [pageBase, Reg.VENEER_VSTATUS, Reg.VENEER_VINVAL_COUNT, Reg.FUNC_STALE_GEN_COUNT, Reg.HAPCH_HSTATUS, Reg.WORLD_HW_CTRL] <;> omega) | (refine ⟨?_, ?_, ?_⟩ <;> dsimp +zetaDelta only <;> split <;> decide)))
    | with_reducible apply setMode_rises
    | with_reducible apply safeStops_rises
    | with_reducible apply holdHeartwood_rises
    | split
    | fail_if_no_progress (with_reducible refine Rises.lit ?_)
    | (lift_lets -underBinder; intro x; first | (refine Rises.cut (s0 := s0) (s1 := x) ?_ (fun _ => ?_); on_goal 1 => unfold x) | skip))

theorem raiseContained_rises {s0 s : State} (q : Page) (b : Nat) (injected : Bool) (h0 : Rises s0 s) : Rises s0 (raiseContained s q b injected) := by
  unfold raiseContained
  try lift_lets -underBinder
  repeat' (first
    | (intro x; first | (refine Rises.cut (s0 := s0) (s1 := x) ?_ (fun _ => ?_); on_goal 1 => unfold x) | skip)
    | with_reducible assumption
    | with_reducible apply Rises.ite
    | with_reducible refine Rises.foldl ?_ (fun _ _ _ => ?_)
    | with_reducible apply State.hwBits_rises
    | with_reducible apply recordFault_rises
    | with_reducible apply enterSafe_rises
    | split
    | fail_if_no_progress (with_reducible refine Rises.lit ?_)
    | (lift_lets -underBinder; intro x; first | (refine Rises.cut (s0 := s0) (s1 := x) ?_ (fun _ => ?_); on_goal 1 => unfold x) | skip))

theorem abortCore_rises {s0 s : State} (c : Nat) (h0 : Rises s0 s) : Rises s0 (abortCore s c) := by
  unfold abortCore
  try lift_lets -underBinder
  repeat' (first
    | (intro x; first | (refine Rises.cut (s0 := s0) (s1 := x) ?_ (fun _ => ?_); on_goal 1 => unfold x) | skip)
    | with_reducible assumption
    | with_reducible apply Rises.ite
    | with_reducible refine Rises.foldl ?_ (fun _ _ _ => ?_)
    | with_reducible apply State.setCore_rises
    | with_reducible apply setWorld_rises
    | split
    | fail_if_no_progress (with_reducible refine Rises.lit ?_)
    | (lift_lets -underBinder; intro x; first | (refine Rises.cut (s0 := s0) (s1 := x) ?_ (fun _ => ?_); on_goal 1 => unfold x) | skip))

theorem hwRestart_rises {s0 s : State} (cause : Nat) (hc : cause < 16) (h0 : Rises s0 s) : Rises s0 (hwRestart s cause) := by
  unfold hwRestart
  try lift_lets -underBinder
  repeat' (first
    | (intro x; first | (refine Rises.cut (s0 := s0) (s1 := x) ?_ (fun _ => ?_); on_goal 1 => unfold x) | skip)
    | with_reducible assumption
    | with_reducible apply Rises.ite
    | with_reducible refine Rises.foldl ?_ (fun _ _ _ => ?_)
    | (with_reducible refine hwCtrlSet_rises hc ?_)
    | (with_reducible refine State.setPr_rises ?_ ?_; on_goal 1 => (first | (constructor <;> decide) | (refine ⟨?_, ?_, ?_⟩ <;> decide) | (refine ⟨?_, ?_, ?_⟩ <;> simp only [pageBase, Reg.VENEER_VSTATUS, Reg.VENEER_VINVAL_COUNT, Reg.FUNC_STALE_GEN_COUNT, Reg.HAPCH_HSTATUS, Reg.WORLD_HW_CTRL] <;> omega) | (refine ⟨?_, ?_, ?_⟩ <;> dsimp +zetaDelta only <;> split <;> decide)))
    | with_reducible apply State.event_rises
    | with_reducible apply holdHeartwood_rises
    | with_reducible apply raiseContained_rises
    | with_reducible apply abortCore_rises
    | split
    | fail_if_no_progress (with_reducible refine Rises.lit ?_)
    | (lift_lets -underBinder; intro x; first | (refine Rises.cut (s0 := s0) (s1 := x) ?_ (fun _ => ?_); on_goal 1 => unfold x) | skip))

theorem fenceCore_rises {s0 s : State} (c : Nat) (h0 : Rises s0 s) : Rises s0 (fenceCore s c) := by
  unfold fenceCore
  try lift_lets -underBinder
  repeat' (first
    | (intro x; first | (refine Rises.cut (s0 := s0) (s1 := x) ?_ (fun _ => ?_); on_goal 1 => unfold x) | skip)
    | with_reducible assumption
    | with_reducible apply Rises.ite
    | with_reducible refine Rises.foldl ?_ (fun _ _ _ => ?_)
    | (with_reducible refine State.setPf_rises ?_ ?_; on_goal 1 => (first | (constructor <;> decide) | (refine ⟨?_, ?_, ?_⟩ <;> decide) | (refine ⟨?_, ?_, ?_⟩ <;> simp only [pageBase, Reg.VENEER_VSTATUS, Reg.VENEER_VINVAL_COUNT, Reg.FUNC_STALE_GEN_COUNT, Reg.HAPCH_HSTATUS, Reg.WORLD_HW_CTRL] <;> omega) | (refine ⟨?_, ?_, ?_⟩ <;> dsimp +zetaDelta only <;> split <;> decide)))
    | with_reducible apply State.event_rises
    | with_reducible apply State.setCore_rises
    | with_reducible apply enterDegraded_rises
    | with_reducible apply enterSafe_rises
    | (with_reducible refine hwRestart_rises _ (by decide) ?_)
    | split
    | fail_if_no_progress (with_reducible refine Rises.lit ?_)
    | (lift_lets -underBinder; intro x; first | (refine Rises.cut (s0 := s0) (s1 := x) ?_ (fun _ => ?_); on_goal 1 => unfold x) | skip))

theorem markFenced_rises {s0 s : State} (p : Page) (h0 : Rises s0 s) : Rises s0 (markFenced s p) := by
  unfold markFenced
  repeat' (first
    | with_reducible assumption
    | with_reducible apply Rises.ite
    | with_reducible refine Rises.foldl ?_ (fun _ _ _ => ?_)
    | (with_reducible refine State.setHf_rises ?_ ?_; on_goal 1 => (first | (constructor <;> decide) | (refine ⟨?_, ?_, ?_⟩ <;> decide) | (refine ⟨?_, ?_, ?_⟩ <;> simp only [pageBase, Reg.VENEER_VSTATUS, Reg.VENEER_VINVAL_COUNT, Reg.FUNC_STALE_GEN_COUNT, Reg.HAPCH_HSTATUS, Reg.WORLD_HW_CTRL] <;> omega) | (refine ⟨?_, ?_, ?_⟩ <;> dsimp +zetaDelta only <;> split <;> decide)))
    | with_reducible apply readyChange_rises
    | split
    | fail_if_no_progress (with_reducible refine Rises.lit ?_)
    | (lift_lets -underBinder; intro x; first | (refine Rises.cut (s0 := s0) (s1 := x) ?_ (fun _ => ?_); on_goal 1 => unfold x) | skip))

theorem fenceBay_rises {s0 s : State} (b : Nat) (h0 : Rises s0 s) : Rises s0 (fenceBay s b) := by
  unfold fenceBay
  try lift_lets -underBinder
  repeat' (first
    | (intro x; first | (refine Rises.cut (s0 := s0) (s1 := x) ?_ (fun _ => ?_); on_goal 1 => unfold x) | skip)
    | with_reducible assumption
    | with_reducible apply Rises.ite
    | with_reducible refine Rises.foldl ?_ (fun _ _ _ => ?_)
    | (with_reducible refine State.setPf_rises ?_ ?_; on_goal 1 => (first | (constructor <;> decide) | (refine ⟨?_, ?_, ?_⟩ <;> decide) | (refine ⟨?_, ?_, ?_⟩ <;> simp only [pageBase, Reg.VENEER_VSTATUS, Reg.VENEER_VINVAL_COUNT, Reg.FUNC_STALE_GEN_COUNT, Reg.HAPCH_HSTATUS, Reg.WORLD_HW_CTRL] <;> omega) | (refine ⟨?_, ?_, ?_⟩ <;> dsimp +zetaDelta only <;> split <;> decide)))
    | with_reducible apply State.event_rises
    | with_reducible apply enterDegraded_rises
    | with_reducible apply bayLost_rises
    | with_reducible apply markFenced_rises
    | split
    | fail_if_no_progress (with_reducible refine Rises.lit ?_)
    | (lift_lets -underBinder; intro x; first | (refine Rises.cut (s0 := s0) (s1 := x) ?_ (fun _ => ?_); on_goal 1 => unfold x) | skip))

theorem fenceUnit_rises {s0 s : State} (p : Page) (b : Nat) (h0 : Rises s0 s) : Rises s0 (fenceUnit s p b) := by
  unfold fenceUnit
  repeat' (first
    | with_reducible assumption
    | with_reducible apply Rises.ite
    | with_reducible refine Rises.foldl ?_ (fun _ _ _ => ?_)
    | with_reducible apply State.setHead_rises
    | with_reducible apply enterDegraded_rises
    | with_reducible apply hapStop_rises
    | with_reducible apply enterSafe_rises
    | with_reducible apply fenceCore_rises
    | with_reducible apply markFenced_rises
    | with_reducible apply fenceBay_rises
    | split
    | fail_if_no_progress (with_reducible refine Rises.lit ?_)
    | (lift_lets -underBinder; intro x; first | (refine Rises.cut (s0 := s0) (s1 := x) ?_ (fun _ => ?_); on_goal 1 => unfold x) | skip))

theorem raiseFault_rises {s0 s : State} (q : Page) (b : Nat) (injected : Bool) (h0 : Rises s0 s) : Rises s0 (raiseFault s q b injected) := by
  unfold raiseFault
  try lift_lets -underBinder
  repeat' (first
    | (intro x; first | (refine Rises.cut (s0 := s0) (s1 := x) ?_ (fun _ => ?_); on_goal 1 => unfold x) | skip)
    | with_reducible assumption
    | with_reducible apply Rises.ite
    | with_reducible refine Rises.foldl ?_ (fun _ _ _ => ?_)
    | with_reducible apply State.hwBits_rises
    | with_reducible apply recordFault_rises
    | with_reducible apply enterSafe_rises
    | with_reducible apply fenceUnit_rises
    | split
    | fail_if_no_progress (with_reducible refine Rises.lit ?_)
    | (lift_lets -underBinder; intro x; first | (refine Rises.cut (s0 := s0) (s1 := x) ?_ (fun _ => ?_); on_goal 1 => unfold x) | skip))

theorem relayUpdate_rises {s0 s : State} (h0 : Rises s0 s) : Rises s0 (relayUpdate s) := by
  unfold relayUpdate
  try lift_lets -underBinder
  repeat' (first
    | (intro x; first | (refine Rises.cut (s0 := s0) (s1 := x) ?_ (fun _ => ?_); on_goal 1 => unfold x) | skip)
    | with_reducible assumption
    | with_reducible apply Rises.ite
    | with_reducible refine Rises.foldl ?_ (fun _ _ _ => ?_)
    | split
    | fail_if_no_progress (with_reducible refine Rises.lit ?_)
    | (lift_lets -underBinder; intro x; first | (refine Rises.cut (s0 := s0) (s1 := x) ?_ (fun _ => ?_); on_goal 1 => unfold x) | skip))

/-- The two sticky registers of any page. -/
theorem irq_mod (p : Page) : hadr p .irqStatus % 4096 = 0x18 := by
  cases p <;> simp [hadr, layerHdrOff, hdrOff, pageBase] <;> omega

theorem faultStatus_mod (p : Page) : hadr p .faultStatus % 4096 = 0x24 := by
  cases p <;> simp [hadr, layerHdrOff, hdrOff, pageBase] <;> omega

/-- Bits that hardware sets are set. -/
theorem hwBits_bit (s : State) (a k : Nat) (hk : k < 32) : fbit ((s.hwBits a (2 ^ k)).reg a) k = true := by
  simp [fbit_or_self _ hk]

theorem event_bit (s : State) (p : Page) (k : Nat) (hk : k < 32) :
    fbit ((s.event p k).reg (hadr p .irqStatus)) k = true :=
  hwBits_bit s _ k hk

theorem recordFault_bit (s : State) (p : Page) (b : Nat) (injected : Bool) (hb : b < 32) :
    fbit ((recordFault s p b injected).reg (hadr p .faultStatus)) b = true := by
  have h1 := hwBits_bit s (hadr p .faultStatus) b hb
  have hm := faultStatus_mod p
  unfold recordFault
  dsimp only
  rw [State.logAdd_reg]
  split
  · exact (recordFirst_rises (s0 := s.hwBits (hadr p .faultStatus) (2 ^ b)) _ _ _ _ (Rises.refl _)).bits _ (Or.inr hm) _ h1
  · split
    · exact (mergeFirst_rises (s0 := s.hwBits (hadr p .faultStatus) (2 ^ b)) _ _ _ (Rises.refl _)).bits _ (Or.inr hm) _ h1
    · exact h1

/-- A fault that is raised shows in its page's FAULT_STATUS, whatever its action does. -/
theorem raiseFault_bit (s : State) (q : Page) (b : Nat) (injected : Bool) (hb : b < 32) :
    fbit ((raiseFault s q b injected).reg (hadr (faultPage q) .faultStatus)) b = true := by
  have hm := faultStatus_mod (faultPage q)
  have h1 := recordFault_bit s (faultPage q) b injected hb
  unfold raiseFault
  dsimp only
  split
  · exact hwBits_bit s _ b hb
  · split
    · exact (enterSafe_rises (s0 := recordFault s (faultPage q) b injected) _ _ _ _ _ (Rises.refl _)).bits _ (Or.inr hm) _ h1
    · split
      · exact (fenceUnit_rises (s0 := recordFault s (faultPage q) b injected) _ _ (Rises.refl _)).bits _ (Or.inr hm) _ h1
      · exact h1

theorem raiseContained_bit (s : State) (q : Page) (b : Nat) (injected : Bool) (hb : b < 32) :
    fbit ((raiseContained s q b injected).reg (hadr (faultPage q) .faultStatus)) b = true := by
  have hm := faultStatus_mod (faultPage q)
  have h1 := recordFault_bit s (faultPage q) b injected hb
  unfold raiseContained
  dsimp only
  split
  · exact hwBits_bit s _ b hb
  · split
    · exact (enterSafe_rises (s0 := recordFault s (faultPage q) b injected) _ _ _ _ _ (Rises.refl _)).bits _ (Or.inr hm) _ h1
    · exact h1

/-- The steps of a restart of Heartwood leave it under way. -/
theorem hwRestart_on (s : State) {cause : Nat} (hc : cause < 16) : restarting (hwRestart s cause) = true := by
  by_cases h : restarting s = true
  · simp [hwRestart, h]
  · let t := s.setPr .world Reg.WORLD_HW_CTRL
      (w32 (2 ^ 31 + 2 ^ 24 * cause + 2 ^ 16 * satInc (fget (s.pr .world Reg.WORLD_HW_CTRL) 23 16) 255))
    have ht : restarting t = true := by simpa [t, restarting] using hwCtrl_restarting hc
    have hr : Rises t (hwRestart s cause) := by
      unfold hwRestart
      simp only [h, if_false, Bool.false_eq_true]
      have h2 : Rises t ((List.range 8).foldl abortCore (holdHeartwood (t.event .ctrlcplx 3))) :=
        Rises.foldl (holdHeartwood_rises (State.event_rises (Rises.refl t))) (fun _ _ h => abortCore_rises _ h)
      split
      · exact raiseContained_rises _ _ _ (Rises.lit h2)
      · exact Rises.lit h2
    exact hr.restart ht

end Sys2Proof.Machine
end

