-- ==== Sys2Proof/Laws/KeptBase.lean ====
section
/-!
SUPPORT. Laws/KeptBase.lean: what every operation of the model keeps: the queue of waiting commands, the canonical
form of memory, and the bound of the log queue (R537). `Kept s t` composes, so that one lemma per operation says it.
-/
namespace Sys2Proof.Machine

/-- What no operation breaks between two states. -/
structure Kept (s t : State) : Prop where
  pending : t.pending = s.pending
  mem : Memory.wf s.mem.cells = true → Memory.wf t.mem.cells = true
  log : s.log.queue.length ≤ 1024 → t.log.queue.length ≤ 1024

theorem Kept.refl (s : State) : Kept s s := ⟨rfl, id, id⟩

theorem Kept.trans {s t u : State} (h : Kept s t) (k : Kept t u) : Kept s u :=
  ⟨k.pending.trans h.pending, fun x => k.mem (h.mem x), fun x => k.log (h.log x)⟩

/-- The same for an update written out as a record. -/
theorem Kept.lit {s0 s : State} {fresh' : Nat} {fclk' : Nat} {upTicks' : Nat} {cyc' : Cycle} {mode' : ModeSt} {cfg' : CfgRec} {regs' : Assoc
    Word} {shadow' : Assoc Word} {pends' : Assoc (Option PendStage)} {slots' : List Slot} {latches' : List Latch}
    {crossings' : List Crossing} {answer' : Option Answer} {log' : LogSt} {legend' : LegendSt} {heads' : Assoc
    HeadSt} {mem' : MemSt} {xlate' : XlateSt} {rings' : Assoc RingSt} {ports' : Assoc PortSt} {cvus' : Assoc CvuSt}
    {safe' : SafeSt} {sched' : SchedSt} {cpx' : CoresSt} {keys' : Assoc KeySt} {keyWait' : List KeyRec} {scans' :
    Assoc ScanSt} {haps' : Assoc HapSt} {audio' : AudioSt} {surv' : SurvSt} {b4' : B4St}
    (hm : mem'.cells = s.mem.cells) (hl : log'.queue = s.log.queue) (h : Kept s0 s) :
    Kept s0 (State.mk s.pending fresh' fclk' upTicks' cyc' mode' cfg' regs' shadow' pends' slots' latches' crossings' answer' log'
      legend' heads' mem' xlate' rings' ports' cvus' safe' sched' cpx' keys' keyWait' scans' haps' audio' surv' b4') :=
  ⟨h.pending, fun x => hm ▸ h.mem x, fun x => hl ▸ h.log x⟩

theorem Kept.ite {s0 a b : State} {c : Prop} [Decidable c] (ha : Kept s0 a) (hb : Kept s0 b) :
    Kept s0 (if c then a else b) := by
  split
  · exact ha
  · exact hb

theorem Kept.foldl {β : Type} {s0 s : State} {f : State → β → State} {l : List β} (hs : Kept s0 s)
    (hf : ∀ s x, Kept s0 s → Kept s0 (f s x)) : Kept s0 (l.foldl f s) := by
  induction l generalizing s with
  | nil => exact hs
  | cons x r ih => exact ih (hf s x hs)

/-- A step of a proof: the state s1 is settled first. -/
theorem Kept.cut {s0 s1 : State} {P : Prop} (h : Kept s0 s1) (k : Kept s0 s1 → P) : P := k h

theorem Kept.fst {α : Type} {s0 s1 : State} {p : State × α} {x : α} (e : p = (s1, x)) (h : Kept s0 p.1) : Kept s0 s1 := by
  rw [e] at h; exact h

theorem Kept.snd {α : Type} {s0 s1 : State} {p : α × State} {x : α} (e : p = (x, s1)) (h : Kept s0 p.2) : Kept s0 s1 := by
  rw [e] at h; exact h

/-- A pair is made of a settled state. -/
theorem Kept.mkFst {α : Type} {s0 a : State} {b : α} (h : Kept s0 a) : Kept s0 (a, b).1 := h

theorem Kept.mkSnd {α : Type} {s0 a : State} {b : α} (h : Kept s0 a) : Kept s0 (b, a).2 := h

theorem Kept.fstIte {α : Type} {s0 : State} {a b : State × α} {c : Prop} [Decidable c] (ha : Kept s0 a.1) (hb : Kept s0 b.1) :
    Kept s0 (if c then a else b).1 := by
  split
  · exact ha
  · exact hb

/-- The same of an operation that may have no result. -/
structure KeptO (s0 : State) (o : Option State) : Prop where
  out : ∀ t, o = some t → Kept s0 t

theorem KeptO.none {s0 : State} : KeptO s0 none := ⟨fun _ e => nomatch e⟩

theorem KeptO.some {s0 t : State} (h : Kept s0 t) : KeptO s0 (some t) := ⟨fun _ e => Option.some.inj e ▸ h⟩

theorem KeptO.ite {s0 : State} {a b : Option State} {c : Prop} [Decidable c] (ha : KeptO s0 a) (hb : KeptO s0 b) :
    KeptO s0 (if c then a else b) := by
  split
  · exact ha
  · exact hb

end Sys2Proof.Machine
end

