-- ==== Sys2Proof/Laws/KeptOps.lean ====
section
/-!
SUPPORT. Laws/KeptOps.lean: the operations of Machine/Ops.lean keep what `Kept` says.
-/
set_option linter.unusedTactic false
set_option linter.unreachableTactic false
set_option linter.unusedVariables false

namespace Sys2Proof.Machine

theorem State.setReg_kept {s0 s : State} (a : Nat) (v : Word) (h0 : Kept s0 s) :
    Kept s0 (State.setReg s a v) := by
  unfold State.setReg
  repeat' (first
    | with_reducible assumption
    | with_reducible apply Kept.ite
    | with_reducible apply Kept.fstIte
    | with_reducible refine Kept.foldl ?_ (fun _ _ _ => ?_)
    | (refine Kept.fst (by with_reducible assumption) ?_)
    | split
    | fail_if_no_progress (with_reducible refine Kept.lit rfl rfl ?_)
    | (lift_lets -underBinder; intro x; first | (refine Kept.cut (s0 := s0) (s1 := x) ?_ (fun _ => ?_); on_goal 1 => unfold x) | skip))

theorem State.setShd_kept {s0 s : State} (a : Nat) (v : Word) (h0 : Kept s0 s) :
    Kept s0 (State.setShd s a v) := by
  unfold State.setShd
  repeat' (first
    | with_reducible assumption
    | with_reducible apply Kept.ite
    | with_reducible apply Kept.fstIte
    | with_reducible refine Kept.foldl ?_ (fun _ _ _ => ?_)
    | (refine Kept.fst (by with_reducible assumption) ?_)
    | split
    | fail_if_no_progress (with_reducible refine Kept.lit rfl rfl ?_)
    | (lift_lets -underBinder; intro x; first | (refine Kept.cut (s0 := s0) (s1 := x) ?_ (fun _ => ?_); on_goal 1 => unfold x) | skip))

theorem State.setPr_kept {s0 s : State} (p : Page) (o : Nat) (v : Word) (h0 : Kept s0 s) :
    Kept s0 (State.setPr s p o v) := by
  unfold State.setPr
  repeat' (first
    | with_reducible assumption
    | with_reducible apply Kept.ite
    | with_reducible apply Kept.fstIte
    | with_reducible refine Kept.foldl ?_ (fun _ _ _ => ?_)
    | with_reducible apply State.setReg_kept
    | (refine Kept.fst (by with_reducible assumption) ?_)
    | split
    | fail_if_no_progress (with_reducible refine Kept.lit rfl rfl ?_)
    | (lift_lets -underBinder; intro x; first | (refine Kept.cut (s0 := s0) (s1 := x) ?_ (fun _ => ?_); on_goal 1 => unfold x) | skip))

theorem State.setPf_kept {s0 s : State} (p : Page) (o hi lo v : Nat) (h0 : Kept s0 s) :
    Kept s0 (State.setPf s p o hi lo v) := by
  unfold State.setPf
  repeat' (first
    | with_reducible assumption
    | with_reducible apply Kept.ite
    | with_reducible apply Kept.fstIte
    | with_reducible refine Kept.foldl ?_ (fun _ _ _ => ?_)
    | with_reducible apply State.setPr_kept
    | (refine Kept.fst (by with_reducible assumption) ?_)
    | split
    | fail_if_no_progress (with_reducible refine Kept.lit rfl rfl ?_)
    | (lift_lets -underBinder; intro x; first | (refine Kept.cut (s0 := s0) (s1 := x) ?_ (fun _ => ?_); on_goal 1 => unfold x) | skip))

theorem State.setHd_kept {s0 s : State} (p : Page) (h : Hdr) (v : Word) (h0 : Kept s0 s) :
    Kept s0 (State.setHd s p h v) := by
  unfold State.setHd
  repeat' (first
    | with_reducible assumption
    | with_reducible apply Kept.ite
    | with_reducible apply Kept.fstIte
    | with_reducible refine Kept.foldl ?_ (fun _ _ _ => ?_)
    | with_reducible apply State.setReg_kept
    | (refine Kept.fst (by with_reducible assumption) ?_)
    | split
    | fail_if_no_progress (with_reducible refine Kept.lit rfl rfl ?_)
    | (lift_lets -underBinder; intro x; first | (refine Kept.cut (s0 := s0) (s1 := x) ?_ (fun _ => ?_); on_goal 1 => unfold x) | skip))

theorem State.setHf_kept {s0 s : State} (p : Page) (h : Hdr) (hi lo v : Nat) (h0 : Kept s0 s) :
    Kept s0 (State.setHf s p h hi lo v) := by
  unfold State.setHf
  repeat' (first
    | with_reducible assumption
    | with_reducible apply Kept.ite
    | with_reducible apply Kept.fstIte
    | with_reducible refine Kept.foldl ?_ (fun _ _ _ => ?_)
    | with_reducible apply State.setHd_kept
    | (refine Kept.fst (by with_reducible assumption) ?_)
    | split
    | fail_if_no_progress (with_reducible refine Kept.lit rfl rfl ?_)
    | (lift_lets -underBinder; intro x; first | (refine Kept.cut (s0 := s0) (s1 := x) ?_ (fun _ => ?_); on_goal 1 => unfold x) | skip))

theorem State.setPair_kept {s0 s : State} (p : Page) (o v : Nat) (h0 : Kept s0 s) :
    Kept s0 (State.setPair s p o v) := by
  unfold State.setPair
  repeat' (first
    | with_reducible assumption
    | with_reducible apply Kept.ite
    | with_reducible apply Kept.fstIte
    | with_reducible refine Kept.foldl ?_ (fun _ _ _ => ?_)
    | with_reducible apply State.setPr_kept
    | (refine Kept.fst (by with_reducible assumption) ?_)
    | split
    | fail_if_no_progress (with_reducible refine Kept.lit rfl rfl ?_)
    | (lift_lets -underBinder; intro x; first | (refine Kept.cut (s0 := s0) (s1 := x) ?_ (fun _ => ?_); on_goal 1 => unfold x) | skip))

theorem State.count_kept {s0 s : State} (p : Page) (o : Nat) (h0 : Kept s0 s) :
    Kept s0 (State.count s p o) := by
  unfold State.count
  repeat' (first
    | with_reducible assumption
    | with_reducible apply Kept.ite
    | with_reducible apply Kept.fstIte
    | with_reducible refine Kept.foldl ?_ (fun _ _ _ => ?_)
    | with_reducible apply State.setPr_kept
    | (refine Kept.fst (by with_reducible assumption) ?_)
    | split
    | fail_if_no_progress (with_reducible refine Kept.lit rfl rfl ?_)
    | (lift_lets -underBinder; intro x; first | (refine Kept.cut (s0 := s0) (s1 := x) ?_ (fun _ => ?_); on_goal 1 => unfold x) | skip))

theorem State.countBy_kept {s0 s : State} (p : Page) (o n : Nat) (h0 : Kept s0 s) :
    Kept s0 (State.countBy s p o n) := by
  unfold State.countBy
  repeat' (first
    | with_reducible assumption
    | with_reducible apply Kept.ite
    | with_reducible apply Kept.fstIte
    | with_reducible refine Kept.foldl ?_ (fun _ _ _ => ?_)
    | with_reducible apply State.setPr_kept
    | (refine Kept.fst (by with_reducible assumption) ?_)
    | split
    | fail_if_no_progress (with_reducible refine Kept.lit rfl rfl ?_)
    | (lift_lets -underBinder; intro x; first | (refine Kept.cut (s0 := s0) (s1 := x) ?_ (fun _ => ?_); on_goal 1 => unfold x) | skip))

theorem State.resetRange_kept {s0 s : State} (lo hi : Nat) (h0 : Kept s0 s) :
    Kept s0 (State.resetRange s lo hi) := by
  unfold State.resetRange
  repeat' (first
    | with_reducible assumption
    | with_reducible apply Kept.ite
    | with_reducible apply Kept.fstIte
    | with_reducible refine Kept.foldl ?_ (fun _ _ _ => ?_)
    | (refine Kept.fst (by with_reducible assumption) ?_)
    | split
    | fail_if_no_progress (with_reducible refine Kept.lit rfl rfl ?_)
    | (lift_lets -underBinder; intro x; first | (refine Kept.cut (s0 := s0) (s1 := x) ?_ (fun _ => ?_); on_goal 1 => unfold x) | skip))

theorem State.setPend_kept {s0 s : State} (p : Page) (x : Option PendStage) (h0 : Kept s0 s) :
    Kept s0 (State.setPend s p x) := by
  unfold State.setPend
  repeat' (first
    | with_reducible assumption
    | with_reducible apply Kept.ite
    | with_reducible apply Kept.fstIte
    | with_reducible refine Kept.foldl ?_ (fun _ _ _ => ?_)
    | (refine Kept.fst (by with_reducible assumption) ?_)
    | split
    | fail_if_no_progress (with_reducible refine Kept.lit rfl rfl ?_)
    | (lift_lets -underBinder; intro x; first | (refine Kept.cut (s0 := s0) (s1 := x) ?_ (fun _ => ?_); on_goal 1 => unfold x) | skip))

theorem State.setBusy_kept {s0 s : State} (p : Page) (b : Bool) (h0 : Kept s0 s) :
    Kept s0 (State.setBusy s p b) := by
  unfold State.setBusy
  repeat' (first
    | with_reducible assumption
    | with_reducible apply Kept.ite
    | with_reducible apply Kept.fstIte
    | with_reducible refine Kept.foldl ?_ (fun _ _ _ => ?_)
    | with_reducible apply State.setHf_kept
    | (refine Kept.fst (by with_reducible assumption) ?_)
    | split
    | fail_if_no_progress (with_reducible refine Kept.lit rfl rfl ?_)
    | (lift_lets -underBinder; intro x; first | (refine Kept.cut (s0 := s0) (s1 := x) ?_ (fun _ => ?_); on_goal 1 => unfold x) | skip))

theorem State.hwBits_kept {s0 s : State} (a mask : Nat) (h0 : Kept s0 s) :
    Kept s0 (State.hwBits s a mask) := by
  unfold State.hwBits
  try lift_lets -underBinder
  repeat' (first
    | (intro x; first | (refine Kept.cut (s0 := s0) (s1 := x) ?_ (fun _ => ?_); on_goal 1 => unfold x) | skip)
    | with_reducible assumption
    | with_reducible apply Kept.ite
    | with_reducible apply Kept.fstIte
    | with_reducible refine Kept.foldl ?_ (fun _ _ _ => ?_)
    | with_reducible apply State.setReg_kept
    | (refine Kept.fst (by with_reducible assumption) ?_)
    | split
    | fail_if_no_progress (with_reducible refine Kept.lit rfl rfl ?_)
    | (lift_lets -underBinder; intro x; first | (refine Kept.cut (s0 := s0) (s1 := x) ?_ (fun _ => ?_); on_goal 1 => unfold x) | skip))

theorem State.event_kept {s0 s : State} (p : Page) (k : Nat) (h0 : Kept s0 s) :
    Kept s0 (State.event s p k) := by
  unfold State.event
  repeat' (first
    | with_reducible assumption
    | with_reducible apply Kept.ite
    | with_reducible apply Kept.fstIte
    | with_reducible refine Kept.foldl ?_ (fun _ _ _ => ?_)
    | with_reducible apply State.hwBits_kept
    | (refine Kept.fst (by with_reducible assumption) ?_)
    | split
    | fail_if_no_progress (with_reducible refine Kept.lit rfl rfl ?_)
    | (lift_lets -underBinder; intro x; first | (refine Kept.cut (s0 := s0) (s1 := x) ?_ (fun _ => ?_); on_goal 1 => unfold x) | skip))

theorem readyChange_kept {s0 s : State} (was : State) (p : Page) (h0 : Kept s0 s) : Kept s0 (readyChange was s p) := by
  unfold readyChange
  repeat' (first
    | with_reducible assumption
    | with_reducible apply Kept.ite
    | with_reducible apply Kept.fstIte
    | with_reducible refine Kept.foldl ?_ (fun _ _ _ => ?_)
    | with_reducible apply State.event_kept
    | (refine Kept.fst (by with_reducible assumption) ?_)
    | split
    | fail_if_no_progress (with_reducible refine Kept.lit rfl rfl ?_)
    | (lift_lets -underBinder; intro x; first | (refine Kept.cut (s0 := s0) (s1 := x) ?_ (fun _ => ?_); on_goal 1 => unfold x) | skip))

theorem State.setReady_kept {s0 s : State} (p : Page) (h0 : Kept s0 s) :
    Kept s0 (State.setReady s p) := by
  unfold State.setReady
  repeat' (first
    | with_reducible assumption
    | with_reducible apply Kept.ite
    | with_reducible apply Kept.fstIte
    | with_reducible refine Kept.foldl ?_ (fun _ _ _ => ?_)
    | with_reducible apply State.setHf_kept
    | with_reducible apply readyChange_kept
    | (refine Kept.fst (by with_reducible assumption) ?_)
    | split
    | fail_if_no_progress (with_reducible refine Kept.lit rfl rfl ?_)
    | (lift_lets -underBinder; intro x; first | (refine Kept.cut (s0 := s0) (s1 := x) ?_ (fun _ => ?_); on_goal 1 => unfold x) | skip))

theorem State.clearReady_kept {s0 s : State} (p : Page) (reason : Nat) (h0 : Kept s0 s) :
    Kept s0 (State.clearReady s p reason) := by
  unfold State.clearReady
  repeat' (first
    | with_reducible assumption
    | with_reducible apply Kept.ite
    | with_reducible apply Kept.fstIte
    | with_reducible refine Kept.foldl ?_ (fun _ _ _ => ?_)
    | with_reducible apply State.setHf_kept
    | with_reducible apply readyChange_kept
    | (refine Kept.fst (by with_reducible assumption) ?_)
    | split
    | fail_if_no_progress (with_reducible refine Kept.lit rfl rfl ?_)
    | (lift_lets -underBinder; intro x; first | (refine Kept.cut (s0 := s0) (s1 := x) ?_ (fun _ => ?_); on_goal 1 => unfold x) | skip))

theorem State.logPut_kept {s0 s : State} (e : LogEntry) (h : Kept s0 s) : Kept s0 (s.logPut e) := by
  unfold State.logPut
  split
  · refine ⟨h.pending, h.mem, fun _ => ?_⟩
    simp only [List.length_append, List.length_cons, List.length_nil]; omega
  · exact ⟨h.pending, h.mem, h.log⟩

theorem State.logAdd_kept {s0 s : State} (k : LogKind) (place code addr : Nat) (injected : Bool) (h0 : Kept s0 s) :
    Kept s0 (State.logAdd s k place code addr injected) := by
  unfold State.logAdd
  repeat' (first
    | with_reducible assumption
    | with_reducible apply Kept.ite
    | with_reducible apply Kept.fstIte
    | with_reducible refine Kept.foldl ?_ (fun _ _ _ => ?_)
    | with_reducible apply State.logPut_kept
    | (refine Kept.fst (by with_reducible assumption) ?_)
    | split
    | fail_if_no_progress (with_reducible refine Kept.lit rfl rfl ?_)
    | (lift_lets -underBinder; intro x; first | (refine Kept.cut (s0 := s0) (s1 := x) ?_ (fun _ => ?_); on_goal 1 => unfold x) | skip))

theorem State.logLimited_kept {s0 s : State} (key interval : Nat) (k : LogKind) (place code addr : Nat) (h0 : Kept s0 s) :
    Kept s0 (State.logLimited s key interval k place code addr) := by
  unfold State.logLimited
  try lift_lets -underBinder
  repeat' (first
    | (intro x; first | (refine Kept.cut (s0 := s0) (s1 := x) ?_ (fun _ => ?_); on_goal 1 => unfold x) | skip)
    | with_reducible assumption
    | with_reducible apply Kept.ite
    | with_reducible apply Kept.fstIte
    | with_reducible refine Kept.foldl ?_ (fun _ _ _ => ?_)
    | with_reducible apply State.logAdd_kept
    | (refine Kept.fst (by with_reducible assumption) ?_)
    | split
    | fail_if_no_progress (with_reducible refine Kept.lit rfl rfl ?_)
    | (lift_lets -underBinder; intro x; first | (refine Kept.cut (s0 := s0) (s1 := x) ?_ (fun _ => ?_); on_goal 1 => unfold x) | skip))

theorem State.refuse_kept {s0 s : State} (m : Master) (p : Page) (c : Cause) (off full : Nat) (h0 : Kept s0 s) :
    Kept s0 (s.refuse m p c off full) := by
  have h1 : ∀ w k, Kept s0 ((s.setHd p .reject w).hwBits (hadr p .reject) k) :=
    fun w k => State.hwBits_kept _ _ (State.setHd_kept _ _ _ h0)
  have h2 : ∀ t full code, Kept s0 t → Kept s0 (if aget 0 t.log.refusalAt (pageBase p) = 0 ∨
      aget 0 t.log.refusalAt (pageBase p) - 1 + 1000000 ≤ t.devtime then
      { (t.logAdd .refusal full code 0) with log := { (t.logAdd .refusal full code 0).log with
          refusalAt := aset 0 (t.logAdd .refusal full code 0).log.refusalAt (pageBase p) ((t.logAdd .refusal full code 0).devtime + 1) } }
      else t) := by
    intro t full code ht
    split
    · exact Kept.lit rfl rfl (State.logAdd_kept _ _ _ _ _ ht)
    · exact ht
  unfold State.refuse
  cases c
  case owner => exact h2 _ _ _ (h1 _ _)
  case claimed => exact h2 _ _ _ (h1 _ _)
  case revoked =>
    cases m
    case func k => exact h2 _ _ _ (State.hwBits_kept _ _ (State.setReg_kept _ _ (h1 _ _)))
    all_goals exact h2 _ _ _ (h1 _ _)
  all_goals exact h1 _ _

theorem State.unstage_kept {s0 s : State} (m : Master) (table : Nat) (h0 : Kept s0 s) :
    Kept s0 (State.unstage s m table) := by
  unfold State.unstage
  repeat' (first
    | with_reducible assumption
    | with_reducible apply Kept.ite
    | with_reducible apply Kept.fstIte
    | with_reducible refine Kept.foldl ?_ (fun _ _ _ => ?_)
    | (refine Kept.fst (by with_reducible assumption) ?_)
    | split
    | fail_if_no_progress (with_reducible refine Kept.lit rfl rfl ?_)
    | (lift_lets -underBinder; intro x; first | (refine Kept.cut (s0 := s0) (s1 := x) ?_ (fun _ => ?_); on_goal 1 => unfold x) | skip))

theorem State.stageWord_kept {s0 s : State} (m : Master) (table entry a : Nat) (v : Word) (h0 : Kept s0 s) :
    Kept s0 (State.stageWord s m table entry a v) := by
  unfold State.stageWord
  try lift_lets -underBinder
  repeat' (first
    | (intro x; first | (refine Kept.cut (s0 := s0) (s1 := x) ?_ (fun _ => ?_); on_goal 1 => unfold x) | skip)
    | with_reducible assumption
    | with_reducible apply Kept.ite
    | with_reducible apply Kept.fstIte
    | with_reducible refine Kept.foldl ?_ (fun _ _ _ => ?_)
    | with_reducible apply State.unstage_kept
    | (refine Kept.fst (by with_reducible assumption) ?_)
    | split
    | fail_if_no_progress (with_reducible refine Kept.lit rfl rfl ?_)
    | (lift_lets -underBinder; intro x; first | (refine Kept.cut (s0 := s0) (s1 := x) ?_ (fun _ => ?_); on_goal 1 => unfold x) | skip))

theorem State.applyStaged_kept {s0 s : State} (m : Master) (table entry : Nat) (h0 : Kept s0 s) :
    Kept s0 (State.applyStaged s m table entry) := by
  unfold State.applyStaged
  repeat' (first
    | with_reducible assumption
    | with_reducible apply Kept.ite
    | with_reducible apply Kept.fstIte
    | with_reducible refine Kept.foldl ?_ (fun _ _ _ => ?_)
    | with_reducible apply State.setReg_kept
    | with_reducible apply State.unstage_kept
    | (refine Kept.fst (by with_reducible assumption) ?_)
    | split
    | fail_if_no_progress (with_reducible refine Kept.lit rfl rfl ?_)
    | (lift_lets -underBinder; intro x; first | (refine Kept.cut (s0 := s0) (s1 := x) ?_ (fun _ => ?_); on_goal 1 => unfold x) | skip))

theorem State.latch_kept {s0 s : State} (m : Master) (a : Nat) (v : Word) (h0 : Kept s0 s) :
    Kept s0 (State.latch s m a v) := by
  unfold State.latch
  repeat' (first
    | with_reducible assumption
    | with_reducible apply Kept.ite
    | with_reducible apply Kept.fstIte
    | with_reducible refine Kept.foldl ?_ (fun _ _ _ => ?_)
    | (refine Kept.fst (by with_reducible assumption) ?_)
    | split
    | fail_if_no_progress (with_reducible refine Kept.lit rfl rfl ?_)
    | (lift_lets -underBinder; intro x; first | (refine Kept.cut (s0 := s0) (s1 := x) ?_ (fun _ => ?_); on_goal 1 => unfold x) | skip))

theorem State.draw_kept {s0 s : State} (h0 : Kept s0 s) :
    Kept s0 (State.draw s).2 := by
  unfold State.draw
  repeat' (first
    | with_reducible assumption
    | with_reducible apply Kept.ite
    | with_reducible apply Kept.fstIte
    | with_reducible refine Kept.foldl ?_ (fun _ _ _ => ?_)
    | (refine Kept.fst (by with_reducible assumption) ?_)
    | split
    | fail_if_no_progress (with_reducible refine Kept.lit rfl rfl ?_)
    | (lift_lets -underBinder; intro x; first | (refine Kept.cut (s0 := s0) (s1 := x) ?_ (fun _ => ?_); on_goal 1 => unfold x) | skip))

end Sys2Proof.Machine
end

