-- ==== Sys2Proof/Laws/KeptFlags.lean ====
section
/-!
SUPPORT. Laws/KeptFlags.lean: the operations of Machine/Flags.lean keep what `Kept` says.
-/
set_option linter.unusedTactic false
set_option linter.unreachableTactic false
set_option linter.unusedVariables false

namespace Sys2Proof.Machine

theorem State.setHead_kept {s0 s : State} (n : Nat) (h : HeadSt) (h0 : Kept s0 s) :
    Kept s0 (State.setHead s n h) := by
  unfold State.setHead
  repeat' (first
    | with_reducible assumption
    | with_reducible apply Kept.ite
    | with_reducible apply Kept.fstIte
    | with_reducible refine Kept.foldl ?_ (fun _ _ _ => ?_)
    | (refine Kept.fst (by with_reducible assumption) ?_)
    | split
    | fail_if_no_progress (with_reducible refine Kept.lit rfl rfl ?_)
    | (lift_lets -underBinder; intro x; first | (refine Kept.cut (s0 := s0) (s1 := x) ?_ (fun _ => ?_); on_goal 1 => unfold x) | skip))

theorem State.setCore_kept {s0 s : State} (c : Nat) (x : CoreSt) (h0 : Kept s0 s) :
    Kept s0 (State.setCore s c x) := by
  unfold State.setCore
  repeat' (first
    | with_reducible assumption
    | with_reducible apply Kept.ite
    | with_reducible apply Kept.fstIte
    | with_reducible refine Kept.foldl ?_ (fun _ _ _ => ?_)
    | (refine Kept.fst (by with_reducible assumption) ?_)
    | split
    | fail_if_no_progress (with_reducible refine Kept.lit rfl rfl ?_)
    | (lift_lets -underBinder; intro x; first | (refine Kept.cut (s0 := s0) (s1 := x) ?_ (fun _ => ?_); on_goal 1 => unfold x) | skip))

theorem State.setRing_kept {s0 s : State} (rs : Nat) (x : RingSt) (h0 : Kept s0 s) :
    Kept s0 (State.setRing s rs x) := by
  unfold State.setRing
  repeat' (first
    | with_reducible assumption
    | with_reducible apply Kept.ite
    | with_reducible apply Kept.fstIte
    | with_reducible refine Kept.foldl ?_ (fun _ _ _ => ?_)
    | (refine Kept.fst (by with_reducible assumption) ?_)
    | split
    | fail_if_no_progress (with_reducible refine Kept.lit rfl rfl ?_)
    | (lift_lets -underBinder; intro x; first | (refine Kept.cut (s0 := s0) (s1 := x) ?_ (fun _ => ?_); on_goal 1 => unfold x) | skip))

theorem State.setJob_kept {s0 s : State} (i : Nat) (j : Option Job) (h0 : Kept s0 s) :
    Kept s0 (State.setJob s i j) := by
  unfold State.setJob
  try lift_lets -underBinder
  repeat' (first
    | (intro x; first | (refine Kept.cut (s0 := s0) (s1 := x) ?_ (fun _ => ?_); on_goal 1 => unfold x) | skip)
    | with_reducible assumption
    | with_reducible apply Kept.ite
    | with_reducible apply Kept.fstIte
    | with_reducible refine Kept.foldl ?_ (fun _ _ _ => ?_)
    | with_reducible apply State.setPf_kept
    | (refine Kept.fst (by with_reducible assumption) ?_)
    | split
    | fail_if_no_progress (with_reducible refine Kept.lit rfl rfl ?_)
    | (lift_lets -underBinder; intro x; first | (refine Kept.cut (s0 := s0) (s1 := x) ?_ (fun _ => ?_); on_goal 1 => unfold x) | skip))

theorem countStale_kept {s0 s : State} (rs : Nat) (h0 : Kept s0 s) :
    Kept s0 (countStale s rs) := by
  unfold countStale
  repeat' (first
    | with_reducible assumption
    | with_reducible apply Kept.ite
    | with_reducible apply Kept.fstIte
    | with_reducible refine Kept.foldl ?_ (fun _ _ _ => ?_)
    | with_reducible apply State.count_kept
    | (refine Kept.fst (by with_reducible assumption) ?_)
    | split
    | fail_if_no_progress (with_reducible refine Kept.lit rfl rfl ?_)
    | (lift_lets -underBinder; intro x; first | (refine Kept.cut (s0 := s0) (s1 := x) ?_ (fun _ => ?_); on_goal 1 => unfold x) | skip))

theorem setWorld_kept {s0 s : State} (c : Nat) (b : Bool) (h0 : Kept s0 s) :
    Kept s0 (setWorld s c b) := by
  unfold setWorld
  repeat' (first
    | with_reducible assumption
    | with_reducible apply Kept.ite
    | with_reducible apply Kept.fstIte
    | with_reducible refine Kept.foldl ?_ (fun _ _ _ => ?_)
    | with_reducible apply State.setPf_kept
    | (refine Kept.fst (by with_reducible assumption) ?_)
    | split
    | fail_if_no_progress (with_reducible refine Kept.lit rfl rfl ?_)
    | (lift_lets -underBinder; intro x; first | (refine Kept.cut (s0 := s0) (s1 := x) ?_ (fun _ => ?_); on_goal 1 => unfold x) | skip))

theorem State.setB4_kept {s0 s : State} (o : Nat) (v : Word) (h0 : Kept s0 s) :
    Kept s0 (State.setB4 s o v) := by
  unfold State.setB4
  repeat' (first
    | with_reducible assumption
    | with_reducible apply Kept.ite
    | with_reducible apply Kept.fstIte
    | with_reducible refine Kept.foldl ?_ (fun _ _ _ => ?_)
    | (refine Kept.fst (by with_reducible assumption) ?_)
    | split
    | fail_if_no_progress (with_reducible refine Kept.lit rfl rfl ?_)
    | (lift_lets -underBinder; intro x; first | (refine Kept.cut (s0 := s0) (s1 := x) ?_ (fun _ => ?_); on_goal 1 => unfold x) | skip))

theorem b4Isr_kept {s0 s : State} (mask : Nat) (h0 : Kept s0 s) :
    Kept s0 (b4Isr s mask) := by
  unfold b4Isr
  try lift_lets -underBinder
  repeat' (first
    | (intro x; first | (refine Kept.cut (s0 := s0) (s1 := x) ?_ (fun _ => ?_); on_goal 1 => unfold x) | skip)
    | with_reducible assumption
    | with_reducible apply Kept.ite
    | with_reducible apply Kept.fstIte
    | with_reducible refine Kept.foldl ?_ (fun _ _ _ => ?_)
    | with_reducible apply State.setB4_kept
    | (refine Kept.fst (by with_reducible assumption) ?_)
    | split
    | fail_if_no_progress (with_reducible refine Kept.lit rfl rfl ?_)
    | (lift_lets -underBinder; intro x; first | (refine Kept.cut (s0 := s0) (s1 := x) ?_ (fun _ => ?_); on_goal 1 => unfold x) | skip))

theorem b4HpdChange_kept {s0 s : State} (n : Nat) (h0 : Kept s0 s) :
    Kept s0 (b4HpdChange s n) := by
  unfold b4HpdChange
  repeat' (first
    | with_reducible assumption
    | with_reducible apply Kept.ite
    | with_reducible apply Kept.fstIte
    | with_reducible refine Kept.foldl ?_ (fun _ _ _ => ?_)
    | with_reducible apply b4Isr_kept
    | (refine Kept.fst (by with_reducible assumption) ?_)
    | split
    | fail_if_no_progress (with_reducible refine Kept.lit rfl rfl ?_)
    | (lift_lets -underBinder; intro x; first | (refine Kept.cut (s0 := s0) (s1 := x) ?_ (fun _ => ?_); on_goal 1 => unfold x) | skip))

theorem setMode_kept {s0 s : State} (m : Mode) (h0 : Kept s0 s) :
    Kept s0 (setMode s m) := by
  unfold setMode
  try lift_lets -underBinder
  repeat' (first
    | (intro x; first | (refine Kept.cut (s0 := s0) (s1 := x) ?_ (fun _ => ?_); on_goal 1 => unfold x) | skip)
    | with_reducible assumption
    | with_reducible apply Kept.ite
    | with_reducible apply Kept.fstIte
    | with_reducible refine Kept.foldl ?_ (fun _ _ _ => ?_)
    | with_reducible apply State.event_kept
    | with_reducible apply State.logAdd_kept
    | (refine Kept.fst (by with_reducible assumption) ?_)
    | split
    | fail_if_no_progress (with_reducible refine Kept.lit rfl rfl ?_)
    | (lift_lets -underBinder; intro x; first | (refine Kept.cut (s0 := s0) (s1 := x) ?_ (fun _ => ?_); on_goal 1 => unfold x) | skip))

theorem enterDegraded_kept {s0 s : State} (h0 : Kept s0 s) :
    Kept s0 (enterDegraded s) := by
  unfold enterDegraded
  repeat' (first
    | with_reducible assumption
    | with_reducible apply Kept.ite
    | with_reducible apply Kept.fstIte
    | with_reducible refine Kept.foldl ?_ (fun _ _ _ => ?_)
    | with_reducible apply setMode_kept
    | (refine Kept.fst (by with_reducible assumption) ?_)
    | split
    | fail_if_no_progress (with_reducible refine Kept.lit rfl rfl ?_)
    | (lift_lets -underBinder; intro x; first | (refine Kept.cut (s0 := s0) (s1 := x) ?_ (fun _ => ?_); on_goal 1 => unfold x) | skip))

theorem layerEvent_kept {s0 s : State} (code bit : Nat) (h0 : Kept s0 s) :
    Kept s0 (layerEvent s code bit) := by
  unfold layerEvent
  repeat' (first
    | with_reducible assumption
    | with_reducible apply Kept.ite
    | with_reducible apply Kept.fstIte
    | with_reducible refine Kept.foldl ?_ (fun _ _ _ => ?_)
    | with_reducible apply State.hwBits_kept
    | (refine Kept.fst (by with_reducible assumption) ?_)
    | split
    | fail_if_no_progress (with_reducible refine Kept.lit rfl rfl ?_)
    | (lift_lets -underBinder; intro x; first | (refine Kept.cut (s0 := s0) (s1 := x) ?_ (fun _ => ?_); on_goal 1 => unfold x) | skip))

theorem invalidateRun_kept {s0 s : State} (n r code : Nat) (h0 : Kept s0 s) :
    Kept s0 (invalidateRun s n r code) := by
  unfold invalidateRun
  try lift_lets -underBinder
  repeat' (first
    | (intro x; first | (refine Kept.cut (s0 := s0) (s1 := x) ?_ (fun _ => ?_); on_goal 1 => unfold x) | skip)
    | with_reducible assumption
    | with_reducible apply Kept.ite
    | with_reducible apply Kept.fstIte
    | with_reducible refine Kept.foldl ?_ (fun _ _ _ => ?_)
    | with_reducible apply State.setPf_kept
    | with_reducible apply State.count_kept
    | with_reducible apply State.event_kept
    | with_reducible apply State.setHead_kept
    | (refine Kept.fst (by with_reducible assumption) ?_)
    | split
    | fail_if_no_progress (with_reducible refine Kept.lit rfl rfl ?_)
    | (lift_lets -underBinder; intro x; first | (refine Kept.cut (s0 := s0) (s1 := x) ?_ (fun _ => ?_); on_goal 1 => unfold x) | skip))

theorem invalidateWhere_kept {s0 s : State} (n code : Nat) (p : Run → Bool) (h0 : Kept s0 s) :
    Kept s0 (invalidateWhere s n code p) := by
  unfold invalidateWhere
  repeat' (first
    | with_reducible assumption
    | with_reducible apply Kept.ite
    | with_reducible apply Kept.fstIte
    | with_reducible refine Kept.foldl ?_ (fun _ _ _ => ?_)
    | with_reducible apply invalidateRun_kept
    | (refine Kept.fst (by with_reducible assumption) ?_)
    | split
    | fail_if_no_progress (with_reducible refine Kept.lit rfl rfl ?_)
    | (lift_lets -underBinder; intro x; first | (refine Kept.cut (s0 := s0) (s1 := x) ?_ (fun _ => ?_); on_goal 1 => unfold x) | skip))

theorem recordFirst_kept {s0 s : State} (p : Page) (b sev : Nat) (multi : Bool) (h0 : Kept s0 s) :
    Kept s0 (recordFirst s p b sev multi) := by
  unfold recordFirst
  try lift_lets -underBinder
  repeat' (first
    | (intro x; first | (refine Kept.cut (s0 := s0) (s1 := x) ?_ (fun _ => ?_); on_goal 1 => unfold x) | skip)
    | with_reducible assumption
    | with_reducible apply Kept.ite
    | with_reducible apply Kept.fstIte
    | with_reducible refine Kept.foldl ?_ (fun _ _ _ => ?_)
    | with_reducible apply State.setHd_kept
    | (refine Kept.fst (by with_reducible assumption) ?_)
    | split
    | fail_if_no_progress (with_reducible refine Kept.lit rfl rfl ?_)
    | (lift_lets -underBinder; intro x; first | (refine Kept.cut (s0 := s0) (s1 := x) ?_ (fun _ => ?_); on_goal 1 => unfold x) | skip))

theorem mergeFirst_kept {s0 s : State} (p : Page) (b sev : Nat) (h0 : Kept s0 s) :
    Kept s0 (mergeFirst s p b sev) := by
  unfold mergeFirst
  try lift_lets -underBinder
  repeat' (first
    | (intro x; first | (refine Kept.cut (s0 := s0) (s1 := x) ?_ (fun _ => ?_); on_goal 1 => unfold x) | skip)
    | with_reducible assumption
    | with_reducible apply Kept.ite
    | with_reducible apply Kept.fstIte
    | with_reducible refine Kept.foldl ?_ (fun _ _ _ => ?_)
    | with_reducible apply State.setHd_kept
    | with_reducible apply recordFirst_kept
    | (refine Kept.fst (by with_reducible assumption) ?_)
    | split
    | fail_if_no_progress (with_reducible refine Kept.lit rfl rfl ?_)
    | (lift_lets -underBinder; intro x; first | (refine Kept.cut (s0 := s0) (s1 := x) ?_ (fun _ => ?_); on_goal 1 => unfold x) | skip))

theorem recordFault_kept {s0 s : State} (p : Page) (b : Nat) (injected : Bool) (h0 : Kept s0 s) :
    Kept s0 (recordFault s p b injected) := by
  unfold recordFault
  try lift_lets -underBinder
  repeat' (first
    | (intro x; first | (refine Kept.cut (s0 := s0) (s1 := x) ?_ (fun _ => ?_); on_goal 1 => unfold x) | skip)
    | with_reducible assumption
    | with_reducible apply Kept.ite
    | with_reducible apply Kept.fstIte
    | with_reducible refine Kept.foldl ?_ (fun _ _ _ => ?_)
    | with_reducible apply State.hwBits_kept
    | with_reducible apply State.logAdd_kept
    | with_reducible apply recordFirst_kept
    | with_reducible apply mergeFirst_kept
    | (refine Kept.fst (by with_reducible assumption) ?_)
    | split
    | fail_if_no_progress (with_reducible refine Kept.lit rfl rfl ?_)
    | (lift_lets -underBinder; intro x; first | (refine Kept.cut (s0 := s0) (s1 := x) ?_ (fun _ => ?_); on_goal 1 => unfold x) | skip))

theorem endJob_kept {s0 s : State} (i : Nat) (status detail : Nat) (h0 : Kept s0 s) :
    Kept s0 (endJob s i status detail) := by
  unfold endJob
  try lift_lets -underBinder
  repeat' (first
    | (intro x; first | (refine Kept.cut (s0 := s0) (s1 := x) ?_ (fun _ => ?_); on_goal 1 => unfold x) | skip)
    | with_reducible assumption
    | with_reducible apply Kept.ite
    | with_reducible apply Kept.fstIte
    | with_reducible refine Kept.foldl ?_ (fun _ _ _ => ?_)
    | with_reducible apply State.count_kept
    | with_reducible apply State.setJob_kept
    | (refine Kept.fst (by with_reducible assumption) ?_)
    | split
    | fail_if_no_progress (with_reducible refine Kept.lit rfl rfl ?_)
    | (lift_lets -underBinder; intro x; first | (refine Kept.cut (s0 := s0) (s1 := x) ?_ (fun _ => ?_); on_goal 1 => unfold x) | skip))

theorem jobLosesBay_kept {s0 s : State} (b i : Nat) (h0 : Kept s0 s) :
    Kept s0 (jobLosesBay s b i) := by
  unfold jobLosesBay
  try lift_lets -underBinder
  repeat' (first
    | (intro x; first | (refine Kept.cut (s0 := s0) (s1 := x) ?_ (fun _ => ?_); on_goal 1 => unfold x) | skip)
    | with_reducible assumption
    | with_reducible apply Kept.ite
    | with_reducible apply Kept.fstIte
    | with_reducible refine Kept.foldl ?_ (fun _ _ _ => ?_)
    | with_reducible apply State.countBy_kept
    | with_reducible apply State.event_kept
    | with_reducible apply State.setJob_kept
    | with_reducible apply endJob_kept
    | (refine Kept.fst (by with_reducible assumption) ?_)
    | split
    | fail_if_no_progress (with_reducible refine Kept.lit rfl rfl ?_)
    | (lift_lets -underBinder; intro x; first | (refine Kept.cut (s0 := s0) (s1 := x) ?_ (fun _ => ?_); on_goal 1 => unfold x) | skip))

theorem bayLost_kept {s0 s : State} (b : Nat) (h0 : Kept s0 s) :
    Kept s0 (bayLost s b) := by
  unfold bayLost
  try lift_lets -underBinder
  repeat' (first
    | (intro x; first | (refine Kept.cut (s0 := s0) (s1 := x) ?_ (fun _ => ?_); on_goal 1 => unfold x) | skip)
    | with_reducible assumption
    | with_reducible apply Kept.ite
    | with_reducible apply Kept.fstIte
    | with_reducible refine Kept.foldl ?_ (fun _ _ _ => ?_)
    | with_reducible apply endJob_kept
    | with_reducible apply jobLosesBay_kept
    | (refine Kept.fst (by with_reducible assumption) ?_)
    | split
    | fail_if_no_progress (with_reducible refine Kept.lit rfl rfl ?_)
    | (lift_lets -underBinder; intro x; first | (refine Kept.cut (s0 := s0) (s1 := x) ?_ (fun _ => ?_); on_goal 1 => unfold x) | skip))

theorem hapStop_kept {s0 s : State} (ch : Nat) (h0 : Kept s0 s) :
    Kept s0 (hapStop s ch) := by
  unfold hapStop
  try lift_lets -underBinder
  repeat' (first
    | (intro x; first | (refine Kept.cut (s0 := s0) (s1 := x) ?_ (fun _ => ?_); on_goal 1 => unfold x) | skip)
    | with_reducible assumption
    | with_reducible apply Kept.ite
    | with_reducible apply Kept.fstIte
    | with_reducible refine Kept.foldl ?_ (fun _ _ _ => ?_)
    | with_reducible apply State.setPr_kept
    | (refine Kept.fst (by with_reducible assumption) ?_)
    | split
    | fail_if_no_progress (with_reducible refine Kept.lit rfl rfl ?_)
    | (lift_lets -underBinder; intro x; first | (refine Kept.cut (s0 := s0) (s1 := x) ?_ (fun _ => ?_); on_goal 1 => unfold x) | skip))

theorem dropStage_kept {s0 s : State} (p : Page) (reject : Nat) (h0 : Kept s0 s) :
    Kept s0 (dropStage s p reject) := by
  unfold dropStage
  try lift_lets -underBinder
  repeat' (first
    | (intro x; first | (refine Kept.cut (s0 := s0) (s1 := x) ?_ (fun _ => ?_); on_goal 1 => unfold x) | skip)
    | with_reducible assumption
    | with_reducible apply Kept.ite
    | with_reducible apply Kept.fstIte
    | with_reducible refine Kept.foldl ?_ (fun _ _ _ => ?_)
    | with_reducible apply State.setHd_kept
    | with_reducible apply State.setPend_kept
    | (refine Kept.fst (by with_reducible assumption) ?_)
    | split
    | fail_if_no_progress (with_reducible refine Kept.lit rfl rfl ?_)
    | (lift_lets -underBinder; intro x; first | (refine Kept.cut (s0 := s0) (s1 := x) ?_ (fun _ => ?_); on_goal 1 => unfold x) | skip))

theorem safeStops_kept {s0 s : State} (h0 : Kept s0 s) :
    Kept s0 (safeStops s) := by
  unfold safeStops
  try lift_lets -underBinder
  repeat' (first
    | (intro x; first | (refine Kept.cut (s0 := s0) (s1 := x) ?_ (fun _ => ?_); on_goal 1 => unfold x) | skip)
    | with_reducible assumption
    | with_reducible apply Kept.ite
    | with_reducible apply Kept.fstIte
    | with_reducible refine Kept.foldl ?_ (fun _ _ _ => ?_)
    | with_reducible apply State.setPf_kept
    | with_reducible apply invalidateWhere_kept
    | with_reducible apply hapStop_kept
    | with_reducible apply dropStage_kept
    | (refine Kept.fst (by with_reducible assumption) ?_)
    | split
    | fail_if_no_progress (with_reducible refine Kept.lit rfl rfl ?_)
    | (lift_lets -underBinder; intro x; first | (refine Kept.cut (s0 := s0) (s1 := x) ?_ (fun _ => ?_); on_goal 1 => unfold x) | skip))

theorem holdHeartwood_kept {s0 s : State} (h0 : Kept s0 s) :
    Kept s0 (holdHeartwood s) := by
  unfold holdHeartwood
  repeat' (first
    | with_reducible assumption
    | with_reducible apply Kept.ite
    | with_reducible apply Kept.fstIte
    | with_reducible refine Kept.foldl ?_ (fun _ _ _ => ?_)
    | with_reducible apply State.setCore_kept
    | (refine Kept.fst (by with_reducible assumption) ?_)
    | split
    | fail_if_no_progress (with_reducible refine Kept.lit rfl rfl ?_)
    | (lift_lets -underBinder; intro x; first | (refine Kept.cut (s0 := s0) (s1 := x) ?_ (fun _ => ?_); on_goal 1 => unfold x) | skip))

theorem enterSafe_kept {s0 s : State} (hw : Bool) (p : Page) (b sev : Nat) (atFault : Bool) (h0 : Kept s0 s) :
    Kept s0 (enterSafe s hw p b sev atFault) := by
  unfold enterSafe
  try lift_lets -underBinder
  repeat' (first
    | (intro x; first | (refine Kept.cut (s0 := s0) (s1 := x) ?_ (fun _ => ?_); on_goal 1 => unfold x) | skip)
    | with_reducible assumption
    | with_reducible apply Kept.ite
    | with_reducible apply Kept.fstIte
    | with_reducible refine Kept.foldl ?_ (fun _ _ _ => ?_)
    | with_reducible apply State.setPr_kept
    | with_reducible apply setMode_kept
    | with_reducible apply safeStops_kept
    | with_reducible apply holdHeartwood_kept
    | (refine Kept.fst (by with_reducible assumption) ?_)
    | split
    | fail_if_no_progress (with_reducible refine Kept.lit rfl rfl ?_)
    | (lift_lets -underBinder; intro x; first | (refine Kept.cut (s0 := s0) (s1 := x) ?_ (fun _ => ?_); on_goal 1 => unfold x) | skip))

theorem raiseContained_kept {s0 s : State} (q : Page) (b : Nat) (injected : Bool) (h0 : Kept s0 s) :
    Kept s0 (raiseContained s q b injected) := by
  unfold raiseContained
  try lift_lets -underBinder
  repeat' (first
    | (intro x; first | (refine Kept.cut (s0 := s0) (s1 := x) ?_ (fun _ => ?_); on_goal 1 => unfold x) | skip)
    | with_reducible assumption
    | with_reducible apply Kept.ite
    | with_reducible apply Kept.fstIte
    | with_reducible refine Kept.foldl ?_ (fun _ _ _ => ?_)
    | with_reducible apply State.hwBits_kept
    | with_reducible apply recordFault_kept
    | with_reducible apply enterSafe_kept
    | (refine Kept.fst (by with_reducible assumption) ?_)
    | split
    | fail_if_no_progress (with_reducible refine Kept.lit rfl rfl ?_)
    | (lift_lets -underBinder; intro x; first | (refine Kept.cut (s0 := s0) (s1 := x) ?_ (fun _ => ?_); on_goal 1 => unfold x) | skip))

theorem abortCore_kept {s0 s : State} (c : Nat) (h0 : Kept s0 s) :
    Kept s0 (abortCore s c) := by
  unfold abortCore
  try lift_lets -underBinder
  repeat' (first
    | (intro x; first | (refine Kept.cut (s0 := s0) (s1 := x) ?_ (fun _ => ?_); on_goal 1 => unfold x) | skip)
    | with_reducible assumption
    | with_reducible apply Kept.ite
    | with_reducible apply Kept.fstIte
    | with_reducible refine Kept.foldl ?_ (fun _ _ _ => ?_)
    | with_reducible apply State.setCore_kept
    | with_reducible apply setWorld_kept
    | (refine Kept.fst (by with_reducible assumption) ?_)
    | split
    | fail_if_no_progress (with_reducible refine Kept.lit rfl rfl ?_)
    | (lift_lets -underBinder; intro x; first | (refine Kept.cut (s0 := s0) (s1 := x) ?_ (fun _ => ?_); on_goal 1 => unfold x) | skip))

theorem hwRestart_kept {s0 s : State} (cause : Nat) (h0 : Kept s0 s) :
    Kept s0 (hwRestart s cause) := by
  unfold hwRestart
  try lift_lets -underBinder
  repeat' (first
    | (intro x; first | (refine Kept.cut (s0 := s0) (s1 := x) ?_ (fun _ => ?_); on_goal 1 => unfold x) | skip)
    | with_reducible assumption
    | with_reducible apply Kept.ite
    | with_reducible apply Kept.fstIte
    | with_reducible refine Kept.foldl ?_ (fun _ _ _ => ?_)
    | with_reducible apply State.setPr_kept
    | with_reducible apply State.event_kept
    | with_reducible apply holdHeartwood_kept
    | with_reducible apply raiseContained_kept
    | with_reducible apply abortCore_kept
    | (refine Kept.fst (by with_reducible assumption) ?_)
    | split
    | fail_if_no_progress (with_reducible refine Kept.lit rfl rfl ?_)
    | (lift_lets -underBinder; intro x; first | (refine Kept.cut (s0 := s0) (s1 := x) ?_ (fun _ => ?_); on_goal 1 => unfold x) | skip))

theorem fenceCore_kept {s0 s : State} (c : Nat) (h0 : Kept s0 s) :
    Kept s0 (fenceCore s c) := by
  unfold fenceCore
  try lift_lets -underBinder
  repeat' (first
    | (intro x; first | (refine Kept.cut (s0 := s0) (s1 := x) ?_ (fun _ => ?_); on_goal 1 => unfold x) | skip)
    | with_reducible assumption
    | with_reducible apply Kept.ite
    | with_reducible apply Kept.fstIte
    | with_reducible refine Kept.foldl ?_ (fun _ _ _ => ?_)
    | with_reducible apply State.setPf_kept
    | with_reducible apply State.event_kept
    | with_reducible apply State.setCore_kept
    | with_reducible apply enterDegraded_kept
    | with_reducible apply enterSafe_kept
    | with_reducible apply hwRestart_kept
    | (refine Kept.fst (by with_reducible assumption) ?_)
    | split
    | fail_if_no_progress (with_reducible refine Kept.lit rfl rfl ?_)
    | (lift_lets -underBinder; intro x; first | (refine Kept.cut (s0 := s0) (s1 := x) ?_ (fun _ => ?_); on_goal 1 => unfold x) | skip))

theorem markFenced_kept {s0 s : State} (p : Page) (h0 : Kept s0 s) :
    Kept s0 (markFenced s p) := by
  unfold markFenced
  repeat' (first
    | with_reducible assumption
    | with_reducible apply Kept.ite
    | with_reducible apply Kept.fstIte
    | with_reducible refine Kept.foldl ?_ (fun _ _ _ => ?_)
    | with_reducible apply State.setHf_kept
    | with_reducible apply readyChange_kept
    | (refine Kept.fst (by with_reducible assumption) ?_)
    | split
    | fail_if_no_progress (with_reducible refine Kept.lit rfl rfl ?_)
    | (lift_lets -underBinder; intro x; first | (refine Kept.cut (s0 := s0) (s1 := x) ?_ (fun _ => ?_); on_goal 1 => unfold x) | skip))

theorem fenceBay_kept {s0 s : State} (b : Nat) (h0 : Kept s0 s) :
    Kept s0 (fenceBay s b) := by
  unfold fenceBay
  try lift_lets -underBinder
  repeat' (first
    | (intro x; first | (refine Kept.cut (s0 := s0) (s1 := x) ?_ (fun _ => ?_); on_goal 1 => unfold x) | skip)
    | with_reducible assumption
    | with_reducible apply Kept.ite
    | with_reducible apply Kept.fstIte
    | with_reducible refine Kept.foldl ?_ (fun _ _ _ => ?_)
    | with_reducible apply State.setPf_kept
    | with_reducible apply State.event_kept
    | with_reducible apply enterDegraded_kept
    | with_reducible apply bayLost_kept
    | with_reducible apply markFenced_kept
    | (refine Kept.fst (by with_reducible assumption) ?_)
    | split
    | fail_if_no_progress (with_reducible refine Kept.lit rfl rfl ?_)
    | (lift_lets -underBinder; intro x; first | (refine Kept.cut (s0 := s0) (s1 := x) ?_ (fun _ => ?_); on_goal 1 => unfold x) | skip))

theorem fenceUnit_kept {s0 s : State} (p : Page) (b : Nat) (h0 : Kept s0 s) :
    Kept s0 (fenceUnit s p b) := by
  unfold fenceUnit
  repeat' (first
    | with_reducible assumption
    | with_reducible apply Kept.ite
    | with_reducible apply Kept.fstIte
    | with_reducible refine Kept.foldl ?_ (fun _ _ _ => ?_)
    | with_reducible apply State.setHead_kept
    | with_reducible apply enterDegraded_kept
    | with_reducible apply hapStop_kept
    | with_reducible apply enterSafe_kept
    | with_reducible apply fenceCore_kept
    | with_reducible apply markFenced_kept
    | with_reducible apply fenceBay_kept
    | (refine Kept.fst (by with_reducible assumption) ?_)
    | split
    | fail_if_no_progress (with_reducible refine Kept.lit rfl rfl ?_)
    | (lift_lets -underBinder; intro x; first | (refine Kept.cut (s0 := s0) (s1 := x) ?_ (fun _ => ?_); on_goal 1 => unfold x) | skip))

theorem raiseFault_kept {s0 s : State} (q : Page) (b : Nat) (injected : Bool) (h0 : Kept s0 s) :
    Kept s0 (raiseFault s q b injected) := by
  unfold raiseFault
  try lift_lets -underBinder
  repeat' (first
    | (intro x; first | (refine Kept.cut (s0 := s0) (s1 := x) ?_ (fun _ => ?_); on_goal 1 => unfold x) | skip)
    | with_reducible assumption
    | with_reducible apply Kept.ite
    | with_reducible apply Kept.fstIte
    | with_reducible refine Kept.foldl ?_ (fun _ _ _ => ?_)
    | with_reducible apply State.hwBits_kept
    | with_reducible apply recordFault_kept
    | with_reducible apply enterSafe_kept
    | with_reducible apply fenceUnit_kept
    | (refine Kept.fst (by with_reducible assumption) ?_)
    | split
    | fail_if_no_progress (with_reducible refine Kept.lit rfl rfl ?_)
    | (lift_lets -underBinder; intro x; first | (refine Kept.cut (s0 := s0) (s1 := x) ?_ (fun _ => ?_); on_goal 1 => unfold x) | skip))

theorem relayUpdate_kept {s0 s : State} (h0 : Kept s0 s) :
    Kept s0 (relayUpdate s) := by
  unfold relayUpdate
  try lift_lets -underBinder
  repeat' (first
    | (intro x; first | (refine Kept.cut (s0 := s0) (s1 := x) ?_ (fun _ => ?_); on_goal 1 => unfold x) | skip)
    | with_reducible assumption
    | with_reducible apply Kept.ite
    | with_reducible apply Kept.fstIte
    | with_reducible refine Kept.foldl ?_ (fun _ _ _ => ?_)
    | (refine Kept.fst (by with_reducible assumption) ?_)
    | split
    | fail_if_no_progress (with_reducible refine Kept.lit rfl rfl ?_)
    | (lift_lets -underBinder; intro x; first | (refine Kept.cut (s0 := s0) (s1 := x) ?_ (fun _ => ?_); on_goal 1 => unfold x) | skip))

end Sys2Proof.Machine
end

