-- ==== Sys2Proof/Laws/KeptStage.lean ====
section
/-!
SUPPORT. Laws/KeptStage.lean: the operations of Machine/Stage.lean keep what `Kept` says.
-/
set_option linter.unusedTactic false
set_option linter.unreachableTactic false
set_option linter.unusedVariables false

namespace Sys2Proof.Machine

theorem commitResult_kept {s0 s : State} (p : Page) (seq reject : Nat) (pending : Bool) (h0 : Kept s0 s) :
    Kept s0 (commitResult s p seq reject pending) := by
  unfold commitResult
  try lift_lets -underBinder
  repeat' (first
    | (intro x; first | (refine Kept.cut (s0 := s0) (s1 := x) ?_ (fun _ => ?_); on_goal 1 => unfold x) | skip)
    | with_reducible assumption
    | with_reducible apply Kept.ite
    | with_reducible apply Kept.fstIte
    | with_reducible refine Kept.foldl ?_ (fun _ _ _ => ?_)
    | with_reducible apply State.setHd_kept
    | (refine Kept.fst (by with_reducible assumption) ?_)
    | split
    | fail_if_no_progress (with_reducible refine Kept.lit rfl rfl ?_)
    | (lift_lets -underBinder; intro x; first | (refine Kept.cut (s0 := s0) (s1 := x) ?_ (fun _ => ?_); on_goal 1 => unfold x) | skip))

theorem stageShadow_kept {s0 s : State} (p : Page) (m : Master) (seq cost : Nat) (h0 : Kept s0 s) :
    Kept s0 (stageShadow s p m seq cost) := by
  unfold stageShadow
  try lift_lets -underBinder
  repeat' (first
    | (intro x; first | (refine Kept.cut (s0 := s0) (s1 := x) ?_ (fun _ => ?_); on_goal 1 => unfold x) | skip)
    | with_reducible assumption
    | with_reducible apply Kept.ite
    | with_reducible apply Kept.fstIte
    | with_reducible refine Kept.foldl ?_ (fun _ _ _ => ?_)
    | with_reducible apply State.setHd_kept
    | with_reducible apply State.setPend_kept
    | with_reducible apply State.hwBits_kept
    | (refine Kept.fst (by with_reducible assumption) ?_)
    | split
    | fail_if_no_progress (with_reducible refine Kept.lit rfl rfl ?_)
    | (lift_lets -underBinder; intro x; first | (refine Kept.cut (s0 := s0) (s1 := x) ?_ (fun _ => ?_); on_goal 1 => unfold x) | skip))

theorem putShd_kept {s0 s : State} (mask : Nat) (e : Nat × Word) (h0 : Kept s0 s) :
    Kept s0 (putShd s mask e) := by
  unfold putShd
  repeat' (first
    | with_reducible assumption
    | with_reducible apply Kept.ite
    | with_reducible apply Kept.fstIte
    | with_reducible refine Kept.foldl ?_ (fun _ _ _ => ?_)
    | with_reducible apply State.setReg_kept
    | (refine Kept.fst (by with_reducible assumption) ?_)
    | split
    | fail_if_no_progress (with_reducible refine Kept.lit rfl rfl ?_)
    | (lift_lets -underBinder; intro x; first | (refine Kept.cut (s0 := s0) (s1 := x) ?_ (fun _ => ?_); on_goal 1 => unfold x) | skip))

theorem putStage_kept {s0 s : State} (p : Page) (h0 : Kept s0 s) :
    Kept s0 (putStage s p) := by
  unfold putStage
  try lift_lets -underBinder
  repeat' (first
    | (intro x; first | (refine Kept.cut (s0 := s0) (s1 := x) ?_ (fun _ => ?_); on_goal 1 => unfold x) | skip)
    | with_reducible assumption
    | with_reducible apply Kept.ite
    | with_reducible apply Kept.fstIte
    | with_reducible refine Kept.foldl ?_ (fun _ _ _ => ?_)
    | with_reducible apply State.setPend_kept
    | with_reducible apply commitResult_kept
    | with_reducible apply putShd_kept
    | (refine Kept.fst (by with_reducible assumption) ?_)
    | split
    | fail_if_no_progress (with_reducible refine Kept.lit rfl rfl ?_)
    | (lift_lets -underBinder; intro x; first | (refine Kept.cut (s0 := s0) (s1 := x) ?_ (fun _ => ?_); on_goal 1 => unfold x) | skip))

end Sys2Proof.Machine
end

