-- ==== Sys2Proof/Laws/KeptHeads.lean ====
section
/-!
SUPPORT. Laws/KeptHeads.lean: the operations of Machine/Heads.lean keep what `Kept` says.
-/
set_option linter.unusedTactic false
set_option linter.unreachableTactic false
set_option linter.unusedVariables false

namespace Sys2Proof.Machine

theorem setLink_kept {s0 s : State} (n : Nat) (hi lo v : Nat) (h0 : Kept s0 s) :
    Kept s0 (setLink s n hi lo v) := by
  unfold setLink
  repeat' (first
    | with_reducible assumption
    | with_reducible apply Kept.ite
    | with_reducible apply Kept.fstIte
    | with_reducible refine Kept.foldl ?_ (fun _ _ _ => ?_)
    | with_reducible apply State.setPf_kept
    | (refine Kept.fst (by with_reducible assumption) ?_)
    | split
    | fail_if_no_progress (with_reducible refine Kept.lit rfl rfl ?_)
    | (lift_lets -underBinder; intro x; first | (refine Kept.cut (s0 := s0) (s1 := x) ?_ (fun _ => ?_); on_goal 1 => unfold x) | skip))

theorem linkIdle_kept {s0 s : State} (n : Nat) (h0 : Kept s0 s) :
    Kept s0 (linkIdle s n) := by
  unfold linkIdle
  try lift_lets -underBinder
  repeat' (first
    | (intro x; first | (refine Kept.cut (s0 := s0) (s1 := x) ?_ (fun _ => ?_); on_goal 1 => unfold x) | skip)
    | with_reducible assumption
    | with_reducible apply Kept.ite
    | with_reducible apply Kept.fstIte
    | with_reducible refine Kept.foldl ?_ (fun _ _ _ => ?_)
    | with_reducible apply setLink_kept
    | (refine Kept.fst (by with_reducible assumption) ?_)
    | split
    | fail_if_no_progress (with_reducible refine Kept.lit rfl rfl ?_)
    | (lift_lets -underBinder; intro x; first | (refine Kept.cut (s0 := s0) (s1 := x) ?_ (fun _ => ?_); on_goal 1 => unfold x) | skip))

theorem trainFail_kept {s0 s : State} (n : Nat) (noCandidate : Bool) (h0 : Kept s0 s) :
    Kept s0 (trainFail s n noCandidate) := by
  unfold trainFail
  try lift_lets -underBinder
  repeat' (first
    | (intro x; first | (refine Kept.cut (s0 := s0) (s1 := x) ?_ (fun _ => ?_); on_goal 1 => unfold x) | skip)
    | with_reducible assumption
    | with_reducible apply Kept.ite
    | with_reducible apply Kept.fstIte
    | with_reducible refine Kept.foldl ?_ (fun _ _ _ => ?_)
    | with_reducible apply State.event_kept
    | with_reducible apply raiseFault_kept
    | with_reducible apply setLink_kept
    | with_reducible apply linkIdle_kept
    | (refine Kept.fst (by with_reducible assumption) ?_)
    | split
    | fail_if_no_progress (with_reducible refine Kept.lit rfl rfl ?_)
    | (lift_lets -underBinder; intro x; first | (refine Kept.cut (s0 := s0) (s1 := x) ?_ (fun _ => ?_); on_goal 1 => unfold x) | skip))

theorem startTraining_kept {s0 s : State} (n : Nat) (h0 : Kept s0 s) :
    Kept s0 (startTraining s n) := by
  unfold startTraining
  try lift_lets -underBinder
  repeat' (first
    | (intro x; first | (refine Kept.cut (s0 := s0) (s1 := x) ?_ (fun _ => ?_); on_goal 1 => unfold x) | clear_value x | skip)
    | with_reducible assumption
    | with_reducible apply Kept.ite
    | with_reducible apply Kept.fstIte
    | with_reducible refine Kept.foldl ?_ (fun _ _ _ => ?_)
    | with_reducible apply State.setHead_kept
    | with_reducible apply setLink_kept
    | with_reducible apply linkIdle_kept
    | with_reducible apply trainFail_kept
    | (refine Kept.fst (by with_reducible assumption) ?_)
    | split
    | fail_if_no_progress (with_reducible refine Kept.lit rfl rfl ?_)
    | (lift_lets -underBinder; intro x; first | (refine Kept.cut (s0 := s0) (s1 := x) ?_ (fun _ => ?_); on_goal 1 => unfold x) | clear_value x | skip))

theorem linkLoss_kept {s0 s : State} (n : Nat) (h0 : Kept s0 s) :
    Kept s0 (linkLoss s n) := by
  unfold linkLoss
  repeat' (first
    | with_reducible assumption
    | with_reducible apply Kept.ite
    | with_reducible apply Kept.fstIte
    | with_reducible refine Kept.foldl ?_ (fun _ _ _ => ?_)
    | with_reducible apply State.event_kept
    | with_reducible apply linkIdle_kept
    | (refine Kept.fst (by with_reducible assumption) ?_)
    | split
    | fail_if_no_progress (with_reducible refine Kept.lit rfl rfl ?_)
    | (lift_lets -underBinder; intro x; first | (refine Kept.cut (s0 := s0) (s1 := x) ?_ (fun _ => ?_); on_goal 1 => unfold x) | skip))

theorem auxEnd_kept {s0 s : State} (n : Nat) (result rx : Nat) (h0 : Kept s0 s) :
    Kept s0 (auxEnd s n result rx) := by
  unfold auxEnd
  try lift_lets -underBinder
  repeat' (first
    | (intro x; first | (refine Kept.cut (s0 := s0) (s1 := x) ?_ (fun _ => ?_); on_goal 1 => unfold x) | skip)
    | with_reducible assumption
    | with_reducible apply Kept.ite
    | with_reducible apply Kept.fstIte
    | with_reducible refine Kept.foldl ?_ (fun _ _ _ => ?_)
    | with_reducible apply State.setPr_kept
    | with_reducible apply State.event_kept
    | with_reducible apply State.setHead_kept
    | (refine Kept.fst (by with_reducible assumption) ?_)
    | split
    | fail_if_no_progress (with_reducible refine Kept.lit rfl rfl ?_)
    | (lift_lets -underBinder; intro x; first | (refine Kept.cut (s0 := s0) (s1 := x) ?_ (fun _ => ?_); on_goal 1 => unfold x) | skip))

theorem auxGoOp_kept {s0 s : State} (n : Nat) (cmd len : Nat) (h0 : Kept s0 s) :
    Kept s0 (auxGoOp s n cmd len) := by
  unfold auxGoOp
  try lift_lets -underBinder
  repeat' (first
    | (intro x; first | (refine Kept.cut (s0 := s0) (s1 := x) ?_ (fun _ => ?_); on_goal 1 => unfold x) | skip)
    | with_reducible assumption
    | with_reducible apply Kept.ite
    | with_reducible apply Kept.fstIte
    | with_reducible refine Kept.foldl ?_ (fun _ _ _ => ?_)
    | with_reducible apply State.setPr_kept
    | with_reducible apply State.setHead_kept
    | with_reducible apply auxEnd_kept
    | (refine Kept.fst (by with_reducible assumption) ?_)
    | split
    | fail_if_no_progress (with_reducible refine Kept.lit rfl rfl ?_)
    | (lift_lets -underBinder; intro x; first | (refine Kept.cut (s0 := s0) (s1 := x) ?_ (fun _ => ?_); on_goal 1 => unfold x) | skip))

theorem auxRetry_kept {s0 s : State} (n : Nat) (result : Nat) (h0 : Kept s0 s) :
    Kept s0 (auxRetry s n result) := by
  unfold auxRetry
  try lift_lets -underBinder
  repeat' (first
    | (intro x; first | (refine Kept.cut (s0 := s0) (s1 := x) ?_ (fun _ => ?_); on_goal 1 => unfold x) | skip)
    | with_reducible assumption
    | with_reducible apply Kept.ite
    | with_reducible apply Kept.fstIte
    | with_reducible refine Kept.foldl ?_ (fun _ _ _ => ?_)
    | with_reducible apply State.setPf_kept
    | with_reducible apply State.setHead_kept
    | with_reducible apply raiseFault_kept
    | with_reducible apply auxEnd_kept
    | (refine Kept.fst (by with_reducible assumption) ?_)
    | split
    | fail_if_no_progress (with_reducible refine Kept.lit rfl rfl ?_)
    | (lift_lets -underBinder; intro x; first | (refine Kept.cut (s0 := s0) (s1 := x) ?_ (fun _ => ?_); on_goal 1 => unfold x) | skip))

theorem auxTimedOut_kept {s0 s : State} (n : Nat) (h0 : Kept s0 s) :
    Kept s0 (auxTimedOut s n) := by
  unfold auxTimedOut
  repeat' (first
    | with_reducible assumption
    | with_reducible apply Kept.ite
    | with_reducible apply Kept.fstIte
    | with_reducible refine Kept.foldl ?_ (fun _ _ _ => ?_)
    | with_reducible apply auxRetry_kept
    | (refine Kept.fst (by with_reducible assumption) ?_)
    | split
    | fail_if_no_progress (with_reducible refine Kept.lit rfl rfl ?_)
    | (lift_lets -underBinder; intro x; first | (refine Kept.cut (s0 := s0) (s1 := x) ?_ (fun _ => ?_); on_goal 1 => unfold x) | skip))

end Sys2Proof.Machine
end

