-- ==== Sys2Proof/Laws/KeptAccess.lean ====
section
/-!
SUPPORT. Laws/KeptAccess.lean: the operations of Machine/Access.lean keep what `Kept` says.
-/
set_option linter.unusedTactic false
set_option linter.unreachableTactic false
set_option linter.unusedVariables false

namespace Sys2Proof.Machine

theorem passCycles_kept {s0 s : State} (n : Nat) (h0 : Kept s0 s) :
    Kept s0 (passCycles s n) := by
  unfold passCycles
  repeat' (first
    | with_reducible assumption
    | with_reducible apply Kept.ite
    | with_reducible apply Kept.fstIte
    | with_reducible refine Kept.foldl ?_ (fun _ _ _ => ?_)
    | with_reducible apply relayUpdate_kept
    | (refine Kept.fst (by with_reducible assumption) ?_)
    | split
    | fail_if_no_progress (with_reducible refine Kept.lit rfl rfl ?_)
    | (lift_lets -underBinder; intro x; first | (refine Kept.cut (s0 := s0) (s1 := x) ?_ (fun _ => ?_); on_goal 1 => unfold x) | skip))

theorem advance_kept {s0 s : State} (n : Nat) (h0 : Kept s0 s) :
    Kept s0 (advance s n) := by
  unfold advance
  repeat' (first
    | with_reducible assumption
    | with_reducible apply Kept.ite
    | with_reducible apply Kept.fstIte
    | with_reducible refine Kept.foldl ?_ (fun _ _ _ => ?_)
    | with_reducible apply passCycles_kept
    | (refine Kept.fst (by with_reducible assumption) ?_)
    | split
    | fail_if_no_progress (with_reducible refine Kept.lit rfl rfl ?_)
    | (lift_lets -underBinder; intro x; first | (refine Kept.cut (s0 := s0) (s1 := x) ?_ (fun _ => ?_); on_goal 1 => unfold x) | skip))

theorem beginAccess_kept {s0 s : State} (m : Master) (h0 : Kept s0 s) :
    Kept s0 (beginAccess s m) := by
  unfold beginAccess
  try lift_lets -underBinder
  repeat' (first
    | (intro x; first | (refine Kept.cut (s0 := s0) (s1 := x) ?_ (fun _ => ?_); on_goal 1 => unfold x) | skip)
    | with_reducible assumption
    | with_reducible apply Kept.ite
    | with_reducible apply Kept.fstIte
    | with_reducible refine Kept.foldl ?_ (fun _ _ _ => ?_)
    | with_reducible apply passCycles_kept
    | (refine Kept.fst (by with_reducible assumption) ?_)
    | split
    | fail_if_no_progress (with_reducible refine Kept.lit rfl rfl ?_)
    | (lift_lets -underBinder; intro x; first | (refine Kept.cut (s0 := s0) (s1 := x) ?_ (fun _ => ?_); on_goal 1 => unfold x) | skip))

theorem State.noteWrite_kept {s0 s : State} (a : Nat) (h0 : Kept s0 s) :
    Kept s0 (State.noteWrite s a) := by
  unfold State.noteWrite
  repeat' (first
    | with_reducible assumption
    | with_reducible apply Kept.ite
    | with_reducible apply Kept.fstIte
    | with_reducible refine Kept.foldl ?_ (fun _ _ _ => ?_)
    | (refine Kept.fst (by with_reducible assumption) ?_)
    | split
    | fail_if_no_progress (with_reducible refine Kept.lit rfl rfl ?_)
    | (lift_lets -underBinder; intro x; first | (refine Kept.cut (s0 := s0) (s1 := x) ?_ (fun _ => ?_); on_goal 1 => unfold x) | skip))

theorem State.notePrev_kept {s0 s : State} (a : Nat) (h0 : Kept s0 s) :
    Kept s0 (State.notePrev s a) := by
  unfold State.notePrev
  repeat' (first
    | with_reducible assumption
    | with_reducible apply Kept.ite
    | with_reducible apply Kept.fstIte
    | with_reducible refine Kept.foldl ?_ (fun _ _ _ => ?_)
    | (refine Kept.fst (by with_reducible assumption) ?_)
    | split
    | fail_if_no_progress (with_reducible refine Kept.lit rfl rfl ?_)
    | (lift_lets -underBinder; intro x; first | (refine Kept.cut (s0 := s0) (s1 := x) ?_ (fun _ => ?_); on_goal 1 => unfold x) | skip))

theorem ampStatic_kept {s0 s : State} (p : Nat) (h0 : Kept s0 s) :
    Kept s0 (ampStatic s p) := by
  unfold ampStatic
  try lift_lets -underBinder
  repeat' (first
    | (intro x; first | (refine Kept.cut (s0 := s0) (s1 := x) ?_ (fun _ => ?_); on_goal 1 => unfold x) | skip)
    | with_reducible assumption
    | with_reducible apply Kept.ite
    | with_reducible apply Kept.fstIte
    | with_reducible refine Kept.foldl ?_ (fun _ _ _ => ?_)
    | with_reducible apply State.setPf_kept
    | (refine Kept.fst (by with_reducible assumption) ?_)
    | split
    | fail_if_no_progress (with_reducible refine Kept.lit rfl rfl ?_)
    | (lift_lets -underBinder; intro x; first | (refine Kept.cut (s0 := s0) (s1 := x) ?_ (fun _ => ?_); on_goal 1 => unfold x) | skip))

theorem landEffect_kept {s0 s : State} (p : Page) (o : Nat) (old : Word) (h0 : Kept s0 s) :
    Kept s0 (landEffect s p o old) := by
  unfold landEffect
  try lift_lets -underBinder
  repeat' (first
    | (intro x; first | (refine Kept.cut (s0 := s0) (s1 := x) ?_ (fun _ => ?_); on_goal 1 => unfold x) | skip)
    | with_reducible assumption
    | with_reducible apply Kept.ite
    | with_reducible apply Kept.fstIte
    | with_reducible refine Kept.foldl ?_ (fun _ _ _ => ?_)
    | with_reducible apply State.setPf_kept
    | with_reducible apply ampStatic_kept
    | (refine Kept.fst (by with_reducible assumption) ?_)
    | split
    | fail_if_no_progress (with_reducible refine Kept.lit rfl rfl ?_)
    | (lift_lets -underBinder; intro x; first | (refine Kept.cut (s0 := s0) (s1 := x) ?_ (fun _ => ?_); on_goal 1 => unfold x) | skip))

theorem landWrite_kept {s0 s : State} (c : Crossing) (h0 : Kept s0 s) :
    Kept s0 (landWrite s c) := by
  unfold landWrite
  try lift_lets -underBinder
  repeat' (first
    | (intro x; first | (refine Kept.cut (s0 := s0) (s1 := x) ?_ (fun _ => ?_); on_goal 1 => unfold x) | skip)
    | with_reducible assumption
    | with_reducible apply Kept.ite
    | with_reducible apply Kept.fstIte
    | with_reducible refine Kept.foldl ?_ (fun _ _ _ => ?_)
    | with_reducible apply State.setReg_kept
    | with_reducible apply State.notePrev_kept
    | with_reducible apply landEffect_kept
    | (refine Kept.fst (by with_reducible assumption) ?_)
    | split
    | fail_if_no_progress (with_reducible refine Kept.lit rfl rfl ?_)
    | (lift_lets -underBinder; intro x; first | (refine Kept.cut (s0 := s0) (s1 := x) ?_ (fun _ => ?_); on_goal 1 => unfold x) | skip))

theorem landWhere_kept {s0 s : State} (t : Crossing → Bool) (h0 : Kept s0 s) :
    Kept s0 (landWhere s t) := by
  unfold landWhere
  repeat' (first
    | with_reducible assumption
    | with_reducible apply Kept.ite
    | with_reducible apply Kept.fstIte
    | with_reducible refine Kept.foldl ?_ (fun _ _ _ => ?_)
    | with_reducible apply landWrite_kept
    | (refine Kept.fst (by with_reducible assumption) ?_)
    | split
    | fail_if_no_progress (with_reducible refine Kept.lit rfl rfl ?_)
    | (lift_lets -underBinder; intro x; first | (refine Kept.cut (s0 := s0) (s1 := x) ?_ (fun _ => ?_); on_goal 1 => unfold x) | skip))

theorem flushPage_kept {s0 s : State} (p : Page) (h0 : Kept s0 s) :
    Kept s0 (flushPage s p) := by
  unfold flushPage
  repeat' (first
    | with_reducible assumption
    | with_reducible apply Kept.ite
    | with_reducible apply Kept.fstIte
    | with_reducible refine Kept.foldl ?_ (fun _ _ _ => ?_)
    | with_reducible apply landWhere_kept
    | (refine Kept.fst (by with_reducible assumption) ?_)
    | split
    | fail_if_no_progress (with_reducible refine Kept.lit rfl rfl ?_)
    | (lift_lets -underBinder; intro x; first | (refine Kept.cut (s0 := s0) (s1 := x) ?_ (fun _ => ?_); on_goal 1 => unfold x) | skip))

theorem flushAll_kept {s0 s : State} (h0 : Kept s0 s) :
    Kept s0 (flushAll s) := by
  unfold flushAll
  repeat' (first
    | with_reducible assumption
    | with_reducible apply Kept.ite
    | with_reducible apply Kept.fstIte
    | with_reducible refine Kept.foldl ?_ (fun _ _ _ => ?_)
    | with_reducible apply landWhere_kept
    | (refine Kept.fst (by with_reducible assumption) ?_)
    | split
    | fail_if_no_progress (with_reducible refine Kept.lit rfl rfl ?_)
    | (lift_lets -underBinder; intro x; first | (refine Kept.cut (s0 := s0) (s1 := x) ?_ (fun _ => ?_); on_goal 1 => unfold x) | skip))

theorem recordRefusal_kept {s0 s : State} (m : Master) (a shown : Nat) (r : Page × Cause × Bool) (h0 : Kept s0 s) :
    Kept s0 (recordRefusal s m a shown r) := by
  unfold recordRefusal
  repeat' (first
    | with_reducible assumption
    | with_reducible apply Kept.ite
    | with_reducible apply Kept.fstIte
    | with_reducible refine Kept.foldl ?_ (fun _ _ _ => ?_)
    | with_reducible apply State.refuse_kept
    | (refine Kept.fst (by with_reducible assumption) ?_)
    | split
    | fail_if_no_progress (with_reducible refine Kept.lit rfl rfl ?_)
    | (lift_lets -underBinder; intro x; first | (refine Kept.cut (s0 := s0) (s1 := x) ?_ (fun _ => ?_); on_goal 1 => unfold x) | skip))

theorem gated_kept {s0 s : State} (m : Master) (a : Nat) (op : State → State)
    (hop : ∀ t, Kept s0 t → Kept s0 (op t)) (h : Kept s0 s) : Kept s0 (gated s m a op) := by
  unfold gated
  split
  · exact h
  · lift_lets
    intro s1
    have h1 : Kept s0 s1 := beginAccess_kept m h
    split
    · exact recordRefusal_kept _ _ _ _ h1
    · exact hop _ (flushPage_kept _ h1)

theorem writeReg_kept {s0 s : State} (m : Master) (a : Nat) (check : State → Option Cause) (op : State → State)
    (hop : ∀ t, Kept s0 t → Kept s0 (op t)) (h : Kept s0 s) : Kept s0 (writeReg s m a check op) := by
  refine gated_kept m a _ (fun t ht => ?_) h
  split
  · exact State.refuse_kept _ _ _ _ _ ht
  · exact State.noteWrite_kept _ (hop _ ht)

end Sys2Proof.Machine
end

