-- ==== Sys2Proof/Laws/KeptMemory.lean ====
section
/-!
SUPPORT. Laws/KeptMemory.lean: the operations of Machine/Memory.lean keep what `Kept` says.
-/
set_option linter.unusedTactic false
set_option linter.unreachableTactic false
set_option linter.unusedVariables false

namespace Sys2Proof.Machine

theorem memSet_kept {s0 s : State} (a v : Nat) (h : Kept s0 s) : Kept s0 (memSet s a v) :=
  ⟨h.pending, fun x => awf_aset (fun _ => (0 : BitVec 8)) _ a _ (h.mem x), h.log⟩

theorem setBad_kept {s0 s : State} (a : Nat) (b : Bool) (h0 : Kept s0 s) :
    Kept s0 (setBad s a b) := by
  unfold setBad
  try lift_lets -underBinder
  repeat' (first
    | (intro x; first | (refine Kept.cut (s0 := s0) (s1 := x) ?_ (fun _ => ?_); on_goal 1 => unfold x) | skip)
    | with_reducible assumption
    | with_reducible apply Kept.ite
    | with_reducible apply Kept.fstIte
    | with_reducible refine Kept.foldl ?_ (fun _ _ _ => ?_)
    | (refine Kept.fst (by with_reducible assumption) ?_)
    | split
    | fail_if_no_progress (with_reducible refine Kept.lit rfl rfl ?_)
    | (lift_lets -underBinder; intro x; first | (refine Kept.cut (s0 := s0) (s1 := x) ?_ (fun _ => ?_); on_goal 1 => unfold x) | skip))

theorem memPut_kept {s0 s : State} (a : Nat) (bytes : List (Option Nat)) (h0 : Kept s0 s) :
    Kept s0 (memPut s a bytes) := by
  unfold memPut
  repeat' (first
    | with_reducible assumption
    | with_reducible apply Kept.ite
    | with_reducible apply Kept.fstIte
    | with_reducible refine Kept.foldl ?_ (fun _ _ _ => ?_)
    | with_reducible apply memSet_kept
    | with_reducible apply setBad_kept
    | (refine Kept.fst (by with_reducible assumption) ?_)
    | split
    | fail_if_no_progress (with_reducible refine Kept.lit rfl rfl ?_)
    | (lift_lets -underBinder; intro x; first | (refine Kept.cut (s0 := s0) (s1 := x) ?_ (fun _ => ?_); on_goal 1 => unfold x) | skip))

theorem putCode_kept {s0 s : State} (page : Nat) (c : List Nat) (h0 : Kept s0 s) :
    Kept s0 (putCode s page c) := by
  unfold putCode
  repeat' (first
    | with_reducible assumption
    | with_reducible apply Kept.ite
    | with_reducible apply Kept.fstIte
    | with_reducible refine Kept.foldl ?_ (fun _ _ _ => ?_)
    | (refine Kept.fst (by with_reducible assumption) ?_)
    | split
    | fail_if_no_progress (with_reducible refine Kept.lit rfl rfl ?_)
    | (lift_lets -underBinder; intro x; first | (refine Kept.cut (s0 := s0) (s1 := x) ?_ (fun _ => ?_); on_goal 1 => unfold x) | skip))

theorem applyFixes_kept {s0 s : State} (fx : List (Nat × Nat)) (h0 : Kept s0 s) :
    Kept s0 (applyFixes s fx) := by
  unfold applyFixes
  repeat' (first
    | with_reducible assumption
    | with_reducible apply Kept.ite
    | with_reducible apply Kept.fstIte
    | with_reducible refine Kept.foldl ?_ (fun _ _ _ => ?_)
    | with_reducible apply memSet_kept
    | with_reducible apply setBad_kept
    | (refine Kept.fst (by with_reducible assumption) ?_)
    | split
    | fail_if_no_progress (with_reducible refine Kept.lit rfl rfl ?_)
    | (lift_lets -underBinder; intro x; first | (refine Kept.cut (s0 := s0) (s1 := x) ?_ (fun _ => ?_); on_goal 1 => unfold x) | skip))

theorem errInfo_kept {s0 s : State} (agent : Nat) (sec write : Bool) (type chan a : Nat) (h0 : Kept s0 s) :
    Kept s0 (errInfo s agent sec write type chan a) := by
  unfold errInfo
  try lift_lets -underBinder
  repeat' (first
    | (intro x; first | (refine Kept.cut (s0 := s0) (s1 := x) ?_ (fun _ => ?_); on_goal 1 => unfold x) | skip)
    | with_reducible assumption
    | with_reducible apply Kept.ite
    | with_reducible apply Kept.fstIte
    | with_reducible refine Kept.foldl ?_ (fun _ _ _ => ?_)
    | with_reducible apply State.setPr_kept
    | with_reducible apply State.setPair_kept
    | (refine Kept.fst (by with_reducible assumption) ?_)
    | split
    | fail_if_no_progress (with_reducible refine Kept.lit rfl rfl ?_)
    | (lift_lets -underBinder; intro x; first | (refine Kept.cut (s0 := s0) (s1 := x) ?_ (fun _ => ?_); on_goal 1 => unfold x) | skip))

theorem memError_kept {s0 s : State} (agent : Nat) (sec write : Bool) (type a : Nat) (h0 : Kept s0 s) :
    Kept s0 (memError s agent sec write type a) := by
  unfold memError
  try lift_lets -underBinder
  repeat' (first
    | (intro x; first | (refine Kept.cut (s0 := s0) (s1 := x) ?_ (fun _ => ?_); on_goal 1 => unfold x) | skip)
    | with_reducible assumption
    | with_reducible apply Kept.ite
    | with_reducible apply Kept.fstIte
    | with_reducible refine Kept.foldl ?_ (fun _ _ _ => ?_)
    | with_reducible apply State.count_kept
    | with_reducible apply State.event_kept
    | with_reducible apply State.logLimited_kept
    | with_reducible apply raiseFault_kept
    | with_reducible apply errInfo_kept
    | (refine Kept.fst (by with_reducible assumption) ?_)
    | split
    | fail_if_no_progress (with_reducible refine Kept.lit rfl rfl ?_)
    | (lift_lets -underBinder; intro x; first | (refine Kept.cut (s0 := s0) (s1 := x) ?_ (fun _ => ?_); on_goal 1 => unfold x) | skip))

theorem memCorrected_kept {s0 s : State} (a : Nat) (h0 : Kept s0 s) :
    Kept s0 (memCorrected s a) := by
  unfold memCorrected
  try lift_lets -underBinder
  repeat' (first
    | (intro x; first | (refine Kept.cut (s0 := s0) (s1 := x) ?_ (fun _ => ?_); on_goal 1 => unfold x) | skip)
    | with_reducible assumption
    | with_reducible apply Kept.ite
    | with_reducible apply Kept.fstIte
    | with_reducible refine Kept.foldl ?_ (fun _ _ _ => ?_)
    | with_reducible apply State.count_kept
    | with_reducible apply raiseFault_kept
    | (refine Kept.fst (by with_reducible assumption) ?_)
    | split
    | fail_if_no_progress (with_reducible refine Kept.lit rfl rfl ?_)
    | (lift_lets -underBinder; intro x; first | (refine Kept.cut (s0 := s0) (s1 := x) ?_ (fun _ => ?_); on_goal 1 => unfold x) | skip))

theorem watermarkBlock_kept {s0 s : State} (agent : Nat) (write : Bool) (a : Nat) (h0 : Kept s0 s) :
    Kept s0 (watermarkBlock s agent write a) := by
  unfold watermarkBlock
  try lift_lets -underBinder
  repeat' (first
    | (intro x; first | (refine Kept.cut (s0 := s0) (s1 := x) ?_ (fun _ => ?_); on_goal 1 => unfold x) | skip)
    | with_reducible assumption
    | with_reducible apply Kept.ite
    | with_reducible apply Kept.fstIte
    | with_reducible refine Kept.foldl ?_ (fun _ _ _ => ?_)
    | with_reducible apply State.setPr_kept
    | with_reducible apply State.setPair_kept
    | with_reducible apply State.event_kept
    | with_reducible apply State.logLimited_kept
    | with_reducible apply raiseFault_kept
    | (refine Kept.fst (by with_reducible assumption) ?_)
    | split
    | fail_if_no_progress (with_reducible refine Kept.lit rfl rfl ?_)
    | (lift_lets -underBinder; intro x; first | (refine Kept.cut (s0 := s0) (s1 := x) ?_ (fun _ => ?_); on_goal 1 => unfold x) | skip))

theorem leaveSelfRefresh_kept {s0 s : State} (c : Nat) (h0 : Kept s0 s) :
    Kept s0 (leaveSelfRefresh s c) := by
  unfold leaveSelfRefresh
  repeat' (first
    | with_reducible assumption
    | with_reducible apply Kept.ite
    | with_reducible apply Kept.fstIte
    | with_reducible refine Kept.foldl ?_ (fun _ _ _ => ?_)
    | with_reducible apply State.setPf_kept
    | with_reducible apply State.event_kept
    | (refine Kept.fst (by with_reducible assumption) ?_)
    | split
    | fail_if_no_progress (with_reducible refine Kept.lit rfl rfl ?_)
    | (lift_lets -underBinder; intro x; first | (refine Kept.cut (s0 := s0) (s1 := x) ?_ (fun _ => ?_); on_goal 1 => unfold x) | skip))

theorem channelRequest_kept {s0 s : State} (a : Nat) (h0 : Kept s0 s) :
    Kept s0 (channelRequest s a) := by
  unfold channelRequest
  try lift_lets -underBinder
  repeat' (first
    | (intro x; first | (refine Kept.cut (s0 := s0) (s1 := x) ?_ (fun _ => ?_); on_goal 1 => unfold x) | skip)
    | with_reducible assumption
    | with_reducible apply Kept.ite
    | with_reducible apply Kept.fstIte
    | with_reducible refine Kept.foldl ?_ (fun _ _ _ => ?_)
    | with_reducible apply leaveSelfRefresh_kept
    | (refine Kept.fst (by with_reducible assumption) ?_)
    | split
    | fail_if_no_progress (with_reducible refine Kept.lit rfl rfl ?_)
    | (lift_lets -underBinder; intro x; first | (refine Kept.cut (s0 := s0) (s1 := x) ?_ (fun _ => ?_); on_goal 1 => unfold x) | skip))

theorem ptMirrorStart_kept {s0 s : State} (h0 : Kept s0 s) :
    Kept s0 (ptMirrorStart s) := by
  unfold ptMirrorStart
  repeat' (first
    | with_reducible assumption
    | with_reducible apply Kept.ite
    | with_reducible apply Kept.fstIte
    | with_reducible refine Kept.foldl ?_ (fun _ _ _ => ?_)
    | with_reducible apply State.setPf_kept
    | (refine Kept.fst (by with_reducible assumption) ?_)
    | split
    | fail_if_no_progress (with_reducible refine Kept.lit rfl rfl ?_)
    | (lift_lets -underBinder; intro x; first | (refine Kept.cut (s0 := s0) (s1 := x) ?_ (fun _ => ?_); on_goal 1 => unfold x) | skip))

theorem staleWindow_kept {s0 s : State} (since : Nat) (h0 : Kept s0 s) :
    Kept s0 (staleWindow s since) := by
  unfold staleWindow
  try lift_lets -underBinder
  repeat' (first
    | (intro x; first | (refine Kept.cut (s0 := s0) (s1 := x) ?_ (fun _ => ?_); on_goal 1 => unfold x) | skip)
    | with_reducible assumption
    | with_reducible apply Kept.ite
    | with_reducible apply Kept.fstIte
    | with_reducible refine Kept.foldl ?_ (fun _ _ _ => ?_)
    | with_reducible apply State.setPair_kept
    | (refine Kept.fst (by with_reducible assumption) ?_)
    | split
    | fail_if_no_progress (with_reducible refine Kept.lit rfl rfl ?_)
    | (lift_lets -underBinder; intro x; first | (refine Kept.cut (s0 := s0) (s1 := x) ?_ (fun _ => ?_); on_goal 1 => unfold x) | skip))

theorem recodeHead_kept {s0 s : State} (h0 : Kept s0 s) :
    Kept s0 (recodeHead s) := by
  unfold recodeHead
  try lift_lets -underBinder
  repeat' (first
    | (intro x; first | (refine Kept.cut (s0 := s0) (s1 := x) ?_ (fun _ => ?_); on_goal 1 => unfold x) | skip)
    | with_reducible assumption
    | with_reducible apply Kept.ite
    | with_reducible apply Kept.fstIte
    | with_reducible refine Kept.foldl ?_ (fun _ _ _ => ?_)
    | with_reducible apply State.event_kept
    | with_reducible apply State.logLimited_kept
    | with_reducible apply raiseFault_kept
    | with_reducible apply putCode_kept
    | with_reducible apply errInfo_kept
    | with_reducible apply staleWindow_kept
    | (refine Kept.fst (by with_reducible assumption) ?_)
    | split
    | fail_if_no_progress (with_reducible refine Kept.lit rfl rfl ?_)
    | (lift_lets -underBinder; intro x; first | (refine Kept.cut (s0 := s0) (s1 := x) ?_ (fun _ => ?_); on_goal 1 => unfold x) | skip))

theorem recodePush_kept {s0 s : State} (page : Nat) (h0 : Kept s0 s) :
    Kept s0 (recodePush s page) := by
  unfold recodePush
  try lift_lets -underBinder
  repeat' (first
    | (intro x; first | (refine Kept.cut (s0 := s0) (s1 := x) ?_ (fun _ => ?_); on_goal 1 => unfold x) | skip)
    | with_reducible assumption
    | with_reducible apply Kept.ite
    | with_reducible apply Kept.fstIte
    | with_reducible refine Kept.foldl ?_ (fun _ _ _ => ?_)
    | with_reducible apply recodeHead_kept
    | (refine Kept.fst (by with_reducible assumption) ?_)
    | split
    | fail_if_no_progress (with_reducible refine Kept.lit rfl rfl ?_)
    | (lift_lets -underBinder; intro x; first | (refine Kept.cut (s0 := s0) (s1 := x) ?_ (fun _ => ?_); on_goal 1 => unfold x) | skip))

theorem recodeEnter_kept {s0 s : State} (page : Nat) (h0 : Kept s0 s) :
    Kept s0 (recodeEnter s page) := by
  unfold recodeEnter
  repeat' (first
    | with_reducible assumption
    | with_reducible apply Kept.ite
    | with_reducible apply Kept.fstIte
    | with_reducible refine Kept.foldl ?_ (fun _ _ _ => ?_)
    | with_reducible apply recodePush_kept
    | (refine Kept.fst (by with_reducible assumption) ?_)
    | split
    | fail_if_no_progress (with_reducible refine Kept.lit rfl rfl ?_)
    | (lift_lets -underBinder; intro x; first | (refine Kept.cut (s0 := s0) (s1 := x) ?_ (fun _ => ?_); on_goal 1 => unfold x) | skip))

theorem fireInject_kept {s0 s : State} (p : Page) (h0 : Kept s0 s) :
    Kept s0 (fireInject s p) := by
  unfold fireInject
  try lift_lets -underBinder
  repeat' (first
    | (intro x; first | (refine Kept.cut (s0 := s0) (s1 := x) ?_ (fun _ => ?_); on_goal 1 => unfold x) | skip)
    | with_reducible assumption
    | with_reducible apply Kept.ite
    | with_reducible apply Kept.fstIte
    | with_reducible refine Kept.foldl ?_ (fun _ _ _ => ?_)
    | with_reducible apply State.setHd_kept
    | with_reducible apply State.logAdd_kept
    | (refine Kept.fst (by with_reducible assumption) ?_)
    | split
    | fail_if_no_progress (with_reducible refine Kept.lit rfl rfl ?_)
    | (lift_lets -underBinder; intro x; first | (refine Kept.cut (s0 := s0) (s1 := x) ?_ (fun _ => ?_); on_goal 1 => unfold x) | skip))

theorem storeLine_kept {s0 s : State} (line : Nat) (bytes : List (Option Nat)) (h0 : Kept s0 s) :
    Kept s0 (storeLine s line bytes) := by
  unfold storeLine
  try lift_lets -underBinder
  repeat' (first
    | (intro x; first | (refine Kept.cut (s0 := s0) (s1 := x) ?_ (fun _ => ?_); on_goal 1 => unfold x) | skip)
    | with_reducible assumption
    | with_reducible apply Kept.ite
    | with_reducible apply Kept.fstIte
    | with_reducible refine Kept.foldl ?_ (fun _ _ _ => ?_)
    | with_reducible apply memPut_kept
    | with_reducible apply putCode_kept
    | with_reducible apply recodeEnter_kept
    | (refine Kept.fst (by with_reducible assumption) ?_)
    | split
    | fail_if_no_progress (with_reducible refine Kept.lit rfl rfl ?_)
    | (lift_lets -underBinder; intro x; first | (refine Kept.cut (s0 := s0) (s1 := x) ?_ (fun _ => ?_); on_goal 1 => unfold x) | skip))

theorem flipLine_kept {s0 s : State} (line : Nat) (bytes : List (Option Nat)) (h0 : Kept s0 s) :
    Kept s0 (flipLine s line bytes) := by
  unfold flipLine
  try lift_lets -underBinder
  repeat' (first
    | (intro x; first | (refine Kept.cut (s0 := s0) (s1 := x) ?_ (fun _ => ?_); on_goal 1 => unfold x) | skip)
    | with_reducible assumption
    | with_reducible apply Kept.ite
    | with_reducible apply Kept.fstIte
    | with_reducible refine Kept.foldl ?_ (fun _ _ _ => ?_)
    | with_reducible apply memSet_kept
    | with_reducible apply setBad_kept
    | with_reducible apply fireInject_kept
    | (refine Kept.fst (by with_reducible assumption) ?_)
    | split
    | fail_if_no_progress (with_reducible refine Kept.lit rfl rfl ?_)
    | (lift_lets -underBinder; intro x; first | (refine Kept.cut (s0 := s0) (s1 := x) ?_ (fun _ => ?_); on_goal 1 => unfold x) | skip))

theorem writeLine_kept {s0 s : State} (agent : Nat) (sec : Bool) (line : Nat) (bytes : List (Option Nat)) (h0 : Kept s0 s) :
    Kept s0 (writeLine s agent sec line bytes).1 := by
  unfold writeLine
  try lift_lets -underBinder
  repeat' (first
    | (intro x; first | (refine Kept.cut (s0 := s0) (s1 := x) ?_ (fun _ => ?_); on_goal 1 => unfold x) | skip)
    | with_reducible assumption
    | with_reducible apply Kept.ite
    | with_reducible apply Kept.fstIte
    | with_reducible refine Kept.foldl ?_ (fun _ _ _ => ?_)
    | with_reducible apply cvuWrite_kept
    | with_reducible apply memPut_kept
    | with_reducible apply memError_kept
    | with_reducible apply watermarkBlock_kept
    | with_reducible apply channelRequest_kept
    | with_reducible apply storeLine_kept
    | with_reducible apply flipLine_kept
    | (refine Kept.fst (by with_reducible assumption) ?_)
    | split
    | fail_if_no_progress (with_reducible refine Kept.lit rfl rfl ?_)
    | (lift_lets -underBinder; intro x; first | (refine Kept.cut (s0 := s0) (s1 := x) ?_ (fun _ => ?_); on_goal 1 => unfold x) | skip))

theorem soundLine_kept {s0 s : State} (line : Nat) (h0 : Kept s0 s) : Kept s0 (soundLine s line).1 := by
  unfold soundLine
  extract_lets page ws
  split
  · exact h0
  split
  · exact h0
  split
  · split
    · exact Kept.mkFst <| memCorrected_kept _ (applyFixes_kept _ h0)
    · exact h0
  · exact h0

theorem mirrorTakes_kept {s0 : State} (line : Nat) (r : State × Except Nat (List Nat)) (h0 : Kept s0 r.1) :
    Kept s0 (mirrorTakes line r).1 := by
  unfold mirrorTakes
  split
  · exact Kept.mkFst <| raiseFault_kept _ _ _ (memCorrected_kept _ (recodeEnter_kept _ (memPut_kept _ _ h0)))
  · exact h0

theorem readMirror_kept {s0 s : State} (line : Nat) (h0 : Kept s0 s) : Kept s0 (readMirror s line).1 := by
  unfold readMirror
  exact mirrorTakes_kept _ _ (soundLine_kept _ (channelRequest_kept _ h0))

theorem mirrorGives_kept {s0 : State} (agent : Nat) (sec : Bool) (line : Nat) (r : State × Option (List Nat))
    (h0 : Kept s0 r.1) : Kept s0 (mirrorGives agent sec line r).1 := by
  unfold mirrorGives
  split
  · exact h0
  · exact Kept.mkFst <| memError_kept _ _ _ _ _ h0

theorem primaryGives_kept {s0 : State} (agent : Nat) (sec : Bool) (line : Nat) (fallback : Bool)
    (r : State × Except Nat (List Nat)) (h0 : Kept s0 r.1) : Kept s0 (primaryGives agent sec line fallback r).1 := by
  unfold primaryGives
  split
  · exact h0
  · split
    · exact Kept.mkFst <| memError_kept _ _ _ _ _ h0
    · exact mirrorGives_kept _ _ _ _ (readMirror_kept _ h0)

theorem readPrimary_kept {s0 s : State} (agent : Nat) (sec : Bool) (line : Nat) (fallback : Bool) (h0 : Kept s0 s) :
    Kept s0 (readPrimary s agent sec line fallback).1 := by
  unfold readPrimary
  exact primaryGives_kept _ _ _ _ _ (soundLine_kept _ (channelRequest_kept _ h0))

theorem readLine_kept {s0 s : State} (agent : Nat) (sec : Bool) (line : Nat) (h0 : Kept s0 s) :
    Kept s0 (readLine s agent sec line).1 := by
  unfold readLine
  try lift_lets -underBinder
  repeat' (first
    | (intro x; first | (refine Kept.cut (s0 := s0) (s1 := x) ?_ (fun _ => ?_); on_goal 1 => unfold x) | skip)
    | with_reducible assumption
    | with_reducible apply Kept.ite
    | with_reducible apply Kept.fstIte
    | with_reducible refine Kept.foldl ?_ (fun _ _ _ => ?_)
    | with_reducible apply raiseFault_kept
    | with_reducible apply memError_kept
    | with_reducible apply watermarkBlock_kept
    | with_reducible apply readMirror_kept
    | with_reducible apply readPrimary_kept
    | (refine Kept.fst (by with_reducible assumption) ?_)
    | split
    | fail_if_no_progress (with_reducible refine Kept.lit rfl rfl ?_)
    | (lift_lets -underBinder; intro x; first | (refine Kept.cut (s0 := s0) (s1 := x) ?_ (fun _ => ?_); on_goal 1 => unfold x) | skip))

theorem readLines_kept {s0 s : State} (agent : Nat) (sec : Bool) (ls : List Nat) (h0 : Kept s0 s) :
    Kept s0 (readLines s agent sec ls).1 := by
  induction ls generalizing s with
  | nil => exact h0
  | cons l r ih =>
    unfold readLines
    have h1 := readLine_kept agent sec l h0
    split
    · exact Kept.fst (by assumption) h1
    · have h2 := ih (Kept.fst (by assumption) h1)
      split
      · exact Kept.fst (by assumption) h2
      · exact Kept.fst (by assumption) h2

theorem busRead_kept {s0 s : State} (agent : Nat) (sec : Bool) (a len : Nat) (h0 : Kept s0 s) :
    Kept s0 (busRead s agent sec a len).1 := by
  unfold busRead
  repeat' (first
    | with_reducible assumption
    | with_reducible apply Kept.ite
    | with_reducible apply Kept.fstIte
    | with_reducible refine Kept.foldl ?_ (fun _ _ _ => ?_)
    | with_reducible apply readLines_kept
    | (refine Kept.fst (by with_reducible assumption) ?_)
    | split
    | fail_if_no_progress (with_reducible refine Kept.lit rfl rfl ?_)
    | (lift_lets -underBinder; intro x; first | (refine Kept.cut (s0 := s0) (s1 := x) ?_ (fun _ => ?_); on_goal 1 => unfold x) | skip))

theorem busWriteMasked_kept {s0 s : State} (agent : Nat) (sec : Bool) (a : Nat) (bytes : List (Option Nat))
    (h0 : Kept s0 s) : Kept s0 (busWriteMasked s agent sec a bytes).1 := by
  unfold busWriteMasked
  generalize linesOf a bytes.length = ls
  suffices ∀ r : State × Except AccErr Unit, Kept s0 r.1 → Kept s0 (ls.foldl (fun (r : State × Except AccErr Unit) l =>
      let (s, e) := writeLine r.1 agent sec l (linePart a bytes l)
      (s, match r.2, e with
        | .ok _, some x => .error x
        | old, _ => old)) r).1 from this (s, .ok ()) h0
  induction ls with
  | nil => exact fun r h => h
  | cons l ls ih => exact fun r h => ih _ (writeLine_kept _ _ _ _ h)

theorem busWrite_kept {s0 s : State} (agent : Nat) (sec : Bool) (a : Nat) (bytes : List Nat) (h0 : Kept s0 s) :
    Kept s0 (busWrite s agent sec a bytes).1 := by
  unfold busWrite
  repeat' (first
    | with_reducible assumption
    | with_reducible apply Kept.ite
    | with_reducible apply Kept.fstIte
    | with_reducible refine Kept.foldl ?_ (fun _ _ _ => ?_)
    | with_reducible apply busWriteMasked_kept
    | (refine Kept.fst (by with_reducible assumption) ?_)
    | split
    | fail_if_no_progress (with_reducible refine Kept.lit rfl rfl ?_)
    | (lift_lets -underBinder; intro x; first | (refine Kept.cut (s0 := s0) (s1 := x) ?_ (fun _ => ?_); on_goal 1 => unfold x) | skip))

end Sys2Proof.Machine
end

