-- ==== Sys2Proof/Laws/KeptXlate.lean ====
section
/-!
SUPPORT. Laws/KeptXlate.lean: the operations of Machine/Xlate.lean keep what `Kept` says.
-/
set_option linter.unusedTactic false
set_option linter.unreachableTactic false
set_option linter.unusedVariables false

namespace Sys2Proof.Machine

theorem xlateFault_kept {s0 s : State} (q : XReq) (cause stage addr : Nat) (h0 : Kept s0 s) :
    Kept s0 (xlateFault s q cause stage addr) := by
  unfold xlateFault
  try lift_lets -underBinder
  repeat' (first
    | (intro x; first | (refine Kept.cut (s0 := s0) (s1 := x) ?_ (fun _ => ?_); on_goal 1 => unfold x) | skip)
    | with_reducible assumption
    | with_reducible apply Kept.ite
    | with_reducible apply Kept.fstIte
    | with_reducible refine Kept.foldl ?_ (fun _ _ _ => ?_)
    | with_reducible apply State.setPr_kept
    | with_reducible apply State.setPair_kept
    | with_reducible apply State.count_kept
    | with_reducible apply State.event_kept
    | with_reducible apply State.logLimited_kept
    | (refine Kept.fst (by with_reducible assumption) ?_)
    | split
    | fail_if_no_progress (with_reducible refine Kept.lit rfl rfl ?_)
    | (lift_lets -underBinder; intro x; first | (refine Kept.cut (s0 := s0) (s1 := x) ?_ (fun _ => ?_); on_goal 1 => unfold x) | skip))

theorem s2Walk_kept {s0 s : State} (q : XReq) (ip n tab : Nat) (h0 : Kept s0 s) : Kept s0 (s2Walk s q ip n tab).1 := by
  induction n generalizing s tab with
  | zero => unfold s2Walk; exact h0
  | succ k ih =>
    unfold s2Walk
    extract_lets level
    split
    · exact h0
    · have h1 := busRead_kept q.agent q.sec (tab + 8 * tabIndex level ip) 8 h0
      generalize busRead s q.agent q.sec (tab + 8 * tabIndex level ip) 8 = r at h1 ⊢
      obtain ⟨t, b⟩ := r
      cases b with
      | error _ => exact h1
      | ok b =>
        dsimp only at h1 ⊢
        split
        · exact h1
        split
        · exact h1
        split
        · exact h1
        · exact ih _ h1

theorem stage2_kept {s0 s : State} (q : XReq) (ip : Nat) (h0 : Kept s0 s) : Kept s0 (stage2 s q ip).1 := by
  have found : ∀ (t : State) (e : S2Ent), Kept s0 t → Kept s0 (match leafCause t q e with
      | some c => (xlateFault t q c 1 ip, Except.error ())
      | none => (t, Except.ok (⟨e.out + (ip - e.ip), e.host, e.ns⟩ : XOut)) : State × Except Unit XOut).1 := by
    intro t e h
    split
    · exact Kept.mkFst <| xlateFault_kept _ _ _ _ h
    · exact h
  unfold stage2
  split
  · exact Kept.fstIte (Kept.mkFst <| xlateFault_kept _ _ _ _ h0) h0
  · dsimp only
    split
    · exact found _ _ h0
    · split
      · exact Kept.mkFst <| xlateFault_kept _ _ _ _ h0
      · have h1 := s2Walk_kept q ip 4 (4096 * bits (s.pair (.func q.func) Reg.FUNC_S2_ROOT_LO) 47 12)
          (State.count_kept .xlate Reg.XLATE_WALKS h0)
        generalize s2Walk (s.count .xlate Reg.XLATE_WALKS) q ip 4
          (4096 * bits (s.pair (.func q.func) Reg.FUNC_S2_ROOT_LO) 47 12) = r at h1 ⊢
        obtain ⟨t, e⟩ := r
        cases e with
        | error c => exact Kept.mkFst <| xlateFault_kept _ _ _ _ h1
        | ok e => exact found _ _ (Kept.lit rfl rfl h1)

theorem s1Walk_kept {s0 s : State} (q : XReq) (root va n tab : Nat) (via : List Nat) (h0 : Kept s0 s) :
    Kept s0 (s1Walk s q root va n tab via).1 := by
  induction n generalizing s tab via with
  | zero => unfold s1Walk; exact Kept.mkFst <| xlateFault_kept _ _ _ _ h0
  | succ k ih =>
    unfold s1Walk
    dsimp only
    have h1 := stage2_kept { q with write := false } (tab + 8 * tabIndex (3 - k) va) h0
    generalize stage2 s { q with write := false } (tab + 8 * tabIndex (3 - k) va) = r at h1 ⊢
    obtain ⟨t, o⟩ := r
    cases o with
    | error _ => exact h1
    | ok o =>
      dsimp only at h1 ⊢
      have h3 : Kept s0 (if o.host = true then
          let (v, s) := t.draw
          (s, Except.ok (leBytes 8 v))
        else busRead t q.agent q.sec o.addr 8 : State × Except AccErr (List Nat)).1 :=
        Kept.fstIte (State.draw_kept h1) (busRead_kept _ _ _ _ h1)
      generalize (if o.host = true then _ else _ : State × Except AccErr (List Nat)) = r at h3 ⊢
      obtain ⟨u, b⟩ := r
      cases b with
      | error _ => exact Kept.mkFst <| xlateFault_kept _ _ _ _ h3
      | ok b =>
        dsimp only at h3 ⊢
        split
        · exact Kept.mkFst <| xlateFault_kept _ _ _ _ h3
        split
        · exact Kept.mkFst <| xlateFault_kept _ _ _ _ h3
        split
        · exact h3
        · exact ih _ _ (Kept.lit rfl rfl h3)

theorem stage1_kept {s0 s : State} (q : XReq) (root va : Nat) (h0 : Kept s0 s) :
    Kept s0 (stage1 s q root va).1 := by
  unfold stage1
  try lift_lets -underBinder
  repeat' (first
    | (intro x; first | (refine Kept.cut (s0 := s0) (s1 := x) ?_ (fun _ => ?_); on_goal 1 => unfold x) | skip)
    | with_reducible assumption
    | with_reducible apply Kept.ite
    | with_reducible apply Kept.fstIte
    | with_reducible refine Kept.foldl ?_ (fun _ _ _ => ?_)
    | with_reducible apply State.count_kept
    | with_reducible apply xlateFault_kept
    | with_reducible apply stage2_kept
    | with_reducible apply s1Walk_kept
    | (refine Kept.fst (by with_reducible assumption) ?_)
    | split
    | fail_if_no_progress (with_reducible refine Kept.lit rfl rfl ?_)
    | (lift_lets -underBinder; intro x; first | (refine Kept.cut (s0 := s0) (s1 := x) ?_ (fun _ => ?_); on_goal 1 => unfold x) | skip))

theorem hostBytes_kept {s0 s : State} (len : Nat) (h0 : Kept s0 s) :
    Kept s0 (hostBytes s len).1 := by
  unfold hostBytes
  repeat' (first
    | with_reducible assumption
    | with_reducible apply Kept.ite
    | with_reducible apply Kept.fstIte
    | with_reducible refine Kept.foldl ?_ (fun _ _ _ => ?_)
    | (refine Kept.fst (by with_reducible assumption) ?_)
    | split
    | fail_if_no_progress (with_reducible refine Kept.lit rfl rfl ?_)
    | (lift_lets -underBinder; intro x; first | (refine Kept.cut (s0 := s0) (s1 := x) ?_ (fun _ => ?_); on_goal 1 => unfold x) | skip))

theorem readVia_kept {s0 s : State} (tr : State → Nat → State × Except Unit XOut) (agent : Nat) (sec : Bool)
    (l : List (Nat × Nat)) (htr : ∀ t a, Kept s0 t → Kept s0 (tr t a).1) (h0 : Kept s0 s) :
    Kept s0 (readVia tr agent sec l s).1 := by
  induction l generalizing s
  case nil => exact h0
  rename_i e r ih
  unfold readVia
  try lift_lets -underBinder
  repeat' (first
    | (intro x; first | (refine Kept.cut (s0 := s0) (s1 := x) ?_ (fun _ => ?_); on_goal 1 => unfold x) | skip)
    | with_reducible assumption
    | with_reducible apply Kept.ite
    | with_reducible apply Kept.fstIte
    | with_reducible refine Kept.foldl ?_ (fun _ _ _ => ?_)
    | with_reducible apply ih
    | with_reducible apply htr
    | with_reducible apply busRead_kept
    | with_reducible apply hostBytes_kept
    | (refine Kept.fst (by with_reducible assumption) ?_)
    | split
    | fail_if_no_progress (with_reducible refine Kept.lit rfl rfl ?_)
    | (lift_lets -underBinder; intro x; first | (refine Kept.cut (s0 := s0) (s1 := x) ?_ (fun _ => ?_); on_goal 1 => unfold x) | skip))

theorem State.send_kept {s0 s : State} (o : Outbound) (h0 : Kept s0 s) :
    Kept s0 (State.send s o) := by
  unfold State.send
  repeat' (first
    | with_reducible assumption
    | with_reducible apply Kept.ite
    | with_reducible apply Kept.fstIte
    | with_reducible refine Kept.foldl ?_ (fun _ _ _ => ?_)
    | (refine Kept.fst (by with_reducible assumption) ?_)
    | split
    | fail_if_no_progress (with_reducible refine Kept.lit rfl rfl ?_)
    | (lift_lets -underBinder; intro x; first | (refine Kept.cut (s0 := s0) (s1 := x) ?_ (fun _ => ?_); on_goal 1 => unfold x) | skip))

theorem writeVia_kept {s0 s : State} (tr : State → Nat → State × Except Unit XOut) (agent : Nat) (sec : Bool)
    (port base : Nat) (bytes : List (Option Nat)) (l : List (Nat × Nat))
    (htr : ∀ t a, Kept s0 t → Kept s0 (tr t a).1) (h0 : Kept s0 s) :
    Kept s0 (writeVia tr agent sec port base bytes l s).1 := by
  induction l generalizing s
  case nil => exact h0
  rename_i e r ih
  unfold writeVia
  try lift_lets -underBinder
  repeat' (first
    | (intro x; first | (refine Kept.cut (s0 := s0) (s1 := x) ?_ (fun _ => ?_); on_goal 1 => unfold x) | skip)
    | with_reducible assumption
    | with_reducible apply Kept.ite
    | with_reducible apply Kept.fstIte
    | with_reducible refine Kept.foldl ?_ (fun _ _ _ => ?_)
    | with_reducible apply ih
    | with_reducible apply htr
    | with_reducible apply busWriteMasked_kept
    | with_reducible apply State.send_kept
    | (refine Kept.fst (by with_reducible assumption) ?_)
    | split
    | fail_if_no_progress (with_reducible refine Kept.lit rfl rfl ?_)
    | (lift_lets -underBinder; intro x; first | (refine Kept.cut (s0 := s0) (s1 := x) ?_ (fun _ => ?_); on_goal 1 => unfold x) | skip))

theorem funcRead_kept {s0 s : State} (q : XReq) (a len : Nat) (h0 : Kept s0 s) :
    Kept s0 (funcRead s q a len).1 := by
  unfold funcRead
  repeat' (first
    | with_reducible assumption
    | with_reducible apply Kept.ite
    | with_reducible apply Kept.fstIte
    | with_reducible refine Kept.foldl ?_ (fun _ _ _ => ?_)
    | with_reducible apply stage2_kept
    | with_reducible refine readVia_kept _ _ _ _ (fun _ _ _ => ?_) ?_
    | (refine Kept.fst (by with_reducible assumption) ?_)
    | split
    | fail_if_no_progress (with_reducible refine Kept.lit rfl rfl ?_)
    | (lift_lets -underBinder; intro x; first | (refine Kept.cut (s0 := s0) (s1 := x) ?_ (fun _ => ?_); on_goal 1 => unfold x) | skip))

theorem funcWrite_kept {s0 s : State} (q : XReq) (a : Nat) (bytes : List Nat) (h0 : Kept s0 s) :
    Kept s0 (funcWrite s q a bytes).1 := by
  unfold funcWrite
  repeat' (first
    | with_reducible assumption
    | with_reducible apply Kept.ite
    | with_reducible apply Kept.fstIte
    | with_reducible refine Kept.foldl ?_ (fun _ _ _ => ?_)
    | with_reducible apply stage2_kept
    | with_reducible refine writeVia_kept _ _ _ _ _ _ _ (fun _ _ _ => ?_) ?_
    | (refine Kept.fst (by with_reducible assumption) ?_)
    | split
    | fail_if_no_progress (with_reducible refine Kept.lit rfl rfl ?_)
    | (lift_lets -underBinder; intro x; first | (refine Kept.cut (s0 := s0) (s1 := x) ?_ (fun _ => ?_); on_goal 1 => unfold x) | skip))

theorem ownerRead_kept {s0 s : State} (code agent : Nat) (sec : Bool) (a len : Nat) (h0 : Kept s0 s) :
    Kept s0 (ownerRead s code agent sec a len).1 := by
  unfold ownerRead
  repeat' (first
    | with_reducible assumption
    | with_reducible apply Kept.ite
    | with_reducible apply Kept.fstIte
    | with_reducible refine Kept.foldl ?_ (fun _ _ _ => ?_)
    | with_reducible apply busRead_kept
    | with_reducible apply funcRead_kept
    | (refine Kept.fst (by with_reducible assumption) ?_)
    | split
    | fail_if_no_progress (with_reducible refine Kept.lit rfl rfl ?_)
    | (lift_lets -underBinder; intro x; first | (refine Kept.cut (s0 := s0) (s1 := x) ?_ (fun _ => ?_); on_goal 1 => unfold x) | skip))

theorem ownerSignal_kept {s0 s : State} (code agent : Nat) (sec : Bool) (a value : Nat) (h0 : Kept s0 s) :
    Kept s0 (ownerSignal s code agent sec a value).1 := by
  unfold ownerSignal
  repeat' (first
    | with_reducible assumption
    | with_reducible apply Kept.ite
    | with_reducible apply Kept.fstIte
    | with_reducible refine Kept.foldl ?_ (fun _ _ _ => ?_)
    | with_reducible apply busWrite_kept
    | with_reducible apply funcWrite_kept
    | (refine Kept.fst (by with_reducible assumption) ?_)
    | split
    | fail_if_no_progress (with_reducible refine Kept.lit rfl rfl ?_)
    | (lift_lets -underBinder; intro x; first | (refine Kept.cut (s0 := s0) (s1 := x) ?_ (fun _ => ?_); on_goal 1 => unfold x) | skip))

theorem ringRead_kept {s0 s : State} (rs : Nat) (sec : Bool) (source a len : Nat) (h0 : Kept s0 s) :
    Kept s0 (ringRead s rs sec source a len).1 := by
  unfold ringRead
  repeat' (first
    | with_reducible assumption
    | with_reducible apply Kept.ite
    | with_reducible apply Kept.fstIte
    | with_reducible refine Kept.foldl ?_ (fun _ _ _ => ?_)
    | with_reducible apply busRead_kept
    | with_reducible apply funcRead_kept
    | (refine Kept.fst (by with_reducible assumption) ?_)
    | split
    | fail_if_no_progress (with_reducible refine Kept.lit rfl rfl ?_)
    | (lift_lets -underBinder; intro x; first | (refine Kept.cut (s0 := s0) (s1 := x) ?_ (fun _ => ?_); on_goal 1 => unfold x) | skip))

theorem jobRead_kept {s0 s : State} (rs ctx root agent : Nat) (sec : Bool) (source : Nat) (noHost : Bool) (a len : Nat) (h0 : Kept s0 s) :
    Kept s0 (jobRead s rs ctx root agent sec source noHost a len).1 := by
  unfold jobRead
  repeat' (first
    | with_reducible assumption
    | with_reducible apply Kept.ite
    | with_reducible apply Kept.fstIte
    | with_reducible refine Kept.foldl ?_ (fun _ _ _ => ?_)
    | with_reducible apply busRead_kept
    | with_reducible apply stage1_kept
    | with_reducible refine readVia_kept _ _ _ _ (fun _ _ _ => ?_) ?_
    | (refine Kept.fst (by with_reducible assumption) ?_)
    | split
    | fail_if_no_progress (with_reducible refine Kept.lit rfl rfl ?_)
    | (lift_lets -underBinder; intro x; first | (refine Kept.cut (s0 := s0) (s1 := x) ?_ (fun _ => ?_); on_goal 1 => unfold x) | skip))

theorem jobWrite_kept {s0 s : State} (rs ctx root agent : Nat) (sec : Bool) (source : Nat) (noHost : Bool) (a : Nat) (bytes : List (Option Nat)) (h0 : Kept s0 s) :
    Kept s0 (jobWrite s rs ctx root agent sec source noHost a bytes).1 := by
  unfold jobWrite
  repeat' (first
    | with_reducible assumption
    | with_reducible apply Kept.ite
    | with_reducible apply Kept.fstIte
    | with_reducible refine Kept.foldl ?_ (fun _ _ _ => ?_)
    | with_reducible apply busWriteMasked_kept
    | with_reducible apply stage1_kept
    | with_reducible refine writeVia_kept _ _ _ _ _ _ _ (fun _ _ _ => ?_) ?_
    | (refine Kept.fst (by with_reducible assumption) ?_)
    | split
    | fail_if_no_progress (with_reducible refine Kept.lit rfl rfl ?_)
    | (lift_lets -underBinder; intro x; first | (refine Kept.cut (s0 := s0) (s1 := x) ?_ (fun _ => ?_); on_goal 1 => unfold x) | skip))

theorem dropS1_kept {s0 s : State} (func : Nat) (p : Nat → Nat → Nat → Bool) (h0 : Kept s0 s) :
    Kept s0 (dropS1 s func p) := by
  unfold dropS1
  repeat' (first
    | with_reducible assumption
    | with_reducible apply Kept.ite
    | with_reducible apply Kept.fstIte
    | with_reducible refine Kept.foldl ?_ (fun _ _ _ => ?_)
    | (refine Kept.fst (by with_reducible assumption) ?_)
    | split
    | fail_if_no_progress (with_reducible refine Kept.lit rfl rfl ?_)
    | (lift_lets -underBinder; intro x; first | (refine Kept.cut (s0 := s0) (s1 := x) ?_ (fun _ => ?_); on_goal 1 => unfold x) | skip))

theorem dropS2_kept {s0 s : State} (func lo hi : Nat) (h0 : Kept s0 s) :
    Kept s0 (dropS2 s func lo hi) := by
  unfold dropS2
  try lift_lets -underBinder
  repeat' (first
    | (intro x; first | (refine Kept.cut (s0 := s0) (s1 := x) ?_ (fun _ => ?_); on_goal 1 => unfold x) | skip)
    | with_reducible assumption
    | with_reducible apply Kept.ite
    | with_reducible apply Kept.fstIte
    | with_reducible refine Kept.foldl ?_ (fun _ _ _ => ?_)
    | (refine Kept.fst (by with_reducible assumption) ?_)
    | split
    | fail_if_no_progress (with_reducible refine Kept.lit rfl rfl ?_)
    | (lift_lets -underBinder; intro x; first | (refine Kept.cut (s0 := s0) (s1 := x) ?_ (fun _ => ?_); on_goal 1 => unfold x) | skip))

end Sys2Proof.Machine
end

