-- ==== Sys2Proof/Laws/KeptKerf.lean ====
section
/-!
SUPPORT. Laws/KeptKerf.lean: the operations of Machine/Kerf.lean keep what `Kept` says.
-/
set_option linter.unusedTactic false
set_option linter.unreachableTactic false
set_option linter.unusedVariables false

namespace Sys2Proof.Machine

theorem kerfError_kept {s0 s : State} (src code cause addr : Nat) (h0 : Kept s0 s) :
    Kept s0 (kerfError s src code cause addr) := by
  unfold kerfError
  try lift_lets -underBinder
  repeat' (first
    | (intro x; first | (refine Kept.cut (s0 := s0) (s1 := x) ?_ (fun _ => ?_); on_goal 1 => unfold x) | skip)
    | with_reducible assumption
    | with_reducible apply Kept.ite
    | with_reducible apply Kept.fstIte
    | with_reducible refine Kept.foldl ?_ (fun _ _ _ => ?_)
    | with_reducible apply State.setPr_kept
    | with_reducible apply State.setPair_kept
    | with_reducible apply State.count_kept
    | with_reducible apply State.event_kept
    | with_reducible apply raiseFault_kept
    | (refine Kept.fst (by with_reducible assumption) ?_)
    | split
    | fail_if_no_progress (with_reducible refine Kept.lit rfl rfl ?_)
    | (lift_lets -underBinder; intro x; first | (refine Kept.cut (s0 := s0) (s1 := x) ?_ (fun _ => ?_); on_goal 1 => unfold x) | skip))

theorem kerfReadBlock_kept {s0 s : State} (rd : Reader) (f : KerfSurf) (bx by_ : Nat) (hrd : ∀ t a n, Kept s0 t → Kept s0 (rd t a n).1)(h0 : Kept s0 s) :
    Kept s0 (kerfReadBlock s rd f bx by_).1 := by
  unfold kerfReadBlock
  try lift_lets -underBinder
  repeat' (first
    | (intro x; first | (refine Kept.cut (s0 := s0) (s1 := x) ?_ (fun _ => ?_); on_goal 1 => unfold x) | skip)
    | with_reducible assumption
    | with_reducible apply Kept.ite
    | with_reducible apply Kept.fstIte
    | with_reducible refine Kept.foldl ?_ (fun _ _ _ => ?_)
    | with_reducible apply hrd
    | with_reducible apply kerfError_kept
    | (refine Kept.fst (by with_reducible assumption) ?_)
    | split
    | fail_if_no_progress (with_reducible refine Kept.lit rfl rfl ?_)
    | (lift_lets -underBinder; intro x; first | (refine Kept.cut (s0 := s0) (s1 := x) ?_ (fun _ => ?_); on_goal 1 => unfold x) | skip))

theorem kerfReadBlocks_kept {s0 s : State} (rd : Reader) (f : KerfSurf) (by_ : Nat) (l : List Nat)
    (hrd : ∀ t a n, Kept s0 t → Kept s0 (rd t a n).1) (h0 : Kept s0 s) :
    Kept s0 (kerfReadBlocks rd f by_ l s).1 := by
  induction l generalizing s
  case nil => exact h0
  rename_i e r ih
  unfold kerfReadBlocks
  repeat' (first
    | with_reducible assumption
    | with_reducible apply Kept.ite
    | with_reducible apply Kept.fstIte
    | with_reducible refine Kept.foldl ?_ (fun _ _ _ => ?_)
    | with_reducible apply ih
    | with_reducible apply hrd
    | with_reducible refine kerfReadBlock_kept _ _ _ _ (fun _ _ _ _ => ?_) ?_
    | (refine Kept.fst (by with_reducible assumption) ?_)
    | split
    | fail_if_no_progress (with_reducible refine Kept.lit rfl rfl ?_)
    | (lift_lets -underBinder; intro x; first | (refine Kept.cut (s0 := s0) (s1 := x) ?_ (fun _ => ?_); on_goal 1 => unfold x) | skip))

theorem kerfRow_kept {s0 s : State} (rd : Reader) (f : KerfSurf) (y x w : Nat) (hrd : ∀ t a n, Kept s0 t → Kept s0 (rd t a n).1)(h0 : Kept s0 s) :
    Kept s0 (kerfRow s rd f y x w).1 := by
  unfold kerfRow
  try lift_lets -underBinder
  repeat' (first
    | (intro x; first | (refine Kept.cut (s0 := s0) (s1 := x) ?_ (fun _ => ?_); on_goal 1 => unfold x) | skip)
    | with_reducible assumption
    | with_reducible apply Kept.ite
    | with_reducible apply Kept.fstIte
    | with_reducible refine Kept.foldl ?_ (fun _ _ _ => ?_)
    | with_reducible apply hrd
    | with_reducible refine kerfReadBlocks_kept _ _ _ _ (fun _ _ _ _ => ?_) ?_
    | (refine Kept.fst (by with_reducible assumption) ?_)
    | split
    | fail_if_no_progress (with_reducible refine Kept.lit rfl rfl ?_)
    | (lift_lets -underBinder; intro x; first | (refine Kept.cut (s0 := s0) (s1 := x) ?_ (fun _ => ?_); on_goal 1 => unfold x) | skip))

theorem statCount_kept {s0 s : State} (o n : Nat) (h0 : Kept s0 s) :
    Kept s0 (statCount s o n) := by
  unfold statCount
  try lift_lets -underBinder
  repeat' (first
    | (intro x; first | (refine Kept.cut (s0 := s0) (s1 := x) ?_ (fun _ => ?_); on_goal 1 => unfold x) | skip)
    | with_reducible assumption
    | with_reducible apply Kept.ite
    | with_reducible apply Kept.fstIte
    | with_reducible refine Kept.foldl ?_ (fun _ _ _ => ?_)
    | with_reducible apply State.setPr_kept
    | with_reducible apply State.event_kept
    | (refine Kept.fst (by with_reducible assumption) ?_)
    | split
    | fail_if_no_progress (with_reducible refine Kept.lit rfl rfl ?_)
    | (lift_lets -underBinder; intro x; first | (refine Kept.cut (s0 := s0) (s1 := x) ?_ (fun _ => ?_); on_goal 1 => unfold x) | skip))

theorem kerfCount_kept {s0 s : State} (k : KerfKind) (id code : Nat) (h0 : Kept s0 s) :
    Kept s0 (kerfCount s k id code) := by
  unfold kerfCount
  try lift_lets -underBinder
  repeat' (first
    | (intro x; first | (refine Kept.cut (s0 := s0) (s1 := x) ?_ (fun _ => ?_); on_goal 1 => unfold x) | skip)
    | with_reducible assumption
    | with_reducible apply Kept.ite
    | with_reducible apply Kept.fstIte
    | with_reducible refine Kept.foldl ?_ (fun _ _ _ => ?_)
    | with_reducible apply State.setPr_kept
    | with_reducible apply statCount_kept
    | (refine Kept.fst (by with_reducible assumption) ?_)
    | split
    | fail_if_no_progress (with_reducible refine Kept.lit rfl rfl ?_)
    | (lift_lets -underBinder; intro x; first | (refine Kept.cut (s0 := s0) (s1 := x) ?_ (fun _ => ?_); on_goal 1 => unfold x) | skip))

theorem kerfWriteBlock_kept {s0 s : State} (wr : Writer) (f : KerfSurf) (clear : Option Nat) (bx by_ : Nat) (pixels : List Nat) (hwr : ∀ t a n, Kept s0 t → Kept s0 (wr t a n).1)(h0 : Kept s0 s) :
    Kept s0 (kerfWriteBlock s wr f clear bx by_ pixels).1 := by
  unfold kerfWriteBlock
  try lift_lets -underBinder
  repeat' (first
    | (intro x; first | (refine Kept.cut (s0 := s0) (s1 := x) ?_ (fun _ => ?_); on_goal 1 => unfold x) | skip)
    | with_reducible assumption
    | with_reducible apply Kept.ite
    | with_reducible apply Kept.fstIte
    | with_reducible refine Kept.foldl ?_ (fun _ _ _ => ?_)
    | with_reducible apply hwr
    | with_reducible apply kerfCount_kept
    | (refine Kept.fst (by with_reducible assumption) ?_)
    | split
    | fail_if_no_progress (with_reducible refine Kept.lit rfl rfl ?_)
    | (lift_lets -underBinder; intro x; first | (refine Kept.cut (s0 := s0) (s1 := x) ?_ (fun _ => ?_); on_goal 1 => unfold x) | skip))

end Sys2Proof.Machine
end

