-- ==== Sys2Proof/Laws/KeptLayers.lean ====
section
/-!
SUPPORT. Laws/KeptLayers.lean: the operations of Machine/Layers.lean keep what `Kept` says.
-/
set_option linter.unusedTactic false
set_option linter.unreachableTactic false
set_option linter.unusedVariables false

namespace Sys2Proof.Machine

theorem layerRead_kept {s0 s : State} (n l addr len : Nat) (h0 : Kept s0 s) :
    Kept s0 (layerRead s n l addr len).1 := by
  unfold layerRead
  repeat' (first
    | with_reducible assumption
    | with_reducible apply Kept.ite
    | with_reducible apply Kept.fstIte
    | with_reducible refine Kept.foldl ?_ (fun _ _ _ => ?_)
    | with_reducible apply ownerRead_kept
    | (refine Kept.fst (by with_reducible assumption) ?_)
    | split
    | fail_if_no_progress (with_reducible refine Kept.lit rfl rfl ?_)
    | (lift_lets -underBinder; intro x; first | (refine Kept.cut (s0 := s0) (s1 := x) ?_ (fun _ => ?_); on_goal 1 => unfold x) | skip))

theorem layerReads_kept {s0 s : State} (n l : Nat) (rs : List (Nat × Nat)) (h0 : Kept s0 s) :
    Kept s0 (layerReads s n l rs).1 := by
  induction rs generalizing s
  case nil => exact h0
  rename_i e r ih
  unfold layerReads
  repeat' (first
    | with_reducible assumption
    | with_reducible apply Kept.ite
    | with_reducible apply Kept.fstIte
    | with_reducible refine Kept.foldl ?_ (fun _ _ _ => ?_)
    | with_reducible apply ih
    | with_reducible apply layerRead_kept
    | (refine Kept.fst (by with_reducible assumption) ?_)
    | split
    | fail_if_no_progress (with_reducible refine Kept.lit rfl rfl ?_)
    | (lift_lets -underBinder; intro x; first | (refine Kept.cut (s0 := s0) (s1 := x) ?_ (fun _ => ?_); on_goal 1 => unfold x) | skip))

theorem fetchRows_kept {s0 s : State} (n l : Nat) (g : Nat → Word) (ys : List Nat) (h0 : Kept s0 s) :
    Kept s0 (fetchRows s n l g ys).1 := by
  induction ys generalizing s
  case nil => exact h0
  rename_i e r ih
  unfold fetchRows
  repeat' (first
    | with_reducible assumption
    | with_reducible apply Kept.ite
    | with_reducible apply Kept.fstIte
    | with_reducible refine Kept.foldl ?_ (fun _ _ _ => ?_)
    | with_reducible apply ih
    | with_reducible apply layerReads_kept
    | (refine Kept.fst (by with_reducible assumption) ?_)
    | split
    | fail_if_no_progress (with_reducible refine Kept.lit rfl rfl ?_)
    | (lift_lets -underBinder; intro x; first | (refine Kept.cut (s0 := s0) (s1 := x) ?_ (fun _ => ?_); on_goal 1 => unfold x) | skip))

theorem fetchLine_kept {s0 s : State} (n l line : Nat) (h0 : Kept s0 s) :
    Kept s0 (fetchLine s n l line).1 := by
  unfold fetchLine
  try lift_lets -underBinder
  repeat' (first
    | (intro x; first | (refine Kept.cut (s0 := s0) (s1 := x) ?_ (fun _ => ?_); on_goal 1 => unfold x) | clear_value x | skip)
    | with_reducible assumption
    | with_reducible apply Kept.ite
    | with_reducible apply Kept.fstIte
    | with_reducible refine Kept.foldl ?_ (fun _ _ _ => ?_)
    | with_reducible refine kerfRow_kept _ _ _ _ _ (fun _ _ _ _ => ?_) ?_
    | with_reducible apply layerRead_kept
    | with_reducible apply fetchRows_kept
    | (refine Kept.fst (by with_reducible assumption) ?_)
    | split
    | fail_if_no_progress (with_reducible refine Kept.lit rfl rfl ?_)
    | (lift_lets -underBinder; intro x; first | (refine Kept.cut (s0 := s0) (s1 := x) ?_ (fun _ => ?_); on_goal 1 => unfold x) | clear_value x | skip))

end Sys2Proof.Machine
end

