-- ==== Sys2Proof/Laws/KeptCvuLayer.lean ====
section
/-!
SUPPORT. Laws/KeptCvuLayer.lean: the operations of Machine/CvuLayer.lean keep what `Kept` says.
-/
set_option linter.unusedTactic false
set_option linter.unreachableTactic false
set_option linter.unusedVariables false

namespace Sys2Proof.Machine

theorem cvuLayerLine_kept {s0 s : State} (n line : Nat) (its : List Item) (h0 : Kept s0 s) :
    Kept s0 (cvuLayerLine s n line its) := by
  unfold cvuLayerLine
  try lift_lets -underBinder
  repeat' (first
    | (intro x; first | (refine Kept.cut (s0 := s0) (s1 := x) ?_ (fun _ => ?_); on_goal 1 => unfold x) | skip)
    | with_reducible assumption
    | with_reducible apply Kept.ite
    | with_reducible apply Kept.fstIte
    | with_reducible refine Kept.foldl ?_ (fun _ _ _ => ?_)
    | with_reducible apply State.setCvu_kept
    | with_reducible apply cvuLatch_kept
    | with_reducible apply cvuPack_kept
    | (refine Kept.fst (by with_reducible assumption) ?_)
    | split
    | fail_if_no_progress (with_reducible refine Kept.lit rfl rfl ?_)
    | (lift_lets -underBinder; intro x; first | (refine Kept.cut (s0 := s0) (s1 := x) ?_ (fun _ => ?_); on_goal 1 => unfold x) | skip))

end Sys2Proof.Machine
end

