-- ==== Sys2Proof/Laws/KeptLegend.lean ====
section
/-!
SUPPORT. Laws/KeptLegend.lean: the operations of Machine/Legend.lean keep what `Kept` says.
-/
set_option linter.unusedTactic false
set_option linter.unreachableTactic false
set_option linter.unusedVariables false

namespace Sys2Proof.Machine

theorem State.setLegend_kept {s0 s : State} (g : LegendSt) (h0 : Kept s0 s) :
    Kept s0 (State.setLegend s g) := by
  unfold State.setLegend
  repeat' (first
    | with_reducible assumption
    | with_reducible apply Kept.ite
    | with_reducible apply Kept.fstIte
    | with_reducible refine Kept.foldl ?_ (fun _ _ _ => ?_)
    | (refine Kept.fst (by with_reducible assumption) ?_)
    | split
    | fail_if_no_progress (with_reducible refine Kept.lit rfl rfl ?_)
    | (lift_lets -underBinder; intro x; first | (refine Kept.cut (s0 := s0) (s1 := x) ?_ (fun _ => ?_); on_goal 1 => unfold x) | skip))

theorem queueCompletion_kept {s0 s : State} (rs : Nat) (r : CqRec) (h0 : Kept s0 s) :
    Kept s0 (queueCompletion s rs r) := by
  unfold queueCompletion
  try lift_lets -underBinder
  repeat' (first
    | (intro x; first | (refine Kept.cut (s0 := s0) (s1 := x) ?_ (fun _ => ?_); on_goal 1 => unfold x) | skip)
    | with_reducible assumption
    | with_reducible apply Kept.ite
    | with_reducible apply Kept.fstIte
    | with_reducible refine Kept.foldl ?_ (fun _ _ _ => ?_)
    | with_reducible apply State.setRing_kept
    | (refine Kept.fst (by with_reducible assumption) ?_)
    | split
    | fail_if_no_progress (with_reducible refine Kept.lit rfl rfl ?_)
    | (lift_lets -underBinder; intro x; first | (refine Kept.cut (s0 := s0) (s1 := x) ?_ (fun _ => ?_); on_goal 1 => unfold x) | skip))

theorem pointCompletion_kept {s0 s : State} (j : PointJob) (h0 : Kept s0 s) :
    Kept s0 (pointCompletion s j) := by
  unfold pointCompletion
  repeat' (first
    | with_reducible assumption
    | with_reducible apply Kept.ite
    | with_reducible apply Kept.fstIte
    | with_reducible refine Kept.foldl ?_ (fun _ _ _ => ?_)
    | with_reducible apply queueCompletion_kept
    | (refine Kept.fst (by with_reducible assumption) ?_)
    | split
    | fail_if_no_progress (with_reducible refine Kept.lit rfl rfl ?_)
    | (lift_lets -underBinder; intro x; first | (refine Kept.cut (s0 := s0) (s1 := x) ?_ (fun _ => ?_); on_goal 1 => unfold x) | skip))

theorem pointJobSettle_kept {s0 s : State} (n : Nat) (drop : Bool) (h0 : Kept s0 s) :
    Kept s0 (pointJobSettle s n drop) := by
  unfold pointJobSettle
  try lift_lets -underBinder
  repeat' (first
    | (intro x; first | (refine Kept.cut (s0 := s0) (s1 := x) ?_ (fun _ => ?_); on_goal 1 => unfold x) | skip)
    | with_reducible assumption
    | with_reducible apply Kept.ite
    | with_reducible apply Kept.fstIte
    | with_reducible refine Kept.foldl ?_ (fun _ _ _ => ?_)
    | with_reducible apply State.setLegend_kept
    | with_reducible apply pointCompletion_kept
    | (refine Kept.fst (by with_reducible assumption) ?_)
    | split
    | fail_if_no_progress (with_reducible refine Kept.lit rfl rfl ?_)
    | (lift_lets -underBinder; intro x; first | (refine Kept.cut (s0 := s0) (s1 := x) ?_ (fun _ => ?_); on_goal 1 => unfold x) | skip))

theorem pointSettle_kept {s0 s : State} (r : PointRec) (res : PointResult) (h0 : Kept s0 s) :
    Kept s0 (pointSettle s r res) := by
  unfold pointSettle
  try lift_lets -underBinder
  repeat' (first
    | (intro x; first | (refine Kept.cut (s0 := s0) (s1 := x) ?_ (fun _ => ?_); on_goal 1 => unfold x) | skip)
    | with_reducible assumption
    | with_reducible apply Kept.ite
    | with_reducible apply Kept.fstIte
    | with_reducible refine Kept.foldl ?_ (fun _ _ _ => ?_)
    | with_reducible apply State.setPr_kept
    | with_reducible apply State.count_kept
    | with_reducible apply State.event_kept
    | with_reducible apply State.logAdd_kept
    | with_reducible apply pointJobSettle_kept
    | (refine Kept.fst (by with_reducible assumption) ?_)
    | split
    | fail_if_no_progress (with_reducible refine Kept.lit rfl rfl ?_)
    | (lift_lets -underBinder; intro x; first | (refine Kept.cut (s0 := s0) (s1 := x) ?_ (fun _ => ?_); on_goal 1 => unfold x) | skip))

theorem pointAccept_kept {s0 s : State} (r : PointRec) (h0 : Kept s0 s) :
    Kept s0 (pointAccept s r) := by
  unfold pointAccept
  try lift_lets -underBinder
  repeat' (first
    | (intro x; first | (refine Kept.cut (s0 := s0) (s1 := x) ?_ (fun _ => ?_); on_goal 1 => unfold x) | skip)
    | with_reducible assumption
    | with_reducible apply Kept.ite
    | with_reducible apply Kept.fstIte
    | with_reducible refine Kept.foldl ?_ (fun _ _ _ => ?_)
    | with_reducible apply State.count_kept
    | with_reducible apply countStale_kept
    | with_reducible apply State.setLegend_kept
    | with_reducible apply pointJobSettle_kept
    | with_reducible apply pointSettle_kept
    | (refine Kept.fst (by with_reducible assumption) ?_)
    | split
    | fail_if_no_progress (with_reducible refine Kept.lit rfl rfl ?_)
    | (lift_lets -underBinder; intro x; first | (refine Kept.cut (s0 := s0) (s1 := x) ?_ (fun _ => ?_); on_goal 1 => unfold x) | skip))

theorem pointApply_kept {s0 s : State} (h0 : Kept s0 s) : Kept s0 (pointApply s) := by
  unfold pointApply
  split
  · exact h0
  · rename_i r rest _
    have h1 : Kept s0 (s.setLegend { s.legend with accepted := rest }) := State.setLegend_kept _ h0
    generalize s.setLegend { s.legend with accepted := rest } = s1 at h1 ⊢
    dsimp only
    have h2 := busRead_kept legendAgent false (ptBase s1 + 4 * bits r.word 17 0) 4 h1
    generalize busRead s1 legendAgent false (ptBase s1 + 4 * bits r.word 17 0) 4 = x at h2 ⊢
    obtain ⟨t, b⟩ := x
    cases b with
    | error _ => exact pointSettle_kept _ _ (raiseFault_kept _ _ _ h2)
    | ok b => exact pointSettle_kept _ _ (busWrite_kept _ _ _ _ h2)

theorem pointFlush_kept {s0 s : State} (n : Nat) (h0 : Kept s0 s) : Kept s0 (pointFlush n s) := by
  induction n generalizing s with
  | zero => exact h0
  | succ k ih => exact ih (pointApply_kept h0)

theorem badCell_kept {s0 s : State} (n : Nat) (h0 : Kept s0 s) :
    Kept s0 (badCell s n) := by
  unfold badCell
  repeat' (first
    | with_reducible assumption
    | with_reducible apply Kept.ite
    | with_reducible apply Kept.fstIte
    | with_reducible refine Kept.foldl ?_ (fun _ _ _ => ?_)
    | with_reducible apply State.count_kept
    | with_reducible apply State.event_kept
    | (refine Kept.fst (by with_reducible assumption) ?_)
    | split
    | fail_if_no_progress (with_reducible refine Kept.lit rfl rfl ?_)
    | (lift_lets -underBinder; intro x; first | (refine Kept.cut (s0 := s0) (s1 := x) ?_ (fun _ => ?_); on_goal 1 => unfold x) | skip))

theorem countBadGlyphs_kept {s0 s : State} (n : Nat) (c : CellCap) (h0 : Kept s0 s) :
    Kept s0 (countBadGlyphs s n c) := by
  unfold countBadGlyphs
  repeat' (first
    | with_reducible assumption
    | with_reducible apply Kept.ite
    | with_reducible apply Kept.fstIte
    | with_reducible refine Kept.foldl ?_ (fun _ _ _ => ?_)
    | with_reducible apply badCell_kept
    | (refine Kept.fst (by with_reducible assumption) ?_)
    | split
    | fail_if_no_progress (with_reducible refine Kept.lit rfl rfl ?_)
    | (lift_lets -underBinder; intro x; first | (refine Kept.cut (s0 := s0) (s1 := x) ?_ (fun _ => ?_); on_goal 1 => unfold x) | skip))

theorem captureCells_kept {s0 s : State} (n : Nat) (l : List (Nat × Nat)) (h0 : Kept s0 s) :
    Kept s0 (captureCells s n l).1 := by
  induction l generalizing s
  case nil => exact h0
  rename_i e r ih
  unfold captureCells
  try lift_lets -underBinder
  repeat' (first
    | (intro x; first | (refine Kept.cut (s0 := s0) (s1 := x) ?_ (fun _ => ?_); on_goal 1 => unfold x) | skip)
    | with_reducible assumption
    | with_reducible apply Kept.ite
    | with_reducible apply Kept.fstIte
    | with_reducible refine Kept.foldl ?_ (fun _ _ _ => ?_)
    | with_reducible apply ih
    | with_reducible apply raiseFault_kept
    | with_reducible apply busRead_kept
    | with_reducible apply badCell_kept
    | with_reducible apply countBadGlyphs_kept
    | (refine Kept.fst (by with_reducible assumption) ?_)
    | split
    | fail_if_no_progress (with_reducible refine Kept.lit rfl rfl ?_)
    | (lift_lets -underBinder; intro x; first | (refine Kept.cut (s0 := s0) (s1 := x) ?_ (fun _ => ?_); on_goal 1 => unfold x) | skip))

theorem legendLine_kept {s0 s : State} (n line : Nat) (h0 : Kept s0 s) :
    Kept s0 (legendLine s n line).1 := by
  unfold legendLine
  try lift_lets -underBinder
  repeat' (first
    | (intro x; first | (refine Kept.cut (s0 := s0) (s1 := x) ?_ (fun _ => ?_); on_goal 1 => unfold x) | skip)
    | with_reducible assumption
    | with_reducible apply Kept.ite
    | with_reducible apply Kept.fstIte
    | with_reducible refine Kept.foldl ?_ (fun _ _ _ => ?_)
    | (refine Kept.fst (by with_reducible assumption) ?_)
    | split
    | fail_if_no_progress (with_reducible refine Kept.lit rfl rfl ?_)
    | (lift_lets -underBinder; intro x; first | (refine Kept.cut (s0 := s0) (s1 := x) ?_ (fun _ => ?_); on_goal 1 => unfold x) | skip))

theorem legendMiss_kept {s0 s : State} (n line : Nat) (h0 : Kept s0 s) :
    Kept s0 (legendMiss s n line) := by
  unfold legendMiss
  repeat' (first
    | with_reducible assumption
    | with_reducible apply Kept.ite
    | with_reducible apply Kept.fstIte
    | with_reducible refine Kept.foldl ?_ (fun _ _ _ => ?_)
    | with_reducible apply State.count_kept
    | with_reducible apply State.event_kept
    | (refine Kept.fst (by with_reducible assumption) ?_)
    | split
    | fail_if_no_progress (with_reducible refine Kept.lit rfl rfl ?_)
    | (lift_lets -underBinder; intro x; first | (refine Kept.cut (s0 := s0) (s1 := x) ?_ (fun _ => ?_); on_goal 1 => unfold x) | skip))

theorem dropGlyph_kept {s0 s : State} (g : Nat) (h0 : Kept s0 s) :
    Kept s0 (dropGlyph s g) := by
  unfold dropGlyph
  repeat' (first
    | with_reducible assumption
    | with_reducible apply Kept.ite
    | with_reducible apply Kept.fstIte
    | with_reducible refine Kept.foldl ?_ (fun _ _ _ => ?_)
    | with_reducible apply State.setLegend_kept
    | (refine Kept.fst (by with_reducible assumption) ?_)
    | split
    | fail_if_no_progress (with_reducible refine Kept.lit rfl rfl ?_)
    | (lift_lets -underBinder; intro x; first | (refine Kept.cut (s0 := s0) (s1 := x) ?_ (fun _ => ?_); on_goal 1 => unfold x) | skip))

theorem glyphFail_kept {s0 s : State} (n g : Nat) (h0 : Kept s0 s) :
    Kept s0 (glyphFail s n g) := by
  unfold glyphFail
  try lift_lets -underBinder
  repeat' (first
    | (intro x; first | (refine Kept.cut (s0 := s0) (s1 := x) ?_ (fun _ => ?_); on_goal 1 => unfold x) | skip)
    | with_reducible assumption
    | with_reducible apply Kept.ite
    | with_reducible apply Kept.fstIte
    | with_reducible refine Kept.foldl ?_ (fun _ _ _ => ?_)
    | with_reducible apply raiseFault_kept
    | with_reducible apply State.setLegend_kept
    | with_reducible apply badCell_kept
    | with_reducible apply dropGlyph_kept
    | (refine Kept.fst (by with_reducible assumption) ?_)
    | split
    | fail_if_no_progress (with_reducible refine Kept.lit rfl rfl ?_)
    | (lift_lets -underBinder; intro x; first | (refine Kept.cut (s0 := s0) (s1 := x) ?_ (fun _ => ?_); on_goal 1 => unfold x) | skip))

theorem glyphDamage_kept {s0 s : State} (n : Nat) (gl : CellGlyph) (b : List Nat) (h0 : Kept s0 s) :
    Kept s0 (glyphDamage s n gl b) := by
  unfold glyphDamage
  try lift_lets -underBinder
  repeat' (first
    | (intro x; first | (refine Kept.cut (s0 := s0) (s1 := x) ?_ (fun _ => ?_); on_goal 1 => unfold x) | skip)
    | with_reducible assumption
    | with_reducible apply Kept.ite
    | with_reducible apply Kept.fstIte
    | with_reducible refine Kept.foldl ?_ (fun _ _ _ => ?_)
    | with_reducible apply kerfError_kept
    | with_reducible apply badCell_kept
    | (refine Kept.fst (by with_reducible assumption) ?_)
    | split
    | fail_if_no_progress (with_reducible refine Kept.lit rfl rfl ?_)
    | (lift_lets -underBinder; intro x; first | (refine Kept.cut (s0 := s0) (s1 := x) ?_ (fun _ => ?_); on_goal 1 => unfold x) | skip))

theorem glyphFetch_kept {s0 s : State} (n : Nat) (gl : CellGlyph) (h0 : Kept s0 s) :
    Kept s0 (glyphFetch s n gl) := by
  unfold glyphFetch
  try lift_lets -underBinder
  repeat' (first
    | (intro x; first | (refine Kept.cut (s0 := s0) (s1 := x) ?_ (fun _ => ?_); on_goal 1 => unfold x) | skip)
    | with_reducible assumption
    | with_reducible apply Kept.ite
    | with_reducible apply Kept.fstIte
    | with_reducible refine Kept.foldl ?_ (fun _ _ _ => ?_)
    | with_reducible apply ownerRead_kept
    | with_reducible apply State.setLegend_kept
    | with_reducible apply glyphFail_kept
    | with_reducible apply glyphDamage_kept
    | (refine Kept.fst (by with_reducible assumption) ?_)
    | split
    | fail_if_no_progress (with_reducible refine Kept.lit rfl rfl ?_)
    | (lift_lets -underBinder; intro x; first | (refine Kept.cut (s0 := s0) (s1 := x) ?_ (fun _ => ?_); on_goal 1 => unfold x) | skip))

end Sys2Proof.Machine
end

