-- ==== Sys2Proof/Laws/KeptCommit.lean ====
section
/-!
SUPPORT. Laws/KeptCommit.lean: the operations of Machine/Commit.lean keep what `Kept` says.
-/
set_option linter.unusedTactic false
set_option linter.unreachableTactic false
set_option linter.unusedVariables false

namespace Sys2Proof.Machine

theorem markLate_kept {s0 s : State} (n bits : Nat) (p : Page) (h0 : Kept s0 s) :
    Kept s0 (markLate s n bits p) := by
  unfold markLate
  try lift_lets -underBinder
  repeat' (first
    | (intro x; first | (refine Kept.cut (s0 := s0) (s1 := x) ?_ (fun _ => ?_); on_goal 1 => unfold x) | skip)
    | with_reducible assumption
    | with_reducible apply Kept.ite
    | with_reducible apply Kept.fstIte
    | with_reducible refine Kept.foldl ?_ (fun _ _ _ => ?_)
    | with_reducible apply State.hwBits_kept
    | with_reducible apply State.event_kept
    | with_reducible apply layerEvent_kept
    | (refine Kept.fst (by with_reducible assumption) ?_)
    | split
    | fail_if_no_progress (with_reducible refine Kept.lit rfl rfl ?_)
    | (lift_lets -underBinder; intro x; first | (refine Kept.cut (s0 := s0) (s1 := x) ?_ (fun _ => ?_); on_goal 1 => unfold x) | skip))

theorem commitTiming_kept {s0 s : State} (p : Page) (h0 : Kept s0 s) :
    Kept s0 (commitTiming s p) := by
  unfold commitTiming
  try lift_lets -underBinder
  repeat' (first
    | (intro x; first | (refine Kept.cut (s0 := s0) (s1 := x) ?_ (fun _ => ?_); on_goal 1 => unfold x) | skip)
    | with_reducible assumption
    | with_reducible apply Kept.ite
    | with_reducible apply Kept.fstIte
    | with_reducible refine Kept.foldl ?_ (fun _ _ _ => ?_)
    | with_reducible apply State.setPf_kept
    | with_reducible apply State.setHead_kept
    | with_reducible apply applyLayer_kept
    | with_reducible apply applyTiming_kept
    | with_reducible apply applyComposer_kept
    | with_reducible apply markLate_kept
    | (refine Kept.fst (by with_reducible assumption) ?_)
    | split
    | fail_if_no_progress (with_reducible refine Kept.lit rfl rfl ?_)
    | (lift_lets -underBinder; intro x; first | (refine Kept.cut (s0 := s0) (s1 := x) ?_ (fun _ => ?_); on_goal 1 => unfold x) | skip))

theorem commitOp_kept {s0 s : State} (m : Master) (p : Page) (seq : Nat) (h0 : Kept s0 s) :
    Kept s0 (commitOp s m p seq) := by
  unfold commitOp
  repeat' (first
    | with_reducible assumption
    | with_reducible apply Kept.ite
    | with_reducible apply Kept.fstIte
    | with_reducible refine Kept.foldl ?_ (fun _ _ _ => ?_)
    | with_reducible apply commitResult_kept
    | with_reducible apply stageShadow_kept
    | with_reducible apply commitTiming_kept
    | (refine Kept.fst (by with_reducible assumption) ?_)
    | split
    | fail_if_no_progress (with_reducible refine Kept.lit rfl rfl ?_)
    | (lift_lets -underBinder; intro x; first | (refine Kept.cut (s0 := s0) (s1 := x) ?_ (fun _ => ?_); on_goal 1 => unfold x) | skip))

theorem commitRevoked_kept {s0 s : State} (m : Master) (p : Page) (seq : Nat) (h0 : Kept s0 s) :
    Kept s0 (commitRevoked s m p seq) := by
  unfold commitRevoked
  repeat' (first
    | with_reducible assumption
    | with_reducible apply Kept.ite
    | with_reducible apply Kept.fstIte
    | with_reducible refine Kept.foldl ?_ (fun _ _ _ => ?_)
    | with_reducible apply commitResult_kept
    | (refine Kept.fst (by with_reducible assumption) ?_)
    | split
    | fail_if_no_progress (with_reducible refine Kept.lit rfl rfl ?_)
    | (lift_lets -underBinder; intro x; first | (refine Kept.cut (s0 := s0) (s1 := x) ?_ (fun _ => ?_); on_goal 1 => unfold x) | skip))

theorem commitGo_kept {s0 s : State} (m : Master) (p : Page) (seq : Nat) (h0 : Kept s0 s) :
    Kept s0 (commitGo s m p seq) := by
  unfold commitGo
  try lift_lets -underBinder
  repeat' (first
    | (intro x; first | (refine Kept.cut (s0 := s0) (s1 := x) ?_ (fun _ => ?_); on_goal 1 => unfold x) | skip)
    | with_reducible assumption
    | with_reducible apply Kept.ite
    | with_reducible apply Kept.fstIte
    | with_reducible refine Kept.foldl ?_ (fun _ _ _ => ?_)
    | with_reducible apply beginAccess_kept
    | with_reducible apply State.noteWrite_kept
    | with_reducible apply flushPage_kept
    | with_reducible apply recordRefusal_kept
    | with_reducible apply commitOp_kept
    | with_reducible apply commitRevoked_kept
    | (refine Kept.fst (by with_reducible assumption) ?_)
    | split
    | fail_if_no_progress (with_reducible refine Kept.lit rfl rfl ?_)
    | (lift_lets -underBinder; intro x; first | (refine Kept.cut (s0 := s0) (s1 := x) ?_ (fun _ => ?_); on_goal 1 => unfold x) | skip))

end Sys2Proof.Machine
end

