-- ==== Sys2Proof/Laws/KeptMemCmds.lean ====
section
/-!
SUPPORT. Laws/KeptMemCmds.lean: the operations of Machine/MemCmds.lean keep what `Kept` says.
-/
set_option linter.unusedTactic false
set_option linter.unreachableTactic false
set_option linter.unusedVariables false

namespace Sys2Proof.Machine

theorem answerRead_kept {s0 : State} (agent addr : Nat) (r : State × Except AccErr (List Nat)) (h0 : Kept s0 r.1) :
    Kept s0 (answerRead agent addr r) := ⟨h0.pending, h0.mem, h0.log⟩

theorem answerWrite_kept {s0 : State} (agent addr : Nat) (r : State × Except AccErr Unit) (h0 : Kept s0 r.1) :
    Kept s0 (answerWrite agent addr r) := ⟨h0.pending, h0.mem, h0.log⟩

theorem flipWrite_kept {s0 s : State} (kind agent : Nat) (sec : Bool) (addr : Nat) (bytes : List (Option (BitVec 8))) (h0 : Kept s0 s) :
    Kept s0 (flipWrite s kind agent sec addr bytes) := by
  unfold flipWrite
  repeat' (first
    | with_reducible assumption
    | with_reducible apply Kept.ite
    | with_reducible apply Kept.fstIte
    | with_reducible refine Kept.foldl ?_ (fun _ _ _ => ?_)
    | with_reducible apply busWriteMasked_kept
    | with_reducible apply answerWrite_kept
    | (refine Kept.fst (by with_reducible assumption) ?_)
    | split
    | fail_if_no_progress (with_reducible refine Kept.lit rfl rfl ?_)
    | (lift_lets -underBinder; intro x; first | (refine Kept.cut (s0 := s0) (s1 := x) ?_ (fun _ => ?_); on_goal 1 => unfold x) | skip))

theorem damagePage_kept {s0 s : State} (page : Nat) (d : List (BitVec 12 × BitVec 9)) (h0 : Kept s0 s) :
    Kept s0 (damagePage s page d) := by
  unfold damagePage
  try lift_lets -underBinder
  repeat' (first
    | (intro x; first | (refine Kept.cut (s0 := s0) (s1 := x) ?_ (fun _ => ?_); on_goal 1 => unfold x) | skip)
    | with_reducible assumption
    | with_reducible apply Kept.ite
    | with_reducible apply Kept.fstIte
    | with_reducible refine Kept.foldl ?_ (fun _ _ _ => ?_)
    | with_reducible apply memSet_kept
    | with_reducible apply setBad_kept
    | (refine Kept.fst (by with_reducible assumption) ?_)
    | split
    | fail_if_no_progress (with_reducible refine Kept.lit rfl rfl ?_)
    | (lift_lets -underBinder; intro x; first | (refine Kept.cut (s0 := s0) (s1 := x) ?_ (fun _ => ?_); on_goal 1 => unfold x) | skip))

theorem lineRead_kept {s0 s : State} (agent : Nat) (sec : Bool) (addr : Nat) (h0 : Kept s0 s) :
    Kept s0 (lineRead s agent sec addr) := by
  unfold lineRead
  repeat' (first
    | with_reducible assumption
    | with_reducible apply Kept.ite
    | with_reducible apply Kept.fstIte
    | with_reducible refine Kept.foldl ?_ (fun _ _ _ => ?_)
    | with_reducible apply busRead_kept
    | with_reducible apply answerRead_kept
    | (refine Kept.fst (by with_reducible assumption) ?_)
    | split
    | fail_if_no_progress (with_reducible refine Kept.lit rfl rfl ?_)
    | (lift_lets -underBinder; intro x; first | (refine Kept.cut (s0 := s0) (s1 := x) ?_ (fun _ => ?_); on_goal 1 => unfold x) | skip))

theorem mirWindowOp_kept {s0 s : State} (m : Master) (k : Nat) (value : Word) (h0 : Kept s0 s) :
    Kept s0 (mirWindowOp s m k value) := by
  unfold mirWindowOp
  try lift_lets -underBinder
  repeat' (first
    | (intro x; first | (refine Kept.cut (s0 := s0) (s1 := x) ?_ (fun _ => ?_); on_goal 1 => unfold x) | skip)
    | with_reducible assumption
    | with_reducible apply Kept.ite
    | with_reducible apply Kept.fstIte
    | with_reducible refine Kept.foldl ?_ (fun _ _ _ => ?_)
    | with_reducible apply State.setReg_kept
    | with_reducible apply State.setPf_kept
    | with_reducible apply State.applyStaged_kept
    | (refine Kept.fst (by with_reducible assumption) ?_)
    | split
    | fail_if_no_progress (with_reducible refine Kept.lit rfl rfl ?_)
    | (lift_lets -underBinder; intro x; first | (refine Kept.cut (s0 := s0) (s1 := x) ?_ (fun _ => ?_); on_goal 1 => unfold x) | skip))

theorem mirrorPageWritten_kept {s0 s : State} (page : Nat) (h0 : Kept s0 s) :
    Kept s0 (mirrorPageWritten s page) := by
  unfold mirrorPageWritten
  try lift_lets -underBinder
  repeat' (first
    | (intro x; first | (refine Kept.cut (s0 := s0) (s1 := x) ?_ (fun _ => ?_); on_goal 1 => unfold x) | skip)
    | with_reducible assumption
    | with_reducible apply Kept.ite
    | with_reducible apply Kept.fstIte
    | with_reducible refine Kept.foldl ?_ (fun _ _ _ => ?_)
    | with_reducible apply putCode_kept
    | with_reducible apply recodeEnter_kept
    | (refine Kept.fst (by with_reducible assumption) ?_)
    | split
    | fail_if_no_progress (with_reducible refine Kept.lit rfl rfl ?_)
    | (lift_lets -underBinder; intro x; first | (refine Kept.cut (s0 := s0) (s1 := x) ?_ (fun _ => ?_); on_goal 1 => unfold x) | skip))

theorem memWf_filter (m : List Host.Cell) (p : Host.Cell → Bool) (h : Memory.wf m = true) :
    Memory.wf (m.filter p) = true := by
  simp only [Memory.wf, awf, Bool.and_eq_true, List.all_eq_true] at h ⊢
  refine ⟨?_, fun e he => h.2 e (List.mem_of_mem_filter he)⟩
  have := h.1
  clear h
  induction m with
  | nil => rfl
  | cons e r ih =>
    obtain ⟨ha, hr⟩ := (akeysRise_cons e r).1 this
    by_cases hp : p e = true
    · rw [List.filter_cons_of_pos hp, akeysRise_cons]
      refine ⟨?_, ih hr⟩
      simp only [aabove, List.all_eq_true, decide_eq_true_eq] at ha ⊢
      exact fun x hx => ha x (List.mem_of_mem_filter hx)
    · rw [List.filter_cons_of_neg hp]
      exact ih hr

theorem memWf_fold (l : List Host.Cell) (k : Nat → Nat) (m : List Host.Cell) (h : Memory.wf m = true) :
    Memory.wf (l.foldl (fun cs c => aset 0 cs (k c.1) c.2) m) = true := by
  induction l generalizing m with
  | nil => exact h
  | cons c r ih => exact ih _ (awf_aset (fun _ => (0 : BitVec 8)) m _ c.2 h)

/-- The copy of cells keeps the canonical form: a range is cut out, and cells are written one by one. -/
theorem mirrorCells_kept {s0 s : State} (p q : Host.Cell → Bool) (a k : Nat) (bad : List Nat) (h : Kept s0 s) :
    Kept s0 { s with mem := { s.mem with
      cells := (s.mem.cells.filter p).foldl (fun cs c => aset 0 cs (c.1 - a + k) c.2) (s.mem.cells.filter q), bad := bad } } :=
  ⟨h.pending, fun x => memWf_fold _ (fun n => n - a + k) _ (memWf_filter _ _ (h.mem x)), h.log⟩

theorem mirrorCopy_kept {s0 s : State} (a len : Nat) (h : Kept s0 s) : Kept s0 (mirrorCopy s a len) := by
  unfold mirrorCopy
  lift_lets
  intro lines s1
  have h1 : Kept s0 s1 := Kept.foldl h (fun _ _ h => soundLine_kept _ h)
  intro q out inp moved cells bad src s2
  have h2 : Kept s0 s2 := mirrorCells_kept _ _ _ _ _ h1
  exact Kept.foldl h2 (fun _ _ h => mirrorPageWritten_kept _ h)

theorem shimOp_kept {s0 s : State} (m : Master) (k : Nat) (value : Word) (h0 : Kept s0 s) :
    Kept s0 (shimOp s m k value) := by
  unfold shimOp
  try lift_lets -underBinder
  repeat' (first
    | (intro x; first | (refine Kept.cut (s0 := s0) (s1 := x) ?_ (fun _ => ?_); on_goal 1 => unfold x) | skip)
    | with_reducible assumption
    | with_reducible apply Kept.ite
    | with_reducible apply Kept.fstIte
    | with_reducible refine Kept.foldl ?_ (fun _ _ _ => ?_)
    | with_reducible apply State.setReg_kept
    | with_reducible apply State.applyStaged_kept
    | (refine Kept.fst (by with_reducible assumption) ?_)
    | split
    | fail_if_no_progress (with_reducible refine Kept.lit rfl rfl ?_)
    | (lift_lets -underBinder; intro x; first | (refine Kept.cut (s0 := s0) (s1 := x) ?_ (fun _ => ?_); on_goal 1 => unfold x) | skip))

theorem scrubPage_kept {s0 s : State} (page : Nat) (h0 : Kept s0 s) :
    Kept s0 (scrubPage s page) := by
  unfold scrubPage
  repeat' (first
    | with_reducible assumption
    | with_reducible apply Kept.ite
    | with_reducible apply Kept.fstIte
    | with_reducible refine Kept.foldl ?_ (fun _ _ _ => ?_)
    | with_reducible apply State.logLimited_kept
    | with_reducible apply applyFixes_kept
    | with_reducible apply memCorrected_kept
    | (refine Kept.fst (by with_reducible assumption) ?_)
    | split
    | fail_if_no_progress (with_reducible refine Kept.lit rfl rfl ?_)
    | (lift_lets -underBinder; intro x; first | (refine Kept.cut (s0 := s0) (s1 := x) ?_ (fun _ => ?_); on_goal 1 => unfold x) | skip))

theorem setChStatus_kept {s0 s : State} (c hi lo v : Nat) (h0 : Kept s0 s) :
    Kept s0 (setChStatus s c hi lo v) := by
  unfold setChStatus
  repeat' (first
    | with_reducible assumption
    | with_reducible apply Kept.ite
    | with_reducible apply Kept.fstIte
    | with_reducible refine Kept.foldl ?_ (fun _ _ _ => ?_)
    | with_reducible apply State.setPf_kept
    | (refine Kept.fst (by with_reducible assumption) ?_)
    | split
    | fail_if_no_progress (with_reducible refine Kept.lit rfl rfl ?_)
    | (lift_lets -underBinder; intro x; first | (refine Kept.cut (s0 := s0) (s1 := x) ?_ (fun _ => ?_); on_goal 1 => unfold x) | skip))

theorem retrainNext_kept {s0 s : State} (h0 : Kept s0 s) :
    Kept s0 (retrainNext s) := by
  unfold retrainNext
  try lift_lets -underBinder
  repeat' (first
    | (intro x; first | (refine Kept.cut (s0 := s0) (s1 := x) ?_ (fun _ => ?_); on_goal 1 => unfold x) | skip)
    | with_reducible assumption
    | with_reducible apply Kept.ite
    | with_reducible apply Kept.fstIte
    | with_reducible refine Kept.foldl ?_ (fun _ _ _ => ?_)
    | with_reducible apply leaveSelfRefresh_kept
    | with_reducible apply setChStatus_kept
    | (refine Kept.fst (by with_reducible assumption) ?_)
    | split
    | fail_if_no_progress (with_reducible refine Kept.lit rfl rfl ?_)
    | (lift_lets -underBinder; intro x; first | (refine Kept.cut (s0 := s0) (s1 := x) ?_ (fun _ => ?_); on_goal 1 => unfold x) | skip))

theorem retrainFallsDue_kept {s0 s : State} (c : Nat) (h0 : Kept s0 s) :
    Kept s0 (retrainFallsDue s c) := by
  unfold retrainFallsDue
  repeat' (first
    | with_reducible assumption
    | with_reducible apply Kept.ite
    | with_reducible apply Kept.fstIte
    | with_reducible refine Kept.foldl ?_ (fun _ _ _ => ?_)
    | with_reducible apply retrainNext_kept
    | (refine Kept.fst (by with_reducible assumption) ?_)
    | split
    | fail_if_no_progress (with_reducible refine Kept.lit rfl rfl ?_)
    | (lift_lets -underBinder; intro x; first | (refine Kept.cut (s0 := s0) (s1 := x) ?_ (fun _ => ?_); on_goal 1 => unfold x) | skip))

theorem recodeCfgOp_kept {s0 s : State} (value : Word) (h0 : Kept s0 s) :
    Kept s0 (recodeCfgOp s value) := by
  unfold recodeCfgOp
  try lift_lets -underBinder
  repeat' (first
    | (intro x; first | (refine Kept.cut (s0 := s0) (s1 := x) ?_ (fun _ => ?_); on_goal 1 => unfold x) | skip)
    | with_reducible assumption
    | with_reducible apply Kept.ite
    | with_reducible apply Kept.fstIte
    | with_reducible refine Kept.foldl ?_ (fun _ _ _ => ?_)
    | with_reducible apply State.setPr_kept
    | with_reducible apply State.setPair_kept
    | (refine Kept.fst (by with_reducible assumption) ?_)
    | split
    | fail_if_no_progress (with_reducible refine Kept.lit rfl rfl ?_)
    | (lift_lets -underBinder; intro x; first | (refine Kept.cut (s0 := s0) (s1 := x) ?_ (fun _ => ?_); on_goal 1 => unfold x) | skip))

end Sys2Proof.Machine
end

