-- ==== Sys2Proof/Laws/KeptEnable.lean ====
section
/-!
SUPPORT. Laws/KeptEnable.lean: the operations of Machine/Enable.lean keep what `Kept` says.
-/
set_option linter.unusedTactic false
set_option linter.unreachableTactic false
set_option linter.unusedVariables false

namespace Sys2Proof.Machine

theorem ctrlOnOp_kept {s0 s : State} (p : Page) (h0 : Kept s0 s) :
    Kept s0 (ctrlOnOp s p) := by
  unfold ctrlOnOp
  try lift_lets -underBinder
  repeat' (first
    | (intro x; first | (refine Kept.cut (s0 := s0) (s1 := x) ?_ (fun _ => ?_); on_goal 1 => unfold x) | skip)
    | with_reducible assumption
    | with_reducible apply Kept.ite
    | with_reducible apply Kept.fstIte
    | with_reducible refine Kept.foldl ?_ (fun _ _ _ => ?_)
    | with_reducible apply State.setPr_kept
    | with_reducible apply State.setHf_kept
    | with_reducible apply State.setReady_kept
    | with_reducible apply cvuEnableOp_kept
    | with_reducible apply audioEnableOp_kept
    | with_reducible apply headEnableOp_kept
    | with_reducible apply hapEnableOp_kept
    | with_reducible apply legendEnableOp_kept
    | (refine Kept.fst (by with_reducible assumption) ?_)
    | split
    | fail_if_no_progress (with_reducible refine Kept.lit rfl rfl ?_)
    | (lift_lets -underBinder; intro x; first | (refine Kept.cut (s0 := s0) (s1 := x) ?_ (fun _ => ?_); on_goal 1 => unfold x) | skip))

theorem ctrlOffOp_kept {s0 s : State} (p : Page) (h0 : Kept s0 s) :
    Kept s0 (ctrlOffOp s p) := by
  unfold ctrlOffOp
  try lift_lets -underBinder
  repeat' (first
    | (intro x; first | (refine Kept.cut (s0 := s0) (s1 := x) ?_ (fun _ => ?_); on_goal 1 => unfold x) | skip)
    | with_reducible assumption
    | with_reducible apply Kept.ite
    | with_reducible apply Kept.fstIte
    | with_reducible refine Kept.foldl ?_ (fun _ _ _ => ?_)
    | with_reducible apply State.setHf_kept
    | with_reducible apply State.setBusy_kept
    | with_reducible apply State.setHead_kept
    | with_reducible apply invalidateWhere_kept
    | with_reducible apply setLink_kept
    | with_reducible apply linkIdle_kept
    | with_reducible apply headDisableOp_kept
    | with_reducible apply portStop_kept
    | (refine Kept.fst (by with_reducible assumption) ?_)
    | split
    | fail_if_no_progress (with_reducible refine Kept.lit rfl rfl ?_)
    | (lift_lets -underBinder; intro x; first | (refine Kept.cut (s0 := s0) (s1 := x) ?_ (fun _ => ?_); on_goal 1 => unfold x) | skip))

end Sys2Proof.Machine
end

