-- ==== Sys2Proof/Laws/KeptSurfaces.lean ====
section
/-!
SUPPORT. Laws/KeptSurfaces.lean: the operations of Machine/Surfaces.lean keep what `Kept` says.
-/
set_option linter.unusedTactic false
set_option linter.unreachableTactic false
set_option linter.unusedVariables false

namespace Sys2Proof.Machine

theorem jThen_kept {α β : Type} {s0 : State} (r : State × Except JErr α) (f : State → α → State × Except JErr β)
    (h0 : Kept s0 r.1) (hf : ∀ t a, Kept s0 t → Kept s0 (f t a).1) : Kept s0 (jThen r f).1 := by
  unfold jThen
  split
  · exact h0
  · exact hf _ _ h0

theorem jMap_kept {α β : Type} {s0 s : State} (f : State → α → State × Except JErr β) (l : List α)
    (hf : ∀ t a, Kept s0 t → Kept s0 (f t a).1) (h0 : Kept s0 s) : Kept s0 (jMap f l s).1 := by
  induction l generalizing s with
  | nil => exact h0
  | cons a r ih => exact jThen_kept _ _ (hf _ _ h0) (fun t b ht => jThen_kept _ _ (ih ht) (fun _ _ h => h))

theorem jFold_kept {α β : Type} {s0 s : State} (f : State → β → α → State × Except JErr β) (l : List α) (b : β)
    (hf : ∀ t b a, Kept s0 t → Kept s0 (f t b a).1) (h0 : Kept s0 s) : Kept s0 (jFold f l b s).1 := by
  induction l generalizing s b with
  | nil => exact h0
  | cons a r ih => exact jThen_kept _ _ (hf _ _ _ h0) (fun t b ht => ih b ht)

theorem jBytes_kept {s0 s : State} (j : Job) (agent a len : Nat) (h0 : Kept s0 s) :
    Kept s0 (jBytes s j agent a len).1 := by
  unfold jBytes
  repeat' (first
    | with_reducible assumption
    | with_reducible apply Kept.ite
    | with_reducible apply Kept.fstIte
    | with_reducible refine Kept.foldl ?_ (fun _ _ _ => ?_)
    | with_reducible apply jRead_kept
    | (refine Kept.fst (by with_reducible assumption) ?_)
    | split
    | fail_if_no_progress (with_reducible refine Kept.lit rfl rfl ?_)
    | (lift_lets -underBinder; intro x; first | (refine Kept.cut (s0 := s0) (s1 := x) ?_ (fun _ => ?_); on_goal 1 => unfold x) | skip))

theorem readSurf_kept {s0 s : State} (j : Job) (agent a : Nat) (h0 : Kept s0 s) :
    Kept s0 (readSurf s j agent a).1 := by
  unfold readSurf
  repeat' (first
    | with_reducible assumption
    | with_reducible apply Kept.ite
    | with_reducible apply Kept.fstIte
    | with_reducible refine Kept.foldl ?_ (fun _ _ _ => ?_)
    | with_reducible apply jRead_kept
    | (refine Kept.fst (by with_reducible assumption) ?_)
    | split
    | fail_if_no_progress (with_reducible refine Kept.lit rfl rfl ?_)
    | (lift_lets -underBinder; intro x; first | (refine Kept.cut (s0 := s0) (s1 := x) ?_ (fun _ => ?_); on_goal 1 => unfold x) | skip))

theorem readBlock_kept {s0 s : State} (j : Job) (agent : Nat) (f : KerfSurf) (bx by_ : Nat) (h0 : Kept s0 s) :
    Kept s0 (readBlock s j agent f bx by_).1 := by
  unfold readBlock
  have h1 := kerfReadBlock_kept (jReader j agent) f bx by_ (fun _ _ _ h => jRead_kept _ _ _ _ h) h0
  split <;> exact Kept.fst (by assumption) h1

theorem readPixel_kept {s0 s : State} (j : Job) (agent : Nat) (f : Surf) (x y : Nat) (h0 : Kept s0 s) :
    Kept s0 (readPixel s j agent f x y).1 := by
  unfold readPixel
  repeat' (first
    | with_reducible assumption
    | with_reducible apply Kept.ite
    | with_reducible apply Kept.fstIte
    | with_reducible refine Kept.foldl ?_ (fun _ _ _ => ?_)
    | with_reducible apply jRead_kept
    | with_reducible apply readBlock_kept
    | (refine Kept.fst (by with_reducible assumption) ?_)
    | split
    | fail_if_no_progress (with_reducible refine Kept.lit rfl rfl ?_)
    | (lift_lets -underBinder; intro x; first | (refine Kept.cut (s0 := s0) (s1 := x) ?_ (fun _ => ?_); on_goal 1 => unfold x) | skip))

end Sys2Proof.Machine
end

