-- ==== Sys2Proof/Laws/KeptShade.lean ====
section
/-!
SUPPORT. Laws/KeptShade.lean: the operations of Machine/Shade.lean keep what `Kept` says.
-/
set_option linter.unusedTactic false
set_option linter.unreachableTactic false
set_option linter.unusedVariables false

namespace Sys2Proof.Machine

theorem readBind_kept {s0 s : State} (v : ShEnv) (set binding : Nat) (h0 : Kept s0 s) :
    Kept s0 (readBind s v set binding).1 := by
  unfold readBind
  try lift_lets -underBinder
  repeat' (first
    | (intro x; first | (refine Kept.cut (s0 := s0) (s1 := x) ?_ (fun _ => ?_); on_goal 1 => unfold x) | skip)
    | with_reducible assumption
    | with_reducible apply Kept.ite
    | with_reducible apply Kept.fstIte
    | with_reducible refine Kept.foldl ?_ (fun _ _ _ => ?_)
    | with_reducible apply jRead_kept
    | (refine Kept.fst (by with_reducible assumption) ?_)
    | split
    | fail_if_no_progress (with_reducible refine Kept.lit rfl rfl ?_)
    | (lift_lets -underBinder; intro x; first | (refine Kept.cut (s0 := s0) (s1 := x) ?_ (fun _ => ?_); on_goal 1 => unfold x) | skip))

theorem bufRead_kept {s0 s : State} (v : ShEnv) (type set binding off len : Nat) (h0 : Kept s0 s) :
    Kept s0 (bufRead s v type set binding off len).1 := by
  unfold bufRead
  try lift_lets -underBinder
  repeat' (first
    | (intro x; first | (refine Kept.cut (s0 := s0) (s1 := x) ?_ (fun _ => ?_); on_goal 1 => unfold x) | skip)
    | with_reducible assumption
    | with_reducible apply Kept.ite
    | with_reducible apply Kept.fstIte
    | with_reducible refine Kept.foldl ?_ (fun _ _ _ => ?_)
    | with_reducible apply jRead_kept
    | with_reducible apply readBind_kept
    | (refine Kept.fst (by with_reducible assumption) ?_)
    | split
    | fail_if_no_progress (with_reducible refine Kept.lit rfl rfl ?_)
    | (lift_lets -underBinder; intro x; first | (refine Kept.cut (s0 := s0) (s1 := x) ?_ (fun _ => ?_); on_goal 1 => unfold x) | skip))

theorem bufWrite_kept {s0 s : State} (v : ShEnv) (set binding off : Nat) (bytes : List Nat) (h0 : Kept s0 s) :
    Kept s0 (bufWrite s v set binding off bytes).1 := by
  unfold bufWrite
  try lift_lets -underBinder
  repeat' (first
    | (intro x; first | (refine Kept.cut (s0 := s0) (s1 := x) ?_ (fun _ => ?_); on_goal 1 => unfold x) | skip)
    | with_reducible assumption
    | with_reducible apply Kept.ite
    | with_reducible apply Kept.fstIte
    | with_reducible refine Kept.foldl ?_ (fun _ _ _ => ?_)
    | with_reducible apply jWrite_kept
    | with_reducible apply readBind_kept
    | (refine Kept.fst (by with_reducible assumption) ?_)
    | split
    | fail_if_no_progress (with_reducible refine Kept.lit rfl rfl ?_)
    | (lift_lets -underBinder; intro x; first | (refine Kept.cut (s0 := s0) (s1 := x) ?_ (fun _ => ?_); on_goal 1 => unfold x) | skip))

theorem texRead_kept {s0 s : State} (v : ShEnv) (set binding : Nat) (x y : Int) (h0 : Kept s0 s) :
    Kept s0 (texRead s v set binding x y).1 := by
  unfold texRead
  repeat' (first
    | with_reducible assumption
    | with_reducible apply Kept.ite
    | with_reducible apply Kept.fstIte
    | with_reducible refine Kept.foldl ?_ (fun _ _ _ => ?_)
    | with_reducible apply readSurf_kept
    | with_reducible apply readPixel_kept
    | with_reducible apply readBind_kept
    | (refine Kept.fst (by with_reducible assumption) ?_)
    | split
    | fail_if_no_progress (with_reducible refine Kept.lit rfl rfl ?_)
    | (lift_lets -underBinder; intro x; first | (refine Kept.cut (s0 := s0) (s1 := x) ?_ (fun _ => ?_); on_goal 1 => unfold x) | skip))

theorem imgSurf_kept {s0 s : State} (v : ShEnv) (set binding : Nat) (h0 : Kept s0 s) :
    Kept s0 (imgSurf s v set binding).1 := by
  unfold imgSurf
  repeat' (first
    | with_reducible assumption
    | with_reducible apply Kept.ite
    | with_reducible apply Kept.fstIte
    | with_reducible refine Kept.foldl ?_ (fun _ _ _ => ?_)
    | with_reducible apply readSurf_kept
    | with_reducible apply readBind_kept
    | (refine Kept.fst (by with_reducible assumption) ?_)
    | split
    | fail_if_no_progress (with_reducible refine Kept.lit rfl rfl ?_)
    | (lift_lets -underBinder; intro x; first | (refine Kept.cut (s0 := s0) (s1 := x) ?_ (fun _ => ?_); on_goal 1 => unfold x) | skip))

theorem imgRead_kept {s0 s : State} (v : ShEnv) (set binding x y : Nat) (h0 : Kept s0 s) :
    Kept s0 (imgRead s v set binding x y).1 := by
  unfold imgRead
  repeat' (first
    | with_reducible assumption
    | with_reducible apply Kept.ite
    | with_reducible apply Kept.fstIte
    | with_reducible refine Kept.foldl ?_ (fun _ _ _ => ?_)
    | with_reducible apply readPixel_kept
    | with_reducible apply imgSurf_kept
    | (refine Kept.fst (by with_reducible assumption) ?_)
    | split
    | fail_if_no_progress (with_reducible refine Kept.lit rfl rfl ?_)
    | (lift_lets -underBinder; intro x; first | (refine Kept.cut (s0 := s0) (s1 := x) ?_ (fun _ => ?_); on_goal 1 => unfold x) | skip))

theorem imgWrite_kept {s0 s : State} (v : ShEnv) (set binding x y : Nat) (bytes : List Nat) (h0 : Kept s0 s) :
    Kept s0 (imgWrite s v set binding x y bytes).1 := by
  unfold imgWrite
  repeat' (first
    | with_reducible assumption
    | with_reducible apply Kept.ite
    | with_reducible apply Kept.fstIte
    | with_reducible refine Kept.foldl ?_ (fun _ _ _ => ?_)
    | with_reducible apply jWrite_kept
    | with_reducible apply imgSurf_kept
    | (refine Kept.fst (by with_reducible assumption) ?_)
    | split
    | fail_if_no_progress (with_reducible refine Kept.lit rfl rfl ?_)
    | (lift_lets -underBinder; intro x; first | (refine Kept.cut (s0 := s0) (s1 := x) ?_ (fun _ => ?_); on_goal 1 => unfold x) | skip))

theorem imgQuery_kept {s0 s : State} (v : ShEnv) (set binding : Nat) (h0 : Kept s0 s) :
    Kept s0 (imgQuery s v set binding).1 := by
  unfold imgQuery
  repeat' (first
    | with_reducible assumption
    | with_reducible apply Kept.ite
    | with_reducible apply Kept.fstIte
    | with_reducible refine Kept.foldl ?_ (fun _ _ _ => ?_)
    | with_reducible apply readSurf_kept
    | with_reducible apply readBind_kept
    | (refine Kept.fst (by with_reducible assumption) ?_)
    | split
    | fail_if_no_progress (with_reducible refine Kept.lit rfl rfl ?_)
    | (lift_lets -underBinder; intro x; first | (refine Kept.cut (s0 := s0) (s1 := x) ?_ (fun _ => ?_); on_goal 1 => unfold x) | skip))

theorem shAct_kept {s0 s : State} (v : ShEnv) (a : ShAct) (h0 : Kept s0 s) : Kept s0 (shAct s v a).1 := by
  unfold shAct
  repeat' (first
    | with_reducible assumption
    | with_reducible apply Kept.ite
    | with_reducible apply Kept.fstIte
    | with_reducible refine Kept.foldl ?_ (fun _ _ _ => ?_)
    | with_reducible apply jRead_kept
    | with_reducible apply jWrite_kept
    | with_reducible apply bufRead_kept
    | with_reducible apply bufWrite_kept
    | with_reducible apply texRead_kept
    | with_reducible apply imgRead_kept
    | with_reducible apply imgWrite_kept
    | with_reducible apply imgQuery_kept
    | (refine Kept.fst (by with_reducible assumption) ?_)
    | split
    | fail_if_no_progress (with_reducible refine Kept.lit rfl rfl ?_)
    | (lift_lets -underBinder; intro x; first | (refine Kept.cut (s0 := s0) (s1 := x) ?_ (fun _ => ?_); on_goal 1 => unfold x) | skip))

theorem shRun_kept {s0 s : State} (v : ShEnv) (bytes : List Nat) (entry : Nat) (inputs : List Nat) (n : Nat)
    (ans : List (List Nat)) (h0 : Kept s0 s) : Kept s0 (shRun v bytes entry inputs n ans s).1 := by
  induction n generalizing s ans
  case zero => exact h0
  rename_i k ih
  unfold shRun
  repeat' (first
    | with_reducible assumption
    | with_reducible apply Kept.ite
    | with_reducible apply Kept.fstIte
    | with_reducible refine Kept.foldl ?_ (fun _ _ _ => ?_)
    | with_reducible apply ih
    | with_reducible apply shAct_kept
    | (refine Kept.fst (by with_reducible assumption) ?_)
    | split
    | fail_if_no_progress (with_reducible refine Kept.lit rfl rfl ?_)
    | (lift_lets -underBinder; intro x; first | (refine Kept.cut (s0 := s0) (s1 := x) ?_ (fun _ => ?_); on_goal 1 => unfold x) | skip))

theorem runShader_kept {s0 s : State} (v : ShEnv) (bytes : List Nat) (entry : Nat) (inputs : List Nat) (h0 : Kept s0 s) :
    Kept s0 (runShader s v bytes entry inputs).1 := by
  unfold runShader
  repeat' (first
    | with_reducible assumption
    | with_reducible apply Kept.ite
    | with_reducible apply Kept.fstIte
    | with_reducible refine Kept.foldl ?_ (fun _ _ _ => ?_)
    | with_reducible apply shRun_kept
    | (refine Kept.fst (by with_reducible assumption) ?_)
    | split
    | fail_if_no_progress (with_reducible refine Kept.lit rfl rfl ?_)
    | (lift_lets -underBinder; intro x; first | (refine Kept.cut (s0 := s0) (s1 := x) ?_ (fun _ => ?_); on_goal 1 => unfold x) | skip))

end Sys2Proof.Machine
end

