-- ==== Sys2Proof/Laws/KeptGeom.lean ====
section
/-!
SUPPORT. Laws/KeptGeom.lean: the operations of Machine/Geom.lean keep what `Kept` says.
-/
set_option linter.unusedTactic false
set_option linter.unreachableTactic false
set_option linter.unusedVariables false

namespace Sys2Proof.Machine

theorem readAttach_kept {s0 s : State} (j : Job) (rp : List Nat) (samples k : Nat) (h0 : Kept s0 s) :
    Kept s0 (readAttach s j rp samples k).1 := by
  unfold readAttach
  try lift_lets -underBinder
  repeat' (first
    | (intro x; first | (refine Kept.cut (s0 := s0) (s1 := x) ?_ (fun _ => ?_); on_goal 1 => unfold x) | skip)
    | with_reducible assumption
    | with_reducible apply Kept.ite
    | with_reducible apply Kept.fstIte
    | with_reducible refine Kept.foldl ?_ (fun _ _ _ => ?_)
    | with_reducible refine jThen_kept _ _ ?_ (fun _ _ _ => ?_)
    | with_reducible apply readSurf_kept
    | (refine Kept.fst (by with_reducible assumption) ?_)
    | split
    | fail_if_no_progress (with_reducible refine Kept.lit rfl rfl ?_)
    | (lift_lets -underBinder; intro x; first | (refine Kept.cut (s0 := s0) (s1 := x) ?_ (fun _ => ?_); on_goal 1 => unfold x) | skip))

theorem readPass_kept {s0 s : State} (j : Job) (h0 : Kept s0 s) :
    Kept s0 (readPass s j).1 := by
  unfold readPass
  try lift_lets -underBinder
  repeat' (first
    | (intro x; first | (refine Kept.cut (s0 := s0) (s1 := x) ?_ (fun _ => ?_); on_goal 1 => unfold x) | skip)
    | with_reducible assumption
    | with_reducible apply Kept.ite
    | with_reducible apply Kept.fstIte
    | with_reducible refine Kept.foldl ?_ (fun _ _ _ => ?_)
    | with_reducible refine jThen_kept _ _ ?_ (fun _ _ _ => ?_)
    | with_reducible refine jMap_kept _ _ (fun _ _ _ => ?_) ?_
    | with_reducible apply jBytes_kept
    | with_reducible apply readAttach_kept
    | (refine Kept.fst (by with_reducible assumption) ?_)
    | split
    | fail_if_no_progress (with_reducible refine Kept.lit rfl rfl ?_)
    | (lift_lets -underBinder; intro x; first | (refine Kept.cut (s0 := s0) (s1 := x) ?_ (fun _ => ?_); on_goal 1 => unfold x) | skip))

theorem takeBlock_kept {s0 s : State} (j : Job) (g : Geo) (n : Nat) (h0 : Kept s0 s) :
    Kept s0 (takeBlock s j g n).1 := by
  unfold takeBlock
  try lift_lets -underBinder
  repeat' (first
    | (intro x; first | (refine Kept.cut (s0 := s0) (s1 := x) ?_ (fun _ => ?_); on_goal 1 => unfold x) | skip)
    | with_reducible assumption
    | with_reducible apply Kept.ite
    | with_reducible apply Kept.fstIte
    | with_reducible refine Kept.foldl ?_ (fun _ _ _ => ?_)
    | with_reducible refine jThen_kept _ _ ?_ (fun _ _ _ => ?_)
    | with_reducible apply jBytes_kept
    | (refine Kept.fst (by with_reducible assumption) ?_)
    | split
    | fail_if_no_progress (with_reducible refine Kept.lit rfl rfl ?_)
    | (lift_lets -underBinder; intro x; first | (refine Kept.cut (s0 := s0) (s1 := x) ?_ (fun _ => ?_); on_goal 1 => unfold x) | skip))

theorem readAttr_kept {s0 s : State} (j : Job) (b : List Nat) (vertex inst a : Nat) (h0 : Kept s0 s) :
    Kept s0 (readAttr s j b vertex inst a).1 := by
  unfold readAttr
  try lift_lets -underBinder
  repeat' (first
    | (intro x; first | (refine Kept.cut (s0 := s0) (s1 := x) ?_ (fun _ => ?_); on_goal 1 => unfold x) | skip)
    | with_reducible assumption
    | with_reducible apply Kept.ite
    | with_reducible apply Kept.fstIte
    | with_reducible refine Kept.foldl ?_ (fun _ _ _ => ?_)
    | with_reducible refine jThen_kept _ _ ?_ (fun _ _ _ => ?_)
    | with_reducible apply jBytes_kept
    | (refine Kept.fst (by with_reducible assumption) ?_)
    | split
    | fail_if_no_progress (with_reducible refine Kept.lit rfl rfl ?_)
    | (lift_lets -underBinder; intro x; first | (refine Kept.cut (s0 := s0) (s1 := x) ?_ (fun _ => ?_); on_goal 1 => unfold x) | skip))

theorem readIndex_kept {s0 s : State} (j : Job) (d : List Nat) (n : Nat) (h0 : Kept s0 s) :
    Kept s0 (readIndex s j d n).1 := by
  unfold readIndex
  try lift_lets -underBinder
  repeat' (first
    | (intro x; first | (refine Kept.cut (s0 := s0) (s1 := x) ?_ (fun _ => ?_); on_goal 1 => unfold x) | skip)
    | with_reducible assumption
    | with_reducible apply Kept.ite
    | with_reducible apply Kept.fstIte
    | with_reducible refine Kept.foldl ?_ (fun _ _ _ => ?_)
    | with_reducible refine jThen_kept _ _ ?_ (fun _ _ _ => ?_)
    | with_reducible apply jBytes_kept
    | (refine Kept.fst (by with_reducible assumption) ?_)
    | split
    | fail_if_no_progress (with_reducible refine Kept.lit rfl rfl ?_)
    | (lift_lets -underBinder; intro x; first | (refine Kept.cut (s0 := s0) (s1 := x) ?_ (fun _ => ?_); on_goal 1 => unfold x) | skip))

theorem shadeVertex_kept {s0 s : State} (j : Job) (w : DrawSt) (index inst : Nat) (h0 : Kept s0 s) :
    Kept s0 (shadeVertex s j w index inst).1 := by
  unfold shadeVertex
  try lift_lets -underBinder
  repeat' (first
    | (intro x; first | (refine Kept.cut (s0 := s0) (s1 := x) ?_ (fun _ => ?_); on_goal 1 => unfold x) | skip)
    | with_reducible assumption
    | with_reducible apply Kept.ite
    | with_reducible apply Kept.fstIte
    | with_reducible refine Kept.foldl ?_ (fun _ _ _ => ?_)
    | with_reducible refine jThen_kept _ _ ?_ (fun _ _ _ => ?_)
    | with_reducible refine jMap_kept _ _ (fun _ _ _ => ?_) ?_
    | with_reducible apply runShader_kept
    | with_reducible apply readAttr_kept
    | (refine Kept.fst (by with_reducible assumption) ?_)
    | split
    | fail_if_no_progress (with_reducible refine Kept.lit rfl rfl ?_)
    | (lift_lets -underBinder; intro x; first | (refine Kept.cut (s0 := s0) (s1 := x) ?_ (fun _ => ?_); on_goal 1 => unfold x) | skip))

theorem drawVertex_kept {s0 s : State} (j : Job) (w : DrawSt) (inst n : Nat) (h0 : Kept s0 s) :
    Kept s0 (drawVertex s j w inst n).1 := by
  unfold drawVertex
  repeat' (first
    | with_reducible assumption
    | with_reducible apply Kept.ite
    | with_reducible apply Kept.fstIte
    | with_reducible refine Kept.foldl ?_ (fun _ _ _ => ?_)
    | with_reducible refine jThen_kept _ _ ?_ (fun _ _ _ => ?_)
    | with_reducible apply readIndex_kept
    | with_reducible apply shadeVertex_kept
    | (refine Kept.fst (by with_reducible assumption) ?_)
    | split
    | fail_if_no_progress (with_reducible refine Kept.lit rfl rfl ?_)
    | (lift_lets -underBinder; intro x; first | (refine Kept.cut (s0 := s0) (s1 := x) ?_ (fun _ => ?_); on_goal 1 => unfold x) | skip))

theorem drawInstance_kept {s0 s : State} (j : Job) (w : DrawSt) (st : Nat) (g : Geo) (inst : Nat) (h0 : Kept s0 s) :
    Kept s0 (drawInstance s j w st g inst).1 := by
  unfold drawInstance
  try lift_lets -underBinder
  repeat' (first
    | (intro x; first | (refine Kept.cut (s0 := s0) (s1 := x) ?_ (fun _ => ?_); on_goal 1 => unfold x) | skip)
    | with_reducible assumption
    | with_reducible apply Kept.ite
    | with_reducible apply Kept.fstIte
    | with_reducible refine Kept.foldl ?_ (fun _ _ _ => ?_)
    | with_reducible refine jThen_kept _ _ ?_ (fun _ _ _ => ?_)
    | with_reducible refine jMap_kept _ _ (fun _ _ _ => ?_) ?_
    | with_reducible apply drawVertex_kept
    | (refine Kept.fst (by with_reducible assumption) ?_)
    | split
    | fail_if_no_progress (with_reducible refine Kept.lit rfl rfl ?_)
    | (lift_lets -underBinder; intro x; first | (refine Kept.cut (s0 := s0) (s1 := x) ?_ (fun _ => ?_); on_goal 1 => unfold x) | skip))

theorem drawEntry_kept {s0 s : State} (j : Job) (g : Geo) (n : Nat) (h0 : Kept s0 s) :
    Kept s0 (drawEntry s j g n).1 := by
  unfold drawEntry
  try lift_lets -underBinder
  repeat' (first
    | (intro x; first | (refine Kept.cut (s0 := s0) (s1 := x) ?_ (fun _ => ?_); on_goal 1 => unfold x) | skip)
    | with_reducible assumption
    | with_reducible apply Kept.ite
    | with_reducible apply Kept.fstIte
    | with_reducible refine Kept.foldl ?_ (fun _ _ _ => ?_)
    | with_reducible refine jThen_kept _ _ ?_ (fun _ _ _ => ?_)
    | with_reducible refine jFold_kept _ _ _ (fun _ _ _ _ => ?_) ?_
    | with_reducible apply jBytes_kept
    | with_reducible apply takeBlock_kept
    | with_reducible apply drawInstance_kept
    | (refine Kept.fst (by with_reducible assumption) ?_)
    | split
    | fail_if_no_progress (with_reducible refine Kept.lit rfl rfl ?_)
    | (lift_lets -underBinder; intro x; first | (refine Kept.cut (s0 := s0) (s1 := x) ?_ (fun _ => ?_); on_goal 1 => unfold x) | skip))

theorem geometry_kept {s0 s : State} (j : Job) (h0 : Kept s0 s) :
    Kept s0 (geometry s j).1 := by
  unfold geometry
  repeat' (first
    | with_reducible assumption
    | with_reducible apply Kept.ite
    | with_reducible apply Kept.fstIte
    | with_reducible refine Kept.foldl ?_ (fun _ _ _ => ?_)
    | with_reducible refine jFold_kept _ _ _ (fun _ _ _ _ => ?_) ?_
    | with_reducible apply drawEntry_kept
    | (refine Kept.fst (by with_reducible assumption) ?_)
    | split
    | fail_if_no_progress (with_reducible refine Kept.lit rfl rfl ?_)
    | (lift_lets -underBinder; intro x; first | (refine Kept.cut (s0 := s0) (s1 := x) ?_ (fun _ => ?_); on_goal 1 => unfold x) | skip))

end Sys2Proof.Machine
end

