-- ==== Sys2Proof/Laws/KeptTile.lean ====
section
/-!
SUPPORT. Laws/KeptTile.lean: the operations of Machine/Tile.lean keep what `Kept` says.
-/
set_option linter.unusedTactic false
set_option linter.unreachableTactic false
set_option linter.unusedVariables false

namespace Sys2Proof.Machine

theorem loadPlane_kept {s0 s : State} (j : Job) (agent t : Nat) (a : Attach) (k : Nat) (h0 : Kept s0 s) :
    Kept s0 (loadPlane s j agent t a k).1 := by
  unfold loadPlane
  repeat' (first
    | with_reducible assumption
    | with_reducible apply Kept.ite
    | with_reducible apply Kept.fstIte
    | with_reducible refine Kept.foldl ?_ (fun _ _ _ => ?_)
    | with_reducible refine jThen_kept _ _ ?_ (fun _ _ _ => ?_)
    | with_reducible refine jMap_kept _ _ (fun _ _ _ => ?_) ?_
    | with_reducible apply readBlock_kept
    | (refine Kept.fst (by with_reducible assumption) ?_)
    | split
    | fail_if_no_progress (with_reducible refine Kept.lit rfl rfl ?_)
    | (lift_lets -underBinder; intro x; first | (refine Kept.cut (s0 := s0) (s1 := x) ?_ (fun _ => ?_); on_goal 1 => unfold x) | skip))

theorem loadTile_kept {s0 s : State} (j : Job) (agent t : Nat) (h0 : Kept s0 s) :
    Kept s0 (loadTile s j agent t).1 := by
  unfold loadTile
  try lift_lets -underBinder
  repeat' (first
    | (intro x; first | (refine Kept.cut (s0 := s0) (s1 := x) ?_ (fun _ => ?_); on_goal 1 => unfold x) | skip)
    | with_reducible assumption
    | with_reducible apply Kept.ite
    | with_reducible apply Kept.fstIte
    | with_reducible refine Kept.foldl ?_ (fun _ _ _ => ?_)
    | with_reducible apply raiseFault_kept
    | with_reducible apply jRead_kept
    | with_reducible refine jMap_kept _ _ (fun _ _ _ => ?_) ?_
    | with_reducible apply loadPlane_kept
    | (refine Kept.fst (by with_reducible assumption) ?_)
    | split
    | fail_if_no_progress (with_reducible refine Kept.lit rfl rfl ?_)
    | (lift_lets -underBinder; intro x; first | (refine Kept.cut (s0 := s0) (s1 := x) ?_ (fun _ => ?_); on_goal 1 => unfold x) | skip))

theorem shadeGroup_kept {s0 s : State} (v : ShEnv) (q : PixelAt) (m : TileMem) (ks : List Nat) (point : Int × Int) (sample : Nat) (h0 : Kept s0 s) :
    Kept s0 (shadeGroup s v q m ks point sample).1 := by
  unfold shadeGroup
  try lift_lets -underBinder
  repeat' (first
    | (intro x; first | (refine Kept.cut (s0 := s0) (s1 := x) ?_ (fun _ => ?_); on_goal 1 => unfold x) | skip)
    | with_reducible assumption
    | with_reducible apply Kept.ite
    | with_reducible apply Kept.fstIte
    | with_reducible refine Kept.foldl ?_ (fun _ _ _ => ?_)
    | with_reducible refine jThen_kept _ _ ?_ (fun _ _ _ => ?_)
    | with_reducible apply runShader_kept
    | (refine Kept.fst (by with_reducible assumption) ?_)
    | split
    | fail_if_no_progress (with_reducible refine Kept.lit rfl rfl ?_)
    | (lift_lets -underBinder; intro x; first | (refine Kept.cut (s0 := s0) (s1 := x) ?_ (fun _ => ?_); on_goal 1 => unfold x) | skip))

theorem shadePixel_kept {s0 s : State} (v : ShEnv) (q : PixelAt) (m : TileMem) (h0 : Kept s0 s) :
    Kept s0 (shadePixel s v q m).1 := by
  unfold shadePixel
  try lift_lets -underBinder
  repeat' (first
    | (intro x; first | (refine Kept.cut (s0 := s0) (s1 := x) ?_ (fun _ => ?_); on_goal 1 => unfold x) | skip)
    | with_reducible assumption
    | with_reducible apply Kept.ite
    | with_reducible apply Kept.fstIte
    | with_reducible refine Kept.foldl ?_ (fun _ _ _ => ?_)
    | with_reducible refine jFold_kept _ _ _ (fun _ _ _ _ => ?_) ?_
    | with_reducible apply shadeGroup_kept
    | (refine Kept.fst (by with_reducible assumption) ?_)
    | split
    | fail_if_no_progress (with_reducible refine Kept.lit rfl rfl ?_)
    | (lift_lets -underBinder; intro x; first | (refine Kept.cut (s0 := s0) (s1 := x) ?_ (fun _ => ?_); on_goal 1 => unfold x) | skip))

theorem shadePrim_kept {s0 s : State} (j : Job) (bay t : Nat) (m : TileMem) (p : Prim) (h0 : Kept s0 s) :
    Kept s0 (shadePrim s j bay t m p).1 := by
  unfold shadePrim
  try lift_lets -underBinder
  repeat' (first
    | (intro x; first | (refine Kept.cut (s0 := s0) (s1 := x) ?_ (fun _ => ?_); on_goal 1 => unfold x) | skip)
    | with_reducible assumption
    | with_reducible apply Kept.ite
    | with_reducible apply Kept.fstIte
    | with_reducible refine Kept.foldl ?_ (fun _ _ _ => ?_)
    | with_reducible refine jFold_kept _ _ _ (fun _ _ _ _ => ?_) ?_
    | with_reducible apply shadePixel_kept
    | (refine Kept.fst (by with_reducible assumption) ?_)
    | split
    | fail_if_no_progress (with_reducible refine Kept.lit rfl rfl ?_)
    | (lift_lets -underBinder; intro x; first | (refine Kept.cut (s0 := s0) (s1 := x) ?_ (fun _ => ?_); on_goal 1 => unfold x) | skip))

theorem storePlane_kept {s0 s : State} (j : Job) (agent t : Nat) (a : Attach) (plane : Nat) (words : List Nat)
    (h0 : Kept s0 s) : Kept s0 (storePlane s j agent t a plane words).1 := by
  unfold storePlane
  refine jFold_kept _ _ _ (fun t' _ k ht => ?_) h0
  split
  · exact ht
  · have h1 := fun f c bx by_ px =>
      kerfWriteBlock_kept (jWriter j agent) f c bx by_ px (fun _ _ _ h => jWrite_kept _ _ _ _ h) ht
    split <;> exact Kept.fst (by assumption) (h1 _ _ _ _ _)

theorem storeAttach_kept {s0 s : State} (j : Job) (agent t : Nat) (a : Attach) (planes : List (List Nat)) (h0 : Kept s0 s) :
    Kept s0 (storeAttach s j agent t a planes).1 := by
  unfold storeAttach
  repeat' (first
    | with_reducible assumption
    | with_reducible apply Kept.ite
    | with_reducible apply Kept.fstIte
    | with_reducible refine Kept.foldl ?_ (fun _ _ _ => ?_)
    | with_reducible refine jFold_kept _ _ _ (fun _ _ _ _ => ?_) ?_
    | with_reducible apply storePlane_kept
    | (refine Kept.fst (by with_reducible assumption) ?_)
    | split
    | fail_if_no_progress (with_reducible refine Kept.lit rfl rfl ?_)
    | (lift_lets -underBinder; intro x; first | (refine Kept.cut (s0 := s0) (s1 := x) ?_ (fun _ => ?_); on_goal 1 => unfold x) | skip))

theorem storeTile_kept {s0 s : State} (j : Job) (agent t : Nat) (m : TileMem) (h0 : Kept s0 s) :
    Kept s0 (storeTile s j agent t m).1 := by
  unfold storeTile
  try lift_lets -underBinder
  repeat' (first
    | (intro x; first | (refine Kept.cut (s0 := s0) (s1 := x) ?_ (fun _ => ?_); on_goal 1 => unfold x) | skip)
    | with_reducible assumption
    | with_reducible apply Kept.ite
    | with_reducible apply Kept.fstIte
    | with_reducible refine Kept.foldl ?_ (fun _ _ _ => ?_)
    | with_reducible apply jWrite_kept
    | with_reducible refine jFold_kept _ _ _ (fun _ _ _ _ => ?_) ?_
    | with_reducible apply storeAttach_kept
    | (refine Kept.fst (by with_reducible assumption) ?_)
    | split
    | fail_if_no_progress (with_reducible refine Kept.lit rfl rfl ?_)
    | (lift_lets -underBinder; intro x; first | (refine Kept.cut (s0 := s0) (s1 := x) ?_ (fun _ => ?_); on_goal 1 => unfold x) | skip))

theorem renderTile_kept {s0 s : State} (j : Job) (bay t : Nat) (h0 : Kept s0 s) :
    Kept s0 (renderTile s j bay t).1 := by
  unfold renderTile
  try lift_lets -underBinder
  repeat' (first
    | (intro x; first | (refine Kept.cut (s0 := s0) (s1 := x) ?_ (fun _ => ?_); on_goal 1 => unfold x) | skip)
    | with_reducible assumption
    | with_reducible apply Kept.ite
    | with_reducible apply Kept.fstIte
    | with_reducible refine Kept.foldl ?_ (fun _ _ _ => ?_)
    | with_reducible refine jThen_kept _ _ ?_ (fun _ _ _ => ?_)
    | with_reducible refine jFold_kept _ _ _ (fun _ _ _ _ => ?_) ?_
    | with_reducible apply loadTile_kept
    | with_reducible apply shadePrim_kept
    | with_reducible apply storeTile_kept
    | (refine Kept.fst (by with_reducible assumption) ?_)
    | split
    | fail_if_no_progress (with_reducible refine Kept.lit rfl rfl ?_)
    | (lift_lets -underBinder; intro x; first | (refine Kept.cut (s0 := s0) (s1 := x) ?_ (fun _ => ?_); on_goal 1 => unfold x) | skip))

theorem tileDone_kept {s0 s : State} (i : Nat) (j : Job) (t : Nat) (h0 : Kept s0 s) :
    Kept s0 (tileDone s i j t) := by
  unfold tileDone
  try lift_lets -underBinder
  repeat' (first
    | (intro x; first | (refine Kept.cut (s0 := s0) (s1 := x) ?_ (fun _ => ?_); on_goal 1 => unfold x) | skip)
    | with_reducible assumption
    | with_reducible apply Kept.ite
    | with_reducible apply Kept.fstIte
    | with_reducible refine Kept.foldl ?_ (fun _ _ _ => ?_)
    | with_reducible apply State.setJob_kept
    | with_reducible apply endJobAs_kept
    | (refine Kept.fst (by with_reducible assumption) ?_)
    | split
    | fail_if_no_progress (with_reducible refine Kept.lit rfl rfl ?_)
    | (lift_lets -underBinder; intro x; first | (refine Kept.cut (s0 := s0) (s1 := x) ?_ (fun _ => ?_); on_goal 1 => unfold x) | skip))

end Sys2Proof.Machine
end

