-- ==== Sys2Proof/Laws/KeptCopyEng.lean ====
section
/-!
SUPPORT. Laws/KeptCopyEng.lean: the operations of Machine/CopyEng.lean keep what `Kept` says.
-/
set_option linter.unusedTactic false
set_option linter.unreachableTactic false
set_option linter.unusedVariables false

namespace Sys2Proof.Machine

theorem copyBlock_kept {s0 s : State} (j : Job) (f : Surf) (bx by_ : Nat) (h0 : Kept s0 s) :
    Kept s0 (copyBlock s j f bx by_).1 := by
  unfold copyBlock
  have h1 := kerfReadBlock_kept (jReader j copyAgent) (kerfSurf f 0 copySource) bx by_ (fun _ _ _ h => jRead_kept _ _ _ _ h) h0
  split <;> exact Kept.fst (by assumption) h1

theorem readRect_kept {s0 s : State} (j : Job) (f : Surf) (r : Rect) (h0 : Kept s0 s) :
    Kept s0 (readRect s j f r).1 := by
  unfold readRect
  try lift_lets -underBinder
  repeat' (first
    | (intro x; first | (refine Kept.cut (s0 := s0) (s1 := x) ?_ (fun _ => ?_); on_goal 1 => unfold x) | skip)
    | with_reducible assumption
    | with_reducible apply Kept.ite
    | with_reducible apply Kept.fstIte
    | with_reducible refine Kept.foldl ?_ (fun _ _ _ => ?_)
    | with_reducible refine jThen_kept _ _ ?_ (fun _ _ _ => ?_)
    | with_reducible refine jMap_kept _ _ (fun _ _ _ => ?_) ?_
    | with_reducible apply jBytes_kept
    | with_reducible apply copyBlock_kept
    | (refine Kept.fst (by with_reducible assumption) ?_)
    | split
    | fail_if_no_progress (with_reducible refine Kept.lit rfl rfl ?_)
    | (lift_lets -underBinder; intro x; first | (refine Kept.cut (s0 := s0) (s1 := x) ?_ (fun _ => ?_); on_goal 1 => unfold x) | skip))

theorem writeBlock_kept {s0 s : State} (j : Job) (f : Surf) (wr : Writer) (q : Rect) (bx by_ : Nat) (rows : List (List Nat)) (hwr : ∀ t a n, Kept s0 t → Kept s0 (wr t a n).1)(h0 : Kept s0 s) :
    Kept s0 (writeBlock s j f wr q bx by_ rows).1 := by
  unfold writeBlock
  try lift_lets -underBinder
  repeat' (first
    | (intro x; first | (refine Kept.cut (s0 := s0) (s1 := x) ?_ (fun _ => ?_); on_goal 1 => unfold x) | skip)
    | with_reducible assumption
    | with_reducible apply Kept.ite
    | with_reducible apply Kept.fstIte
    | with_reducible refine Kept.foldl ?_ (fun _ _ _ => ?_)
    | with_reducible apply hwr
    | with_reducible refine kerfWriteBlock_kept _ _ _ _ _ _ (fun _ _ _ _ => ?_) ?_
    | with_reducible refine jThen_kept _ _ ?_ (fun _ _ _ => ?_)
    | with_reducible refine jFold_kept _ _ _ (fun _ _ _ _ => ?_) ?_
    | with_reducible apply copyBlock_kept
    | (refine Kept.fst (by with_reducible assumption) ?_)
    | split
    | fail_if_no_progress (with_reducible refine Kept.lit rfl rfl ?_)
    | (lift_lets -underBinder; intro x; first | (refine Kept.cut (s0 := s0) (s1 := x) ?_ (fun _ => ?_); on_goal 1 => unfold x) | skip))

theorem writeRect_kept {s0 s : State} (j : Job) (f : Surf) (wr : Writer) (r : Rect)
    (src : State → Rect → State × Except JErr (List (List Nat)))
    (hwr : ∀ t a n, Kept s0 t → Kept s0 (wr t a n).1) (hsrc : ∀ t q, Kept s0 t → Kept s0 (src t q).1) (h0 : Kept s0 s) :
    Kept s0 (writeRect s j f wr r src).1 := by
  unfold writeRect
  split
  · exact h0
  · exact jFold_kept _ _ _ (fun t _ k ht => jThen_kept _ _ (hsrc _ _ ht) (fun u rows hu => writeBlock_kept _ _ _ _ _ _ _ hwr hu)) h0

theorem copyRun_kept {s0 s : State} (j : Job) (h0 : Kept s0 s) : Kept s0 (copyRun s j).1 := by
  unfold copyRun
  refine jThen_kept _ _ (readSurf_kept _ _ _ h0) (fun t f ht => jThen_kept _ _ (readSurf_kept _ _ _ ht) (fun u g hu => ?_))
  split
  · exact hu
  · refine writeRect_kept _ _ _ _ _ (fun _ _ _ h => ?_) (fun _ _ h => readRect_kept _ _ _ h) hu
    refine jWrite_kept _ _ _ _ ?_
    split
    · exact h
    · exact Kept.lit rfl rfl h

theorem fillRun_kept {s0 s : State} (j : Job) (h0 : Kept s0 s) : Kept s0 (fillRun s j).1 := by
  unfold fillRun
  refine jThen_kept _ _ (readSurf_kept _ _ _ h0) (fun t g ht => ?_)
  split
  · exact ht
  · exact writeRect_kept _ _ _ _ _ (fun _ _ _ h => jWrite_kept _ _ _ _ h) (fun _ _ h => h) ht

theorem copyJob_kept {s0 s : State} (i : Nat) (j : Job) (h0 : Kept s0 s) :
    Kept s0 (copyJob s i j) := by
  unfold copyJob
  repeat' (first
    | with_reducible assumption
    | with_reducible apply Kept.ite
    | with_reducible apply Kept.fstIte
    | with_reducible refine Kept.foldl ?_ (fun _ _ _ => ?_)
    | with_reducible apply endJobAs_kept
    | with_reducible apply copyRun_kept
    | with_reducible apply fillRun_kept
    | (refine Kept.fst (by with_reducible assumption) ?_)
    | split
    | fail_if_no_progress (with_reducible refine Kept.lit rfl rfl ?_)
    | (lift_lets -underBinder; intro x; first | (refine Kept.cut (s0 := s0) (s1 := x) ?_ (fun _ => ?_); on_goal 1 => unfold x) | skip))

theorem copyDispatch_kept {s0 s : State} (want : Option (Nat × Nat)) (h0 : Kept s0 s) :
    Kept s0 (copyDispatch s want) := by
  unfold copyDispatch
  repeat' (first
    | with_reducible assumption
    | with_reducible apply Kept.ite
    | with_reducible apply Kept.fstIte
    | with_reducible refine Kept.foldl ?_ (fun _ _ _ => ?_)
    | with_reducible refine offer_kept (by with_reducible assumption) ?_
    | with_reducible apply copyJob_kept
    | (refine Kept.fst (by with_reducible assumption) ?_)
    | split
    | fail_if_no_progress (with_reducible refine Kept.lit rfl rfl ?_)
    | (lift_lets -underBinder; intro x; first | (refine Kept.cut (s0 := s0) (s1 := x) ?_ (fun _ => ?_); on_goal 1 => unfold x) | skip))

end Sys2Proof.Machine
end

