-- ==== Sys2Proof/Laws/KeptSurvey.lean ====
section
/-!
SUPPORT. Laws/KeptSurvey.lean: the operations of Machine/Survey.lean keep what `Kept` says.
-/
set_option linter.unusedTactic false
set_option linter.unreachableTactic false
set_option linter.unusedVariables false

namespace Sys2Proof.Machine

theorem useManifest_kept {s0 s : State} (b : List Nat) (h0 : Kept s0 s) :
    Kept s0 (useManifest s b) := by
  unfold useManifest
  try lift_lets -underBinder
  repeat' (first
    | (intro x; first | (refine Kept.cut (s0 := s0) (s1 := x) ?_ (fun _ => ?_); on_goal 1 => unfold x) | skip)
    | with_reducible assumption
    | with_reducible apply Kept.ite
    | with_reducible apply Kept.fstIte
    | with_reducible refine Kept.foldl ?_ (fun _ _ _ => ?_)
    | with_reducible apply State.setPair_kept
    | (refine Kept.fst (by with_reducible assumption) ?_)
    | split
    | fail_if_no_progress (with_reducible refine Kept.lit rfl rfl ?_)
    | (lift_lets -underBinder; intro x; first | (refine Kept.cut (s0 := s0) (s1 := x) ?_ (fun _ => ?_); on_goal 1 => unfold x) | skip))

theorem configure_kept {s0 s : State} (h0 : Kept s0 s) :
    Kept s0 (configure s) := by
  unfold configure
  try lift_lets -underBinder
  repeat' (first
    | (intro x; first | (refine Kept.cut (s0 := s0) (s1 := x) ?_ (fun _ => ?_); on_goal 1 => unfold x) | skip)
    | with_reducible assumption
    | with_reducible apply Kept.ite
    | with_reducible apply Kept.fstIte
    | with_reducible refine Kept.foldl ?_ (fun _ _ _ => ?_)
    | with_reducible apply State.setPr_kept
    | with_reducible apply State.setPf_kept
    | with_reducible apply useManifest_kept
    | (refine Kept.fst (by with_reducible assumption) ?_)
    | split
    | fail_if_no_progress (with_reducible refine Kept.lit rfl rfl ?_)
    | (lift_lets -underBinder; intro x; first | (refine Kept.cut (s0 := s0) (s1 := x) ?_ (fun _ => ?_); on_goal 1 => unfold x) | skip))

theorem failPage_kept {s0 s : State} (p : Page) (h0 : Kept s0 s) :
    Kept s0 (failPage s p) := by
  unfold failPage
  repeat' (first
    | with_reducible assumption
    | with_reducible apply Kept.ite
    | with_reducible apply Kept.fstIte
    | with_reducible refine Kept.foldl ?_ (fun _ _ _ => ?_)
    | with_reducible apply State.setHf_kept
    | (refine Kept.fst (by with_reducible assumption) ?_)
    | split
    | fail_if_no_progress (with_reducible refine Kept.lit rfl rfl ?_)
    | (lift_lets -underBinder; intro x; first | (refine Kept.cut (s0 := s0) (s1 := x) ?_ (fun _ => ?_); on_goal 1 => unfold x) | skip))

theorem failBay_kept {s0 s : State} (b : Nat) (h0 : Kept s0 s) :
    Kept s0 (failBay s b) := by
  unfold failBay
  try lift_lets -underBinder
  repeat' (first
    | (intro x; first | (refine Kept.cut (s0 := s0) (s1 := x) ?_ (fun _ => ?_); on_goal 1 => unfold x) | skip)
    | with_reducible assumption
    | with_reducible apply Kept.ite
    | with_reducible apply Kept.fstIte
    | with_reducible refine Kept.foldl ?_ (fun _ _ _ => ?_)
    | with_reducible apply State.setPf_kept
    | with_reducible apply failPage_kept
    | (refine Kept.fst (by with_reducible assumption) ?_)
    | split
    | fail_if_no_progress (with_reducible refine Kept.lit rfl rfl ?_)
    | (lift_lets -underBinder; intro x; first | (refine Kept.cut (s0 := s0) (s1 := x) ?_ (fun _ => ?_); on_goal 1 => unfold x) | skip))

theorem logFailed_kept {s0 s : State} (u : TestUnit) (h0 : Kept s0 s) : Kept s0 (logFailed s u) := by
  unfold logFailed
  repeat' (first
    | with_reducible assumption
    | with_reducible apply Kept.ite
    | with_reducible apply Kept.fstIte
    | with_reducible refine Kept.foldl ?_ (fun _ _ _ => ?_)
    | with_reducible apply State.logAdd_kept
    | (refine Kept.fst (by with_reducible assumption) ?_)
    | split
    | fail_if_no_progress (with_reducible refine Kept.lit rfl rfl ?_)
    | (lift_lets -underBinder; intro x; first | (refine Kept.cut (s0 := s0) (s1 := x) ?_ (fun _ => ?_); on_goal 1 => unfold x) | skip))

theorem failUnit_kept {s0 s : State} (u : TestUnit) (h0 : Kept s0 s) : Kept s0 (failUnit s u) := by
  unfold failUnit
  repeat' (first
    | with_reducible assumption
    | with_reducible apply Kept.ite
    | with_reducible apply Kept.fstIte
    | with_reducible refine Kept.foldl ?_ (fun _ _ _ => ?_)
    | with_reducible apply failPage_kept
    | with_reducible apply failBay_kept
    | (refine Kept.fst (by with_reducible assumption) ?_)
    | split
    | fail_if_no_progress (with_reducible refine Kept.lit rfl rfl ?_)
    | (lift_lets -underBinder; intro x; first | (refine Kept.cut (s0 := s0) (s1 := x) ?_ (fun _ => ?_); on_goal 1 => unfold x) | skip))

theorem trainingReason_kept {s0 s : State} (h0 : Kept s0 s) :
    Kept s0 (trainingReason s) := by
  unfold trainingReason
  repeat' (first
    | with_reducible assumption
    | with_reducible apply Kept.ite
    | with_reducible apply Kept.fstIte
    | with_reducible refine Kept.foldl ?_ (fun _ _ _ => ?_)
    | with_reducible apply State.setHf_kept
    | (refine Kept.fst (by with_reducible assumption) ?_)
    | split
    | fail_if_no_progress (with_reducible refine Kept.lit rfl rfl ?_)
    | (lift_lets -underBinder; intro x; first | (refine Kept.cut (s0 := s0) (s1 := x) ?_ (fun _ => ?_); on_goal 1 => unfold x) | skip))

theorem fixMap_kept {s0 s : State} (h0 : Kept s0 s) :
    Kept s0 (fixMap s) := by
  unfold fixMap
  try lift_lets -underBinder
  repeat' (first
    | (intro x; first | (refine Kept.cut (s0 := s0) (s1 := x) ?_ (fun _ => ?_); on_goal 1 => unfold x) | skip)
    | with_reducible assumption
    | with_reducible apply Kept.ite
    | with_reducible apply Kept.fstIte
    | with_reducible refine Kept.foldl ?_ (fun _ _ _ => ?_)
    | with_reducible apply State.setPr_kept
    | with_reducible apply State.setPf_kept
    | (refine Kept.fst (by with_reducible assumption) ?_)
    | split
    | fail_if_no_progress (with_reducible refine Kept.lit rfl rfl ?_)
    | (lift_lets -underBinder; intro x; first | (refine Kept.cut (s0 := s0) (s1 := x) ?_ (fun _ => ?_); on_goal 1 => unfold x) | skip))

theorem restoreShims_kept {s0 s : State} (h0 : Kept s0 s) :
    Kept s0 (restoreShims s) := by
  unfold restoreShims
  try lift_lets -underBinder
  repeat' (first
    | (intro x; first | (refine Kept.cut (s0 := s0) (s1 := x) ?_ (fun _ => ?_); on_goal 1 => unfold x) | skip)
    | with_reducible assumption
    | with_reducible apply Kept.ite
    | with_reducible apply Kept.fstIte
    | with_reducible refine Kept.foldl ?_ (fun _ _ _ => ?_)
    | with_reducible apply State.setPr_kept
    | (refine Kept.fst (by with_reducible assumption) ?_)
    | split
    | fail_if_no_progress (with_reducible refine Kept.lit rfl rfl ?_)
    | (lift_lets -underBinder; intro x; first | (refine Kept.cut (s0 := s0) (s1 := x) ?_ (fun _ => ?_); on_goal 1 => unfold x) | skip))

theorem handMemory_kept {s0 s : State} (h0 : Kept s0 s) :
    Kept s0 (handMemory s) := by
  unfold handMemory
  try lift_lets -underBinder
  repeat' (first
    | (intro x; first | (refine Kept.cut (s0 := s0) (s1 := x) ?_ (fun _ => ?_); on_goal 1 => unfold x) | skip)
    | with_reducible assumption
    | with_reducible apply Kept.ite
    | with_reducible apply Kept.fstIte
    | with_reducible refine Kept.foldl ?_ (fun _ _ _ => ?_)
    | with_reducible apply State.setHf_kept
    | with_reducible apply State.setReady_kept
    | (refine Kept.fst (by with_reducible assumption) ?_)
    | split
    | fail_if_no_progress (with_reducible refine Kept.lit rfl rfl ?_)
    | (lift_lets -underBinder; intro x; first | (refine Kept.cut (s0 := s0) (s1 := x) ?_ (fun _ => ?_); on_goal 1 => unfold x) | skip))

theorem loadImage_kept {s0 s : State} (b : List Nat) (h0 : Kept s0 s) : Kept s0 (loadImage s b) := by
  unfold loadImage
  refine Kept.foldl ?_ (fun _ _ h => zeroRange_kept _ _ h)
  generalize (manifestOf b).measure = l
  suffices ∀ r : State × List Nat, Kept s0 r.1 → Kept s0 (l.foldl (fun (r : State × List Nat) (x : Nat × Nat) =>
      ((busWrite r.1 0x19 true x.1 (r.2.take x.2)).1, r.2.drop x.2)) r).1 from this (s, imgPayload b) h0
  induction l with
  | nil => exact fun r h => h
  | cons l ls ih => exact fun r h => ih _ (busWrite_kept _ _ _ _ h)

theorem loadHeartwood_kept {s0 s : State} (h0 : Kept s0 s) : Kept s0 (loadHeartwood s) := by
  unfold loadHeartwood
  generalize [activeBankOf s 1, otherBankOf s 1] = l
  have key : ∀ r : State × Bool, Kept s0 r.1 → Kept s0 (l.foldl (fun (r : State × Bool) (b : Nat) =>
      let (s, done) := r
      if done || s.surv.hwTried.contains b then r
      else
        let s := { s with surv := { s.surv with hwTried := s.surv.hwTried ++ [b] } }
        let bytes := bankBytes s 1 b
        if bankValid s 1 b && manifestOk s bytes then
          let s := loadImage (useManifest s bytes) bytes
          ({ s with cpx := { s.cpx with step := .measure } }, true)
        else (logImage s 1 2, false)) r).1 := by
    induction l with
    | nil => exact fun r h => h
    | cons b ls ih =>
      intro r h
      refine ih _ ?_
      obtain ⟨t, done⟩ := r
      dsimp only
      split
      · exact h
      · have h1 : Kept s0 { t with surv := { t.surv with hwTried := t.surv.hwTried ++ [b] } } := Kept.lit rfl rfl h
        split
        · exact Kept.lit rfl rfl (loadImage_kept _ (useManifest_kept _ h1))
        · exact logImage_kept _ _ h1
  have h1 := key (s, false) h0
  dsimp only at h1 ⊢
  split
  · exact h1
  · exact raiseFault_kept _ _ _ h1

theorem startSapwood_kept {s0 s : State} (h0 : Kept s0 s) :
    Kept s0 (startSapwood s) := by
  unfold startSapwood
  try lift_lets -underBinder
  repeat' (first
    | (intro x; first | (refine Kept.cut (s0 := s0) (s1 := x) ?_ (fun _ => ?_); on_goal 1 => unfold x) | skip)
    | with_reducible assumption
    | with_reducible apply Kept.ite
    | with_reducible apply Kept.fstIte
    | with_reducible refine Kept.foldl ?_ (fun _ _ _ => ?_)
    | with_reducible apply State.draw_kept
    | with_reducible apply State.setCore_kept
    | (refine Kept.fst (by with_reducible assumption) ?_)
    | (refine Kept.snd (by with_reducible assumption) ?_)
    | split
    | fail_if_no_progress (with_reducible refine Kept.lit rfl rfl ?_)
    | (lift_lets -underBinder; intro x; first | (refine Kept.cut (s0 := s0) (s1 := x) ?_ (fun _ => ?_); on_goal 1 => unfold x) | skip))

theorem loadSapwood_kept {s0 s : State} (h0 : Kept s0 s) : Kept s0 (loadSapwood s) := by
  unfold loadSapwood
  have note : ∀ (t : State) (comp : Nat), Kept s0 t → Kept s0 (match bootBank t comp with
      | none => logImage t comp 2
      | some b => if b = activeBankOf t comp then t else logImage t comp 1) := by
    intro t comp h
    split
    · exact logImage_kept _ _ h
    · split
      · exact h
      · exact logImage_kept _ _ h
  refine Kept.lit rfl rfl ?_
  have h1 := note _ 3 (note _ 2 h0)
  split
  · exact startSapwood_kept h1
  · exact h1

end Sys2Proof.Machine
end

