-- ==== Sys2Proof/Laws/KeptPower.lean ====
section
/-!
SUPPORT. Laws/KeptPower.lean: the operations of Machine/Power.lean keep what `Kept` says.
-/
set_option linter.unusedTactic false
set_option linter.unreachableTactic false
set_option linter.unusedVariables false

namespace Sys2Proof.Machine

theorem shedHeads_kept {s0 s : State} (h0 : Kept s0 s) :
    Kept s0 (shedHeads s) := by
  unfold shedHeads
  try lift_lets -underBinder
  repeat' (first
    | (intro x; first | (refine Kept.cut (s0 := s0) (s1 := x) ?_ (fun _ => ?_); on_goal 1 => unfold x) | skip)
    | with_reducible assumption
    | with_reducible apply Kept.ite
    | with_reducible apply Kept.fstIte
    | with_reducible refine Kept.foldl ?_ (fun _ _ _ => ?_)
    | with_reducible apply State.setHead_kept
    | with_reducible apply setLink_kept
    | with_reducible apply linkIdle_kept
    | with_reducible apply stopGenerator_kept
    | (refine Kept.fst (by with_reducible assumption) ?_)
    | split
    | fail_if_no_progress (with_reducible refine Kept.lit rfl rfl ?_)
    | (lift_lets -underBinder; intro x; first | (refine Kept.cut (s0 := s0) (s1 := x) ?_ (fun _ => ?_); on_goal 1 => unfold x) | skip))

theorem commitLog_kept {s0 s : State} (h : Kept s0 s) : Kept s0 (commitLog s) := by
  refine ⟨h.pending, h.mem, fun x => ?_⟩
  have := h.log x
  simp only [commitLog, List.length_drop]; omega

theorem flashTry_kept {s0 s : State} (h0 : Kept s0 s) :
    Kept s0 (flashTry s) := by
  unfold flashTry
  repeat' (first
    | with_reducible assumption
    | with_reducible apply Kept.ite
    | with_reducible apply Kept.fstIte
    | with_reducible refine Kept.foldl ?_ (fun _ _ _ => ?_)
    | with_reducible apply State.logAdd_kept
    | with_reducible apply commitLog_kept
    | (refine Kept.fst (by with_reducible assumption) ?_)
    | split
    | fail_if_no_progress (with_reducible refine Kept.lit rfl rfl ?_)
    | (lift_lets -underBinder; intro x; first | (refine Kept.cut (s0 := s0) (s1 := x) ?_ (fun _ => ?_); on_goal 1 => unfold x) | skip))

theorem unitOp_kept {s0 s : State} (v : Word) (h0 : Kept s0 s) :
    Kept s0 (unitOp s v) := by
  unfold unitOp
  try lift_lets -underBinder
  repeat' (first
    | (intro x; first | (refine Kept.cut (s0 := s0) (s1 := x) ?_ (fun _ => ?_); on_goal 1 => unfold x) | skip)
    | with_reducible assumption
    | with_reducible apply Kept.ite
    | with_reducible apply Kept.fstIte
    | with_reducible refine Kept.foldl ?_ (fun _ _ _ => ?_)
    | with_reducible apply State.setBusy_kept
    | with_reducible apply State.setReady_kept
    | with_reducible apply State.clearReady_kept
    | with_reducible apply resetBlock_kept
    | (refine Kept.fst (by with_reducible assumption) ?_)
    | split
    | fail_if_no_progress (with_reducible refine Kept.lit rfl rfl ?_)
    | (lift_lets -underBinder; intro x; first | (refine Kept.cut (s0 := s0) (s1 := x) ?_ (fun _ => ?_); on_goal 1 => unfold x) | skip))

end Sys2Proof.Machine
end

