-- ==== Sys2Proof/Laws/KeptMailbox.lean ====
section
/-!
SUPPORT. Laws/KeptMailbox.lean: the operations of Machine/Mailbox.lean keep what `Kept` says.
-/
set_option linter.unusedTactic false
set_option linter.unreachableTactic false
set_option linter.unusedVariables false

namespace Sys2Proof.Machine

theorem mbReqOp_kept {s0 s : State} (k : Nat) (v : Word) (h0 : Kept s0 s) :
    Kept s0 (mbReqOp s k v) := by
  unfold mbReqOp
  try lift_lets -underBinder
  repeat' (first
    | (intro x; first | (refine Kept.cut (s0 := s0) (s1 := x) ?_ (fun _ => ?_); on_goal 1 => unfold x) | skip)
    | with_reducible assumption
    | with_reducible apply Kept.ite
    | with_reducible apply Kept.fstIte
    | with_reducible refine Kept.foldl ?_ (fun _ _ _ => ?_)
    | with_reducible apply State.setPf_kept
    | (refine Kept.fst (by with_reducible assumption) ?_)
    | split
    | fail_if_no_progress (with_reducible refine Kept.lit rfl rfl ?_)
    | (lift_lets -underBinder; intro x; first | (refine Kept.cut (s0 := s0) (s1 := x) ?_ (fun _ => ?_); on_goal 1 => unfold x) | skip))

theorem putReply_kept {s0 s : State} (p : MbPath) (r : List Nat) (h0 : Kept s0 s) :
    Kept s0 (putReply s p r) := by
  unfold putReply
  repeat' (first
    | with_reducible assumption
    | with_reducible apply Kept.ite
    | with_reducible apply Kept.fstIte
    | with_reducible refine Kept.foldl ?_ (fun _ _ _ => ?_)
    | (refine Kept.fst (by with_reducible assumption) ?_)
    | split
    | fail_if_no_progress (with_reducible refine Kept.lit rfl rfl ?_)
    | (lift_lets -underBinder; intro x; first | (refine Kept.cut (s0 := s0) (s1 := x) ?_ (fun _ => ?_); on_goal 1 => unfold x) | skip))

theorem mbServe_kept {s0 s : State} (p : MbPath) (cmd : Nat) (paths : List MbWho) (argLen : Nat)
    (f : State → List Nat → State × MbAnswer) (hf : ∀ t a, Kept s0 t → Kept s0 (f t a).1) (h0 : Kept s0 s) :
    Kept s0 (mbServe s p cmd paths argLen f) := by
  unfold mbServe
  lift_lets
  intro req
  split
  · exact h0
  · split
    · exact putReply_kept _ _ h0
    · split
      · exact putReply_kept _ _ h0
      · exact putReply_kept _ _ (hf _ _ h0)

theorem markBank_kept {s0 s : State} (comp : Nat) (invalid : Bool) (h0 : Kept s0 s) :
    Kept s0 (markBank s comp invalid) := by
  unfold markBank
  try lift_lets -underBinder
  repeat' (first
    | (intro x; first | (refine Kept.cut (s0 := s0) (s1 := x) ?_ (fun _ => ?_); on_goal 1 => unfold x) | skip)
    | with_reducible assumption
    | with_reducible apply Kept.ite
    | with_reducible apply Kept.fstIte
    | with_reducible refine Kept.foldl ?_ (fun _ _ _ => ?_)
    | (refine Kept.fst (by with_reducible assumption) ?_)
    | split
    | fail_if_no_progress (with_reducible refine Kept.lit rfl rfl ?_)
    | (lift_lets -underBinder; intro x; first | (refine Kept.cut (s0 := s0) (s1 := x) ?_ (fun _ => ?_); on_goal 1 => unfold x) | skip))

theorem abandonUpdate_kept {s0 s : State} (h0 : Kept s0 s) :
    Kept s0 (abandonUpdate s) := by
  unfold abandonUpdate
  repeat' (first
    | with_reducible assumption
    | with_reducible apply Kept.ite
    | with_reducible apply Kept.fstIte
    | with_reducible refine Kept.foldl ?_ (fun _ _ _ => ?_)
    | with_reducible apply markBank_kept
    | (refine Kept.fst (by with_reducible assumption) ?_)
    | split
    | fail_if_no_progress (with_reducible refine Kept.lit rfl rfl ?_)
    | (lift_lets -underBinder; intro x; first | (refine Kept.cut (s0 := s0) (s1 := x) ?_ (fun _ => ?_); on_goal 1 => unfold x) | skip))

theorem invalidImage_kept {s0 s : State} (c : Nat) (h0 : Kept s0 s) :
    Kept s0 (invalidImage s c).1 := by
  unfold invalidImage
  try lift_lets -underBinder
  repeat' (first
    | (intro x; first | (refine Kept.cut (s0 := s0) (s1 := x) ?_ (fun _ => ?_); on_goal 1 => unfold x) | skip)
    | with_reducible assumption
    | with_reducible apply Kept.ite
    | with_reducible apply Kept.fstIte
    | with_reducible refine Kept.foldl ?_ (fun _ _ _ => ?_)
    | with_reducible apply State.draw_kept
    | (refine Kept.fst (by with_reducible assumption) ?_)
    | (refine Kept.snd (by with_reducible assumption) ?_)
    | split
    | fail_if_no_progress (with_reducible refine Kept.lit rfl rfl ?_)
    | (lift_lets -underBinder; intro x; first | (refine Kept.cut (s0 := s0) (s1 := x) ?_ (fun _ => ?_); on_goal 1 => unfold x) | skip))

theorem mctpReply_kept {s0 s : State} (f : State → State × List Nat) (hf : ∀ t, Kept s0 t → Kept s0 (f t).1)
    (h0 : Kept s0 s) : Kept s0 (mctpReply s f) := by
  unfold mctpReply
  split
  · exact h0
  · have := hf _ h0
    exact ⟨this.pending, this.mem, this.log⟩

end Sys2Proof.Machine
end

