-- ==== Sys2Proof/Laws/KeptRegWrite.lean ====
section
/-!
SUPPORT. Laws/KeptRegWrite.lean: the operations of Machine/RegWrite.lean keep what `Kept` says.
-/
set_option linter.unusedTactic false
set_option linter.unreachableTactic false
set_option linter.unusedVariables false

namespace Sys2Proof.Machine

theorem routeTable_kept {s0 s : State} (m : Master) (a : Nat) (k : TableKind) (o : Nat) (v : Word) (h0 : Kept s0 s) :
    KeptO s0 (routeTable s m a k o v) := by
  unfold routeTable
  repeat' (first
    | with_reducible assumption
    | with_reducible apply Kept.ite
    | with_reducible apply Kept.fstIte
    | with_reducible refine Kept.foldl ?_ (fun _ _ _ => ?_)
    | with_reducible apply KeptO.none
    | with_reducible apply KeptO.some
    | with_reducible apply KeptO.ite
    | with_reducible refine gated_kept _ _ _ (fun _ _ => ?_) ?_
    | with_reducible apply coefWriteOp_kept
    | with_reducible apply styleEntryOp_kept
    | with_reducible apply glyphEntryOp_kept
    | (refine Kept.fst (by with_reducible assumption) ?_)
    | split
    | fail_if_no_progress (with_reducible refine Kept.lit rfl rfl ?_)
    | (lift_lets -underBinder; intro x; first | (refine Kept.cut (s0 := s0) (s1 := x) ?_ (fun _ => ?_); on_goal 1 => unfold x) | skip))

theorem routeHeader_kept {s0 s : State} (m : Master) (p : Page) (o : Nat) (v : Word) (h0 : Kept s0 s) :
    KeptO s0 (routeHeader s m p o v) := by
  unfold routeHeader
  repeat' (first
    | with_reducible assumption
    | with_reducible apply Kept.ite
    | with_reducible apply Kept.fstIte
    | with_reducible refine Kept.foldl ?_ (fun _ _ _ => ?_)
    | with_reducible apply KeptO.none
    | with_reducible apply KeptO.some
    | with_reducible apply KeptO.ite
    | with_reducible refine writeReg_kept _ _ _ _ (fun _ _ => ?_) ?_
    | with_reducible apply commitGo_kept
    | with_reducible apply ctrlWrite_kept
    | with_reducible apply injectOp_kept
    | (refine Kept.fst (by with_reducible assumption) ?_)
    | split
    | fail_if_no_progress (with_reducible refine Kept.lit rfl rfl ?_)
    | (lift_lets -underBinder; intro x; first | (refine Kept.cut (s0 := s0) (s1 := x) ?_ (fun _ => ?_); on_goal 1 => unfold x) | skip))

theorem routeFunc_kept {s0 s : State} (m : Master) (f o a : Nat) (v : Word) (h0 : Kept s0 s) :
    KeptO s0 (routeFunc s m f o a v) := by
  unfold routeFunc
  repeat' (first
    | with_reducible assumption
    | with_reducible apply Kept.ite
    | with_reducible apply Kept.fstIte
    | with_reducible refine Kept.foldl ?_ (fun _ _ _ => ?_)
    | with_reducible apply KeptO.none
    | with_reducible apply KeptO.some
    | with_reducible apply KeptO.ite
    | with_reducible refine writeReg_kept _ _ _ _ (fun _ _ => ?_) ?_
    | with_reducible apply funcReset_kept
    | with_reducible apply s1invOp_kept
    | with_reducible apply s2RootOp_kept
    | with_reducible apply migWrite_kept
    | (refine Kept.fst (by with_reducible assumption) ?_)
    | split
    | fail_if_no_progress (with_reducible refine Kept.lit rfl rfl ?_)
    | (lift_lets -underBinder; intro x; first | (refine Kept.cut (s0 := s0) (s1 := x) ?_ (fun _ => ?_); on_goal 1 => unfold x) | skip))

theorem routeWorld_kept {s0 s : State} (m : Master) (o a : Nat) (v : Word) (h0 : Kept s0 s) :
    KeptO s0 (routeWorld s m o a v) := by
  unfold routeWorld
  repeat' (first
    | with_reducible assumption
    | with_reducible apply Kept.ite
    | with_reducible apply Kept.fstIte
    | with_reducible refine Kept.foldl ?_ (fun _ _ _ => ?_)
    | with_reducible apply KeptO.none
    | with_reducible apply KeptO.some
    | with_reducible apply KeptO.ite
    | with_reducible apply hwRestart_kept
    | with_reducible refine writeReg_kept _ _ _ _ (fun _ _ => ?_) ?_
    | with_reducible apply claimWrite_kept
    | with_reducible apply wdogOp_kept
    | with_reducible apply safeOkWrite_kept
    | (refine Kept.fst (by with_reducible assumption) ?_)
    | split
    | fail_if_no_progress (with_reducible refine Kept.lit rfl rfl ?_)
    | (lift_lets -underBinder; intro x; first | (refine Kept.cut (s0 := s0) (s1 := x) ?_ (fun _ => ?_); on_goal 1 => unfold x) | skip))

theorem routeKeys_kept {s0 s : State} (m : Master) (o a : Nat) (v : Word) (h0 : Kept s0 s) :
    KeptO s0 (routeKeys s m o a v) := by
  unfold routeKeys
  try lift_lets -underBinder
  repeat' (first
    | (intro x; first | (refine Kept.cut (s0 := s0) (s1 := x) ?_ (fun _ => ?_); on_goal 1 => unfold x) | skip)
    | with_reducible assumption
    | with_reducible apply Kept.ite
    | with_reducible apply Kept.fstIte
    | with_reducible refine Kept.foldl ?_ (fun _ _ _ => ?_)
    | with_reducible apply KeptO.none
    | with_reducible apply KeptO.some
    | with_reducible apply KeptO.ite
    | with_reducible apply State.setPr_kept
    | with_reducible refine writeReg_kept _ _ _ _ (fun _ _ => ?_) ?_
    | with_reducible apply selftestOp_kept
    | with_reducible apply eqBaseWrite_kept
    | (refine Kept.fst (by with_reducible assumption) ?_)
    | split
    | fail_if_no_progress (with_reducible refine Kept.lit rfl rfl ?_)
    | (lift_lets -underBinder; intro x; first | (refine Kept.cut (s0 := s0) (s1 := x) ?_ (fun _ => ?_); on_goal 1 => unfold x) | skip))

theorem routeLegend_kept {s0 s : State} (m : Master) (o a : Nat) (v : Word) (h0 : Kept s0 s) :
    KeptO s0 (routeLegend s m o a v) := by
  have rng : ∀ t base cnt : Nat, KeptO s0 (if base ≤ o ∧ o < base + 8 * cnt ∧ o % 8 = 4 then
      some (gated s m a (fun s => rangeWriteOp s m t ((o - base) / 8) v)) else none) := fun t base cnt =>
    KeptO.ite (KeptO.some (gated_kept _ _ _ (fun _ h => rangeWriteOp_kept _ _ _ _ h) h0)) KeptO.none
  unfold routeLegend
  extract_lets r
  split
  · exact KeptO.some (gated_kept _ _ _ (fun _ h => updHiOp_kept _ _ h) h0)
  · split
    · exact KeptO.some ((rng 0 _ _).out _ (by assumption))
    · split
      · exact KeptO.some ((rng 1 _ _).out _ (by assumption))
      · exact rng 2 _ _

theorem routeLegacy_kept {s0 s : State} (m : Master) (o a : Nat) (v : Word) (h0 : Kept s0 s) :
    KeptO s0 (routeLegacy s m o a v) := by
  unfold routeLegacy
  repeat' (first
    | with_reducible assumption
    | with_reducible apply Kept.ite
    | with_reducible apply Kept.fstIte
    | with_reducible refine Kept.foldl ?_ (fun _ _ _ => ?_)
    | with_reducible apply KeptO.none
    | with_reducible apply KeptO.some
    | with_reducible apply KeptO.ite
    | with_reducible refine writeReg_kept _ _ _ _ (fun _ _ => ?_) ?_
    | with_reducible apply deReport_kept
    | with_reducible apply deRingRdOp_kept
    | (refine Kept.fst (by with_reducible assumption) ?_)
    | split
    | fail_if_no_progress (with_reducible refine Kept.lit rfl rfl ?_)
    | (lift_lets -underBinder; intro x; first | (refine Kept.cut (s0 := s0) (s1 := x) ?_ (fun _ => ?_); on_goal 1 => unfold x) | skip))

theorem routeBody_kept {s0 s : State} (m : Master) (p : Page) (o a : Nat) (v : Word) (h0 : Kept s0 s) :
    KeptO s0 (routeBody s m p o a v) := by
  unfold routeBody
  try lift_lets -underBinder
  repeat' (first
    | (intro x; first | (refine Kept.cut (s0 := s0) (s1 := x) ?_ (fun _ => ?_); on_goal 1 => unfold x) | skip)
    | with_reducible assumption
    | with_reducible apply Kept.ite
    | with_reducible apply Kept.fstIte
    | with_reducible refine Kept.foldl ?_ (fun _ _ _ => ?_)
    | with_reducible apply KeptO.none
    | with_reducible apply KeptO.some
    | with_reducible apply KeptO.ite
    | with_reducible apply raiseFault_kept
    | with_reducible apply auxGoOp_kept
    | with_reducible refine writeReg_kept _ _ _ _ (fun _ _ => ?_) ?_
    | with_reducible apply cvuCloseOp_kept
    | with_reducible apply srcEnableOp_kept
    | with_reducible apply hostTriggerOp_kept
    | with_reducible apply hapStopOp_kept
    | with_reducible apply mirWindowOp_kept
    | with_reducible apply shimOp_kept
    | with_reducible apply recodeCfgOp_kept
    | with_reducible apply s2invOp_kept
    | with_reducible apply statCfgOp_kept
    | with_reducible apply unitOp_kept
    | with_reducible apply mbReqOp_kept
    | with_reducible apply routeFunc_kept
    | with_reducible apply routeWorld_kept
    | with_reducible apply routeKeys_kept
    | with_reducible apply routeLegend_kept
    | with_reducible apply routeLegacy_kept
    | (refine Kept.fst (by with_reducible assumption) ?_)
    | split
    | fail_if_no_progress (with_reducible refine Kept.lit rfl rfl ?_)
    | (lift_lets -underBinder; intro x; first | (refine Kept.cut (s0 := s0) (s1 := x) ?_ (fun _ => ?_); on_goal 1 => unfold x) | skip))

theorem routeOwn_kept {s0 s : State} (m : Master) (a : Nat) (v : Word) (h0 : Kept s0 s) :
    KeptO s0 (routeOwn s m a v) := by
  unfold routeOwn
  repeat' (first
    | with_reducible assumption
    | with_reducible apply Kept.ite
    | with_reducible apply Kept.fstIte
    | with_reducible refine Kept.foldl ?_ (fun _ _ _ => ?_)
    | with_reducible apply KeptO.none
    | with_reducible apply KeptO.some
    | with_reducible apply KeptO.ite
    | with_reducible apply ringCtrlWrite_kept
    | with_reducible apply doorbellWrite_kept
    | with_reducible apply routeTable_kept
    | with_reducible apply routeHeader_kept
    | with_reducible apply routeBody_kept
    | (refine Kept.fst (by with_reducible assumption) ?_)
    | split
    | fail_if_no_progress (with_reducible refine Kept.lit rfl rfl ?_)
    | (lift_lets -underBinder; intro x; first | (refine Kept.cut (s0 := s0) (s1 := x) ?_ (fun _ => ?_); on_goal 1 => unfold x) | skip))

theorem faultClear_kept {s0 s : State} (p : Page) (v : Word) (h0 : Kept s0 s) :
    Kept s0 (faultClear s p v) := by
  unfold faultClear
  try lift_lets -underBinder
  repeat' (first
    | (intro x; first | (refine Kept.cut (s0 := s0) (s1 := x) ?_ (fun _ => ?_); on_goal 1 => unfold x) | skip)
    | with_reducible assumption
    | with_reducible apply Kept.ite
    | with_reducible apply Kept.fstIte
    | with_reducible refine Kept.foldl ?_ (fun _ _ _ => ?_)
    | with_reducible apply State.setReg_kept
    | with_reducible apply State.setHf_kept
    | (refine Kept.fst (by with_reducible assumption) ?_)
    | split
    | fail_if_no_progress (with_reducible refine Kept.lit rfl rfl ?_)
    | (lift_lets -underBinder; intro x; first | (refine Kept.cut (s0 := s0) (s1 := x) ?_ (fun _ => ?_); on_goal 1 => unfold x) | skip))

theorem rejectClear_kept {s0 s : State} (p : Page) (v : Word) (h0 : Kept s0 s) :
    Kept s0 (rejectClear s p v) := by
  unfold rejectClear
  try lift_lets -underBinder
  repeat' (first
    | (intro x; first | (refine Kept.cut (s0 := s0) (s1 := x) ?_ (fun _ => ?_); on_goal 1 => unfold x) | skip)
    | with_reducible assumption
    | with_reducible apply Kept.ite
    | with_reducible apply Kept.fstIte
    | with_reducible refine Kept.foldl ?_ (fun _ _ _ => ?_)
    | with_reducible apply State.setReg_kept
    | (refine Kept.fst (by with_reducible assumption) ?_)
    | split
    | fail_if_no_progress (with_reducible refine Kept.lit rfl rfl ?_)
    | (lift_lets -underBinder; intro x; first | (refine Kept.cut (s0 := s0) (s1 := x) ?_ (fun _ => ?_); on_goal 1 => unfold x) | skip))

theorem actionWrite_kept {s0 s : State} (m : Master) (p : Page) (k : Nat) (v : Word) (h0 : Kept s0 s) :
    Kept s0 (actionWrite s m p k v) := by
  unfold actionWrite
  try lift_lets -underBinder
  repeat' (first
    | (intro x; first | (refine Kept.cut (s0 := s0) (s1 := x) ?_ (fun _ => ?_); on_goal 1 => unfold x) | skip)
    | with_reducible assumption
    | with_reducible apply Kept.ite
    | with_reducible apply Kept.fstIte
    | with_reducible refine Kept.foldl ?_ (fun _ _ _ => ?_)
    | with_reducible apply State.setReg_kept
    | with_reducible apply State.refuse_kept
    | with_reducible apply State.noteWrite_kept
    | with_reducible apply State.notePrev_kept
    | (refine Kept.fst (by with_reducible assumption) ?_)
    | split
    | fail_if_no_progress (with_reducible refine Kept.lit rfl rfl ?_)
    | (lift_lets -underBinder; intro x; first | (refine Kept.cut (s0 := s0) (s1 := x) ?_ (fun _ => ?_); on_goal 1 => unfold x) | skip))

theorem ownerWrite_kept {s0 s : State} (m : Master) (p : Page) (v : Word) (h0 : Kept s0 s) :
    Kept s0 (ownerWrite s m p v) := by
  unfold ownerWrite
  try lift_lets -underBinder
  repeat' (first
    | (intro x; first | (refine Kept.cut (s0 := s0) (s1 := x) ?_ (fun _ => ?_); on_goal 1 => unfold x) | skip)
    | with_reducible assumption
    | with_reducible apply Kept.ite
    | with_reducible apply Kept.fstIte
    | with_reducible refine Kept.foldl ?_ (fun _ _ _ => ?_)
    | with_reducible apply State.setHf_kept
    | with_reducible apply changeOwner_kept
    | (refine Kept.fst (by with_reducible assumption) ?_)
    | split
    | fail_if_no_progress (with_reducible refine Kept.lit rfl rfl ?_)
    | (lift_lets -underBinder; intro x; first | (refine Kept.cut (s0 := s0) (s1 := x) ?_ (fun _ => ?_); on_goal 1 => unfold x) | skip))

theorem headerWrite_kept {s0 s : State} (m : Master) (p : Page) (o a : Nat) (v : Word) (h0 : Kept s0 s) :
    Kept s0 (headerWrite s m p o a v) := by
  unfold headerWrite
  repeat' (first
    | with_reducible assumption
    | with_reducible apply Kept.ite
    | with_reducible apply Kept.fstIte
    | with_reducible refine Kept.foldl ?_ (fun _ _ _ => ?_)
    | with_reducible apply State.setReg_kept
    | with_reducible apply State.hwBits_kept
    | with_reducible apply State.refuse_kept
    | with_reducible apply State.noteWrite_kept
    | with_reducible apply faultClear_kept
    | with_reducible apply rejectClear_kept
    | with_reducible apply actionWrite_kept
    | with_reducible apply ownerWrite_kept
    | (refine Kept.fst (by with_reducible assumption) ?_)
    | split
    | fail_if_no_progress (with_reducible refine Kept.lit rfl rfl ?_)
    | (lift_lets -underBinder; intro x; first | (refine Kept.cut (s0 := s0) (s1 := x) ?_ (fun _ => ?_); on_goal 1 => unfold x) | skip))

theorem putWord_kept {s0 s : State} (m : Master) (r : RegRow) (a : Nat) (v : Word) (h0 : Kept s0 s) :
    Kept s0 (putWord s m r a v) := by
  unfold putWord
  try lift_lets -underBinder
  repeat' (first
    | (intro x; first | (refine Kept.cut (s0 := s0) (s1 := x) ?_ (fun _ => ?_); on_goal 1 => unfold x) | skip)
    | with_reducible assumption
    | with_reducible apply Kept.ite
    | with_reducible apply Kept.fstIte
    | with_reducible refine Kept.foldl ?_ (fun _ _ _ => ?_)
    | with_reducible apply State.setReg_kept
    | with_reducible apply State.setShd_kept
    | (refine Kept.fst (by with_reducible assumption) ?_)
    | split
    | fail_if_no_progress (with_reducible refine Kept.lit rfl rfl ?_)
    | (lift_lets -underBinder; intro x; first | (refine Kept.cut (s0 := s0) (s1 := x) ?_ (fun _ => ?_); on_goal 1 => unfold x) | skip))

theorem pairWrite_kept {s0 s : State} (m : Master) (p : Page) (o : Nat) (r : RegRow) (v : Word) (h0 : Kept s0 s) :
    Kept s0 (pairWrite s m p o r v) := by
  unfold pairWrite
  extract_lets a lo low lowRow lowCheck
  clear_value lowCheck low lowRow
  split
  · exact State.refuse_kept _ _ _ _ _ h0
  · split
    · exact State.refuse_kept _ _ _ _ _ h0
    · have h1 := flushPage_kept p h0
      refine State.noteWrite_kept _ (putWord_kept _ _ _ _ ?_)
      rename_i s2 _ _ _
      unfold s2
      split
      · exact putWord_kept _ _ _ _ (State.unstage_kept _ _ h1)
      · exact h1

theorem effectWrite_kept {s0 s : State} (m : Master) (o : Nat) (v : Word) (h0 : Kept s0 s) :
    Kept s0 (effectWrite s m o v) := by
  unfold effectWrite
  try lift_lets -underBinder
  repeat' (first
    | (intro x; first | (refine Kept.cut (s0 := s0) (s1 := x) ?_ (fun _ => ?_); on_goal 1 => unfold x) | skip)
    | with_reducible assumption
    | with_reducible apply Kept.ite
    | with_reducible apply Kept.fstIte
    | with_reducible refine Kept.foldl ?_ (fun _ _ _ => ?_)
    | with_reducible apply State.setReg_kept
    | with_reducible apply State.refuse_kept
    | with_reducible apply State.unstage_kept
    | with_reducible apply State.stageWord_kept
    | with_reducible apply State.noteWrite_kept
    | (refine Kept.fst (by with_reducible assumption) ?_)
    | split
    | fail_if_no_progress (with_reducible refine Kept.lit rfl rfl ?_)
    | (lift_lets -underBinder; intro x; first | (refine Kept.cut (s0 := s0) (s1 := x) ?_ (fun _ => ?_); on_goal 1 => unfold x) | skip))

theorem plainWrite_kept {s0 s : State} (m : Master) (p : Page) (r : RegRow) (a : Nat) (v : Word) (h0 : Kept s0 s) :
    Kept s0 (plainWrite s m p r a v) := by
  unfold plainWrite
  try lift_lets -underBinder
  repeat' (first
    | (intro x; first | (refine Kept.cut (s0 := s0) (s1 := x) ?_ (fun _ => ?_); on_goal 1 => unfold x) | skip)
    | with_reducible assumption
    | with_reducible apply Kept.ite
    | with_reducible apply Kept.fstIte
    | with_reducible refine Kept.foldl ?_ (fun _ _ _ => ?_)
    | with_reducible apply State.setShd_kept
    | with_reducible apply State.noteWrite_kept
    | with_reducible apply landWrite_kept
    | with_reducible apply msixUnmask_kept
    | (refine Kept.fst (by with_reducible assumption) ?_)
    | split
    | fail_if_no_progress (with_reducible refine Kept.lit rfl rfl ?_)
    | (lift_lets -underBinder; intro x; first | (refine Kept.cut (s0 := s0) (s1 := x) ?_ (fun _ => ?_); on_goal 1 => unfold x) | skip))

theorem bodyWrite_kept {s0 s : State} (m : Master) (p : Page) (o : Nat) (v : Word) (h0 : Kept s0 s) :
    Kept s0 (bodyWrite s m p o v) := by
  unfold bodyWrite
  try lift_lets -underBinder
  repeat' (first
    | (intro x; first | (refine Kept.cut (s0 := s0) (s1 := x) ?_ (fun _ => ?_); on_goal 1 => unfold x) | skip)
    | with_reducible assumption
    | with_reducible apply Kept.ite
    | with_reducible apply Kept.fstIte
    | with_reducible refine Kept.foldl ?_ (fun _ _ _ => ?_)
    | with_reducible apply State.refuse_kept
    | with_reducible apply State.stageWord_kept
    | with_reducible apply pairWrite_kept
    | with_reducible apply effectWrite_kept
    | with_reducible apply plainWrite_kept
    | (refine Kept.fst (by with_reducible assumption) ?_)
    | split
    | fail_if_no_progress (with_reducible refine Kept.lit rfl rfl ?_)
    | (lift_lets -underBinder; intro x; first | (refine Kept.cut (s0 := s0) (s1 := x) ?_ (fun _ => ?_); on_goal 1 => unfold x) | skip))

theorem tableWord_kept {s0 s : State} (m : Master) (a : Nat) (k : TableKind) (o : Nat) (v : Word) (h0 : Kept s0 s) :
    Kept s0 (tableWord s m a k o v) := by
  unfold tableWord
  try lift_lets -underBinder
  repeat' (first
    | (intro x; first | (refine Kept.cut (s0 := s0) (s1 := x) ?_ (fun _ => ?_); on_goal 1 => unfold x) | skip)
    | with_reducible assumption
    | with_reducible apply Kept.ite
    | with_reducible apply Kept.fstIte
    | with_reducible refine Kept.foldl ?_ (fun _ _ _ => ?_)
    | with_reducible apply State.setReg_kept
    | with_reducible apply State.refuse_kept
    | with_reducible apply State.stageWord_kept
    | with_reducible apply State.noteWrite_kept
    | (refine Kept.fst (by with_reducible assumption) ?_)
    | split
    | fail_if_no_progress (with_reducible refine Kept.lit rfl rfl ?_)
    | (lift_lets -underBinder; intro x; first | (refine Kept.cut (s0 := s0) (s1 := x) ?_ (fun _ => ?_); on_goal 1 => unfold x) | skip))

theorem plainAccess_kept {s0 s : State} (m : Master) (a shown : Nat) (v : Word) (h0 : Kept s0 s) :
    Kept s0 (plainAccess s m a shown v) := by
  unfold plainAccess
  try lift_lets -underBinder
  repeat' (first
    | (intro x; first | (refine Kept.cut (s0 := s0) (s1 := x) ?_ (fun _ => ?_); on_goal 1 => unfold x) | skip)
    | with_reducible assumption
    | with_reducible apply Kept.ite
    | with_reducible apply Kept.fstIte
    | with_reducible refine Kept.foldl ?_ (fun _ _ _ => ?_)
    | with_reducible apply beginAccess_kept
    | with_reducible apply recordRefusal_kept
    | with_reducible apply headerWrite_kept
    | with_reducible apply bodyWrite_kept
    | with_reducible apply tableWord_kept
    | (refine Kept.fst (by with_reducible assumption) ?_)
    | split
    | fail_if_no_progress (with_reducible refine Kept.lit rfl rfl ?_)
    | (lift_lets -underBinder; intro x; first | (refine Kept.cut (s0 := s0) (s1 := x) ?_ (fun _ => ?_); on_goal 1 => unfold x) | skip))

theorem partialAccess_kept {s0 s : State} (m : Master) (a shown : Nat) (h0 : Kept s0 s) :
    Kept s0 (partialAccess s m a shown) := by
  unfold partialAccess
  try lift_lets -underBinder
  repeat' (first
    | (intro x; first | (refine Kept.cut (s0 := s0) (s1 := x) ?_ (fun _ => ?_); on_goal 1 => unfold x) | skip)
    | with_reducible assumption
    | with_reducible apply Kept.ite
    | with_reducible apply Kept.fstIte
    | with_reducible refine Kept.foldl ?_ (fun _ _ _ => ?_)
    | with_reducible apply State.refuse_kept
    | with_reducible apply beginAccess_kept
    | with_reducible apply recordRefusal_kept
    | (refine Kept.fst (by with_reducible assumption) ?_)
    | split
    | fail_if_no_progress (with_reducible refine Kept.lit rfl rfl ?_)
    | (lift_lets -underBinder; intro x; first | (refine Kept.cut (s0 := s0) (s1 := x) ?_ (fun _ => ?_); on_goal 1 => unfold x) | skip))

theorem regWrite_kept {s0 s : State} (m : Master) (x : Nat) (be : BitVec 4) (v : Word) (h0 : Kept s0 s) :
    Kept s0 (regWrite s m x be v) := by
  unfold regWrite
  extract_lets whole
  split
  · refine b4Access_kept _ _ (fun t ht => ?_) h0
    split
    · exact b4Write_kept _ _ ht
    · exact b4Drop_kept ht
  · split
    · exact h0
    · exact State.refuse_kept _ _ _ _ _ (beginAccess_kept _ h0)
  · exact gated_kept _ _ _ (fun t ht => doorbellBad_kept _ ht) (flushAll_kept h0)
  · extract_lets a
    split
    · exact partialAccess_kept _ _ _ h0
    · have h1 := routeOwn_kept m a v h0
      split
      · exact h1.out _ (by assumption)
      · exact plainAccess_kept _ _ _ _ h0

theorem resultRead_kept {s0 s : State} (m : Master) (p : Page) (o : Nat) (h0 : Kept s0 s) :
    Kept s0 (resultRead s m p o) := by
  unfold resultRead
  repeat' (first
    | with_reducible assumption
    | with_reducible apply Kept.ite
    | with_reducible apply Kept.fstIte
    | with_reducible refine Kept.foldl ?_ (fun _ _ _ => ?_)
    | with_reducible apply State.setCvu_kept
    | (refine Kept.fst (by with_reducible assumption) ?_)
    | split
    | fail_if_no_progress (with_reducible refine Kept.lit rfl rfl ?_)
    | (lift_lets -underBinder; intro x; first | (refine Kept.cut (s0 := s0) (s1 := x) ?_ (fun _ => ?_); on_goal 1 => unfold x) | skip))

theorem pfRead_kept {s0 s : State} (m : Master) (a shown : Nat) (h0 : Kept s0 s) :
    Kept s0 (pfRead s m a shown) := by
  unfold pfRead
  try lift_lets -underBinder
  repeat' (first
    | (intro x; first | (refine Kept.cut (s0 := s0) (s1 := x) ?_ (fun _ => ?_); on_goal 1 => unfold x) | skip)
    | with_reducible assumption
    | with_reducible apply Kept.ite
    | with_reducible apply Kept.fstIte
    | with_reducible refine Kept.foldl ?_ (fun _ _ _ => ?_)
    | with_reducible apply State.latch_kept
    | with_reducible apply resultRead_kept
    | (refine Kept.fst (by with_reducible assumption) ?_)
    | split
    | fail_if_no_progress (with_reducible refine Kept.lit rfl rfl ?_)
    | (lift_lets -underBinder; intro x; first | (refine Kept.cut (s0 := s0) (s1 := x) ?_ (fun _ => ?_); on_goal 1 => unfold x) | skip))

theorem regRead_kept {s0 s : State} (m : Master) (x : Nat) (h0 : Kept s0 s) :
    Kept s0 (regRead s m x) := by
  unfold regRead
  try lift_lets -underBinder
  repeat' (first
    | (intro x; first | (refine Kept.cut (s0 := s0) (s1 := x) ?_ (fun _ => ?_); on_goal 1 => unfold x) | skip)
    | with_reducible assumption
    | with_reducible apply Kept.ite
    | with_reducible apply Kept.fstIte
    | with_reducible refine Kept.foldl ?_ (fun _ _ _ => ?_)
    | with_reducible apply beginAccess_kept
    | with_reducible apply flushAll_kept
    | with_reducible apply b4ReadAccess_kept
    | with_reducible apply pfRead_kept
    | (refine Kept.fst (by with_reducible assumption) ?_)
    | split
    | fail_if_no_progress (with_reducible refine Kept.lit rfl rfl ?_)
    | (lift_lets -underBinder; intro x; first | (refine Kept.cut (s0 := s0) (s1 := x) ?_ (fun _ => ?_); on_goal 1 => unfold x) | skip))

end Sys2Proof.Machine
end

