-- ==== Sys2Proof/Laws/KeptExec.lean ====
section
/-!
SUPPORT. Laws/KeptExec.lean: every command's meaning answers a next state and keeps what `Kept` says, one lemma per meaning.
-/
set_option linter.unusedTactic false
set_option linter.unreachableTactic false
set_option linter.unusedVariables false

namespace Sys2Proof.Machine

/-- An outcome is a next state that keeps what `Kept` says. -/
structure KeptX (s0 : State) (o : Host.Outcome State Fault Refusal) : Prop where
  out : ∃ t, o = .next t ∧ Kept s0 t

theorem KeptX.mk' {s0 t : State} (h : Kept s0 t) : KeptX s0 (.next t) := ⟨t, rfl, h⟩

theorem KeptX.ite {s0 : State} {a b : Host.Outcome State Fault Refusal} {c : Prop} [Decidable c] (ha : KeptX s0 a)
    (hb : KeptX s0 b) : KeptX s0 (if c then a else b) := by
  split
  · exact ha
  · exact hb

theorem execSourceFetch_kept (k : Fin 48) {s0 s : State} (h0 : Kept s0 s) : KeptX s0 (execSourceFetch k s) := by
  unfold execSourceFetch
  repeat' (first
    | with_reducible assumption
    | with_reducible apply Kept.ite
    | with_reducible apply Kept.fstIte
    | with_reducible refine Kept.foldl ?_ (fun _ _ _ => ?_)
    | with_reducible apply KeptX.mk'
    | with_reducible apply KeptX.ite
    | with_reducible apply fetchSource1_kept
    | (refine Kept.fst (by with_reducible assumption) ?_)
    | split
    | fail_if_no_progress (with_reducible refine Kept.lit rfl rfl ?_)
    | (lift_lets -underBinder; intro x; first | (refine Kept.cut (s0 := s0) (s1 := x) ?_ (fun _ => ?_); on_goal 1 => unfold x) | skip))

theorem execSrcEnable_kept (m : Master) (k : Fin 48) (value : Word) {s0 s : State} (h0 : Kept s0 s) :
    KeptX s0 (execSrcEnable m k value s) := by
  unfold execSrcEnable
  repeat' (first
    | with_reducible assumption
    | with_reducible apply Kept.ite
    | with_reducible apply Kept.fstIte
    | with_reducible refine Kept.foldl ?_ (fun _ _ _ => ?_)
    | with_reducible apply KeptX.mk'
    | with_reducible apply KeptX.ite
    | with_reducible refine writeReg_kept _ _ _ _ (fun _ _ => ?_) ?_
    | with_reducible apply srcEnableOp_kept
    | (refine Kept.fst (by with_reducible assumption) ?_)
    | split
    | fail_if_no_progress (with_reducible refine Kept.lit rfl rfl ?_)
    | (lift_lets -underBinder; intro x; first | (refine Kept.cut (s0 := s0) (s1 := x) ?_ (fun _ => ?_); on_goal 1 => unfold x) | skip))

theorem execSampleBoundary_kept (din : List (BitVec 32)) {s0 s : State} (h0 : Kept s0 s) :
    KeptX s0 (execSampleBoundary din s) := by
  unfold execSampleBoundary
  repeat' (first
    | with_reducible assumption
    | with_reducible apply Kept.ite
    | with_reducible apply Kept.fstIte
    | with_reducible refine Kept.foldl ?_ (fun _ _ _ => ?_)
    | with_reducible apply KeptX.mk'
    | with_reducible apply KeptX.ite
    | with_reducible apply sampleOp_kept
    | (refine Kept.fst (by with_reducible assumption) ?_)
    | split
    | fail_if_no_progress (with_reducible refine Kept.lit rfl rfl ?_)
    | (lift_lets -underBinder; intro x; first | (refine Kept.cut (s0 := s0) (s1 := x) ?_ (fun _ => ?_); on_goal 1 => unfold x) | skip))

theorem execAudioEnable_kept (m : Master) {s0 s : State} (h0 : Kept s0 s) : KeptX s0 (execAudioEnable m s) := by
  unfold execAudioEnable
  repeat' (first
    | with_reducible assumption
    | with_reducible apply Kept.ite
    | with_reducible apply Kept.fstIte
    | with_reducible refine Kept.foldl ?_ (fun _ _ _ => ?_)
    | with_reducible apply KeptX.mk'
    | with_reducible apply KeptX.ite
    | with_reducible refine writeReg_kept _ _ _ _ (fun _ _ => ?_) ?_
    | with_reducible apply audioEnableOp_kept
    | (refine Kept.fst (by with_reducible assumption) ?_)
    | split
    | fail_if_no_progress (with_reducible refine Kept.lit rfl rfl ?_)
    | (lift_lets -underBinder; intro x; first | (refine Kept.cut (s0 := s0) (s1 := x) ?_ (fun _ => ?_); on_goal 1 => unfold x) | skip))

theorem execCommitGo_kept (m : Master) (p : Page) (seq : BitVec 16) {s0 s : State} (h0 : Kept s0 s) :
    KeptX s0 (execCommitGo m p seq s) := by
  unfold execCommitGo
  repeat' (first
    | with_reducible assumption
    | with_reducible apply Kept.ite
    | with_reducible apply Kept.fstIte
    | with_reducible refine Kept.foldl ?_ (fun _ _ _ => ?_)
    | with_reducible apply KeptX.mk'
    | with_reducible apply KeptX.ite
    | with_reducible apply commitGo_kept
    | (refine Kept.fst (by with_reducible assumption) ?_)
    | split
    | fail_if_no_progress (with_reducible refine Kept.lit rfl rfl ?_)
    | (lift_lets -underBinder; intro x; first | (refine Kept.cut (s0 := s0) (s1 := x) ?_ (fun _ => ?_); on_goal 1 => unfold x) | skip))

theorem execCommitApply_kept (p : Page) {s0 s : State} (h0 : Kept s0 s) : KeptX s0 (execCommitApply p s) := by
  unfold execCommitApply
  try lift_lets -underBinder
  repeat' (first
    | (intro x; first | (refine Kept.cut (s0 := s0) (s1 := x) ?_ (fun _ => ?_); on_goal 1 => unfold x) | skip)
    | with_reducible assumption
    | with_reducible apply Kept.ite
    | with_reducible apply Kept.fstIte
    | with_reducible refine Kept.foldl ?_ (fun _ _ _ => ?_)
    | with_reducible apply KeptX.mk'
    | with_reducible apply KeptX.ite
    | with_reducible apply invalidateWhere_kept
    | with_reducible apply putStage_kept
    | with_reducible apply audioCommit_kept
    | (refine Kept.fst (by with_reducible assumption) ?_)
    | split
    | fail_if_no_progress (with_reducible refine Kept.lit rfl rfl ?_)
    | (lift_lets -underBinder; intro x; first | (refine Kept.cut (s0 := s0) (s1 := x) ?_ (fun _ => ?_); on_goal 1 => unfold x) | skip))

theorem execCopy_kept (slot : Fin 1024) {s0 s : State} (h0 : Kept s0 s) : KeptX s0 (execCopy slot s) := by
  unfold execCopy
  repeat' (first
    | with_reducible assumption
    | with_reducible apply Kept.ite
    | with_reducible apply Kept.fstIte
    | with_reducible refine Kept.foldl ?_ (fun _ _ _ => ?_)
    | with_reducible apply KeptX.mk'
    | with_reducible apply KeptX.ite
    | with_reducible apply copyDispatch_kept
    | (refine Kept.fst (by with_reducible assumption) ?_)
    | split
    | fail_if_no_progress (with_reducible refine Kept.lit rfl rfl ?_)
    | (lift_lets -underBinder; intro x; first | (refine Kept.cut (s0 := s0) (s1 := x) ?_ (fun _ => ?_); on_goal 1 => unfold x) | skip))

theorem execFill_kept (slot : Fin 1024) {s0 s : State} (h0 : Kept s0 s) : KeptX s0 (execFill slot s) := by
  unfold execFill
  repeat' (first
    | with_reducible assumption
    | with_reducible apply Kept.ite
    | with_reducible apply Kept.fstIte
    | with_reducible refine Kept.foldl ?_ (fun _ _ _ => ?_)
    | with_reducible apply KeptX.mk'
    | with_reducible apply KeptX.ite
    | with_reducible apply copyDispatch_kept
    | (refine Kept.fst (by with_reducible assumption) ?_)
    | split
    | fail_if_no_progress (with_reducible refine Kept.lit rfl rfl ?_)
    | (lift_lets -underBinder; intro x; first | (refine Kept.cut (s0 := s0) (s1 := x) ?_ (fun _ => ?_); on_goal 1 => unfold x) | skip))

theorem execWorkDispatch_kept (unit : Fin 50) {s0 s : State} (h0 : Kept s0 s) : KeptX s0 (execWorkDispatch unit s) := by
  unfold execWorkDispatch
  repeat' (first
    | with_reducible assumption
    | with_reducible apply Kept.ite
    | with_reducible apply Kept.fstIte
    | with_reducible refine Kept.foldl ?_ (fun _ _ _ => ?_)
    | with_reducible apply KeptX.mk'
    | with_reducible apply KeptX.ite
    | with_reducible apply frontDispatch_kept
    | with_reducible apply bayDispatch_kept
    | with_reducible apply copyDispatch_kept
    | (refine Kept.fst (by with_reducible assumption) ?_)
    | split
    | fail_if_no_progress (with_reducible refine Kept.lit rfl rfl ?_)
    | (lift_lets -underBinder; intro x; first | (refine Kept.cut (s0 := s0) (s1 := x) ?_ (fun _ => ?_); on_goal 1 => unfold x) | skip))

theorem execWcall_kept (c : Fin 8) (mode : CoreMode) (pc : BitVec 64) {s0 s : State} (h0 : Kept s0 s) :
    KeptX s0 (execWcall c mode pc s) := by
  unfold execWcall
  repeat' (first
    | with_reducible assumption
    | with_reducible apply Kept.ite
    | with_reducible apply Kept.fstIte
    | with_reducible refine Kept.foldl ?_ (fun _ _ _ => ?_)
    | with_reducible apply KeptX.mk'
    | with_reducible apply KeptX.ite
    | with_reducible apply worldIllegal_kept
    | with_reducible apply wcallEnter_kept
    | (refine Kept.fst (by with_reducible assumption) ?_)
    | split
    | fail_if_no_progress (with_reducible refine Kept.lit rfl rfl ?_)
    | (lift_lets -underBinder; intro x; first | (refine Kept.cut (s0 := s0) (s1 := x) ?_ (fun _ => ?_); on_goal 1 => unfold x) | skip))

theorem execWret_kept (c : Fin 8) (mode : CoreMode) (pc : BitVec 64) {s0 s : State} (h0 : Kept s0 s) :
    KeptX s0 (execWret c mode pc s) := by
  unfold execWret
  repeat' (first
    | with_reducible assumption
    | with_reducible apply Kept.ite
    | with_reducible apply Kept.fstIte
    | with_reducible refine Kept.foldl ?_ (fun _ _ _ => ?_)
    | with_reducible apply KeptX.mk'
    | with_reducible apply KeptX.ite
    | with_reducible apply worldIllegal_kept
    | with_reducible apply wretReturn_kept
    | (refine Kept.fst (by with_reducible assumption) ?_)
    | split
    | fail_if_no_progress (with_reducible refine Kept.lit rfl rfl ?_)
    | (lift_lets -underBinder; intro x; first | (refine Kept.cut (s0 := s0) (s1 := x) ?_ (fun _ => ?_); on_goal 1 => unfold x) | skip))

theorem execSecureIrqTaken_kept {s0 s : State} (h0 : Kept s0 s) : KeptX s0 (execSecureIrqTaken s) := by
  unfold execSecureIrqTaken
  try lift_lets -underBinder
  repeat' (first
    | (intro x; first | (refine Kept.cut (s0 := s0) (s1 := x) ?_ (fun _ => ?_); on_goal 1 => unfold x) | skip)
    | with_reducible assumption
    | with_reducible apply Kept.ite
    | with_reducible apply Kept.fstIte
    | with_reducible refine Kept.foldl ?_ (fun _ _ _ => ?_)
    | with_reducible apply KeptX.mk'
    | with_reducible apply KeptX.ite
    | with_reducible apply trapM_kept
    | (refine Kept.fst (by with_reducible assumption) ?_)
    | split
    | fail_if_no_progress (with_reducible refine Kept.lit rfl rfl ?_)
    | (lift_lets -underBinder; intro x; first | (refine Kept.cut (s0 := s0) (s1 := x) ?_ (fun _ => ?_); on_goal 1 => unfold x) | skip))

theorem execNormalIrqTaken_kept (c : Fin 8) {s0 s : State} (h0 : Kept s0 s) : KeptX s0 (execNormalIrqTaken c s) := by
  unfold execNormalIrqTaken
  try lift_lets -underBinder
  repeat' (first
    | (intro x; first | (refine Kept.cut (s0 := s0) (s1 := x) ?_ (fun _ => ?_); on_goal 1 => unfold x) | skip)
    | with_reducible assumption
    | with_reducible apply Kept.ite
    | with_reducible apply Kept.fstIte
    | with_reducible refine Kept.foldl ?_ (fun _ _ _ => ?_)
    | with_reducible apply KeptX.mk'
    | with_reducible apply KeptX.ite
    | with_reducible apply trapS_kept
    | (refine Kept.fst (by with_reducible assumption) ?_)
    | split
    | fail_if_no_progress (with_reducible refine Kept.lit rfl rfl ?_)
    | (lift_lets -underBinder; intro x; first | (refine Kept.cut (s0 := s0) (s1 := x) ?_ (fun _ => ?_); on_goal 1 => unfold x) | skip))

theorem execHwBudgetExpiry_kept (c : Fin 8) {s0 s : State} (h0 : Kept s0 s) : KeptX s0 (execHwBudgetExpiry c s) := by
  unfold execHwBudgetExpiry
  repeat' (first
    | with_reducible assumption
    | with_reducible apply Kept.ite
    | with_reducible apply Kept.fstIte
    | with_reducible refine Kept.foldl ?_ (fun _ _ _ => ?_)
    | with_reducible apply KeptX.mk'
    | with_reducible apply KeptX.ite
    | with_reducible apply hwRestart_kept
    | with_reducible apply raiseFault_kept
    | (refine Kept.fst (by with_reducible assumption) ?_)
    | split
    | fail_if_no_progress (with_reducible refine Kept.lit rfl rfl ?_)
    | (lift_lets -underBinder; intro x; first | (refine Kept.cut (s0 := s0) (s1 := x) ?_ (fun _ => ?_); on_goal 1 => unfold x) | skip))

theorem execWdogExpiry_kept (c : Fin 8) {s0 s : State} (h0 : Kept s0 s) : KeptX s0 (execWdogExpiry c s) := by
  unfold execWdogExpiry
  repeat' (first
    | with_reducible assumption
    | with_reducible apply Kept.ite
    | with_reducible apply Kept.fstIte
    | with_reducible refine Kept.foldl ?_ (fun _ _ _ => ?_)
    | with_reducible apply KeptX.mk'
    | with_reducible apply KeptX.ite
    | with_reducible apply hwRestart_kept
    | with_reducible apply raiseFault_kept
    | (refine Kept.fst (by with_reducible assumption) ?_)
    | split
    | fail_if_no_progress (with_reducible refine Kept.lit rfl rfl ?_)
    | (lift_lets -underBinder; intro x; first | (refine Kept.cut (s0 := s0) (s1 := x) ?_ (fun _ => ?_); on_goal 1 => unfold x) | skip))

theorem execKick_kept (m : Master) (value : Word) {s0 s : State} (h0 : Kept s0 s) : KeptX s0 (execKick m value s) := by
  unfold execKick
  repeat' (first
    | with_reducible assumption
    | with_reducible apply Kept.ite
    | with_reducible apply Kept.fstIte
    | with_reducible refine Kept.foldl ?_ (fun _ _ _ => ?_)
    | with_reducible apply KeptX.mk'
    | with_reducible apply KeptX.ite
    | with_reducible refine writeReg_kept _ _ _ _ (fun _ _ => ?_) ?_
    | with_reducible apply wdogOp_kept
    | (refine Kept.fst (by with_reducible assumption) ?_)
    | split
    | fail_if_no_progress (with_reducible refine Kept.lit rfl rfl ?_)
    | (lift_lets -underBinder; intro x; first | (refine Kept.cut (s0 := s0) (s1 := x) ?_ (fun _ => ?_); on_goal 1 => unfold x) | skip))

theorem execMonitorFault_kept (c : Fin 8) {s0 s : State} (h0 : Kept s0 s) : KeptX s0 (execMonitorFault c s) := by
  unfold execMonitorFault
  try lift_lets -underBinder
  repeat' (first
    | (intro x; first | (refine Kept.cut (s0 := s0) (s1 := x) ?_ (fun _ => ?_); on_goal 1 => unfold x) | skip)
    | with_reducible assumption
    | with_reducible apply Kept.ite
    | with_reducible apply Kept.fstIte
    | with_reducible refine Kept.foldl ?_ (fun _ _ _ => ?_)
    | with_reducible apply KeptX.mk'
    | with_reducible apply KeptX.ite
    | with_reducible apply State.draw_kept
    | with_reducible apply monitorException_kept
    | (refine Kept.fst (by with_reducible assumption) ?_)
    | (refine Kept.snd (by with_reducible assumption) ?_)
    | split
    | fail_if_no_progress (with_reducible refine Kept.lit rfl rfl ?_)
    | (lift_lets -underBinder; intro x; first | (refine Kept.cut (s0 := s0) (s1 := x) ?_ (fun _ => ?_); on_goal 1 => unfold x) | skip))

theorem execCoreParity_kept (c : Fin 8) {s0 s : State} (h0 : Kept s0 s) : KeptX s0 (execCoreParity c s) := by
  unfold execCoreParity
  repeat' (first
    | with_reducible assumption
    | with_reducible apply Kept.ite
    | with_reducible apply Kept.fstIte
    | with_reducible refine Kept.foldl ?_ (fun _ _ _ => ?_)
    | with_reducible apply KeptX.mk'
    | with_reducible apply KeptX.ite
    | with_reducible apply raiseFault_kept
    | (refine Kept.fst (by with_reducible assumption) ?_)
    | split
    | fail_if_no_progress (with_reducible refine Kept.lit rfl rfl ?_)
    | (lift_lets -underBinder; intro x; first | (refine Kept.cut (s0 := s0) (s1 := x) ?_ (fun _ => ?_); on_goal 1 => unfold x) | skip))

theorem execHwCtrlRestart_kept (m : Master) (value : Word) {s0 s : State} (h0 : Kept s0 s) :
    KeptX s0 (execHwCtrlRestart m value s) := by
  unfold execHwCtrlRestart
  repeat' (first
    | with_reducible assumption
    | with_reducible apply Kept.ite
    | with_reducible apply Kept.fstIte
    | with_reducible refine Kept.foldl ?_ (fun _ _ _ => ?_)
    | with_reducible apply KeptX.mk'
    | with_reducible apply KeptX.ite
    | with_reducible apply hwRestart_kept
    | with_reducible refine writeReg_kept _ _ _ _ (fun _ _ => ?_) ?_
    | (refine Kept.fst (by with_reducible assumption) ?_)
    | split
    | fail_if_no_progress (with_reducible refine Kept.lit rfl rfl ?_)
    | (lift_lets -underBinder; intro x; first | (refine Kept.cut (s0 := s0) (s1 := x) ?_ (fun _ => ?_); on_goal 1 => unfold x) | skip))

theorem execHwQuiesced_kept {s0 s : State} (h0 : Kept s0 s) : KeptX s0 (execHwQuiesced s) := by
  unfold execHwQuiesced
  repeat' (first
    | with_reducible assumption
    | with_reducible apply Kept.ite
    | with_reducible apply Kept.fstIte
    | with_reducible refine Kept.foldl ?_ (fun _ _ _ => ?_)
    | with_reducible apply KeptX.mk'
    | with_reducible apply KeptX.ite
    | (refine Kept.fst (by with_reducible assumption) ?_)
    | split
    | fail_if_no_progress (with_reducible refine Kept.lit rfl rfl ?_)
    | (lift_lets -underBinder; intro x; first | (refine Kept.cut (s0 := s0) (s1 := x) ?_ (fun _ => ?_); on_goal 1 => unfold x) | skip))

theorem execHwClearDone_kept {s0 s : State} (h0 : Kept s0 s) : KeptX s0 (execHwClearDone s) := by
  unfold execHwClearDone
  try lift_lets -underBinder
  repeat' (first
    | (intro x; first | (refine Kept.cut (s0 := s0) (s1 := x) ?_ (fun _ => ?_); on_goal 1 => unfold x) | skip)
    | with_reducible assumption
    | with_reducible apply Kept.ite
    | with_reducible apply Kept.fstIte
    | with_reducible refine Kept.foldl ?_ (fun _ _ _ => ?_)
    | with_reducible apply KeptX.mk'
    | with_reducible apply KeptX.ite
    | with_reducible apply zeroRange_kept
    | with_reducible apply measure_kept
    | (refine Kept.fst (by with_reducible assumption) ?_)
    | split
    | fail_if_no_progress (with_reducible refine Kept.lit rfl rfl ?_)
    | (lift_lets -underBinder; intro x; first | (refine Kept.cut (s0 := s0) (s1 := x) ?_ (fun _ => ?_); on_goal 1 => unfold x) | skip))

theorem execHwMeasureDone_kept {s0 s : State} (h0 : Kept s0 s) : KeptX s0 (execHwMeasureDone s) := by
  unfold execHwMeasureDone
  try lift_lets -underBinder
  repeat' (first
    | (intro x; first | (refine Kept.cut (s0 := s0) (s1 := x) ?_ (fun _ => ?_); on_goal 1 => unfold x) | skip)
    | with_reducible assumption
    | with_reducible apply Kept.ite
    | with_reducible apply Kept.fstIte
    | with_reducible refine Kept.foldl ?_ (fun _ _ _ => ?_)
    | with_reducible apply KeptX.mk'
    | with_reducible apply KeptX.ite
    | with_reducible apply State.setPf_kept
    | with_reducible apply State.event_kept
    | with_reducible apply raiseFault_kept
    | with_reducible apply measure_kept
    | with_reducible apply releaseHeartwood_kept
    | with_reducible apply bootMeasured_kept
    | (refine Kept.fst (by with_reducible assumption) ?_)
    | split
    | fail_if_no_progress (with_reducible refine Kept.lit rfl rfl ?_)
    | (lift_lets -underBinder; intro x; first | (refine Kept.cut (s0 := s0) (s1 := x) ?_ (fun _ => ?_); on_goal 1 => unfold x) | skip))

theorem execSafeOkSet_kept (m : Master) (value : Word) {s0 s : State} (h0 : Kept s0 s) :
    KeptX s0 (execSafeOkSet m value s) := by
  unfold execSafeOkSet
  repeat' (first
    | with_reducible assumption
    | with_reducible apply Kept.ite
    | with_reducible apply Kept.fstIte
    | with_reducible refine Kept.foldl ?_ (fun _ _ _ => ?_)
    | with_reducible apply KeptX.mk'
    | with_reducible apply KeptX.ite
    | with_reducible apply safeOkWrite_kept
    | (refine Kept.fst (by with_reducible assumption) ?_)
    | split
    | fail_if_no_progress (with_reducible refine Kept.lit rfl rfl ?_)
    | (lift_lets -underBinder; intro x; first | (refine Kept.cut (s0 := s0) (s1 := x) ?_ (fun _ => ?_); on_goal 1 => unfold x) | skip))

theorem execSafeOkKick_kept (m : Master) (value : Word) {s0 s : State} (h0 : Kept s0 s) :
    KeptX s0 (execSafeOkKick m value s) := by
  unfold execSafeOkKick
  repeat' (first
    | with_reducible assumption
    | with_reducible apply Kept.ite
    | with_reducible apply Kept.fstIte
    | with_reducible refine Kept.foldl ?_ (fun _ _ _ => ?_)
    | with_reducible apply KeptX.mk'
    | with_reducible apply KeptX.ite
    | with_reducible apply safeOkWrite_kept
    | (refine Kept.fst (by with_reducible assumption) ?_)
    | split
    | fail_if_no_progress (with_reducible refine Kept.lit rfl rfl ?_)
    | (lift_lets -underBinder; intro x; first | (refine Kept.cut (s0 := s0) (s1 := x) ?_ (fun _ => ?_); on_goal 1 => unfold x) | skip))

theorem execSafeOkExpired_kept {s0 s : State} (h0 : Kept s0 s) : KeptX s0 (execSafeOkExpired s) := by
  unfold execSafeOkExpired
  try lift_lets -underBinder
  repeat' (first
    | (intro x; first | (refine Kept.cut (s0 := s0) (s1 := x) ?_ (fun _ => ?_); on_goal 1 => unfold x) | skip)
    | with_reducible assumption
    | with_reducible apply Kept.ite
    | with_reducible apply Kept.fstIte
    | with_reducible refine Kept.foldl ?_ (fun _ _ _ => ?_)
    | with_reducible apply KeptX.mk'
    | with_reducible apply KeptX.ite
    | with_reducible apply State.setPf_kept
    | with_reducible apply State.event_kept
    | with_reducible apply raiseFault_kept
    | with_reducible apply relayUpdate_kept
    | (refine Kept.fst (by with_reducible assumption) ?_)
    | split
    | fail_if_no_progress (with_reducible refine Kept.lit rfl rfl ?_)
    | (lift_lets -underBinder; intro x; first | (refine Kept.cut (s0 := s0) (s1 := x) ?_ (fun _ => ?_); on_goal 1 => unfold x) | skip))

theorem execCvuEnable_kept (m : Master) (u : Fin 16) {s0 s : State} (h0 : Kept s0 s) :
    KeptX s0 (execCvuEnable m u s) := by
  unfold execCvuEnable
  repeat' (first
    | with_reducible assumption
    | with_reducible apply Kept.ite
    | with_reducible apply Kept.fstIte
    | with_reducible refine Kept.foldl ?_ (fun _ _ _ => ?_)
    | with_reducible apply KeptX.mk'
    | with_reducible apply KeptX.ite
    | with_reducible refine writeReg_kept _ _ _ _ (fun _ _ => ?_) ?_
    | with_reducible apply cvuEnableOp_kept
    | (refine Kept.fst (by with_reducible assumption) ?_)
    | split
    | fail_if_no_progress (with_reducible refine Kept.lit rfl rfl ?_)
    | (lift_lets -underBinder; intro x; first | (refine Kept.cut (s0 := s0) (s1 := x) ?_ (fun _ => ?_); on_goal 1 => unfold x) | skip))

theorem execCvuClose_kept (m : Master) (u : Fin 16) (value : Word) {s0 s : State} (h0 : Kept s0 s) :
    KeptX s0 (execCvuClose m u value s) := by
  unfold execCvuClose
  try lift_lets -underBinder
  repeat' (first
    | (intro x; first | (refine Kept.cut (s0 := s0) (s1 := x) ?_ (fun _ => ?_); on_goal 1 => unfold x) | skip)
    | with_reducible assumption
    | with_reducible apply Kept.ite
    | with_reducible apply Kept.fstIte
    | with_reducible refine Kept.foldl ?_ (fun _ _ _ => ?_)
    | with_reducible apply KeptX.mk'
    | with_reducible apply KeptX.ite
    | with_reducible refine writeReg_kept _ _ _ _ (fun _ _ => ?_) ?_
    | with_reducible apply cvuCloseOp_kept
    | (refine Kept.fst (by with_reducible assumption) ?_)
    | split
    | fail_if_no_progress (with_reducible refine Kept.lit rfl rfl ?_)
    | (lift_lets -underBinder; intro x; first | (refine Kept.cut (s0 := s0) (s1 := x) ?_ (fun _ => ?_); on_goal 1 => unfold x) | skip))

theorem execEnableDrainDone_kept (p : Page) {s0 s : State} (h0 : Kept s0 s) : KeptX s0 (execEnableDrainDone p s) := by
  unfold execEnableDrainDone
  repeat' (first
    | with_reducible assumption
    | with_reducible apply Kept.ite
    | with_reducible apply Kept.fstIte
    | with_reducible refine Kept.foldl ?_ (fun _ _ _ => ?_)
    | with_reducible apply KeptX.mk'
    | with_reducible apply KeptX.ite
    | with_reducible apply State.setBusy_kept
    | (refine Kept.fst (by with_reducible assumption) ?_)
    | split
    | fail_if_no_progress (with_reducible refine Kept.lit rfl rfl ?_)
    | (lift_lets -underBinder; intro x; first | (refine Kept.cut (s0 := s0) (s1 := x) ?_ (fun _ => ?_); on_goal 1 => unfold x) | skip))

theorem execFaultRaised_kept (p : Page) (b : Fin 32) (item : Nat) {s0 s : State} (h0 : Kept s0 s) :
    KeptX s0 (execFaultRaised p b item s) := by
  unfold execFaultRaised
  repeat' (first
    | with_reducible assumption
    | with_reducible apply Kept.ite
    | with_reducible apply Kept.fstIte
    | with_reducible refine Kept.foldl ?_ (fun _ _ _ => ?_)
    | with_reducible apply KeptX.mk'
    | with_reducible apply KeptX.ite
    | with_reducible apply senseParity_kept
    | with_reducible apply countedFault_kept
    | with_reducible apply faultItem_kept
    | (refine Kept.fst (by with_reducible assumption) ?_)
    | split
    | fail_if_no_progress (with_reducible refine Kept.lit rfl rfl ?_)
    | (lift_lets -underBinder; intro x; first | (refine Kept.cut (s0 := s0) (s1 := x) ?_ (fun _ => ?_); on_goal 1 => unfold x) | skip))

theorem execHeaderParityError_kept (p : Page) (r : Fin 7) {s0 s : State} (h0 : Kept s0 s) :
    KeptX s0 (execHeaderParityError p r s) := by
  unfold execHeaderParityError
  repeat' (first
    | with_reducible assumption
    | with_reducible apply Kept.ite
    | with_reducible apply Kept.fstIte
    | with_reducible refine Kept.foldl ?_ (fun _ _ _ => ?_)
    | with_reducible apply KeptX.mk'
    | with_reducible apply KeptX.ite
    | with_reducible apply headerFails_kept
    | (refine Kept.fst (by with_reducible assumption) ?_)
    | split
    | fail_if_no_progress (with_reducible refine Kept.lit rfl rfl ?_)
    | (lift_lets -underBinder; intro x; first | (refine Kept.cut (s0 := s0) (s1 := x) ?_ (fun _ => ?_); on_goal 1 => unfold x) | skip))

theorem execSafeRequest_kept (m : Master) (value : Word) {s0 s : State} (h0 : Kept s0 s) :
    KeptX s0 (execSafeRequest m value s) := by
  unfold execSafeRequest
  repeat' (first
    | with_reducible assumption
    | with_reducible apply Kept.ite
    | with_reducible apply Kept.fstIte
    | with_reducible refine Kept.foldl ?_ (fun _ _ _ => ?_)
    | with_reducible apply KeptX.mk'
    | with_reducible apply KeptX.ite
    | with_reducible apply raiseFault_kept
    | with_reducible refine writeReg_kept _ _ _ _ (fun _ _ => ?_) ?_
    | (refine Kept.fst (by with_reducible assumption) ?_)
    | split
    | fail_if_no_progress (with_reducible refine Kept.lit rfl rfl ?_)
    | (lift_lets -underBinder; intro x; first | (refine Kept.cut (s0 := s0) (s1 := x) ?_ (fun _ => ?_); on_goal 1 => unfold x) | skip))

theorem execFaultInjectArm_kept (m : Master) (p : Page) (value : Word) {s0 s : State} (h0 : Kept s0 s) :
    KeptX s0 (execFaultInjectArm m p value s) := by
  unfold execFaultInjectArm
  try lift_lets -underBinder
  repeat' (first
    | (intro x; first | (refine Kept.cut (s0 := s0) (s1 := x) ?_ (fun _ => ?_); on_goal 1 => unfold x) | skip)
    | with_reducible assumption
    | with_reducible apply Kept.ite
    | with_reducible apply Kept.fstIte
    | with_reducible refine Kept.foldl ?_ (fun _ _ _ => ?_)
    | with_reducible apply KeptX.mk'
    | with_reducible apply KeptX.ite
    | with_reducible refine writeReg_kept _ _ _ _ (fun _ _ => ?_) ?_
    | with_reducible apply injectOp_kept
    | (refine Kept.fst (by with_reducible assumption) ?_)
    | split
    | fail_if_no_progress (with_reducible refine Kept.lit rfl rfl ?_)
    | (lift_lets -underBinder; intro x; first | (refine Kept.cut (s0 := s0) (s1 := x) ?_ (fun _ => ?_); on_goal 1 => unfold x) | skip))

theorem execSetFault_kept (p : Page) {s0 s : State} (h0 : Kept s0 s) : KeptX s0 (execSetFault p s) := by
  unfold execSetFault
  repeat' (first
    | with_reducible assumption
    | with_reducible apply Kept.ite
    | with_reducible apply Kept.fstIte
    | with_reducible refine Kept.foldl ?_ (fun _ _ _ => ?_)
    | with_reducible apply KeptX.mk'
    | with_reducible apply KeptX.ite
    | with_reducible apply fireInject_kept
    | with_reducible apply countedFault_kept
    | (refine Kept.fst (by with_reducible assumption) ?_)
    | split
    | fail_if_no_progress (with_reducible refine Kept.lit rfl rfl ?_)
    | (lift_lets -underBinder; intro x; first | (refine Kept.cut (s0 := s0) (s1 := x) ?_ (fun _ => ?_); on_goal 1 => unfold x) | skip))

theorem execHeaderParity_kept (p : Page) {s0 s : State} (h0 : Kept s0 s) : KeptX s0 (execHeaderParity p s) := by
  unfold execHeaderParity
  repeat' (first
    | with_reducible assumption
    | with_reducible apply Kept.ite
    | with_reducible apply Kept.fstIte
    | with_reducible refine Kept.foldl ?_ (fun _ _ _ => ?_)
    | with_reducible apply KeptX.mk'
    | with_reducible apply KeptX.ite
    | with_reducible apply fireInject_kept
    | with_reducible apply headerFails_kept
    | (refine Kept.fst (by with_reducible assumption) ?_)
    | split
    | fail_if_no_progress (with_reducible refine Kept.lit rfl rfl ?_)
    | (lift_lets -underBinder; intro x; first | (refine Kept.cut (s0 := s0) (s1 := x) ?_ (fun _ => ?_); on_goal 1 => unfold x) | skip))

theorem execLinkReplay_kept (link : Fin 40) (failed : Fin 5) {s0 s : State} (h0 : Kept s0 s) :
    KeptX s0 (execLinkReplay link failed s) := by
  unfold execLinkReplay
  repeat' (first
    | with_reducible assumption
    | with_reducible apply Kept.ite
    | with_reducible apply Kept.fstIte
    | with_reducible refine Kept.foldl ?_ (fun _ _ _ => ?_)
    | with_reducible apply KeptX.mk'
    | with_reducible apply KeptX.ite
    | with_reducible apply linkReplay_kept
    | (refine Kept.fst (by with_reducible assumption) ?_)
    | split
    | fail_if_no_progress (with_reducible refine Kept.lit rfl rfl ?_)
    | (lift_lets -underBinder; intro x; first | (refine Kept.cut (s0 := s0) (s1 := x) ?_ (fun _ => ?_); on_goal 1 => unfold x) | skip))

theorem execDrop_kept {s0 s : State} (h0 : Kept s0 s) : KeptX s0 (execDrop s) := by
  unfold execDrop
  repeat' (first
    | with_reducible assumption
    | with_reducible apply Kept.ite
    | with_reducible apply Kept.fstIte
    | with_reducible refine Kept.foldl ?_ (fun _ _ _ => ?_)
    | with_reducible apply KeptX.mk'
    | with_reducible apply KeptX.ite
    | with_reducible refine fabricInject_kept _ _ (fun _ _ _ _ => ?_) ?_
    | with_reducible apply packetAstray_kept
    | (refine Kept.fst (by with_reducible assumption) ?_)
    | split
    | fail_if_no_progress (with_reducible refine Kept.lit rfl rfl ?_)
    | (lift_lets -underBinder; intro x; first | (refine Kept.cut (s0 := s0) (s1 := x) ?_ (fun _ => ?_); on_goal 1 => unfold x) | skip))

theorem execCorrupt_kept {s0 s : State} (h0 : Kept s0 s) : KeptX s0 (execCorrupt s) := by
  unfold execCorrupt
  repeat' (first
    | with_reducible assumption
    | with_reducible apply Kept.ite
    | with_reducible apply Kept.fstIte
    | with_reducible refine Kept.foldl ?_ (fun _ _ _ => ?_)
    | with_reducible apply KeptX.mk'
    | with_reducible apply KeptX.ite
    | with_reducible apply linkReplay_kept
    | with_reducible refine fabricInject_kept _ _ (fun _ _ _ _ => ?_) ?_
    | (refine Kept.fst (by with_reducible assumption) ?_)
    | split
    | fail_if_no_progress (with_reducible refine Kept.lit rfl rfl ?_)
    | (lift_lets -underBinder; intro x; first | (refine Kept.cut (s0 := s0) (s1 := x) ?_ (fun _ => ?_); on_goal 1 => unfold x) | skip))

theorem execReorder_kept {s0 s : State} (h0 : Kept s0 s) : KeptX s0 (execReorder s) := by
  unfold execReorder
  repeat' (first
    | with_reducible assumption
    | with_reducible apply Kept.ite
    | with_reducible apply Kept.fstIte
    | with_reducible refine Kept.foldl ?_ (fun _ _ _ => ?_)
    | with_reducible apply KeptX.mk'
    | with_reducible apply KeptX.ite
    | with_reducible refine fabricInject_kept _ _ (fun _ _ _ _ => ?_) ?_
    | with_reducible apply packetAstray_kept
    | (refine Kept.fst (by with_reducible assumption) ?_)
    | split
    | fail_if_no_progress (with_reducible refine Kept.lit rfl rfl ?_)
    | (lift_lets -underBinder; intro x; first | (refine Kept.cut (s0 := s0) (s1 := x) ?_ (fun _ => ?_); on_goal 1 => unfold x) | skip))

theorem execBurst_kept {s0 s : State} (h0 : Kept s0 s) : KeptX s0 (execBurst s) := by
  unfold execBurst
  repeat' (first
    | with_reducible assumption
    | with_reducible apply Kept.ite
    | with_reducible apply Kept.fstIte
    | with_reducible refine Kept.foldl ?_ (fun _ _ _ => ?_)
    | with_reducible apply KeptX.mk'
    | with_reducible apply KeptX.ite
    | with_reducible apply linkReplay_kept
    | with_reducible refine fabricInject_kept _ _ (fun _ _ _ _ => ?_) ?_
    | (refine Kept.fst (by with_reducible assumption) ?_)
    | split
    | fail_if_no_progress (with_reducible refine Kept.lit rfl rfl ?_)
    | (lift_lets -underBinder; intro x; first | (refine Kept.cut (s0 := s0) (s1 := x) ?_ (fun _ => ?_); on_goal 1 => unfold x) | skip))

theorem execLcrc_kept (port : Fin 2) {s0 s : State} (h0 : Kept s0 s) : KeptX s0 (execLcrc port s) := by
  unfold execLcrc
  repeat' (first
    | with_reducible assumption
    | with_reducible apply Kept.ite
    | with_reducible apply Kept.fstIte
    | with_reducible refine Kept.foldl ?_ (fun _ _ _ => ?_)
    | with_reducible apply KeptX.mk'
    | with_reducible apply KeptX.ite
    | with_reducible apply fireInject_kept
    | (refine Kept.fst (by with_reducible assumption) ?_)
    | split
    | fail_if_no_progress (with_reducible refine Kept.lit rfl rfl ?_)
    | (lift_lets -underBinder; intro x; first | (refine Kept.cut (s0 := s0) (s1 := x) ?_ (fun _ => ?_); on_goal 1 => unfold x) | skip))

theorem execAuxDrop_kept (n : Fin 12) {s0 s : State} (h0 : Kept s0 s) : KeptX s0 (execAuxDrop n s) := by
  unfold execAuxDrop
  try lift_lets -underBinder
  repeat' (first
    | (intro x; first | (refine Kept.cut (s0 := s0) (s1 := x) ?_ (fun _ => ?_); on_goal 1 => unfold x) | skip)
    | with_reducible assumption
    | with_reducible apply Kept.ite
    | with_reducible apply Kept.fstIte
    | with_reducible refine Kept.foldl ?_ (fun _ _ _ => ?_)
    | with_reducible apply KeptX.mk'
    | with_reducible apply KeptX.ite
    | with_reducible apply State.setHead_kept
    | with_reducible apply auxTimedOut_kept
    | with_reducible apply fireInject_kept
    | (refine Kept.fst (by with_reducible assumption) ?_)
    | split
    | fail_if_no_progress (with_reducible refine Kept.lit rfl rfl ?_)
    | (lift_lets -underBinder; intro x; first | (refine Kept.cut (s0 := s0) (s1 := x) ?_ (fun _ => ?_); on_goal 1 => unfold x) | skip))

theorem execTileParity_kept (b : Fin 48) {s0 s : State} (h0 : Kept s0 s) : KeptX s0 (execTileParity b s) := by
  unfold execTileParity
  repeat' (first
    | with_reducible assumption
    | with_reducible apply Kept.ite
    | with_reducible apply Kept.fstIte
    | with_reducible refine Kept.foldl ?_ (fun _ _ _ => ?_)
    | with_reducible apply KeptX.mk'
    | with_reducible apply KeptX.ite
    | with_reducible apply raiseFault_kept
    | with_reducible apply fireInject_kept
    | (refine Kept.fst (by with_reducible assumption) ?_)
    | split
    | fail_if_no_progress (with_reducible refine Kept.lit rfl rfl ?_)
    | (lift_lets -underBinder; intro x; first | (refine Kept.cut (s0 := s0) (s1 := x) ?_ (fun _ => ?_); on_goal 1 => unfold x) | skip))

theorem execGlyphParity_kept (n : Fin 12) (g : Fin 8192) {s0 s : State} (h0 : Kept s0 s) :
    KeptX s0 (execGlyphParity n g s) := by
  unfold execGlyphParity
  try lift_lets -underBinder
  repeat' (first
    | (intro x; first | (refine Kept.cut (s0 := s0) (s1 := x) ?_ (fun _ => ?_); on_goal 1 => unfold x) | skip)
    | with_reducible assumption
    | with_reducible apply Kept.ite
    | with_reducible apply Kept.fstIte
    | with_reducible refine Kept.foldl ?_ (fun _ _ _ => ?_)
    | with_reducible apply KeptX.mk'
    | with_reducible apply KeptX.ite
    | with_reducible apply fireInject_kept
    | with_reducible apply glyphParity_kept
    | (refine Kept.fst (by with_reducible assumption) ?_)
    | split
    | fail_if_no_progress (with_reducible refine Kept.lit rfl rfl ?_)
    | (lift_lets -underBinder; intro x; first | (refine Kept.cut (s0 := s0) (s1 := x) ?_ (fun _ => ?_); on_goal 1 => unfold x) | skip))

theorem execReadError_kept (n : Fin 12) (r : Fin 3) (line : Nat) {s0 s : State} (h0 : Kept s0 s) :
    KeptX s0 (execReadError n r line s) := by
  unfold execReadError
  try lift_lets -underBinder
  repeat' (first
    | (intro x; first | (refine Kept.cut (s0 := s0) (s1 := x) ?_ (fun _ => ?_); on_goal 1 => unfold x) | skip)
    | with_reducible assumption
    | with_reducible apply Kept.ite
    | with_reducible apply Kept.fstIte
    | with_reducible refine Kept.foldl ?_ (fun _ _ _ => ?_)
    | with_reducible apply KeptX.mk'
    | with_reducible apply KeptX.ite
    | with_reducible apply fireInject_kept
    | with_reducible apply veneerFallback_kept
    | (refine Kept.fst (by with_reducible assumption) ?_)
    | split
    | fail_if_no_progress (with_reducible refine Kept.lit rfl rfl ?_)
    | (lift_lets -underBinder; intro x; first | (refine Kept.cut (s0 := s0) (s1 := x) ?_ (fun _ => ?_); on_goal 1 => unfold x) | skip))

theorem execStatCfgWrite_kept (m : Master) (k : Fin 16) (value : Word) {s0 s : State} (h0 : Kept s0 s) :
    KeptX s0 (execStatCfgWrite m k value s) := by
  unfold execStatCfgWrite
  repeat' (first
    | with_reducible assumption
    | with_reducible apply Kept.ite
    | with_reducible apply Kept.fstIte
    | with_reducible refine Kept.foldl ?_ (fun _ _ _ => ?_)
    | with_reducible apply KeptX.mk'
    | with_reducible apply KeptX.ite
    | with_reducible refine writeReg_kept _ _ _ _ (fun _ _ => ?_) ?_
    | with_reducible apply statCfgOp_kept
    | (refine Kept.fst (by with_reducible assumption) ?_)
    | split
    | fail_if_no_progress (with_reducible refine Kept.lit rfl rfl ?_)
    | (lift_lets -underBinder; intro x; first | (refine Kept.cut (s0 := s0) (s1 := x) ?_ (fun _ => ?_); on_goal 1 => unfold x) | skip))

theorem execRender_kept (slot : Fin 1024) {s0 s : State} (h0 : Kept s0 s) : KeptX s0 (execRender slot s) := by
  unfold execRender
  repeat' (first
    | with_reducible assumption
    | with_reducible apply Kept.ite
    | with_reducible apply Kept.fstIte
    | with_reducible refine Kept.foldl ?_ (fun _ _ _ => ?_)
    | with_reducible apply KeptX.mk'
    | with_reducible apply KeptX.ite
    | with_reducible apply State.setJob_kept
    | with_reducible apply endJobAs_kept
    | with_reducible apply readPass_kept
    | (refine Kept.fst (by with_reducible assumption) ?_)
    | split
    | fail_if_no_progress (with_reducible refine Kept.lit rfl rfl ?_)
    | (lift_lets -underBinder; intro x; first | (refine Kept.cut (s0 := s0) (s1 := x) ?_ (fun _ => ?_); on_goal 1 => unfold x) | skip))

theorem execHostTrigger_kept (m : Master) (ch : Fin 16) (effect : Fin 64) {s0 s : State} (h0 : Kept s0 s) :
    KeptX s0 (execHostTrigger m ch effect s) := by
  unfold execHostTrigger
  repeat' (first
    | with_reducible assumption
    | with_reducible apply Kept.ite
    | with_reducible apply Kept.fstIte
    | with_reducible refine Kept.foldl ?_ (fun _ _ _ => ?_)
    | with_reducible apply KeptX.mk'
    | with_reducible apply KeptX.ite
    | with_reducible refine writeReg_kept _ _ _ _ (fun _ _ => ?_) ?_
    | with_reducible apply hostTriggerOp_kept
    | (refine Kept.fst (by with_reducible assumption) ?_)
    | split
    | fail_if_no_progress (with_reducible refine Kept.lit rfl rfl ?_)
    | (lift_lets -underBinder; intro x; first | (refine Kept.cut (s0 := s0) (s1 := x) ?_ (fun _ => ?_); on_goal 1 => unfold x) | skip))

theorem execStop_kept (m : Master) (ch : Fin 16) {s0 s : State} (h0 : Kept s0 s) : KeptX s0 (execStop m ch s) := by
  unfold execStop
  repeat' (first
    | with_reducible assumption
    | with_reducible apply Kept.ite
    | with_reducible apply Kept.fstIte
    | with_reducible refine Kept.foldl ?_ (fun _ _ _ => ?_)
    | with_reducible apply KeptX.mk'
    | with_reducible apply KeptX.ite
    | with_reducible refine writeReg_kept _ _ _ _ (fun _ _ => ?_) ?_
    | with_reducible apply hapStopOp_kept
    | (refine Kept.fst (by with_reducible assumption) ?_)
    | split
    | fail_if_no_progress (with_reducible refine Kept.lit rfl rfl ?_)
    | (lift_lets -underBinder; intro x; first | (refine Kept.cut (s0 := s0) (s1 := x) ?_ (fun _ => ?_); on_goal 1 => unfold x) | skip))

theorem execHapchEnable_kept (m : Master) (ch : Fin 16) {s0 s : State} (h0 : Kept s0 s) :
    KeptX s0 (execHapchEnable m ch s) := by
  unfold execHapchEnable
  repeat' (first
    | with_reducible assumption
    | with_reducible apply Kept.ite
    | with_reducible apply Kept.fstIte
    | with_reducible refine Kept.foldl ?_ (fun _ _ _ => ?_)
    | with_reducible apply KeptX.mk'
    | with_reducible apply KeptX.ite
    | with_reducible refine writeReg_kept _ _ _ _ (fun _ _ => ?_) ?_
    | with_reducible apply hapEnableOp_kept
    | (refine Kept.fst (by with_reducible assumption) ?_)
    | split
    | fail_if_no_progress (with_reducible refine Kept.lit rfl rfl ?_)
    | (lift_lets -underBinder; intro x; first | (refine Kept.cut (s0 := s0) (s1 := x) ?_ (fun _ => ?_); on_goal 1 => unfold x) | skip))

theorem execHalfCycleEnd_kept (ch : Fin 16) (crossing : Option Nat) (iPeak bemf : BitVec 16) (limited : Bool) {s0 s : State} (h0 : Kept s0 s) :
    KeptX s0 (execHalfCycleEnd ch crossing iPeak bemf limited s) := by
  unfold execHalfCycleEnd
  repeat' (first
    | with_reducible assumption
    | with_reducible apply Kept.ite
    | with_reducible apply Kept.fstIte
    | with_reducible refine Kept.foldl ?_ (fun _ _ _ => ?_)
    | with_reducible apply KeptX.mk'
    | with_reducible apply KeptX.ite
    | with_reducible apply halfCycle_kept
    | (refine Kept.fst (by with_reducible assumption) ?_)
    | split
    | fail_if_no_progress (with_reducible refine Kept.lit rfl rfl ?_)
    | (lift_lets -underBinder; intro x; first | (refine Kept.cut (s0 := s0) (s1 := x) ?_ (fun _ => ?_); on_goal 1 => unfold x) | skip))

theorem execPowerMeasure_kept (p : BitVec 16) {s0 s : State} (h0 : Kept s0 s) : KeptX s0 (execPowerMeasure p s) := by
  unfold execPowerMeasure
  try lift_lets -underBinder
  repeat' (first
    | (intro x; first | (refine Kept.cut (s0 := s0) (s1 := x) ?_ (fun _ => ?_); on_goal 1 => unfold x) | skip)
    | with_reducible assumption
    | with_reducible apply Kept.ite
    | with_reducible apply Kept.fstIte
    | with_reducible refine Kept.foldl ?_ (fun _ _ _ => ?_)
    | with_reducible apply KeptX.mk'
    | with_reducible apply KeptX.ite
    | with_reducible apply State.setPr_kept
    | with_reducible apply State.setPf_kept
    | with_reducible apply State.count_kept
    | with_reducible apply State.event_kept
    | with_reducible apply hapRescale_kept
    | (refine Kept.fst (by with_reducible assumption) ?_)
    | split
    | fail_if_no_progress (with_reducible refine Kept.lit rfl rfl ?_)
    | (lift_lets -underBinder; intro x; first | (refine Kept.cut (s0 := s0) (s1 := x) ?_ (fun _ => ?_); on_goal 1 => unfold x) | skip))

theorem execRailFault_kept {s0 s : State} (h0 : Kept s0 s) : KeptX s0 (execRailFault s) := by
  unfold execRailFault
  try lift_lets -underBinder
  repeat' (first
    | (intro x; first | (refine Kept.cut (s0 := s0) (s1 := x) ?_ (fun _ => ?_); on_goal 1 => unfold x) | skip)
    | with_reducible assumption
    | with_reducible apply Kept.ite
    | with_reducible apply Kept.fstIte
    | with_reducible refine Kept.foldl ?_ (fun _ _ _ => ?_)
    | with_reducible apply KeptX.mk'
    | with_reducible apply KeptX.ite
    | with_reducible apply State.setPf_kept
    | with_reducible apply hapStop_kept
    | with_reducible apply raiseFault_kept
    | (refine Kept.fst (by with_reducible assumption) ?_)
    | split
    | fail_if_no_progress (with_reducible refine Kept.lit rfl rfl ?_)
    | (lift_lets -underBinder; intro x; first | (refine Kept.cut (s0 := s0) (s1 := x) ?_ (fun _ => ?_); on_goal 1 => unfold x) | skip))

theorem execRailOk_kept {s0 s : State} (h0 : Kept s0 s) : KeptX s0 (execRailOk s) := by
  unfold execRailOk
  repeat' (first
    | with_reducible assumption
    | with_reducible apply Kept.ite
    | with_reducible apply Kept.fstIte
    | with_reducible refine Kept.foldl ?_ (fun _ _ _ => ?_)
    | with_reducible apply KeptX.mk'
    | with_reducible apply KeptX.ite
    | with_reducible apply State.setPf_kept
    | (refine Kept.fst (by with_reducible assumption) ?_)
    | split
    | fail_if_no_progress (with_reducible refine Kept.lit rfl rfl ?_)
    | (lift_lets -underBinder; intro x; first | (refine Kept.cut (s0 := s0) (s1 := x) ?_ (fun _ => ?_); on_goal 1 => unfold x) | skip))

theorem execHpdPlug_kept (n : Fin 12) (rate : Fin 7) (lanes : Fin 3) (dsc : Bool) {s0 s : State} (h0 : Kept s0 s) :
    KeptX s0 (execHpdPlug n rate lanes dsc s) := by
  unfold execHpdPlug
  try lift_lets -underBinder
  repeat' (first
    | (intro x; first | (refine Kept.cut (s0 := s0) (s1 := x) ?_ (fun _ => ?_); on_goal 1 => unfold x) | skip)
    | with_reducible assumption
    | with_reducible apply Kept.ite
    | with_reducible apply Kept.fstIte
    | with_reducible refine Kept.foldl ?_ (fun _ _ _ => ?_)
    | with_reducible apply KeptX.mk'
    | with_reducible apply KeptX.ite
    | with_reducible apply State.setPr_kept
    | with_reducible apply State.event_kept
    | with_reducible apply b4HpdChange_kept
    | with_reducible apply setLink_kept
    | (refine Kept.fst (by with_reducible assumption) ?_)
    | split
    | fail_if_no_progress (with_reducible refine Kept.lit rfl rfl ?_)
    | (lift_lets -underBinder; intro x; first | (refine Kept.cut (s0 := s0) (s1 := x) ?_ (fun _ => ?_); on_goal 1 => unfold x) | skip))

theorem execHpdUnplug_kept (n : Fin 12) {s0 s : State} (h0 : Kept s0 s) : KeptX s0 (execHpdUnplug n s) := by
  unfold execHpdUnplug
  try lift_lets -underBinder
  repeat' (first
    | (intro x; first | (refine Kept.cut (s0 := s0) (s1 := x) ?_ (fun _ => ?_); on_goal 1 => unfold x) | skip)
    | with_reducible assumption
    | with_reducible apply Kept.ite
    | with_reducible apply Kept.fstIte
    | with_reducible refine Kept.foldl ?_ (fun _ _ _ => ?_)
    | with_reducible apply KeptX.mk'
    | with_reducible apply KeptX.ite
    | with_reducible apply State.event_kept
    | with_reducible apply State.setHead_kept
    | with_reducible apply b4HpdChange_kept
    | with_reducible apply setLink_kept
    | with_reducible apply linkIdle_kept
    | with_reducible apply linkLoss_kept
    | (refine Kept.fst (by with_reducible assumption) ?_)
    | split
    | fail_if_no_progress (with_reducible refine Kept.lit rfl rfl ?_)
    | (lift_lets -underBinder; intro x; first | (refine Kept.cut (s0 := s0) (s1 := x) ?_ (fun _ => ?_); on_goal 1 => unfold x) | skip))

theorem execIrqHpd_kept (n : Fin 12) (lostLock : Bool) {s0 s : State} (h0 : Kept s0 s) :
    KeptX s0 (execIrqHpd n lostLock s) := by
  unfold execIrqHpd
  try lift_lets -underBinder
  repeat' (first
    | (intro x; first | (refine Kept.cut (s0 := s0) (s1 := x) ?_ (fun _ => ?_); on_goal 1 => unfold x) | skip)
    | with_reducible assumption
    | with_reducible apply Kept.ite
    | with_reducible apply Kept.fstIte
    | with_reducible refine Kept.foldl ?_ (fun _ _ _ => ?_)
    | with_reducible apply KeptX.mk'
    | with_reducible apply KeptX.ite
    | with_reducible apply State.event_kept
    | with_reducible apply startTraining_kept
    | with_reducible apply linkLoss_kept
    | (refine Kept.fst (by with_reducible assumption) ?_)
    | split
    | fail_if_no_progress (with_reducible refine Kept.lit rfl rfl ?_)
    | (lift_lets -underBinder; intro x; first | (refine Kept.cut (s0 := s0) (s1 := x) ?_ (fun _ => ?_); on_goal 1 => unfold x) | skip))

theorem execLinkTraining_kept (n : Fin 12) {s0 s : State} (h0 : Kept s0 s) : KeptX s0 (execLinkTraining n s) := by
  unfold execLinkTraining
  repeat' (first
    | with_reducible assumption
    | with_reducible apply Kept.ite
    | with_reducible apply Kept.fstIte
    | with_reducible refine Kept.foldl ?_ (fun _ _ _ => ?_)
    | with_reducible apply KeptX.mk'
    | with_reducible apply KeptX.ite
    | with_reducible apply startTraining_kept
    | (refine Kept.fst (by with_reducible assumption) ?_)
    | split
    | fail_if_no_progress (with_reducible refine Kept.lit rfl rfl ?_)
    | (lift_lets -underBinder; intro x; first | (refine Kept.cut (s0 := s0) (s1 := x) ?_ (fun _ => ?_); on_goal 1 => unfold x) | skip))

theorem execTrainingAttemptEnd_kept (n : Fin 12) (ok : Bool) {s0 s : State} (h0 : Kept s0 s) :
    KeptX s0 (execTrainingAttemptEnd n ok s) := by
  unfold execTrainingAttemptEnd
  try lift_lets -underBinder
  repeat' (first
    | (intro x; first | (refine Kept.cut (s0 := s0) (s1 := x) ?_ (fun _ => ?_); on_goal 1 => unfold x) | skip)
    | with_reducible assumption
    | with_reducible apply Kept.ite
    | with_reducible apply Kept.fstIte
    | with_reducible refine Kept.foldl ?_ (fun _ _ _ => ?_)
    | with_reducible apply KeptX.mk'
    | with_reducible apply KeptX.ite
    | with_reducible apply State.event_kept
    | with_reducible apply State.setHead_kept
    | with_reducible apply setLink_kept
    | with_reducible apply trainFail_kept
    | (refine Kept.fst (by with_reducible assumption) ?_)
    | split
    | fail_if_no_progress (with_reducible refine Kept.lit rfl rfl ?_)
    | (lift_lets -underBinder; intro x; first | (refine Kept.cut (s0 := s0) (s1 := x) ?_ (fun _ => ?_); on_goal 1 => unfold x) | skip))

theorem execStreamUnderflow_kept (n : Fin 12) {s0 s : State} (h0 : Kept s0 s) : KeptX s0 (execStreamUnderflow n s) := by
  unfold execStreamUnderflow
  try lift_lets -underBinder
  repeat' (first
    | (intro x; first | (refine Kept.cut (s0 := s0) (s1 := x) ?_ (fun _ => ?_); on_goal 1 => unfold x) | skip)
    | with_reducible assumption
    | with_reducible apply Kept.ite
    | with_reducible apply Kept.fstIte
    | with_reducible refine Kept.foldl ?_ (fun _ _ _ => ?_)
    | with_reducible apply KeptX.mk'
    | with_reducible apply KeptX.ite
    | with_reducible apply raiseFault_kept
    | with_reducible apply startTraining_kept
    | with_reducible apply linkLoss_kept
    | (refine Kept.fst (by with_reducible assumption) ?_)
    | split
    | fail_if_no_progress (with_reducible refine Kept.lit rfl rfl ?_)
    | (lift_lets -underBinder; intro x; first | (refine Kept.cut (s0 := s0) (s1 := x) ?_ (fun _ => ?_); on_goal 1 => unfold x) | skip))

theorem execPhyFault_kept (n : Fin 12) {s0 s : State} (h0 : Kept s0 s) : KeptX s0 (execPhyFault n s) := by
  unfold execPhyFault
  repeat' (first
    | with_reducible assumption
    | with_reducible apply Kept.ite
    | with_reducible apply Kept.fstIte
    | with_reducible refine Kept.foldl ?_ (fun _ _ _ => ?_)
    | with_reducible apply KeptX.mk'
    | with_reducible apply KeptX.ite
    | with_reducible apply raiseFault_kept
    | (refine Kept.fst (by with_reducible assumption) ?_)
    | split
    | fail_if_no_progress (with_reducible refine Kept.lit rfl rfl ?_)
    | (lift_lets -underBinder; intro x; first | (refine Kept.cut (s0 := s0) (s1 := x) ?_ (fun _ => ?_); on_goal 1 => unfold x) | skip))

theorem execEdidReadDone_kept (n : Fin 12) (blocks : List (List (BitVec 8))) {s0 s : State} (h0 : Kept s0 s) :
    KeptX s0 (execEdidReadDone n blocks s) := by
  unfold execEdidReadDone
  try lift_lets -underBinder
  repeat' (first
    | (intro x; first | (refine Kept.cut (s0 := s0) (s1 := x) ?_ (fun _ => ?_); on_goal 1 => unfold x) | skip)
    | with_reducible assumption
    | with_reducible apply Kept.ite
    | with_reducible apply Kept.fstIte
    | with_reducible refine Kept.foldl ?_ (fun _ _ _ => ?_)
    | with_reducible apply KeptX.mk'
    | with_reducible apply KeptX.ite
    | with_reducible apply State.setPr_kept
    | with_reducible apply State.event_kept
    | (refine Kept.fst (by with_reducible assumption) ?_)
    | split
    | fail_if_no_progress (with_reducible refine Kept.lit rfl rfl ?_)
    | (lift_lets -underBinder; intro x; first | (refine Kept.cut (s0 := s0) (s1 := x) ?_ (fun _ => ?_); on_goal 1 => unfold x) | skip))

theorem execAuxTimeout_kept (n : Fin 12) {s0 s : State} (h0 : Kept s0 s) : KeptX s0 (execAuxTimeout n s) := by
  unfold execAuxTimeout
  repeat' (first
    | with_reducible assumption
    | with_reducible apply Kept.ite
    | with_reducible apply Kept.fstIte
    | with_reducible refine Kept.foldl ?_ (fun _ _ _ => ?_)
    | with_reducible apply KeptX.mk'
    | with_reducible apply KeptX.ite
    | with_reducible apply auxTimedOut_kept
    | (refine Kept.fst (by with_reducible assumption) ?_)
    | split
    | fail_if_no_progress (with_reducible refine Kept.lit rfl rfl ?_)
    | (lift_lets -underBinder; intro x; first | (refine Kept.cut (s0 := s0) (s1 := x) ?_ (fun _ => ?_); on_goal 1 => unfold x) | skip))

theorem execAuxReply_kept (n : Fin 12) (reply : AuxReply) {s0 s : State} (h0 : Kept s0 s) :
    KeptX s0 (execAuxReply n reply s) := by
  unfold execAuxReply
  try lift_lets -underBinder
  repeat' (first
    | (intro x; first | (refine Kept.cut (s0 := s0) (s1 := x) ?_ (fun _ => ?_); on_goal 1 => unfold x) | skip)
    | with_reducible assumption
    | with_reducible apply Kept.ite
    | with_reducible apply Kept.fstIte
    | with_reducible refine Kept.foldl ?_ (fun _ _ _ => ?_)
    | with_reducible apply KeptX.mk'
    | with_reducible apply KeptX.ite
    | with_reducible apply State.setPr_kept
    | with_reducible apply State.setHead_kept
    | with_reducible apply raiseFault_kept
    | with_reducible apply auxEnd_kept
    | with_reducible apply auxRetry_kept
    | with_reducible apply auxTimedOut_kept
    | (refine Kept.fst (by with_reducible assumption) ?_)
    | split
    | fail_if_no_progress (with_reducible refine Kept.lit rfl rfl ?_)
    | (lift_lets -underBinder; intro x; first | (refine Kept.cut (s0 := s0) (s1 := x) ?_ (fun _ => ?_); on_goal 1 => unfold x) | skip))

theorem execResetToHeld_kept {s0 s : State} (h0 : Kept s0 s) : KeptX s0 (execResetToHeld s) := by
  unfold execResetToHeld
  repeat' (first
    | with_reducible assumption
    | with_reducible apply Kept.ite
    | with_reducible apply Kept.fstIte
    | with_reducible refine Kept.foldl ?_ (fun _ _ _ => ?_)
    | with_reducible apply KeptX.mk'
    | with_reducible apply KeptX.ite
    | with_reducible apply resetCause_kept
    | (refine Kept.fst (by with_reducible assumption) ?_)
    | split
    | fail_if_no_progress (with_reducible refine Kept.lit rfl rfl ?_)
    | (lift_lets -underBinder; intro x; first | (refine Kept.cut (s0 := s0) (s1 := x) ?_ (fun _ => ?_); on_goal 1 => unfold x) | skip))

theorem execResetIn_kept {s0 s : State} (h0 : Kept s0 s) : KeptX s0 (execResetIn s) := by
  unfold execResetIn
  try lift_lets -underBinder
  repeat' (first
    | (intro x; first | (refine Kept.cut (s0 := s0) (s1 := x) ?_ (fun _ => ?_); on_goal 1 => unfold x) | skip)
    | with_reducible assumption
    | with_reducible apply Kept.ite
    | with_reducible apply Kept.fstIte
    | with_reducible refine Kept.foldl ?_ (fun _ _ _ => ?_)
    | with_reducible apply KeptX.mk'
    | with_reducible apply KeptX.ite
    | with_reducible apply relayUpdate_kept
    | with_reducible apply resetCause_kept
    | with_reducible apply unstick_kept
    | (refine Kept.fst (by with_reducible assumption) ?_)
    | split
    | fail_if_no_progress (with_reducible refine Kept.lit rfl rfl ?_)
    | (lift_lets -underBinder; intro x; first | (refine Kept.cut (s0 := s0) (s1 := x) ?_ (fun _ => ?_); on_goal 1 => unfold x) | skip))

theorem execResetInDeasserted_kept {s0 s : State} (h0 : Kept s0 s) : KeptX s0 (execResetInDeasserted s) := by
  unfold execResetInDeasserted
  repeat' (first
    | with_reducible assumption
    | with_reducible apply Kept.ite
    | with_reducible apply Kept.fstIte
    | with_reducible refine Kept.foldl ?_ (fun _ _ _ => ?_)
    | with_reducible apply KeptX.mk'
    | with_reducible apply KeptX.ite
    | (refine Kept.fst (by with_reducible assumption) ?_)
    | split
    | fail_if_no_progress (with_reducible refine Kept.lit rfl rfl ?_)
    | (lift_lets -underBinder; intro x; first | (refine Kept.cut (s0 := s0) (s1 := x) ?_ (fun _ => ?_); on_goal 1 => unfold x) | skip))

theorem execMainsApplied_kept {s0 s : State} (h0 : Kept s0 s) : KeptX s0 (execMainsApplied s) := by
  unfold execMainsApplied
  split
  · exact KeptX.mk' h0
  · exact KeptX.mk' (relayUpdate_kept (h0.trans ⟨rfl, id, fun _ => Nat.zero_le _⟩))

theorem execSurveyorStart_kept {s0 s : State} (h0 : Kept s0 s) : KeptX s0 (execSurveyorStart s) := by
  unfold execSurveyorStart
  try lift_lets -underBinder
  repeat' (first
    | (intro x; first | (refine Kept.cut (s0 := s0) (s1 := x) ?_ (fun _ => ?_); on_goal 1 => unfold x) | skip)
    | with_reducible assumption
    | with_reducible apply Kept.ite
    | with_reducible apply Kept.fstIte
    | with_reducible refine Kept.foldl ?_ (fun _ _ _ => ?_)
    | with_reducible apply KeptX.mk'
    | with_reducible apply KeptX.ite
    | with_reducible apply relayUpdate_kept
    | with_reducible apply logImage_kept
    | with_reducible apply trialStart_kept
    | (refine Kept.fst (by with_reducible assumption) ?_)
    | split
    | fail_if_no_progress (with_reducible refine Kept.lit rfl rfl ?_)
    | (lift_lets -underBinder; intro x; first | (refine Kept.cut (s0 := s0) (s1 := x) ?_ (fun _ => ?_); on_goal 1 => unfold x) | skip))

theorem execRailsGood_kept {s0 s : State} (h0 : Kept s0 s) : KeptX s0 (execRailsGood s) := by
  unfold execRailsGood
  repeat' (first
    | with_reducible assumption
    | with_reducible apply Kept.ite
    | with_reducible apply Kept.fstIte
    | with_reducible refine Kept.foldl ?_ (fun _ _ _ => ?_)
    | with_reducible apply KeptX.mk'
    | with_reducible apply KeptX.ite
    | (refine Kept.fst (by with_reducible assumption) ?_)
    | split
    | fail_if_no_progress (with_reducible refine Kept.lit rfl rfl ?_)
    | (lift_lets -underBinder; intro x; first | (refine Kept.cut (s0 := s0) (s1 := x) ?_ (fun _ => ?_); on_goal 1 => unfold x) | skip))

theorem execBistConditionsCheck_kept (ppm : Int) {s0 s : State} (h0 : Kept s0 s) :
    KeptX s0 (execBistConditionsCheck ppm s) := by
  unfold execBistConditionsCheck
  try lift_lets -underBinder
  repeat' (first
    | (intro x; first | (refine Kept.cut (s0 := s0) (s1 := x) ?_ (fun _ => ?_); on_goal 1 => unfold x) | skip)
    | with_reducible assumption
    | with_reducible apply Kept.ite
    | with_reducible apply Kept.fstIte
    | with_reducible refine Kept.foldl ?_ (fun _ _ _ => ?_)
    | with_reducible apply KeptX.mk'
    | with_reducible apply KeptX.ite
    | with_reducible apply State.logAdd_kept
    | with_reducible apply relayUpdate_kept
    | with_reducible apply release_kept
    | (refine Kept.fst (by with_reducible assumption) ?_)
    | split
    | fail_if_no_progress (with_reducible refine Kept.lit rfl rfl ?_)
    | (lift_lets -underBinder; intro x; first | (refine Kept.cut (s0 := s0) (s1 := x) ?_ (fun _ => ?_); on_goal 1 => unfold x) | skip))

theorem execConsoleIdRead_kept (k : Fin 4) (data : Option (List (BitVec 8))) {s0 s : State} (h0 : Kept s0 s) :
    KeptX s0 (execConsoleIdRead k data s) := by
  unfold execConsoleIdRead
  try lift_lets -underBinder
  repeat' (first
    | (intro x; first | (refine Kept.cut (s0 := s0) (s1 := x) ?_ (fun _ => ?_); on_goal 1 => unfold x) | skip)
    | with_reducible assumption
    | with_reducible apply Kept.ite
    | with_reducible apply Kept.fstIte
    | with_reducible refine Kept.foldl ?_ (fun _ _ _ => ?_)
    | with_reducible apply KeptX.mk'
    | with_reducible apply KeptX.ite
    | with_reducible apply State.logPut_kept
    | (refine Kept.fst (by with_reducible assumption) ?_)
    | split
    | fail_if_no_progress (with_reducible refine Kept.lit rfl rfl ?_)
    | (lift_lets -underBinder; intro x; first | (refine Kept.cut (s0 := s0) (s1 := x) ?_ (fun _ => ?_); on_goal 1 => unfold x) | skip))

theorem execSurveyorWatchdog_kept {s0 s : State} (h0 : Kept s0 s) : KeptX s0 (execSurveyorWatchdog s) := by
  unfold execSurveyorWatchdog
  try lift_lets -underBinder
  repeat' (first
    | (intro x; first | (refine Kept.cut (s0 := s0) (s1 := x) ?_ (fun _ => ?_); on_goal 1 => unfold x) | skip)
    | with_reducible assumption
    | with_reducible apply Kept.ite
    | with_reducible apply Kept.fstIte
    | with_reducible refine Kept.foldl ?_ (fun _ _ _ => ?_)
    | with_reducible apply KeptX.mk'
    | with_reducible apply KeptX.ite
    | with_reducible apply relayUpdate_kept
    | with_reducible apply toHeld_kept
    | (refine Kept.fst (by with_reducible assumption) ?_)
    | split
    | fail_if_no_progress (with_reducible refine Kept.lit rfl rfl ?_)
    | (lift_lets -underBinder; intro x; first | (refine Kept.cut (s0 := s0) (s1 := x) ?_ (fun _ => ?_); on_goal 1 => unfold x) | skip))

theorem execUpdateTrialEnd_kept (comp : Fin 5) {s0 s : State} (h0 : Kept s0 s) :
    KeptX s0 (execUpdateTrialEnd comp s) := by
  unfold execUpdateTrialEnd
  try lift_lets -underBinder
  repeat' (first
    | (intro x; first | (refine Kept.cut (s0 := s0) (s1 := x) ?_ (fun _ => ?_); on_goal 1 => unfold x) | skip)
    | with_reducible assumption
    | with_reducible apply Kept.ite
    | with_reducible apply Kept.fstIte
    | with_reducible refine Kept.foldl ?_ (fun _ _ _ => ?_)
    | with_reducible apply KeptX.mk'
    | with_reducible apply KeptX.ite
    | with_reducible apply trialFallback_kept
    | with_reducible apply trialDone_kept
    | (refine Kept.fst (by with_reducible assumption) ?_)
    | split
    | fail_if_no_progress (with_reducible refine Kept.lit rfl rfl ?_)
    | (lift_lets -underBinder; intro x; first | (refine Kept.cut (s0 := s0) (s1 := x) ?_ (fun _ => ?_); on_goal 1 => unfold x) | skip))

theorem execResetDone_kept (f : Fin 64) {s0 s : State} (h0 : Kept s0 s) : KeptX s0 (execResetDone f s) := by
  unfold execResetDone
  try lift_lets -underBinder
  repeat' (first
    | (intro x; first | (refine Kept.cut (s0 := s0) (s1 := x) ?_ (fun _ => ?_); on_goal 1 => unfold x) | skip)
    | with_reducible assumption
    | with_reducible apply Kept.ite
    | with_reducible apply Kept.fstIte
    | with_reducible refine Kept.foldl ?_ (fun _ _ _ => ?_)
    | with_reducible apply KeptX.mk'
    | with_reducible apply KeptX.ite
    | with_reducible apply State.setPf_kept
    | with_reducible apply State.event_kept
    | with_reducible apply State.setRing_kept
    | with_reducible apply resetNow_kept
    | (refine Kept.fst (by with_reducible assumption) ?_)
    | split
    | fail_if_no_progress (with_reducible refine Kept.lit rfl rfl ?_)
    | (lift_lets -underBinder; intro x; first | (refine Kept.cut (s0 := s0) (s1 := x) ?_ (fun _ => ?_); on_goal 1 => unfold x) | skip))

theorem execFuncCtrlReset_kept (m : Master) (f : Fin 64) (value : Word) {s0 s : State} (h0 : Kept s0 s) :
    KeptX s0 (execFuncCtrlReset m f value s) := by
  unfold execFuncCtrlReset
  repeat' (first
    | with_reducible assumption
    | with_reducible apply Kept.ite
    | with_reducible apply Kept.fstIte
    | with_reducible refine Kept.foldl ?_ (fun _ _ _ => ?_)
    | with_reducible apply KeptX.mk'
    | with_reducible apply KeptX.ite
    | with_reducible refine writeReg_kept _ _ _ _ (fun _ _ => ?_) ?_
    | with_reducible apply funcReset_kept
    | (refine Kept.fst (by with_reducible assumption) ?_)
    | split
    | fail_if_no_progress (with_reducible refine Kept.lit rfl rfl ?_)
    | (lift_lets -underBinder; intro x; first | (refine Kept.cut (s0 := s0) (s1 := x) ?_ (fun _ => ?_); on_goal 1 => unfold x) | skip))

theorem execVfEnableChange_kept (p : Fin 2) (enable : Bool) (n : Fin 32) {s0 s : State} (h0 : Kept s0 s) :
    KeptX s0 (execVfEnableChange p enable n s) := by
  unfold execVfEnableChange
  repeat' (first
    | with_reducible assumption
    | with_reducible apply Kept.ite
    | with_reducible apply Kept.fstIte
    | with_reducible refine Kept.foldl ?_ (fun _ _ _ => ?_)
    | with_reducible apply KeptX.mk'
    | with_reducible apply KeptX.ite
    | with_reducible apply setSriov_kept
    | (refine Kept.fst (by with_reducible assumption) ?_)
    | split
    | fail_if_no_progress (with_reducible refine Kept.lit rfl rfl ?_)
    | (lift_lets -underBinder; intro x; first | (refine Kept.cut (s0 := s0) (s1 := x) ?_ (fun _ => ?_); on_goal 1 => unfold x) | skip))

theorem execPcieLinkUp_kept (p : Fin 2) (speed : Fin 5) (width : Fin 5) {s0 s : State} (h0 : Kept s0 s) :
    KeptX s0 (execPcieLinkUp p speed width s) := by
  unfold execPcieLinkUp
  try lift_lets -underBinder
  repeat' (first
    | (intro x; first | (refine Kept.cut (s0 := s0) (s1 := x) ?_ (fun _ => ?_); on_goal 1 => unfold x) | skip)
    | with_reducible assumption
    | with_reducible apply Kept.ite
    | with_reducible apply Kept.fstIte
    | with_reducible refine Kept.foldl ?_ (fun _ _ _ => ?_)
    | with_reducible apply KeptX.mk'
    | with_reducible apply KeptX.ite
    | with_reducible apply State.setPr_kept
    | with_reducible apply State.event_kept
    | (refine Kept.fst (by with_reducible assumption) ?_)
    | split
    | fail_if_no_progress (with_reducible refine Kept.lit rfl rfl ?_)
    | (lift_lets -underBinder; intro x; first | (refine Kept.cut (s0 := s0) (s1 := x) ?_ (fun _ => ?_); on_goal 1 => unfold x) | skip))

theorem execLinkDown_kept (p : Fin 2) {s0 s : State} (h0 : Kept s0 s) : KeptX s0 (execLinkDown p s) := by
  unfold execLinkDown
  try lift_lets -underBinder
  repeat' (first
    | (intro x; first | (refine Kept.cut (s0 := s0) (s1 := x) ?_ (fun _ => ?_); on_goal 1 => unfold x) | skip)
    | with_reducible assumption
    | with_reducible apply Kept.ite
    | with_reducible apply Kept.fstIte
    | with_reducible refine Kept.foldl ?_ (fun _ _ _ => ?_)
    | with_reducible apply KeptX.mk'
    | with_reducible apply KeptX.ite
    | with_reducible apply State.setPr_kept
    | with_reducible apply State.event_kept
    | with_reducible apply raiseFault_kept
    | with_reducible apply portReset_kept
    | (refine Kept.fst (by with_reducible assumption) ?_)
    | split
    | fail_if_no_progress (with_reducible refine Kept.lit rfl rfl ?_)
    | (lift_lets -underBinder; intro x; first | (refine Kept.cut (s0 := s0) (s1 := x) ?_ (fun _ => ?_); on_goal 1 => unfold x) | skip))

theorem execHotReset_kept (p : Fin 2) {s0 s : State} (h0 : Kept s0 s) : KeptX s0 (execHotReset p s) := by
  unfold execHotReset
  repeat' (first
    | with_reducible assumption
    | with_reducible apply Kept.ite
    | with_reducible apply Kept.fstIte
    | with_reducible refine Kept.foldl ?_ (fun _ _ _ => ?_)
    | with_reducible apply KeptX.mk'
    | with_reducible apply KeptX.ite
    | with_reducible apply portReset_kept
    | (refine Kept.fst (by with_reducible assumption) ?_)
    | split
    | fail_if_no_progress (with_reducible refine Kept.lit rfl rfl ?_)
    | (lift_lets -underBinder; intro x; first | (refine Kept.cut (s0 := s0) (s1 := x) ?_ (fun _ => ?_); on_goal 1 => unfold x) | skip))

theorem execFunctionLevelReset_kept (f : Fin 64) {s0 s : State} (h0 : Kept s0 s) :
    KeptX s0 (execFunctionLevelReset f s) := by
  unfold execFunctionLevelReset
  try lift_lets -underBinder
  repeat' (first
    | (intro x; first | (refine Kept.cut (s0 := s0) (s1 := x) ?_ (fun _ => ?_); on_goal 1 => unfold x) | skip)
    | with_reducible assumption
    | with_reducible apply Kept.ite
    | with_reducible apply Kept.fstIte
    | with_reducible refine Kept.foldl ?_ (fun _ _ _ => ?_)
    | with_reducible apply KeptX.mk'
    | with_reducible apply KeptX.ite
    | with_reducible apply funcReset_kept
    | with_reducible apply setSriov_kept
    | with_reducible apply clearConfig_kept
    | with_reducible apply b4HostReset_kept
    | (refine Kept.fst (by with_reducible assumption) ?_)
    | split
    | fail_if_no_progress (with_reducible refine Kept.lit rfl rfl ?_)
    | (lift_lets -underBinder; intro x; first | (refine Kept.cut (s0 := s0) (s1 := x) ?_ (fun _ => ?_); on_goal 1 => unfold x) | skip))

theorem execConfigRequest_kept (p : Fin 2) (fn : BitVec 8) (op : ConfigOp) {s0 s : State} (h0 : Kept s0 s) :
    KeptX s0 (execConfigRequest p fn op s) := by
  unfold execConfigRequest
  repeat' (first
    | with_reducible assumption
    | with_reducible apply Kept.ite
    | with_reducible apply Kept.fstIte
    | with_reducible refine Kept.foldl ?_ (fun _ _ _ => ?_)
    | with_reducible apply KeptX.mk'
    | with_reducible apply KeptX.ite
    | with_reducible apply State.send_kept
    | with_reducible apply configOp_kept
    | with_reducible apply answerUr_kept
    | (refine Kept.fst (by with_reducible assumption) ?_)
    | split
    | fail_if_no_progress (with_reducible refine Kept.lit rfl rfl ?_)
    | (lift_lets -underBinder; intro x; first | (refine Kept.cut (s0 := s0) (s1 := x) ?_ (fun _ => ?_); on_goal 1 => unfold x) | skip))

theorem execBar2Access_kept (p : Fin 2) (off : BitVec 36) (len : Fin 4097) (data : Option (List (Option (BitVec 8)))) {s0 s : State} (h0 : Kept s0 s) :
    KeptX s0 (execBar2Access p off len data s) := by
  unfold execBar2Access
  try lift_lets -underBinder
  repeat' (first
    | (intro x; first | (refine Kept.cut (s0 := s0) (s1 := x) ?_ (fun _ => ?_); on_goal 1 => unfold x) | skip)
    | with_reducible assumption
    | with_reducible apply Kept.ite
    | with_reducible apply Kept.fstIte
    | with_reducible refine Kept.foldl ?_ (fun _ _ _ => ?_)
    | with_reducible apply KeptX.mk'
    | with_reducible apply KeptX.ite
    | with_reducible apply State.count_kept
    | with_reducible apply busRead_kept
    | with_reducible apply busWriteMasked_kept
    | with_reducible apply answerUr_kept
    | with_reducible apply outOfWindow_kept
    | with_reducible apply completeRead_kept
    | (refine Kept.fst (by with_reducible assumption) ?_)
    | split
    | fail_if_no_progress (with_reducible refine Kept.lit rfl rfl ?_)
    | (lift_lets -underBinder; intro x; first | (refine Kept.cut (s0 := s0) (s1 := x) ?_ (fun _ => ?_); on_goal 1 => unfold x) | skip))

theorem execVfBar2Access_kept (f : Fin 64) (off : BitVec 32) (len : Fin 4097) (data : Option (List (Option (BitVec 8)))) {s0 s : State} (h0 : Kept s0 s) :
    KeptX s0 (execVfBar2Access f off len data s) := by
  unfold execVfBar2Access
  try lift_lets -underBinder
  repeat' (first
    | (intro x; first | (refine Kept.cut (s0 := s0) (s1 := x) ?_ (fun _ => ?_); on_goal 1 => unfold x) | skip)
    | with_reducible assumption
    | with_reducible apply Kept.ite
    | with_reducible apply Kept.fstIte
    | with_reducible refine Kept.foldl ?_ (fun _ _ _ => ?_)
    | with_reducible apply KeptX.mk'
    | with_reducible apply KeptX.ite
    | with_reducible apply State.count_kept
    | with_reducible apply answerUr_kept
    | with_reducible apply outOfWindow_kept
    | with_reducible apply completeRead_kept
    | with_reducible apply vfRead_kept
    | with_reducible apply vfWrite_kept
    | (refine Kept.fst (by with_reducible assumption) ?_)
    | split
    | fail_if_no_progress (with_reducible refine Kept.lit rfl rfl ?_)
    | (lift_lets -underBinder; intro x; first | (refine Kept.cut (s0 := s0) (s1 := x) ?_ (fun _ => ?_); on_goal 1 => unfold x) | skip))

theorem execMalformedTlp_kept (p : Fin 2) {s0 s : State} (h0 : Kept s0 s) : KeptX s0 (execMalformedTlp p s) := by
  unfold execMalformedTlp
  try lift_lets -underBinder
  repeat' (first
    | (intro x; first | (refine Kept.cut (s0 := s0) (s1 := x) ?_ (fun _ => ?_); on_goal 1 => unfold x) | skip)
    | with_reducible assumption
    | with_reducible apply Kept.ite
    | with_reducible apply Kept.fstIte
    | with_reducible refine Kept.foldl ?_ (fun _ _ _ => ?_)
    | with_reducible apply KeptX.mk'
    | with_reducible apply KeptX.ite
    | with_reducible apply State.count_kept
    | with_reducible apply State.event_kept
    | with_reducible apply raiseFault_kept
    | with_reducible apply sendAer_kept
    | (refine Kept.fst (by with_reducible assumption) ?_)
    | split
    | fail_if_no_progress (with_reducible refine Kept.lit rfl rfl ?_)
    | (lift_lets -underBinder; intro x; first | (refine Kept.cut (s0 := s0) (s1 := x) ?_ (fun _ => ?_); on_goal 1 => unfold x) | skip))

theorem execEcrcError_kept (p : Fin 2) {s0 s : State} (h0 : Kept s0 s) : KeptX s0 (execEcrcError p s) := by
  unfold execEcrcError
  repeat' (first
    | with_reducible assumption
    | with_reducible apply Kept.ite
    | with_reducible apply Kept.fstIte
    | with_reducible refine Kept.foldl ?_ (fun _ _ _ => ?_)
    | with_reducible apply KeptX.mk'
    | with_reducible apply KeptX.ite
    | with_reducible apply State.event_kept
    | with_reducible apply sendAer_kept
    | (refine Kept.fst (by with_reducible assumption) ?_)
    | split
    | fail_if_no_progress (with_reducible refine Kept.lit rfl rfl ?_)
    | (lift_lets -underBinder; intro x; first | (refine Kept.cut (s0 := s0) (s1 := x) ?_ (fun _ => ?_); on_goal 1 => unfold x) | skip))

theorem execPoisonedRequest_kept (p : Fin 2) {s0 s : State} (h0 : Kept s0 s) : KeptX s0 (execPoisonedRequest p s) := by
  unfold execPoisonedRequest
  repeat' (first
    | with_reducible assumption
    | with_reducible apply Kept.ite
    | with_reducible apply Kept.fstIte
    | with_reducible refine Kept.foldl ?_ (fun _ _ _ => ?_)
    | with_reducible apply KeptX.mk'
    | with_reducible apply KeptX.ite
    | with_reducible apply poisoned_kept
    | (refine Kept.fst (by with_reducible assumption) ?_)
    | split
    | fail_if_no_progress (with_reducible refine Kept.lit rfl rfl ?_)
    | (lift_lets -underBinder; intro x; first | (refine Kept.cut (s0 := s0) (s1 := x) ?_ (fun _ => ?_); on_goal 1 => unfold x) | skip))

theorem execUnexpectedCompletion_kept (p : Fin 2) {s0 s : State} (h0 : Kept s0 s) :
    KeptX s0 (execUnexpectedCompletion p s) := by
  unfold execUnexpectedCompletion
  repeat' (first
    | with_reducible assumption
    | with_reducible apply Kept.ite
    | with_reducible apply Kept.fstIte
    | with_reducible refine Kept.foldl ?_ (fun _ _ _ => ?_)
    | with_reducible apply KeptX.mk'
    | with_reducible apply KeptX.ite
    | with_reducible apply State.event_kept
    | with_reducible apply sendAer_kept
    | (refine Kept.fst (by with_reducible assumption) ?_)
    | split
    | fail_if_no_progress (with_reducible refine Kept.lit rfl rfl ?_)
    | (lift_lets -underBinder; intro x; first | (refine Kept.cut (s0 := s0) (s1 := x) ?_ (fun _ => ?_); on_goal 1 => unfold x) | skip))

theorem execCompletionTimeout_kept (p : Fin 2) (kind : Fin 3) (req : HostReq) {s0 s : State} (h0 : Kept s0 s) :
    KeptX s0 (execCompletionTimeout p kind req s) := by
  unfold execCompletionTimeout
  try lift_lets -underBinder
  repeat' (first
    | (intro x; first | (refine Kept.cut (s0 := s0) (s1 := x) ?_ (fun _ => ?_); on_goal 1 => unfold x) | skip)
    | with_reducible assumption
    | with_reducible apply Kept.ite
    | with_reducible apply Kept.fstIte
    | with_reducible refine Kept.foldl ?_ (fun _ _ _ => ?_)
    | with_reducible apply KeptX.mk'
    | with_reducible apply KeptX.ite
    | with_reducible apply State.count_kept
    | with_reducible apply raiseFault_kept
    | with_reducible apply sendAer_kept
    | with_reducible apply poisoned_kept
    | with_reducible apply hostReadFails_kept
    | (refine Kept.fst (by with_reducible assumption) ?_)
    | split
    | fail_if_no_progress (with_reducible refine Kept.lit rfl rfl ?_)
    | (lift_lets -underBinder; intro x; first | (refine Kept.cut (s0 := s0) (s1 := x) ?_ (fun _ => ?_); on_goal 1 => unfold x) | skip))

theorem execS1invGo_kept (m : Master) (f : Fin 64) (value : Word) {s0 s : State} (h0 : Kept s0 s) :
    KeptX s0 (execS1invGo m f value s) := by
  unfold execS1invGo
  repeat' (first
    | with_reducible assumption
    | with_reducible apply Kept.ite
    | with_reducible apply Kept.fstIte
    | with_reducible refine Kept.foldl ?_ (fun _ _ _ => ?_)
    | with_reducible apply KeptX.mk'
    | with_reducible apply KeptX.ite
    | with_reducible refine writeReg_kept _ _ _ _ (fun _ _ => ?_) ?_
    | with_reducible apply s1invOp_kept
    | (refine Kept.fst (by with_reducible assumption) ?_)
    | split
    | fail_if_no_progress (with_reducible refine Kept.lit rfl rfl ?_)
    | (lift_lets -underBinder; intro x; first | (refine Kept.cut (s0 := s0) (s1 := x) ?_ (fun _ => ?_); on_goal 1 => unfold x) | skip))

theorem execS1invDone_kept (f : Fin 64) {s0 s : State} (h0 : Kept s0 s) : KeptX s0 (execS1invDone f s) := by
  unfold execS1invDone
  repeat' (first
    | with_reducible assumption
    | with_reducible apply Kept.ite
    | with_reducible apply Kept.fstIte
    | with_reducible refine Kept.foldl ?_ (fun _ _ _ => ?_)
    | with_reducible apply KeptX.mk'
    | with_reducible apply KeptX.ite
    | with_reducible apply State.setPf_kept
    | with_reducible apply State.event_kept
    | (refine Kept.fst (by with_reducible assumption) ?_)
    | split
    | fail_if_no_progress (with_reducible refine Kept.lit rfl rfl ?_)
    | (lift_lets -underBinder; intro x; first | (refine Kept.cut (s0 := s0) (s1 := x) ?_ (fun _ => ?_); on_goal 1 => unfold x) | skip))

theorem execS2invGo_kept (m : Master) (p : Fin 2) (value : Word) {s0 s : State} (h0 : Kept s0 s) :
    KeptX s0 (execS2invGo m p value s) := by
  unfold execS2invGo
  repeat' (first
    | with_reducible assumption
    | with_reducible apply Kept.ite
    | with_reducible apply Kept.fstIte
    | with_reducible refine Kept.foldl ?_ (fun _ _ _ => ?_)
    | with_reducible apply KeptX.mk'
    | with_reducible apply KeptX.ite
    | with_reducible refine writeReg_kept _ _ _ _ (fun _ _ => ?_) ?_
    | with_reducible apply s2invOp_kept
    | (refine Kept.fst (by with_reducible assumption) ?_)
    | split
    | fail_if_no_progress (with_reducible refine Kept.lit rfl rfl ?_)
    | (lift_lets -underBinder; intro x; first | (refine Kept.cut (s0 := s0) (s1 := x) ?_ (fun _ => ?_); on_goal 1 => unfold x) | skip))

theorem execS2invDone_kept (p : Fin 2) {s0 s : State} (h0 : Kept s0 s) : KeptX s0 (execS2invDone p s) := by
  unfold execS2invDone
  repeat' (first
    | with_reducible assumption
    | with_reducible apply Kept.ite
    | with_reducible apply Kept.fstIte
    | with_reducible refine Kept.foldl ?_ (fun _ _ _ => ?_)
    | with_reducible apply KeptX.mk'
    | with_reducible apply KeptX.ite
    | with_reducible apply State.setPf_kept
    | with_reducible apply State.event_kept
    | (refine Kept.fst (by with_reducible assumption) ?_)
    | split
    | fail_if_no_progress (with_reducible refine Kept.lit rfl rfl ?_)
    | (lift_lets -underBinder; intro x; first | (refine Kept.cut (s0 := s0) (s1 := x) ?_ (fun _ => ?_); on_goal 1 => unfold x) | skip))

theorem execS2RootWrite_kept (m : Master) (f : Fin 64) (value : Word) {s0 s : State} (h0 : Kept s0 s) :
    KeptX s0 (execS2RootWrite m f value s) := by
  unfold execS2RootWrite
  repeat' (first
    | with_reducible assumption
    | with_reducible apply Kept.ite
    | with_reducible apply Kept.fstIte
    | with_reducible refine Kept.foldl ?_ (fun _ _ _ => ?_)
    | with_reducible apply KeptX.mk'
    | with_reducible apply KeptX.ite
    | with_reducible refine writeReg_kept _ _ _ _ (fun _ _ => ?_) ?_
    | with_reducible apply s2RootOp_kept
    | (refine Kept.fst (by with_reducible assumption) ?_)
    | split
    | fail_if_no_progress (with_reducible refine Kept.lit rfl rfl ?_)
    | (lift_lets -underBinder; intro x; first | (refine Kept.cut (s0 := s0) (s1 := x) ?_ (fun _ => ?_); on_goal 1 => unfold x) | skip))

theorem execDescriptorFetch_kept (rs : Fin 66) (q : Fin 4) {s0 s : State} (h0 : Kept s0 s) :
    KeptX s0 (execDescriptorFetch rs q s) := by
  unfold execDescriptorFetch
  repeat' (first
    | with_reducible assumption
    | with_reducible apply Kept.ite
    | with_reducible apply Kept.fstIte
    | with_reducible refine Kept.foldl ?_ (fun _ _ _ => ?_)
    | with_reducible apply KeptX.mk'
    | with_reducible apply KeptX.ite
    | with_reducible apply fetchOp_kept
    | (refine Kept.fst (by with_reducible assumption) ?_)
    | split
    | fail_if_no_progress (with_reducible refine Kept.lit rfl rfl ?_)
    | (lift_lets -underBinder; intro x; first | (refine Kept.cut (s0 := s0) (s1 := x) ?_ (fun _ => ?_); on_goal 1 => unfold x) | skip))

theorem execPointUpdate_kept (rs : Fin 66) {s0 s : State} (h0 : Kept s0 s) : KeptX s0 (execPointUpdate rs s) := by
  unfold execPointUpdate
  repeat' (first
    | with_reducible assumption
    | with_reducible apply Kept.ite
    | with_reducible apply Kept.fstIte
    | with_reducible refine Kept.foldl ?_ (fun _ _ _ => ?_)
    | with_reducible apply KeptX.mk'
    | with_reducible apply KeptX.ite
    | with_reducible apply fetchOp_kept
    | (refine Kept.fst (by with_reducible assumption) ?_)
    | split
    | fail_if_no_progress (with_reducible refine Kept.lit rfl rfl ?_)
    | (lift_lets -underBinder; intro x; first | (refine Kept.cut (s0 := s0) (s1 := x) ?_ (fun _ => ?_); on_goal 1 => unfold x) | skip))

theorem execFencePoll_kept (slot : Fin 1024) {s0 s : State} (h0 : Kept s0 s) : KeptX s0 (execFencePoll slot s) := by
  unfold execFencePoll
  repeat' (first
    | with_reducible assumption
    | with_reducible apply Kept.ite
    | with_reducible apply Kept.fstIte
    | with_reducible refine Kept.foldl ?_ (fun _ _ _ => ?_)
    | with_reducible apply KeptX.mk'
    | with_reducible apply KeptX.ite
    | with_reducible apply pollOp_kept
    | (refine Kept.fst (by with_reducible assumption) ?_)
    | split
    | fail_if_no_progress (with_reducible refine Kept.lit rfl rfl ?_)
    | (lift_lets -underBinder; intro x; first | (refine Kept.cut (s0 := s0) (s1 := x) ?_ (fun _ => ?_); on_goal 1 => unfold x) | skip))

theorem execFenceTimeout_kept (slot : Fin 1024) {s0 s : State} (h0 : Kept s0 s) :
    KeptX s0 (execFenceTimeout slot s) := by
  unfold execFenceTimeout
  repeat' (first
    | with_reducible assumption
    | with_reducible apply Kept.ite
    | with_reducible apply Kept.fstIte
    | with_reducible refine Kept.foldl ?_ (fun _ _ _ => ?_)
    | with_reducible apply KeptX.mk'
    | with_reducible apply KeptX.ite
    | with_reducible apply pollOp_kept
    | (refine Kept.fst (by with_reducible assumption) ?_)
    | split
    | fail_if_no_progress (with_reducible refine Kept.lit rfl rfl ?_)
    | (lift_lets -underBinder; intro x; first | (refine Kept.cut (s0 := s0) (s1 := x) ?_ (fun _ => ?_); on_goal 1 => unfold x) | skip))

theorem execJobComplete_kept (slot : Fin 1024) {s0 s : State} (h0 : Kept s0 s) : KeptX s0 (execJobComplete slot s) := by
  unfold execJobComplete
  try lift_lets -underBinder
  repeat' (first
    | (intro x; first | (refine Kept.cut (s0 := s0) (s1 := x) ?_ (fun _ => ?_); on_goal 1 => unfold x) | skip)
    | with_reducible assumption
    | with_reducible apply Kept.ite
    | with_reducible apply Kept.fstIte
    | with_reducible refine Kept.foldl ?_ (fun _ _ _ => ?_)
    | with_reducible apply KeptX.mk'
    | with_reducible apply KeptX.ite
    | with_reducible apply pollWaiters_kept
    | with_reducible apply settleJob_kept
    | with_reducible apply signalJob_kept
    | with_reducible apply completeJob_kept
    | with_reducible apply discardJob_kept
    | (refine Kept.fst (by with_reducible assumption) ?_)
    | split
    | fail_if_no_progress (with_reducible refine Kept.lit rfl rfl ?_)
    | (lift_lets -underBinder; intro x; first | (refine Kept.cut (s0 := s0) (s1 := x) ?_ (fun _ => ?_); on_goal 1 => unfold x) | skip))

theorem execNop_kept (slot : Fin 1024) {s0 s : State} (h0 : Kept s0 s) : KeptX s0 (execNop slot s) := by
  unfold execNop
  repeat' (first
    | with_reducible assumption
    | with_reducible apply Kept.ite
    | with_reducible apply Kept.fstIte
    | with_reducible refine Kept.foldl ?_ (fun _ _ _ => ?_)
    | with_reducible apply KeptX.mk'
    | with_reducible apply KeptX.ite
    | with_reducible apply endJobAs_kept
    | (refine Kept.fst (by with_reducible assumption) ?_)
    | split
    | fail_if_no_progress (with_reducible refine Kept.lit rfl rfl ?_)
    | (lift_lets -underBinder; intro x; first | (refine Kept.cut (s0 := s0) (s1 := x) ?_ (fun _ => ?_); on_goal 1 => unfold x) | skip))

theorem execModuleLoad_kept (slot : Fin 1024) {s0 s : State} (h0 : Kept s0 s) : KeptX s0 (execModuleLoad slot s) := by
  unfold execModuleLoad
  try lift_lets -underBinder
  repeat' (first
    | (intro x; first | (refine Kept.cut (s0 := s0) (s1 := x) ?_ (fun _ => ?_); on_goal 1 => unfold x) | skip)
    | with_reducible assumption
    | with_reducible apply Kept.ite
    | with_reducible apply Kept.fstIte
    | with_reducible refine Kept.foldl ?_ (fun _ _ _ => ?_)
    | with_reducible apply KeptX.mk'
    | with_reducible apply KeptX.ite
    | with_reducible apply endJobAs_kept
    | with_reducible apply jRead_kept
    | with_reducible apply loadStart_kept
    | (refine Kept.fst (by with_reducible assumption) ?_)
    | split
    | fail_if_no_progress (with_reducible refine Kept.lit rfl rfl ?_)
    | (lift_lets -underBinder; intro x; first | (refine Kept.cut (s0 := s0) (s1 := x) ?_ (fun _ => ?_); on_goal 1 => unfold x) | skip))

theorem execModuleUnload_kept (slot : Fin 1024) {s0 s : State} (h0 : Kept s0 s) :
    KeptX s0 (execModuleUnload slot s) := by
  unfold execModuleUnload
  try lift_lets -underBinder
  repeat' (first
    | (intro x; first | (refine Kept.cut (s0 := s0) (s1 := x) ?_ (fun _ => ?_); on_goal 1 => unfold x) | skip)
    | with_reducible assumption
    | with_reducible apply Kept.ite
    | with_reducible apply Kept.fstIte
    | with_reducible refine Kept.foldl ?_ (fun _ _ _ => ?_)
    | with_reducible apply KeptX.mk'
    | with_reducible apply KeptX.ite
    | with_reducible apply endJobAs_kept
    | (refine Kept.fst (by with_reducible assumption) ?_)
    | split
    | fail_if_no_progress (with_reducible refine Kept.lit rfl rfl ?_)
    | (lift_lets -underBinder; intro x; first | (refine Kept.cut (s0 := s0) (s1 := x) ?_ (fun _ => ?_); on_goal 1 => unfold x) | skip))

theorem execTranslateDone_kept (slot : Fin 1024) {s0 s : State} (h0 : Kept s0 s) :
    KeptX s0 (execTranslateDone slot s) := by
  unfold execTranslateDone
  repeat' (first
    | with_reducible assumption
    | with_reducible apply Kept.ite
    | with_reducible apply Kept.fstIte
    | with_reducible refine Kept.foldl ?_ (fun _ _ _ => ?_)
    | with_reducible apply KeptX.mk'
    | with_reducible apply KeptX.ite
    | with_reducible apply translateFails_kept
    | with_reducible apply translateEnds_kept
    | with_reducible refine takeTrans_kept (by with_reducible assumption) ?_
    | (refine Kept.fst (by with_reducible assumption) ?_)
    | split
    | fail_if_no_progress (with_reducible refine Kept.lit rfl rfl ?_)
    | (lift_lets -underBinder; intro x; first | (refine Kept.cut (s0 := s0) (s1 := x) ?_ (fun _ => ?_); on_goal 1 => unfold x) | skip))

theorem execTranslateTimeout_kept (slot : Fin 1024) {s0 s : State} (h0 : Kept s0 s) :
    KeptX s0 (execTranslateTimeout slot s) := by
  unfold execTranslateTimeout
  repeat' (first
    | with_reducible assumption
    | with_reducible apply Kept.ite
    | with_reducible apply Kept.fstIte
    | with_reducible refine Kept.foldl ?_ (fun _ _ _ => ?_)
    | with_reducible apply KeptX.mk'
    | with_reducible apply KeptX.ite
    | with_reducible apply translateFails_kept
    | with_reducible refine takeTrans_kept (by with_reducible assumption) ?_
    | (refine Kept.fst (by with_reducible assumption) ?_)
    | split
    | fail_if_no_progress (with_reducible refine Kept.lit rfl rfl ?_)
    | (lift_lets -underBinder; intro x; first | (refine Kept.cut (s0 := s0) (s1 := x) ?_ (fun _ => ?_); on_goal 1 => unfold x) | skip))

theorem execPresent_kept (slot : Fin 1024) {s0 s : State} (h0 : Kept s0 s) : KeptX s0 (execPresent slot s) := by
  unfold execPresent
  repeat' (first
    | with_reducible assumption
    | with_reducible apply Kept.ite
    | with_reducible apply Kept.fstIte
    | with_reducible refine Kept.foldl ?_ (fun _ _ _ => ?_)
    | with_reducible apply KeptX.mk'
    | with_reducible apply KeptX.ite
    | with_reducible apply countStale_kept
    | with_reducible apply freeJob_kept
    | with_reducible apply presentOp_kept
    | (refine Kept.fst (by with_reducible assumption) ?_)
    | split
    | fail_if_no_progress (with_reducible refine Kept.lit rfl rfl ?_)
    | (lift_lets -underBinder; intro x; first | (refine Kept.cut (s0 := s0) (s1 := x) ?_ (fun _ => ?_); on_goal 1 => unfold x) | skip))

theorem execCompute_kept (slot : Fin 1024) {s0 s : State} (h0 : Kept s0 s) : KeptX s0 (execCompute slot s) := by
  unfold execCompute
  repeat' (first
    | with_reducible assumption
    | with_reducible apply Kept.ite
    | with_reducible apply Kept.fstIte
    | with_reducible refine Kept.foldl ?_ (fun _ _ _ => ?_)
    | with_reducible apply KeptX.mk'
    | with_reducible apply KeptX.ite
    | with_reducible apply computeStart_kept
    | (refine Kept.fst (by with_reducible assumption) ?_)
    | split
    | fail_if_no_progress (with_reducible refine Kept.lit rfl rfl ?_)
    | (lift_lets -underBinder; intro x; first | (refine Kept.cut (s0 := s0) (s1 := x) ?_ (fun _ => ?_); on_goal 1 => unfold x) | skip))

theorem execJobWatchdog_kept (slot : Fin 1024) {s0 s : State} (h0 : Kept s0 s) : KeptX s0 (execJobWatchdog slot s) := by
  unfold execJobWatchdog
  repeat' (first
    | with_reducible assumption
    | with_reducible apply Kept.ite
    | with_reducible apply Kept.fstIte
    | with_reducible refine Kept.foldl ?_ (fun _ _ _ => ?_)
    | with_reducible apply KeptX.mk'
    | with_reducible apply KeptX.ite
    | with_reducible apply endJobAs_kept
    | (refine Kept.fst (by with_reducible assumption) ?_)
    | split
    | fail_if_no_progress (with_reducible refine Kept.lit rfl rfl ?_)
    | (lift_lets -underBinder; intro x; first | (refine Kept.cut (s0 := s0) (s1 := x) ?_ (fun _ => ?_); on_goal 1 => unfold x) | skip))

theorem execTileWatchdog_kept (slot : Fin 1024) (tile : Nat) {s0 s : State} (h0 : Kept s0 s) :
    KeptX s0 (execTileWatchdog slot tile s) := by
  unfold execTileWatchdog
  repeat' (first
    | with_reducible assumption
    | with_reducible apply Kept.ite
    | with_reducible apply Kept.fstIte
    | with_reducible refine Kept.foldl ?_ (fun _ _ _ => ?_)
    | with_reducible apply KeptX.mk'
    | with_reducible apply KeptX.ite
    | with_reducible apply endJobAs_kept
    | (refine Kept.fst (by with_reducible assumption) ?_)
    | split
    | fail_if_no_progress (with_reducible refine Kept.lit rfl rfl ?_)
    | (lift_lets -underBinder; intro x; first | (refine Kept.cut (s0 := s0) (s1 := x) ?_ (fun _ => ?_); on_goal 1 => unfold x) | skip))

theorem execKeyEventWrite_kept (err : Bool) {s0 s : State} (h0 : Kept s0 s) : KeptX s0 (execKeyEventWrite err s) := by
  unfold execKeyEventWrite
  try lift_lets -underBinder
  repeat' (first
    | (intro x; first | (refine Kept.cut (s0 := s0) (s1 := x) ?_ (fun _ => ?_); on_goal 1 => unfold x) | skip)
    | with_reducible assumption
    | with_reducible apply Kept.ite
    | with_reducible apply Kept.fstIte
    | with_reducible refine Kept.foldl ?_ (fun _ _ _ => ?_)
    | with_reducible apply KeptX.mk'
    | with_reducible apply KeptX.ite
    | with_reducible apply State.count_kept
    | with_reducible apply eqWrite_kept
    | (refine Kept.fst (by with_reducible assumption) ?_)
    | split
    | fail_if_no_progress (with_reducible refine Kept.lit rfl rfl ?_)
    | (lift_lets -underBinder; intro x; first | (refine Kept.cut (s0 := s0) (s1 := x) ?_ (fun _ => ?_); on_goal 1 => unfold x) | skip))

theorem execSlotEnd_kept (p : Fin 4) (counts : List (BitVec 16)) {s0 s : State} (h0 : Kept s0 s) :
    KeptX s0 (execSlotEnd p counts s) := by
  unfold execSlotEnd
  try lift_lets -underBinder
  repeat' (first
    | (intro x; first | (refine Kept.cut (s0 := s0) (s1 := x) ?_ (fun _ => ?_); on_goal 1 => unfold x) | skip)
    | with_reducible assumption
    | with_reducible apply Kept.ite
    | with_reducible apply Kept.fstIte
    | with_reducible refine Kept.foldl ?_ (fun _ _ _ => ?_)
    | with_reducible apply KeptX.mk'
    | with_reducible apply KeptX.ite
    | with_reducible apply State.setB4_kept
    | with_reducible apply State.setScan_kept
    | with_reducible apply measureKey_kept
    | (refine Kept.fst (by with_reducible assumption) ?_)
    | split
    | fail_if_no_progress (with_reducible refine Kept.lit rfl rfl ?_)
    | (lift_lets -underBinder; intro x; first | (refine Kept.cut (s0 := s0) (s1 := x) ?_ (fun _ => ?_); on_goal 1 => unfold x) | skip))

theorem execScanStart_kept (p : Fin 4) {s0 s : State} (h0 : Kept s0 s) : KeptX s0 (execScanStart p s) := by
  unfold execScanStart
  try lift_lets -underBinder
  repeat' (first
    | (intro x; first | (refine Kept.cut (s0 := s0) (s1 := x) ?_ (fun _ => ?_); on_goal 1 => unfold x) | skip)
    | with_reducible assumption
    | with_reducible apply Kept.ite
    | with_reducible apply Kept.fstIte
    | with_reducible refine Kept.foldl ?_ (fun _ _ _ => ?_)
    | with_reducible apply KeptX.mk'
    | with_reducible apply KeptX.ite
    | with_reducible apply State.setPf_kept
    | with_reducible apply State.setScan_kept
    | with_reducible apply b4Thresholds_kept
    | (refine Kept.fst (by with_reducible assumption) ?_)
    | split
    | fail_if_no_progress (with_reducible refine Kept.lit rfl rfl ?_)
    | (lift_lets -underBinder; intro x; first | (refine Kept.cut (s0 := s0) (s1 := x) ?_ (fun _ => ?_); on_goal 1 => unfold x) | skip))

theorem execKeysEnable_kept (m : Master) {s0 s : State} (h0 : Kept s0 s) : KeptX s0 (execKeysEnable m s) := by
  unfold execKeysEnable
  repeat' (first
    | with_reducible assumption
    | with_reducible apply Kept.ite
    | with_reducible apply Kept.fstIte
    | with_reducible refine Kept.foldl ?_ (fun _ _ _ => ?_)
    | with_reducible apply KeptX.mk'
    | with_reducible apply KeptX.ite
    | with_reducible apply State.setHf_kept
    | with_reducible refine writeReg_kept _ _ _ _ (fun _ _ => ?_) ?_
    | (refine Kept.fst (by with_reducible assumption) ?_)
    | split
    | fail_if_no_progress (with_reducible refine Kept.lit rfl rfl ?_)
    | (lift_lets -underBinder; intro x; first | (refine Kept.cut (s0 := s0) (s1 := x) ?_ (fun _ => ?_); on_goal 1 => unfold x) | skip))

theorem execSelftest_kept (m : Master) (value : Word) {s0 s : State} (h0 : Kept s0 s) :
    KeptX s0 (execSelftest m value s) := by
  unfold execSelftest
  repeat' (first
    | with_reducible assumption
    | with_reducible apply Kept.ite
    | with_reducible apply Kept.fstIte
    | with_reducible refine Kept.foldl ?_ (fun _ _ _ => ?_)
    | with_reducible apply KeptX.mk'
    | with_reducible apply KeptX.ite
    | with_reducible refine writeReg_kept _ _ _ _ (fun _ _ => ?_) ?_
    | with_reducible apply selftestOp_kept
    | (refine Kept.fst (by with_reducible assumption) ?_)
    | split
    | fail_if_no_progress (with_reducible refine Kept.lit rfl rfl ?_)
    | (lift_lets -underBinder; intro x; first | (refine Kept.cut (s0 := s0) (s1 := x) ?_ (fun _ => ?_); on_goal 1 => unfold x) | skip))

theorem execSelftestDone_kept (counts right lower : List (BitVec 16)) {s0 s : State} (h0 : Kept s0 s) :
    KeptX s0 (execSelftestDone counts right lower s) := by
  unfold execSelftestDone
  try lift_lets -underBinder
  repeat' (first
    | (intro x; first | (refine Kept.cut (s0 := s0) (s1 := x) ?_ (fun _ => ?_); on_goal 1 => unfold x) | skip)
    | with_reducible assumption
    | with_reducible apply Kept.ite
    | with_reducible apply Kept.fstIte
    | with_reducible refine Kept.foldl ?_ (fun _ _ _ => ?_)
    | with_reducible apply KeptX.mk'
    | with_reducible apply KeptX.ite
    | with_reducible apply State.setPf_kept
    | with_reducible apply State.event_kept
    | with_reducible apply raiseFault_kept
    | with_reducible apply State.setScan_kept
    | (refine Kept.fst (by with_reducible assumption) ?_)
    | split
    | fail_if_no_progress (with_reducible refine Kept.lit rfl rfl ?_)
    | (lift_lets -underBinder; intro x; first | (refine Kept.cut (s0 := s0) (s1 := x) ?_ (fun _ => ?_); on_goal 1 => unfold x) | skip))

theorem execSenseParity_kept (p : Fin 4) {s0 s : State} (h0 : Kept s0 s) : KeptX s0 (execSenseParity p s) := by
  unfold execSenseParity
  repeat' (first
    | with_reducible assumption
    | with_reducible apply Kept.ite
    | with_reducible apply Kept.fstIte
    | with_reducible refine Kept.foldl ?_ (fun _ _ _ => ?_)
    | with_reducible apply KeptX.mk'
    | with_reducible apply KeptX.ite
    | with_reducible apply senseParity_kept
    | (refine Kept.fst (by with_reducible assumption) ?_)
    | split
    | fail_if_no_progress (with_reducible refine Kept.lit rfl rfl ?_)
    | (lift_lets -underBinder; intro x; first | (refine Kept.cut (s0 := s0) (s1 := x) ?_ (fun _ => ?_); on_goal 1 => unfold x) | skip))

theorem execForceTouch_kept {s0 s : State} (h0 : Kept s0 s) : KeptX s0 (execForceTouch s) := by
  unfold execForceTouch
  repeat' (first
    | with_reducible assumption
    | with_reducible apply Kept.ite
    | with_reducible apply Kept.fstIte
    | with_reducible refine Kept.foldl ?_ (fun _ _ _ => ?_)
    | with_reducible apply KeptX.mk'
    | with_reducible apply KeptX.ite
    | with_reducible apply forceKey_kept
    | (refine Kept.fst (by with_reducible assumption) ?_)
    | split
    | fail_if_no_progress (with_reducible refine Kept.lit rfl rfl ?_)
    | (lift_lets -underBinder; intro x; first | (refine Kept.cut (s0 := s0) (s1 := x) ?_ (fun _ => ?_); on_goal 1 => unfold x) | skip))

theorem execForceOpen_kept {s0 s : State} (h0 : Kept s0 s) : KeptX s0 (execForceOpen s) := by
  unfold execForceOpen
  repeat' (first
    | with_reducible assumption
    | with_reducible apply Kept.ite
    | with_reducible apply Kept.fstIte
    | with_reducible refine Kept.foldl ?_ (fun _ _ _ => ?_)
    | with_reducible apply KeptX.mk'
    | with_reducible apply KeptX.ite
    | with_reducible apply forceKey_kept
    | (refine Kept.fst (by with_reducible assumption) ?_)
    | split
    | fail_if_no_progress (with_reducible refine Kept.lit rfl rfl ?_)
    | (lift_lets -underBinder; intro x; first | (refine Kept.cut (s0 := s0) (s1 := x) ?_ (fun _ => ?_); on_goal 1 => unfold x) | skip))

theorem execEqBaseWrite_kept (m : Master) (q : Fin 16) (value : Word) {s0 s : State} (h0 : Kept s0 s) :
    KeptX s0 (execEqBaseWrite m q value s) := by
  unfold execEqBaseWrite
  repeat' (first
    | with_reducible assumption
    | with_reducible apply Kept.ite
    | with_reducible apply Kept.fstIte
    | with_reducible refine Kept.foldl ?_ (fun _ _ _ => ?_)
    | with_reducible apply KeptX.mk'
    | with_reducible apply KeptX.ite
    | with_reducible apply eqBaseWrite_kept
    | (refine Kept.fst (by with_reducible assumption) ?_)
    | split
    | fail_if_no_progress (with_reducible refine Kept.lit rfl rfl ?_)
    | (lift_lets -underBinder; intro x; first | (refine Kept.cut (s0 := s0) (s1 := x) ?_ (fun _ => ?_); on_goal 1 => unfold x) | skip))

theorem execEqHeadWrite_kept (m : Master) (q : Fin 16) (value : Word) {s0 s : State} (h0 : Kept s0 s) :
    KeptX s0 (execEqHeadWrite m q value s) := by
  unfold execEqHeadWrite
  repeat' (first
    | with_reducible assumption
    | with_reducible apply Kept.ite
    | with_reducible apply Kept.fstIte
    | with_reducible refine Kept.foldl ?_ (fun _ _ _ => ?_)
    | with_reducible apply KeptX.mk'
    | with_reducible apply KeptX.ite
    | with_reducible apply State.setPr_kept
    | with_reducible refine writeReg_kept _ _ _ _ (fun _ _ => ?_) ?_
    | (refine Kept.fst (by with_reducible assumption) ?_)
    | split
    | fail_if_no_progress (with_reducible refine Kept.lit rfl rfl ?_)
    | (lift_lets -underBinder; intro x; first | (refine Kept.cut (s0 := s0) (s1 := x) ?_ (fun _ => ?_); on_goal 1 => unfold x) | skip))

theorem execFrameLatch_kept (n : Fin 12) {s0 s : State} (h0 : Kept s0 s) : KeptX s0 (execFrameLatch n s) := by
  unfold execFrameLatch
  repeat' (first
    | with_reducible assumption
    | with_reducible apply Kept.ite
    | with_reducible apply Kept.fstIte
    | with_reducible refine Kept.foldl ?_ (fun _ _ _ => ?_)
    | with_reducible apply KeptX.mk'
    | with_reducible apply KeptX.ite
    | with_reducible apply frameLatchOp_kept
    | with_reducible apply b4Latch_kept
    | (refine Kept.fst (by with_reducible assumption) ?_)
    | split
    | fail_if_no_progress (with_reducible refine Kept.lit rfl rfl ?_)
    | (lift_lets -underBinder; intro x; first | (refine Kept.cut (s0 := s0) (s1 := x) ?_ (fun _ => ?_); on_goal 1 => unfold x) | skip))

theorem execDisabledLatch_kept (n : Fin 12) {s0 s : State} (h0 : Kept s0 s) : KeptX s0 (execDisabledLatch n s) := by
  unfold execDisabledLatch
  repeat' (first
    | with_reducible assumption
    | with_reducible apply Kept.ite
    | with_reducible apply Kept.fstIte
    | with_reducible refine Kept.foldl ?_ (fun _ _ _ => ?_)
    | with_reducible apply KeptX.mk'
    | with_reducible apply KeptX.ite
    | with_reducible apply retireFaulted_kept
    | with_reducible apply applyHead_kept
    | with_reducible apply b4Latch_kept
    | (refine Kept.fst (by with_reducible assumption) ?_)
    | split
    | fail_if_no_progress (with_reducible refine Kept.lit rfl rfl ?_)
    | (lift_lets -underBinder; intro x; first | (refine Kept.cut (s0 := s0) (s1 := x) ?_ (fun _ => ?_); on_goal 1 => unfold x) | skip))

theorem execPllLock_kept (n : Fin 12) {s0 s : State} (h0 : Kept s0 s) : KeptX s0 (execPllLock n s) := by
  unfold execPllLock
  repeat' (first
    | with_reducible assumption
    | with_reducible apply Kept.ite
    | with_reducible apply Kept.fstIte
    | with_reducible refine Kept.foldl ?_ (fun _ _ _ => ?_)
    | with_reducible apply KeptX.mk'
    | with_reducible apply KeptX.ite
    | with_reducible apply State.setBusy_kept
    | with_reducible apply startGenerator_kept
    | with_reducible apply b4Latch_kept
    | (refine Kept.fst (by with_reducible assumption) ?_)
    | split
    | fail_if_no_progress (with_reducible refine Kept.lit rfl rfl ?_)
    | (lift_lets -underBinder; intro x; first | (refine Kept.cut (s0 := s0) (s1 := x) ?_ (fun _ => ?_); on_goal 1 => unfold x) | skip))

theorem execPllRelock_kept (n : Fin 12) {s0 s : State} (h0 : Kept s0 s) : KeptX s0 (execPllRelock n s) := by
  unfold execPllRelock
  repeat' (first
    | with_reducible assumption
    | with_reducible apply Kept.ite
    | with_reducible apply Kept.fstIte
    | with_reducible refine Kept.foldl ?_ (fun _ _ _ => ?_)
    | with_reducible apply KeptX.mk'
    | with_reducible apply KeptX.ite
    | with_reducible apply startGenerator_kept
    | with_reducible apply b4Latch_kept
    | (refine Kept.fst (by with_reducible assumption) ?_)
    | split
    | fail_if_no_progress (with_reducible refine Kept.lit rfl rfl ?_)
    | (lift_lets -underBinder; intro x; first | (refine Kept.cut (s0 := s0) (s1 := x) ?_ (fun _ => ?_); on_goal 1 => unfold x) | skip))

theorem execPllStopped_kept (n : Fin 12) {s0 s : State} (h0 : Kept s0 s) : KeptX s0 (execPllStopped n s) := by
  unfold execPllStopped
  try lift_lets -underBinder
  repeat' (first
    | (intro x; first | (refine Kept.cut (s0 := s0) (s1 := x) ?_ (fun _ => ?_); on_goal 1 => unfold x) | skip)
    | with_reducible assumption
    | with_reducible apply Kept.ite
    | with_reducible apply Kept.fstIte
    | with_reducible refine Kept.foldl ?_ (fun _ _ _ => ?_)
    | with_reducible apply KeptX.mk'
    | with_reducible apply KeptX.ite
    | with_reducible apply State.setPf_kept
    | with_reducible apply State.setBusy_kept
    | with_reducible apply State.setReady_kept
    | with_reducible apply State.setHead_kept
    | with_reducible apply b4Restart_kept
    | (refine Kept.fst (by with_reducible assumption) ?_)
    | split
    | fail_if_no_progress (with_reducible refine Kept.lit rfl rfl ?_)
    | (lift_lets -underBinder; intro x; first | (refine Kept.cut (s0 := s0) (s1 := x) ?_ (fun _ => ?_); on_goal 1 => unfold x) | skip))

theorem execFillRect_kept {s0 s : State} (h0 : Kept s0 s) : KeptX s0 (execFillRect s) := by
  unfold execFillRect
  repeat' (first
    | with_reducible assumption
    | with_reducible apply Kept.ite
    | with_reducible apply Kept.fstIte
    | with_reducible refine Kept.foldl ?_ (fun _ _ _ => ?_)
    | with_reducible apply KeptX.mk'
    | with_reducible apply KeptX.ite
    | with_reducible refine deCommand_kept _ _ _ (fun _ _ _ _ => ?_) ?_
    | with_reducible apply deFill_kept
    | (refine Kept.fst (by with_reducible assumption) ?_)
    | split
    | fail_if_no_progress (with_reducible refine Kept.lit rfl rfl ?_)
    | (lift_lets -underBinder; intro x; first | (refine Kept.cut (s0 := s0) (s1 := x) ?_ (fun _ => ?_); on_goal 1 => unfold x) | skip))

theorem execCopyRect_kept {s0 s : State} (h0 : Kept s0 s) : KeptX s0 (execCopyRect s) := by
  unfold execCopyRect
  repeat' (first
    | with_reducible assumption
    | with_reducible apply Kept.ite
    | with_reducible apply Kept.fstIte
    | with_reducible refine Kept.foldl ?_ (fun _ _ _ => ?_)
    | with_reducible apply KeptX.mk'
    | with_reducible apply KeptX.ite
    | with_reducible refine deCommand_kept _ _ _ (fun _ _ _ _ => ?_) ?_
    | with_reducible apply deCopy_kept
    | (refine Kept.fst (by with_reducible assumption) ?_)
    | split
    | fail_if_no_progress (with_reducible refine Kept.lit rfl rfl ?_)
    | (lift_lets -underBinder; intro x; first | (refine Kept.cut (s0 := s0) (s1 := x) ?_ (fun _ => ?_); on_goal 1 => unfold x) | skip))

theorem execDrawLine_kept {s0 s : State} (h0 : Kept s0 s) : KeptX s0 (execDrawLine s) := by
  unfold execDrawLine
  repeat' (first
    | with_reducible assumption
    | with_reducible apply Kept.ite
    | with_reducible apply Kept.fstIte
    | with_reducible refine Kept.foldl ?_ (fun _ _ _ => ?_)
    | with_reducible apply KeptX.mk'
    | with_reducible apply KeptX.ite
    | with_reducible refine deCommand_kept _ _ _ (fun _ _ _ _ => ?_) ?_
    | with_reducible apply deLine_kept
    | (refine Kept.fst (by with_reducible assumption) ?_)
    | split
    | fail_if_no_progress (with_reducible refine Kept.lit rfl rfl ?_)
    | (lift_lets -underBinder; intro x; first | (refine Kept.cut (s0 := s0) (s1 := x) ?_ (fun _ => ?_); on_goal 1 => unfold x) | skip))

theorem execMonoExpand_kept {s0 s : State} (h0 : Kept s0 s) : KeptX s0 (execMonoExpand s) := by
  unfold execMonoExpand
  repeat' (first
    | with_reducible assumption
    | with_reducible apply Kept.ite
    | with_reducible apply Kept.fstIte
    | with_reducible refine Kept.foldl ?_ (fun _ _ _ => ?_)
    | with_reducible apply KeptX.mk'
    | with_reducible apply KeptX.ite
    | with_reducible refine deCommand_kept _ _ _ (fun _ _ _ _ => ?_) ?_
    | with_reducible apply deMono_kept
    | (refine Kept.fst (by with_reducible assumption) ?_)
    | split
    | fail_if_no_progress (with_reducible refine Kept.lit rfl rfl ?_)
    | (lift_lets -underBinder; intro x; first | (refine Kept.cut (s0 := s0) (s1 := x) ?_ (fun _ => ?_); on_goal 1 => unfold x) | skip))

theorem execStreamError_kept (m : Master) {s0 s : State} (h0 : Kept s0 s) : KeptX s0 (execStreamError m s) := by
  unfold execStreamError
  repeat' (first
    | with_reducible assumption
    | with_reducible apply Kept.ite
    | with_reducible apply Kept.fstIte
    | with_reducible refine Kept.foldl ?_ (fun _ _ _ => ?_)
    | with_reducible apply KeptX.mk'
    | with_reducible apply KeptX.ite
    | with_reducible refine writeReg_kept _ _ _ _ (fun _ _ => ?_) ?_
    | with_reducible apply deReport_kept
    | (refine Kept.fst (by with_reducible assumption) ?_)
    | split
    | fail_if_no_progress (with_reducible refine Kept.lit rfl rfl ?_)
    | (lift_lets -underBinder; intro x; first | (refine Kept.cut (s0 := s0) (s1 := x) ?_ (fun _ => ?_); on_goal 1 => unfold x) | skip))

theorem execPixelRange_kept (m : Master) {s0 s : State} (h0 : Kept s0 s) : KeptX s0 (execPixelRange m s) := by
  unfold execPixelRange
  repeat' (first
    | with_reducible assumption
    | with_reducible apply Kept.ite
    | with_reducible apply Kept.fstIte
    | with_reducible refine Kept.foldl ?_ (fun _ _ _ => ?_)
    | with_reducible apply KeptX.mk'
    | with_reducible apply KeptX.ite
    | with_reducible refine writeReg_kept _ _ _ _ (fun _ _ => ?_) ?_
    | with_reducible apply deReport_kept
    | (refine Kept.fst (by with_reducible assumption) ?_)
    | split
    | fail_if_no_progress (with_reducible refine Kept.lit rfl rfl ?_)
    | (lift_lets -underBinder; intro x; first | (refine Kept.cut (s0 := s0) (s1 := x) ?_ (fun _ => ?_); on_goal 1 => unfold x) | skip))

theorem execDeRingRdWrite_kept (m : Master) (value : Word) {s0 s : State} (h0 : Kept s0 s) :
    KeptX s0 (execDeRingRdWrite m value s) := by
  unfold execDeRingRdWrite
  repeat' (first
    | with_reducible assumption
    | with_reducible apply Kept.ite
    | with_reducible apply Kept.fstIte
    | with_reducible refine Kept.foldl ?_ (fun _ _ _ => ?_)
    | with_reducible apply KeptX.mk'
    | with_reducible apply KeptX.ite
    | with_reducible refine writeReg_kept _ _ _ _ (fun _ _ => ?_) ?_
    | with_reducible apply deRingRdOp_kept
    | (refine Kept.fst (by with_reducible assumption) ?_)
    | split
    | fail_if_no_progress (with_reducible refine Kept.lit rfl rfl ?_)
    | (lift_lets -underBinder; intro x; first | (refine Kept.cut (s0 := s0) (s1 := x) ?_ (fun _ => ?_); on_goal 1 => unfold x) | skip))

theorem execDeIdle_kept {s0 s : State} (h0 : Kept s0 s) : KeptX s0 (execDeIdle s) := by
  unfold execDeIdle
  repeat' (first
    | with_reducible assumption
    | with_reducible apply Kept.ite
    | with_reducible apply Kept.fstIte
    | with_reducible refine Kept.foldl ?_ (fun _ _ _ => ?_)
    | with_reducible apply KeptX.mk'
    | with_reducible apply KeptX.ite
    | with_reducible apply b4Isr_kept
    | (refine Kept.fst (by with_reducible assumption) ?_)
    | split
    | fail_if_no_progress (with_reducible refine Kept.lit rfl rfl ?_)
    | (lift_lets -underBinder; intro x; first | (refine Kept.cut (s0 := s0) (s1 := x) ?_ (fun _ => ?_); on_goal 1 => unfold x) | skip))

theorem execBeepDone_kept {s0 s : State} (h0 : Kept s0 s) : KeptX s0 (execBeepDone s) := by
  unfold execBeepDone
  repeat' (first
    | with_reducible assumption
    | with_reducible apply Kept.ite
    | with_reducible apply Kept.fstIte
    | with_reducible refine Kept.foldl ?_ (fun _ _ _ => ?_)
    | with_reducible apply KeptX.mk'
    | with_reducible apply KeptX.ite
    | with_reducible apply beepEnd_kept
    | (refine Kept.fst (by with_reducible assumption) ?_)
    | split
    | fail_if_no_progress (with_reducible refine Kept.lit rfl rfl ?_)
    | (lift_lets -underBinder; intro x; first | (refine Kept.cut (s0 := s0) (s1 := x) ?_ (fun _ => ?_); on_goal 1 => unfold x) | skip))

theorem execB4SoftReset_kept {s0 s : State} (h0 : Kept s0 s) : KeptX s0 (execB4SoftReset s) := by
  unfold execB4SoftReset
  repeat' (first
    | with_reducible assumption
    | with_reducible apply Kept.ite
    | with_reducible apply Kept.fstIte
    | with_reducible refine Kept.foldl ?_ (fun _ _ _ => ?_)
    | with_reducible apply KeptX.mk'
    | with_reducible apply KeptX.ite
    | with_reducible apply b4ResetOp_kept
    | with_reducible refine b4Access_kept _ _ (fun _ _ => ?_) ?_
    | (refine Kept.fst (by with_reducible assumption) ?_)
    | split
    | fail_if_no_progress (with_reducible refine Kept.lit rfl rfl ?_)
    | (lift_lets -underBinder; intro x; first | (refine Kept.cut (s0 := s0) (s1 := x) ?_ (fun _ => ?_); on_goal 1 => unfold x) | skip))

theorem execB4SoftResetDone_kept {s0 s : State} (h0 : Kept s0 s) : KeptX s0 (execB4SoftResetDone s) := by
  unfold execB4SoftResetDone
  repeat' (first
    | with_reducible assumption
    | with_reducible apply Kept.ite
    | with_reducible apply Kept.fstIte
    | with_reducible refine Kept.foldl ?_ (fun _ _ _ => ?_)
    | with_reducible apply KeptX.mk'
    | with_reducible apply KeptX.ite
    | (refine Kept.fst (by with_reducible assumption) ?_)
    | split
    | fail_if_no_progress (with_reducible refine Kept.lit rfl rfl ?_)
    | (lift_lets -underBinder; intro x; first | (refine Kept.cut (s0 := s0) (s1 := x) ?_ (fun _ => ?_); on_goal 1 => unfold x) | skip))

theorem execB4KeycfgWrite_kept (value : Word) {s0 s : State} (h0 : Kept s0 s) :
    KeptX s0 (execB4KeycfgWrite value s) := by
  unfold execB4KeycfgWrite
  repeat' (first
    | with_reducible assumption
    | with_reducible apply Kept.ite
    | with_reducible apply Kept.fstIte
    | with_reducible refine Kept.foldl ?_ (fun _ _ _ => ?_)
    | with_reducible apply KeptX.mk'
    | with_reducible apply KeptX.ite
    | with_reducible apply b4KeycfgOp_kept
    | with_reducible refine b4Access_kept _ _ (fun _ _ => ?_) ?_
    | (refine Kept.fst (by with_reducible assumption) ?_)
    | split
    | fail_if_no_progress (with_reducible refine Kept.lit rfl rfl ?_)
    | (lift_lets -underBinder; intro x; first | (refine Kept.cut (s0 := s0) (s1 := x) ?_ (fun _ => ?_); on_goal 1 => unfold x) | skip))

theorem execKeyEn_kept (value : Word) {s0 s : State} (h0 : Kept s0 s) : KeptX s0 (execKeyEn value s) := by
  unfold execKeyEn
  repeat' (first
    | with_reducible assumption
    | with_reducible apply Kept.ite
    | with_reducible apply Kept.fstIte
    | with_reducible refine Kept.foldl ?_ (fun _ _ _ => ?_)
    | with_reducible apply KeptX.mk'
    | with_reducible apply KeptX.ite
    | with_reducible apply b4CtrlOp_kept
    | with_reducible refine b4Access_kept _ _ (fun _ _ => ?_) ?_
    | (refine Kept.fst (by with_reducible assumption) ?_)
    | split
    | fail_if_no_progress (with_reducible refine Kept.lit rfl rfl ?_)
    | (lift_lets -underBinder; intro x; first | (refine Kept.cut (s0 := s0) (s1 := x) ?_ (fun _ => ?_); on_goal 1 => unfold x) | skip))

theorem execHeadBlockFlip_kept (h : Fin 4) (r : Fin 16) (value : Word) {s0 s : State} (h0 : Kept s0 s) :
    KeptX s0 (execHeadBlockFlip h r value s) := by
  unfold execHeadBlockFlip
  repeat' (first
    | with_reducible assumption
    | with_reducible apply Kept.ite
    | with_reducible apply Kept.fstIte
    | with_reducible refine Kept.foldl ?_ (fun _ _ _ => ?_)
    | with_reducible apply KeptX.mk'
    | with_reducible apply KeptX.ite
    | with_reducible apply headBlockOp_kept
    | with_reducible refine b4Access_kept _ _ (fun _ _ => ?_) ?_
    | (refine Kept.fst (by with_reducible assumption) ?_)
    | split
    | fail_if_no_progress (with_reducible refine Kept.lit rfl rfl ?_)
    | (lift_lets -underBinder; intro x; first | (refine Kept.cut (s0 := s0) (s1 := x) ?_ (fun _ => ?_); on_goal 1 => unfold x) | skip))

theorem execFlipCutoff_kept (h : Fin 4) {s0 s : State} (h0 : Kept s0 s) : KeptX s0 (execFlipCutoff h s) := by
  unfold execFlipCutoff
  repeat' (first
    | with_reducible assumption
    | with_reducible apply Kept.ite
    | with_reducible apply Kept.fstIte
    | with_reducible refine Kept.foldl ?_ (fun _ _ _ => ?_)
    | with_reducible apply KeptX.mk'
    | with_reducible apply KeptX.ite
    | (refine Kept.fst (by with_reducible assumption) ?_)
    | split
    | fail_if_no_progress (with_reducible refine Kept.lit rfl rfl ?_)
    | (lift_lets -underBinder; intro x; first | (refine Kept.cut (s0 := s0) (s1 := x) ?_ (fun _ => ?_); on_goal 1 => unfold x) | skip))

theorem execHctrlEn_kept (h : Fin 4) (value : Word) {s0 s : State} (h0 : Kept s0 s) :
    KeptX s0 (execHctrlEn h value s) := by
  unfold execHctrlEn
  repeat' (first
    | with_reducible assumption
    | with_reducible apply Kept.ite
    | with_reducible apply Kept.fstIte
    | with_reducible refine Kept.foldl ?_ (fun _ _ _ => ?_)
    | with_reducible apply KeptX.mk'
    | with_reducible apply KeptX.ite
    | with_reducible apply headBlockOp_kept
    | with_reducible refine b4Access_kept _ _ (fun _ _ => ?_) ?_
    | (refine Kept.fst (by with_reducible assumption) ?_)
    | split
    | fail_if_no_progress (with_reducible refine Kept.lit rfl rfl ?_)
    | (lift_lets -underBinder; intro x; first | (refine Kept.cut (s0 := s0) (s1 := x) ?_ (fun _ => ?_); on_goal 1 => unfold x) | skip))

theorem execPixclkWrite_kept (h : Fin 4) (value : Word) {s0 s : State} (h0 : Kept s0 s) :
    KeptX s0 (execPixclkWrite h value s) := by
  unfold execPixclkWrite
  repeat' (first
    | with_reducible assumption
    | with_reducible apply Kept.ite
    | with_reducible apply Kept.fstIte
    | with_reducible refine Kept.foldl ?_ (fun _ _ _ => ?_)
    | with_reducible apply KeptX.mk'
    | with_reducible apply KeptX.ite
    | with_reducible apply headBlockOp_kept
    | with_reducible refine b4Access_kept _ _ (fun _ _ => ?_) ?_
    | (refine Kept.fst (by with_reducible assumption) ?_)
    | split
    | fail_if_no_progress (with_reducible refine Kept.lit rfl rfl ?_)
    | (lift_lets -underBinder; intro x; first | (refine Kept.cut (s0 := s0) (s1 := x) ?_ (fun _ => ?_); on_goal 1 => unfold x) | skip))

theorem execDeFifoWrite_kept (value : Word) {s0 s : State} (h0 : Kept s0 s) : KeptX s0 (execDeFifoWrite value s) := by
  unfold execDeFifoWrite
  repeat' (first
    | with_reducible assumption
    | with_reducible apply Kept.ite
    | with_reducible apply Kept.fstIte
    | with_reducible refine Kept.foldl ?_ (fun _ _ _ => ?_)
    | with_reducible apply KeptX.mk'
    | with_reducible apply KeptX.ite
    | with_reducible apply deFifoOp_kept
    | with_reducible refine b4Access_kept _ _ (fun _ _ => ?_) ?_
    | (refine Kept.fst (by with_reducible assumption) ?_)
    | split
    | fail_if_no_progress (with_reducible refine Kept.lit rfl rfl ?_)
    | (lift_lets -underBinder; intro x; first | (refine Kept.cut (s0 := s0) (s1 := x) ?_ (fun _ => ?_); on_goal 1 => unfold x) | skip))

theorem execDeDisable_kept (value : Word) {s0 s : State} (h0 : Kept s0 s) : KeptX s0 (execDeDisable value s) := by
  unfold execDeDisable
  repeat' (first
    | with_reducible assumption
    | with_reducible apply Kept.ite
    | with_reducible apply Kept.fstIte
    | with_reducible refine Kept.foldl ?_ (fun _ _ _ => ?_)
    | with_reducible apply KeptX.mk'
    | with_reducible apply KeptX.ite
    | with_reducible apply b4CtrlOp_kept
    | with_reducible refine b4Access_kept _ _ (fun _ _ => ?_) ?_
    | (refine Kept.fst (by with_reducible assumption) ?_)
    | split
    | fail_if_no_progress (with_reducible refine Kept.lit rfl rfl ?_)
    | (lift_lets -underBinder; intro x; first | (refine Kept.cut (s0 := s0) (s1 := x) ?_ (fun _ => ?_); on_goal 1 => unfold x) | skip))

theorem execBeepGo_kept (value : Word) {s0 s : State} (h0 : Kept s0 s) : KeptX s0 (execBeepGo value s) := by
  unfold execBeepGo
  repeat' (first
    | with_reducible assumption
    | with_reducible apply Kept.ite
    | with_reducible apply Kept.fstIte
    | with_reducible refine Kept.foldl ?_ (fun _ _ _ => ?_)
    | with_reducible apply KeptX.mk'
    | with_reducible apply KeptX.ite
    | with_reducible apply beepOp_kept
    | with_reducible refine b4Access_kept _ _ (fun _ _ => ?_) ?_
    | (refine Kept.fst (by with_reducible assumption) ?_)
    | split
    | fail_if_no_progress (with_reducible refine Kept.lit rfl rfl ?_)
    | (lift_lets -underBinder; intro x; first | (refine Kept.cut (s0 := s0) (s1 := x) ?_ (fun _ => ?_); on_goal 1 => unfold x) | skip))

theorem execB4KeyfifoRead_kept {s0 s : State} (h0 : Kept s0 s) : KeptX s0 (execB4KeyfifoRead s) := by
  unfold execB4KeyfifoRead
  repeat' (first
    | with_reducible assumption
    | with_reducible apply Kept.ite
    | with_reducible apply Kept.fstIte
    | with_reducible refine Kept.foldl ?_ (fun _ _ _ => ?_)
    | with_reducible apply KeptX.mk'
    | with_reducible apply KeptX.ite
    | with_reducible apply b4ReadAccess_kept
    | (refine Kept.fst (by with_reducible assumption) ?_)
    | split
    | fail_if_no_progress (with_reducible refine Kept.lit rfl rfl ?_)
    | (lift_lets -underBinder; intro x; first | (refine Kept.cut (s0 := s0) (s1 := x) ?_ (fun _ => ?_); on_goal 1 => unfold x) | skip))

theorem execAssertInta_kept {s0 s : State} (h0 : Kept s0 s) : KeptX s0 (execAssertInta s) := by
  unfold execAssertInta
  repeat' (first
    | with_reducible assumption
    | with_reducible apply Kept.ite
    | with_reducible apply Kept.fstIte
    | with_reducible refine Kept.foldl ?_ (fun _ _ _ => ?_)
    | with_reducible apply KeptX.mk'
    | with_reducible apply KeptX.ite
    | with_reducible apply State.send_kept
    | with_reducible apply State.setHport_kept
    | (refine Kept.fst (by with_reducible assumption) ?_)
    | split
    | fail_if_no_progress (with_reducible refine Kept.lit rfl rfl ?_)
    | (lift_lets -underBinder; intro x; first | (refine Kept.cut (s0 := s0) (s1 := x) ?_ (fun _ => ?_); on_goal 1 => unfold x) | skip))

theorem execDeassertInta_kept {s0 s : State} (h0 : Kept s0 s) : KeptX s0 (execDeassertInta s) := by
  unfold execDeassertInta
  repeat' (first
    | with_reducible assumption
    | with_reducible apply Kept.ite
    | with_reducible apply Kept.fstIte
    | with_reducible refine Kept.foldl ?_ (fun _ _ _ => ?_)
    | with_reducible apply KeptX.mk'
    | with_reducible apply KeptX.ite
    | with_reducible apply State.send_kept
    | with_reducible apply State.setHport_kept
    | (refine Kept.fst (by with_reducible assumption) ?_)
    | split
    | fail_if_no_progress (with_reducible refine Kept.lit rfl rfl ?_)
    | (lift_lets -underBinder; intro x; first | (refine Kept.cut (s0 := s0) (s1 := x) ?_ (fun _ => ?_); on_goal 1 => unfold x) | skip))

theorem execLegendEnable_kept (m : Master) {s0 s : State} (h0 : Kept s0 s) : KeptX s0 (execLegendEnable m s) := by
  unfold execLegendEnable
  repeat' (first
    | with_reducible assumption
    | with_reducible apply Kept.ite
    | with_reducible apply Kept.fstIte
    | with_reducible refine Kept.foldl ?_ (fun _ _ _ => ?_)
    | with_reducible apply KeptX.mk'
    | with_reducible apply KeptX.ite
    | with_reducible refine writeReg_kept _ _ _ _ (fun _ _ => ?_) ?_
    | with_reducible apply legendEnableOp_kept
    | (refine Kept.fst (by with_reducible assumption) ?_)
    | split
    | fail_if_no_progress (with_reducible refine Kept.lit rfl rfl ?_)
    | (lift_lets -underBinder; intro x; first | (refine Kept.cut (s0 := s0) (s1 := x) ?_ (fun _ => ?_); on_goal 1 => unfold x) | skip))

theorem execPointRecordAccept_kept (m : Master) {s0 s : State} (h0 : Kept s0 s) :
    KeptX s0 (execPointRecordAccept m s) := by
  unfold execPointRecordAccept
  repeat' (first
    | with_reducible assumption
    | with_reducible apply Kept.ite
    | with_reducible apply Kept.fstIte
    | with_reducible refine Kept.foldl ?_ (fun _ _ _ => ?_)
    | with_reducible apply KeptX.mk'
    | with_reducible apply KeptX.ite
    | with_reducible apply State.setLegend_kept
    | with_reducible apply pointAccept_kept
    | (refine Kept.fst (by with_reducible assumption) ?_)
    | split
    | fail_if_no_progress (with_reducible refine Kept.lit rfl rfl ?_)
    | (lift_lets -underBinder; intro x; first | (refine Kept.cut (s0 := s0) (s1 := x) ?_ (fun _ => ?_); on_goal 1 => unfold x) | skip))

theorem execPointEntryRead_kept {s0 s : State} (h0 : Kept s0 s) : KeptX s0 (execPointEntryRead s) := by
  unfold execPointEntryRead
  repeat' (first
    | with_reducible assumption
    | with_reducible apply Kept.ite
    | with_reducible apply Kept.fstIte
    | with_reducible refine Kept.foldl ?_ (fun _ _ _ => ?_)
    | with_reducible apply KeptX.mk'
    | with_reducible apply KeptX.ite
    | with_reducible apply pointApply_kept
    | (refine Kept.fst (by with_reducible assumption) ?_)
    | split
    | fail_if_no_progress (with_reducible refine Kept.lit rfl rfl ?_)
    | (lift_lets -underBinder; intro x; first | (refine Kept.cut (s0 := s0) (s1 := x) ?_ (fun _ => ?_); on_goal 1 => unfold x) | skip))

theorem execUpdHiWrite_kept (m : Master) (value : Word) {s0 s : State} (h0 : Kept s0 s) :
    KeptX s0 (execUpdHiWrite m value s) := by
  unfold execUpdHiWrite
  repeat' (first
    | with_reducible assumption
    | with_reducible apply Kept.ite
    | with_reducible apply Kept.fstIte
    | with_reducible refine Kept.foldl ?_ (fun _ _ _ => ?_)
    | with_reducible apply KeptX.mk'
    | with_reducible apply KeptX.ite
    | with_reducible refine gated_kept _ _ _ (fun _ _ => ?_) ?_
    | with_reducible apply updHiOp_kept
    | (refine Kept.fst (by with_reducible assumption) ?_)
    | split
    | fail_if_no_progress (with_reducible refine Kept.lit rfl rfl ?_)
    | (lift_lets -underBinder; intro x; first | (refine Kept.cut (s0 := s0) (s1 := x) ?_ (fun _ => ?_); on_goal 1 => unfold x) | skip))

theorem execRangeWrite_kept (m : Master) (t : Fin 3) (j : Fin 64) (value : Word) {s0 s : State} (h0 : Kept s0 s) :
    KeptX s0 (execRangeWrite m t j value s) := by
  unfold execRangeWrite
  repeat' (first
    | with_reducible assumption
    | with_reducible apply Kept.ite
    | with_reducible apply Kept.fstIte
    | with_reducible refine Kept.foldl ?_ (fun _ _ _ => ?_)
    | with_reducible apply KeptX.mk'
    | with_reducible apply KeptX.ite
    | with_reducible refine gated_kept _ _ _ (fun _ _ => ?_) ?_
    | with_reducible apply rangeWriteOp_kept
    | (refine Kept.fst (by with_reducible assumption) ?_)
    | split
    | fail_if_no_progress (with_reducible refine Kept.lit rfl rfl ?_)
    | (lift_lets -underBinder; intro x; first | (refine Kept.cut (s0 := s0) (s1 := x) ?_ (fun _ => ?_); on_goal 1 => unfold x) | skip))

theorem execStyleEntryWrite_kept (m : Master) (e : Fin 4096) (value : Word) {s0 s : State} (h0 : Kept s0 s) :
    KeptX s0 (execStyleEntryWrite m e value s) := by
  unfold execStyleEntryWrite
  repeat' (first
    | with_reducible assumption
    | with_reducible apply Kept.ite
    | with_reducible apply Kept.fstIte
    | with_reducible refine Kept.foldl ?_ (fun _ _ _ => ?_)
    | with_reducible apply KeptX.mk'
    | with_reducible apply KeptX.ite
    | with_reducible refine gated_kept _ _ _ (fun _ _ => ?_) ?_
    | with_reducible apply styleEntryOp_kept
    | (refine Kept.fst (by with_reducible assumption) ?_)
    | split
    | fail_if_no_progress (with_reducible refine Kept.lit rfl rfl ?_)
    | (lift_lets -underBinder; intro x; first | (refine Kept.cut (s0 := s0) (s1 := x) ?_ (fun _ => ?_); on_goal 1 => unfold x) | skip))

theorem execGlyphEntryWrite_kept (m : Master) (e : Fin 8192) (value : Word) {s0 s : State} (h0 : Kept s0 s) :
    KeptX s0 (execGlyphEntryWrite m e value s) := by
  unfold execGlyphEntryWrite
  repeat' (first
    | with_reducible assumption
    | with_reducible apply Kept.ite
    | with_reducible apply Kept.fstIte
    | with_reducible refine Kept.foldl ?_ (fun _ _ _ => ?_)
    | with_reducible apply KeptX.mk'
    | with_reducible apply KeptX.ite
    | with_reducible refine gated_kept _ _ _ (fun _ _ => ?_) ?_
    | with_reducible apply glyphEntryOp_kept
    | (refine Kept.fst (by with_reducible assumption) ?_)
    | split
    | fail_if_no_progress (with_reducible refine Kept.lit rfl rfl ?_)
    | (lift_lets -underBinder; intro x; first | (refine Kept.cut (s0 := s0) (s1 := x) ?_ (fun _ => ?_); on_goal 1 => unfold x) | skip))

theorem execSnapshot_kept (n : Fin 12) (r : Fin 540) {s0 s : State} (h0 : Kept s0 s) :
    KeptX s0 (execSnapshot n r s) := by
  unfold execSnapshot
  try lift_lets -underBinder
  repeat' (first
    | (intro x; first | (refine Kept.cut (s0 := s0) (s1 := x) ?_ (fun _ => ?_); on_goal 1 => unfold x) | skip)
    | with_reducible assumption
    | with_reducible apply Kept.ite
    | with_reducible apply Kept.fstIte
    | with_reducible refine Kept.foldl ?_ (fun _ _ _ => ?_)
    | with_reducible apply KeptX.mk'
    | with_reducible apply KeptX.ite
    | with_reducible apply ownerRead_kept
    | with_reducible apply State.setLegend_kept
    | with_reducible apply pointFlush_kept
    | with_reducible apply captureCells_kept
    | with_reducible apply layerFault_kept
    | with_reducible apply layerData_kept
    | (refine Kept.fst (by with_reducible assumption) ?_)
    | split
    | fail_if_no_progress (with_reducible refine Kept.lit rfl rfl ?_)
    | (lift_lets -underBinder; intro x; first | (refine Kept.cut (s0 := s0) (s1 := x) ?_ (fun _ => ?_); on_goal 1 => unfold x) | skip))

theorem execGlyphFill_kept (n : Fin 12) (g : Fin 8192) {s0 s : State} (h0 : Kept s0 s) :
    KeptX s0 (execGlyphFill n g s) := by
  unfold execGlyphFill
  try lift_lets -underBinder
  repeat' (first
    | (intro x; first | (refine Kept.cut (s0 := s0) (s1 := x) ?_ (fun _ => ?_); on_goal 1 => unfold x) | skip)
    | with_reducible assumption
    | with_reducible apply Kept.ite
    | with_reducible apply Kept.fstIte
    | with_reducible refine Kept.foldl ?_ (fun _ _ _ => ?_)
    | with_reducible apply KeptX.mk'
    | with_reducible apply KeptX.ite
    | with_reducible apply State.setLegend_kept
    | with_reducible apply glyphFetch_kept
    | (refine Kept.fst (by with_reducible assumption) ?_)
    | split
    | fail_if_no_progress (with_reducible refine Kept.lit rfl rfl ?_)
    | (lift_lets -underBinder; intro x; first | (refine Kept.cut (s0 := s0) (s1 := x) ?_ (fun _ => ?_); on_goal 1 => unfold x) | skip))

theorem execGlyphCacheParity_kept (n : Fin 12) (g : Fin 8192) {s0 s : State} (h0 : Kept s0 s) :
    KeptX s0 (execGlyphCacheParity n g s) := by
  unfold execGlyphCacheParity
  repeat' (first
    | with_reducible assumption
    | with_reducible apply Kept.ite
    | with_reducible apply Kept.fstIte
    | with_reducible refine Kept.foldl ?_ (fun _ _ _ => ?_)
    | with_reducible apply KeptX.mk'
    | with_reducible apply KeptX.ite
    | with_reducible apply glyphParity_kept
    | (refine Kept.fst (by with_reducible assumption) ?_)
    | split
    | fail_if_no_progress (with_reducible refine Kept.lit rfl rfl ?_)
    | (lift_lets -underBinder; intro x; first | (refine Kept.cut (s0 := s0) (s1 := x) ?_ (fun _ => ?_); on_goal 1 => unfold x) | skip))

theorem execGlyphFetchFault_kept (n : Fin 12) (g : Fin 8192) {s0 s : State} (h0 : Kept s0 s) :
    KeptX s0 (execGlyphFetchFault n g s) := by
  unfold execGlyphFetchFault
  repeat' (first
    | with_reducible assumption
    | with_reducible apply Kept.ite
    | with_reducible apply Kept.fstIte
    | with_reducible refine Kept.foldl ?_ (fun _ _ _ => ?_)
    | with_reducible apply KeptX.mk'
    | with_reducible apply KeptX.ite
    | with_reducible apply glyphFail_kept
    | (refine Kept.fst (by with_reducible assumption) ?_)
    | split
    | fail_if_no_progress (with_reducible refine Kept.lit rfl rfl ?_)
    | (lift_lets -underBinder; intro x; first | (refine Kept.cut (s0 := s0) (s1 := x) ?_ (fun _ => ?_); on_goal 1 => unfold x) | skip))

theorem execPointReadFail_kept (n : Fin 12) (r : Fin 540) (c : Fin 960) {s0 s : State} (h0 : Kept s0 s) :
    KeptX s0 (execPointReadFail n r c s) := by
  unfold execPointReadFail
  try lift_lets -underBinder
  repeat' (first
    | (intro x; first | (refine Kept.cut (s0 := s0) (s1 := x) ?_ (fun _ => ?_); on_goal 1 => unfold x) | skip)
    | with_reducible assumption
    | with_reducible apply Kept.ite
    | with_reducible apply Kept.fstIte
    | with_reducible refine Kept.foldl ?_ (fun _ _ _ => ?_)
    | with_reducible apply KeptX.mk'
    | with_reducible apply KeptX.ite
    | with_reducible apply raiseFault_kept
    | with_reducible apply ownerRead_kept
    | with_reducible apply State.setLegend_kept
    | (refine Kept.fst (by with_reducible assumption) ?_)
    | split
    | fail_if_no_progress (with_reducible refine Kept.lit rfl rfl ?_)
    | (lift_lets -underBinder; intro x; first | (refine Kept.cut (s0 := s0) (s1 := x) ?_ (fun _ => ?_); on_goal 1 => unfold x) | skip))

theorem execMbReqGo_kept (m : Master) (k : Fin 4) (value : Word) {s0 s : State} (h0 : Kept s0 s) :
    KeptX s0 (execMbReqGo m k value s) := by
  unfold execMbReqGo
  try lift_lets -underBinder
  repeat' (first
    | (intro x; first | (refine Kept.cut (s0 := s0) (s1 := x) ?_ (fun _ => ?_); on_goal 1 => unfold x) | skip)
    | with_reducible assumption
    | with_reducible apply Kept.ite
    | with_reducible apply Kept.fstIte
    | with_reducible refine Kept.foldl ?_ (fun _ _ _ => ?_)
    | with_reducible apply KeptX.mk'
    | with_reducible apply KeptX.ite
    | with_reducible refine writeReg_kept _ _ _ _ (fun _ _ => ?_) ?_
    | with_reducible apply mbReqOp_kept
    | (refine Kept.fst (by with_reducible assumption) ?_)
    | split
    | fail_if_no_progress (with_reducible refine Kept.lit rfl rfl ?_)
    | (lift_lets -underBinder; intro x; first | (refine Kept.cut (s0 := s0) (s1 := x) ?_ (fun _ => ?_); on_goal 1 => unfold x) | skip))

theorem execMailboxDone_kept (k : Fin 4) {s0 s : State} (h0 : Kept s0 s) : KeptX s0 (execMailboxDone k s) := by
  unfold execMailboxDone
  try lift_lets -underBinder
  repeat' (first
    | (intro x; first | (refine Kept.cut (s0 := s0) (s1 := x) ?_ (fun _ => ?_); on_goal 1 => unfold x) | skip)
    | with_reducible assumption
    | with_reducible apply Kept.ite
    | with_reducible apply Kept.fstIte
    | with_reducible refine Kept.foldl ?_ (fun _ _ _ => ?_)
    | with_reducible apply KeptX.mk'
    | with_reducible apply KeptX.ite
    | with_reducible apply State.setPr_kept
    | with_reducible apply State.event_kept
    | with_reducible apply resetCause_kept
    | with_reducible apply unstick_kept
    | (refine Kept.fst (by with_reducible assumption) ?_)
    | split
    | fail_if_no_progress (with_reducible refine Kept.lit rfl rfl ?_)
    | (lift_lets -underBinder; intro x; first | (refine Kept.cut (s0 := s0) (s1 := x) ?_ (fun _ => ?_); on_goal 1 => unfold x) | skip))

theorem execConfigRead_kept (p : MbPath) {s0 s : State} (h0 : Kept s0 s) : KeptX s0 (execConfigRead p s) := by
  unfold execConfigRead
  repeat' (first
    | with_reducible assumption
    | with_reducible apply Kept.ite
    | with_reducible apply Kept.fstIte
    | with_reducible refine Kept.foldl ?_ (fun _ _ _ => ?_)
    | with_reducible apply KeptX.mk'
    | with_reducible apply KeptX.ite
    | with_reducible refine mbServe_kept _ _ _ _ _ (fun _ _ _ => ?_) ?_
    | (refine Kept.fst (by with_reducible assumption) ?_)
    | split
    | fail_if_no_progress (with_reducible refine Kept.lit rfl rfl ?_)
    | (lift_lets -underBinder; intro x; first | (refine Kept.cut (s0 := s0) (s1 := x) ?_ (fun _ => ?_); on_goal 1 => unfold x) | skip))

theorem execConfigWrite_kept (p : MbPath) {s0 s : State} (h0 : Kept s0 s) : KeptX s0 (execConfigWrite p s) := by
  unfold execConfigWrite
  repeat' (first
    | with_reducible assumption
    | with_reducible apply Kept.ite
    | with_reducible apply Kept.fstIte
    | with_reducible refine Kept.foldl ?_ (fun _ _ _ => ?_)
    | with_reducible apply KeptX.mk'
    | with_reducible apply KeptX.ite
    | with_reducible refine mbServe_kept _ _ _ _ _ (fun _ _ _ => ?_) ?_
    | (refine Kept.fst (by with_reducible assumption) ?_)
    | split
    | fail_if_no_progress (with_reducible refine Kept.lit rfl rfl ?_)
    | (lift_lets -underBinder; intro x; first | (refine Kept.cut (s0 := s0) (s1 := x) ?_ (fun _ => ?_); on_goal 1 => unfold x) | skip))

theorem execGetInfo_kept (p : MbPath) {s0 s : State} (h0 : Kept s0 s) : KeptX s0 (execGetInfo p s) := by
  unfold execGetInfo
  try lift_lets -underBinder
  repeat' (first
    | (intro x; first | (refine Kept.cut (s0 := s0) (s1 := x) ?_ (fun _ => ?_); on_goal 1 => unfold x) | skip)
    | with_reducible assumption
    | with_reducible apply Kept.ite
    | with_reducible apply Kept.fstIte
    | with_reducible refine Kept.foldl ?_ (fun _ _ _ => ?_)
    | with_reducible apply KeptX.mk'
    | with_reducible apply KeptX.ite
    | with_reducible refine mbServe_kept _ _ _ _ _ (fun _ _ _ => ?_) ?_
    | (refine Kept.fst (by with_reducible assumption) ?_)
    | split
    | fail_if_no_progress (with_reducible refine Kept.lit rfl rfl ?_)
    | (lift_lets -underBinder; intro x; first | (refine Kept.cut (s0 := s0) (s1 := x) ?_ (fun _ => ?_); on_goal 1 => unfold x) | skip))

theorem execReadSensors_kept (p : MbPath) {s0 s : State} (h0 : Kept s0 s) : KeptX s0 (execReadSensors p s) := by
  unfold execReadSensors
  try lift_lets -underBinder
  repeat' (first
    | (intro x; first | (refine Kept.cut (s0 := s0) (s1 := x) ?_ (fun _ => ?_); on_goal 1 => unfold x) | skip)
    | with_reducible assumption
    | with_reducible apply Kept.ite
    | with_reducible apply Kept.fstIte
    | with_reducible refine Kept.foldl ?_ (fun _ _ _ => ?_)
    | with_reducible apply KeptX.mk'
    | with_reducible apply KeptX.ite
    | with_reducible refine mbServe_kept _ _ _ _ _ (fun _ _ _ => ?_) ?_
    | (refine Kept.fst (by with_reducible assumption) ?_)
    | split
    | fail_if_no_progress (with_reducible refine Kept.lit rfl rfl ?_)
    | (lift_lets -underBinder; intro x; first | (refine Kept.cut (s0 := s0) (s1 := x) ?_ (fun _ => ?_); on_goal 1 => unfold x) | skip))

theorem execLogRead_kept (p : MbPath) {s0 s : State} (h0 : Kept s0 s) : KeptX s0 (execLogRead p s) := by
  unfold execLogRead
  try lift_lets -underBinder
  repeat' (first
    | (intro x; first | (refine Kept.cut (s0 := s0) (s1 := x) ?_ (fun _ => ?_); on_goal 1 => unfold x) | skip)
    | with_reducible assumption
    | with_reducible apply Kept.ite
    | with_reducible apply Kept.fstIte
    | with_reducible refine Kept.foldl ?_ (fun _ _ _ => ?_)
    | with_reducible apply KeptX.mk'
    | with_reducible apply KeptX.ite
    | with_reducible refine mbServe_kept _ _ _ _ _ (fun _ _ _ => ?_) ?_
    | (refine Kept.fst (by with_reducible assumption) ?_)
    | split
    | fail_if_no_progress (with_reducible refine Kept.lit rfl rfl ?_)
    | (lift_lets -underBinder; intro x; first | (refine Kept.cut (s0 := s0) (s1 := x) ?_ (fun _ => ?_); on_goal 1 => unfold x) | skip))

theorem execLogStatus_kept (p : MbPath) {s0 s : State} (h0 : Kept s0 s) : KeptX s0 (execLogStatus p s) := by
  unfold execLogStatus
  try lift_lets -underBinder
  repeat' (first
    | (intro x; first | (refine Kept.cut (s0 := s0) (s1 := x) ?_ (fun _ => ?_); on_goal 1 => unfold x) | skip)
    | with_reducible assumption
    | with_reducible apply Kept.ite
    | with_reducible apply Kept.fstIte
    | with_reducible refine Kept.foldl ?_ (fun _ _ _ => ?_)
    | with_reducible apply KeptX.mk'
    | with_reducible apply KeptX.ite
    | with_reducible apply State.draw_kept
    | with_reducible refine mbServe_kept _ _ _ _ _ (fun _ _ _ => ?_) ?_
    | (refine Kept.fst (by with_reducible assumption) ?_)
    | (refine Kept.snd (by with_reducible assumption) ?_)
    | split
    | fail_if_no_progress (with_reducible refine Kept.lit rfl rfl ?_)
    | (lift_lets -underBinder; intro x; first | (refine Kept.cut (s0 := s0) (s1 := x) ?_ (fun _ => ?_); on_goal 1 => unfold x) | skip))

theorem execTelemetryCfg_kept (p : MbPath) {s0 s : State} (h0 : Kept s0 s) : KeptX s0 (execTelemetryCfg p s) := by
  unfold execTelemetryCfg
  try lift_lets -underBinder
  repeat' (first
    | (intro x; first | (refine Kept.cut (s0 := s0) (s1 := x) ?_ (fun _ => ?_); on_goal 1 => unfold x) | skip)
    | with_reducible assumption
    | with_reducible apply Kept.ite
    | with_reducible apply Kept.fstIte
    | with_reducible refine Kept.foldl ?_ (fun _ _ _ => ?_)
    | with_reducible apply KeptX.mk'
    | with_reducible apply KeptX.ite
    | with_reducible refine mbServe_kept _ _ _ _ _ (fun _ _ _ => ?_) ?_
    | (refine Kept.fst (by with_reducible assumption) ?_)
    | split
    | fail_if_no_progress (with_reducible refine Kept.lit rfl rfl ?_)
    | (lift_lets -underBinder; intro x; first | (refine Kept.cut (s0 := s0) (s1 := x) ?_ (fun _ => ?_); on_goal 1 => unfold x) | skip))

theorem execUpdateBegin_kept (p : MbPath) {s0 s : State} (h0 : Kept s0 s) : KeptX s0 (execUpdateBegin p s) := by
  unfold execUpdateBegin
  try lift_lets -underBinder
  repeat' (first
    | (intro x; first | (refine Kept.cut (s0 := s0) (s1 := x) ?_ (fun _ => ?_); on_goal 1 => unfold x) | skip)
    | with_reducible assumption
    | with_reducible apply Kept.ite
    | with_reducible apply Kept.fstIte
    | with_reducible refine Kept.foldl ?_ (fun _ _ _ => ?_)
    | with_reducible apply KeptX.mk'
    | with_reducible apply KeptX.ite
    | with_reducible refine mbServe_kept _ _ _ _ _ (fun _ _ _ => ?_) ?_
    | with_reducible apply abandonUpdate_kept
    | (refine Kept.fst (by with_reducible assumption) ?_)
    | split
    | fail_if_no_progress (with_reducible refine Kept.lit rfl rfl ?_)
    | (lift_lets -underBinder; intro x; first | (refine Kept.cut (s0 := s0) (s1 := x) ?_ (fun _ => ?_); on_goal 1 => unfold x) | skip))

theorem execUpdateData_kept (p : MbPath) {s0 s : State} (h0 : Kept s0 s) : KeptX s0 (execUpdateData p s) := by
  unfold execUpdateData
  try lift_lets -underBinder
  repeat' (first
    | (intro x; first | (refine Kept.cut (s0 := s0) (s1 := x) ?_ (fun _ => ?_); on_goal 1 => unfold x) | skip)
    | with_reducible assumption
    | with_reducible apply Kept.ite
    | with_reducible apply Kept.fstIte
    | with_reducible refine Kept.foldl ?_ (fun _ _ _ => ?_)
    | with_reducible apply KeptX.mk'
    | with_reducible apply KeptX.ite
    | with_reducible refine mbServe_kept _ _ _ _ _ (fun _ _ _ => ?_) ?_
    | (refine Kept.fst (by with_reducible assumption) ?_)
    | split
    | fail_if_no_progress (with_reducible refine Kept.lit rfl rfl ?_)
    | (lift_lets -underBinder; intro x; first | (refine Kept.cut (s0 := s0) (s1 := x) ?_ (fun _ => ?_); on_goal 1 => unfold x) | skip))

theorem execUpdateEnd_kept (p : MbPath) {s0 s : State} (h0 : Kept s0 s) : KeptX s0 (execUpdateEnd p s) := by
  unfold execUpdateEnd
  try lift_lets -underBinder
  repeat' (first
    | (intro x; first | (refine Kept.cut (s0 := s0) (s1 := x) ?_ (fun _ => ?_); on_goal 1 => unfold x) | skip)
    | with_reducible assumption
    | with_reducible apply Kept.ite
    | with_reducible apply Kept.fstIte
    | with_reducible refine Kept.foldl ?_ (fun _ _ _ => ?_)
    | with_reducible apply KeptX.mk'
    | with_reducible apply KeptX.ite
    | with_reducible refine mbServe_kept _ _ _ _ _ (fun _ _ _ => ?_) ?_
    | with_reducible apply markBank_kept
    | with_reducible apply invalidImage_kept
    | (refine Kept.fst (by with_reducible assumption) ?_)
    | split
    | fail_if_no_progress (with_reducible refine Kept.lit rfl rfl ?_)
    | (lift_lets -underBinder; intro x; first | (refine Kept.cut (s0 := s0) (s1 := x) ?_ (fun _ => ?_); on_goal 1 => unfold x) | skip))

theorem execUpdateActivate_kept (p : MbPath) {s0 s : State} (h0 : Kept s0 s) : KeptX s0 (execUpdateActivate p s) := by
  unfold execUpdateActivate
  try lift_lets -underBinder
  repeat' (first
    | (intro x; first | (refine Kept.cut (s0 := s0) (s1 := x) ?_ (fun _ => ?_); on_goal 1 => unfold x) | skip)
    | with_reducible assumption
    | with_reducible apply Kept.ite
    | with_reducible apply Kept.fstIte
    | with_reducible refine Kept.foldl ?_ (fun _ _ _ => ?_)
    | with_reducible apply KeptX.mk'
    | with_reducible apply KeptX.ite
    | with_reducible refine mbServe_kept _ _ _ _ _ (fun _ _ _ => ?_) ?_
    | with_reducible apply invalidImage_kept
    | (refine Kept.fst (by with_reducible assumption) ?_)
    | split
    | fail_if_no_progress (with_reducible refine Kept.lit rfl rfl ?_)
    | (lift_lets -underBinder; intro x; first | (refine Kept.cut (s0 := s0) (s1 := x) ?_ (fun _ => ?_); on_goal 1 => unfold x) | skip))

theorem execUpdateIdleTimeout_kept {s0 s : State} (h0 : Kept s0 s) : KeptX s0 (execUpdateIdleTimeout s) := by
  unfold execUpdateIdleTimeout
  repeat' (first
    | with_reducible assumption
    | with_reducible apply Kept.ite
    | with_reducible apply Kept.fstIte
    | with_reducible refine Kept.foldl ?_ (fun _ _ _ => ?_)
    | with_reducible apply KeptX.mk'
    | with_reducible apply KeptX.ite
    | with_reducible apply logImage_kept
    | with_reducible apply abandonUpdate_kept
    | (refine Kept.fst (by with_reducible assumption) ?_)
    | split
    | fail_if_no_progress (with_reducible refine Kept.lit rfl rfl ?_)
    | (lift_lets -underBinder; intro x; first | (refine Kept.cut (s0 := s0) (s1 := x) ?_ (fun _ => ?_); on_goal 1 => unfold x) | skip))

theorem execRetireRead_kept (p : MbPath) {s0 s : State} (h0 : Kept s0 s) : KeptX s0 (execRetireRead p s) := by
  unfold execRetireRead
  try lift_lets -underBinder
  repeat' (first
    | (intro x; first | (refine Kept.cut (s0 := s0) (s1 := x) ?_ (fun _ => ?_); on_goal 1 => unfold x) | skip)
    | with_reducible assumption
    | with_reducible apply Kept.ite
    | with_reducible apply Kept.fstIte
    | with_reducible refine Kept.foldl ?_ (fun _ _ _ => ?_)
    | with_reducible apply KeptX.mk'
    | with_reducible apply KeptX.ite
    | with_reducible refine mbServe_kept _ _ _ _ _ (fun _ _ _ => ?_) ?_
    | (refine Kept.fst (by with_reducible assumption) ?_)
    | split
    | fail_if_no_progress (with_reducible refine Kept.lit rfl rfl ?_)
    | (lift_lets -underBinder; intro x; first | (refine Kept.cut (s0 := s0) (s1 := x) ?_ (fun _ => ?_); on_goal 1 => unfold x) | skip))

theorem execRetireAdd_kept (p : MbPath) {s0 s : State} (h0 : Kept s0 s) : KeptX s0 (execRetireAdd p s) := by
  unfold execRetireAdd
  try lift_lets -underBinder
  repeat' (first
    | (intro x; first | (refine Kept.cut (s0 := s0) (s1 := x) ?_ (fun _ => ?_); on_goal 1 => unfold x) | skip)
    | with_reducible assumption
    | with_reducible apply Kept.ite
    | with_reducible apply Kept.fstIte
    | with_reducible refine Kept.foldl ?_ (fun _ _ _ => ?_)
    | with_reducible apply KeptX.mk'
    | with_reducible apply KeptX.ite
    | with_reducible refine mbServe_kept _ _ _ _ _ (fun _ _ _ => ?_) ?_
    | (refine Kept.fst (by with_reducible assumption) ?_)
    | split
    | fail_if_no_progress (with_reducible refine Kept.lit rfl rfl ?_)
    | (lift_lets -underBinder; intro x; first | (refine Kept.cut (s0 := s0) (s1 := x) ?_ (fun _ => ?_); on_goal 1 => unfold x) | skip))

theorem execShimRead_kept (p : MbPath) {s0 s : State} (h0 : Kept s0 s) : KeptX s0 (execShimRead p s) := by
  unfold execShimRead
  try lift_lets -underBinder
  repeat' (first
    | (intro x; first | (refine Kept.cut (s0 := s0) (s1 := x) ?_ (fun _ => ?_); on_goal 1 => unfold x) | skip)
    | with_reducible assumption
    | with_reducible apply Kept.ite
    | with_reducible apply Kept.fstIte
    | with_reducible refine Kept.foldl ?_ (fun _ _ _ => ?_)
    | with_reducible apply KeptX.mk'
    | with_reducible apply KeptX.ite
    | with_reducible refine mbServe_kept _ _ _ _ _ (fun _ _ _ => ?_) ?_
    | (refine Kept.fst (by with_reducible assumption) ?_)
    | split
    | fail_if_no_progress (with_reducible refine Kept.lit rfl rfl ?_)
    | (lift_lets -underBinder; intro x; first | (refine Kept.cut (s0 := s0) (s1 := x) ?_ (fun _ => ?_); on_goal 1 => unfold x) | skip))

theorem execReset_kept (p : MbPath) {s0 s : State} (h0 : Kept s0 s) : KeptX s0 (execReset p s) := by
  unfold execReset
  try lift_lets -underBinder
  repeat' (first
    | (intro x; first | (refine Kept.cut (s0 := s0) (s1 := x) ?_ (fun _ => ?_); on_goal 1 => unfold x) | skip)
    | with_reducible assumption
    | with_reducible apply Kept.ite
    | with_reducible apply Kept.fstIte
    | with_reducible refine Kept.foldl ?_ (fun _ _ _ => ?_)
    | with_reducible apply KeptX.mk'
    | with_reducible apply KeptX.ite
    | with_reducible apply relayUpdate_kept
    | with_reducible apply resetCause_kept
    | with_reducible apply unstick_kept
    | with_reducible refine mbServe_kept _ _ _ _ _ (fun _ _ _ => ?_) ?_
    | (refine Kept.fst (by with_reducible assumption) ?_)
    | split
    | fail_if_no_progress (with_reducible refine Kept.lit rfl rfl ?_)
    | (lift_lets -underBinder; intro x; first | (refine Kept.cut (s0 := s0) (s1 := x) ?_ (fun _ => ?_); on_goal 1 => unfold x) | skip))

theorem execInjectEnable_kept (p : MbPath) {s0 s : State} (h0 : Kept s0 s) : KeptX s0 (execInjectEnable p s) := by
  unfold execInjectEnable
  repeat' (first
    | with_reducible assumption
    | with_reducible apply Kept.ite
    | with_reducible apply Kept.fstIte
    | with_reducible refine Kept.foldl ?_ (fun _ _ _ => ?_)
    | with_reducible apply KeptX.mk'
    | with_reducible apply KeptX.ite
    | with_reducible apply State.setPf_kept
    | with_reducible refine mbServe_kept _ _ _ _ _ (fun _ _ _ => ?_) ?_
    | (refine Kept.fst (by with_reducible assumption) ?_)
    | split
    | fail_if_no_progress (with_reducible refine Kept.lit rfl rfl ?_)
    | (lift_lets -underBinder; intro x; first | (refine Kept.cut (s0 := s0) (s1 := x) ?_ (fun _ => ?_); on_goal 1 => unfold x) | skip))

theorem execSetEndpointId_kept (eid : BitVec 8) {s0 s : State} (h0 : Kept s0 s) :
    KeptX s0 (execSetEndpointId eid s) := by
  unfold execSetEndpointId
  repeat' (first
    | with_reducible assumption
    | with_reducible apply Kept.ite
    | with_reducible apply Kept.fstIte
    | with_reducible refine Kept.foldl ?_ (fun _ _ _ => ?_)
    | with_reducible apply KeptX.mk'
    | with_reducible apply KeptX.ite
    | with_reducible refine mctpReply_kept _ (fun _ _ => ?_) ?_
    | (refine Kept.fst (by with_reducible assumption) ?_)
    | split
    | fail_if_no_progress (with_reducible refine Kept.lit rfl rfl ?_)
    | (lift_lets -underBinder; intro x; first | (refine Kept.cut (s0 := s0) (s1 := x) ?_ (fun _ => ?_); on_goal 1 => unfold x) | skip))

theorem execGetEndpointId_kept {s0 s : State} (h0 : Kept s0 s) : KeptX s0 (execGetEndpointId s) := by
  unfold execGetEndpointId
  repeat' (first
    | with_reducible assumption
    | with_reducible apply Kept.ite
    | with_reducible apply Kept.fstIte
    | with_reducible refine Kept.foldl ?_ (fun _ _ _ => ?_)
    | with_reducible apply KeptX.mk'
    | with_reducible apply KeptX.ite
    | with_reducible refine mctpReply_kept _ (fun _ _ => ?_) ?_
    | (refine Kept.fst (by with_reducible assumption) ?_)
    | split
    | fail_if_no_progress (with_reducible refine Kept.lit rfl rfl ?_)
    | (lift_lets -underBinder; intro x; first | (refine Kept.cut (s0 := s0) (s1 := x) ?_ (fun _ => ?_); on_goal 1 => unfold x) | skip))

theorem execGetMctpVersionSupport_kept {s0 s : State} (h0 : Kept s0 s) : KeptX s0 (execGetMctpVersionSupport s) := by
  unfold execGetMctpVersionSupport
  try lift_lets -underBinder
  repeat' (first
    | (intro x; first | (refine Kept.cut (s0 := s0) (s1 := x) ?_ (fun _ => ?_); on_goal 1 => unfold x) | skip)
    | with_reducible assumption
    | with_reducible apply Kept.ite
    | with_reducible apply Kept.fstIte
    | with_reducible refine Kept.foldl ?_ (fun _ _ _ => ?_)
    | with_reducible apply KeptX.mk'
    | with_reducible apply KeptX.ite
    | with_reducible apply State.draw_kept
    | with_reducible refine mctpReply_kept _ (fun _ _ => ?_) ?_
    | (refine Kept.fst (by with_reducible assumption) ?_)
    | (refine Kept.snd (by with_reducible assumption) ?_)
    | split
    | fail_if_no_progress (with_reducible refine Kept.lit rfl rfl ?_)
    | (lift_lets -underBinder; intro x; first | (refine Kept.cut (s0 := s0) (s1 := x) ?_ (fun _ => ?_); on_goal 1 => unfold x) | skip))

theorem execGetMessageTypeSupport_kept {s0 s : State} (h0 : Kept s0 s) : KeptX s0 (execGetMessageTypeSupport s) := by
  unfold execGetMessageTypeSupport
  repeat' (first
    | with_reducible assumption
    | with_reducible apply Kept.ite
    | with_reducible apply Kept.fstIte
    | with_reducible refine Kept.foldl ?_ (fun _ _ _ => ?_)
    | with_reducible apply KeptX.mk'
    | with_reducible apply KeptX.ite
    | with_reducible refine mctpReply_kept _ (fun _ _ => ?_) ?_
    | (refine Kept.fst (by with_reducible assumption) ?_)
    | split
    | fail_if_no_progress (with_reducible refine Kept.lit rfl rfl ?_)
    | (lift_lets -underBinder; intro x; first | (refine Kept.cut (s0 := s0) (s1 := x) ?_ (fun _ => ?_); on_goal 1 => unfold x) | skip))

theorem execGettid_kept {s0 s : State} (h0 : Kept s0 s) : KeptX s0 (execGettid s) := by
  unfold execGettid
  try lift_lets -underBinder
  repeat' (first
    | (intro x; first | (refine Kept.cut (s0 := s0) (s1 := x) ?_ (fun _ => ?_); on_goal 1 => unfold x) | skip)
    | with_reducible assumption
    | with_reducible apply Kept.ite
    | with_reducible apply Kept.fstIte
    | with_reducible refine Kept.foldl ?_ (fun _ _ _ => ?_)
    | with_reducible apply KeptX.mk'
    | with_reducible apply KeptX.ite
    | with_reducible apply State.draw_kept
    | with_reducible refine mctpReply_kept _ (fun _ _ => ?_) ?_
    | (refine Kept.fst (by with_reducible assumption) ?_)
    | (refine Kept.snd (by with_reducible assumption) ?_)
    | split
    | fail_if_no_progress (with_reducible refine Kept.lit rfl rfl ?_)
    | (lift_lets -underBinder; intro x; first | (refine Kept.cut (s0 := s0) (s1 := x) ?_ (fun _ => ?_); on_goal 1 => unfold x) | skip))

theorem execGetpldmversion_kept {s0 s : State} (h0 : Kept s0 s) : KeptX s0 (execGetpldmversion s) := by
  unfold execGetpldmversion
  try lift_lets -underBinder
  repeat' (first
    | (intro x; first | (refine Kept.cut (s0 := s0) (s1 := x) ?_ (fun _ => ?_); on_goal 1 => unfold x) | skip)
    | with_reducible assumption
    | with_reducible apply Kept.ite
    | with_reducible apply Kept.fstIte
    | with_reducible refine Kept.foldl ?_ (fun _ _ _ => ?_)
    | with_reducible apply KeptX.mk'
    | with_reducible apply KeptX.ite
    | with_reducible apply State.draw_kept
    | with_reducible refine mctpReply_kept _ (fun _ _ => ?_) ?_
    | (refine Kept.fst (by with_reducible assumption) ?_)
    | (refine Kept.snd (by with_reducible assumption) ?_)
    | split
    | fail_if_no_progress (with_reducible refine Kept.lit rfl rfl ?_)
    | (lift_lets -underBinder; intro x; first | (refine Kept.cut (s0 := s0) (s1 := x) ?_ (fun _ => ?_); on_goal 1 => unfold x) | skip))

theorem execGetpldmtypes_kept {s0 s : State} (h0 : Kept s0 s) : KeptX s0 (execGetpldmtypes s) := by
  unfold execGetpldmtypes
  repeat' (first
    | with_reducible assumption
    | with_reducible apply Kept.ite
    | with_reducible apply Kept.fstIte
    | with_reducible refine Kept.foldl ?_ (fun _ _ _ => ?_)
    | with_reducible apply KeptX.mk'
    | with_reducible apply KeptX.ite
    | with_reducible refine mctpReply_kept _ (fun _ _ => ?_) ?_
    | (refine Kept.fst (by with_reducible assumption) ?_)
    | split
    | fail_if_no_progress (with_reducible refine Kept.lit rfl rfl ?_)
    | (lift_lets -underBinder; intro x; first | (refine Kept.cut (s0 := s0) (s1 := x) ?_ (fun _ => ?_); on_goal 1 => unfold x) | skip))

theorem execGetpldmcommands_kept (type : BitVec 8) {s0 s : State} (h0 : Kept s0 s) :
    KeptX s0 (execGetpldmcommands type s) := by
  unfold execGetpldmcommands
  repeat' (first
    | with_reducible assumption
    | with_reducible apply Kept.ite
    | with_reducible apply Kept.fstIte
    | with_reducible refine Kept.foldl ?_ (fun _ _ _ => ?_)
    | with_reducible apply KeptX.mk'
    | with_reducible apply KeptX.ite
    | with_reducible refine mctpReply_kept _ (fun _ _ => ?_) ?_
    | (refine Kept.fst (by with_reducible assumption) ?_)
    | split
    | fail_if_no_progress (with_reducible refine Kept.lit rfl rfl ?_)
    | (lift_lets -underBinder; intro x; first | (refine Kept.cut (s0 := s0) (s1 := x) ?_ (fun _ => ?_); on_goal 1 => unfold x) | skip))

theorem execGetpdr_kept (handle : Word) {s0 s : State} (h0 : Kept s0 s) : KeptX s0 (execGetpdr handle s) := by
  unfold execGetpdr
  try lift_lets -underBinder
  repeat' (first
    | (intro x; first | (refine Kept.cut (s0 := s0) (s1 := x) ?_ (fun _ => ?_); on_goal 1 => unfold x) | skip)
    | with_reducible assumption
    | with_reducible apply Kept.ite
    | with_reducible apply Kept.fstIte
    | with_reducible refine Kept.foldl ?_ (fun _ _ _ => ?_)
    | with_reducible apply KeptX.mk'
    | with_reducible apply KeptX.ite
    | with_reducible refine mctpReply_kept _ (fun _ _ => ?_) ?_
    | (refine Kept.fst (by with_reducible assumption) ?_)
    | split
    | fail_if_no_progress (with_reducible refine Kept.lit rfl rfl ?_)
    | (lift_lets -underBinder; intro x; first | (refine Kept.cut (s0 := s0) (s1 := x) ?_ (fun _ => ?_); on_goal 1 => unfold x) | skip))

theorem execGetsensorreading_kept (id : BitVec 16) {s0 s : State} (h0 : Kept s0 s) :
    KeptX s0 (execGetsensorreading id s) := by
  unfold execGetsensorreading
  try lift_lets -underBinder
  repeat' (first
    | (intro x; first | (refine Kept.cut (s0 := s0) (s1 := x) ?_ (fun _ => ?_); on_goal 1 => unfold x) | skip)
    | with_reducible assumption
    | with_reducible apply Kept.ite
    | with_reducible apply Kept.fstIte
    | with_reducible refine Kept.foldl ?_ (fun _ _ _ => ?_)
    | with_reducible apply KeptX.mk'
    | with_reducible apply KeptX.ite
    | with_reducible apply State.draw_kept
    | with_reducible refine mctpReply_kept _ (fun _ _ => ?_) ?_
    | (refine Kept.fst (by with_reducible assumption) ?_)
    | (refine Kept.snd (by with_reducible assumption) ?_)
    | split
    | fail_if_no_progress (with_reducible refine Kept.lit rfl rfl ?_)
    | (lift_lets -underBinder; intro x; first | (refine Kept.cut (s0 := s0) (s1 := x) ?_ (fun _ => ?_); on_goal 1 => unfold x) | skip))

theorem execSlipFrameBadCrc_kept {s0 s : State} (h0 : Kept s0 s) : KeptX s0 (execSlipFrameBadCrc s) := by
  unfold execSlipFrameBadCrc
  repeat' (first
    | with_reducible assumption
    | with_reducible apply Kept.ite
    | with_reducible apply Kept.fstIte
    | with_reducible refine Kept.foldl ?_ (fun _ _ _ => ?_)
    | with_reducible apply KeptX.mk'
    | with_reducible apply KeptX.ite
    | (refine Kept.fst (by with_reducible assumption) ?_)
    | split
    | fail_if_no_progress (with_reducible refine Kept.lit rfl rfl ?_)
    | (lift_lets -underBinder; intro x; first | (refine Kept.cut (s0 := s0) (s1 := x) ?_ (fun _ => ?_); on_goal 1 => unfold x) | skip))

theorem execMemoryRead_kept (agent : Fin 29) (sec : Bool) (addr : BitVec 48) (len : Fin 4097) {s0 s : State} (h0 : Kept s0 s) :
    KeptX s0 (execMemoryRead agent sec addr len s) := by
  unfold execMemoryRead
  repeat' (first
    | with_reducible assumption
    | with_reducible apply Kept.ite
    | with_reducible apply Kept.fstIte
    | with_reducible refine Kept.foldl ?_ (fun _ _ _ => ?_)
    | with_reducible apply KeptX.mk'
    | with_reducible apply KeptX.ite
    | with_reducible apply busRead_kept
    | with_reducible apply answerRead_kept
    | (refine Kept.fst (by with_reducible assumption) ?_)
    | split
    | fail_if_no_progress (with_reducible refine Kept.lit rfl rfl ?_)
    | (lift_lets -underBinder; intro x; first | (refine Kept.cut (s0 := s0) (s1 := x) ?_ (fun _ => ?_); on_goal 1 => unfold x) | skip))

theorem execMemoryWrite_kept (agent : Fin 29) (sec : Bool) (addr : BitVec 48) (bytes : List (Option (BitVec 8))) {s0 s : State} (h0 : Kept s0 s) :
    KeptX s0 (execMemoryWrite agent sec addr bytes s) := by
  unfold execMemoryWrite
  repeat' (first
    | with_reducible assumption
    | with_reducible apply Kept.ite
    | with_reducible apply Kept.fstIte
    | with_reducible refine Kept.foldl ?_ (fun _ _ _ => ?_)
    | with_reducible apply KeptX.mk'
    | with_reducible apply KeptX.ite
    | with_reducible apply busWriteMasked_kept
    | with_reducible apply answerWrite_kept
    | (refine Kept.fst (by with_reducible assumption) ?_)
    | split
    | fail_if_no_progress (with_reducible refine Kept.lit rfl rfl ?_)
    | (lift_lets -underBinder; intro x; first | (refine Kept.cut (s0 := s0) (s1 := x) ?_ (fun _ => ?_); on_goal 1 => unfold x) | skip))

theorem execDataFlip_kept (agent : Fin 26) (sec : Bool) (addr : BitVec 48) (bytes : List (Option (BitVec 8))) {s0 s : State} (h0 : Kept s0 s) :
    KeptX s0 (execDataFlip agent sec addr bytes s) := by
  unfold execDataFlip
  repeat' (first
    | with_reducible assumption
    | with_reducible apply Kept.ite
    | with_reducible apply Kept.fstIte
    | with_reducible refine Kept.foldl ?_ (fun _ _ _ => ?_)
    | with_reducible apply KeptX.mk'
    | with_reducible apply KeptX.ite
    | with_reducible apply flipWrite_kept
    | (refine Kept.fst (by with_reducible assumption) ?_)
    | split
    | fail_if_no_progress (with_reducible refine Kept.lit rfl rfl ?_)
    | (lift_lets -underBinder; intro x; first | (refine Kept.cut (s0 := s0) (s1 := x) ?_ (fun _ => ?_); on_goal 1 => unfold x) | skip))

theorem execParityFlip_kept (agent : Fin 26) (sec : Bool) (addr : BitVec 48) (bytes : List (Option (BitVec 8))) {s0 s : State} (h0 : Kept s0 s) :
    KeptX s0 (execParityFlip agent sec addr bytes s) := by
  unfold execParityFlip
  repeat' (first
    | with_reducible assumption
    | with_reducible apply Kept.ite
    | with_reducible apply Kept.fstIte
    | with_reducible refine Kept.foldl ?_ (fun _ _ _ => ?_)
    | with_reducible apply KeptX.mk'
    | with_reducible apply KeptX.ite
    | with_reducible apply flipWrite_kept
    | (refine Kept.fst (by with_reducible assumption) ?_)
    | split
    | fail_if_no_progress (with_reducible refine Kept.lit rfl rfl ?_)
    | (lift_lets -underBinder; intro x; first | (refine Kept.cut (s0 := s0) (s1 := x) ?_ (fun _ => ?_); on_goal 1 => unfold x) | skip))

theorem execSilentFlip_kept (agent : Fin 26) (sec : Bool) (addr : BitVec 48) (bytes : List (Option (BitVec 8))) {s0 s : State} (h0 : Kept s0 s) :
    KeptX s0 (execSilentFlip agent sec addr bytes s) := by
  unfold execSilentFlip
  repeat' (first
    | with_reducible assumption
    | with_reducible apply Kept.ite
    | with_reducible apply Kept.fstIte
    | with_reducible refine Kept.foldl ?_ (fun _ _ _ => ?_)
    | with_reducible apply KeptX.mk'
    | with_reducible apply KeptX.ite
    | with_reducible apply flipWrite_kept
    | (refine Kept.fst (by with_reducible assumption) ?_)
    | split
    | fail_if_no_progress (with_reducible refine Kept.lit rfl rfl ?_)
    | (lift_lets -underBinder; intro x; first | (refine Kept.cut (s0 := s0) (s1 := x) ?_ (fun _ => ?_); on_goal 1 => unfold x) | skip))

theorem execCorrectingRead_kept (agent : Fin 29) (sec : Bool) (addr : BitVec 48) (damage : List (BitVec 12 × BitVec 9)) {s0 s : State} (h0 : Kept s0 s) :
    KeptX s0 (execCorrectingRead agent sec addr damage s) := by
  unfold execCorrectingRead
  try lift_lets -underBinder
  repeat' (first
    | (intro x; first | (refine Kept.cut (s0 := s0) (s1 := x) ?_ (fun _ => ?_); on_goal 1 => unfold x) | skip)
    | with_reducible assumption
    | with_reducible apply Kept.ite
    | with_reducible apply Kept.fstIte
    | with_reducible refine Kept.foldl ?_ (fun _ _ _ => ?_)
    | with_reducible apply KeptX.mk'
    | with_reducible apply KeptX.ite
    | with_reducible apply damagePage_kept
    | with_reducible apply lineRead_kept
    | (refine Kept.fst (by with_reducible assumption) ?_)
    | split
    | fail_if_no_progress (with_reducible refine Kept.lit rfl rfl ?_)
    | (lift_lets -underBinder; intro x; first | (refine Kept.cut (s0 := s0) (s1 := x) ?_ (fun _ => ?_); on_goal 1 => unfold x) | skip))

theorem execStaleReread_kept (agent : Fin 29) (sec : Bool) (addr : BitVec 48) (damage : List (BitVec 12 × BitVec 9)) (gone : Bool) {s0 s : State} (h0 : Kept s0 s) :
    KeptX s0 (execStaleReread agent sec addr damage gone s) := by
  unfold execStaleReread
  try lift_lets -underBinder
  repeat' (first
    | (intro x; first | (refine Kept.cut (s0 := s0) (s1 := x) ?_ (fun _ => ?_); on_goal 1 => unfold x) | skip)
    | with_reducible assumption
    | with_reducible apply Kept.ite
    | with_reducible apply Kept.fstIte
    | with_reducible refine Kept.foldl ?_ (fun _ _ _ => ?_)
    | with_reducible apply KeptX.mk'
    | with_reducible apply KeptX.ite
    | with_reducible apply memCorrected_kept
    | with_reducible apply busRead_kept
    | with_reducible apply answerRead_kept
    | with_reducible apply damagePage_kept
    | with_reducible apply lineRead_kept
    | (refine Kept.fst (by with_reducible assumption) ?_)
    | split
    | fail_if_no_progress (with_reducible refine Kept.lit rfl rfl ?_)
    | (lift_lets -underBinder; intro x; first | (refine Kept.cut (s0 := s0) (s1 := x) ?_ (fun _ => ?_); on_goal 1 => unfold x) | skip))

theorem execMirrorRead_kept (agent : Fin 29) (sec : Bool) (addr : BitVec 48) (damage mirrorDamage : List (BitVec 12 × BitVec 9)) {s0 s : State} (h0 : Kept s0 s) :
    KeptX s0 (execMirrorRead agent sec addr damage mirrorDamage s) := by
  unfold execMirrorRead
  try lift_lets -underBinder
  repeat' (first
    | (intro x; first | (refine Kept.cut (s0 := s0) (s1 := x) ?_ (fun _ => ?_); on_goal 1 => unfold x) | skip)
    | with_reducible assumption
    | with_reducible apply Kept.ite
    | with_reducible apply Kept.fstIte
    | with_reducible refine Kept.foldl ?_ (fun _ _ _ => ?_)
    | with_reducible apply KeptX.mk'
    | with_reducible apply KeptX.ite
    | with_reducible apply damagePage_kept
    | with_reducible apply lineRead_kept
    | (refine Kept.fst (by with_reducible assumption) ?_)
    | split
    | fail_if_no_progress (with_reducible refine Kept.lit rfl rfl ?_)
    | (lift_lets -underBinder; intro x; first | (refine Kept.cut (s0 := s0) (s1 := x) ?_ (fun _ => ?_); on_goal 1 => unfold x) | skip))

theorem execPageRecode_kept {s0 s : State} (h0 : Kept s0 s) : KeptX s0 (execPageRecode s) := by
  unfold execPageRecode
  repeat' (first
    | with_reducible assumption
    | with_reducible apply Kept.ite
    | with_reducible apply Kept.fstIte
    | with_reducible refine Kept.foldl ?_ (fun _ _ _ => ?_)
    | with_reducible apply KeptX.mk'
    | with_reducible apply KeptX.ite
    | with_reducible apply recodeHead_kept
    | (refine Kept.fst (by with_reducible assumption) ?_)
    | split
    | fail_if_no_progress (with_reducible refine Kept.lit rfl rfl ?_)
    | (lift_lets -underBinder; intro x; first | (refine Kept.cut (s0 := s0) (s1 := x) ?_ (fun _ => ?_); on_goal 1 => unfold x) | skip))

theorem execMirWindowWrite_kept (m : Master) (k : Fin 16) (value : Word) {s0 s : State} (h0 : Kept s0 s) :
    KeptX s0 (execMirWindowWrite m k value s) := by
  unfold execMirWindowWrite
  repeat' (first
    | with_reducible assumption
    | with_reducible apply Kept.ite
    | with_reducible apply Kept.fstIte
    | with_reducible refine Kept.foldl ?_ (fun _ _ _ => ?_)
    | with_reducible apply KeptX.mk'
    | with_reducible apply KeptX.ite
    | with_reducible refine writeReg_kept _ _ _ _ (fun _ _ => ?_) ?_
    | with_reducible apply mirWindowOp_kept
    | (refine Kept.fst (by with_reducible assumption) ?_)
    | split
    | fail_if_no_progress (with_reducible refine Kept.lit rfl rfl ?_)
    | (lift_lets -underBinder; intro x; first | (refine Kept.cut (s0 := s0) (s1 := x) ?_ (fun _ => ?_); on_goal 1 => unfold x) | skip))

theorem execMirrorSyncDone_kept (k : Fin 17) {s0 s : State} (h0 : Kept s0 s) : KeptX s0 (execMirrorSyncDone k s) := by
  unfold execMirrorSyncDone
  try lift_lets -underBinder
  repeat' (first
    | (intro x; first | (refine Kept.cut (s0 := s0) (s1 := x) ?_ (fun _ => ?_); on_goal 1 => unfold x) | skip)
    | with_reducible assumption
    | with_reducible apply Kept.ite
    | with_reducible apply Kept.fstIte
    | with_reducible refine Kept.foldl ?_ (fun _ _ _ => ?_)
    | with_reducible apply KeptX.mk'
    | with_reducible apply KeptX.ite
    | with_reducible apply State.setPf_kept
    | with_reducible apply State.event_kept
    | with_reducible apply mirrorCopy_kept
    | (refine Kept.fst (by with_reducible assumption) ?_)
    | split
    | fail_if_no_progress (with_reducible refine Kept.lit rfl rfl ?_)
    | (lift_lets -underBinder; intro x; first | (refine Kept.cut (s0 := s0) (s1 := x) ?_ (fun _ => ?_); on_goal 1 => unfold x) | skip))

theorem execShimInstall_kept (m : Master) (k : Fin 32) (value : Word) {s0 s : State} (h0 : Kept s0 s) :
    KeptX s0 (execShimInstall m k value s) := by
  unfold execShimInstall
  repeat' (first
    | with_reducible assumption
    | with_reducible apply Kept.ite
    | with_reducible apply Kept.fstIte
    | with_reducible refine Kept.foldl ?_ (fun _ _ _ => ?_)
    | with_reducible apply KeptX.mk'
    | with_reducible apply KeptX.ite
    | with_reducible refine writeReg_kept _ _ _ _ (fun _ _ => ?_) ?_
    | with_reducible apply shimOp_kept
    | (refine Kept.fst (by with_reducible assumption) ?_)
    | split
    | fail_if_no_progress (with_reducible refine Kept.lit rfl rfl ?_)
    | (lift_lets -underBinder; intro x; first | (refine Kept.cut (s0 := s0) (s1 := x) ?_ (fun _ => ?_); on_goal 1 => unfold x) | skip))

theorem execShimCopyDone_kept (k : Fin 32) {s0 s : State} (h0 : Kept s0 s) : KeptX s0 (execShimCopyDone k s) := by
  unfold execShimCopyDone
  try lift_lets -underBinder
  repeat' (first
    | (intro x; first | (refine Kept.cut (s0 := s0) (s1 := x) ?_ (fun _ => ?_); on_goal 1 => unfold x) | skip)
    | with_reducible assumption
    | with_reducible apply Kept.ite
    | with_reducible apply Kept.fstIte
    | with_reducible refine Kept.foldl ?_ (fun _ _ _ => ?_)
    | with_reducible apply KeptX.mk'
    | with_reducible apply KeptX.ite
    | with_reducible apply State.setPf_kept
    | with_reducible apply State.event_kept
    | with_reducible apply raiseFault_kept
    | with_reducible apply soundLine_kept
    | (refine Kept.fst (by with_reducible assumption) ?_)
    | split
    | fail_if_no_progress (with_reducible refine Kept.lit rfl rfl ?_)
    | (lift_lets -underBinder; intro x; first | (refine Kept.cut (s0 := s0) (s1 := x) ?_ (fun _ => ?_); on_goal 1 => unfold x) | skip))

theorem execScrubStripe_kept {s0 s : State} (h0 : Kept s0 s) : KeptX s0 (execScrubStripe s) := by
  unfold execScrubStripe
  try lift_lets -underBinder
  repeat' (first
    | (intro x; first | (refine Kept.cut (s0 := s0) (s1 := x) ?_ (fun _ => ?_); on_goal 1 => unfold x) | skip)
    | with_reducible assumption
    | with_reducible apply Kept.ite
    | with_reducible apply Kept.fstIte
    | with_reducible refine Kept.foldl ?_ (fun _ _ _ => ?_)
    | with_reducible apply KeptX.mk'
    | with_reducible apply KeptX.ite
    | with_reducible apply State.setPf_kept
    | with_reducible apply State.count_kept
    | with_reducible apply scrubPage_kept
    | (refine Kept.fst (by with_reducible assumption) ?_)
    | split
    | fail_if_no_progress (with_reducible refine Kept.lit rfl rfl ?_)
    | (lift_lets -underBinder; intro x; first | (refine Kept.cut (s0 := s0) (s1 := x) ?_ (fun _ => ?_); on_goal 1 => unfold x) | skip))

theorem execScrubPeriodStart_kept {s0 s : State} (h0 : Kept s0 s) : KeptX s0 (execScrubPeriodStart s) := by
  unfold execScrubPeriodStart
  repeat' (first
    | with_reducible assumption
    | with_reducible apply Kept.ite
    | with_reducible apply Kept.fstIte
    | with_reducible refine Kept.foldl ?_ (fun _ _ _ => ?_)
    | with_reducible apply KeptX.mk'
    | with_reducible apply KeptX.ite
    | (refine Kept.fst (by with_reducible assumption) ?_)
    | split
    | fail_if_no_progress (with_reducible refine Kept.lit rfl rfl ?_)
    | (lift_lets -underBinder; intro x; first | (refine Kept.cut (s0 := s0) (s1 := x) ?_ (fun _ => ?_); on_goal 1 => unfold x) | skip))

theorem execRefreshInterval_kept (c : Fin 32) (issued : Fin 10) {s0 s : State} (h0 : Kept s0 s) :
    KeptX s0 (execRefreshInterval c issued s) := by
  unfold execRefreshInterval
  try lift_lets -underBinder
  repeat' (first
    | (intro x; first | (refine Kept.cut (s0 := s0) (s1 := x) ?_ (fun _ => ?_); on_goal 1 => unfold x) | skip)
    | with_reducible assumption
    | with_reducible apply Kept.ite
    | with_reducible apply Kept.fstIte
    | with_reducible refine Kept.foldl ?_ (fun _ _ _ => ?_)
    | with_reducible apply KeptX.mk'
    | with_reducible apply KeptX.ite
    | with_reducible apply State.count_kept
    | with_reducible apply raiseFault_kept
    | with_reducible apply setChStatus_kept
    | (refine Kept.fst (by with_reducible assumption) ?_)
    | split
    | fail_if_no_progress (with_reducible refine Kept.lit rfl rfl ?_)
    | (lift_lets -underBinder; intro x; first | (refine Kept.cut (s0 := s0) (s1 := x) ?_ (fun _ => ?_); on_goal 1 => unfold x) | skip))

theorem execTempPoll_kept (c : Fin 32) (rate : BitVec 4) (temp : BitVec 8) {s0 s : State} (h0 : Kept s0 s) :
    KeptX s0 (execTempPoll c rate temp s) := by
  unfold execTempPoll
  try lift_lets -underBinder
  repeat' (first
    | (intro x; first | (refine Kept.cut (s0 := s0) (s1 := x) ?_ (fun _ => ?_); on_goal 1 => unfold x) | skip)
    | with_reducible assumption
    | with_reducible apply Kept.ite
    | with_reducible apply Kept.fstIte
    | with_reducible refine Kept.foldl ?_ (fun _ _ _ => ?_)
    | with_reducible apply KeptX.mk'
    | with_reducible apply KeptX.ite
    | with_reducible apply State.setPf_kept
    | with_reducible apply setChStatus_kept
    | with_reducible apply retrainNext_kept
    | with_reducible apply retrainFallsDue_kept
    | (refine Kept.fst (by with_reducible assumption) ?_)
    | split
    | fail_if_no_progress (with_reducible refine Kept.lit rfl rfl ?_)
    | (lift_lets -underBinder; intro x; first | (refine Kept.cut (s0 := s0) (s1 := x) ?_ (fun _ => ?_); on_goal 1 => unfold x) | skip))

theorem execPeriodicRetrain_kept (c : Fin 32) {s0 s : State} (h0 : Kept s0 s) : KeptX s0 (execPeriodicRetrain c s) := by
  unfold execPeriodicRetrain
  repeat' (first
    | with_reducible assumption
    | with_reducible apply Kept.ite
    | with_reducible apply Kept.fstIte
    | with_reducible refine Kept.foldl ?_ (fun _ _ _ => ?_)
    | with_reducible apply KeptX.mk'
    | with_reducible apply KeptX.ite
    | with_reducible apply retrainFallsDue_kept
    | (refine Kept.fst (by with_reducible assumption) ?_)
    | split
    | fail_if_no_progress (with_reducible refine Kept.lit rfl rfl ?_)
    | (lift_lets -underBinder; intro x; first | (refine Kept.cut (s0 := s0) (s1 := x) ?_ (fun _ => ?_); on_goal 1 => unfold x) | skip))

theorem execRetrainDone_kept (c : Fin 32) (ok : Bool) {s0 s : State} (h0 : Kept s0 s) :
    KeptX s0 (execRetrainDone c ok s) := by
  unfold execRetrainDone
  try lift_lets -underBinder
  repeat' (first
    | (intro x; first | (refine Kept.cut (s0 := s0) (s1 := x) ?_ (fun _ => ?_); on_goal 1 => unfold x) | skip)
    | with_reducible assumption
    | with_reducible apply Kept.ite
    | with_reducible apply Kept.fstIte
    | with_reducible refine Kept.foldl ?_ (fun _ _ _ => ?_)
    | with_reducible apply KeptX.mk'
    | with_reducible apply KeptX.ite
    | with_reducible apply State.setPr_kept
    | with_reducible apply State.setPf_kept
    | with_reducible apply raiseFault_kept
    | with_reducible apply setChStatus_kept
    | with_reducible apply retrainNext_kept
    | (refine Kept.fst (by with_reducible assumption) ?_)
    | split
    | fail_if_no_progress (with_reducible refine Kept.lit rfl rfl ?_)
    | (lift_lets -underBinder; intro x; first | (refine Kept.cut (s0 := s0) (s1 := x) ?_ (fun _ => ?_); on_goal 1 => unfold x) | skip))

theorem execSelfRefreshEntry_kept (c : Fin 32) {s0 s : State} (h0 : Kept s0 s) :
    KeptX s0 (execSelfRefreshEntry c s) := by
  unfold execSelfRefreshEntry
  try lift_lets -underBinder
  repeat' (first
    | (intro x; first | (refine Kept.cut (s0 := s0) (s1 := x) ?_ (fun _ => ?_); on_goal 1 => unfold x) | skip)
    | with_reducible assumption
    | with_reducible apply Kept.ite
    | with_reducible apply Kept.fstIte
    | with_reducible refine Kept.foldl ?_ (fun _ _ _ => ?_)
    | with_reducible apply KeptX.mk'
    | with_reducible apply KeptX.ite
    | with_reducible apply State.count_kept
    | with_reducible apply setChStatus_kept
    | (refine Kept.fst (by with_reducible assumption) ?_)
    | split
    | fail_if_no_progress (with_reducible refine Kept.lit rfl rfl ?_)
    | (lift_lets -underBinder; intro x; first | (refine Kept.cut (s0 := s0) (s1 := x) ?_ (fun _ => ?_); on_goal 1 => unfold x) | skip))

theorem execSelfRefreshExit_kept (c : Fin 32) {s0 s : State} (h0 : Kept s0 s) : KeptX s0 (execSelfRefreshExit c s) := by
  unfold execSelfRefreshExit
  repeat' (first
    | with_reducible assumption
    | with_reducible apply Kept.ite
    | with_reducible apply Kept.fstIte
    | with_reducible refine Kept.foldl ?_ (fun _ _ _ => ?_)
    | with_reducible apply KeptX.mk'
    | with_reducible apply KeptX.ite
    | with_reducible apply leaveSelfRefresh_kept
    | (refine Kept.fst (by with_reducible assumption) ?_)
    | split
    | fail_if_no_progress (with_reducible refine Kept.lit rfl rfl ?_)
    | (lift_lets -underBinder; intro x; first | (refine Kept.cut (s0 := s0) (s1 := x) ?_ (fun _ => ?_); on_goal 1 => unfold x) | skip))

theorem execClrMax_kept (m : Master) (value : Word) {s0 s : State} (h0 : Kept s0 s) :
    KeptX s0 (execClrMax m value s) := by
  unfold execClrMax
  repeat' (first
    | with_reducible assumption
    | with_reducible apply Kept.ite
    | with_reducible apply Kept.fstIte
    | with_reducible refine Kept.foldl ?_ (fun _ _ _ => ?_)
    | with_reducible apply KeptX.mk'
    | with_reducible apply KeptX.ite
    | with_reducible refine writeReg_kept _ _ _ _ (fun _ _ => ?_) ?_
    | with_reducible apply recodeCfgOp_kept
    | (refine Kept.fst (by with_reducible assumption) ?_)
    | split
    | fail_if_no_progress (with_reducible refine Kept.lit rfl rfl ?_)
    | (lift_lets -underBinder; intro x; first | (refine Kept.cut (s0 := s0) (s1 := x) ?_ (fun _ => ?_); on_goal 1 => unfold x) | skip))

theorem execMemInitStripe_kept {s0 s : State} (h0 : Kept s0 s) : KeptX s0 (execMemInitStripe s) := by
  unfold execMemInitStripe
  try lift_lets -underBinder
  repeat' (first
    | (intro x; first | (refine Kept.cut (s0 := s0) (s1 := x) ?_ (fun _ => ?_); on_goal 1 => unfold x) | skip)
    | with_reducible assumption
    | with_reducible apply Kept.ite
    | with_reducible apply Kept.fstIte
    | with_reducible refine Kept.foldl ?_ (fun _ _ _ => ?_)
    | with_reducible apply KeptX.mk'
    | with_reducible apply KeptX.ite
    | with_reducible apply State.setPair_kept
    | with_reducible apply State.event_kept
    | (refine Kept.fst (by with_reducible assumption) ?_)
    | split
    | fail_if_no_progress (with_reducible refine Kept.lit rfl rfl ?_)
    | (lift_lets -underBinder; intro x; first | (refine Kept.cut (s0 := s0) (s1 := x) ?_ (fun _ => ?_); on_goal 1 => unfold x) | skip))

theorem execSecureSramParity_kept (agent : Fin 26) (off : BitVec 20) {s0 s : State} (h0 : Kept s0 s) :
    KeptX s0 (execSecureSramParity agent off s) := by
  unfold execSecureSramParity
  try lift_lets -underBinder
  repeat' (first
    | (intro x; first | (refine Kept.cut (s0 := s0) (s1 := x) ?_ (fun _ => ?_); on_goal 1 => unfold x) | skip)
    | with_reducible assumption
    | with_reducible apply Kept.ite
    | with_reducible apply Kept.fstIte
    | with_reducible refine Kept.foldl ?_ (fun _ _ _ => ?_)
    | with_reducible apply KeptX.mk'
    | with_reducible apply KeptX.ite
    | with_reducible apply setBad_kept
    | with_reducible apply lineRead_kept
    | (refine Kept.fst (by with_reducible assumption) ?_)
    | split
    | fail_if_no_progress (with_reducible refine Kept.lit rfl rfl ?_)
    | (lift_lets -underBinder; intro x; first | (refine Kept.cut (s0 := s0) (s1 := x) ?_ (fun _ => ?_); on_goal 1 => unfold x) | skip))

theorem execFreezeDone_kept (f : Fin 64) {s0 s : State} (h0 : Kept s0 s) : KeptX s0 (execFreezeDone f s) := by
  unfold execFreezeDone
  try lift_lets -underBinder
  repeat' (first
    | (intro x; first | (refine Kept.cut (s0 := s0) (s1 := x) ?_ (fun _ => ?_); on_goal 1 => unfold x) | skip)
    | with_reducible assumption
    | with_reducible apply Kept.ite
    | with_reducible apply Kept.fstIte
    | with_reducible refine Kept.foldl ?_ (fun _ _ _ => ?_)
    | with_reducible apply KeptX.mk'
    | with_reducible apply KeptX.ite
    | with_reducible apply State.setPf_kept
    | with_reducible apply State.setRing_kept
    | with_reducible apply migEnd_kept
    | (refine Kept.fst (by with_reducible assumption) ?_)
    | split
    | fail_if_no_progress (with_reducible refine Kept.lit rfl rfl ?_)
    | (lift_lets -underBinder; intro x; first | (refine Kept.cut (s0 := s0) (s1 := x) ?_ (fun _ => ?_); on_goal 1 => unfold x) | skip))

theorem execFreeze_kept (m : Master) (f : Fin 64) {s0 s : State} (h0 : Kept s0 s) : KeptX s0 (execFreeze m f s) := by
  unfold execFreeze
  repeat' (first
    | with_reducible assumption
    | with_reducible apply Kept.ite
    | with_reducible apply Kept.fstIte
    | with_reducible refine Kept.foldl ?_ (fun _ _ _ => ?_)
    | with_reducible apply KeptX.mk'
    | with_reducible apply KeptX.ite
    | with_reducible apply migWrite_kept
    | (refine Kept.fst (by with_reducible assumption) ?_)
    | split
    | fail_if_no_progress (with_reducible refine Kept.lit rfl rfl ?_)
    | (lift_lets -underBinder; intro x; first | (refine Kept.cut (s0 := s0) (s1 := x) ?_ (fun _ => ?_); on_goal 1 => unfold x) | skip))

theorem execSave_kept (m : Master) (f : Fin 64) {s0 s : State} (h0 : Kept s0 s) : KeptX s0 (execSave m f s) := by
  unfold execSave
  repeat' (first
    | with_reducible assumption
    | with_reducible apply Kept.ite
    | with_reducible apply Kept.fstIte
    | with_reducible refine Kept.foldl ?_ (fun _ _ _ => ?_)
    | with_reducible apply KeptX.mk'
    | with_reducible apply KeptX.ite
    | with_reducible apply migWrite_kept
    | (refine Kept.fst (by with_reducible assumption) ?_)
    | split
    | fail_if_no_progress (with_reducible refine Kept.lit rfl rfl ?_)
    | (lift_lets -underBinder; intro x; first | (refine Kept.cut (s0 := s0) (s1 := x) ?_ (fun _ => ?_); on_goal 1 => unfold x) | skip))

theorem execRestore_kept (m : Master) (f : Fin 64) {s0 s : State} (h0 : Kept s0 s) : KeptX s0 (execRestore m f s) := by
  unfold execRestore
  repeat' (first
    | with_reducible assumption
    | with_reducible apply Kept.ite
    | with_reducible apply Kept.fstIte
    | with_reducible refine Kept.foldl ?_ (fun _ _ _ => ?_)
    | with_reducible apply KeptX.mk'
    | with_reducible apply KeptX.ite
    | with_reducible apply migWrite_kept
    | (refine Kept.fst (by with_reducible assumption) ?_)
    | split
    | fail_if_no_progress (with_reducible refine Kept.lit rfl rfl ?_)
    | (lift_lets -underBinder; intro x; first | (refine Kept.cut (s0 := s0) (s1 := x) ?_ (fun _ => ?_); on_goal 1 => unfold x) | skip))

theorem execResume_kept (m : Master) (f : Fin 64) {s0 s : State} (h0 : Kept s0 s) : KeptX s0 (execResume m f s) := by
  unfold execResume
  repeat' (first
    | with_reducible assumption
    | with_reducible apply Kept.ite
    | with_reducible apply Kept.fstIte
    | with_reducible refine Kept.foldl ?_ (fun _ _ _ => ?_)
    | with_reducible apply KeptX.mk'
    | with_reducible apply KeptX.ite
    | with_reducible apply migWrite_kept
    | (refine Kept.fst (by with_reducible assumption) ?_)
    | split
    | fail_if_no_progress (with_reducible refine Kept.lit rfl rfl ?_)
    | (lift_lets -underBinder; intro x; first | (refine Kept.cut (s0 := s0) (s1 := x) ?_ (fun _ => ?_); on_goal 1 => unfold x) | skip))

theorem execClaim_kept (m : Master) (k : Fin 32) (value : Word) {s0 s : State} (h0 : Kept s0 s) :
    KeptX s0 (execClaim m k value s) := by
  unfold execClaim
  repeat' (first
    | with_reducible assumption
    | with_reducible apply Kept.ite
    | with_reducible apply Kept.fstIte
    | with_reducible refine Kept.foldl ?_ (fun _ _ _ => ?_)
    | with_reducible apply KeptX.mk'
    | with_reducible apply KeptX.ite
    | with_reducible apply claimWrite_kept
    | (refine Kept.fst (by with_reducible assumption) ?_)
    | split
    | fail_if_no_progress (with_reducible refine Kept.lit rfl rfl ?_)
    | (lift_lets -underBinder; intro x; first | (refine Kept.cut (s0 := s0) (s1 := x) ?_ (fun _ => ?_); on_goal 1 => unfold x) | skip))

theorem execClaimRelease_kept (m : Master) (k : Fin 32) (value : Word) {s0 s : State} (h0 : Kept s0 s) :
    KeptX s0 (execClaimRelease m k value s) := by
  unfold execClaimRelease
  repeat' (first
    | with_reducible assumption
    | with_reducible apply Kept.ite
    | with_reducible apply Kept.fstIte
    | with_reducible refine Kept.foldl ?_ (fun _ _ _ => ?_)
    | with_reducible apply KeptX.mk'
    | with_reducible apply KeptX.ite
    | with_reducible apply claimWrite_kept
    | (refine Kept.fst (by with_reducible assumption) ?_)
    | split
    | fail_if_no_progress (with_reducible refine Kept.lit rfl rfl ?_)
    | (lift_lets -underBinder; intro x; first | (refine Kept.cut (s0 := s0) (s1 := x) ?_ (fun _ => ?_); on_goal 1 => unfold x) | skip))

theorem execGclkStepChange_kept {s0 s : State} (h0 : Kept s0 s) : KeptX s0 (execGclkStepChange s) := by
  unfold execGclkStepChange
  try lift_lets -underBinder
  repeat' (first
    | (intro x; first | (refine Kept.cut (s0 := s0) (s1 := x) ?_ (fun _ => ?_); on_goal 1 => unfold x) | skip)
    | with_reducible assumption
    | with_reducible apply Kept.ite
    | with_reducible apply Kept.fstIte
    | with_reducible refine Kept.foldl ?_ (fun _ _ _ => ?_)
    | with_reducible apply KeptX.mk'
    | with_reducible apply KeptX.ite
    | with_reducible apply State.setPr_kept
    | with_reducible apply State.event_kept
    | (refine Kept.fst (by with_reducible assumption) ?_)
    | split
    | fail_if_no_progress (with_reducible refine Kept.lit rfl rfl ?_)
    | (lift_lets -underBinder; intro x; first | (refine Kept.cut (s0 := s0) (s1 := x) ?_ (fun _ => ?_); on_goal 1 => unfold x) | skip))

theorem execSensorSample_kept (values : List (BitVec 16)) {s0 s : State} (h0 : Kept s0 s) :
    KeptX s0 (execSensorSample values s) := by
  unfold execSensorSample
  try lift_lets -underBinder
  repeat' (first
    | (intro x; first | (refine Kept.cut (s0 := s0) (s1 := x) ?_ (fun _ => ?_); on_goal 1 => unfold x) | skip)
    | with_reducible assumption
    | with_reducible apply Kept.ite
    | with_reducible apply Kept.fstIte
    | with_reducible refine Kept.foldl ?_ (fun _ _ _ => ?_)
    | with_reducible apply KeptX.mk'
    | with_reducible apply KeptX.ite
    | with_reducible apply raiseFault_kept
    | (refine Kept.fst (by with_reducible assumption) ?_)
    | split
    | fail_if_no_progress (with_reducible refine Kept.lit rfl rfl ?_)
    | (lift_lets -underBinder; intro x; first | (refine Kept.cut (s0 := s0) (s1 := x) ?_ (fun _ => ?_); on_goal 1 => unfold x) | skip))

theorem execFanLost_kept (k : Fin 2) {s0 s : State} (h0 : Kept s0 s) : KeptX s0 (execFanLost k s) := by
  unfold execFanLost
  try lift_lets -underBinder
  repeat' (first
    | (intro x; first | (refine Kept.cut (s0 := s0) (s1 := x) ?_ (fun _ => ?_); on_goal 1 => unfold x) | skip)
    | with_reducible assumption
    | with_reducible apply Kept.ite
    | with_reducible apply Kept.fstIte
    | with_reducible refine Kept.foldl ?_ (fun _ _ _ => ?_)
    | with_reducible apply KeptX.mk'
    | with_reducible apply KeptX.ite
    | with_reducible apply raiseFault_kept
    | (refine Kept.fst (by with_reducible assumption) ?_)
    | split
    | fail_if_no_progress (with_reducible refine Kept.lit rfl rfl ?_)
    | (lift_lets -underBinder; intro x; first | (refine Kept.cut (s0 := s0) (s1 := x) ?_ (fun _ => ?_); on_goal 1 => unfold x) | skip))

theorem execSagOnset_kept (cond : Fin 3) {s0 s : State} (h0 : Kept s0 s) : KeptX s0 (execSagOnset cond s) := by
  unfold execSagOnset
  try lift_lets -underBinder
  repeat' (first
    | (intro x; first | (refine Kept.cut (s0 := s0) (s1 := x) ?_ (fun _ => ?_); on_goal 1 => unfold x) | skip)
    | with_reducible assumption
    | with_reducible apply Kept.ite
    | with_reducible apply Kept.fstIte
    | with_reducible refine Kept.foldl ?_ (fun _ _ _ => ?_)
    | with_reducible apply KeptX.mk'
    | with_reducible apply KeptX.ite
    | with_reducible apply State.count_kept
    | with_reducible apply State.event_kept
    | with_reducible apply raiseFault_kept
    | with_reducible apply sagRegs_kept
    | (refine Kept.fst (by with_reducible assumption) ?_)
    | split
    | fail_if_no_progress (with_reducible refine Kept.lit rfl rfl ?_)
    | (lift_lets -underBinder; intro x; first | (refine Kept.cut (s0 := s0) (s1 := x) ?_ (fun _ => ?_); on_goal 1 => unfold x) | skip))

theorem execSagEscalate_kept {s0 s : State} (h0 : Kept s0 s) : KeptX s0 (execSagEscalate s) := by
  unfold execSagEscalate
  try lift_lets -underBinder
  repeat' (first
    | (intro x; first | (refine Kept.cut (s0 := s0) (s1 := x) ?_ (fun _ => ?_); on_goal 1 => unfold x) | skip)
    | with_reducible assumption
    | with_reducible apply Kept.ite
    | with_reducible apply Kept.fstIte
    | with_reducible refine Kept.foldl ?_ (fun _ _ _ => ?_)
    | with_reducible apply KeptX.mk'
    | with_reducible apply KeptX.ite
    | with_reducible apply sagRegs_kept
    | (refine Kept.fst (by with_reducible assumption) ?_)
    | split
    | fail_if_no_progress (with_reducible refine Kept.lit rfl rfl ?_)
    | (lift_lets -underBinder; intro x; first | (refine Kept.cut (s0 := s0) (s1 := x) ?_ (fun _ => ?_); on_goal 1 => unfold x) | skip))

theorem execSagClear_kept (cond : Fin 3) {s0 s : State} (h0 : Kept s0 s) : KeptX s0 (execSagClear cond s) := by
  unfold execSagClear
  try lift_lets -underBinder
  repeat' (first
    | (intro x; first | (refine Kept.cut (s0 := s0) (s1 := x) ?_ (fun _ => ?_); on_goal 1 => unfold x) | skip)
    | with_reducible assumption
    | with_reducible apply Kept.ite
    | with_reducible apply Kept.fstIte
    | with_reducible refine Kept.foldl ?_ (fun _ _ _ => ?_)
    | with_reducible apply KeptX.mk'
    | with_reducible apply KeptX.ite
    | with_reducible apply sagRegs_kept
    | (refine Kept.fst (by with_reducible assumption) ?_)
    | split
    | fail_if_no_progress (with_reducible refine Kept.lit rfl rfl ?_)
    | (lift_lets -underBinder; intro x; first | (refine Kept.cut (s0 := s0) (s1 := x) ?_ (fun _ => ?_); on_goal 1 => unfold x) | skip))

theorem execLoadShed_kept {s0 s : State} (h0 : Kept s0 s) : KeptX s0 (execLoadShed s) := by
  unfold execLoadShed
  try lift_lets -underBinder
  repeat' (first
    | (intro x; first | (refine Kept.cut (s0 := s0) (s1 := x) ?_ (fun _ => ?_); on_goal 1 => unfold x) | skip)
    | with_reducible assumption
    | with_reducible apply Kept.ite
    | with_reducible apply Kept.fstIte
    | with_reducible refine Kept.foldl ?_ (fun _ _ _ => ?_)
    | with_reducible apply KeptX.mk'
    | with_reducible apply KeptX.ite
    | with_reducible apply State.setPf_kept
    | with_reducible apply hapStop_kept
    | with_reducible apply raiseFault_kept
    | with_reducible apply relayUpdate_kept
    | with_reducible apply shedHeads_kept
    | (refine Kept.fst (by with_reducible assumption) ?_)
    | split
    | fail_if_no_progress (with_reducible refine Kept.lit rfl rfl ?_)
    | (lift_lets -underBinder; intro x; first | (refine Kept.cut (s0 := s0) (s1 := x) ?_ (fun _ => ?_); on_goal 1 => unfold x) | skip))

theorem execHoldupHeld_kept (bulk rail12 : BitVec 16) (acBack : Bool) {s0 s : State} (h0 : Kept s0 s) :
    KeptX s0 (execHoldupHeld bulk rail12 acBack s) := by
  unfold execHoldupHeld
  try lift_lets -underBinder
  repeat' (first
    | (intro x; first | (refine Kept.cut (s0 := s0) (s1 := x) ?_ (fun _ => ?_); on_goal 1 => unfold x) | skip)
    | with_reducible assumption
    | with_reducible apply Kept.ite
    | with_reducible apply Kept.fstIte
    | with_reducible refine Kept.foldl ?_ (fun _ _ _ => ?_)
    | with_reducible apply KeptX.mk'
    | with_reducible apply KeptX.ite
    | with_reducible apply toHeld_kept
    | (refine Kept.fst (by with_reducible assumption) ?_)
    | split
    | fail_if_no_progress (with_reducible refine Kept.lit rfl rfl ?_)
    | (lift_lets -underBinder; intro x; first | (refine Kept.cut (s0 := s0) (s1 := x) ?_ (fun _ => ?_); on_goal 1 => unfold x) | skip))

theorem execFlashOperation_kept (bulk : BitVec 16) {s0 s : State} (h0 : Kept s0 s) :
    KeptX s0 (execFlashOperation bulk s) := by
  unfold execFlashOperation
  try lift_lets -underBinder
  repeat' (first
    | (intro x; first | (refine Kept.cut (s0 := s0) (s1 := x) ?_ (fun _ => ?_); on_goal 1 => unfold x) | skip)
    | with_reducible assumption
    | with_reducible apply Kept.ite
    | with_reducible apply Kept.fstIte
    | with_reducible refine Kept.foldl ?_ (fun _ _ _ => ?_)
    | with_reducible apply KeptX.mk'
    | with_reducible apply KeptX.ite
    | with_reducible apply flashTry_kept
    | (refine Kept.fst (by with_reducible assumption) ?_)
    | split
    | fail_if_no_progress (with_reducible refine Kept.lit rfl rfl ?_)
    | (lift_lets -underBinder; intro x; first | (refine Kept.cut (s0 := s0) (s1 := x) ?_ (fun _ => ?_); on_goal 1 => unfold x) | skip))

theorem execFlashDeferRetry_kept (bulk : BitVec 16) {s0 s : State} (h0 : Kept s0 s) :
    KeptX s0 (execFlashDeferRetry bulk s) := by
  unfold execFlashDeferRetry
  try lift_lets -underBinder
  repeat' (first
    | (intro x; first | (refine Kept.cut (s0 := s0) (s1 := x) ?_ (fun _ => ?_); on_goal 1 => unfold x) | skip)
    | with_reducible assumption
    | with_reducible apply Kept.ite
    | with_reducible apply Kept.fstIte
    | with_reducible refine Kept.foldl ?_ (fun _ _ _ => ?_)
    | with_reducible apply KeptX.mk'
    | with_reducible apply KeptX.ite
    | with_reducible apply flashTry_kept
    | (refine Kept.fst (by with_reducible assumption) ?_)
    | split
    | fail_if_no_progress (with_reducible refine Kept.lit rfl rfl ?_)
    | (lift_lets -underBinder; intro x; first | (refine Kept.cut (s0 := s0) (s1 := x) ?_ (fun _ => ?_); on_goal 1 => unfold x) | skip))

theorem execTelemetryRecord_kept {s0 s : State} (h0 : Kept s0 s) : KeptX s0 (execTelemetryRecord s) := by
  unfold execTelemetryRecord
  try lift_lets -underBinder
  repeat' (first
    | (intro x; first | (refine Kept.cut (s0 := s0) (s1 := x) ?_ (fun _ => ?_); on_goal 1 => unfold x) | skip)
    | with_reducible assumption
    | with_reducible apply Kept.ite
    | with_reducible apply Kept.fstIte
    | with_reducible refine Kept.foldl ?_ (fun _ _ _ => ?_)
    | with_reducible apply KeptX.mk'
    | with_reducible apply KeptX.ite
    | with_reducible apply State.count_kept
    | with_reducible apply busWrite_kept
    | (refine Kept.fst (by with_reducible assumption) ?_)
    | split
    | fail_if_no_progress (with_reducible refine Kept.lit rfl rfl ?_)
    | (lift_lets -underBinder; intro x; first | (refine Kept.cut (s0 := s0) (s1 := x) ?_ (fun _ => ?_); on_goal 1 => unfold x) | skip))

theorem execUnitCtrlWrite_kept (m : Master) (value : Word) {s0 s : State} (h0 : Kept s0 s) :
    KeptX s0 (execUnitCtrlWrite m value s) := by
  unfold execUnitCtrlWrite
  repeat' (first
    | with_reducible assumption
    | with_reducible apply Kept.ite
    | with_reducible apply Kept.fstIte
    | with_reducible refine Kept.foldl ?_ (fun _ _ _ => ?_)
    | with_reducible apply KeptX.mk'
    | with_reducible apply KeptX.ite
    | with_reducible refine writeReg_kept _ _ _ _ (fun _ _ => ?_) ?_
    | with_reducible apply unitOp_kept
    | (refine Kept.fst (by with_reducible assumption) ?_)
    | split
    | fail_if_no_progress (with_reducible refine Kept.lit rfl rfl ?_)
    | (lift_lets -underBinder; intro x; first | (refine Kept.cut (s0 := s0) (s1 := x) ?_ (fun _ => ?_); on_goal 1 => unfold x) | skip))

theorem execDpPwrOvercurrent_kept (n : Fin 12) {s0 s : State} (h0 : Kept s0 s) :
    KeptX s0 (execDpPwrOvercurrent n s) := by
  unfold execDpPwrOvercurrent
  try lift_lets -underBinder
  repeat' (first
    | (intro x; first | (refine Kept.cut (s0 := s0) (s1 := x) ?_ (fun _ => ?_); on_goal 1 => unfold x) | skip)
    | with_reducible assumption
    | with_reducible apply Kept.ite
    | with_reducible apply Kept.fstIte
    | with_reducible refine Kept.foldl ?_ (fun _ _ _ => ?_)
    | with_reducible apply KeptX.mk'
    | with_reducible apply KeptX.ite
    | with_reducible apply State.logLimited_kept
    | (refine Kept.fst (by with_reducible assumption) ?_)
    | split
    | fail_if_no_progress (with_reducible refine Kept.lit rfl rfl ?_)
    | (lift_lets -underBinder; intro x; first | (refine Kept.cut (s0 := s0) (s1 := x) ?_ (fun _ => ?_); on_goal 1 => unfold x) | skip))

theorem execDpPwrRetry_kept (n : Fin 12) {s0 s : State} (h0 : Kept s0 s) : KeptX s0 (execDpPwrRetry n s) := by
  unfold execDpPwrRetry
  repeat' (first
    | with_reducible assumption
    | with_reducible apply Kept.ite
    | with_reducible apply Kept.fstIte
    | with_reducible refine Kept.foldl ?_ (fun _ _ _ => ?_)
    | with_reducible apply KeptX.mk'
    | with_reducible apply KeptX.ite
    | (refine Kept.fst (by with_reducible assumption) ?_)
    | split
    | fail_if_no_progress (with_reducible refine Kept.lit rfl rfl ?_)
    | (lift_lets -underBinder; intro x; first | (refine Kept.cut (s0 := s0) (s1 := x) ?_ (fun _ => ?_); on_goal 1 => unfold x) | skip))

theorem execBandLatch_kept (n : Fin 12) (b : Fin 8) {s0 s : State} (h0 : Kept s0 s) :
    KeptX s0 (execBandLatch n b s) := by
  unfold execBandLatch
  try lift_lets -underBinder
  repeat' (first
    | (intro x; first | (refine Kept.cut (s0 := s0) (s1 := x) ?_ (fun _ => ?_); on_goal 1 => unfold x) | skip)
    | with_reducible assumption
    | with_reducible apply Kept.ite
    | with_reducible apply Kept.fstIte
    | with_reducible refine Kept.foldl ?_ (fun _ _ _ => ?_)
    | with_reducible apply KeptX.mk'
    | with_reducible apply KeptX.ite
    | with_reducible apply State.event_kept
    | with_reducible apply State.setHead_kept
    | with_reducible apply applyLayer_kept
    | (refine Kept.fst (by with_reducible assumption) ?_)
    | split
    | fail_if_no_progress (with_reducible refine Kept.lit rfl rfl ?_)
    | (lift_lets -underBinder; intro x; first | (refine Kept.cut (s0 := s0) (s1 := x) ?_ (fun _ => ?_); on_goal 1 => unfold x) | skip))

theorem execHeadEnable_kept (m : Master) (n : Fin 12) {s0 s : State} (h0 : Kept s0 s) :
    KeptX s0 (execHeadEnable m n s) := by
  unfold execHeadEnable
  repeat' (first
    | with_reducible assumption
    | with_reducible apply Kept.ite
    | with_reducible apply Kept.fstIte
    | with_reducible refine Kept.foldl ?_ (fun _ _ _ => ?_)
    | with_reducible apply KeptX.mk'
    | with_reducible apply KeptX.ite
    | with_reducible refine writeReg_kept _ _ _ _ (fun _ _ => ?_) ?_
    | with_reducible apply headEnableOp_kept
    | (refine Kept.fst (by with_reducible assumption) ?_)
    | split
    | fail_if_no_progress (with_reducible refine Kept.lit rfl rfl ?_)
    | (lift_lets -underBinder; intro x; first | (refine Kept.cut (s0 := s0) (s1 := x) ?_ (fun _ => ?_); on_goal 1 => unfold x) | skip))

theorem execHeadDisable_kept (m : Master) (n : Fin 12) {s0 s : State} (h0 : Kept s0 s) :
    KeptX s0 (execHeadDisable m n s) := by
  unfold execHeadDisable
  repeat' (first
    | with_reducible assumption
    | with_reducible apply Kept.ite
    | with_reducible apply Kept.fstIte
    | with_reducible refine Kept.foldl ?_ (fun _ _ _ => ?_)
    | with_reducible apply KeptX.mk'
    | with_reducible apply KeptX.ite
    | with_reducible refine writeReg_kept _ _ _ _ (fun _ _ => ?_) ?_
    | with_reducible apply headDisableOp_kept
    | (refine Kept.fst (by with_reducible assumption) ?_)
    | split
    | fail_if_no_progress (with_reducible refine Kept.lit rfl rfl ?_)
    | (lift_lets -underBinder; intro x; first | (refine Kept.cut (s0 := s0) (s1 := x) ?_ (fun _ => ?_); on_goal 1 => unfold x) | skip))

theorem execTimingStop_kept (n : Fin 12) {s0 s : State} (h0 : Kept s0 s) : KeptX s0 (execTimingStop n s) := by
  unfold execTimingStop
  repeat' (first
    | with_reducible assumption
    | with_reducible apply Kept.ite
    | with_reducible apply Kept.fstIte
    | with_reducible refine Kept.foldl ?_ (fun _ _ _ => ?_)
    | with_reducible apply KeptX.mk'
    | with_reducible apply KeptX.ite
    | with_reducible apply stopGenerator_kept
    | (refine Kept.fst (by with_reducible assumption) ?_)
    | split
    | fail_if_no_progress (with_reducible refine Kept.lit rfl rfl ?_)
    | (lift_lets -underBinder; intro x; first | (refine Kept.cut (s0 := s0) (s1 := x) ?_ (fun _ => ?_); on_goal 1 => unfold x) | skip))

theorem execPllUnlock_kept (n : Fin 12) {s0 s : State} (h0 : Kept s0 s) : KeptX s0 (execPllUnlock n s) := by
  unfold execPllUnlock
  try lift_lets -underBinder
  repeat' (first
    | (intro x; first | (refine Kept.cut (s0 := s0) (s1 := x) ?_ (fun _ => ?_); on_goal 1 => unfold x) | skip)
    | with_reducible assumption
    | with_reducible apply Kept.ite
    | with_reducible apply Kept.fstIte
    | with_reducible refine Kept.foldl ?_ (fun _ _ _ => ?_)
    | with_reducible apply KeptX.mk'
    | with_reducible apply KeptX.ite
    | with_reducible apply State.setPf_kept
    | with_reducible apply raiseFault_kept
    | with_reducible apply stopGenerator_kept
    | (refine Kept.fst (by with_reducible assumption) ?_)
    | split
    | fail_if_no_progress (with_reducible refine Kept.lit rfl rfl ?_)
    | (lift_lets -underBinder; intro x; first | (refine Kept.cut (s0 := s0) (s1 := x) ?_ (fun _ => ?_); on_goal 1 => unfold x) | skip))

theorem execFrameStart_kept (n : Fin 12) {s0 s : State} (h0 : Kept s0 s) : KeptX s0 (execFrameStart n s) := by
  unfold execFrameStart
  try lift_lets -underBinder
  repeat' (first
    | (intro x; first | (refine Kept.cut (s0 := s0) (s1 := x) ?_ (fun _ => ?_); on_goal 1 => unfold x) | skip)
    | with_reducible assumption
    | with_reducible apply Kept.ite
    | with_reducible apply Kept.fstIte
    | with_reducible refine Kept.foldl ?_ (fun _ _ _ => ?_)
    | with_reducible apply KeptX.mk'
    | with_reducible apply KeptX.ite
    | with_reducible apply State.setPair_kept
    | with_reducible apply State.count_kept
    | with_reducible apply State.event_kept
    | with_reducible apply State.setHead_kept
    | with_reducible apply cvuFrameStart_kept
    | with_reducible apply writeFlips_kept
    | (refine Kept.fst (by with_reducible assumption) ?_)
    | split
    | fail_if_no_progress (with_reducible refine Kept.lit rfl rfl ?_)
    | (lift_lets -underBinder; intro x; first | (refine Kept.cut (s0 := s0) (s1 := x) ?_ (fun _ => ?_); on_goal 1 => unfold x) | skip))

theorem execLayerFetchFault_kept (n : Fin 12) (k : Fin 16) (line : Nat) (watermark : Bool) (addr : Nat) {s0 s : State} (h0 : Kept s0 s) :
    KeptX s0 (execLayerFetchFault n k line watermark addr s) := by
  unfold execLayerFetchFault
  repeat' (first
    | with_reducible assumption
    | with_reducible apply Kept.ite
    | with_reducible apply Kept.fstIte
    | with_reducible refine Kept.foldl ?_ (fun _ _ _ => ?_)
    | with_reducible apply KeptX.mk'
    | with_reducible apply KeptX.ite
    | with_reducible apply layerFault_kept
    | (refine Kept.fst (by with_reducible assumption) ?_)
    | split
    | fail_if_no_progress (with_reducible refine Kept.lit rfl rfl ?_)
    | (lift_lets -underBinder; intro x; first | (refine Kept.cut (s0 := s0) (s1 := x) ?_ (fun _ => ?_); on_goal 1 => unfold x) | skip))

theorem execLayerDataError_kept (n : Fin 12) (k : Fin 16) (line : Nat) (addr : Nat) {s0 s : State} (h0 : Kept s0 s) :
    KeptX s0 (execLayerDataError n k line addr s) := by
  unfold execLayerDataError
  repeat' (first
    | with_reducible assumption
    | with_reducible apply Kept.ite
    | with_reducible apply Kept.fstIte
    | with_reducible refine Kept.foldl ?_ (fun _ _ _ => ?_)
    | with_reducible apply KeptX.mk'
    | with_reducible apply KeptX.ite
    | with_reducible apply layerData_kept
    | (refine Kept.fst (by with_reducible assumption) ?_)
    | split
    | fail_if_no_progress (with_reducible refine Kept.lit rfl rfl ?_)
    | (lift_lets -underBinder; intro x; first | (refine Kept.cut (s0 := s0) (s1 := x) ?_ (fun _ => ?_); on_goal 1 => unfold x) | skip))

theorem execVeneerReadError_kept (n : Fin 12) (r : Fin 3) (line : Nat) {s0 s : State} (h0 : Kept s0 s) :
    KeptX s0 (execVeneerReadError n r line s) := by
  unfold execVeneerReadError
  repeat' (first
    | with_reducible assumption
    | with_reducible apply Kept.ite
    | with_reducible apply Kept.fstIte
    | with_reducible refine Kept.foldl ?_ (fun _ _ _ => ?_)
    | with_reducible apply KeptX.mk'
    | with_reducible apply KeptX.ite
    | with_reducible apply veneerFallback_kept
    | (refine Kept.fst (by with_reducible assumption) ?_)
    | split
    | fail_if_no_progress (with_reducible refine Kept.lit rfl rfl ?_)
    | (lift_lets -underBinder; intro x; first | (refine Kept.cut (s0 := s0) (s1 := x) ?_ (fun _ => ?_); on_goal 1 => unfold x) | skip))

theorem execLayerFetch_kept (n : Fin 12) (veneer : Bool) (k : Fin 16) (line : Nat) {s0 s : State} (h0 : Kept s0 s) :
    KeptX s0 (execLayerFetch n veneer k line s) := by
  unfold execLayerFetch
  try lift_lets -underBinder
  repeat' (first
    | (intro x; first | (refine Kept.cut (s0 := s0) (s1 := x) ?_ (fun _ => ?_); on_goal 1 => unfold x) | skip)
    | with_reducible assumption
    | with_reducible apply Kept.ite
    | with_reducible apply Kept.fstIte
    | with_reducible refine Kept.foldl ?_ (fun _ _ _ => ?_)
    | with_reducible apply KeptX.mk'
    | with_reducible apply KeptX.ite
    | with_reducible apply State.setPr_kept
    | with_reducible apply fetchLine_kept
    | with_reducible apply legendLine_kept
    | with_reducible apply keepLine_kept
    | with_reducible apply layerFault_kept
    | with_reducible apply layerData_kept
    | with_reducible apply veneerLine_kept
    | with_reducible apply veneerFallback_kept
    | (refine Kept.fst (by with_reducible assumption) ?_)
    | split
    | fail_if_no_progress (with_reducible refine Kept.lit rfl rfl ?_)
    | (lift_lets -underBinder; intro x; first | (refine Kept.cut (s0 := s0) (s1 := x) ?_ (fun _ => ?_); on_goal 1 => unfold x) | skip))

theorem execPaletteRead_kept (n : Fin 12) (k : Fin 16) {s0 s : State} (h0 : Kept s0 s) :
    KeptX s0 (execPaletteRead n k s) := by
  unfold execPaletteRead
  try lift_lets -underBinder
  repeat' (first
    | (intro x; first | (refine Kept.cut (s0 := s0) (s1 := x) ?_ (fun _ => ?_); on_goal 1 => unfold x) | skip)
    | with_reducible assumption
    | with_reducible apply Kept.ite
    | with_reducible apply Kept.fstIte
    | with_reducible refine Kept.foldl ?_ (fun _ _ _ => ?_)
    | with_reducible apply KeptX.mk'
    | with_reducible apply KeptX.ite
    | with_reducible apply State.setHead_kept
    | with_reducible apply layerRead_kept
    | with_reducible apply layerFault_kept
    | (refine Kept.fst (by with_reducible assumption) ?_)
    | split
    | fail_if_no_progress (with_reducible refine Kept.lit rfl rfl ?_)
    | (lift_lets -underBinder; intro x; first | (refine Kept.cut (s0 := s0) (s1 := x) ?_ (fun _ => ?_); on_goal 1 => unfold x) | skip))

theorem execRetireWrite_kept (n : Fin 12) (k : Fin 16) {s0 s : State} (h0 : Kept s0 s) :
    KeptX s0 (execRetireWrite n k s) := by
  unfold execRetireWrite
  try lift_lets -underBinder
  repeat' (first
    | (intro x; first | (refine Kept.cut (s0 := s0) (s1 := x) ?_ (fun _ => ?_); on_goal 1 => unfold x) | skip)
    | with_reducible assumption
    | with_reducible apply Kept.ite
    | with_reducible apply Kept.fstIte
    | with_reducible refine Kept.foldl ?_ (fun _ _ _ => ?_)
    | with_reducible apply KeptX.mk'
    | with_reducible apply KeptX.ite
    | with_reducible apply State.setPr_kept
    | with_reducible apply State.setPf_kept
    | with_reducible apply State.setPair_kept
    | with_reducible apply State.setHead_kept
    | with_reducible apply raiseFault_kept
    | with_reducible apply ownerSignal_kept
    | (refine Kept.fst (by with_reducible assumption) ?_)
    | split
    | fail_if_no_progress (with_reducible refine Kept.lit rfl rfl ?_)
    | (lift_lets -underBinder; intro x; first | (refine Kept.cut (s0 := s0) (s1 := x) ?_ (fun _ => ?_); on_goal 1 => unfold x) | skip))

theorem execLineCompose_kept (n : Fin 12) (line : Nat) {s0 s : State} (h0 : Kept s0 s) :
    KeptX s0 (execLineCompose n line s) := by
  unfold execLineCompose
  try lift_lets -underBinder
  repeat' (first
    | (intro x; first | (refine Kept.cut (s0 := s0) (s1 := x) ?_ (fun _ => ?_); on_goal 1 => unfold x) | skip)
    | with_reducible assumption
    | with_reducible apply Kept.ite
    | with_reducible apply Kept.fstIte
    | with_reducible refine Kept.foldl ?_ (fun _ _ _ => ?_)
    | with_reducible apply KeptX.mk'
    | with_reducible apply KeptX.ite
    | with_reducible apply State.setHead_kept
    | with_reducible apply cvuHeadLine_kept
    | with_reducible apply cvuLayerLine_kept
    | with_reducible apply legendMiss_kept
    | with_reducible apply writeFlips_kept
    | with_reducible apply captureRuns_kept
    | with_reducible apply countUnderrun_kept
    | (refine Kept.fst (by with_reducible assumption) ?_)
    | split
    | fail_if_no_progress (with_reducible refine Kept.lit rfl rfl ?_)
    | (lift_lets -underBinder; intro x; first | (refine Kept.cut (s0 := s0) (s1 := x) ?_ (fun _ => ?_); on_goal 1 => unfold x) | skip))

theorem execVeneerWriteBehind_kept (n : Fin 12) (r : Fin 3) (row : Nat) {s0 s : State} (h0 : Kept s0 s) :
    KeptX s0 (execVeneerWriteBehind n r row s) := by
  unfold execVeneerWriteBehind
  try lift_lets -underBinder
  repeat' (first
    | (intro x; first | (refine Kept.cut (s0 := s0) (s1 := x) ?_ (fun _ => ?_); on_goal 1 => unfold x) | skip)
    | with_reducible assumption
    | with_reducible apply Kept.ite
    | with_reducible apply Kept.fstIte
    | with_reducible refine Kept.foldl ?_ (fun _ _ _ => ?_)
    | with_reducible apply KeptX.mk'
    | with_reducible apply KeptX.ite
    | with_reducible apply State.setHead_kept
    | with_reducible apply busWrite_kept
    | with_reducible refine kerfWriteBlock_kept _ _ _ _ _ _ (fun _ _ _ _ => ?_) ?_
    | (refine Kept.fst (by with_reducible assumption) ?_)
    | split
    | fail_if_no_progress (with_reducible refine Kept.lit rfl rfl ?_)
    | (lift_lets -underBinder; intro x; first | (refine Kept.cut (s0 := s0) (s1 := x) ?_ (fun _ => ?_); on_goal 1 => unfold x) | skip))

theorem execWriteBehindAbandon_kept (n : Fin 12) {s0 s : State} (h0 : Kept s0 s) :
    KeptX s0 (execWriteBehindAbandon n s) := by
  unfold execWriteBehindAbandon
  repeat' (first
    | with_reducible assumption
    | with_reducible apply Kept.ite
    | with_reducible apply Kept.fstIte
    | with_reducible refine Kept.foldl ?_ (fun _ _ _ => ?_)
    | with_reducible apply KeptX.mk'
    | with_reducible apply KeptX.ite
    | with_reducible apply invalidateWhere_kept
    | (refine Kept.fst (by with_reducible assumption) ?_)
    | split
    | fail_if_no_progress (with_reducible refine Kept.lit rfl rfl ?_)
    | (lift_lets -underBinder; intro x; first | (refine Kept.cut (s0 := s0) (s1 := x) ?_ (fun _ => ?_); on_goal 1 => unfold x) | skip))

theorem execVeneerWriteError_kept (n : Fin 12) (r : Fin 3) {s0 s : State} (h0 : Kept s0 s) :
    KeptX s0 (execVeneerWriteError n r s) := by
  unfold execVeneerWriteError
  repeat' (first
    | with_reducible assumption
    | with_reducible apply Kept.ite
    | with_reducible apply Kept.fstIte
    | with_reducible refine Kept.foldl ?_ (fun _ _ _ => ?_)
    | with_reducible apply KeptX.mk'
    | with_reducible apply KeptX.ite
    | with_reducible apply invalidateRun_kept
    | with_reducible apply raiseFault_kept
    | (refine Kept.fst (by with_reducible assumption) ?_)
    | split
    | fail_if_no_progress (with_reducible refine Kept.lit rfl rfl ?_)
    | (lift_lets -underBinder; intro x; first | (refine Kept.cut (s0 := s0) (s1 := x) ?_ (fun _ => ?_); on_goal 1 => unfold x) | skip))

theorem execCoefWrite_kept (m : Master) (k : Fin 16) (off : BitVec 11) (value : Word) {s0 s : State} (h0 : Kept s0 s) :
    KeptX s0 (execCoefWrite m k off value s) := by
  unfold execCoefWrite
  repeat' (first
    | with_reducible assumption
    | with_reducible apply Kept.ite
    | with_reducible apply Kept.fstIte
    | with_reducible refine Kept.foldl ?_ (fun _ _ _ => ?_)
    | with_reducible apply KeptX.mk'
    | with_reducible apply KeptX.ite
    | with_reducible refine gated_kept _ _ _ (fun _ _ => ?_) ?_
    | with_reducible apply coefWriteOp_kept
    | (refine Kept.fst (by with_reducible assumption) ?_)
    | split
    | fail_if_no_progress (with_reducible refine Kept.lit rfl rfl ?_)
    | (lift_lets -underBinder; intro x; first | (refine Kept.cut (s0 := s0) (s1 := x) ?_ (fun _ => ?_); on_goal 1 => unfold x) | skip))

theorem execAuxGo_kept (m : Master) (n : Fin 12) (cmd : BitVec 4) (len : BitVec 4) {s0 s : State} (h0 : Kept s0 s) :
    KeptX s0 (execAuxGo m n cmd len s) := by
  unfold execAuxGo
  repeat' (first
    | with_reducible assumption
    | with_reducible apply Kept.ite
    | with_reducible apply Kept.fstIte
    | with_reducible refine Kept.foldl ?_ (fun _ _ _ => ?_)
    | with_reducible apply KeptX.mk'
    | with_reducible apply KeptX.ite
    | with_reducible apply auxGoOp_kept
    | with_reducible refine writeReg_kept _ _ _ _ (fun _ _ => ?_) ?_
    | (refine Kept.fst (by with_reducible assumption) ?_)
    | split
    | fail_if_no_progress (with_reducible refine Kept.lit rfl rfl ?_)
    | (lift_lets -underBinder; intro x; first | (refine Kept.cut (s0 := s0) (s1 := x) ?_ (fun _ => ?_); on_goal 1 => unfold x) | skip))

theorem execRegisterWrite_kept (m : Master) (addr : BitVec 26) (be : BitVec 4) (value : Word) (wait : BitVec 32) {s0 s : State} (h0 : Kept s0 s) :
    KeptX s0 (execRegisterWrite m addr be value wait s) := by
  unfold execRegisterWrite
  repeat' (first
    | with_reducible assumption
    | with_reducible apply Kept.ite
    | with_reducible apply Kept.fstIte
    | with_reducible refine Kept.foldl ?_ (fun _ _ _ => ?_)
    | with_reducible apply KeptX.mk'
    | with_reducible apply KeptX.ite
    | with_reducible apply advance_kept
    | with_reducible apply regWrite_kept
    | (refine Kept.fst (by with_reducible assumption) ?_)
    | split
    | fail_if_no_progress (with_reducible refine Kept.lit rfl rfl ?_)
    | (lift_lets -underBinder; intro x; first | (refine Kept.cut (s0 := s0) (s1 := x) ?_ (fun _ => ?_); on_goal 1 => unfold x) | skip))

theorem execOwnerChange_kept (m : Master) (p : Page) (value : Word) {s0 s : State} (h0 : Kept s0 s) :
    KeptX s0 (execOwnerChange m p value s) := by
  unfold execOwnerChange
  repeat' (first
    | with_reducible assumption
    | with_reducible apply Kept.ite
    | with_reducible apply Kept.fstIte
    | with_reducible refine Kept.foldl ?_ (fun _ _ _ => ?_)
    | with_reducible apply KeptX.mk'
    | with_reducible apply KeptX.ite
    | with_reducible apply plainAccess_kept
    | (refine Kept.fst (by with_reducible assumption) ?_)
    | split
    | fail_if_no_progress (with_reducible refine Kept.lit rfl rfl ?_)
    | (lift_lets -underBinder; intro x; first | (refine Kept.cut (s0 := s0) (s1 := x) ?_ (fun _ => ?_); on_goal 1 => unfold x) | skip))

theorem execTableEntryWrite_kept (m : Master) (addr : BitVec 26) (value : Word) {s0 s : State} (h0 : Kept s0 s) :
    KeptX s0 (execTableEntryWrite m addr value s) := by
  have h1 := routeOwn_kept m (addr.toNat / 4 * 4) value h0
  unfold execTableEntryWrite
  refine KeptX.mk' ?_
  split
  · split
    · exact h1.out _ (by assumption)
    · exact plainAccess_kept _ _ _ _ h0
  · exact h0

theorem execForeignWriteEffect_kept {s0 s : State} (h0 : Kept s0 s) : KeptX s0 (execForeignWriteEffect s) := by
  unfold execForeignWriteEffect
  repeat' (first
    | with_reducible assumption
    | with_reducible apply Kept.ite
    | with_reducible apply Kept.fstIte
    | with_reducible refine Kept.foldl ?_ (fun _ _ _ => ?_)
    | with_reducible apply KeptX.mk'
    | with_reducible apply KeptX.ite
    | with_reducible apply landWrite_kept
    | (refine Kept.fst (by with_reducible assumption) ?_)
    | split
    | fail_if_no_progress (with_reducible refine Kept.lit rfl rfl ?_)
    | (lift_lets -underBinder; intro x; first | (refine Kept.cut (s0 := s0) (s1 := x) ?_ (fun _ => ?_); on_goal 1 => unfold x) | skip))

theorem execLoReadLatch_kept (m : Master) (addr : BitVec 26) (wait : BitVec 32) {s0 s : State} (h0 : Kept s0 s) :
    KeptX s0 (execLoReadLatch m addr wait s) := by
  unfold execLoReadLatch
  repeat' (first
    | with_reducible assumption
    | with_reducible apply Kept.ite
    | with_reducible apply Kept.fstIte
    | with_reducible refine Kept.foldl ?_ (fun _ _ _ => ?_)
    | with_reducible apply KeptX.mk'
    | with_reducible apply KeptX.ite
    | with_reducible apply advance_kept
    | with_reducible apply regRead_kept
    | (refine Kept.fst (by with_reducible assumption) ?_)
    | split
    | fail_if_no_progress (with_reducible refine Kept.lit rfl rfl ?_)
    | (lift_lets -underBinder; intro x; first | (refine Kept.cut (s0 := s0) (s1 := x) ?_ (fun _ => ?_); on_goal 1 => unfold x) | skip))

theorem execRingEnable_kept (m : Master) (rs : Fin 66) (r : Fin 5) (value : Word) {s0 s : State} (h0 : Kept s0 s) :
    KeptX s0 (execRingEnable m rs r value s) := by
  unfold execRingEnable
  repeat' (first
    | with_reducible assumption
    | with_reducible apply Kept.ite
    | with_reducible apply Kept.fstIte
    | with_reducible refine Kept.foldl ?_ (fun _ _ _ => ?_)
    | with_reducible apply KeptX.mk'
    | with_reducible apply KeptX.ite
    | with_reducible apply ringCtrlWrite_kept
    | (refine Kept.fst (by with_reducible assumption) ?_)
    | split
    | fail_if_no_progress (with_reducible refine Kept.lit rfl rfl ?_)
    | (lift_lets -underBinder; intro x; first | (refine Kept.cut (s0 := s0) (s1 := x) ?_ (fun _ => ?_); on_goal 1 => unfold x) | skip))

theorem execRestart_kept (m : Master) (rs : Fin 66) (r : Fin 5) (value : Word) {s0 s : State} (h0 : Kept s0 s) :
    KeptX s0 (execRestart m rs r value s) := by
  unfold execRestart
  repeat' (first
    | with_reducible assumption
    | with_reducible apply Kept.ite
    | with_reducible apply Kept.fstIte
    | with_reducible refine Kept.foldl ?_ (fun _ _ _ => ?_)
    | with_reducible apply KeptX.mk'
    | with_reducible apply KeptX.ite
    | with_reducible apply ringCtrlWrite_kept
    | (refine Kept.fst (by with_reducible assumption) ?_)
    | split
    | fail_if_no_progress (with_reducible refine Kept.lit rfl rfl ?_)
    | (lift_lets -underBinder; intro x; first | (refine Kept.cut (s0 := s0) (s1 := x) ?_ (fun _ => ?_); on_goal 1 => unfold x) | skip))

theorem execSqDoorbell_kept (m : Master) (rs : Fin 66) (q : Fin 4) (value : Word) {s0 s : State} (h0 : Kept s0 s) :
    KeptX s0 (execSqDoorbell m rs q value s) := by
  unfold execSqDoorbell
  repeat' (first
    | with_reducible assumption
    | with_reducible apply Kept.ite
    | with_reducible apply Kept.fstIte
    | with_reducible refine Kept.foldl ?_ (fun _ _ _ => ?_)
    | with_reducible apply KeptX.mk'
    | with_reducible apply KeptX.ite
    | with_reducible apply doorbellWrite_kept
    | (refine Kept.fst (by with_reducible assumption) ?_)
    | split
    | fail_if_no_progress (with_reducible refine Kept.lit rfl rfl ?_)
    | (lift_lets -underBinder; intro x; first | (refine Kept.cut (s0 := s0) (s1 := x) ?_ (fun _ => ?_); on_goal 1 => unfold x) | skip))

theorem execCqDoorbell_kept (m : Master) (rs : Fin 66) (value : Word) {s0 s : State} (h0 : Kept s0 s) :
    KeptX s0 (execCqDoorbell m rs value s) := by
  unfold execCqDoorbell
  repeat' (first
    | with_reducible assumption
    | with_reducible apply Kept.ite
    | with_reducible apply Kept.fstIte
    | with_reducible refine Kept.foldl ?_ (fun _ _ _ => ?_)
    | with_reducible apply KeptX.mk'
    | with_reducible apply KeptX.ite
    | with_reducible apply doorbellWrite_kept
    | (refine Kept.fst (by with_reducible assumption) ?_)
    | split
    | fail_if_no_progress (with_reducible refine Kept.lit rfl rfl ?_)
    | (lift_lets -underBinder; intro x; first | (refine Kept.cut (s0 := s0) (s1 := x) ?_ (fun _ => ?_); on_goal 1 => unfold x) | skip))

theorem execMsixMessage_kept (f : Fin 64) {s0 s : State} (h0 : Kept s0 s) : KeptX s0 (execMsixMessage f s) := by
  unfold execMsixMessage
  try lift_lets -underBinder
  repeat' (first
    | (intro x; first | (refine Kept.cut (s0 := s0) (s1 := x) ?_ (fun _ => ?_); on_goal 1 => unfold x) | skip)
    | with_reducible assumption
    | with_reducible apply Kept.ite
    | with_reducible apply Kept.fstIte
    | with_reducible refine Kept.foldl ?_ (fun _ _ _ => ?_)
    | with_reducible apply KeptX.mk'
    | with_reducible apply KeptX.ite
    | with_reducible apply State.setRing_kept
    | with_reducible apply raiseVector_kept
    | (refine Kept.fst (by with_reducible assumption) ?_)
    | split
    | fail_if_no_progress (with_reducible refine Kept.lit rfl rfl ?_)
    | (lift_lets -underBinder; intro x; first | (refine Kept.cut (s0 := s0) (s1 := x) ?_ (fun _ => ?_); on_goal 1 => unfold x) | skip))

theorem execCqModTimer_kept (f : Fin 64) {s0 s : State} (h0 : Kept s0 s) : KeptX s0 (execCqModTimer f s) := by
  unfold execCqModTimer
  try lift_lets -underBinder
  repeat' (first
    | (intro x; first | (refine Kept.cut (s0 := s0) (s1 := x) ?_ (fun _ => ?_); on_goal 1 => unfold x) | skip)
    | with_reducible assumption
    | with_reducible apply Kept.ite
    | with_reducible apply Kept.fstIte
    | with_reducible refine Kept.foldl ?_ (fun _ _ _ => ?_)
    | with_reducible apply KeptX.mk'
    | with_reducible apply KeptX.ite
    | with_reducible apply cqMessage_kept
    | (refine Kept.fst (by with_reducible assumption) ?_)
    | split
    | fail_if_no_progress (with_reducible refine Kept.lit rfl rfl ?_)
    | (lift_lets -underBinder; intro x; first | (refine Kept.cut (s0 := s0) (s1 := x) ?_ (fun _ => ?_); on_goal 1 => unfold x) | skip))

theorem execCompletionWrite_kept (rs : Fin 66) {s0 s : State} (h0 : Kept s0 s) :
    KeptX s0 (execCompletionWrite rs s) := by
  unfold execCompletionWrite
  try lift_lets -underBinder
  repeat' (first
    | (intro x; first | (refine Kept.cut (s0 := s0) (s1 := x) ?_ (fun _ => ?_); on_goal 1 => unfold x) | skip)
    | with_reducible assumption
    | with_reducible apply Kept.ite
    | with_reducible apply Kept.fstIte
    | with_reducible refine Kept.foldl ?_ (fun _ _ _ => ?_)
    | with_reducible apply KeptX.mk'
    | with_reducible apply KeptX.ite
    | with_reducible apply State.event_kept
    | with_reducible apply countStale_kept
    | with_reducible apply cqRecordWritten_kept
    | with_reducible apply dropCqRec_kept
    | with_reducible apply cqError_kept
    | with_reducible apply ringWrite_kept
    | with_reducible apply cqAdvance_kept
    | (refine Kept.fst (by with_reducible assumption) ?_)
    | split
    | fail_if_no_progress (with_reducible refine Kept.lit rfl rfl ?_)
    | (lift_lets -underBinder; intro x; first | (refine Kept.cut (s0 := s0) (s1 := x) ?_ (fun _ => ?_); on_goal 1 => unfold x) | skip))

theorem execCqWrite_kept (rs : Fin 66) {s0 s : State} (h0 : Kept s0 s) : KeptX s0 (execCqWrite rs s) := by
  unfold execCqWrite
  repeat' (first
    | with_reducible assumption
    | with_reducible apply Kept.ite
    | with_reducible apply Kept.fstIte
    | with_reducible refine Kept.foldl ?_ (fun _ _ _ => ?_)
    | with_reducible apply KeptX.mk'
    | with_reducible apply KeptX.ite
    | with_reducible apply cqError_kept
    | (refine Kept.fst (by with_reducible assumption) ?_)
    | split
    | fail_if_no_progress (with_reducible refine Kept.lit rfl rfl ?_)
    | (lift_lets -underBinder; intro x; first | (refine Kept.cut (s0 := s0) (s1 := x) ?_ (fun _ => ?_); on_goal 1 => unfold x) | skip))

theorem execSoftReset_kept (m : Master) (p : Page) (value : Word) {s0 s : State} (h0 : Kept s0 s) :
    KeptX s0 (execSoftReset m p value s) := by
  unfold execSoftReset
  repeat' (first
    | with_reducible assumption
    | with_reducible apply Kept.ite
    | with_reducible apply Kept.fstIte
    | with_reducible refine Kept.foldl ?_ (fun _ _ _ => ?_)
    | with_reducible apply KeptX.mk'
    | with_reducible apply KeptX.ite
    | with_reducible apply ctrlWrite_kept
    | (refine Kept.fst (by with_reducible assumption) ?_)
    | split
    | fail_if_no_progress (with_reducible refine Kept.lit rfl rfl ?_)
    | (lift_lets -underBinder; intro x; first | (refine Kept.cut (s0 := s0) (s1 := x) ?_ (fun _ => ?_); on_goal 1 => unfold x) | skip))

theorem execSoftResetDone_kept (p : Page) {s0 s : State} (h0 : Kept s0 s) : KeptX s0 (execSoftResetDone p s) := by
  unfold execSoftResetDone
  try lift_lets -underBinder
  repeat' (first
    | (intro x; first | (refine Kept.cut (s0 := s0) (s1 := x) ?_ (fun _ => ?_); on_goal 1 => unfold x) | skip)
    | with_reducible assumption
    | with_reducible apply Kept.ite
    | with_reducible apply Kept.fstIte
    | with_reducible refine Kept.foldl ?_ (fun _ _ _ => ?_)
    | with_reducible apply KeptX.mk'
    | with_reducible apply KeptX.ite
    | with_reducible apply State.setHf_kept
    | with_reducible apply State.setBusy_kept
    | (refine Kept.fst (by with_reducible assumption) ?_)
    | split
    | fail_if_no_progress (with_reducible refine Kept.lit rfl rfl ?_)
    | (lift_lets -underBinder; intro x; first | (refine Kept.cut (s0 := s0) (s1 := x) ?_ (fun _ => ?_); on_goal 1 => unfold x) | skip))

theorem execBistDone_kept (failed : List TestUnit) (ms : BitVec 16) {s0 s : State} (h0 : Kept s0 s) :
    KeptX s0 (execBistDone failed ms s) := by
  unfold execBistDone
  try lift_lets -underBinder
  repeat' (first
    | (intro x; first | (refine Kept.cut (s0 := s0) (s1 := x) ?_ (fun _ => ?_); on_goal 1 => unfold x) | skip)
    | with_reducible assumption
    | with_reducible apply Kept.ite
    | with_reducible apply Kept.fstIte
    | with_reducible refine Kept.foldl ?_ (fun _ _ _ => ?_)
    | with_reducible apply KeptX.mk'
    | with_reducible apply KeptX.ite
    | with_reducible apply State.setPr_kept
    | with_reducible apply State.setHf_kept
    | with_reducible apply State.setReady_kept
    | with_reducible apply hostifReady_kept
    | with_reducible apply toHeld_kept
    | with_reducible apply configure_kept
    | with_reducible apply logFailed_kept
    | with_reducible apply failUnit_kept
    | with_reducible apply trainingReason_kept
    | (refine Kept.fst (by with_reducible assumption) ?_)
    | split
    | fail_if_no_progress (with_reducible refine Kept.lit rfl rfl ?_)
    | (lift_lets -underBinder; intro x; first | (refine Kept.cut (s0 := s0) (s1 := x) ?_ (fun _ => ?_); on_goal 1 => unfold x) | skip))

theorem execDramTrainingDone_kept (failed : List (Fin 32)) {s0 s : State} (h0 : Kept s0 s) :
    KeptX s0 (execDramTrainingDone failed s) := by
  unfold execDramTrainingDone
  try lift_lets -underBinder
  repeat' (first
    | (intro x; first | (refine Kept.cut (s0 := s0) (s1 := x) ?_ (fun _ => ?_); on_goal 1 => unfold x) | skip)
    | with_reducible assumption
    | with_reducible apply Kept.ite
    | with_reducible apply Kept.fstIte
    | with_reducible refine Kept.foldl ?_ (fun _ _ _ => ?_)
    | with_reducible apply KeptX.mk'
    | with_reducible apply KeptX.ite
    | with_reducible apply State.setPf_kept
    | with_reducible apply toHeld_kept
    | with_reducible apply logImage_kept
    | with_reducible apply logFailed_kept
    | with_reducible apply failUnit_kept
    | (refine Kept.fst (by with_reducible assumption) ?_)
    | split
    | fail_if_no_progress (with_reducible refine Kept.lit rfl rfl ?_)
    | (lift_lets -underBinder; intro x; first | (refine Kept.cut (s0 := s0) (s1 := x) ?_ (fun _ => ?_); on_goal 1 => unfold x) | skip))

theorem execSurveyEnd_kept {s0 s : State} (h0 : Kept s0 s) : KeptX s0 (execSurveyEnd s) := by
  unfold execSurveyEnd
  try lift_lets -underBinder
  repeat' (first
    | (intro x; first | (refine Kept.cut (s0 := s0) (s1 := x) ?_ (fun _ => ?_); on_goal 1 => unfold x) | skip)
    | with_reducible assumption
    | with_reducible apply Kept.ite
    | with_reducible apply Kept.fstIte
    | with_reducible refine Kept.foldl ?_ (fun _ _ _ => ?_)
    | with_reducible apply KeptX.mk'
    | with_reducible apply KeptX.ite
    | with_reducible apply State.setPf_kept
    | with_reducible apply State.setPair_kept
    | with_reducible apply setMode_kept
    | with_reducible apply relayUpdate_kept
    | with_reducible apply b4Hold_kept
    | with_reducible apply fixMap_kept
    | with_reducible apply restoreShims_kept
    | with_reducible apply handMemory_kept
    | (refine Kept.fst (by with_reducible assumption) ?_)
    | split
    | fail_if_no_progress (with_reducible refine Kept.lit rfl rfl ?_)
    | (lift_lets -underBinder; intro x; first | (refine Kept.cut (s0 := s0) (s1 := x) ?_ (fun _ => ?_); on_goal 1 => unfold x) | skip))

theorem execImageLoadDone_kept {s0 s : State} (h0 : Kept s0 s) : KeptX s0 (execImageLoadDone s) := by
  unfold execImageLoadDone
  try lift_lets -underBinder
  repeat' (first
    | (intro x; first | (refine Kept.cut (s0 := s0) (s1 := x) ?_ (fun _ => ?_); on_goal 1 => unfold x) | skip)
    | with_reducible assumption
    | with_reducible apply Kept.ite
    | with_reducible apply Kept.fstIte
    | with_reducible refine Kept.foldl ?_ (fun _ _ _ => ?_)
    | with_reducible apply KeptX.mk'
    | with_reducible apply KeptX.ite
    | with_reducible apply loadHeartwood_kept
    | with_reducible apply loadSapwood_kept
    | (refine Kept.fst (by with_reducible assumption) ?_)
    | split
    | fail_if_no_progress (with_reducible refine Kept.lit rfl rfl ?_)
    | (lift_lets -underBinder; intro x; first | (refine Kept.cut (s0 := s0) (s1 := x) ?_ (fun _ => ?_); on_goal 1 => unfold x) | skip))

theorem execTileComplete_kept (slot : Fin 1024) (tile : Nat) {s0 s : State} (h0 : Kept s0 s) :
    KeptX s0 (execTileComplete slot tile s) := by
  unfold execTileComplete
  try lift_lets -underBinder
  repeat' (first
    | (intro x; first | (refine Kept.cut (s0 := s0) (s1 := x) ?_ (fun _ => ?_); on_goal 1 => unfold x) | skip)
    | with_reducible assumption
    | with_reducible apply Kept.ite
    | with_reducible apply Kept.fstIte
    | with_reducible refine Kept.foldl ?_ (fun _ _ _ => ?_)
    | with_reducible apply KeptX.mk'
    | with_reducible apply KeptX.ite
    | with_reducible apply State.count_kept
    | with_reducible apply endJobAs_kept
    | with_reducible apply discardJob_kept
    | with_reducible apply renderTile_kept
    | with_reducible apply tileDone_kept
    | (refine Kept.fst (by with_reducible assumption) ?_)
    | split
    | fail_if_no_progress (with_reducible refine Kept.lit rfl rfl ?_)
    | (lift_lets -underBinder; intro x; first | (refine Kept.cut (s0 := s0) (s1 := x) ?_ (fun _ => ?_); on_goal 1 => unfold x) | skip))

theorem execPartialFlush_kept (slot : Fin 1024) {s0 s : State} (h0 : Kept s0 s) :
    KeptX s0 (execPartialFlush slot s) := by
  unfold execPartialFlush
  try lift_lets -underBinder
  repeat' (first
    | (intro x; first | (refine Kept.cut (s0 := s0) (s1 := x) ?_ (fun _ => ?_); on_goal 1 => unfold x) | skip)
    | with_reducible assumption
    | with_reducible apply Kept.ite
    | with_reducible apply Kept.fstIte
    | with_reducible refine Kept.foldl ?_ (fun _ _ _ => ?_)
    | with_reducible apply KeptX.mk'
    | with_reducible apply KeptX.ite
    | with_reducible apply State.setPr_kept
    | with_reducible apply State.count_kept
    | with_reducible apply State.event_kept
    | with_reducible apply State.setJob_kept
    | with_reducible apply endJobAs_kept
    | (refine Kept.fst (by with_reducible assumption) ?_)
    | split
    | fail_if_no_progress (with_reducible refine Kept.lit rfl rfl ?_)
    | (lift_lets -underBinder; intro x; first | (refine Kept.cut (s0 := s0) (s1 := x) ?_ (fun _ => ?_); on_goal 1 => unfold x) | skip))

theorem execPreemptDone_kept (b : Fin 48) {s0 s : State} (h0 : Kept s0 s) : KeptX s0 (execPreemptDone b s) := by
  unfold execPreemptDone
  repeat' (first
    | with_reducible assumption
    | with_reducible apply Kept.ite
    | with_reducible apply Kept.fstIte
    | with_reducible refine Kept.foldl ?_ (fun _ _ _ => ?_)
    | with_reducible apply KeptX.mk'
    | with_reducible apply KeptX.ite
    | with_reducible apply State.setJob_kept
    | with_reducible apply stopCompute_kept
    | with_reducible apply released_kept
    | (refine Kept.fst (by with_reducible assumption) ?_)
    | split
    | fail_if_no_progress (with_reducible refine Kept.lit rfl rfl ?_)
    | (lift_lets -underBinder; intro x; first | (refine Kept.cut (s0 := s0) (s1 := x) ?_ (fun _ => ?_); on_goal 1 => unfold x) | skip))

theorem execWorkgroupDone_kept (slot : Fin 1024) (wg : Nat) {s0 s : State} (h0 : Kept s0 s) :
    KeptX s0 (execWorkgroupDone slot wg s) := by
  unfold execWorkgroupDone
  try lift_lets -underBinder
  repeat' (first
    | (intro x; first | (refine Kept.cut (s0 := s0) (s1 := x) ?_ (fun _ => ?_); on_goal 1 => unfold x) | skip)
    | with_reducible assumption
    | with_reducible apply Kept.ite
    | with_reducible apply Kept.fstIte
    | with_reducible refine Kept.foldl ?_ (fun _ _ _ => ?_)
    | with_reducible apply KeptX.mk'
    | with_reducible apply KeptX.ite
    | with_reducible apply endJobAs_kept
    | with_reducible apply runShader_kept
    | with_reducible apply groupDone_kept
    | (refine Kept.fst (by with_reducible assumption) ?_)
    | split
    | fail_if_no_progress (with_reducible refine Kept.lit rfl rfl ?_)
    | (lift_lets -underBinder; intro x; first | (refine Kept.cut (s0 := s0) (s1 := x) ?_ (fun _ => ?_); on_goal 1 => unfold x) | skip))

theorem execBayFence_kept (b : Fin 48) (bit : Fin 3) {s0 s : State} (h0 : Kept s0 s) :
    KeptX s0 (execBayFence b bit s) := by
  unfold execBayFence
  repeat' (first
    | with_reducible assumption
    | with_reducible apply Kept.ite
    | with_reducible apply Kept.fstIte
    | with_reducible refine Kept.foldl ?_ (fun _ _ _ => ?_)
    | with_reducible apply KeptX.mk'
    | with_reducible apply KeptX.ite
    | with_reducible apply raiseFault_kept
    | (refine Kept.fst (by with_reducible assumption) ?_)
    | split
    | fail_if_no_progress (with_reducible refine Kept.lit rfl rfl ?_)
    | (lift_lets -underBinder; intro x; first | (refine Kept.cut (s0 := s0) (s1 := x) ?_ (fun _ => ?_); on_goal 1 => unfold x) | skip))

theorem execXlateWalk_kept (f : Fin 64) (ctx : Option (Fin 16)) (addr : BitVec 48) (write : Bool) (agent : Fin 29) (source : Fin 12) {s0 s : State} (h0 : Kept s0 s) :
    KeptX s0 (execXlateWalk f ctx addr write agent source s) := by
  unfold execXlateWalk
  try lift_lets -underBinder
  repeat' (first
    | (intro x; first | (refine Kept.cut (s0 := s0) (s1 := x) ?_ (fun _ => ?_); on_goal 1 => unfold x) | skip)
    | with_reducible assumption
    | with_reducible apply Kept.ite
    | with_reducible apply Kept.fstIte
    | with_reducible refine Kept.foldl ?_ (fun _ _ _ => ?_)
    | with_reducible apply KeptX.mk'
    | with_reducible apply KeptX.ite
    | with_reducible apply stage2_kept
    | with_reducible apply stage1_kept
    | with_reducible apply ringRead_kept
    | (refine Kept.fst (by with_reducible assumption) ?_)
    | split
    | fail_if_no_progress (with_reducible refine Kept.lit rfl rfl ?_)
    | (lift_lets -underBinder; intro x; first | (refine Kept.cut (s0 := s0) (s1 := x) ?_ (fun _ => ?_); on_goal 1 => unfold x) | skip))

end Sys2Proof.Machine
end

