-- ==== Sys2Proof/Laws/Store.lean ====
section
/-!
SUPPORT. Laws/Store.lean: a store into device memory changes no byte but those it stores and their mirror copies, and
no part of State but those of `StoreParts`.
-/
set_option linter.unusedVariables false

namespace Sys2Proof.Machine

/-- What a store leaves: its parts of State, and every byte outside a set. -/
structure Wrote (p : Nat → Prop) (s t : State) : Prop where
  parts : StoreParts s t
  bytes : BytesBut s t p

theorem Wrote.refl (p : Nat → Prop) (s : State) : Wrote p s s := ⟨rfl, fun _ _ => rfl⟩

theorem Wrote.trans {p : Nat → Prop} {s t u : State} (h : Wrote p s t) (k : Wrote p t u) : Wrote p s u := by
  refine ⟨?_, fun a ha => (k.bytes a ha).trans (h.bytes a ha)⟩
  have h1 := h.parts
  have h2 := k.parts
  unfold StoreParts at *
  rw [h2, h1]

theorem Wrote.mono {p q : Nat → Prop} {s t : State} (h : Wrote p s t) (k : ∀ a, p a → q a) : Wrote q s t :=
  ⟨h.parts, fun a ha => h.bytes a (fun x => ha (k a x))⟩

theorem Wrote.ofRises {p : Nat → Prop} {s t : State} (h : Rises s t) : Wrote p s t := by
  refine ⟨?_, fun a _ => by simp only [memByte, h.keeps.mem]⟩
  have e := h.parts
  have m := h.keeps.mem
  have c := h.keeps.cvus
  unfold FaultParts at e
  unfold StoreParts
  rw [m, c]
  exact e

theorem Wrote.foldl {β : Type} {p : Nat → Prop} {s0 s : State} {f : State → β → State} {l : List β}
    (hs : Wrote p s0 s) (hf : ∀ s, ∀ x ∈ l, Wrote p s (f s x)) : Wrote p s0 (l.foldl f s) := by
  induction l generalizing s with
  | nil => exact hs
  | cons x r ih => exact ih (hs.trans (hf s x (List.mem_cons_self ..))) (fun s y hy => hf s y (List.mem_cons_of_mem _ hy))

theorem Wrote.ite {p : Nat → Prop} {s a b : State} {c : Prop} [Decidable c] (ha : Wrote p s a) (hb : Wrote p s b) :
    Wrote p s (if c then a else b) := by
  split
  · exact ha
  · exact hb

/-- An update of registers, the cycle's record, check values, or memory's own parts other than its bytes. -/
theorem Wrote.lit {p : Nat → Prop} {s t : State} (h : StoreParts s t) (c : t.mem.cells = s.mem.cells) : Wrote p s t :=
  ⟨h, fun a _ => by simp only [memByte, c]⟩

theorem setBad_wrote (p : Nat → Prop) (s : State) (a : Nat) (b : Bool) : Wrote p s (setBad s a b) := Wrote.lit rfl rfl

theorem memSet_wrote {p : Nat → Prop} (s : State) {a : Nat} (v : Nat) (h : p a) : Wrote p s (memSet s a v) := by
  refine ⟨rfl, fun b hb => ?_⟩
  have : b ≠ a := fun e => hb (e ▸ h)
  simp [this]

theorem memPut_wrote {p : Nat → Prop} (s : State) (a : Nat) (bytes : List (Option Nat))
    (h : ∀ i < bytes.length, (bytes.getD i none).isSome → p (a + i)) : Wrote p s (memPut s a bytes) := by
  unfold memPut
  refine Wrote.foldl (Wrote.refl p s) (fun s i hi => ?_)
  have hi := List.mem_range.mp hi
  split
  · next v e => exact (memSet_wrote s v (h i hi (by rw [e]; rfl))).trans (setBad_wrote p _ _ _)
  · exact Wrote.refl p s

theorem putCode_wrote (p : Nat → Prop) (s : State) (page : Nat) (c : List Nat) : Wrote p s (putCode s page c) :=
  Wrote.lit rfl rfl

theorem logLimited_rises {s0 s : State} (key interval : Nat) (k : LogKind) (place code addr : Nat) (h0 : Rises s0 s) :
    Rises s0 (s.logLimited key interval k place code addr) := by
  unfold State.logLimited
  dsimp only
  split
  · exact Rises.lit (State.logAdd_rises k place code addr _ h0)
  · exact h0

theorem setPair_rises {s0 s : State} {p : Page} {o v : Nat}
    (ha : (pageBase p + o) % 4096 ≠ 0x18 ∧ (pageBase p + o) % 4096 ≠ 0x24 ∧
      pageBase p + o ≠ 0x411000 + Reg.WORLD_HW_CTRL)
    (hb : (pageBase p + (o + 4)) % 4096 ≠ 0x18 ∧ (pageBase p + (o + 4)) % 4096 ≠ 0x24 ∧
      pageBase p + (o + 4) ≠ 0x411000 + Reg.WORLD_HW_CTRL) (h : Rises s0 s) : Rises s0 (s.setPair p o v) :=
  State.setPr_rises hb (State.setPr_rises ha h)

theorem errInfo_rises {s0 s : State} (agent : Nat) (sec write : Bool) (type chan a : Nat) (h : Rises s0 s) :
    Rises s0 (errInfo s agent sec write type chan a) :=
  setPair_rises (by decide) (by decide) (State.setPr_rises (by decide) h)

theorem memError_rises {s0 s : State} (agent : Nat) (sec write : Bool) (type a : Nat) (h : Rises s0 s) :
    Rises s0 (memError s agent sec write type a) := by
  unfold memError
  have e := errInfo_rises agent sec write type (if type = 6 then 0 else chanOf s a) a
    (State.count_rises (p := .memctl) (o := Reg.MEMCTL_UE_TOTAL) (by decide) h)
  refine logLimited_rises _ _ _ _ _ _ (raiseFault_rises _ _ _ (State.event_rises (Rises.ite e (raiseFault_rises _ _ _ ?_))))
  refine State.count_rises ?_ e
  simp only [pageBase, Reg.MEMCH_UE_COUNT, Reg.WORLD_HW_CTRL]
  omega

theorem watermarkBlock_rises {s0 s : State} (agent : Nat) (write : Bool) (a : Nat) (h : Rises s0 s) :
    Rises s0 (watermarkBlock s agent write a) :=
  logLimited_rises _ _ _ _ _ _ (raiseFault_rises _ _ _ (State.event_rises
    (setPair_rises (by decide) (by decide) (State.setPr_rises (by decide) h))))

theorem channelRequest_wrote (p : Nat → Prop) (s : State) (a : Nat) : Wrote p s (channelRequest s a) := by
  unfold channelRequest leaveSelfRefresh
  refine Wrote.trans (t := { s with mem := { s.mem with lastReq := aset 0 s.mem.lastReq (chanOf s a) s.devtime } })
    (Wrote.lit rfl rfl) ?_
  exact Wrote.ite (Wrote.refl p _) (Wrote.lit rfl rfl)

theorem cvuWrite_wrote (p : Nat → Prop) (s : State) (agent line : Nat) (bytes : List (Option Nat)) :
    Wrote p s (cvuWrite s agent line bytes) :=
  Wrote.foldl (Wrote.refl p s) (fun s u _ => Wrote.ite (Wrote.lit rfl rfl) (Wrote.refl p s))

theorem staleWindow_wrote (p : Nat → Prop) (s : State) (n : Nat) : Wrote p s (staleWindow s n) := by
  unfold staleWindow
  exact Wrote.ite (Wrote.lit rfl rfl) (Wrote.refl p s)

theorem recodeHead_wrote (p : Nat → Prop) (s : State) : Wrote p s (recodeHead s) := by
  unfold recodeHead
  split
  · exact Wrote.refl p s
  · next e rest _ =>
    refine Wrote.trans (t := { s with mem := { s.mem with recq := rest } }) (Wrote.lit rfl rfl) ?_
    generalize ({ s with mem := { s.mem with recq := rest } } : State) = u
    dsimp only
    split
    · refine Wrote.trans (t := if u.mem.held.length < 64 then
          { u with mem := { u.mem with held := u.mem.held ++ [e.page] } }
        else { u with mem := { u.mem with recq := u.mem.recq ++ [⟨e.page, e.since⟩] } })
        (Wrote.ite (Wrote.lit rfl rfl) (Wrote.lit rfl rfl)) ?_
      exact Wrote.ofRises (logLimited_rises _ _ _ _ _ _ (raiseFault_rises _ _ _ (State.event_rises
        (errInfo_rises _ _ _ _ _ _ (Rises.refl _)))))
    · exact (putCode_wrote p _ _ _).trans (staleWindow_wrote p _ _)

theorem recodePush_wrote (p : Nat → Prop) (s : State) (page : Nat) : Wrote p s (recodePush s page) := by
  unfold recodePush
  exact (Wrote.ite (recodeHead_wrote p s) (Wrote.refl p s)).trans (Wrote.lit rfl rfl)

theorem recodeEnter_wrote (p : Nat → Prop) (s : State) (page : Nat) : Wrote p s (recodeEnter s page) := by
  unfold recodeEnter
  split
  · exact (Wrote.lit rfl rfl : Wrote p s { s with mem := { s.mem with held := s.mem.held.filter (fun x => x != page) } }).trans
      (recodePush_wrote p _ page)
  · split
    · exact Wrote.refl p s
    · exact recodePush_wrote p s page

theorem storeLine_wrote {p : Nat → Prop} (s : State) (line : Nat) (bytes : List (Option Nat))
    (h : ∀ i < bytes.length, (bytes.getD i none).isSome → p (line + i)) : Wrote p s (storeLine s line bytes) := by
  unfold storeLine
  split
  · exact Wrote.refl p s
  · have m := memPut_wrote s line bytes h
    dsimp only
    split
    · generalize memPut s line bytes = u at m
      have k : Wrote p u { u with mem := { u.mem with touched := u.mem.touched ++ [line / 4096] } } := Wrote.lit rfl rfl
      exact (m.trans k).trans (putCode_wrote p _ _ _)
    · exact m.trans (recodeEnter_wrote p _ _)

theorem fireInject_wrote (p : Nat → Prop) (s : State) (q : Page) : Wrote p s (fireInject s q) :=
  Wrote.ofRises (State.logAdd_rises _ _ _ _ _ (State.setHd_rises (by decide) (Rises.refl s)))

theorem flipLine_wrote {p : Nat → Prop} (s : State) (line : Nat) (bytes : List (Option Nat))
    (h : ∀ i, (bytes.getD i none).isSome → p (line + i)) : Wrote p s (flipLine s line bytes) := by
  unfold flipLine
  dsimp only
  split
  · split
    · next x => exact ((memSet_wrote s _ (h _ x)).trans (setBad_wrote p _ _ _)).trans (fireInject_wrote p _ _)
    · exact Wrote.refl p s
  · split
    · exact (setBad_wrote p s _ _).trans (fireInject_wrote p _ _)
    · exact Wrote.refl p s
  · split
    · next x => exact (memSet_wrote s _ (h _ x)).trans (fireInject_wrote p _ _)
    · exact Wrote.refl p s
  · exact Wrote.refl p s

theorem writeLine_wrote {p : Nat → Prop} (s : State) (agent : Nat) (sec : Bool) (line : Nat) (bytes : List (Option Nat))
    (h : ∀ i, (bytes.getD i none).isSome → p (line + i) ∧ p ((line ^^^ 0x200000) + i)) :
    Wrote p s (writeLine s agent sec line bytes).1 := by
  have h1 : ∀ i, (bytes.getD i none).isSome → p (line + i) := fun i x => (h i x).1
  have st (s : State) := storeLine_wrote s line bytes (fun i _ => h1 i)
  unfold writeLine
  split
  · split
    · exact memPut_wrote s line bytes (fun i _ => h1 i)
    · exact Wrote.ofRises (watermarkBlock_rises _ _ _ (Rises.refl s))
  · split
    · exact Wrote.ofRises (memError_rises _ _ _ _ _ (Rises.refl s))
    · split
      · exact Wrote.ofRises (watermarkBlock_rises _ _ _ (Rises.refl s))
      · split
        · exact Wrote.ofRises (memError_rises _ _ _ _ _ (Rises.refl s))
        · have a := ((channelRequest_wrote p s line).trans (cvuWrite_wrote p _ agent line bytes)).trans (st _)
          refine (a.trans ?_).trans ((channelRequest_wrote p _ _).trans (storeLine_wrote _ _ bytes (fun i _ x => (h i x).2)))
          exact Wrote.ite (flipLine_wrote _ line bytes h1) (Wrote.refl p _)
        · have a := ((channelRequest_wrote p s line).trans (cvuWrite_wrote p _ agent line bytes)).trans (st _)
          exact a.trans (Wrote.ite (flipLine_wrote _ line bytes h1) (Wrote.refl p _))

/-- An xor of bit 21 leaves the place in a line as it is. -/
theorem mirror_line (k i : Nat) (hi : i < 64) : ((64 * k) ^^^ 0x200000) + i = (64 * k + i) ^^^ 0x200000 := by
  have e1 : (64 * k) ^^^ 0x200000 = 64 * (k ^^^ 0x8000) := by
    rw [show (64 : Nat) = 2 ^ 6 from rfl, Nat.mul_comm, Nat.mul_comm (2 ^ 6) (k ^^^ 0x8000), ← Nat.shiftLeft_eq,
      ← Nat.shiftLeft_eq, Nat.shiftLeft_xor_distrib]
    rfl
  apply Nat.eq_of_testBit_eq
  intro j
  rw [e1, show (64 : Nat) = 2 ^ 6 from rfl, Nat.testBit_two_pow_mul_add _ hi, Nat.testBit_xor, Nat.testBit_xor, Nat.testBit_two_pow_mul_add _ hi]
  have e2 : (0x200000 : Nat) = 2 ^ 21 := rfl
  have e3 : (0x8000 : Nat) = 2 ^ 15 := rfl
  split
  · next hj =>
    have hne : 21 ≠ j := by omega
    rw [e2, Nat.testBit_two_pow, decide_eq_false hne, Bool.xor_false]
  · next hj =>
    rw [e2, e3, Nat.testBit_two_pow, Nat.testBit_two_pow]
    congr 1
    simp only [decide_eq_decide]
    omega

/-- A store changes no byte but those it stores and their mirror copies. -/
theorem busWriteMasked_wrote (s : State) (agent : Nat) (sec : Bool) (a : Nat) (bytes : List (Option Nat)) :
    Wrote (Stored a bytes.length) s (busWriteMasked s agent sec a bytes).1 := by
  unfold busWriteMasked
  have gen (l : List Nat) (hl : ∀ x ∈ l, ∃ k, x = 64 * k) (r : State × Except AccErr Unit) :
      Wrote (Stored a bytes.length) r.1 (l.foldl (fun (r : State × Except AccErr Unit) l =>
        let (s, e) := writeLine r.1 agent sec l (linePart a bytes l)
        (s, match r.2, e with
          | .ok _, some x => .error x
          | old, _ => old)) r).1 := by
    induction l generalizing r with
    | nil => exact Wrote.refl _ _
    | cons x t ih =>
      refine Wrote.trans ?_ (ih (fun y hy => hl y (List.mem_cons_of_mem _ hy)) _)
      obtain ⟨k, rfl⟩ := hl x (List.mem_cons_self ..)
      refine writeLine_wrote _ _ _ _ _ (fun i hi => ?_)
      unfold linePart at hi
      have hi64 : i < 64 := by
        by_contra c
        rw [List.getD_eq_getElem?_getD, List.getElem?_eq_none (by simpa using Nat.not_lt.mp c)] at hi
        simp at hi
      have e : a ≤ 64 * k + i ∧ 64 * k + i < a + bytes.length := by
        rw [List.getD_eq_getElem?_getD] at hi
        simp only [List.getElem?_map, List.getElem?_range hi64, Option.map_some, Option.getD_some] at hi
        split at hi
        · next h =>
          refine ⟨h, ?_⟩
          by_contra c
          rw [List.getD_eq_getElem?_getD, List.getElem?_eq_none (by omega)] at hi
          simp at hi
        · simp at hi
      refine ⟨Or.inl e, Or.inr ?_⟩
      rw [mirror_line k i hi64, Nat.xor_assoc, Nat.xor_self, Nat.xor_zero]
      exact e
  exact gen _ (by
    unfold linesOf
    split
    · simp
    · intro x hx
      obtain ⟨i, _, rfl⟩ := List.mem_map.mp hx
      exact ⟨_, rfl⟩) (s, .ok ())

theorem busWrite_wrote (s : State) (agent : Nat) (sec : Bool) (a : Nat) (bytes : List Nat) :
    Wrote (Stored a bytes.length) s (busWrite s agent sec a bytes).1 := by
  have h := busWriteMasked_wrote s agent sec a (bytes.map some)
  rw [List.length_map] at h
  exact h

end Sys2Proof.Machine
end

