-- ==== Sys2Proof/WellFormed.lean ====
section
/-!
DEFINITION. WellFormed.lean: the commands whose operands have the shape the spec gives them. The types of Syntax.lean
bound most operands; what is left is the pages and layer blocks that exist (R78, R80) and the lengths of lists.
-/
namespace Sys2Proof

/-- The command names an existing page that has the common header (R43, R80). -/
def headed (p : Page) : Bool := Machine.pageOk p && Machine.pageBody p == 0x100

/-- A write to memory: at least one byte, at most 4,096 (the longest the commands carry). -/
def bytesOk {α : Type} (l : List α) : Bool := 1 ≤ l.length && l.length ≤ 4096

/-- The data of a BAR2 write has the length of the access. -/
def dataOk (len : Nat) (data : Option (List (Option (BitVec 8)))) : Bool :=
  match data with
  | none => true
  | some d => d.length == len

/-- A request that comes through the service port has 8 to 256 bytes (R545, R546). -/
def pathOk : MbPath → Bool
  | .slot _ => true
  | .service req => 8 ≤ req.length && req.length ≤ 256

/-- An AUX reply carries at most 16 bytes (R129). -/
def replyOk : AuxReply → Bool
  | .ack data => data.length ≤ 16
  | _ => true

/-- Damaged bytes lie in a code page: 4,096 data bytes and 512 check bytes (R337, R344). -/
def damageOk (l : List (BitVec 12 × BitVec 9)) : Bool := l.all (fun d => d.2.toNat != 0)

/-- The well-formed commands. -/
def Instr.wf : Instr → Bool
  | .softReset _ p _ | .softResetDone p | .faultInjectArm _ p _ | .setFault p | .headerParity p | .headerParityError p _ =>
    headed p
  | .enableDrainDone p => headed p && Machine.enableHasFunction p
  | .commitGo _ p _ | .commitApply p | .ownerChange _ p _ => Machine.pageOk p
  | .faultRaised p b _ => headed p && b.val < (Machine.faultBits p).length
  | .edidReadDone _ blocks => blocks.length ≤ 16 && blocks.all (fun b => b.length == 128)
  | .auxReply _ r => replyOk r
  | .memoryWrite _ _ _ b | .dataFlip _ _ _ b | .parityFlip _ _ _ b | .silentFlip _ _ _ b => bytesOk b
  | .correctingRead _ _ _ d | .staleReread _ _ _ d _ => damageOk d
  | .mirrorRead _ _ _ d e => damageOk d && damageOk e
  | .bar2Access _ _ len data | .vfBar2Access _ _ len data => dataOk len data
  | .slotEnd _ c => c.length == 8
  | .selftestDone c r l => c.length == 64 && r.length == 64 && l.length == 64
  | .sampleBoundary din => din.length == 32
  | .consoleIdRead _ (some d) => d.length == 256
  | .sensorSample v => v.length == 45
  | .getInfo p | .readSensors p | .logRead p | .logStatus p | .telemetryCfg p | .updateBegin p | .updateData p
  | .updateEnd p | .updateActivate p | .configRead p | .configWrite p | .retireRead p | .retireAdd p | .shimRead p
  | .reset p | .injectEnable p => pathOk p
  | _ => true

end Sys2Proof
end

