-- ==== Sys2Proof/Tests/Slice0.lean ====
section
/-!
SUPPORT. Tests/Slice0.lean: tests of the model. The commands that WellFormed.lean refuses, one step, the worked examples
of the spec with the results the spec prints, and for every statement with hypotheses a state and operands that meet
them all, clause by clause.
-/
namespace Sys2Proof.Tests
open Sys2Proof.Machine

set_option Elab.async false
set_option linter.unusedVariables false

/-! States the tests start from. -/

/-- The block at work in Native mode with nothing pending. -/
def live : State := { State.reset with mode := { mode := .native, prior := .survey }, surv := { step := .running } }

/-- A page is READY. -/
def up (s : State) (p : Page) : State := s.setHd p .ready 1

/-- A page is READY and enabled. -/
def on (s : State) (p : Page) : State := (up s p).setHd p .ctrl 1

/-- A page is READY and enabled. -/
def enab (s : State) (p : Page) : State := on s p

/-- An injection is armed in a page. -/
def arm (s : State) (p : Page) (kind target param : Nat) : State :=
  s.setHd p .inject (w32 (2 ^ 31 + 65536 * param + 256 * kind + target))

/-- Core 0 is Heartwood's and runs, the other seven run in world 0. -/
def cores (s : State) : State :=
  let s := (s.setPr .world Reg.WORLD_CORE_CFG 1).setPr .world Reg.WORLD_CORE_WORLD 1
  (List.range 8).foldl (fun s c => s.setCore c { s.core c with inReset := false }) s

/-- Device time in ms. -/
def atMs (s : State) (ms : Nat) : State := { s with fclk := 1200000 * ms, upTicks := 1200000 * ms }

/-- The table row of a register. -/
def rowOf (p : Page) (o : Nat) : RegRow := (rowAt p o).getD ⟨"", 0, 0, 0, 0, []⟩

/-- Writes of a page's registers, in order. -/
def put (s : State) (p : Page) (l : List (Nat × Nat)) : State := l.foldl (fun s e => s.setPr p e.1 (w32 e.2)) s

/-- 640 by 480 at 27 MHz in force on a head. -/
def video (s : State) (n : Nat) : State :=
  put (up s (.timing n)) (.timing n) [(Reg.TIMING_PLL_CFG0, 0x00C80036), (Reg.TIMING_H_ACTIVE, 640),
    (Reg.TIMING_H_FRONT, 16), (Reg.TIMING_H_SYNC, 96), (Reg.TIMING_H_BACK, 48), (Reg.TIMING_V_ACTIVE, 480),
    (Reg.TIMING_V_FRONT, 10), (Reg.TIMING_V_SYNC, 2), (Reg.TIMING_V_BACK, 33)]

/-- A head that scans out. -/
def running (s : State) (n : Nat) : State :=
  let s := (video s n).setHd (.timing n) .ctrl 1
  s.setHead n { s.head n with pll := .locked, running := true, raster := rasterInForce s n }

/-- 32 channels, all in the map, all memory pages READY. -/
def mapped (s : State) : State :=
  let s := (List.range 32).foldr (fun c s => up s (.memch c)) (up (up s .memctl) .shim)
  (put s .memctl [(Reg.MEMCTL_CHAN_MAP, 0xFFFFFFFF), (Reg.MEMCTL_USABLE_PAGES, 32 * stripesOf 32)]).setPair .dev
    Reg.DEV_MEM_INIT_WM_LO (4096 * (32 * stripesOf 32))

/-- Bytes in device memory. -/
def fill (s : State) (a : Nat) (b : List Nat) : State := (busWrite s 0x19 true a b).1

/-- Words in device memory. -/
def fillWords (s : State) (a : Nat) (l : List Nat) : State := fill s a (l.flatMap (leBytes 4))

/-- Legacy Profile at work, with the host on port A. -/
def old : State :=
  let s : State := { live with cfg := { profile := 1 }, mode := { mode := .legacy, prior := .survey } }
  (up s .legacy).setPf (.func 0) Reg.FUNC_FUNC_STATUS 9 9 1

/-- The draw engine at work: its ring at 0x40000000, the frame memory at 0x60000000, and command words in the ring. -/
def drawing (l : List Nat) : State :=
  let s := cores (mapped old)
  let s := put s .legacy [(Reg.LEGACY_DE_RING_BASE_LO, 0x40000000), (Reg.LEGACY_DE_RING_WR, l.length)]
  let s := put s (.hostif 0) [(Reg.HOSTIF_MEM_BASE_LO, 0x60000000), (Reg.HOSTIF_MEM_LIMIT_LO, 0x70000000)]
  fillWords ((List.range 48).foldr (fun b s => up s (.bay b)) s) 0x40000000 l

/-- Heartwood's rings at work: SQ q with one descriptor, the CQ after it, the context entry of CTX 0 valid. -/
def fetching (q : Nat) (d : List Nat) : State :=
  let s := on (mapped live) .sched
  let s : State := { s with surv := { s.surv with hwLoaded := true } }
  let s := put (on s .world) .world [(ringOff 64 q, 0x40000000), (ringOff 64 q + rCtrl, 0xC01),
    (ringOff 64 q + rHead, 4095), (ringOff 64 q + rTail, 0), (ringOff 64 4, 0x40100000), (ringOff 64 4 + rCtrl, 0xC01),
    (Reg.WORLD_HW_CTX_BASE_LO, 0x40200000)]
  fillWords (fill s (0x40000000 + 64 * 4095) d) 0x40200000 [1, 0, 0, 0, 4, 0, 0x40300000, 0, 4096]

/-- A job of Heartwood in a slot. -/
def aJob (op : Nat) (phase : JobPhase) (body : List Nat) : Job :=
  { rs := 64, q := 0, idx := 0, gen := 0, op := op, flags := 0, ctx := 0, tag := 5, wait := 4096 * 9 + 4095, signal := 0,
    dlFrame := 0, dlHead := 0, body := body ++ List.replicate (32 - body.length) 0,
    entry := leBytes 8 1 ++ leBytes 8 0 ++ leBytes 8 4 ++ leBytes 8 0x40300000 ++ List.replicate 32 0, seq := 0, phase := phase }

/-- A block with one job, in the last slot. -/
def withJob (j : Job) : State :=
  let s := on (mapped live) .sched
  let s := (List.range 48).foldr (fun b s => up s (.bay b)) s
  s.setJob 1023 (some j)

/-! The commands that are not well-formed: one for each check of WellFormed.lean, and one that passes. -/

/-- R43, R80: a layer block has no common header, and there is no thirteenth head. -/
theorem test_wf_page :
    (Instr.softReset .surveyor (.layer 0 0) 0).wf = false ∧ (Instr.setFault (.timing 12)).wf = false ∧
    (Instr.commitGo .surveyor (.timing 12) 1).wf = false ∧ (Instr.commitGo .surveyor (.layer 11 15) 1).wf = true := by
  decide +kernel

/-- A page without an ENABLE function has no drain, and a page has only its own fault bits. -/
theorem test_wf_function :
    (Instr.enableDrainDone .dev).wf = false ∧ (Instr.enableDrainDone .audio).wf = true ∧
    (Instr.faultRaised .dev 1 0).wf = false ∧ (Instr.faultRaised .dev 0 0).wf = true := by decide +kernel

/-- R128, R129: an EDID has at most 16 blocks of 128 bytes, and an AUX reply at most 16 bytes. -/
theorem test_wf_link :
    (Instr.edidReadDone 0 [List.replicate 127 0]).wf = false ∧
    (Instr.edidReadDone 0 (List.replicate 17 (List.replicate 128 0))).wf = false ∧
    (Instr.auxReply 0 (.ack (List.replicate 17 0))).wf = false := by decide +kernel

/-- Memory commands carry 1 to 4,096 bytes, and a damaged byte differs. -/
theorem test_wf_memory :
    (Instr.memoryWrite 5 false 0 []).wf = false ∧ (Instr.memoryWrite 5 false 0 [none]).wf = true ∧
    (Instr.dataFlip 5 false 0 []).wf = false ∧ (Instr.parityFlip 5 false 0 []).wf = false ∧
    (Instr.silentFlip 5 false 0 []).wf = false ∧ (Instr.correctingRead 5 false 0 [(3, 0)]).wf = false ∧
    (Instr.staleReread 5 false 0 [(3, 0)] true).wf = false ∧ (Instr.mirrorRead 5 false 0 [] [(3, 0)]).wf = false := by
  decide +kernel

/-- The data of a BAR2 write has the length of the access. -/
theorem test_wf_bar2 :
    (Instr.bar2Access 0 0 4 (some [none])).wf = false ∧ (Instr.vfBar2Access 1 0 4 (some [none])).wf = false ∧
    (Instr.bar2Access 0 0 1 (some [none])).wf = true := by decide +kernel

/-- The lists that the sensors, the console and the audio inputs deliver have their lengths. -/
theorem test_wf_lists :
    (Instr.slotEnd 0 []).wf = false ∧ (Instr.selftestDone [] [] []).wf = false ∧ (Instr.sampleBoundary []).wf = false ∧
    (Instr.consoleIdRead 0 (some [])).wf = false ∧ (Instr.sensorSample []).wf = false ∧
    (Instr.slotEnd 0 (List.replicate 8 0)).wf = true := by decide +kernel

/-- R545: a request has 8 to 256 bytes. -/
theorem test_wf_path :
    (Instr.getInfo (.service [1])).wf = false ∧ (Instr.reset (.service (List.replicate 257 0x40))).wf = false ∧
    (Instr.getInfo (.slot 3)).wf = true := by decide +kernel

/-! One step. -/

/-- The command in front is carried out and the rest stays: FUNC0's read of an unmapped offset answers 0. -/
theorem test_step_front :
    (match step { live with pending := [.loReadLatch .surveyor 0xC000 0, .drop] } with
     | .next t => some (t.answer, t.pending)
     | _ => none) = some (some ⟨0x41, 0xC000, 0⟩, [.drop]) := by decide +kernel

/-- With no command waiting one FCLK cycle passes. -/
theorem test_step_empty :
    (match step live with
     | .next t => some (t.fclk, t.pending)
     | _ => none) = some (live.fclk + 1, []) := by decide +kernel

/-- No word of the table spells a command. -/
theorem test_no_word : decodeTableWord 32 0 = none ∧ live.withFetchWord 32 0 = live := ⟨rfl, rfl⟩

/-! Worked examples of the spec. -/

/-- Chapter 3: MODE of the module that loses a bay and then a fault header reads 0xC25. -/
theorem test_mode_word :
    (let s : State := { live with mode := { mode := .safe, prior := .degraded, safeHw := true } }
     (readReg s .surveyor (pageBase .dev + Reg.DEV_MODE)).toNat) = 0xC25 := by decide +kernel

/-- R76 to R78: FUNC0 takes HEAD2.L6 back in the cycle in which FUNC5 commits it. -/
theorem test_layer_taken_back :
    (let p : Page := .layer 2 6
     let s := put (up live p) p [(0x10, 0x05)]
     let s := (s.setPf (.func 0) Reg.FUNC_FUNC_STATUS 9 9 1).setPf (.func 5) Reg.FUNC_FUNC_STATUS 9 9 1
     match exec (.ownerChange (.func 0) p 0) s with
     | .next s =>
       match exec (.commitGo (.func 5) p 0x0123) s with
       | .next s => some (s.reg 0x10A610, s.hd p .commitStatus, s.hd p .reject)
       | _ => none
     | _ => none) = some (0x500, 0x01237000, 0x05701609) := by decide +kernel

/-- R97: the latch of the 8K60 timing falls at line 4377, and of 1920 × 1080 at line 1121. -/
theorem test_latch_line :
    (Raster.latchLine { hActive := 7680, vActive := 4320, vFront := 48, vSync := 8, vBack := 5 } = 4377) ∧
    (Raster.latchLine { hActive := 1920, vActive := 1080, vFront := 4, vSync := 5, vBack := 36 } = 1121) := by decide +kernel

/-- R82, R83: MULT 61 + 0x319D67 / 2^24 and POSTDIV 3 give a pixel clock of 2,039,793,6xx Hz. -/
theorem test_pixel_clock :
    (let f := fpix (put live (.timing 0) [(Reg.TIMING_PLL_CFG0, 0x0003003D), (Reg.TIMING_PLL_CFG1, 0x319D67)]) 0
     f.1 / f.2) = 2039793600 := by decide +kernel

/-- R123: the payloads of four lanes at UHBR20, at UHBR13.5, and at HBR3 with FEC. -/
theorem test_payload :
    capacity 6 2 false = 77368000000 ∧ capacity 5 2 false = 52224000000 ∧ capacity 3 2 true = 25296000000 := by
  decide +kernel

/-- R147 to R149: the two layers of the red channel on HEAD5. -/
theorem test_blend :
    exp8 0x80 = 2056 ∧ expA8 0x40 = 257 ∧ blendCh false 2056 257 200 = 666 ∧
    (let q := planeAlpha 768 true ⟨exp10 300, 0, 0, expA2 2⟩
     (q.r, q.a, blendCh true q.r q.a 666)) = (902, 512, 1234) := by decide +kernel

/-- R165: the floating run of HEAD5, and its blend onto the video. -/
theorem test_floating_run :
    (floatPixel [(⟨2056, 0, 0, 257⟩, false), (⟨77, 0, 0, 0⟩, false)] .ident {} 0).map (fun e => (e.1.r, e.2))
      = some (516, 257) ∧
    blendCh true 516 257 2050 = 2051 ∧ blendCh false 2056 257 2050 = 2052 ∧ blendCh true 516 257 200 = 666 := by
  decide +kernel

/-- R170: bytes of a veneer region of the 7680 × 4320 head. -/
theorem test_veneer_region : veneerRegion { hActive := 7680, vActive := 4320 } = 265945088 := by decide +kernel

/-- R159: a full-width ARGB8888 layer of the 8K60 head costs 8,076 MB/s. -/
theorem test_layer_cost :
    (let s := put live (.timing 0) [(Reg.TIMING_PLL_CFG0, 0x0003003D), (Reg.TIMING_PLL_CFG1, 0x319D67)]
     lineCost s 0 { hActive := 7680, hFront := 8, hSync := 32, hBack := 40, vActive := 4320, vFront := 48, vSync := 8,
                    vBack := 5 } (64 * 30720)) = 8076 := by decide +kernel

/-- R177 and R179: destination pixel 3 of the scaled video on HEAD1, with the reset coefficients. -/
theorem test_scaler :
    scalePos (-262144) 0x80000 3 = (1, 16) ∧
    filterTap false 4095 (hTaps live 0 16) 0 3 1 [0, 2880, 3200, 0, 0, 0] = 2960 := by decide +kernel

/-- R191: BT.709 limited range of a flat area. -/
theorem test_input_matrix :
    matrixPx (matrixOf 0x12A1 0x12A11CAF 0xF779FC97 0x21CC12A1 0 0x18001F00 0x1800 0 0) ⟨2880, 1600, 2560⟩
      = ⟨3973, 2878, 2109⟩ := by decide +kernel

/-- R182, R183: six taps of the line 7,680 wide do not fit, three do. -/
theorem test_taps_fit :
    (let g (taps : Nat) (o : Nat) : Word := w32 (
       if o = Reg.LAYERV_SCL_CTRL then taps else if o = Reg.LAYER_SRC_SIZE then 0x10E02000
       else if o = Reg.LAYER_DST_SIZE then 0x0FA01E00 else if o = Reg.LAYERV_V_STEP then 0x1147AE else 0)
     (tapsFit (g 0), tapsFit (g 0x2000))) = (false, true) := by decide +kernel

/-- R236: the gradient block in Kerf-L 8 takes three sectors. -/
theorem test_kerf_l :
    (let r := kerfEncode .l8 none ((List.range 64).map (fun i => 0xFF000000 + 0x10101 * (16 + 2 * (i % 8) + i / 8)))
     (r.1, r.2.length, r.2.take 21)) =
      (3, 96, ((List.replicate 8 [0x33, 0x03]).flatten ++ [0x10, 0x10, 0x10, 0xFF, 0x24])) := by decide +kernel

/-- R238, R239: the checkerboard in Kerf-H 8 is quantised by 3 bits and comes back 4 off. -/
theorem test_kerf_h :
    (let px := (List.range 64).map (fun i => 0xFF000000 + 0x10101 * (if (i % 8 + i / 8) % 2 = 1 then 128 else 0))
     let r := kerfEncode .h8 none px
     (r.1, r.2.take 2, (kerfDecode .h8 0 r.1 r.2).toOption.map (·.take 2))) =
      (0x13, [0x55, 0x05], some [0xFF040404, 0xFF848484]) := by decide +kernel

/-- R231: block (5, 3) of a 1,920-pixel Kerf-L layer. -/
theorem test_kerf_address :
    (let f : KerfSurf := { kind := .l8, base := 0x10000000, map := 0x20000000, pitch := 61440 }
     (f.slotAddr 5 3, f.mapAddr 5 3)) = (0x1002D500, 0x200002D5) := by decide +kernel

/-- R212: style 7 of the Legend example at VALUE 2; R213: −123 with one decimal in six places. -/
theorem test_legend :
    symbolGlyph 0x00640300 0 0x00040000 2 0 = (102, true) ∧
    numeric 0xFF85 true false 6 1 = [none, some 10, some 1, some 2, some 11, some 3] := by decide +kernel

/-- R332: page 0x134 lies in raw page 353 on MEMCH1. -/
theorem test_page_place :
    rawPage 0x134 = 353 ∧ chanOf (mapped live) 0x134500 = 1 := by decide +kernel

/-- R398: the table indices of the translation of FUNC3. -/
theorem test_table_indices :
    (List.range 3).map (fun l => tabIndex l 0x7F1234567ABC) = [0x0FE, 0x048, 0x1A2] ∧
    (List.range 4).map (fun l => tabIndex l 0x40367ABC) = [0, 1, 1, 0x167] ∧
    leafSize 2 0x40200007 = 0x200000 ∧ leafSize 3 0x81234000F = 0x10000 := by decide +kernel

/-- R462, R463: half period and duties of the click on HAPCH5. -/
theorem test_click :
    (let s := put live (.hapch 5) [(Reg.HAPCH_HCFG, 0x140000AF)]
     ((40000000 + 175) / (2 * 175), hapDuty s 5 1023, hapDuty s 5 800)) = (114286, 85, 66) := by decide +kernel

/-- R484: the first two boundaries and the last of a gain ramp of 240. -/
theorem test_ramp :
    (let r (k : Nat) : Int := aget 0 (rampStep { live with audio := { live.audio with
       ramps := [⟨7, 0, 0x40000000, k, 240⟩] } }).audio.gains 7
     (r 0, r 1, r 239)) = (4473924, 8947848, 1073741824) := by decide +kernel

/-- R486, R487: the limiter's target, and the sample that goes out. -/
theorem test_limiter :
    limiterGain true 0x70000000 3221225472 (2 ^ 24) 0 1 = 9786709 ∧
    (3221225472 * 9786709 + 2 ^ 23) / 2 ^ 24 = 1879048128 ∧ sdpSample 1879048128 = 7340032 := by decide +kernel

/-- R54: MEMCTL's bits 1 and 3 in one cycle. -/
theorem test_fault_first :
    (let s := recordFault (recordFault live .memctl 1 false) .memctl 3 false
     (s.hd .memctl .faultStatus, s.hd .memctl .faultFirst, live.hd .memctl .action0)) =
      (0xA, 0x00018303, 0x300) := by decide +kernel

/-- R513, R515: the two words of CVU4's rectangle and the bytes they enter the CRC as. -/
theorem test_cvu_words :
    cvuHeadWords 10 ⟨1000, 512, 3⟩ = [0x3E880003] ∧ cvuHeadWords 10 ⟨0, 0, 1023⟩ = [0x3FF] ∧
    cvuHeadWords 8 ⟨250, 128, 0⟩ = [0x3E880000] ∧
    crcWord (crcWord 0xFFFFFFFF 0x3E880003) 0x3FF = crcFold 0xFFFFFFFF [0x03, 0x00, 0x88, 0x3E, 0xFF, 0x03, 0x00, 0x00] := by
  decide +kernel

/-- R565: PIXCLK 148,500, and the timing words of the 1920 × 1080 mode. -/
theorem test_b4_timing :
    b4Pll 148500 = some (0x00250036, 0xF1EB85) ∧
    (let s := (((old.setB4 0x104 0x07800898).setB4 0x108 0x07D80804).setB4 0x10C 0x04380465).setB4 0x110 0x043C0441
     (b4TimingVals s 0).map (·.2)).take 8 = [1920, 88, 44, 148, 1080, 4, 5, 36] := by decide +kernel

/-- R150, R114, R117: the B4 pixel. -/
theorem test_b4_pixel :
    legacyCh 165 192 1447 = 2345 ∧ dither 2336 0 0 8 false = 146 := by decide +kernel

/-- R513: the CRC-32C of the nine digits. -/
theorem test_crc32c : crc32c [0x31, 0x32, 0x33, 0x34, 0x35, 0x36, 0x37, 0x38, 0x39] = 0xE3069283 := by decide +kernel

/-! The hypotheses of the statements. -/

/-- The hypotheses of Obligations.StepRunsFrontCommand hold together. -/
theorem witness_StepRunsFrontCommand :
    ∃ (s : State),
      s.pending = [] := by
  let s : State := atMs live 1
  refine ⟨s, ?_⟩
  decide +kernel +revert

/-- The hypotheses of Obligations.NoAccessInHeld hold together. -/
theorem witness_NoAccessInHeld :
    ∃ (s : State),
      s.mode.mode = .held ∧ s.crossings = [] := by
  let s : State := { live with mode := { mode := .held } }
  refine ⟨s, ?_⟩
  decide +kernel +revert

/-- The hypotheses of Obligations.UnmappedOffsets hold together. -/
theorem witness_UnmappedOffsets :
    (∃ (m : Master) (addr : BitVec 26) (wait : BitVec 32) (s : State),
      let u := advance s wait.toNat
      targetOf u m addr.toNat = .at addr.toNat ∧ masterThere u m = true ∧ tableAt (addr.toNat / 4 * 4) = none ∧
      pageAt (addr.toNat / 4 * 4) = none) ∧
    (∃ (m : Master) (addr : BitVec 26) (wait : BitVec 32) (s : State),
      let u := advance s wait.toNat
      targetOf u m addr.toNat = .at addr.toNat ∧ masterThere u m = true ∧ tableAt (addr.toNat / 4 * 4) = none ∧
      pageAt (addr.toNat / 4 * 4) = none) := by
  refine ⟨?_, ?_⟩
  · let m : Master := .surveyor
    let addr : BitVec 26 := 0xC000
    let wait : BitVec 32 := 3
    let s : State := live
    refine ⟨m, addr, wait, s, ?_⟩
    decide +kernel +revert
  · let m : Master := .surveyor
    let addr : BitVec 26 := 0xC004
    let wait : BitVec 32 := 0
    let s : State := live
    refine ⟨m, addr, wait, s, ?_⟩
    decide +kernel +revert

/-- The hypotheses of Obligations.WorldHiddenFromHosts hold together. -/
theorem witness_WorldHiddenFromHosts :
    (∃ (f : Fin 64) (o : Fin 4096) (wait : BitVec 32) (s : State),
      let m := Master.func f
      let x := pageBase .world + o.val
      let u := advance s wait.toNat
      targetOf u m x = .at x ∧ masterThere u m = true) ∧
    (∃ (f : Fin 64) (o : Fin 4096) (wait : BitVec 32) (s : State),
      let m := Master.func f
      let x := pageBase .world + o.val
      let u := advance s wait.toNat
      targetOf u m x = .at x ∧ masterThere u m = true) := by
  refine ⟨?_, ?_⟩
  · let f : Fin 64 := 32
    let o : Fin 4096 := 0x100
    let wait : BitVec 32 := 0
    let s : State := (up live (.func 32)).setPf (.func 32) Reg.FUNC_FUNC_STATUS 9 9 1
    refine ⟨f, o, wait, s, ?_⟩
    decide +kernel +revert
  · let f : Fin 64 := 32
    let o : Fin 4096 := 0x100
    let wait : BitVec 32 := 0
    let s : State := (up live (.func 32)).setPf (.func 32) Reg.FUNC_FUNC_STATUS 9 9 1
    refine ⟨f, o, wait, s, ?_⟩
    decide +kernel +revert

/-- The hypotheses of Obligations.SafeRequestRule hold together. -/
theorem witness_SafeRequestRule :
    (∃ (m : Master) (s : State),
      let a := pageBase .dev + Reg.DEV_SAFE_REQUEST
      (m.code = 0x40 ∨ m.code = 0x41 ∨ m.code = 0 ∨ m.code = 0x20) ∧ Accepts s m a) ∧
    (∃ (m : Master) (v : Word) (s : State),
      let a := pageBase .dev + Reg.DEV_SAFE_REQUEST
      (m.code = 0x40 ∨ m.code = 0x41 ∨ m.code = 0 ∨ m.code = 0x20) ∧ Accepts s m a ∧ v ≠ 0x5AFE) ∧
    (∃ (m : Master) (s : State),
      let u := beginAccess s m
      (¬ (m.code = 0x40 ∨ m.code = 0x41 ∨ m.code = 0 ∨ m.code = 0x20)) ∧ masterThere s m = true ∧ u.ready .dev =
      true ∧ u.fenced .dev = false ∧ u.mode.mode ≠ .safe ∧ frozenOut u m .dev = false ∧ (pageBase .dev, m.code) ∉
      u.cyc.revoked) ∧
    (∃ (m : Master) (wait : BitVec 32) (s : State),
      let x := pageBase .dev + Reg.DEV_SAFE_REQUEST
      let u := advance s wait.toNat
      targetOf u m x = .at x ∧ masterThere u m = true) := by
  refine ⟨?_, ?_, ?_, ?_⟩
  · let m : Master := .surveyor
    let s : State := live
    refine ⟨m, s, ?_⟩
    unfold Accepts
    decide +kernel +revert
  · let m : Master := .surveyor
    let v : Word := 1
    let s : State := live
    refine ⟨m, v, s, ?_⟩
    unfold Accepts
    decide +kernel +revert
  · let m : Master := .sapwood
    let s : State := cores live
    refine ⟨m, s, ?_⟩
    decide +kernel +revert
  · let m : Master := .surveyor
    let wait : BitVec 32 := 3
    let s : State := live
    refine ⟨m, wait, s, ?_⟩
    decide +kernel +revert

/-- The hypotheses of Obligations.RegisterAccesses hold together. -/
theorem witness_RegisterAccesses :
    (∃ (m : Master) (addr : BitVec 26) (v : Word) (wait : BitVec 32) (s : State) (p : Page) (o : Nat) (r : RegRow),
      targetOf (advance s wait.toNat) m addr.toNat = .at addr.toNat ∧ addr.toNat % 4 = 0 ∧ tableAt addr.toNat = none
      ∧ pageAt addr.toNat = some (p, o) ∧ addr.toNat = pageBase p + o ∧ pageBody p ≤ o ∧ rowAt p o = some r ∧ p ≠
      .haptic ∧ stagedPair r = false ∧ shdMask r = 0 ∧ accMask r (fun t => t != .ro && t != .shd) ≠ 0 ∧ pageForeign
      p = true ∧ routeOwn (advance s wait.toNat) m addr.toNat v = none ∧ Accepts (advance s wait.toNat) m addr.toNat
      ∧ bodyCheck (beginAccess (advance s wait.toNat) m) m p o r v = none) ∧
    (∃ (s : State) (c : Crossing) (q : List Crossing) (p : Page) (o : Nat) (r : RegRow),
      s.crossings = c :: q ∧ pageAt c.addr = some (p, o) ∧ rowAt p o = some r ∧ s.ready p = true ∧ p ≠ .audio ∧ p ≠
      .world ∧ (∀ k, p ≠ .func k)) ∧
    (∃ (m : Master) (addr : BitVec 26) (wait : BitVec 32) (s : State) (p : Page) (o : Nat) (r : RegRow),
      targetOf (advance s wait.toNat) m addr.toNat = .at addr.toNat ∧ addr.toNat % 4 = 0 ∧ tableAt addr.toNat = none
      ∧ pageAt addr.toNat = some (p, o) ∧ rowAt p o = some r ∧ r.pair = 1 ∧ (∀ n, p ≠ .composer n) ∧ (∀ u, p ≠ .cvu
      u) ∧ masterThere (advance s wait.toNat) m = true ∧ isFunc m = false) ∧
    (∃ (m : Master) (e : Fin 64) (addr : BitVec 26) (v : Word) (s : State),
      let st := (beginAccess s m).staged m (pageBase .haptic + Reg.HAPTIC_EFFECT_W0) (addr.toNat - 12)
      let w (k : Nat) : Word := (st.find? (fun x => x.1 == addr.toNat - 12 + 4 * k)).elim (s.reg (addr.toNat - 12 +
        4 * k)) (·.2)
      addr.toNat = pageBase .haptic + Reg.HAPTIC_EFFECT_W0 + 16 * e.val + 12 ∧ Accepts s m addr.toNat ∧ effectOk (w
      0) (w 1) (w 2) v = true) := by
  refine ⟨?_, ?_, ?_, ?_⟩
  · let m : Master := .surveyor
    let addr : BitVec 26 := 0x3C0000 + Reg.KEYS_PORT_EN
    let v : Word := 3
    let wait : BitVec 32 := 2
    let s : State := up live .keys
    let p : Page := .keys
    let o : Nat := Reg.KEYS_PORT_EN
    let r : RegRow := rowOf .keys Reg.KEYS_PORT_EN
    refine ⟨m, addr, v, wait, s, p, o, r, ?_⟩
    unfold Accepts
    decide +kernel +revert
  · let s : State := { (up live (.dplink 0)) with crossings := [⟨0x41, hadr (.dplink 0) .irqEnable, 5⟩] }
    let c : Crossing := ⟨0x41, hadr (.dplink 0) .irqEnable, 5⟩
    let q : List Crossing := []
    let p : Page := .dplink 0
    let o : Nat := hdrOff .irqEnable
    let r : RegRow := rowOf (.dplink 0) (hdrOff .irqEnable)
    refine ⟨s, c, q, p, o, r, ?_⟩
    exact ⟨by decide +kernel +revert, by decide +kernel +revert, by decide +kernel +revert, by decide +kernel +revert, by decide +kernel +revert, by decide +kernel +revert,
      fun k h => (by cases (show Page.dplink 0 = .func k from h))⟩
  · let m : Master := .surveyor
    let addr : BitVec 26 := Reg.DEV_DEVTIME_LO
    let wait : BitVec 32 := 0
    let s : State := atMs live 7
    let p : Page := .dev
    let o : Nat := Reg.DEV_DEVTIME_LO
    let r : RegRow := rowOf .dev Reg.DEV_DEVTIME_LO
    refine ⟨m, addr, wait, s, p, o, r, ?_⟩
    exact ⟨by decide +kernel +revert, by decide +kernel +revert, by decide +kernel +revert, by decide +kernel +revert, by decide +kernel +revert, by decide +kernel +revert,
      fun k h => (by cases (show Page.dev = .composer k from h)), fun k h => (by cases (show Page.dev = .cvu k from h)),
      by decide +kernel +revert, by decide +kernel +revert⟩
  · let m : Master := .surveyor
    let e : Fin 64 := 63
    let addr : BitVec 26 := 0x3D0000 + Reg.HAPTIC_EFFECT_W0 + 16 * 63 + 12
    let v : Word := 0
    let s : State := up live .haptic
    refine ⟨m, e, addr, v, s, ?_⟩
    unfold Accepts
    decide +kernel +revert

/-- The hypotheses of Obligations.Ownership hold together. -/
theorem witness_Ownership :
    (∃ (m : Master) (p : Page) (value : Word) (s : State),
      pageOk p = true ∧ Accepts s m (hadr p .owner) ∧ ownerCheck m p value = none ∧ fget value 7 0 ≠ (beginAccess s
      m).owner p) ∧
    (∃ (m : Master) (k : Fin 32) (value : Word) (s : State) (p : Page),
      let a := pageBase .world + Reg.WORLD_CLAIM + 4 * k.val
      Accepts s m a ∧ claimCheck (taken s m a) k (fsetb value 31 true) = none ∧ fbit (claimReg (taken s m a) k) 31 =
      false ∧ claimTarget (fget value 29 28) (fget value 13 0) = some (.pages [p])) ∧
    (∃ (m : Master) (k : Fin 32) (s : State) (p : Page),
      let a := pageBase .world + Reg.WORLD_CLAIM + 4 * k.val
      Accepts s m a ∧ claimOf (taken s m a) k = some (.pages [p])) := by
  refine ⟨?_, ?_, ?_⟩
  · let m : Master := .surveyor
    let p : Page := .keys
    let value : Word := 0x42
    let s : State := up live .keys
    refine ⟨m, p, value, s, ?_⟩
    unfold Accepts
    decide +kernel +revert
  · let m : Master := .heartwood
    let k : Fin 32 := 31
    let value : Word := 0x3C0
    let s : State := cores (up (up live .world) .keys)
    let p : Page := .keys
    refine ⟨m, k, value, s, p, ?_⟩
    unfold Accepts
    decide +kernel +revert
  · let m : Master := .heartwood
    let k : Fin 32 := 0
    let s : State := ((cores (up (up live .world) .keys)).setPr .world Reg.WORLD_CLAIM 0x800003C0).setHd .keys .ready
      9
    let p : Page := .keys
    refine ⟨m, k, s, p, ?_⟩
    unfold Accepts
    decide +kernel +revert

/-- The hypotheses of Obligations.SoftResets hold together. -/
theorem witness_SoftResets :
    (∃ (m : Master) (p : Page) (value : Word) (s : State),
      pageOk p = true ∧ pageBody p = 0x100 ∧ Accepts s m (hadr p .ctrl) ∧ ctrlCheck (taken s m (hadr p .ctrl)) p
      (fsetb value 1 true) = none) ∧
    (∃ (p : Page) (s : State),
      pageOk p = true ∧ softResetting s p = true ∧ (∀ n, p = .timing n → (s.head n).pll ≠ .stopping)) ∧
    (∃ (p : Page) (s : State),
      enableHasFunction p = true ∧ pageOk p = true ∧ s.enabled p = false ∧ s.busy p = true ∧ fget (s.hd p .ready) 15
      8 ≠ 7 ∧ drained s p = true) := by
  refine ⟨?_, ?_, ?_⟩
  · let m : Master := .surveyor
    let p : Page := .kerf
    let value : Word := 3
    let s : State := up live .kerf
    refine ⟨m, p, value, s, ?_⟩
    unfold Accepts
    decide +kernel +revert
  · let p : Page := .timing 0
    let s : State := live.setHd (.timing 0) .ready 0x703
    refine ⟨p, s, ?_⟩
    exact ⟨by decide +kernel +revert, by decide +kernel +revert, fun n h => by
      cases (show Page.timing 0 = .timing n from h); decide +kernel +revert⟩
  · let p : Page := .sched
    let s : State := live.setHd .sched .ready 0x3
    refine ⟨p, s, ?_⟩
    decide +kernel +revert

/-- The hypotheses of Obligations.Commits hold together. -/
theorem witness_Commits :
    (∃ (m : Master) (p : Page) (s : State) (c : Cause),
      pageOk p = true ∧ Accepts s m (hadr p .commit) ∧ commitCheck (taken s m (hadr p .commit)) p m = some c) ∧
    (∃ (m : Master) (p : Page) (s : State),
      pageOk p = true ∧ Accepts s m (hadr p .commit) ∧ commitCheck (taken s m (hadr p .commit)) p m = none ∧ (∀ n,
      ((taken s m (hadr p .commit)).head n).running = false)) ∧
    (∃ (p : Page) (s : State) (st : PendStage),
      (∀ n, p ≠ .timing n) ∧ (∀ n, p ≠ .composer n) ∧ (∀ n l, p ≠ .layer n l) ∧ p ≠ .audio ∧ s.pend p = some st ∧
      st.seq < 0x10000) := by
  refine ⟨?_, ?_, ?_⟩
  · let m : Master := .surveyor
    let p : Page := .timing 0
    let s : State := up live (.timing 0)
    let c : Cause := .range
    refine ⟨m, p, s, c, ?_⟩
    unfold Accepts
    decide +kernel +revert
  · let m : Master := .surveyor
    let p : Page := .kerf
    let s : State := up live .kerf
    refine ⟨m, p, s, ?_⟩
    have h : (taken s m (hadr p .commit)).heads = [] := by decide +kernel +revert
    exact ⟨by decide +kernel +revert, by unfold Accepts; decide +kernel +revert, by decide +kernel +revert, fun n => by unfold State.head; rw [h]; rfl⟩
  · let p : Page := .kerf
    let s : State := live.setPend .kerf (some { seq := 9, master := 0x41 })
    let st : PendStage := { seq := 9, master := 0x41 }
    refine ⟨p, s, st, ?_⟩
    exact ⟨fun n h => (by cases (show Page.kerf = .timing n from h)),
      fun n h => (by cases (show Page.kerf = .composer n from h)),
      fun n l h => (by cases (show Page.kerf = .layer n l from h)), by decide +kernel +revert, by decide +kernel +revert, by decide +kernel +revert⟩

/-- The hypotheses of Obligations.CheckValues hold together. -/
theorem witness_CheckValues :
    (∃ (m : Master) (u : Fin 16) (s : State),
      Accepts s m (hadr (.cvu u) .ctrl) ∧ cvuEnableCheck (taken s m (hadr (.cvu u) .ctrl)) u = none ∧ (taken s m
      (hadr (.cvu u) .ctrl)).enabled (.cvu u) = false) ∧
    (∃ (m : Master) (u : Fin 16) (value : Word) (s : State),
      let a := pageBase (.cvu u) + Reg.CVU_CVU_CLOSE
      let b := taken s m a
      Accepts s m a ∧ fbit value 0 = true ∧ cvuOn b u = true ∧ cvuWindow b u = 2) := by
  refine ⟨?_, ?_⟩
  · let m : Master := .surveyor
    let u : Fin 16 := 15
    let s : State := ((up live (.cvu 15)).setPf (.cvu 15) Reg.CVU_CVU_RECT_SIZE 29 16 1).setPf (.cvu 15)
      Reg.CVU_CVU_RECT_SIZE 13 0 1
    refine ⟨m, u, s, ?_⟩
    unfold Accepts
    decide +kernel +revert
  · let m : Master := .surveyor
    let u : Fin 16 := 0
    let value : Word := 1
    let s : State := (on live (.cvu 0)).setPf (.cvu 0) Reg.CVU_CVU_CFG 6 4 2
    refine ⟨m, u, value, s, ?_⟩
    unfold Accepts
    decide +kernel +revert

/-- The hypotheses of Obligations.FabricLinks hold together. -/
theorem witness_FabricLinks :
    (∃ (link : Fin 40) (failed : Fin 5) (s : State),
      s.mode.mode ≠ .held ∧ linkOk link = true ∧ 0 < failed.val ∧ failed.val < 4) ∧
    (∃ (link : Fin 40) (s : State),
      s.mode.mode ≠ .held ∧ linkOk link = true ∧ s.pf .fabric (sparedAt link).1 (sparedAt link).2 (sparedAt link).2
      ≠ 1) ∧
    (∃ (link : Fin 40) (s : State),
      s.mode.mode ≠ .held ∧ linkOk link = true ∧ s.pf .fabric (sparedAt link).1 (sparedAt link).2 (sparedAt link).2
      = 1) ∧
    (∃ (link : Nat) (n : Nat) (s : State),
      armed s .fabric 0x11 = some (link, n) ∧ linkOk link = true) ∧
    (∃ (link : Nat) (n : Nat) (s : State),
      armed s .fabric 0x13 = some (link, n) ∧ linkOk link = true) ∧
    (∃ (x : Nat × Nat) (s : State),
      armed s .fabric 0x10 = some x) ∧
    (∃ (x : Nat × Nat) (s : State),
      armed s .fabric 0x12 = some x) ∧
    (∃ (port : Fin 2) (x : Nat × Nat) (s : State),
      armed s (.hostif port) 0x20 = some x) := by
  refine ⟨?_, ?_, ?_, ?_, ?_, ?_, ?_, ?_⟩
  · let link : Fin 40 := 0x1A
    let failed : Fin 5 := 3
    let s : State := live
    refine ⟨link, failed, s, ?_⟩
    decide +kernel +revert
  · let link : Fin 40 := 0x27
    let s : State := live
    refine ⟨link, s, ?_⟩
    decide +kernel +revert
  · let link : Fin 40 := 0x20
    let s : State := live.setPf .fabric Reg.FABRIC_LINK_SPARED_HI 0 0 1
    refine ⟨link, s, ?_⟩
    decide +kernel +revert
  · let link : Nat := 5
    let n : Nat := 0
    let s : State := arm live .fabric 0x11 5 0
    refine ⟨link, n, s, ?_⟩
    decide +kernel +revert
  · let link : Nat := 5
    let n : Nat := 3
    let s : State := arm live .fabric 0x13 5 3
    refine ⟨link, n, s, ?_⟩
    decide +kernel +revert
  · let x : Nat × Nat := (5, 0)
    let s : State := arm live .fabric 0x10 5 0
    refine ⟨x, s, ?_⟩
    decide +kernel +revert
  · let x : Nat × Nat := (5, 0)
    let s : State := arm live .fabric 0x12 5 0
    refine ⟨x, s, ?_⟩
    decide +kernel +revert
  · let port : Fin 2 := 1
    let x : Nat × Nat := (0, 0)
    let s : State := arm live (.hostif 1) 0x20 0 0
    refine ⟨port, x, s, ?_⟩
    decide +kernel +revert

/-- The hypotheses of Obligations.FaultsRaised hold together. -/
theorem witness_FaultsRaised :
    (∃ (p : Page) (b : Fin 32) (s : State),
      faultable s p = true ∧ faultDefined p b = true) ∧
    (∃ (p : Page) (s : State),
      pageOk p = true ∧ pageBody p = 0x100 ∧ s.mode.mode ≠ .held ∧ s.mode.mode ≠ .safe) ∧
    (∃ (m : Master) (p : Page) (value : Word) (s : State),
      pageOk p = true ∧ pageBody p = 0x100 ∧ Accepts s m (hadr p .inject) ∧ injectCheck (taken s m (hadr p .inject))
      p (fsetb value 31 true) = none) ∧
    (∃ (p : Page) (b : Nat) (x : Nat) (s : State),
      faultable s p = true ∧ armed s p 1 = some (b, x) ∧ faultDefined p b = true) ∧
    (∃ (p : Page) (x : Nat × Nat) (s : State),
      faultable s p = true ∧ armed s p 2 = some x ∧ s.mode.mode ≠ .safe) ∧
    (∃ (n : Fin 12) (s : State),
      s.hd (.dplink n) .faultStatus = 0 ∧ actionOf s (.dplink n) 3 < 2 ∧ s.log.queue.length < 1024) ∧
    (∃ (n : Fin 12) (s : State),
      s.hd (.dplink n) .faultStatus ≠ 0 ∧ fbit (s.hd (.dplink n) .faultStatus) 3 = false ∧ actionOf s (.dplink n) 3
      < 2 ∧ s.cyc.firsts.contains (pageBase (.dplink n)) = false) := by
  refine ⟨?_, ?_, ?_, ?_, ?_, ?_, ?_⟩
  · let p : Page := .memch 31
    let b : Fin 32 := 3
    let s : State := up live (.memch 31)
    refine ⟨p, b, s, ?_⟩
    decide +kernel +revert
  · let p : Page := .timing 0
    let s : State := up live (.timing 0)
    refine ⟨p, s, ?_⟩
    decide +kernel +revert
  · let m : Master := .surveyor
    let p : Page := .fabric
    let value : Word := 0x00031302
    let s : State := (up live .fabric).setPf .dev Reg.DEV_INJECT 0 0 1
    refine ⟨m, p, value, s, ?_⟩
    unfold Accepts
    decide +kernel +revert
  · let p : Page := .audio
    let b : Nat := 2
    let x : Nat := 0
    let s : State := arm (up live .audio) .audio 1 2 0
    refine ⟨p, b, x, s, ?_⟩
    decide +kernel +revert
  · let p : Page := .audio
    let x : Nat × Nat := (9, 0)
    let s : State := arm (up live .audio) .audio 2 9 0
    refine ⟨p, x, s, ?_⟩
    decide +kernel +revert
  · let n : Fin 12 := 11
    let s : State := (atMs live 5).setHd (.dplink 11) .action0 0
    refine ⟨n, s, ?_⟩
    decide +kernel +revert
  · let n : Fin 12 := 11
    let s : State := (live.setHd (.dplink 11) .action0 0).setHd (.dplink 11) .faultStatus 1
    refine ⟨n, s, ?_⟩
    decide +kernel +revert

/-- The hypotheses of Obligations.UnitInjections hold together. -/
theorem witness_UnitInjections :
    (∃ (n : Fin 12) (t0 : Nat) (k : Nat) (s : State),
      armed s (.dplink n) 0x30 = some (t0, k) ∧ (s.head n).auxQueued = true ∧ (s.head n).auxTries < 7) ∧
    (∃ (b : Fin 48) (x : Nat × Nat) (s : State),
      armed s (.bay b) 0x50 = some x ∧ bayFenced s b = false) ∧
    (∃ (n : Fin 12) (g : Fin 8192) (x : Nat × Nat) (gl : CellGlyph) (r : GlyphRes) (s : State),
      armed s .legend 0x70 = some x ∧ capturedGlyph s n g = some gl ∧ residentGlyph s gl = some r) ∧
    (∃ (n : Fin 12) (r : Fin 3) (line : Nat) (x : Nat) (run : Run) (s : State),
      armed s .veneer 0x71 = some (n.val, x) ∧ run ∈ (s.head n).runs ∧ run.idx = r.val ∧ runReads run line = true ∧
      line < (s.head n).raster.vActive) ∧
    (∃ (m : Master) (k : Fin 16) (s : State),
      let a := pageBase .kerf + Reg.KERF_STAT_CFG + 0x80 * k.val
      Accepts s m a) := by
  refine ⟨?_, ?_, ?_, ?_, ?_⟩
  · let n : Fin 12 := 3
    let t0 : Nat := 0
    let k : Nat := 2
    let s : State := arm (live.setHead 3 { live.head 3 with auxQueued := true }) (.dplink 3) 0x30 0 2
    refine ⟨n, t0, k, s, ?_⟩
    decide +kernel +revert
  · let b : Fin 48 := 47
    let x : Nat × Nat := (0, 0)
    let s : State := arm (up live (.bay 47)) (.bay 47) 0x50 0 0
    refine ⟨b, x, s, ?_⟩
    decide +kernel +revert
  · let n : Fin 12 := 2
    let g : Fin 8192 := 7
    let x : Nat × Nat := (0, 0)
    let gl : CellGlyph := { x := 0, glyph := 7, words := [1, 2, 3, 4] }
    let r : GlyphRes := { glyph := 7, words := [1, 2, 3, 4], bytes := [] }
    let s : State :=
      let s := arm (up live .legend) .legend 0x70 0 0
      { s with legend := { s.legend with snaps := [{ head := 2, row := 0, cells := [{ col := 0, tint := 0, glyphs := [{ x := 0, glyph := 7, words := [1, 2, 3, 4] }] }] }], cache := [{ glyph := 7, words := [1, 2, 3, 4], bytes := [] }] } }
    refine ⟨n, g, x, gl, r, s, ?_⟩
    decide +kernel +revert
  · let n : Fin 12 := 2
    let r : Fin 3 := 1
    let line : Nat := 0
    let x : Nat := 0
    let run : Run := { idx := 1, layers := [1], bg := ⟨0, 0, 0⟩, building := false, usable := true, states := [(0, .empty)], rows := [], held := [], fallback := [] }
    let s : State :=
      let s := arm (up live .veneer) .veneer 0x71 2 0
      s.setHead 2 { s.head 2 with raster := { vActive := 8 }, runs := [{ idx := 1, layers := [1], bg := ⟨0, 0, 0⟩, building := false, usable := true, states := [(0, .empty)], rows := [], held := [], fallback := [] }] }
    refine ⟨n, r, line, x, run, s, ?_⟩
    decide +kernel +revert
  · let m : Master := .surveyor
    let k : Fin 16 := 15
    let s : State := (up live .kerf).setPr .kerf (Reg.KERF_STAT_CFG + 0x80 * 15 + 4) 9
    refine ⟨m, k, s, ?_⟩
    unfold Accepts
    decide +kernel +revert

/-- The hypotheses of Obligations.WorldSwitches hold together. -/
theorem witness_WorldSwitches :
    (∃ (c : Fin 8) (s : State),
      coreRuns s c = true ∧ isHwCore s c = false ∧ worldBit s c = false) ∧
    (∃ (c : Fin 8) (s : State),
      coreRuns s c = true ∧ isHwCore s c = false ∧ worldBit s c = true ∧ (s.core c).mpp ≠ .m) ∧
    (∃ (c : Nat) (s : State),
      secureTarget s = some c ∧ irqNext s secureSource ≠ 0) ∧
    (∃ (c : Fin 8) (s : State),
      isHwCore s c = false ∧ worldBit s c = false ∧ coreRuns s c = true ∧ bit (s.pf .ctrlcplx
      Reg.CTRLCPLX_SAP_IRQ_TARGET 7 0) c = true ∧ irqNext s normalSource ≠ 0) := by
  refine ⟨?_, ?_, ?_, ?_⟩
  · let c : Fin 8 := 7
    let s : State := up (cores live) .world
    refine ⟨c, s, ?_⟩
    decide +kernel +revert
  · let c : Fin 8 := 7
    let s : State :=
      let s := (cores live).setPr .world Reg.WORLD_CORE_WORLD 0x81
      s.setCore 7 { s.core 7 with mode := .m, mpp := .hs, mepc := 0x8004 }
    refine ⟨c, s, ?_⟩
    decide +kernel +revert
  · let c : Nat := 3
    let s : State := ((up (cores live) .world).setPr .world Reg.WORLD_SEC_IRQ_TARGET 0x08).setHd .world .irqStatus 1
      |>.setHd .world .irqEnable 1
    refine ⟨c, s, ?_⟩
    decide +kernel +revert
  · let c : Fin 8 := 7
    let s : State := ((up (cores live) .ctrlcplx).setPr .ctrlcplx Reg.CTRLCPLX_SAP_IRQ_TARGET 0x80).setHd .ctrlcplx
      .owner 0x42 |>.setHd .ctrlcplx .irqStatus 1 |>.setHd .ctrlcplx .irqEnable 1
    refine ⟨c, s, ?_⟩
    decide +kernel +revert

/-- The hypotheses of Obligations.HeartwoodRecovery hold together. -/
theorem witness_HeartwoodRecovery :
    (∃ (c : Fin 8) (s : State),
      isHwCore s c = false ∧ worldBit s c = true ∧ coreRuns s c = true ∧ budgetOver s c = true) ∧
    (∃ (c : Fin 8) (s : State),
      isHwCore s c = true ∧ coreRuns s c = true ∧ restarting s = false ∧ wdogOver s c = true) ∧
    (∃ (c : Fin 8) (s : State),
      coreRuns s c = true ∧ worldBit s c = true) ∧
    (∃ (c : Fin 8) (s : State),
      coreFenced s c = false) ∧
    (∃ (m : Master) (value : Word) (s : State),
      Accepts s m (pageBase .world + Reg.WORLD_HW_CTRL) ∧ fbit value 0 = true) ∧
    (∃ (s : State),
      s.cpx.step = .quiesce) ∧
    (∃ (s : State),
      s.cpx.step = .clear ∧ s.cpx.manifest.clear = []) ∧
    (∃ (s : State),
      s.cpx.step = .measure ∧ (measure s).1.surv.hwLoaded = true ∧ (measure s).2 = false) ∧
    (∃ (s : State),
      s.cpx.step = .measure ∧ (measure s).1.surv.hwLoaded = true ∧ (measure s).2 = true) := by
  refine ⟨?_, ?_, ?_, ?_, ?_, ?_, ?_, ?_, ?_⟩
  · let c : Fin 8 := 7
    let s : State := atMs ((cores live).setPr .world Reg.WORLD_CORE_WORLD 0x81) 100
    refine ⟨c, s, ?_⟩
    decide +kernel +revert
  · let c : Fin 8 := 0
    let s : State := atMs (cores live) 70000
    refine ⟨c, s, ?_⟩
    decide +kernel +revert
  · let c : Fin 8 := 0
    let s : State := cores live
    refine ⟨c, s, ?_⟩
    decide +kernel +revert
  · let c : Fin 8 := 7
    let s : State := live
    refine ⟨c, s, ?_⟩
    decide +kernel +revert
  · let m : Master := .heartwood
    let value : Word := 1
    let s : State := cores (up live .world)
    refine ⟨m, value, s, ?_⟩
    unfold Accepts
    decide +kernel +revert
  · let s : State := { live with cpx := { live.cpx with step := .quiesce } }
    refine ⟨s, ?_⟩
    decide +kernel +revert
  · let s : State := { live with cpx := { live.cpx with step := .clear } }
    refine ⟨s, ?_⟩
    decide +kernel +revert
  · let s : State :=
      let s := cores live
      { s with cpx := { s.cpx with step := .measure, manifest := { clear := [], measure := [], digest := Config.sha384 [] + 1 } }, surv := { s.surv with hwLoaded := true } }
    refine ⟨s, ?_⟩
    have h : measure s = (s, Config.sha384 [] == s.cpx.manifest.digest) := rfl
    refine ⟨rfl, by rw [h], ?_⟩
    rw [h]
    exact beq_eq_false_iff_ne.mpr (Nat.ne_of_lt (Nat.lt_succ_self _))
  · let s : State :=
      let s := cores live
      { s with cpx := { s.cpx with step := .measure, manifest := { clear := [], measure := [], digest := Config.sha384 [] } }, surv := { s.surv with hwLoaded := true } }
    refine ⟨s, ?_⟩
    have h : measure s = (s, Config.sha384 [] == s.cpx.manifest.digest) := rfl
    refine ⟨rfl, by rw [h], ?_⟩
    rw [h]
    exact beq_self_eq_true _

/-- The hypotheses of Obligations.KicksAndSafeOk hold together. -/
theorem witness_KicksAndSafeOk :
    (∃ (m : Master) (value : Word) (s : State),
      Accepts s m (pageBase .world + Reg.WORLD_WDOG) ∧ fget value 31 16 ≠ 0) ∧
    (∃ (m : Master) (value : Word) (s : State),
      Accepts s m (pageBase .world + Reg.WORLD_WDOG) ∧ fget value 31 16 = 0) ∧
    (∃ (m : Master) (value : Word) (s : State),
      Accepts s m (pageBase .world + Reg.WORLD_SAFE_OK) ∧ fget value 31 16 ≠ 0) ∧
    (∃ (m : Master) (value : Word) (s : State),
      Accepts s m (pageBase .world + Reg.WORLD_SAFE_OK) ∧ fget value 31 16 ≠ 0) ∧
    (∃ (s : State),
      fbit (s.pr .world Reg.WORLD_SAFE_OK) 0 = true ∧ restarting s = false ∧ kickOver s = true) := by
  refine ⟨?_, ?_, ?_, ?_, ?_⟩
  · let m : Master := .heartwood
    let value : Word := 0x00100001
    let s : State := cores (up live .world)
    refine ⟨m, value, s, ?_⟩
    unfold Accepts
    decide +kernel +revert
  · let m : Master := .heartwood
    let value : Word := 1
    let s : State := cores (up live .world)
    refine ⟨m, value, s, ?_⟩
    unfold Accepts
    decide +kernel +revert
  · let m : Master := .heartwood
    let value : Word := 0xFFFF0002
    let s : State := cores (up live .world)
    refine ⟨m, value, s, ?_⟩
    unfold Accepts
    decide +kernel +revert
  · let m : Master := .heartwood
    let value : Word := 0xFFFF0003
    let s : State := cores (up live .world)
    refine ⟨m, value, s, ?_⟩
    unfold Accepts
    decide +kernel +revert
  · let s : State := atMs (live.setPr .world Reg.WORLD_SAFE_OK 0x00010001) 5
    refine ⟨s, ?_⟩
    decide +kernel +revert

/-- The hypotheses of Obligations.HeadLife hold together. -/
theorem witness_HeadLife :
    (∃ (m : Master) (n : Fin 12) (s : State),
      let a := hadr (.timing n) .ctrl
      Accepts s m a ∧ headEnableCheck (taken s m a) n = none ∧ (taken s m a).enabled (.timing n) = false) ∧
    (∃ (n : Fin 12) (s : State),
      (s.head n).pll = .locking ∧ loadIsShed s = false ∧ legacyOn s = false) ∧
    (∃ (n : Fin 12) (s : State),
      (s.head n).pll = .unlocked ∧ s.enabled (.timing n) = true ∧ loadIsShed s = false ∧ legacyOn s = false) ∧
    (∃ (m : Master) (n : Fin 12) (s : State),
      let a := hadr (.timing n) .ctrl
      Accepts s m a ∧ (taken s m a).enabled (.timing n) = true) ∧
    (∃ (n : Fin 12) (s : State),
      (s.head n).draining = true) ∧
    (∃ (n : Fin 12) (s : State),
      (s.head n).pll = .stopping ∧ s.b4.restarts.contains n.val = false ∧ fget (s.hd (.timing n) .ready) 15 8 ≠ 7) ∧
    (∃ (n : Fin 12) (s : State),
      (s.head n).pll = .locked) := by
  refine ⟨?_, ?_, ?_, ?_, ?_, ?_, ?_⟩
  · let m : Master := .surveyor
    let n : Fin 12 := 3
    let s : State := video live 3
    refine ⟨m, n, s, ?_⟩
    unfold Accepts
    decide +kernel +revert
  · let n : Fin 12 := 3
    let s : State :=
      let s := video live 3
      s.setHead 3 { s.head 3 with pll := .locking }
    refine ⟨n, s, ?_⟩
    decide +kernel +revert
  · let n : Fin 12 := 3
    let s : State :=
      let s := on (video live 3) (.timing 3)
      s.setHead 3 { s.head 3 with pll := .unlocked }
    refine ⟨n, s, ?_⟩
    decide +kernel +revert
  · let m : Master := .surveyor
    let n : Fin 12 := 3
    let s : State := running live 3
    refine ⟨m, n, s, ?_⟩
    unfold Accepts
    decide +kernel +revert
  · let n : Fin 12 := 3
    let s : State :=
      let s := running live 3
      s.setHead 3 { s.head 3 with draining := true }
    refine ⟨n, s, ?_⟩
    decide +kernel +revert
  · let n : Fin 12 := 3
    let s : State :=
      let s := video live 3
      s.setHead 3 { s.head 3 with pll := .stopping }
    refine ⟨n, s, ?_⟩
    decide +kernel +revert
  · let n : Fin 12 := 3
    let s : State := running live 3
    refine ⟨n, s, ?_⟩
    decide +kernel +revert

/-- The hypotheses of Obligations.HeadLatches hold together. -/
theorem witness_HeadLatches :
    (∃ (n : Fin 12) (s : State),
      (s.head n).running = true ∧ (s.head n).draining = false) ∧
    (∃ (n : Fin 12) (s : State),
      (s.head n).running = true ∧ s.enabled (.timing n) = true ∧ legacyOn s = false) ∧
    (∃ (n : Fin 12) (b : Fin 8) (s : State),
      (s.head n).running = true ∧ 1 ≤ b.val ∧ b.val < numBands s n) ∧
    (∃ (n : Fin 12) (s : State),
      s.enabled (.timing n) = false ∧ legacyOn s = false) := by
  refine ⟨?_, ?_, ?_, ?_⟩
  · let n : Fin 12 := 3
    let s : State := atMs (running live 3) 1
    refine ⟨n, s, ?_⟩
    decide +kernel +revert
  · let n : Fin 12 := 3
    let s : State :=
      let s := running live 3
      (s.setPend (.layer 3 4) (some { seq := 1, master := 0x41 })).setPend (.composer 3) (some { seq := 1, master := 0x41 })
    refine ⟨n, s, ?_⟩
    decide +kernel +revert
  · let n : Fin 12 := 3
    let b : Fin 8 := 7
    let s : State := put (running live 3) (.composer 3) [(Reg.COMPOSER_BAND_CFG, 8), (Reg.COMPOSER_BAND_START + 24,
      400)]
    refine ⟨n, b, s, ?_⟩
    decide +kernel +revert
  · let n : Fin 12 := 3
    let s : State := (video live 3).setPend (.timing 3) (some { seq := 1, master := 0x41 })
    refine ⟨n, s, ?_⟩
    decide +kernel +revert

/-- The hypotheses of Obligations.LinesAndCoefficients hold together. -/
theorem witness_LinesAndCoefficients :
    (∃ (n : Fin 12) (k : Fin 16) (line : Nat) (s : State) (x0 : Nat) (px : List Px),
      (s.head n).running = true ∧ line < (rasterInForce s n).vActive ∧ layerActive s n k = true ∧ (s.head
      n).paletteWait.contains k.val = false ∧ (visibleSpan s n k line).isSome = true ∧ k.val ≠ 14 ∧ (fetchLine s n k
      line).2 = .ok (x0, px)) ∧
    (∃ (n : Fin 12) (line : Nat) (s : State),
      (s.head n).running = true ∧ line < (s.head n).raster.vActive ∧ safePicture s = false) ∧
    (∃ (n : Fin 12) (k : Fin 16) (s : State) (b : List Nat),
      (s.head n).paletteWait.contains k.val = true ∧ (layerRead s n k (s.pair (.layer n k)
      Reg.LAYER_PALETTE_ADDR_LO) 1024).2 = .ok b) ∧
    (∃ (n : Fin 12) (r : Fin 3) (row : Nat) (s : State) (x : Run),
      (s.head n).runs.find? (fun x => x.idx == r.val) = some x ∧ s.fenced .veneer = false ∧ 8 * row < (s.head
      n).raster.vActive ∧ (∀ i < 8, 8 * row + i < (s.head n).raster.vActive → ∃ e ∈ x.held, e.1 = 8 * row + i)) ∧
    (∃ (m : Master) (k : Fin 16) (off : BitVec 11) (s : State),
      let a := 0x148000 + 0x800 * k.val + off.toNat / 4 * 4
      Accepts s m a ∧ coefPermits (taken s m a) m k = true ∧ off.toNat < 0x700 ∧ setInUse (taken s m a) k = false) := by
  refine ⟨?_, ?_, ?_, ?_, ?_⟩
  · let n : Fin 12 := 2
    let k : Fin 16 := 4
    let line : Nat := 7
    let s : State := mapped (put ((running live 2).setHd .kerf .ready 1) (.layer 2 4) [(Reg.LAYER_LAYER_CTRL, 1),
      (Reg.LAYER_LAYER_FORMAT, 2), (Reg.LAYER_BUF_ADDR_LO, 0x80000000), (Reg.LAYER_PITCH, 64), (Reg.LAYER_SRC_SIZE,
      0x00080010), (Reg.LAYER_LAYER_STATUS, 0xFF00)])
    let x0 : Nat := 0
    let px : List Px := List.replicate 16 (pxXrgb8888 0)
    refine ⟨n, k, line, s, x0, px, ?_⟩
    decide +kernel +revert
  · let n : Fin 12 := 2
    let line : Nat := 479
    let s : State := running live 2
    refine ⟨n, line, s, ?_⟩
    decide +kernel +revert
  · let n : Fin 12 := 2
    let k : Fin 16 := 5
    let s : State :=
      let s := put (mapped (running live 2)) (.layer 2 5) [(Reg.LAYER_LAYER_STATUS, 0xFF00), (Reg.LAYER_PALETTE_ADDR_LO, 0x80000000)]
      s.setHead 2 { s.head 2 with paletteWait := [5] }
    let b : List Nat := List.replicate 1024 0
    refine ⟨n, k, s, b, ?_⟩
    decide +kernel +revert
  · let n : Fin 12 := 2
    let r : Fin 3 := 0
    let row : Nat := 59
    let s : State :=
      let s := running (mapped (up live .veneer)) 2
      s.setHead 2 { s.head 2 with runs := [{ idx := 0, layers := [4], bg := {}, building := true, usable := true, states := [], rows := [], held := (List.range 8).map (fun i => (472 + i, [])), fallback := [] }] }
    let x : Run := { idx := 0, layers := [4], bg := {}, building := true, usable := true, states := [], rows := [], held := (List.range 8).map (fun i => (472 + i, [])), fallback := [] }
    refine ⟨n, r, row, s, x, ?_⟩
    decide +kernel +revert
  · let m : Master := .surveyor
    let k : Fin 16 := 15
    let off : BitVec 11 := 0x6FF
    let s : State := up live .scaler
    refine ⟨m, k, off, s, ?_⟩
    unfold Accepts
    decide +kernel +revert

/-- The hypotheses of Obligations.LayerTroubles hold together. -/
theorem witness_LayerTroubles :
    (∃ (n : Fin 12) (k : Fin 16) (s : State),
      layerActive s n k = true) ∧
    (∃ (n : Fin 12) (k : Fin 16) (s : State),
      layerActive s n k = true ∧ k.val ≠ 14) ∧
    (∃ (n : Fin 12) (r : Fin 3) (line : Nat) (s : State),
      (s.head n).runs.any (fun x => x.idx == r.val && runReads x line) = true ∧ line < (s.head n).raster.vActive) ∧
    (∃ (n : Fin 12) (r : Fin 3) (s : State),
      (s.head n).runs.any (fun x => x.idx == r.val) = true) ∧
    (∃ (n : Fin 12) (k : Fin 16) (s : State) (w : RetireWait),
      (s.head n).retires.find? (fun w => w.layer == k.val) = some w ∧ w.addr = 0) := by
  refine ⟨?_, ?_, ?_, ?_, ?_⟩
  · let n : Fin 12 := 2
    let k : Fin 16 := 4
    let s : State := put ((running live 2).setHd .kerf .ready 1) (.layer 2 4) [(Reg.LAYER_LAYER_CTRL, 1),
      (Reg.LAYER_LAYER_FORMAT, 2), (Reg.LAYER_BUF_ADDR_LO, 0x80000000), (Reg.LAYER_PITCH, 64), (Reg.LAYER_SRC_SIZE,
      0x00080010), (Reg.LAYER_LAYER_STATUS, 0xFF00)]
    refine ⟨n, k, s, ?_⟩
    decide +kernel +revert
  · let n : Fin 12 := 2
    let k : Fin 16 := 4
    let s : State := put ((running live 2).setHd .kerf .ready 1) (.layer 2 4) [(Reg.LAYER_LAYER_CTRL, 1),
      (Reg.LAYER_LAYER_FORMAT, 2), (Reg.LAYER_BUF_ADDR_LO, 0x80000000), (Reg.LAYER_PITCH, 64), (Reg.LAYER_SRC_SIZE,
      0x00080010), (Reg.LAYER_LAYER_STATUS, 0xFF00)]
    refine ⟨n, k, s, ?_⟩
    decide +kernel +revert
  · let n : Fin 12 := 2
    let r : Fin 3 := 1
    let line : Nat := 479
    let s : State :=
      let s := running (up live .veneer) 2
      s.setHead 2 { s.head 2 with runs := [{ idx := 1, layers := [1], bg := {}, building := true, usable := true, states := [(479, .empty)], rows := [], held := [], fallback := [] }] }
    refine ⟨n, r, line, s, ?_⟩
    decide +kernel +revert
  · let n : Fin 12 := 2
    let r : Fin 3 := 1
    let s : State :=
      let s := running (up live .veneer) 2
      s.setHead 2 { s.head 2 with runs := [{ idx := 1, layers := [1], bg := {}, building := true, usable := true, states := [(479, .empty)], rows := [], held := [], fallback := [] }] }
    refine ⟨n, r, s, ?_⟩
    decide +kernel +revert
  · let n : Fin 12 := 2
    let k : Fin 16 := 4
    let s : State :=
      let s := running live 2
      s.setHead 2 { s.head 2 with retires := [{ layer := 4, committer := 0xFF, addr := 0, value := 0 }] }
    let w : RetireWait := { layer := 4, committer := 0xFF, addr := 0, value := 0 }
    refine ⟨n, k, s, w, ?_⟩
    decide +kernel +revert

/-- The hypotheses of Obligations.LinksTrained hold together. -/
theorem witness_LinksTrained :
    (∃ (n : Fin 12) (s : State),
      mayTrain s n = true ∧ candidates s n ≠ []) ∧
    (∃ (n : Fin 12) (s : State) (c : Nat × Nat) (rest : List (Nat × Nat)),
      (s.head n).candidates = c :: rest ∧ c.1 < 8 ∧ c.2 < 4) ∧
    (∃ (n : Fin 12) (s : State) (c : Nat × Nat),
      (s.head n).candidates = [c]) ∧
    (∃ (n : Fin 12) (s : State),
      mayTrain s n = false) := by
  refine ⟨?_, ?_, ?_, ?_⟩
  · let n : Fin 12 := 1
    let s : State := put (on live (.dplink 1)) (.dplink 1) [(Reg.DPLINK_LINK_STATUS, 0x80000000),
      (Reg.DPLINK_LINK_CFG, 0x26), (Reg.DPLINK_SINK_CAPS, 0x26)]
    refine ⟨n, s, ?_⟩
    decide +kernel +revert
  · let n : Fin 12 := 1
    let s : State :=
      let s := put (on live (.dplink 1)) (.dplink 1) [(Reg.DPLINK_LINK_STATUS, 0x80000000), (Reg.DPLINK_LINK_CFG, 0x26), (Reg.DPLINK_SINK_CAPS, 0x26)]
      s.setHead 1 { s.head 1 with candidates := [(7, 3), (0, 0)] }
    let c : Nat × Nat := (7, 3)
    let rest : List (Nat × Nat) := [(0, 0)]
    refine ⟨n, s, c, rest, ?_⟩
    decide +kernel +revert
  · let n : Fin 12 := 1
    let s : State :=
      let s := put (on live (.dplink 1)) (.dplink 1) [(Reg.DPLINK_LINK_STATUS, 0x80000000), (Reg.DPLINK_LINK_CFG, 0x26), (Reg.DPLINK_SINK_CAPS, 0x26)]
      s.setHead 1 { s.head 1 with candidates := [(0, 0)] }
    let c : Nat × Nat := (0, 0)
    refine ⟨n, s, c, ?_⟩
    decide +kernel +revert
  · let n : Fin 12 := 1
    let s : State := live
    refine ⟨n, s, ?_⟩
    decide +kernel +revert

/-- The hypotheses of Obligations.EdidAndAux hold together. -/
theorem witness_EdidAndAux :
    (∃ (m : Master) (n : Fin 12) (s : State),
      let a := pageBase (.dplink n) + Reg.DPLINK_AUX_CTRL
      Accepts s m a ∧ auxGoCheck (taken s m a) n = none ∧ fbit ((taken s m a).pr (.dplink n) Reg.DPLINK_LINK_STATUS)
      31 = true) ∧
    (∃ (n : Fin 12) (s : State),
      (s.head n).auxQueued = true ∧ (s.head n).auxTries < 7) ∧
    (∃ (n : Fin 12) (s : State),
      (s.head n).auxQueued = true ∧ 7 ≤ (s.head n).auxTries) ∧
    (∃ (n : Fin 12) (s : State),
      (s.head n).auxQueued = true ∧ (s.head n).auxDrop = 0) ∧
    (∃ (n : Fin 12) (s : State),
      (s.head n).auxQueued = true ∧ 0 < (s.head n).auxDrop ∧ (s.head n).auxTries < 7) := by
  refine ⟨?_, ?_, ?_, ?_, ?_⟩
  · let m : Master := .surveyor
    let n : Fin 12 := 1
    let s : State := put (on live (.dplink 1)) (.dplink 1) [(Reg.DPLINK_LINK_STATUS, 0x80000000),
      (Reg.DPLINK_LINK_CFG, 0x26), (Reg.DPLINK_SINK_CAPS, 0x26)]
    refine ⟨m, n, s, ?_⟩
    unfold Accepts
    decide +kernel +revert
  · let n : Fin 12 := 1
    let s : State := live.setHead 1 { live.head 1 with auxQueued := true, auxTries := 6, auxDrop := 0 }
    refine ⟨n, s, ?_⟩
    decide +kernel +revert
  · let n : Fin 12 := 1
    let s : State := live.setHead 1 { live.head 1 with auxQueued := true, auxTries := 7, auxDrop := 0 }
    refine ⟨n, s, ?_⟩
    decide +kernel +revert
  · let n : Fin 12 := 1
    let s : State := live.setHead 1 { live.head 1 with auxQueued := true, auxTries := 6, auxDrop := 0 }
    refine ⟨n, s, ?_⟩
    decide +kernel +revert
  · let n : Fin 12 := 1
    let s : State := live.setHead 1 { live.head 1 with auxQueued := true, auxTries := 6, auxDrop := 1 }
    refine ⟨n, s, ?_⟩
    decide +kernel +revert

/-- The hypotheses of Obligations.PointRecords hold together. -/
theorem witness_PointRecords :
    (∃ (m : Master) (s : State),
      let a := hadr .legend .ctrl
      Accepts s m a ∧ legendEnableCheck (taken s m a) = none ∧ (taken s m a).enabled .legend = false) ∧
    (∃ (m : Master) (lo : Word) (s : State),
      let a := pageBase .legend + Reg.LEGEND_UPD_HI
      let u := taken s m a
      (m = .heartwood ∨ m = .sapwood) ∧ Accepts s m a ∧ u.staged m (a - 4) (a - 4) = [(a - 4, lo)]) ∧
    (∃ (m : Master) (r : PointRec) (s : State),
      s.legend.queue.find? (fun r => r.code == m.code) = some r ∧ staleRecord s r = none ∧ pointCheck s r = none) ∧
    (∃ (m : Master) (r : PointRec) (s : State),
      s.legend.queue.find? (fun r => r.code == m.code) = some r ∧ staleRecord s r = none ∧ pointCheck s r = some
      .bad ∧ r.job = none) ∧
    (∃ (r : PointRec) (rest : List PointRec) (b : List Nat) (s : State) (v : State),
      let a := ptBase s + 4 * bits r.word 17 0
      s.legend.accepted = r :: rest ∧ busRead (s.setLegend { s.legend with accepted := rest }) legendAgent false a 4
      = (v, .ok b) ∧ v.legend.accepted = rest) := by
  refine ⟨?_, ?_, ?_, ?_, ?_⟩
  · let m : Master := .surveyor
    let s : State := put (mapped (up live .legend)) .legend [(Reg.LEGEND_PT_BASE_LO, 0x40000000)]
    refine ⟨m, s, ?_⟩
    unfold Accepts
    decide +kernel +revert
  · let m : Master := .sapwood
    let lo : Word := 5
    let s : State :=
      let s := cores (put (mapped (on live .legend)) .legend [(Reg.LEGEND_PT_BASE_LO, 0x40000000), (Reg.LEGEND_PR_LO, 0), (Reg.LEGEND_PR_LO + 4, 0x4283FFFF), (Reg.LEGEND_SR_LO, 0), (Reg.LEGEND_SR_LO + 4, 0x42800FFF), (Reg.LEGEND_GR_LO, 0), (Reg.LEGEND_GR_LO + 4, 0x42801FFF)])
      s.stageWord .sapwood (pageBase .legend + Reg.LEGEND_UPD_LO) (pageBase .legend + Reg.LEGEND_UPD_LO) (pageBase .legend + Reg.LEGEND_UPD_LO) 5
    refine ⟨m, lo, s, ?_⟩
    unfold Accepts
    decide +kernel +revert
  · let m : Master := .sapwood
    let r : PointRec := { word := 0x3FFFF, code := 0x42, hadRange := true, job := none }
    let s : State :=
      let s := cores (put (mapped (on live .legend)) .legend [(Reg.LEGEND_PT_BASE_LO, 0x40000000), (Reg.LEGEND_PR_LO, 0), (Reg.LEGEND_PR_LO + 4, 0x4283FFFF), (Reg.LEGEND_SR_LO, 0), (Reg.LEGEND_SR_LO + 4, 0x42800FFF), (Reg.LEGEND_GR_LO, 0), (Reg.LEGEND_GR_LO + 4, 0x42801FFF)])
      s.setLegend { s.legend with queue := [{ word := 0x3FFFF, code := 0x42, hadRange := true, job := none }] }
    refine ⟨m, r, s, ?_⟩
    decide +kernel +revert
  · let m : Master := .sapwood
    let r : PointRec := { word := 0x1000000000000, code := 0x42, hadRange := true, job := none }
    let s : State :=
      let s := cores (put (mapped (on live .legend)) .legend [(Reg.LEGEND_PT_BASE_LO, 0x40000000), (Reg.LEGEND_PR_LO, 0), (Reg.LEGEND_PR_LO + 4, 0x4283FFFF), (Reg.LEGEND_SR_LO, 0), (Reg.LEGEND_SR_LO + 4, 0x42800FFF), (Reg.LEGEND_GR_LO, 0), (Reg.LEGEND_GR_LO + 4, 0x42801FFF)])
      s.setLegend { s.legend with queue := [{ word := 0x1000000000000, code := 0x42, hadRange := true, job := none }] }
    refine ⟨m, r, s, ?_⟩
    decide +kernel +revert
  · let r : PointRec := { word := 0x70003FFFF, code := 0x42, hadRange := true, job := none }
    let rest : List PointRec := []
    let b : List Nat := [0, 0, 0, 0]
    let s : State :=
      let s := cores (put (mapped (on live .legend)) .legend [(Reg.LEGEND_PT_BASE_LO, 0x40000000), (Reg.LEGEND_PR_LO, 0), (Reg.LEGEND_PR_LO + 4, 0x4283FFFF), (Reg.LEGEND_SR_LO, 0), (Reg.LEGEND_SR_LO + 4, 0x42800FFF), (Reg.LEGEND_GR_LO, 0), (Reg.LEGEND_GR_LO + 4, 0x42801FFF)])
      s.setLegend { s.legend with accepted := [{ word := 0x70003FFFF, code := 0x42, hadRange := true, job := none }] }
    let v : State := (busRead (s.setLegend { s.legend with accepted := [] }) legendAgent false (ptBase s + 4 *
      0x3FFFF) 4).1
    refine ⟨r, rest, b, s, v, ?_⟩
    decide +kernel +revert

/-- The hypotheses of Obligations.LegendTables hold together. -/
theorem witness_LegendTables :
    (∃ (m : Master) (t : Fin 3) (j : Fin 64) (v : Word) (s : State),
      let b := pageBase .legend + (rangeTable t).1
      let a := b + 8 * j.val
      let u := taken s m (a + 4)
      let lo := ((u.staged m b a).find? (fun w => w.1 == a)).elim (u.reg a) (·.2)
      Accepts s m (a + 4) ∧ j.val < (rangeTable t).2.1 ∧ rangeWriteOk (u.unstage m b) t j lo (v &&& 0xFFC3FFFF) =
      true) ∧
    (∃ (m : Master) (e : Fin 4096) (v : Word) (s : State),
      let a := 0x170000 + 16 * e.val
      let u := taken s m (a + 12)
      let w (k : Nat) : Word := (entryWords u m 0x170000 a v).getD k 0
      Accepts s m (a + 12) ∧ rangeOwned u 1 e m.code = true ∧ styleOk (w 0) (w 1) (w 2) v = true) ∧
    (∃ (m : Master) (e : Fin 4096) (s : State),
      let a := 0x170000 + 16 * e.val
      Accepts s m (a + 12) ∧ rangeOwned (taken s m (a + 12)) 1 e m.code = false) ∧
    (∃ (m : Master) (e : Fin 8192) (v : Word) (s : State),
      let a := 0x180000 + 16 * e.val
      let u := taken s m (a + 12)
      let w (k : Nat) : Word := (entryWords u m 0x180000 a v).getD k 0
      Accepts s m (a + 12) ∧ rangeOwned u 2 e m.code = true ∧ glyphOk (w 0) (w 2) = true) := by
  refine ⟨?_, ?_, ?_, ?_⟩
  · let m : Master := .surveyor
    let t : Fin 3 := 0
    let j : Fin 64 := 63
    let v : Word := 0x4183FFFF
    let s : State := (up live .legend).stageWord .surveyor (pageBase .legend + Reg.LEGEND_PR_LO) (pageBase .legend +
      Reg.LEGEND_PR_LO + 8 * 63) (pageBase .legend + Reg.LEGEND_PR_LO + 8 * 63) 0x20000
    refine ⟨m, t, j, v, s, ?_⟩
    unfold Accepts
    decide +kernel +revert
  · let m : Master := .sapwood
    let e : Fin 4096 := 0xFFF
    let v : Word := 0xFFFFFFFF
    let s : State := cores (put (mapped (on live .legend)) .legend [(Reg.LEGEND_PT_BASE_LO, 0x40000000),
      (Reg.LEGEND_PR_LO, 0), (Reg.LEGEND_PR_LO + 4, 0x4283FFFF), (Reg.LEGEND_SR_LO, 0), (Reg.LEGEND_SR_LO + 4,
      0x42800FFF), (Reg.LEGEND_GR_LO, 0), (Reg.LEGEND_GR_LO + 4, 0x42801FFF)])
    refine ⟨m, e, v, s, ?_⟩
    unfold Accepts
    decide +kernel +revert
  · let m : Master := .sapwood
    let e : Fin 4096 := 0xFFF
    let s : State := cores (up live .legend)
    refine ⟨m, e, s, ?_⟩
    unfold Accepts
    decide +kernel +revert
  · let m : Master := .sapwood
    let e : Fin 8192 := 0x1FFF
    let v : Word := 0xFFFFFFFF
    let s : State := cores (put (mapped (on live .legend)) .legend [(Reg.LEGEND_PT_BASE_LO, 0x40000000),
      (Reg.LEGEND_PR_LO, 0), (Reg.LEGEND_PR_LO + 4, 0x4283FFFF), (Reg.LEGEND_SR_LO, 0), (Reg.LEGEND_SR_LO + 4,
      0x42800FFF), (Reg.LEGEND_GR_LO, 0), (Reg.LEGEND_GR_LO + 4, 0x42801FFF)])
    refine ⟨m, e, v, s, ?_⟩
    unfold Accepts
    decide +kernel +revert

/-- The hypotheses of Obligations.LegendCaptures hold together. -/
theorem witness_LegendCaptures :
    (∃ (n : Fin 12) (r : Fin 540) (b : List Nat) (s : State) (v : State),
      let cols := visibleCols s n
      let a := s.pair (.layer n 14) Reg.LAYERL_CELLMAP_LO + r.val * fget (s.pr (.layer n 14) Reg.LAYERL_CM_PITCH) 15
        0
      layerActive s n 14 = true ∧ s.enabled .legend = true ∧ r.val < fget (s.pr (.layer n 14) Reg.LAYERL_LG_GRID) 25
      16 ∧ legendRowSpan s n r ≠ [] ∧ s.legend.accepted = [] ∧ ownerRead s (committer s n 14) legendAgent false (a +
      4 * cols.headD 0) (4 * cols.length) = (v, .ok b)) ∧
    (∃ (n : Fin 12) (g : Fin 8192) (gl : CellGlyph) (b : List Nat) (s : State) (v : State),
      let need := 1200 * glyphBytes gl.words
      let u := s.setLegend { s.legend with tokens := aset (65536 * 1200, 0) s.legend.tokens n (fillTokens s n - need, s.fclk) }
      capturedGlyph s n g = some gl ∧ residentGlyph s gl = none ∧ need ≤ fillTokens s n ∧ ownerRead u (bits
      (gl.words.getD 1 0) 31 24) legendAgent false (glyphAddr gl.words) (glyphBytes gl.words) = (v, .ok b) ∧
      cacheSize (makeRoom v (cdiv b.length 64 * 64) v.legend.cache) + cdiv b.length 64 * 64 ≤ 2097152) ∧
    (∃ (n : Fin 12) (g : Fin 8192) (gl : CellGlyph) (s : State),
      capturedGlyph s n g = some gl ∧ (residentGlyph s gl).isSome = true) ∧
    (∃ (n : Fin 12) (g : Fin 8192) (s : State),
      (capturedGlyph s n g).isSome = true) ∧
    (∃ (n : Fin 12) (r : Fin 540) (c : Fin 960) (sn : Snap) (b : List Nat) (s : State) (v : State),
      let a := s.pair (.layer n 14) Reg.LAYERL_CELLMAP_LO + r.val * fget (s.pr (.layer n 14) Reg.LAYERL_CM_PITCH) 15
        0 + 4 * c.val
      s.legend.snaps.find? (fun x => x.head == n.val && x.row == r.val) = some sn ∧ ownerRead s (committer s n 14)
      legendAgent false a 4 = (v, .ok b)) := by
  refine ⟨?_, ?_, ?_, ?_, ?_⟩
  · let n : Fin 12 := 2
    let r : Fin 540 := 0
    let b : List Nat := [0, 0, 0, 0]
    let s : State := put (running (put (mapped (on live .legend)) .legend [(Reg.LEGEND_PT_BASE_LO, 0x40000000),
      (Reg.LEGEND_PR_LO, 0), (Reg.LEGEND_PR_LO + 4, 0x4283FFFF), (Reg.LEGEND_SR_LO, 0), (Reg.LEGEND_SR_LO + 4,
      0x42800FFF), (Reg.LEGEND_GR_LO, 0), (Reg.LEGEND_GR_LO + 4, 0x42801FFF)]) 2) (.layer 2 14)
      [(Reg.LAYER_LAYER_CTRL, 1), (Reg.LAYER_LAYER_STATUS, 0xFF00), (Reg.LAYERL_LG_GRID, 0x00010001),
      (Reg.LAYERL_CELLMAP_LO, 0x70000000), (Reg.LAYERL_CM_PITCH, 4), (Reg.LAYERL_LG_FILL, 1200)]
    let v : State := (ownerRead s 0xFF legendAgent false 0x70000000 4).1
    refine ⟨n, r, b, s, v, ?_⟩
    decide +kernel +revert
  · let n : Fin 12 := 2
    let g : Fin 8192 := 7
    let gl : CellGlyph := { x := 0, glyph := 7, words := [0x50000000, 0xFF000000, 0, 0] }
    let b : List Nat := List.replicate (glyphBytes [0x50000000, 0xFF000000, 0, 0]) 0
    let s : State :=
      let s := put (running (put (mapped (on live .legend)) .legend [(Reg.LEGEND_PT_BASE_LO, 0x40000000), (Reg.LEGEND_PR_LO, 0), (Reg.LEGEND_PR_LO + 4, 0x4283FFFF), (Reg.LEGEND_SR_LO, 0), (Reg.LEGEND_SR_LO + 4, 0x42800FFF), (Reg.LEGEND_GR_LO, 0), (Reg.LEGEND_GR_LO + 4, 0x42801FFF)]) 2) (.layer 2 14) [(Reg.LAYER_LAYER_CTRL, 1), (Reg.LAYER_LAYER_STATUS, 0xFF00), (Reg.LAYERL_LG_GRID, 0x00010001), (Reg.LAYERL_CELLMAP_LO, 0x70000000), (Reg.LAYERL_CM_PITCH, 4), (Reg.LAYERL_LG_FILL, 1200)]
      s.setLegend { s.legend with snaps := [{ head := 2, row := 0, cells := [{ col := 0, tint := 0, glyphs := [{ x := 0, glyph := 7, words := [0x50000000, 0xFF000000, 0, 0] }] }] }] }
    let v : State :=
      let need := 1200 * glyphBytes gl.words
      let u := s.setLegend { s.legend with tokens := aset (65536 * 1200, 0) s.legend.tokens n (fillTokens s n - need, s.fclk) }
      (ownerRead u 0xFF legendAgent false 0x50000000 (glyphBytes gl.words)).1
    refine ⟨n, g, gl, b, s, v, ?_⟩
    decide +kernel +revert
  · let n : Fin 12 := 2
    let g : Fin 8192 := 7
    let gl : CellGlyph := { x := 0, glyph := 7, words := [0x50000000, 0xFF000000, 0, 0] }
    let s : State :=
      let s := put (running (put (mapped (on live .legend)) .legend [(Reg.LEGEND_PT_BASE_LO, 0x40000000), (Reg.LEGEND_PR_LO, 0), (Reg.LEGEND_PR_LO + 4, 0x4283FFFF), (Reg.LEGEND_SR_LO, 0), (Reg.LEGEND_SR_LO + 4, 0x42800FFF), (Reg.LEGEND_GR_LO, 0), (Reg.LEGEND_GR_LO + 4, 0x42801FFF)]) 2) (.layer 2 14) [(Reg.LAYER_LAYER_CTRL, 1), (Reg.LAYER_LAYER_STATUS, 0xFF00), (Reg.LAYERL_LG_GRID, 0x00010001), (Reg.LAYERL_CELLMAP_LO, 0x70000000), (Reg.LAYERL_CM_PITCH, 4), (Reg.LAYERL_LG_FILL, 1200)]
      s.setLegend { s.legend with snaps := [{ head := 2, row := 0, cells := [{ col := 0, tint := 0, glyphs := [{ x := 0, glyph := 7, words := [0x50000000, 0xFF000000, 0, 0] }] }] }], cache := [{ glyph := 7, words := [0x50000000, 0xFF000000, 0, 0], bytes := [] }] }
    refine ⟨n, g, gl, s, ?_⟩
    decide +kernel +revert
  · let n : Fin 12 := 2
    let g : Fin 8192 := 7
    let s : State :=
      let s := put (running (put (mapped (on live .legend)) .legend [(Reg.LEGEND_PT_BASE_LO, 0x40000000), (Reg.LEGEND_PR_LO, 0), (Reg.LEGEND_PR_LO + 4, 0x4283FFFF), (Reg.LEGEND_SR_LO, 0), (Reg.LEGEND_SR_LO + 4, 0x42800FFF), (Reg.LEGEND_GR_LO, 0), (Reg.LEGEND_GR_LO + 4, 0x42801FFF)]) 2) (.layer 2 14) [(Reg.LAYER_LAYER_CTRL, 1), (Reg.LAYER_LAYER_STATUS, 0xFF00), (Reg.LAYERL_LG_GRID, 0x00010001), (Reg.LAYERL_CELLMAP_LO, 0x70000000), (Reg.LAYERL_CM_PITCH, 4), (Reg.LAYERL_LG_FILL, 1200)]
      s.setLegend { s.legend with snaps := [{ head := 2, row := 0, cells := [{ col := 0, tint := 0, glyphs := [{ x := 0, glyph := 7, words := [0x50000000, 0xFF000000, 0, 0] }] }] }], cache := [{ glyph := 7, words := [0x50000000, 0xFF000000, 0, 0], bytes := [] }] }
    refine ⟨n, g, s, ?_⟩
    decide +kernel +revert
  · let n : Fin 12 := 2
    let r : Fin 540 := 0
    let c : Fin 960 := 0
    let sn : Snap := { head := 2, row := 0, cells := [{ col := 0, tint := 0, glyphs := [{ x := 0, glyph := 7, words := [0x50000000, 0xFF000000, 0, 0] }] }] }
    let b : List Nat := [0, 0, 0, 0]
    let s : State :=
      let s := put (running (put (mapped (on live .legend)) .legend [(Reg.LEGEND_PT_BASE_LO, 0x40000000), (Reg.LEGEND_PR_LO, 0), (Reg.LEGEND_PR_LO + 4, 0x4283FFFF), (Reg.LEGEND_SR_LO, 0), (Reg.LEGEND_SR_LO + 4, 0x42800FFF), (Reg.LEGEND_GR_LO, 0), (Reg.LEGEND_GR_LO + 4, 0x42801FFF)]) 2) (.layer 2 14) [(Reg.LAYER_LAYER_CTRL, 1), (Reg.LAYER_LAYER_STATUS, 0xFF00), (Reg.LAYERL_LG_GRID, 0x00010001), (Reg.LAYERL_CELLMAP_LO, 0x70000000), (Reg.LAYERL_CM_PITCH, 4), (Reg.LAYERL_LG_FILL, 1200)]
      s.setLegend { s.legend with snaps := [{ head := 2, row := 0, cells := [{ col := 0, tint := 0, glyphs := [{ x := 0, glyph := 7, words := [0x50000000, 0xFF000000, 0, 0] }] }] }] }
    let v : State := (ownerRead s 0xFF legendAgent false 0x70000000 4).1
    refine ⟨n, r, c, sn, b, s, v, ?_⟩
    decide +kernel +revert

/-- The hypotheses of Obligations.WindowRegisters hold together. -/
theorem witness_WindowRegisters :
    (∃ (s : State),
      WindowTakes s) ∧
    (∃ (v : Word) (s : State),
      WindowTakes s ∧ fget v 11 0 ≠ 0 ∧ fget v 19 16 ≠ 0) ∧
    (∃ (v : Word) (s : State),
      WindowTakes s ∧ (fget v 11 0 = 0 ∨ fget v 19 16 = 0)) ∧
    (∃ (v : Word) (s : State),
      let u := beginAccess s (.func 0)
      WindowTakes s ∧ fbit v 31 = false ∧ fbit v 1 = true ∧ fbit (u.b4r 4) 1 = false ∧ fbit v 2 = fbit (u.b4r 4) 2 ∧
      fbit v 3 = fbit (u.b4r 4) 3) ∧
    (∃ (e : Nat) (rest : List Nat) (s : State),
      let u := beginAccess s (.func 0)
      legacyOn s = true ∧ masterThere s (.func 0) = true ∧ u.ready .legacy = true ∧ u.b4.keyFifo = e :: rest) ∧
    (∃ (s : State),
      let u := beginAccess s (.func 0)
      WindowTakes s ∧ fbit (u.b4r 4) 2 = true ∧ deFree u ≠ 0 ∧ u.b4.deError = false ∧ u.enabled .legacy = false) ∧
    (∃ (v : Word) (s : State),
      let u := beginAccess s (.func 0)
      let wr := u.pf .legacy Reg.LEGACY_DE_RING_WR 13 0
      let w := { u with b4 := { u.b4 with deFifo := [v], deBusy := true } }
      WindowTakes s ∧ fbit (u.b4r 4) 2 = true ∧ deFree u ≠ 0 ∧ u.b4.deError = false ∧ u.enabled .legacy = true ∧
      u.b4.deFifo = [] ∧ (wr + 1) % 16384 ≠ u.pf .legacy Reg.LEGACY_DE_RING_RD 13 0 ∧ (busWrite w 0x17 false
      (deRingAddr u wr) (leBytes 4 v.toNat)).2 = .ok ()) ∧
    (∃ (s : State),
      let u := beginAccess s (.func 0)
      WindowTakes s ∧ (fbit (u.b4r 4) 2 = false ∨ deFree u = 0)) ∧
    (∃ (v : Word) (s : State),
      let u := beginAccess s (.func 0)
      WindowTakes s ∧ fbit v 31 = false ∧ fbit v 2 = false ∧ fbit (u.b4r 4) 2 = true ∧ fbit v 1 = fbit (u.b4r 4) 1 ∧
      fbit v 3 = fbit (u.b4r 4) 3) := by
  refine ⟨?_, ?_, ?_, ?_, ?_, ?_, ?_, ?_, ?_⟩
  · let s : State := old
    refine ⟨s, ?_⟩
    unfold WindowTakes
    decide +kernel +revert
  · let v : Word := 0x000F0001
    let s : State := old
    refine ⟨v, s, ?_⟩
    unfold WindowTakes
    decide +kernel +revert
  · let v : Word := 0x000F0000
    let s : State := old
    refine ⟨v, s, ?_⟩
    unfold WindowTakes
    decide +kernel +revert
  · let v : Word := 2
    let s : State := old
    refine ⟨v, s, ?_⟩
    unfold WindowTakes
    decide +kernel +revert
  · let e : Nat := 5
    let rest : List Nat := [6]
    let s : State := { old with b4 := { old.b4 with keyFifo := [5, 6] } }
    refine ⟨e, rest, s, ?_⟩
    decide +kernel +revert
  · let s : State := old.setB4 4 4
    refine ⟨s, ?_⟩
    unfold WindowTakes
    decide +kernel +revert
  · let v : Word := 0xFFFFFFFF
    let s : State := ((drawing []).setHd .legacy .ctrl 1).setB4 4 4
    refine ⟨v, s, ?_⟩
    unfold WindowTakes
    decide +kernel +revert
  · let s : State := old
    refine ⟨s, ?_⟩
    unfold WindowTakes
    decide +kernel +revert
  · let v : Word := 1
    let s : State :=
      let s := old.setB4 4 4
      { s with b4 := { s.b4 with deFifo := [1], deError := true } }
    refine ⟨v, s, ?_⟩
    unfold WindowTakes
    decide +kernel +revert

/-- The hypotheses of Obligations.WindowHeads hold together. -/
theorem witness_WindowHeads :
    (∃ (h : Fin 4) (r : Fin 16) (s : State),
      let u := beginAccess s (.func 0)
      WindowTakes s ∧ headMask r ≠ 0 ∧ r.val ≠ 0 ∧ r.val ≠ 5 ∧ u.b4.cutoff.contains h.val = true) ∧
    (∃ (h : Fin 4) (s : State),
      let u := beginAccess s (.func 0)
      WindowTakes s ∧ u.b4.cutoff.contains h.val = false) ∧
    (∃ (h : Fin 4) (s : State),
      legacyOn s = true ∧ (s.head h).running = true ∧ s.enabled (.timing h) = true) ∧
    (∃ (h : Fin 4) (v : Word) (s : State),
      let u := beginAccess s (.func 0)
      WindowTakes s ∧ fbit v 0 = true ∧ u.enabled (.timing h) = true ∧ fbit v 1 = fbit (hb u h 0) 1 ∧ fbit v 2 =
      fbit (hb u h 0) 2 ∧ fbit v 5 = fbit (hb u h 0) 5) ∧
    (∃ (h : Fin 4) (v : Word) (s : State),
      let u := beginAccess s (.func 0)
      let w := u.setB4 (0x100 + 0x40 * h.val) (v &&& 0x27)
      let x := { w with b4 := { w.b4 with restarts := w.b4.restarts.filter (fun k => k != h.val) } }
      let y := b4Enable (b4Enable x h (.dplink h) false) h (.composer h) false
      WindowTakes s ∧ fbit v 0 = false ∧ refusalOf y (.func 0) (hadr (.timing h) .ctrl) = none ∧ fbit v 1 = fbit (hb
      u h 0) 1 ∧ fbit v 2 = fbit (hb u h 0) 2 ∧ fbit v 5 = fbit (hb u h 0) 5) ∧
    (∃ (h : Fin 4) (v : Word) (c0 : Word) (c1 : Word) (s : State),
      let u := beginAccess s (.func 0)
      let w := u.setB4 (0x114 + 0x40 * h.val) v
      let a := pageBase (.timing h) + Reg.TIMING_PLL_CFG0
      WindowTakes s ∧ fbit (hb u h 0) 0 = false ∧ u.b4.restarts.contains h.val = false ∧ b4Pll v.toNat = some (c0,
      c1) ∧ refusalOf w (.func 0) a = none ∧ u.enabled (.timing h) = false ∧ u.busy (.timing h) = false ∧ v.toNat *
      cdiv 5400000000 (v.toNat * 1000) ≤ 10800000 ∧ pllCfgOk c0 c1 = true) ∧
    (∃ (v : Word) (s : State),
      let u := beginAccess s (.func 0)
      WindowTakes s ∧ fbit v 31 = true ∧ fbit (u.b4r 4) 3 = true ∧ toneClaimed u 7 = false) ∧
    (∃ (s : State),
      beepSounds s = true ∧ s.b4.beepLeft ≤ 1) ∧
    (∃ (s : State),
      intaOn s = true ∧ (s.hport 0).inta = false) ∧
    (∃ (s : State),
      intaOn s = false ∧ (s.hport 0).inta = true) := by
  refine ⟨?_, ?_, ?_, ?_, ?_, ?_, ?_, ?_, ?_, ?_⟩
  · let h : Fin 4 := 3
    let r : Fin 16 := 14
    let s : State := { old with b4 := { old.b4 with cutoff := [3] } }
    refine ⟨h, r, s, ?_⟩
    unfold WindowTakes
    decide +kernel +revert
  · let h : Fin 4 := 3
    let s : State := old
    refine ⟨h, s, ?_⟩
    unfold WindowTakes
    decide +kernel +revert
  · let h : Fin 4 := 3
    let s : State := running old 3
    refine ⟨h, s, ?_⟩
    decide +kernel +revert
  · let h : Fin 4 := 3
    let v : Word := 0xFFFFFFD9
    let s : State := running old 3
    refine ⟨h, v, s, ?_⟩
    unfold WindowTakes
    decide +kernel +revert
  · let h : Fin 4 := 3
    let v : Word := 0xFFFFFFD8
    let s : State := (running old 3).setHd (.timing 3) .owner 0
    refine ⟨h, v, s, ?_⟩
    unfold WindowTakes
    decide +kernel +revert
  · let h : Fin 4 := 3
    let v : Word := 27000
    let c0 : Word := 0x00C80036
    let c1 : Word := 0
    let s : State := (up old (.timing 3)).setHd (.timing 3) .owner 0
    refine ⟨h, v, c0, c1, s, ?_⟩
    unfold WindowTakes
    decide +kernel +revert
  · let v : Word := 0x8000000F
    let s : State := (up old .audio).setB4 4 8
    refine ⟨v, s, ?_⟩
    unfold WindowTakes
    decide +kernel +revert
  · let s : State :=
      let s := (up old .audio).setB4 4 8
      let s := (s.setB4 0x800 0x40000000)
      { (s.setPf .audio (Reg.AUDIO_TONE_CTRL + 224) 31 31 1) with b4 := { s.b4 with beepLeft := 1 } }
    refine ⟨s, ?_⟩
    decide +kernel +revert
  · let s : State := ((old.setB4 8 2).setB4 0xC 2).setB4 4 1
    refine ⟨s, ?_⟩
    decide +kernel +revert
  · let s : State := old.setHport 0 { old.hport 0 with inta := true }
    refine ⟨s, ?_⟩
    decide +kernel +revert

/-- The hypotheses of Obligations.DrawEngine hold together. -/
theorem witness_DrawEngine :
    (∃ (o : Nat) (s : State),
      let w := deWord s 0
      let g (i : Nat) := deWord s (i + 1)
      let u := { s with b4 := { s.b4 with taken := (s.b4.taken + 6) % 16384 } }
      deRuntime s = true ∧ 5 < deUntaken s ∧ deHeaderOk w 1 5 = true ∧ hi16 (g 3) = 1 ∧ lo16 (g 3) = 1 ∧ dePixel u
      (deBpp w) (g 0) (g 1) (hi16 (g 2)) (lo16 (g 2)) = some o) ∧
    (∃ (o : Nat) (v : Nat) (s : State),
      let w := deWord s 0
      let g (i : Nat) := deWord s (i + 1)
      let u := { s with b4 := { s.b4 with taken := (s.b4.taken + 8) % 16384 } }
      deRuntime s = true ∧ 7 < deUntaken s ∧ deHeaderOk w 2 7 = true ∧ hi16 (g 6) = 1 ∧ lo16 (g 6) = 1 ∧ deRead u
      (deBpp w) (g 0) (g 1) (hi16 (g 4)) (lo16 (g 4)) = some v ∧ dePixel u (deBpp w) (g 2) (g 3) (hi16 (g 5)) (lo16
      (g 5)) = some o) ∧
    (∃ (o : Nat) (s : State),
      let w := deWord s 0
      let g (i : Nat) := deWord s (i + 1)
      let x := sext (hi16 (g 2)) 16
      let y := sext (lo16 (g 2)) 16
      let u := { s with b4 := { s.b4 with taken := (s.b4.taken + 8) % 16384 } }
      deRuntime s = true ∧ 7 < deUntaken s ∧ deHeaderOk w 3 7 = true ∧ bit w 17 = false ∧ g 3 = g 2 ∧ sext (hi16 (g
      5)) 16 ≤ x ∧ x ≤ sext (hi16 (g 6)) 16 ∧ sext (lo16 (g 5)) 16 ≤ y ∧ y ≤ sext (lo16 (g 6)) 16 ∧ dePixel u (deBpp
      w) (g 0) (g 1) x y = some o) ∧
    (∃ (o : Nat) (b : Nat) (s : State),
      let w := deWord s 0
      let g (i : Nat) := deWord s (i + 1)
      let u := { s with b4 := { s.b4 with taken := (s.b4.taken + 9) % 16384 } }
      deRuntime s = true ∧ 8 < deUntaken s ∧ deHeaderOk w 4 8 = true ∧ hi16 (g 5) = 1 ∧ lo16 (g 5) = 1 ∧ deRead u 1
      (g 0) (g 1) 0 0 = some b ∧ bit w 18 = false ∧ dePixel u (deBpp w) (g 2) (g 3) (hi16 (g 4)) (lo16 (g 4)) = some
      o) ∧
    (∃ (m : Master) (s : State),
      let a := pageBase .legacy + Reg.LEGACY_DE_REPORT
      Accepts s m a) ∧
    (∃ (m : Master) (s : State),
      let a := pageBase .legacy + Reg.LEGACY_DE_REPORT
      Accepts s m a) ∧
    (∃ (m : Master) (s : State),
      let a := pageBase .legacy + Reg.LEGACY_DE_RING_RD
      Accepts s m a ∧ (taken s m a).b4.deFifo = []) ∧
    (∃ (s : State),
      legacyOn s = true ∧ s.b4.deBusy = true ∧ s.b4.deFifo = [] ∧ s.pf .legacy Reg.LEGACY_DE_RING_WR 13 0 = s.pf
      .legacy Reg.LEGACY_DE_RING_RD 13 0) := by
  refine ⟨?_, ?_, ?_, ?_, ?_, ?_, ?_, ?_⟩
  · let o : Nat := 0x40010
    let s : State := drawing [0x01010005, 0x40000, 0x100, 0x00040000, 0x00010001, 0xFFFFFFFF]
    refine ⟨o, s, ?_⟩
    decide +kernel +revert
  · let o : Nat := 0x40000
    let v : Nat := 0
    let s : State := drawing [0x02010007, 0, 0x100, 0x40000, 0x100, 0, 0, 0x00010001]
    refine ⟨o, v, s, ?_⟩
    decide +kernel +revert
  · let o : Nat := 0x40000
    let s : State := drawing [0x03010007, 0x40000, 0x100, 0, 0, 0xFFFFFFFF, 0, 0x00010001]
    refine ⟨o, s, ?_⟩
    decide +kernel +revert
  · let o : Nat := 0x40000
    let b : Nat := 0
    let s : State := drawing [0x04010008, 0, 0x100, 0x40000, 0x100, 0, 0x00010001, 0xFF, 0x7F]
    refine ⟨o, b, s, ?_⟩
    decide +kernel +revert
  · let m : Master := .sapwood
    let s : State := cores old
    refine ⟨m, s, ?_⟩
    unfold Accepts
    decide +kernel +revert
  · let m : Master := .sapwood
    let s : State := cores old
    refine ⟨m, s, ?_⟩
    unfold Accepts
    decide +kernel +revert
  · let m : Master := .sapwood
    let s : State := cores old
    refine ⟨m, s, ?_⟩
    unfold Accepts
    decide +kernel +revert
  · let s : State := { old with b4 := { old.b4 with deBusy := true } }
    refine ⟨s, ?_⟩
    decide +kernel +revert

/-- The hypotheses of Obligations.MemoryAccesses hold together. -/
theorem witness_MemoryAccesses :
    (∃ (agent : Fin 29) (sec : Bool) (addr : BitVec 48) (s : State),
      let plain (s : State) (agent : Nat) (sec : Bool) (addr : Nat) : Prop := isSecureSram addr = false ∧ addr <
        memTop s ∧ (watermarkAddr s ≤ addr ∨ sec = true ∨ wmExempt agent = true) ∧ mirrorOf s (addr / 64 * 64) =
        none ∧ s.mem.recq.length < 65536
      plain s agent sec addr.toNat ∧ (∀ k, k = 0x40 ∨ k = 0x41 ∨ k = 0x42 → armed s (.memch (chanOf s addr.toNat)) k
      = none)) ∧
    (∃ (agent : Fin 26) (sec : Bool) (addr : BitVec 48) (tg : Nat) (par : Nat) (s : State),
      let plain (s : State) (agent : Nat) (sec : Bool) (addr : Nat) : Prop := isSecureSram addr = false ∧ addr <
        memTop s ∧ (watermarkAddr s ≤ addr ∨ sec = true ∨ wmExempt agent = true) ∧ mirrorOf s (addr / 64 * 64) =
        none ∧ s.mem.recq.length < 65536
      plain s agent sec addr.toNat ∧ armed s (.memch (chanOf s addr.toNat)) 0x40 = some (tg, par) ∧ tg % 64 =
      addr.toNat % 64) ∧
    (∃ (agent : Fin 26) (sec : Bool) (addr : BitVec 48) (tg : Nat) (par : Nat) (s : State),
      let plain (s : State) (agent : Nat) (sec : Bool) (addr : Nat) : Prop := isSecureSram addr = false ∧ addr <
        memTop s ∧ (watermarkAddr s ≤ addr ∨ sec = true ∨ wmExempt agent = true) ∧ mirrorOf s (addr / 64 * 64) =
        none ∧ s.mem.recq.length < 65536
      plain s agent sec addr.toNat ∧ armed s (.memch (chanOf s addr.toNat)) 0x41 = some (tg, par) ∧ tg % 64 =
      addr.toNat % 64) ∧
    (∃ (agent : Fin 26) (sec : Bool) (addr : BitVec 48) (tg : Nat) (par : Nat) (s : State),
      let plain (s : State) (agent : Nat) (sec : Bool) (addr : Nat) : Prop := isSecureSram addr = false ∧ addr <
        memTop s ∧ (watermarkAddr s ≤ addr ∨ sec = true ∨ wmExempt agent = true) ∧ mirrorOf s (addr / 64 * 64) =
        none ∧ s.mem.recq.length < 65536
      plain s agent sec addr.toNat ∧ armed s (.memch (chanOf s addr.toNat)) 0x42 = some (tg, par) ∧ tg % 64 =
      addr.toNat % 64) ∧
    (∃ (agent : Fin 29) (sec : Bool) (addr : BitVec 48) (len : Fin 4097) (s : State),
      let plain (s : State) (agent : Nat) (sec : Bool) (addr : Nat) : Prop := isSecureSram addr = false ∧ addr <
        memTop s ∧ (watermarkAddr s ≤ addr ∨ sec = true ∨ wmExempt agent = true) ∧ mirrorOf s (addr / 64 * 64) =
        none ∧ s.mem.recq.length < 65536
      plain s agent sec addr.toNat ∧ len.val ≠ 0 ∧ addr.toNat % 64 + len.val ≤ 64 ∧ untouched s (addr.toNat / 4096)
      = false ∧ (∀ i < 64, isBad s (addr.toNat / 64 * 64 + i) = false)) ∧
    (∃ (agent : Fin 29) (addr : BitVec 48) (len : Fin 4097) (s : State),
      isSecureSram (addr.toNat / 64 * 64) = false ∧ addr.toNat / 64 * 64 < memTop s ∧ addr.toNat / 64 * 64 <
      watermarkAddr s ∧ wmExempt agent = false ∧ len.val ≠ 0) := by
  refine ⟨?_, ?_, ?_, ?_, ?_, ?_⟩
  · let agent : Fin 29 := 5
    let sec : Bool := false
    let addr : BitVec 48 := 0x4000003F
    let s : State := mapped live
    refine ⟨agent, sec, addr, s, ?_⟩
    refine ⟨by decide +kernel +revert, fun k hk => ?_⟩
    rcases hk with rfl | rfl | rfl <;> decide +kernel +revert
  · let agent : Fin 26 := 5
    let sec : Bool := false
    let addr : BitVec 48 := 0x4000003F
    let tg : Nat := 63
    let par : Nat := 7
    let s : State :=
      let s := mapped live
      arm s (.memch (chanOf s 0x4000003F)) 0x40 63 7
    refine ⟨agent, sec, addr, tg, par, s, ?_⟩
    decide +kernel +revert
  · let agent : Fin 26 := 5
    let sec : Bool := false
    let addr : BitVec 48 := 0x4000003F
    let tg : Nat := 63
    let par : Nat := 7
    let s : State :=
      let s := mapped live
      arm s (.memch (chanOf s 0x4000003F)) 0x41 63 7
    refine ⟨agent, sec, addr, tg, par, s, ?_⟩
    decide +kernel +revert
  · let agent : Fin 26 := 5
    let sec : Bool := false
    let addr : BitVec 48 := 0x4000003F
    let tg : Nat := 63
    let par : Nat := 7
    let s : State :=
      let s := mapped live
      arm s (.memch (chanOf s 0x4000003F)) 0x42 63 7
    refine ⟨agent, sec, addr, tg, par, s, ?_⟩
    decide +kernel +revert
  · let agent : Fin 29 := 5
    let sec : Bool := false
    let addr : BitVec 48 := 0x40000000
    let len : Fin 4097 := 64
    let s : State := fill (mapped live) 0x40000000 [1, 2, 3]
    refine ⟨agent, sec, addr, len, s, ?_⟩
    decide +kernel +revert
  · let agent : Fin 29 := 5
    let addr : BitVec 48 := 0x1000
    let len : Fin 4097 := 4096
    let s : State := put (mapped live) .world [(Reg.WORLD_HW_WATERMARK, 72)]
    refine ⟨agent, addr, len, s, ?_⟩
    decide +kernel +revert

/-- The hypotheses of Obligations.MemoryUpkeep hold together. -/
theorem witness_MemoryUpkeep :
    (∃ (addr : BitVec 48) (s : State),
      damageable s addr.toNat = true ∧ codeCurrent s (addr.toNat / 4096) = true) ∧
    (∃ (agent : Fin 29) (sec : Bool) (addr : BitVec 48) (s : State) (v : State) (b : List Nat),
      damageable s addr.toNat = true ∧ codeCurrent s (addr.toNat / 4096) = false ∧ busRead s agent sec (addr.toNat /
      64 * 64) 64 = (v, .ok b)) ∧
    (∃ (addr : BitVec 48) (k : Nat) (s : State),
      mirrorOf s addr.toNat = some (k, false)) ∧
    (∃ (e : RecodeEnt) (rest : List RecodeEnt) (s : State),
      s.mem.recq = e :: rest ∧ s.mem.bad.any (fun a => a / 4096 == e.page) = false) ∧
    (∃ (e : RecodeEnt) (rest : List RecodeEnt) (s : State),
      s.mem.recq = e :: rest ∧ s.mem.bad.any (fun a => a / 4096 == e.page) = true ∧ s.mem.held.length < 64) ∧
    (∃ (m : Master) (k : Fin 16) (v : Word) (w : Word) (s : State),
      let lo := pageBase .memctl + Reg.MEMCTL_MIR_LO + 8 * k.val
      let a := pageBase .memctl + Reg.MEMCTL_MIR_HI + 8 * k.val
      let u := taken s m a
      Accepts s m a ∧ mirWindowCheck u m k v = none ∧ fbit v 31 = true ∧ mirWindow u k = none ∧ u.staged m lo lo =
      [(lo, w)]) ∧
    (∃ (k : Fin 17) (s : State),
      primaryHalves s k ≠ []) ∧
    (∃ (m : Master) (k : Fin 32) (v : Word) (w : Word) (s : State),
      let lo := pageBase .shim + Reg.SHIM_SHIM_LO + 8 * k.val
      let a := pageBase .shim + Reg.SHIM_SHIM_HI + 8 * k.val
      let u := taken s m a
      Accepts s m a ∧ shimCheck u m k v = none ∧ u.staged m lo lo = [(lo, w)]) ∧
    (∃ (k : Fin 32) (s : State),
      shimValid s k = true ∧ s.pf .shim (Reg.SHIM_SHIM_HI + 8 * k.val) 30 30 = 0) := by
  refine ⟨?_, ?_, ?_, ?_, ?_, ?_, ?_, ?_, ?_⟩
  · let addr : BitVec 48 := 0x4000003F
    let s : State := mapped live
    refine ⟨addr, s, ?_⟩
    decide +kernel +revert
  · let agent : Fin 29 := 5
    let sec : Bool := false
    let addr : BitVec 48 := 0x4000003F
    let s : State :=
      let s := mapped live
      { s with mem := { s.mem with recq := [⟨0x40000, 0⟩] } }
    let v : State :=
      let s := mapped live
      let s : State := { s with mem := { s.mem with recq := [⟨0x40000, 0⟩] } }
      (busRead s agent sec (addr.toNat / 64 * 64) 64).1
    let b : List Nat := List.replicate 64 0
    refine ⟨agent, sec, addr, s, v, b, ?_⟩
    decide +kernel +revert
  · let addr : BitVec 48 := 0x4000003F
    let k : Nat := 3
    let s : State := put (mapped live) .memctl [(Reg.MEMCTL_MIR_LO + 24, 256), (Reg.MEMCTL_MIR_HI + 24, 0x80000001),
      (Reg.MEMCTL_MIRROR_STATUS, 8)]
    refine ⟨addr, k, s, ?_⟩
    decide +kernel +revert
  · let e : RecodeEnt := ⟨0x40000, 0⟩
    let rest : List RecodeEnt := []
    let s : State :=
      let s := fill (mapped live) 0x40000000 [7]
      { s with mem := { s.mem with recq := [⟨0x40000, 0⟩] } }
    refine ⟨e, rest, s, ?_⟩
    decide +kernel +revert
  · let e : RecodeEnt := ⟨0x40000, 0⟩
    let rest : List RecodeEnt := []
    let s : State :=
      let s := mapped live
      { s with mem := { s.mem with recq := [⟨0x40000, 0⟩], bad := [0x40000007] } }
    refine ⟨e, rest, s, ?_⟩
    decide +kernel +revert
  · let m : Master := .surveyor
    let k : Fin 16 := 15
    let v : Word := 0x80000001
    let w : Word := 256
    let s : State := (mapped live).stageWord .surveyor (pageBase .memctl + Reg.MEMCTL_MIR_LO + 8 * 15) (pageBase
      .memctl + Reg.MEMCTL_MIR_LO + 8 * 15) (pageBase .memctl + Reg.MEMCTL_MIR_LO + 8 * 15) 256
    refine ⟨m, k, v, w, s, ?_⟩
    unfold Accepts
    decide +kernel +revert
  · let k : Fin 17 := 15
    let s : State := put (mapped live) .memctl [(Reg.MEMCTL_MIR_LO + 120, 256), (Reg.MEMCTL_MIR_HI + 120, 0x80000001)]
    refine ⟨k, s, ?_⟩
    decide +kernel +revert
  · let m : Master := .surveyor
    let k : Fin 32 := 31
    let v : Word := 0x80000000
    let w : Word := 77
    let s : State := (mapped live).stageWord .surveyor (pageBase .shim + Reg.SHIM_SHIM_LO + 8 * 31) (pageBase .shim +
      Reg.SHIM_SHIM_LO + 8 * 31) (pageBase .shim + Reg.SHIM_SHIM_LO + 8 * 31) 77
    refine ⟨m, k, v, w, s, ?_⟩
    unfold Accepts
    decide +kernel +revert
  · let k : Fin 32 := 31
    let s : State := put (mapped live) .shim [(Reg.SHIM_SHIM_LO + 248, 77), (Reg.SHIM_SHIM_HI + 248, 0x80000000)]
    refine ⟨k, s, ?_⟩
    decide +kernel +revert

/-- The hypotheses of Obligations.MemoryTiming hold together. -/
theorem witness_MemoryTiming :
    (∃ (s : State),
      let k := s.pf .memctl Reg.MEMCTL_SCRUB_POS 19 0
      let v := (List.range 32).foldl (fun s j => scrubPage s (32 * k + j)) s
      s.mem.scrubWait = false ∧ stripes s ≠ 0 ∧ k + 1 < stripes v ∧ stripes v ≤ 2 ^ 20) ∧
    (∃ (s : State),
      s.mem.scrubWait = true ∧ s.mem.scrubStart + scrubPeriod s ≤ s.devtime) ∧
    (∃ (c : Fin 32) (i : Fin 10) (s : State),
      chStatus s c 15 12 + 1 - i.val < 8) ∧
    (∃ (c : Fin 32) (i : Fin 10) (s : State),
      8 ≤ chStatus s c 15 12 + 1 - i.val) ∧
    (∃ (c : Fin 32) (temp : BitVec 8) (s : State),
      s.mem.retrainDue = [] ∧ sext temp.toNat 8 - sext (s.pf (.memch c) Reg.MEMCH_TEMP 7 0) 8 < 5 ∧ -5 < sext
      temp.toNat 8 - sext (s.pf (.memch c) Reg.MEMCH_TEMP 7 0) 8) ∧
    (∃ (c : Fin 32) (s : State),
      s.mem.retrainDue = [] ∧ mayRetrain s c = true ∧ chStatus s c 2 2 = 0) ∧
    (∃ (c : Fin 32) (s : State),
      chStatus s c 3 3 = 1 ∧ s.mem.retrainDue = []) ∧
    (∃ (c : Fin 32) (s : State),
      chStatus s c 3 3 = 1 ∧ s.mem.retrainDue = []) ∧
    (∃ (c : Fin 32) (s : State),
      let w := s.pr (.memch c) Reg.MEMCH_SR_CFG
      fbit w 0 = true ∧ fbit w 1 = false ∧ aget 0 s.mem.lastReq c + 1000 * fget w 31 16 ≤ s.devtime ∧
      s.mem.retrainDue.contains c.val = false ∧ chStatus s c 3 3 = 0 ∧ chStatus s c 2 2 = 0 ∧ realTimePins s = false) ∧
    (∃ (c : Fin 32) (s : State),
      chStatus s c 2 2 = 1) ∧
    (∃ (m : Master) (v : Word) (s : State),
      let a := pageBase .memctl + Reg.MEMCTL_RECODE_CFG
      Accepts s m a ∧ 1 ≤ fget v 5 0 ∧ fget v 5 0 ≤ 50 ∧ fbit v 31 = true) ∧
    (∃ (s : State),
      s.mem.initOn = true ∧ initWm s + 0x20000 < memTop s ∧ initWm s + 0x20000 < 2 ^ 64) := by
  refine ⟨?_, ?_, ?_, ?_, ?_, ?_, ?_, ?_, ?_, ?_, ?_, ?_⟩
  · let s : State := put live .memctl [(Reg.MEMCTL_CHAN_MAP, 0xFFFFFFFF), (Reg.MEMCTL_USABLE_PAGES, 96)]
    refine ⟨s, ?_⟩
    decide +kernel +revert
  · let s : State :=
      let s := atMs live 60000
      { (put s .memctl [(Reg.MEMCTL_SCRUB_PERIOD, 1)]) with mem := { s.mem with scrubWait := true } }
    refine ⟨s, ?_⟩
    decide +kernel +revert
  · let c : Fin 32 := 31
    let i : Fin 10 := 9
    let s : State := put (mapped live) (.memch 31) [(Reg.MEMCH_CH_STATUS, 0xF003)]
    refine ⟨c, i, s, ?_⟩
    decide +kernel +revert
  · let c : Fin 32 := 31
    let i : Fin 10 := 0
    let s : State := put (mapped live) (.memch 31) [(Reg.MEMCH_CH_STATUS, 0x7003)]
    refine ⟨c, i, s, ?_⟩
    decide +kernel +revert
  · let c : Fin 32 := 31
    let temp : BitVec 8 := 0xFC
    let s : State := mapped live
    refine ⟨c, temp, s, ?_⟩
    decide +kernel +revert
  · let c : Fin 32 := 31
    let s : State := mapped live
    refine ⟨c, s, ?_⟩
    decide +kernel +revert
  · let c : Fin 32 := 31
    let s : State := put (mapped live) (.memch 31) [(Reg.MEMCH_CH_STATUS, 0xB), (Reg.MEMCH_RETRAINS, 0xFFFF)]
    refine ⟨c, s, ?_⟩
    decide +kernel +revert
  · let c : Fin 32 := 31
    let s : State := put (mapped live) (.memch 31) [(Reg.MEMCH_CH_STATUS, 0xB)]
    refine ⟨c, s, ?_⟩
    decide +kernel +revert
  · let c : Fin 32 := 31
    let s : State := atMs (put (mapped live) (.memch 31) [(Reg.MEMCH_CH_STATUS, 3), (Reg.MEMCH_SR_CFG, 0x00010001)]) 1
    refine ⟨c, s, ?_⟩
    decide +kernel +revert
  · let c : Fin 32 := 31
    let s : State := put (mapped live) (.memch 31) [(Reg.MEMCH_CH_STATUS, 7)]
    refine ⟨c, s, ?_⟩
    decide +kernel +revert
  · let m : Master := .surveyor
    let v : Word := 0x80000032
    let s : State := mapped live
    refine ⟨m, v, s, ?_⟩
    unfold Accepts
    decide +kernel +revert
  · let s : State :=
      let s := (mapped live).setPair .dev Reg.DEV_MEM_INIT_WM_LO 0
      { s with mem := { s.mem with initOn := true } }
    refine ⟨s, ?_⟩
    decide +kernel +revert

/-- The hypotheses of Obligations.Rings hold together. -/
theorem witness_Rings :
    (∃ (m : Master) (rs : Fin 66) (r : Fin 5) (v : Word) (s : State),
      let b := pageBase (ringPage rs) + ringOff rs r
      let u := taken s m (b + rCtrl)
      Accepts s m (b + rCtrl) ∧ ringOn u rs r = false ∧ ringCtrlCheck u rs r (fsetb v 0 true) = none) ∧
    (∃ (m : Master) (rs : Fin 66) (r : Fin 5) (v : Word) (s : State),
      let b := pageBase (ringPage rs) + ringOff rs r
      let u := taken s m (b + rCtrl)
      Accepts s m (b + rCtrl) ∧ ringOn u rs r = true ∧ ringStopped u rs r = true ∧ ringCtrlCheck u rs r (fsetb v 1
      true) = none ∧ ringSize u rs r ≤ 4096) ∧
    (∃ (m : Master) (rs : Fin 66) (q : Fin 4) (v : Word) (s : State),
      let a := doorbellAddr rs q
      let u := taken (flushAll s) m a
      Accepts (flushAll s) m a ∧ doorbellOut u rs q v = false) ∧
    (∃ (m : Master) (rs : Fin 66) (q : Fin 4) (v : Word) (s : State),
      let a := doorbellAddr rs q
      let u := taken (flushAll s) m a
      Accepts (flushAll s) m a ∧ doorbellOut u rs q v = true ∧ rs.val < 64) ∧
    (∃ (m : Master) (rs : Fin 66) (v : Word) (s : State),
      let a := doorbellAddr rs 4
      let u := taken (flushAll s) m a
      let n := ringSize u rs 4
      let dist (x : Nat) : Nat := (x + n - ringHead u rs 4 % n) % n
      Accepts (flushAll s) m a ∧ doorbellOut u rs 4 v = false ∧ dist (fget v 11 0) ≤ dist (ringTail u rs 4)) ∧
    (∃ (rs : Fin 66) (r : CqRec) (rest : List CqRec) (s : State) (v : State),
      (s.ring rs).cqWait = r :: rest ∧ staleGen s rs r.gen = false ∧ cqTakes s rs = true ∧ ringWrite s rs (rs.val ==
      64) 2 (ringBase s rs 4 + 16 * ringTail s rs 4) (cqBytes s rs r) = (v, .ok ()) ∧ ringSize v rs 4 ≤ 4096) ∧
    (∃ (rs : Fin 66) (r : CqRec) (rest : List CqRec) (s : State),
      (s.ring rs).cqWait = r :: rest ∧ staleGen s rs r.gen = false ∧ cqTakes s rs = true) ∧
    (∃ (f : Fin 64) (s : State),
      funcExists s f = true) ∧
    (∃ (f : Fin 64) (s : State),
      let w := s.pf (.func f) Reg.FUNC_CQ_MOD 31 16
      w ≠ 0 ∧ (s.ring f).modCount ≠ 0 ∧ (s.ring f).modFirst + 1000 * w ≤ s.devtime) := by
  refine ⟨?_, ?_, ?_, ?_, ?_, ?_, ?_, ?_, ?_⟩
  · let m : Master := .heartwood
    let rs : Fin 66 := 64
    let r : Fin 5 := 4
    let v : Word := 0xC00
    let s : State := put (on (cores live) (ringPage 64)) (ringPage 64) [(ringOff 64 4, 0x40000000), (ringOff 64 4 +
      rCtrl, 0), (ringOff 64 4 + rHead, 5), (ringOff 64 4 + rTail, 6), (ringOff 64 4 + rStatus, 0xA0080003)]
    refine ⟨m, rs, r, v, s, ?_⟩
    unfold Accepts
    decide +kernel +revert
  · let m : Master := .heartwood
    let rs : Fin 66 := 64
    let r : Fin 5 := 3
    let v : Word := 0xC05
    let s : State := put (on (cores live) (ringPage 64)) (ringPage 64) [(ringOff 64 3, 0x40000000), (ringOff 64 3 +
      rCtrl, 0xC01), (ringOff 64 3 + rHead, 4095), (ringOff 64 3 + rTail, 0), (ringOff 64 3 + rStatus, 0x80080003)]
    refine ⟨m, rs, r, v, s, ?_⟩
    unfold Accepts
    decide +kernel +revert
  · let m : Master := .func 63
    let rs : Fin 66 := 63
    let q : Fin 4 := 3
    let v : Word := 0xFFF
    let s : State := put (on (put (on (live) (.func 63)) (.func 63) [(Reg.FUNC_FUNC_STATUS, 0x200)]) (ringPage 63))
      (ringPage 63) [(ringOff 63 3, 0x40000000), (ringOff 63 3 + rCtrl, 0xC01), (ringOff 63 3 + rHead, 0), (ringOff 63
      3 + rTail, 0), (ringOff 63 3 + rStatus, 0)]
    refine ⟨m, rs, q, v, s, ?_⟩
    unfold Accepts
    decide +kernel +revert
  · let m : Master := .func 63
    let rs : Fin 66 := 63
    let q : Fin 4 := 3
    let v : Word := 0x1000
    let s : State := put (on (put (on (live) (.func 63)) (.func 63) [(Reg.FUNC_FUNC_STATUS, 0x200)]) (ringPage 63))
      (ringPage 63) [(ringOff 63 3, 0x40000000), (ringOff 63 3 + rCtrl, 0xC01), (ringOff 63 3 + rHead, 0), (ringOff 63
      3 + rTail, 0), (ringOff 63 3 + rStatus, 0)]
    refine ⟨m, rs, q, v, s, ?_⟩
    unfold Accepts
    decide +kernel +revert
  · let m : Master := .func 63
    let rs : Fin 66 := 63
    let v : Word := 2
    let s : State := put (on (put (on (live) (.func 63)) (.func 63) [(Reg.FUNC_FUNC_STATUS, 0x200)]) (ringPage 63))
      (ringPage 63) [(ringOff 63 4, 0x40000000), (ringOff 63 4 + rCtrl, 0x401), (ringOff 63 4 + rHead, 14), (ringOff
      63 4 + rTail, 2), (ringOff 63 4 + rStatus, 0)]
    refine ⟨m, rs, v, s, ?_⟩
    unfold Accepts
    decide +kernel +revert
  · let rs : Fin 66 := 64
    let r : CqRec := { tag := 5, status := 0, flags := 0, sq := 3, gen := 0, detail := 9, slot := some 7 }
    let rest : List CqRec := []
    let s : State :=
      let s := put (on (mapped live) (ringPage 64)) (ringPage 64) [(ringOff 64 4, 0x40000000), (ringOff 64 4 + rCtrl, 0x401), (ringOff 64 4 + rHead, 3), (ringOff 64 4 + rTail, 15), (ringOff 64 4 + rStatus, 0x20000000)]
      s.setRing 64 { s.ring 64 with cqWait := [{ tag := 5, status := 0, flags := 0, sq := 3, gen := 0, detail := 9, slot := some 7 }] }
    let v : State :=
      let b := 4096 * ringF s rs 4 0 31 12
      (ringWrite s rs (rs.val == 64) 2 (ringBase s rs 4 + 16 * ringTail s rs 4) (cqBytes s rs r)).1
    refine ⟨rs, r, rest, s, v, ?_⟩
    decide +kernel +revert
  · let rs : Fin 66 := 63
    let r : CqRec := { tag := 5, status := 0, flags := 0, sq := 3, gen := 0, detail := 9, slot := some 7 }
    let rest : List CqRec := []
    let s : State :=
      let s := put (on (put (on (live) (.func 63)) (.func 63) [(Reg.FUNC_FUNC_STATUS, 0x200)]) (ringPage 63)) (ringPage 63) [(ringOff 63 4, 0x40000000), (ringOff 63 4 + rCtrl, 0x401), (ringOff 63 4 + rHead, 3), (ringOff 63 4 + rTail, 15), (ringOff 63 4 + rStatus, 0x20000000)]
      s.setRing 63 { s.ring 63 with cqWait := [{ tag := 5, status := 0, flags := 0, sq := 3, gen := 0, detail := 9, slot := some 7 }] }
    refine ⟨rs, r, rest, s, ?_⟩
    decide +kernel +revert
  · let f : Fin 64 := 63
    let s : State := put (on (live) (.func 63)) (.func 63) [(Reg.FUNC_FUNC_STATUS, 0x200)]
    refine ⟨f, s, ?_⟩
    decide +kernel +revert
  · let f : Fin 64 := 63
    let s : State :=
      let s := put (atMs (put (on (live) (.func 63)) (.func 63) [(Reg.FUNC_FUNC_STATUS, 0x200)]) 66) (.func 63) [(Reg.FUNC_CQ_MOD, 0xFFFF0000)]
      s.setRing 63 { s.ring 63 with modCount := 1 }
    refine ⟨f, s, ?_⟩
    decide +kernel +revert

/-- The hypotheses of Obligations.HostPorts hold together. -/
theorem witness_HostPorts :
    (∃ (p : Fin 2) (s : State),
      s.mode.mode ≠ .held ∧ portOn s p = true) ∧
    (∃ (p : Fin 2) (s : State),
      linkUp s p = true) ∧
    (∃ (p : Fin 2) (s : State),
      linkUp s p = true ∧ legacyOn s = false) ∧
    (∃ (f : Fin 64) (s : State),
      configOpen s (portOf f) = true ∧ funcExists s f = true ∧ f.val % 32 ≠ 0 ∧ funcResetting s f = false) ∧
    (∃ (m : Master) (f : Fin 64) (v : Word) (s : State),
      let a := pageBase (.func f) + Reg.FUNC_FUNC_CTRL
      Accepts s m a ∧ fbit v 0 = true ∧ funcResetting (taken s m a) f = false) ∧
    (∃ (f : Fin 64) (s : State),
      funcResetting s f = true ∧ resetSettled s f = true ∧ (s.ring f).resetAgain = false) ∧
    (∃ (p : Fin 2) (s : State),
      configOpen s p = true ∧ portOn s p = true ∧ funcExists s (32 * p.val) = true ∧ legacyOn s = false) ∧
    (∃ (p : Fin 2) (fn : BitVec 8) (s : State),
      configOpen s p = true ∧ fn.toNat < 32 ∧ funcExists s (32 * p.val + fn.toNat) = true) ∧
    (∃ (p : Fin 2) (fn : BitVec 8) (s : State),
      configOpen s p = true ∧ (32 ≤ fn.toNat ∨ funcExists s (32 * p.val + fn.toNat) = false)) ∧
    (∃ (p : Fin 2) (s : State),
      s.mode.mode ≠ .held ∧ linkUp s p = true ∧ s.ready (hif p) = false) := by
  refine ⟨?_, ?_, ?_, ?_, ?_, ?_, ?_, ?_, ?_, ?_⟩
  · let p : Fin 2 := 1
    let s : State := on live (.hostif 1)
    refine ⟨p, s, ?_⟩
    decide +kernel +revert
  · let p : Fin 2 := 1
    let s : State := put (on (live) (.hostif 1)) (.hostif 1) [(Reg.HOSTIF_LINK, 0x80051000)]
    refine ⟨p, s, ?_⟩
    decide +kernel +revert
  · let p : Fin 2 := 1
    let s : State := put (on (live) (.hostif 1)) (.hostif 1) [(Reg.HOSTIF_LINK, 0x80051000)]
    refine ⟨p, s, ?_⟩
    decide +kernel +revert
  · let f : Fin 64 := 63
    let s : State := put (on (put (on (live) (.hostif 1)) (.hostif 1) [(Reg.HOSTIF_LINK, 0x80051000)]) (.func 63))
      (.func 63) [(Reg.FUNC_FUNC_STATUS, 0x200)]
    refine ⟨f, s, ?_⟩
    decide +kernel +revert
  · let m : Master := .func 63
    let f : Fin 64 := 63
    let v : Word := 1
    let s : State := put (on (put (on (live) (.hostif 1)) (.hostif 1) [(Reg.HOSTIF_LINK, 0x80051000)]) (.func 63))
      (.func 63) [(Reg.FUNC_FUNC_STATUS, 0x200)]
    refine ⟨m, f, v, s, ?_⟩
    unfold Accepts
    decide +kernel +revert
  · let f : Fin 64 := 63
    let s : State := put (put (on (put (on (live) (.hostif 1)) (.hostif 1) [(Reg.HOSTIF_LINK, 0x80051000)]) (.func
      63)) (.func 63) [(Reg.FUNC_FUNC_STATUS, 0x200)]) (.func 63) [(Reg.FUNC_FUNC_STATUS, 0x600)]
    refine ⟨f, s, ?_⟩
    decide +kernel +revert
  · let p : Fin 2 := 1
    let s : State := put (enab (put (enab (live) (.hostif 1)) (.hostif 1) [(Reg.HOSTIF_LINK, 0x80051000)]) (.func 32))
      (.func 32) [(Reg.FUNC_FUNC_STATUS, 0x200)]
    refine ⟨p, s, ?_⟩
    decide +kernel +revert
  · let p : Fin 2 := 1
    let fn : BitVec 8 := 31
    let s : State := put (on (put (on (live) (.hostif 1)) (.hostif 1) [(Reg.HOSTIF_LINK, 0x80051000)]) (.func 63))
      (.func 63) [(Reg.FUNC_FUNC_STATUS, 0x200)]
    refine ⟨p, fn, s, ?_⟩
    decide +kernel +revert
  · let p : Fin 2 := 1
    let fn : BitVec 8 := 32
    let s : State := put (on (put (on (live) (.hostif 1)) (.hostif 1) [(Reg.HOSTIF_LINK, 0x80051000)]) (.func 63))
      (.func 63) [(Reg.FUNC_FUNC_STATUS, 0x200)]
    refine ⟨p, fn, s, ?_⟩
    decide +kernel +revert
  · let p : Fin 2 := 1
    let s : State := put live (.hostif 1) [(Reg.HOSTIF_LINK, 0x80051000)]
    refine ⟨p, s, ?_⟩
    decide +kernel +revert

/-- The hypotheses of Obligations.HostTraffic hold together. -/
theorem witness_HostTraffic :
    (∃ (p : Fin 2) (off : BitVec 36) (len : Fin 4097) (a : Nat) (b : List Nat) (s : State) (v : State),
      answersMem s (32 * p.val) = true ∧ windowAddr s p off.toNat len = some a ∧ busRead s (0x17 + p.val) false a
      len = (v, .ok b)) ∧
    (∃ (p : Fin 2) (off : BitVec 36) (d : List (Option (BitVec 8))) (a : Nat) (s : State),
      answersMem s (32 * p.val) = true ∧ windowAddr s p off.toNat d.length = some a ∧ s.mode.mode ≠ .safe) ∧
    (∃ (p : Fin 2) (off : BitVec 36) (len : Fin 4097) (s : State),
      answersMem s (32 * p.val) = true ∧ windowAddr s p off.toNat len = none) ∧
    (∃ (f : Fin 64) (off : BitVec 32) (len : Fin 4097) (b : List Nat) (s : State) (v : State),
      answersMem s f = true ∧ f.val % 32 ≠ 0 ∧ off.toNat + len.val ≤ 2 ^ s.pf (hif (portOf f)) Reg.HOSTIF_VF_BAR2 4
      0 ∧ vfRead s f off.toNat len = (v, .ok b)) ∧
    (∃ (f : Fin 64) (off : BitVec 32) (d : List (Option (BitVec 8))) (s : State) (v : State),
      answersMem s f = true ∧ f.val % 32 ≠ 0 ∧ off.toNat + d.length ≤ 2 ^ s.pf (hif (portOf f)) Reg.HOSTIF_VF_BAR2 4
      0 ∧ s.mode.mode ≠ .safe ∧ vfWrite s f off.toNat (dataBytes d) = (v, none)) ∧
    (∃ (p : Fin 2) (s : State),
      portHears s p = true) ∧
    (∃ (p : Fin 2) (s : State),
      portHears s p = true) ∧
    (∃ (p : Fin 2) (s : State),
      portHears s p = true) ∧
    (∃ (p : Fin 2) (s : State),
      portHears s p = true) ∧
    (∃ (p : Fin 2) (s : State),
      portHears s p = true) ∧
    (∃ (p : Fin 2) (f : Fin 64) (q : Fin 4) (s : State),
      portHears s p = true ∧ portOf f = p.val ∧ ringOn s f q = true ∧ ringStopped s f q = false) := by
  refine ⟨?_, ?_, ?_, ?_, ?_, ?_, ?_, ?_, ?_, ?_, ?_⟩
  · let p : Fin 2 := 1
    let off : BitVec 36 := 0xFFFFFF0
    let len : Fin 4097 := 16
    let a : Nat := 0x4FFFFFF0
    let b : List Nat := List.replicate 16 0
    let s : State := put (put (on (put (on (on (mapped live) (.hostif 1)) (.func 32)) (.func 32)
      [(Reg.FUNC_FUNC_STATUS, 0x200)]) (.func 63)) (.func 63) [(Reg.FUNC_FUNC_STATUS, 0x200)]) (.hostif 1)
      [(Reg.HOSTIF_LINK, 0x80051000), (Reg.HOSTIF_MEM_BASE_LO, 0x40000000), (Reg.HOSTIF_MEM_BASE_HI, 0),
      (Reg.HOSTIF_MEM_LIMIT_HI, 0), (Reg.HOSTIF_MEM_LIMIT_LO, 0x50000000), (Reg.HOSTIF_VF_BAR2, 16)]
    let v : State :=
      let s := put (put (on (put (on (on (mapped live) (.hostif 1)) (.func 32)) (.func 32) [(Reg.FUNC_FUNC_STATUS, 0x200)]) (.func 63)) (.func 63) [(Reg.FUNC_FUNC_STATUS, 0x200)]) (.hostif 1) [(Reg.HOSTIF_LINK, 0x80051000), (Reg.HOSTIF_MEM_BASE_LO, 0x40000000), (Reg.HOSTIF_MEM_BASE_HI, 0), (Reg.HOSTIF_MEM_LIMIT_HI, 0), (Reg.HOSTIF_MEM_LIMIT_LO, 0x50000000), (Reg.HOSTIF_VF_BAR2, 16)]
      (busRead s (0x17 + p.val) false a len).1
    refine ⟨p, off, len, a, b, s, v, ?_⟩
    decide +kernel +revert
  · let p : Fin 2 := 1
    let off : BitVec 36 := 0xFFFFFF0
    let d : List (Option (BitVec 8)) := List.replicate 15 (some 1) ++ [none]
    let a : Nat := 0x4FFFFFF0
    let s : State := put (put (on (put (on (on (mapped live) (.hostif 1)) (.func 32)) (.func 32)
      [(Reg.FUNC_FUNC_STATUS, 0x200)]) (.func 63)) (.func 63) [(Reg.FUNC_FUNC_STATUS, 0x200)]) (.hostif 1)
      [(Reg.HOSTIF_LINK, 0x80051000), (Reg.HOSTIF_MEM_BASE_LO, 0x40000000), (Reg.HOSTIF_MEM_BASE_HI, 0),
      (Reg.HOSTIF_MEM_LIMIT_HI, 0), (Reg.HOSTIF_MEM_LIMIT_LO, 0x50000000), (Reg.HOSTIF_VF_BAR2, 16)]
    refine ⟨p, off, d, a, s, ?_⟩
    decide +kernel +revert
  · let p : Fin 2 := 1
    let off : BitVec 36 := 0xFFFFFF1
    let len : Fin 4097 := 16
    let s : State := put (put (on (put (on (on (mapped live) (.hostif 1)) (.func 32)) (.func 32)
      [(Reg.FUNC_FUNC_STATUS, 0x200)]) (.func 63)) (.func 63) [(Reg.FUNC_FUNC_STATUS, 0x200)]) (.hostif 1)
      [(Reg.HOSTIF_LINK, 0x80051000), (Reg.HOSTIF_MEM_BASE_LO, 0x40000000), (Reg.HOSTIF_MEM_BASE_HI, 0),
      (Reg.HOSTIF_MEM_LIMIT_HI, 0), (Reg.HOSTIF_MEM_LIMIT_LO, 0x50000000), (Reg.HOSTIF_VF_BAR2, 16)]
    refine ⟨p, off, len, s, ?_⟩
    decide +kernel +revert
  · let f : Fin 64 := 63
    let off : BitVec 32 := 0xFFF0
    let len : Fin 4097 := 16
    let b : List Nat := List.replicate 16 0
    let s : State :=
      let s := put (put (on (put (on (on (mapped live) (.hostif 1)) (.func 32)) (.func 32) [(Reg.FUNC_FUNC_STATUS, 0x200)]) (.func 63)) (.func 63) [(Reg.FUNC_FUNC_STATUS, 0x200)]) (.hostif 1) [(Reg.HOSTIF_LINK, 0x80051000), (Reg.HOSTIF_MEM_BASE_LO, 0x40000000), (Reg.HOSTIF_MEM_BASE_HI, 0), (Reg.HOSTIF_MEM_LIMIT_HI, 0), (Reg.HOSTIF_MEM_LIMIT_LO, 0x50000000), (Reg.HOSTIF_VF_BAR2, 16)]
      { s with xlate := { s.xlate with s2 := [⟨63, 0xF000, 0x1000, 0x40000000, true, false, false⟩] } }
    let v : State :=
      let s : State := let s := put (put (on (put (on (on (mapped live) (.hostif 1)) (.func 32)) (.func 32) [(Reg.FUNC_FUNC_STATUS, 0x200)]) (.func 63)) (.func 63) [(Reg.FUNC_FUNC_STATUS, 0x200)]) (.hostif 1) [(Reg.HOSTIF_LINK, 0x80051000), (Reg.HOSTIF_MEM_BASE_LO, 0x40000000), (Reg.HOSTIF_MEM_BASE_HI, 0), (Reg.HOSTIF_MEM_LIMIT_HI, 0), (Reg.HOSTIF_MEM_LIMIT_LO, 0x50000000), (Reg.HOSTIF_VF_BAR2, 16)]
      { s with xlate := { s.xlate with s2 := [⟨63, 0xF000, 0x1000, 0x40000000, true, false, false⟩] } }
      (vfRead s f off.toNat len).1
    refine ⟨f, off, len, b, s, v, ?_⟩
    decide +kernel +revert
  · let f : Fin 64 := 63
    let off : BitVec 32 := 0xFFFD
    let d : List (Option (BitVec 8)) := [some 1, none, some 3]
    let s : State :=
      let s := put (put (on (put (on (on (mapped live) (.hostif 1)) (.func 32)) (.func 32) [(Reg.FUNC_FUNC_STATUS, 0x200)]) (.func 63)) (.func 63) [(Reg.FUNC_FUNC_STATUS, 0x200)]) (.hostif 1) [(Reg.HOSTIF_LINK, 0x80051000), (Reg.HOSTIF_MEM_BASE_LO, 0x40000000), (Reg.HOSTIF_MEM_BASE_HI, 0), (Reg.HOSTIF_MEM_LIMIT_HI, 0), (Reg.HOSTIF_MEM_LIMIT_LO, 0x50000000), (Reg.HOSTIF_VF_BAR2, 16)]
      { s with xlate := { s.xlate with s2 := [⟨63, 0xF000, 0x1000, 0x40000000, true, false, false⟩] } }
    let v : State :=
      let s : State := let s := put (put (on (put (on (on (mapped live) (.hostif 1)) (.func 32)) (.func 32) [(Reg.FUNC_FUNC_STATUS, 0x200)]) (.func 63)) (.func 63) [(Reg.FUNC_FUNC_STATUS, 0x200)]) (.hostif 1) [(Reg.HOSTIF_LINK, 0x80051000), (Reg.HOSTIF_MEM_BASE_LO, 0x40000000), (Reg.HOSTIF_MEM_BASE_HI, 0), (Reg.HOSTIF_MEM_LIMIT_HI, 0), (Reg.HOSTIF_MEM_LIMIT_LO, 0x50000000), (Reg.HOSTIF_VF_BAR2, 16)]
      { s with xlate := { s.xlate with s2 := [⟨63, 0xF000, 0x1000, 0x40000000, true, false, false⟩] } }
      (vfWrite s f off.toNat (dataBytes d)).1
    refine ⟨f, off, d, s, v, ?_⟩
    decide +kernel +revert
  · let p : Fin 2 := 1
    let s : State := put (on (live) (.hostif 1)) (.hostif 1) [(Reg.HOSTIF_LINK, 0x80051000)]
    refine ⟨p, s, ?_⟩
    decide +kernel +revert
  · let p : Fin 2 := 1
    let s : State := put (on (live) (.hostif 1)) (.hostif 1) [(Reg.HOSTIF_LINK, 0x80051000)]
    refine ⟨p, s, ?_⟩
    decide +kernel +revert
  · let p : Fin 2 := 1
    let s : State := put (on (live) (.hostif 1)) (.hostif 1) [(Reg.HOSTIF_LINK, 0x80051000)]
    refine ⟨p, s, ?_⟩
    decide +kernel +revert
  · let p : Fin 2 := 1
    let s : State := put (on (live) (.hostif 1)) (.hostif 1) [(Reg.HOSTIF_LINK, 0x80051000)]
    refine ⟨p, s, ?_⟩
    decide +kernel +revert
  · let p : Fin 2 := 1
    let s : State := put (on (live) (.hostif 1)) (.hostif 1) [(Reg.HOSTIF_LINK, 0x80051000)]
    refine ⟨p, s, ?_⟩
    decide +kernel +revert
  · let p : Fin 2 := 1
    let f : Fin 64 := 63
    let q : Fin 4 := 3
    let s : State := put (on (put (on (put (on (live) (.hostif 1)) (.hostif 1) [(Reg.HOSTIF_LINK, 0x80051000)]) (.func
      63)) (.func 63) [(Reg.FUNC_FUNC_STATUS, 0x200)]) (ringPage 63)) (ringPage 63) [(ringOff 63 3, 0x40000000),
      (ringOff 63 3 + rCtrl, 0xC01), (ringOff 63 3 + rHead, 5), (ringOff 63 3 + rTail, 6), (ringOff 63 3 + rStatus,
      0)]
    refine ⟨p, f, q, s, ?_⟩
    decide +kernel +revert

/-- The hypotheses of Obligations.Translations hold together. -/
theorem witness_Translations :
    (∃ (f : Fin 64) (addr : BitVec 48) (w : Bool) (ag : Fin 29) (src : Fin 12) (e : S2Ent) (s : State),
      funcExists s f = true ∧ legacyOn s = false ∧ s.xlate.s2.find? (fun e => e.func == f.val && e.ip ≤ addr.toNat
      && addr.toNat < e.ip + e.size) = some e ∧ leafCause s ⟨f, ag, false, w, src, 0, [5, 6, 7, 8, 9, 0xB].contains
      src.val⟩ e = none) ∧
    (∃ (f : Fin 64) (addr : BitVec 48) (s : State),
      funcExists s f = true ∧ legacyOn s = false ∧ s.xlate.s2.find? (fun e => e.func == f.val && e.ip ≤ addr.toNat
      && addr.toNat < e.ip + e.size) = none ∧ bit (s.pair (.func f) Reg.FUNC_S2_ROOT_LO) 0 = false) ∧
    (∃ (m : Master) (f : Fin 64) (v : Word) (s : State),
      let a := pageBase (.func f) + Reg.FUNC_S1INV_CMD
      let u := taken s m a
      Accepts s m a ∧ s1invCheck u f v = none ∧ fbit v 31 = true) ∧
    (∃ (f : Fin 64) (s : State),
      s.pf (.func f) Reg.FUNC_S1INV_CMD 30 30 = 1) ∧
    (∃ (m : Master) (p : Fin 2) (v : Word) (s : State),
      let a := pageBase .xlate + s2invOff p 8
      let u := taken s m a
      Accepts s m a ∧ s2invCheck u p v = none ∧ fbit v 31 = true ∧ fget v 29 28 = 0) ∧
    (∃ (p : Fin 2) (s : State),
      s.pf .xlate (s2invOff p 8) 30 30 = 1) ∧
    (∃ (m : Master) (f : Fin 64) (w : Word) (s : State),
      let a := pageBase (.func f) + Reg.FUNC_S2_ROOT_HI
      let u := taken s m a
      Accepts s m a ∧ u.staged m (a - 4) (a - 4) = [(a - 4, w)]) := by
  refine ⟨?_, ?_, ?_, ?_, ?_, ?_, ?_⟩
  · let f : Fin 64 := 63
    let addr : BitVec 48 := 0xFFFF
    let w : Bool := true
    let ag : Fin 29 := 5
    let src : Fin 12 := 11
    let e : S2Ent := ⟨63, 0xF000, 0x1000, 0x40000000, true, false, false⟩
    let s : State :=
      let s := put (put (on (put (on (on (mapped live) (.hostif 1)) (.func 32)) (.func 32) [(Reg.FUNC_FUNC_STATUS, 0x200)]) (.func 63)) (.func 63) [(Reg.FUNC_FUNC_STATUS, 0x200)]) (.hostif 1) [(Reg.HOSTIF_LINK, 0x80051000), (Reg.HOSTIF_MEM_BASE_LO, 0x40000000), (Reg.HOSTIF_MEM_BASE_HI, 0), (Reg.HOSTIF_MEM_LIMIT_HI, 0), (Reg.HOSTIF_MEM_LIMIT_LO, 0x50000000), (Reg.HOSTIF_VF_BAR2, 16)]
      { s with xlate := { s.xlate with s2 := [⟨63, 0xF000, 0x1000, 0x40000000, true, false, false⟩] } }
    refine ⟨f, addr, w, ag, src, e, s, ?_⟩
    decide +kernel +revert
  · let f : Fin 64 := 63
    let addr : BitVec 48 := 0xFFFF
    let s : State := put (on (live) (.func 63)) (.func 63) [(Reg.FUNC_FUNC_STATUS, 0x200)]
    refine ⟨f, addr, s, ?_⟩
    decide +kernel +revert
  · let m : Master := .func 63
    let f : Fin 64 := 63
    let v : Word := 0x80000001
    let s : State := put (on (live) (.func 63)) (.func 63) [(Reg.FUNC_FUNC_STATUS, 0x200)]
    refine ⟨m, f, v, s, ?_⟩
    unfold Accepts
    decide +kernel +revert
  · let f : Fin 64 := 63
    let s : State := put (put (on (live) (.func 63)) (.func 63) [(Reg.FUNC_FUNC_STATUS, 0x200)]) (.func 63)
      [(Reg.FUNC_S1INV_CMD, 0x40000001)]
    refine ⟨f, s, ?_⟩
    decide +kernel +revert
  · let m : Master := .func 32
    let p : Fin 2 := 1
    let v : Word := 0x803F0001
    let s : State := put (on (put (on (live) (.func 32)) (.func 32) [(Reg.FUNC_FUNC_STATUS, 0x200)]) .xlate) .xlate
      [(s2invOff 1 8, 0x00200001)]
    refine ⟨m, p, v, s, ?_⟩
    unfold Accepts
    decide +kernel +revert
  · let p : Fin 2 := 1
    let s : State := put (on (put (on (live) (.func 32)) (.func 32) [(Reg.FUNC_FUNC_STATUS, 0x200)]) .xlate) .xlate
      [(s2invOff 1 8, 0x40200001)]
    refine ⟨p, s, ?_⟩
    decide +kernel +revert
  · let m : Master := .func 32
    let f : Fin 64 := 63
    let w : Word := 0xFFFFF001
    let s : State :=
      let s := put (on (put (on (live) (.func 32)) (.func 32) [(Reg.FUNC_FUNC_STATUS, 0x200)]) (.func 63)) (.func 63) [(Reg.FUNC_FUNC_STATUS, 0x200)]
      let a := pageBase (.func 63) + Reg.FUNC_S2_ROOT_LO
      s.stageWord (.func 32) a a a 0xFFFFF001
    refine ⟨m, f, w, s, ?_⟩
    unfold Accepts
    decide +kernel +revert

/-- The hypotheses of Obligations.JobStages hold together. -/
theorem witness_JobStages :
    (∃ (rs : Fin 66) (q : Fin 4) (d : List Nat) (i0 : Nat) (i : Nat) (e : Option (List Nat)) (s : State) (v : State)
      (w : State),
      sqFetches s rs q = true ∧ q.val ≠ 3 ∧ atCap s rs = false ∧ ringRead s rs (rs.val == 64) 1 (ringBase s rs q +
      64 * ringHead s rs q) 64 = (v, .ok d) ∧ freeSlot s (dClass d) = some i0 ∧ staleGen v rs (dByte d 1) = false ∧
      ctxRead v rs (dByte d 3) = (w, .ok e) ∧ fetchCause w rs q d e = none ∧ freeSlot w (dClass d) = some i ∧
      ringSize w rs q ≤ 4096) ∧
    (∃ (rs : Fin 66) (q : Fin 4) (d : List Nat) (i0 : Nat) (c : Nat) (e : Option (List Nat)) (s : State) (v : State)
      (w : State),
      sqFetches s rs q = true ∧ q.val ≠ 3 ∧ atCap s rs = false ∧ ringRead s rs (rs.val == 64) 1 (ringBase s rs q +
      64 * ringHead s rs q) 64 = (v, .ok d) ∧ freeSlot s (dClass d) = some i0 ∧ staleGen v rs (dByte d 1) = false ∧
      ctxRead v rs (dByte d 3) = (w, .ok e) ∧ fetchCause w rs q d e = some c) ∧
    (∃ (rs : Fin 66) (d : List Nat) (s : State) (v : State),
      sqFetches s rs 3 = true ∧ pointsWait s rs = false ∧ ringRead s rs (rs.val == 64) 1 (ringBase s rs 3 + 64 *
      ringHead s rs 3) 64 = (v, .ok d) ∧ dByte d 0 = 0x40 ∧ staleGen v rs (dByte d 1) = false ∧ dByte d 3 / 2 = 0 ∧
      1 ≤ dByte d 2 ∧ dByte d 2 ≤ 7 ∧ ringSize v rs 3 ≤ 4096) ∧
    (∃ (i : Fin 1024) (j : Job) (b : List Nat) (s : State) (v : State),
      waitingJob s i = some j ∧ fenceRead s j (j.wait % 4096) = (v, .ok b) ∧ bit (ofLeBytes b) 63 = false ∧ j.wait /
      4096 ≤ ofLeBytes b) ∧
    (∃ (i : Fin 1024) (j : Job) (b : List Nat) (s : State) (v : State),
      waitingJob s i = some j ∧ fenceRead s j (j.wait % 4096) = (v, .ok b) ∧ bit (ofLeBytes b) 63 = false ∧
      ofLeBytes b < j.wait / 4096) ∧
    (∃ (i : Fin 1024) (j : Job) (b : List Nat) (s : State) (v : State),
      waitingJob s i = some j ∧ j.since.getD 0 + 1000000 * s.pf .sched Reg.SCHED_FENCE_TIMEOUT 15 0 ≤ s.devtime ∧
      fenceRead s j (j.wait % 4096) = (v, .ok b) ∧ bit (ofLeBytes b) 63 = false ∧ ofLeBytes b < j.wait / 4096 ∧
      v.job i = some j) ∧
    (∃ (i : Fin 1024) (j : Job) (s : State),
      s.job i = some j ∧ j.phase = .ended ∧ jobStale s j = false ∧ bit j.flags 5 = false ∧ (bit j.flags 3 = true ∨
      j.status ≠ 0)) ∧
    (∃ (i : Fin 1024) (j : Job) (s : State),
      s.job i = some j ∧ j.phase = .ended ∧ jobStale s j = false ∧ bit j.flags 5 = false ∧ bit j.flags 3 = false ∧
      j.status = 0) := by
  refine ⟨?_, ?_, ?_, ?_, ?_, ?_, ?_, ?_⟩
  · let rs : Fin 66 := 64
    let q : Fin 4 := 2
    let d : List Nat := [0, 0, 3, 0, 7] ++ List.replicate 59 0
    let i0 : Nat := 0
    let i : Nat := 0
    let e : Option (List Nat) := some ((([1, 0, 0, 0, 4, 0, 0x40300000, 0, 4096].flatMap (leBytes 4))) ++
      List.replicate 28 0)
    let s : State := fetching 2 ([0, 0, 3, 0, 7] ++ List.replicate 59 0)
    let v : State :=
      let s := fetching 2 ([0, 0, 3, 0, 7] ++ List.replicate 59 0)
      (ringRead s 64 true 1 (0x40000000 + 64 * 4095) 64).1
    let w : State := (ctxRead v 64 0).1
    refine ⟨rs, q, d, i0, i, e, s, v, w, ?_⟩
    decide +kernel +revert
  · let rs : Fin 66 := 64
    let q : Fin 4 := 2
    let d : List Nat := [1, 0, 3, 0, 7] ++ List.replicate 59 0
    let i0 : Nat := 0
    let c : Nat := 1
    let e : Option (List Nat) := some ((([1, 0, 0, 0, 4, 0, 0x40300000, 0, 4096].flatMap (leBytes 4))) ++
      List.replicate 28 0)
    let s : State := fetching 2 ([1, 0, 3, 0, 7] ++ List.replicate 59 0)
    let v : State :=
      let s := fetching 2 ([1, 0, 3, 0, 7] ++ List.replicate 59 0)
      (ringRead s 64 true 1 (0x40000000 + 64 * 4095) 64).1
    let w : State := (ctxRead v 64 0).1
    refine ⟨rs, q, d, i0, c, e, s, v, w, ?_⟩
    decide +kernel +revert
  · let rs : Fin 66 := 64
    let d : List Nat := [0x40, 0, 7, 1] ++ List.replicate 60 0
    let s : State := fetching 3 ([0x40, 0, 7, 1] ++ List.replicate 60 0)
    let v : State :=
      let s := fetching 3 ([0x40, 0, 7, 1] ++ List.replicate 60 0)
      (ringRead s 64 true 1 (0x40000000 + 64 * 4095) 64).1
    refine ⟨rs, d, s, v, ?_⟩
    decide +kernel +revert
  · let i : Fin 1024 := 1023
    let j : Job := { aJob 1 .waiting [] with since := some 0, q := 3 }
    let b : List Nat := leBytes 8 9
    let s : State := fillWords (withJob ({ aJob 1 .waiting [] with since := some 0, q := 3 })) (0x40300000 + 8 * 4095)
      [9, 0]
    let v : State :=
      let s := fillWords (withJob ({ aJob 1 .waiting [] with since := some 0, q := 3 })) (0x40300000 + 8 * 4095) [9, 0]
      (fenceRead s j 4095).1
    refine ⟨i, j, b, s, v, ?_⟩
    decide +kernel +revert
  · let i : Fin 1024 := 1023
    let j : Job := { aJob 1 .waiting [] with since := some 0, q := 3 }
    let b : List Nat := leBytes 8 8
    let s : State := fillWords (withJob ({ aJob 1 .waiting [] with since := some 0, q := 3 })) (0x40300000 + 8 * 4095)
      [8, 0]
    let v : State :=
      let s := fillWords (withJob ({ aJob 1 .waiting [] with since := some 0, q := 3 })) (0x40300000 + 8 * 4095) [8, 0]
      (fenceRead s j 4095).1
    refine ⟨i, j, b, s, v, ?_⟩
    decide +kernel +revert
  · let i : Fin 1024 := 1023
    let j : Job := { aJob 1 .waiting [] with since := some 0, q := 3 }
    let b : List Nat := leBytes 8 8
    let s : State := put (atMs (fillWords (withJob ({ aJob 1 .waiting [] with since := some 0, q := 3 })) (0x40300000
      + 8 * 4095) [8, 0]) 5) .sched [(Reg.SCHED_FENCE_TIMEOUT, 5)]
    let v : State := (fenceRead (put (atMs (fillWords (withJob ({ aJob 1 .waiting [] with since := some 0, q := 3 }))
      (0x40300000 + 8 * 4095) [8, 0]) 5) .sched [(Reg.SCHED_FENCE_TIMEOUT, 5)]) j 4095).1
    refine ⟨i, j, b, s, v, ?_⟩
    decide +kernel +revert
  · let i : Fin 1024 := 1023
    let j : Job := { aJob 1 .ended [] with flags := 8 }
    let s : State := withJob ({ aJob 1 .ended [] with flags := 8 })
    refine ⟨i, j, s, ?_⟩
    decide +kernel +revert
  · let i : Fin 1024 := 1023
    let j : Job := aJob 1 .ended []
    let s : State := withJob (aJob 1 .ended [])
    refine ⟨i, j, s, ?_⟩
    decide +kernel +revert

/-- The hypotheses of Obligations.JobKinds hold together. -/
theorem witness_JobKinds :
    (∃ (i : Fin 1024) (j : Job) (s : State),
      readyJob s i 0 = some j) ∧
    (∃ (i : Fin 1024) (j : Job) (b : List Nat) (s : State) (v : State),
      readyJob s i 0x22 = some j ∧ bytesAt j.body 12 2 ≤ 1023 ∧ handleOf s j.rs (bytesAt j.body 12 2) = none ∧
      loadWaits s j = false ∧ jRead s j 0x16 (bytesAt j.body 0 8) (bytesAt j.body 8 4) = (v, .ok b) ∧
      v.sched.modules = []) ∧
    (∃ (i : Fin 1024) (j : Job) (s : State),
      readyJob s i 0x23 = some j ∧ bytesAt j.body 0 2 ≤ 1023 ∧ (handleOf s j.rs (bytesAt j.body 0 2)).isSome = true) ∧
    (∃ (i : Fin 1024) (x : Translating) (j : Job) (s : State) (u : State),
      takeTrans s i = some (x, j, u) ∧ x.slot = i ∧ s.devtime ≤ translateLimit u x ∧ handleOf s j.rs (bytesAt j.body
      12 2) = none ∧ cacheFull u = false) ∧
    (∃ (i : Fin 1024) (x : Translating) (j : Job) (s : State) (u : State),
      takeTrans s i = some (x, j, u) ∧ x.slot = i ∧ translateLimit s x ≤ s.devtime) ∧
    (∃ (i : Fin 1024) (j : Job) (n : Fin 12) (l : Fin 15) (s : State),
      let m := ringMaster j.rs
      let p : Page := .layer n l
      let u := (presentWrites p j.body).foldl (fun s w => (s.setShd w.1 (w32 w.2)).noteWrite w.1) s
      readyJob s i 0x41 = some j ∧ jobStale s j = false ∧ bytesAt j.body 0 1 % 16 = n ∧ bytesAt j.body 1 1 % 16 = l
      ∧ (∀ a, a ∈ (presentWrites p j.body).map (·.1) ∨ a = hadr p .commit → refusalOf s m a = none) ∧ commitCheck u
      p m = none ∧ (s.head n).running = false) ∧
    (∃ (i : Fin 1024) (j : Job) (s : State),
      readyJob s i 2 = some j ∧ baysIn s ≠ []) ∧
    (∃ (i : Fin 1024) (j : Job) (s : State),
      s.job i = some j ∧ j.phase = .running ∧ j.op = 2 ∧ 1000000000 * s.pf .sched Reg.SCHED_WATCHDOG 31 24 <
      runningNs s j) ∧
    (∃ (i : Fin 1024) (tile : Nat) (j : Job) (s : State),
      s.job i = some j ∧ j.phase = .running ∧ j.rend.flying.any (fun e => e.1 == tile) = true ∧ aget 0 j.rend.tileAt
      tile + 1000 * s.pf .sched Reg.SCHED_WATCHDOG 15 0 < s.devtime) := by
  refine ⟨?_, ?_, ?_, ?_, ?_, ?_, ?_, ?_, ?_⟩
  · let i : Fin 1024 := 1023
    let j : Job := aJob 0 .ready []
    let s : State := withJob (aJob 0 .ready [])
    refine ⟨i, j, s, ?_⟩
    decide +kernel +revert
  · let i : Fin 1024 := 1023
    let j : Job := aJob 0x22 .ready (leBytes 8 0x40000000 ++ leBytes 4 16 ++ leBytes 2 1023)
    let b : List Nat := List.replicate 16 0
    let s : State := withJob (aJob 0x22 .ready (leBytes 8 0x40000000 ++ leBytes 4 16 ++ leBytes 2 1023))
    let v : State :=
      let s := withJob (aJob 0x22 .ready (leBytes 8 0x40000000 ++ leBytes 4 16 ++ leBytes 2 1023))
      (jRead s j 0x16 0x40000000 16).1
    refine ⟨i, j, b, s, v, ?_⟩
    decide +kernel +revert
  · let i : Fin 1024 := 1023
    let j : Job := aJob 0x23 .ready (leBytes 2 1023)
    let s : State :=
      let s := withJob (aJob 0x23 .ready (leBytes 2 1023))
      { s with sched := { s.sched with handles := [⟨64, 1023, 7⟩] } }
    refine ⟨i, j, s, ?_⟩
    decide +kernel +revert
  · let i : Fin 1024 := 1023
    let x : Translating := ⟨1023, 64, 7, [], 0⟩
    let j : Job := { aJob 0x22 .running (leBytes 8 0 ++ leBytes 4 16 ++ leBytes 2 1023) with started := some 0 }
    let s : State :=
      let s := withJob ({ aJob 0x22 .running (leBytes 8 0 ++ leBytes 4 16 ++ leBytes 2 1023) with started := some 0 })
      { s with sched := { s.sched with trans := [⟨1023, 64, 7, [], 0⟩] } }
    let u : State :=
      let s := let s := withJob ({ aJob 0x22 .running (leBytes 8 0 ++ leBytes 4 16 ++ leBytes 2 1023) with started := some 0 })
      { s with sched := { s.sched with trans := [⟨1023, 64, 7, [], 0⟩] } }
      { s with sched := { s.sched with trans := [] } }
    refine ⟨i, x, j, s, u, ?_⟩
    decide +kernel +revert
  · let i : Fin 1024 := 1023
    let x : Translating := ⟨1023, 64, 7, [], 0⟩
    let j : Job := { aJob 0x22 .running (leBytes 8 0 ++ leBytes 4 16 ++ leBytes 2 1023) with started := some 0 }
    let s : State :=
      put (atMs (let s := withJob ({ aJob 0x22 .running (leBytes 8 0 ++ leBytes 4 16 ++ leBytes 2 1023) with started := some 0 }); { s with sched := { s.sched with trans := [⟨1023, 64, 7, [], 0⟩] } }) 100000) .sched [(Reg.SCHED_TRANSLATE, 100)]
    let u : State :=
      let s := put (atMs (let s := withJob ({ aJob 0x22 .running (leBytes 8 0 ++ leBytes 4 16 ++ leBytes 2 1023) with started := some 0 }); { s with sched := { s.sched with trans := [⟨1023, 64, 7, [], 0⟩] } }) 100000) .sched [(Reg.SCHED_TRANSLATE, 100)]
      { s with sched := { s.sched with trans := [] } }
    refine ⟨i, x, j, s, u, ?_⟩
    decide +kernel +revert
  · let i : Fin 1024 := 1023
    let j : Job := aJob 0x41 .ready ([0x0B, 14] ++ leBytes 2 0xFFFF ++ leBytes 4 0 ++ leBytes 4 0x80000000 ++ leBytes
      20 0)
    let n : Fin 12 := 11
    let l : Fin 15 := 14
    let s : State :=
      let s := cores (up (withJob (aJob 0x41 .ready ([0x0B, 14] ++ leBytes 2 0xFFFF ++ leBytes 4 0 ++ leBytes 4 0x80000000 ++ leBytes 20 0))) (.layer 11 14))
      s.setHd (.layer 11 14) .owner 0x40
    refine ⟨i, j, n, l, s, ?_⟩
    have key : ∀ a ∈ (presentWrites (.layer n l) j.body).map (·.1) ++ [hadr (.layer n l) .commit],
        refusalOf s (ringMaster j.rs) a = none := by decide +kernel +revert
    exact ⟨by decide +kernel +revert, by decide +kernel +revert, by decide +kernel +revert, by decide +kernel +revert,
      fun a ha => key a (by simpa using ha), by decide +kernel +revert, by decide +kernel +revert⟩
  · let i : Fin 1024 := 1023
    let j : Job := aJob 2 .ready (leBytes 4 7 ++ leBytes 4 1 ++ leBytes 4 1 ++ leBytes 4 1)
    let s : State := withJob (aJob 2 .ready (leBytes 4 7 ++ leBytes 4 1 ++ leBytes 4 1 ++ leBytes 4 1))
    refine ⟨i, j, s, ?_⟩
    decide +kernel +revert
  · let i : Fin 1024 := 1023
    let j : Job := { aJob 2 .running [] with started := some 0 }
    let s : State := put (atMs (withJob ({ aJob 2 .running [] with started := some 0 })) 1001) .sched
      [(Reg.SCHED_WATCHDOG, 0x01000001)]
    refine ⟨i, j, s, ?_⟩
    decide +kernel +revert
  · let i : Fin 1024 := 1023
    let tile : Nat := 7
    let j : Job := { aJob 1 .running [] with rend := { flying := [(7, 0)] } }
    let s : State := put (atMs (withJob ({ aJob 1 .running [] with rend := { flying := [(7, 0)] } })) 1) .sched
      [(Reg.SCHED_WATCHDOG, 0x010003E7)]
    refine ⟨i, tile, j, s, ?_⟩
    decide +kernel +revert

/-- The hypotheses of Obligations.BayWork hold together. -/
theorem witness_BayWork :
    (∃ (i : Fin 1024) (j : Job) (r : RenderSt) (s : State) (v : State),
      readyJob s i 1 = some j ∧ baysIn s ≠ [] ∧ readPass s j = (v, .ok r) ∧ passLimit j r = none) ∧
    (∃ (i : Fin 1024) (tile : Nat) (b : Fin 48) (j : Job) (s : State) (v : State),
      s.job i = some j ∧ j.phase = .running ∧ j.rend.flying.find? (fun e => e.1 == tile) = some (tile, b.val) ∧
      renderTile s j b tile = (v, .ok ()) ∧ jobStale v j = false ∧ j.rend.done.length + 1 < tileCount j.rend) ∧
    (∃ (i : Fin 1024) (j : Job) (s : State),
      s.job i = some j ∧ j.phase = .running ∧ j.rend.geo = true ∧ j.rend.flushing = false ∧ j.rend.stop ≠
      j.rend.prims.length ∧ j.rend.spill ≠ 0 ∧ 2 * footprint j.rend * tileCount j.rend ≤ j.rend.spillSize) ∧
    (∃ (i : Fin 1024) (wg : Nat) (b : Nat) (j : Job) (s : State),
      s.job i = some j ∧ j.phase = .running ∧ j.comp.flying.find? (fun e => e.1 == wg) = some (wg, b)) ∧
    (∃ (u : Fin 50) (i : Nat) (j : Job) (s : State) (s' : State),
      u.val < 48 ∧ bayFenced s u = false ∧ starved s = [] ∧ releasing s u = false ∧ offer s true (bayTakers s u) =
      some (i, j, s') ∧ j.op = 2 ∧ j.comp.again = [] ∧ j.comp.nextWg < j.comp.total) ∧
    (∃ (b : Fin 48) (i : Nat) (since : Nat) (j : Job) (s : State),
      s.sched.preempting.find? (fun e => e.1 == b.val) = some (b.val, i, since) ∧ s.job i = some j ∧ j.phase =
      .running ∧ j.op = 2) ∧
    (∃ (i : Fin 1024) (j : Job) (s : State) (s' : State) (v : State),
      offer s false (copyReady s) = some (i.val, j, s') ∧ j.op = 0x20 ∧ copyRun s' j = (v, .ok ()) ∧ v.job i = some
      j) ∧
    (∃ (i : Fin 1024) (j : Job) (s : State) (s' : State) (v : State),
      offer s false (copyReady s) = some (i.val, j, s') ∧ j.op = 0x21 ∧ fillRun s' j = (v, .ok ()) ∧ v.job i = some
      j) := by
  refine ⟨?_, ?_, ?_, ?_, ?_, ?_, ?_, ?_⟩
  · let i : Fin 1024 := 1023
    let j : Job := aJob 1 .ready (leBytes 8 0x40000000)
    let r : RenderSt := match readPass (fillWords (withJob (aJob 1 .ready (leBytes 8 0x40000000))) 0x40000000 [0,
      0x00080008]) j with | (_, .ok r) => r | _ => {}
    let s : State := fillWords (withJob (aJob 1 .ready (leBytes 8 0x40000000))) 0x40000000 [0, 0x00080008]
    let v : State :=
      let s := fillWords (withJob (aJob 1 .ready (leBytes 8 0x40000000))) 0x40000000 [0, 0x00080008]
      (readPass s j).1
    refine ⟨i, j, r, s, v, ?_⟩
    decide +kernel +revert
  · let i : Fin 1024 := 1023
    let tile : Nat := 0
    let b : Fin 48 := 47
    let j : Job := { aJob 1 .running [] with rend := { w := 64, h := 32, flying := [(0, 47)] } }
    let s : State := withJob ({ aJob 1 .running [] with rend := { w := 64, h := 32, flying := [(0, 47)] } })
    let v : State :=
      let s := withJob ({ aJob 1 .running [] with rend := { w := 64, h := 32, flying := [(0, 47)] } })
      (renderTile s j 47 0).1
    refine ⟨i, tile, b, j, s, v, ?_⟩
    decide +kernel +revert
  · let i : Fin 1024 := 1023
    let j : Job := { aJob 1 .running [] with rend := { w := 32, h := 32, geo := true, stop := 1, spill := 0x50000000 } }
    let s : State := withJob ({ aJob 1 .running [] with rend := { w := 32, h := 32, geo := true, stop := 1, spill := 0x50000000 } })
    refine ⟨i, j, s, ?_⟩
    decide +kernel +revert
  · let i : Fin 1024 := 1023
    let wg : Nat := 6
    let b : Nat := 47
    let j : Job := { aJob 2 .running [] with comp := { total := 7, nextWg := 7, flying := [(6, 47)] } }
    let s : State := withJob ({ aJob 2 .running [] with comp := { total := 7, nextWg := 7, flying := [(6, 47)] } })
    refine ⟨i, wg, b, j, s, ?_⟩
    decide +kernel +revert
  · let u : Fin 50 := 47
    let i : Nat := 1023
    let j : Job := { aJob 2 .running [] with comp := { total := 7, nextWg := 6 } }
    let s : State := withJob ({ aJob 2 .running [] with comp := { total := 7, nextWg := 6 } })
    let s' : State :=
      let s := withJob ({ aJob 2 .running [] with comp := { total := 7, nextWg := 6 } })
      ((offer s true (bayTakers s 47)).map (fun e => e.2.2)).getD s
    refine ⟨u, i, j, s, s', ?_⟩
    decide +kernel +revert
  · let b : Fin 48 := 47
    let i : Nat := 1023
    let since : Nat := 0
    let j : Job := { aJob 2 .running [] with comp := { total := 7, nextWg := 7, flying := [(6, 47)] } }
    let s : State :=
      let s := withJob ({ aJob 2 .running [] with comp := { total := 7, nextWg := 7, flying := [(6, 47)] } })
      { s with sched := { s.sched with preempting := [(47, 1023, 0)] } }
    refine ⟨b, i, since, j, s, ?_⟩
    decide +kernel +revert
  · let i : Fin 1024 := 1023
    let j : Job := aJob 0x20 .ready (leBytes 8 0x40000000 ++ leBytes 8 0x40000000 ++ [15, 0, 0, 0, 0, 0, 0, 0, 1, 0,
      1, 0])
    let s : State := fillWords (withJob (aJob 0x20 .ready (leBytes 8 0x40000000 ++ leBytes 8 0x40000000 ++ [15, 0, 0,
      0, 0, 0, 0, 0, 1, 0, 1, 0]))) 0x40000000 [0x50000000, 0, 0, 0, 64, 0x00010010, 0]
    let s' : State :=
      let s := fillWords (withJob (aJob 0x20 .ready (leBytes 8 0x40000000 ++ leBytes 8 0x40000000 ++ [15, 0, 0, 0, 0, 0, 0, 0, 1, 0, 1, 0]))) 0x40000000 [0x50000000, 0, 0, 0, 64, 0x00010010, 0]
      ((offer s false (copyReady s)).map (fun e => e.2.2)).getD s
    let v : State :=
      let s := fillWords (withJob (aJob 0x20 .ready (leBytes 8 0x40000000 ++ leBytes 8 0x40000000 ++ [15, 0, 0, 0, 0, 0, 0, 0, 1, 0, 1, 0]))) 0x40000000 [0x50000000, 0, 0, 0, 64, 0x00010010, 0]
      (copyRun (((offer s false (copyReady s)).map (fun e => e.2.2)).getD s) j).1
    refine ⟨i, j, s, s', v, ?_⟩
    decide +kernel +revert
  · let i : Fin 1024 := 1023
    let j : Job := aJob 0x21 .ready (leBytes 8 0x40000000 ++ [15, 0, 0, 0, 1, 0, 1, 0, 0xFF])
    let s : State := fillWords (withJob (aJob 0x21 .ready (leBytes 8 0x40000000 ++ [15, 0, 0, 0, 1, 0, 1, 0, 0xFF])))
      0x40000000 [0x50000000, 0, 0, 0, 64, 0x00010010, 0]
    let s' : State :=
      let s := fillWords (withJob (aJob 0x21 .ready (leBytes 8 0x40000000 ++ [15, 0, 0, 0, 1, 0, 1, 0, 0xFF]))) 0x40000000 [0x50000000, 0, 0, 0, 64, 0x00010010, 0]
      ((offer s false (copyReady s)).map (fun e => e.2.2)).getD s
    let v : State :=
      let s := fillWords (withJob (aJob 0x21 .ready (leBytes 8 0x40000000 ++ [15, 0, 0, 0, 1, 0, 1, 0, 0xFF]))) 0x40000000 [0x50000000, 0, 0, 0, 64, 0x00010010, 0]
      (fillRun (((offer s false (copyReady s)).map (fun e => e.2.2)).getD s) j).1
    refine ⟨i, j, s, s', v, ?_⟩
    decide +kernel +revert

/-- The hypotheses of Obligations.Migration hold together. -/
theorem witness_Migration :
    (∃ (m : Master) (f : Fin 64) (s : State),
      let a := pageBase (.func f) + Reg.FUNC_MIG_CTRL
      let u := taken s m a
      Accepts s m a ∧ migCheck u f 0x80000001 = none ∧ funcFrozen u f = false) ∧
    (∃ (f : Fin 64) (s : State),
      (s.ring f).freezing = true ∧ (∀ e ∈ jobsIn s, e.2.rs ≠ f.val) ∧ (s.ring f).cqWait = [] ∧ (∀ j ∈ s.legend.jobs,
      j.func ≠ f.val)) ∧
    (∃ (m : Master) (f : Fin 64) (b : Nat) (s : State),
      let a := pageBase (.func f) + Reg.FUNC_MIG_CTRL
      let u := taken s m a
      let w := u.setPf (.func f) Reg.FUNC_MIG_CTRL 2 0 2
      Accepts s m a ∧ migCheck u f 0x80000002 = none ∧ funcFrozen u f = true ∧ imageAddr w f = some b) ∧
    (∃ (m : Master) (f : Fin 64) (b : Nat) (s : State),
      let a := pageBase (.func f) + Reg.FUNC_MIG_CTRL
      let u := taken s m a
      let w := u.setPf (.func f) Reg.FUNC_MIG_CTRL 2 0 3
      Accepts s m a ∧ migCheck u f 0x80000003 = none ∧ funcFrozen u f = true ∧ imageAddr w f = some b) ∧
    (∃ (m : Master) (f : Fin 64) (s : State),
      let a := pageBase (.func f) + Reg.FUNC_MIG_CTRL
      let u := taken s m a
      Accepts s m a ∧ migCheck u f 0x80000004 = none ∧ funcFrozen u f = true) := by
  refine ⟨?_, ?_, ?_, ?_, ?_⟩
  · let m : Master := .func 32
    let f : Fin 64 := 63
    let s : State := put (put (put (on (put (on (on (mapped live) (.hostif 1)) (.func 32)) (.func 32)
      [(Reg.FUNC_FUNC_STATUS, 0x200)]) (.func 63)) (.func 63) [(Reg.FUNC_FUNC_STATUS, 0x200)]) (.hostif 1)
      [(Reg.HOSTIF_LINK, 0x80051000), (Reg.HOSTIF_MEM_BASE_LO, 0x40000000), (Reg.HOSTIF_MEM_BASE_HI, 0),
      (Reg.HOSTIF_MEM_LIMIT_HI, 0), (Reg.HOSTIF_MEM_LIMIT_LO, 0x50000000), (Reg.HOSTIF_VF_BAR2, 16)]) (.func 63)
      [(Reg.FUNC_FUNC_STATUS, 0x200), (Reg.FUNC_MIG_ADDR_LO, 0x40000000), (Reg.FUNC_MIG_ADDR_HI, 0)]
    refine ⟨m, f, s, ?_⟩
    unfold Accepts
    decide +kernel +revert
  · let f : Fin 64 := 63
    let s : State :=
      let s := put (put (put (on (put (on (on (mapped live) (.hostif 1)) (.func 32)) (.func 32) [(Reg.FUNC_FUNC_STATUS, 0x200)]) (.func 63)) (.func 63) [(Reg.FUNC_FUNC_STATUS, 0x200)]) (.hostif 1) [(Reg.HOSTIF_LINK, 0x80051000), (Reg.HOSTIF_MEM_BASE_LO, 0x40000000), (Reg.HOSTIF_MEM_BASE_HI, 0), (Reg.HOSTIF_MEM_LIMIT_HI, 0), (Reg.HOSTIF_MEM_LIMIT_LO, 0x50000000), (Reg.HOSTIF_VF_BAR2, 16)]) (.func 63) [(Reg.FUNC_FUNC_STATUS, 0x200), (Reg.FUNC_MIG_ADDR_LO, 0x40000000), (Reg.FUNC_MIG_ADDR_HI, 0)]
      s.setRing 63 { s.ring 63 with freezing := true }
    refine ⟨f, s, ?_⟩
    decide +kernel +revert
  · let m : Master := .func 32
    let f : Fin 64 := 63
    let b : Nat := 0x40000000
    let s : State := put (put (put (on (put (on (on (mapped live) (.hostif 1)) (.func 32)) (.func 32)
      [(Reg.FUNC_FUNC_STATUS, 0x200)]) (.func 63)) (.func 63) [(Reg.FUNC_FUNC_STATUS, 0x200)]) (.hostif 1)
      [(Reg.HOSTIF_LINK, 0x80051000), (Reg.HOSTIF_MEM_BASE_LO, 0x40000000), (Reg.HOSTIF_MEM_BASE_HI, 0),
      (Reg.HOSTIF_MEM_LIMIT_HI, 0), (Reg.HOSTIF_MEM_LIMIT_LO, 0x50000000), (Reg.HOSTIF_VF_BAR2, 16)]) (.func 63)
      [(Reg.FUNC_FUNC_STATUS, 0xA00), (Reg.FUNC_MIG_ADDR_LO, 0x40000000), (Reg.FUNC_MIG_ADDR_HI, 0)]
    refine ⟨m, f, b, s, ?_⟩
    unfold Accepts
    decide +kernel +revert
  · let m : Master := .func 32
    let f : Fin 64 := 63
    let b : Nat := 0x40000000
    let s : State := put (put (put (on (put (on (on (mapped live) (.hostif 1)) (.func 32)) (.func 32)
      [(Reg.FUNC_FUNC_STATUS, 0x200)]) (.func 63)) (.func 63) [(Reg.FUNC_FUNC_STATUS, 0x200)]) (.hostif 1)
      [(Reg.HOSTIF_LINK, 0x80051000), (Reg.HOSTIF_MEM_BASE_LO, 0x40000000), (Reg.HOSTIF_MEM_BASE_HI, 0),
      (Reg.HOSTIF_MEM_LIMIT_HI, 0), (Reg.HOSTIF_MEM_LIMIT_LO, 0x50000000), (Reg.HOSTIF_VF_BAR2, 16)]) (.func 63)
      [(Reg.FUNC_FUNC_STATUS, 0xA00), (Reg.FUNC_MIG_ADDR_LO, 0x40000000), (Reg.FUNC_MIG_ADDR_HI, 0)]
    refine ⟨m, f, b, s, ?_⟩
    unfold Accepts
    decide +kernel +revert
  · let m : Master := .func 32
    let f : Fin 64 := 63
    let s : State := put (put (put (on (put (on (on (mapped live) (.hostif 1)) (.func 32)) (.func 32)
      [(Reg.FUNC_FUNC_STATUS, 0x200)]) (.func 63)) (.func 63) [(Reg.FUNC_FUNC_STATUS, 0x200)]) (.hostif 1)
      [(Reg.HOSTIF_LINK, 0x80051000), (Reg.HOSTIF_MEM_BASE_LO, 0x40000000), (Reg.HOSTIF_MEM_BASE_HI, 0),
      (Reg.HOSTIF_MEM_LIMIT_HI, 0), (Reg.HOSTIF_MEM_LIMIT_LO, 0x50000000), (Reg.HOSTIF_VF_BAR2, 16)]) (.func 63)
      [(Reg.FUNC_FUNC_STATUS, 0xA00), (Reg.FUNC_MIG_ADDR_LO, 0x40000000), (Reg.FUNC_MIG_ADDR_HI, 0)]
    refine ⟨m, f, s, ?_⟩
    unfold Accepts
    decide +kernel +revert

/-- The hypotheses of Obligations.KeyScans hold together. -/
theorem witness_KeyScans :
    (∃ (m : Master) (s : State),
      let a := hadr .keys .ctrl
      Accepts s m a ∧ (taken s m a).busy .keys = false ∧ s.mode.mode ≠ .survey ∧ (taken s m a).mode.mode ≠ .survey) ∧
    (∃ (p : Fin 4) (s : State),
      s.enabled .keys = true ∧ s.pf .keys Reg.KEYS_PORT_EN p p = 1 ∧ b4Keys s = false ∧ (s.scan p).slot = none ∧
      (s.scan p).testing = false) ∧
    (∃ (p : Fin 4) (sl : Nat) (s : State),
      (s.scan p).slot = some sl ∧ sl < 7 ∧ (s.scan p).initScan = true ∧ armed s .keys 0x60 = none ∧ armed s .keys
      0x61 = none ∧ (∀ c < 8, (s.key (64 * p + 8 * sl + c)).forcedLeft = 0)) ∧
    (∃ (m : Master) (value : Word) (s : State),
      let a := pageBase .keys + Reg.KEYS_SELFTEST
      Accepts s m a ∧ fbit value 31 = true ∧ selftestCheck (taken s m a) value = none) ∧
    (∃ (s : State),
      s.pf .keys Reg.KEYS_SELFTEST 30 30 = 1) := by
  refine ⟨?_, ?_, ?_, ?_, ?_⟩
  · let m : Master := .surveyor
    let s : State := up live .keys
    refine ⟨m, s, ?_⟩
    unfold Accepts
    decide +kernel +revert
  · let p : Fin 4 := 3
    let s : State := put (on (mapped live) .keys) .keys [(Reg.KEYS_PORT_EN, 0xFFFFFFFF), (Reg.KEYS_NEIGH_LIMIT, 100)]
    refine ⟨p, s, ?_⟩
    decide +kernel +revert
  · let p : Fin 4 := 3
    let sl : Nat := 6
    let s : State :=
      let s := put (on (mapped live) .keys) .keys [(Reg.KEYS_PORT_EN, 0xFFFFFFFF), (Reg.KEYS_NEIGH_LIMIT, 100)]
      s.setScan 3 { s.scan 3 with slot := some 6, initScan := true }
    refine ⟨p, sl, s, ?_⟩
    decide +kernel +revert
  · let m : Master := .surveyor
    let value : Word := 0x80000003
    let s : State := put (on (mapped live) .keys) .keys [(Reg.KEYS_PORT_EN, 0xFFFFFFFF), (Reg.KEYS_NEIGH_LIMIT, 100)]
    refine ⟨m, value, s, ?_⟩
    unfold Accepts
    decide +kernel +revert
  · let s : State := put (on (mapped live) .keys) .keys [(Reg.KEYS_PORT_EN, 0xFFFFFFFF), (Reg.KEYS_SELFTEST,
      0x40000003), (Reg.KEYS_ST_LIMITS, 0xFFFF0001)]
    refine ⟨s, ?_⟩
    decide +kernel +revert

/-- The hypotheses of Obligations.KeyEvents hold together. -/
theorem witness_KeyEvents :
    (∃ (r : KeyRec) (rest : List KeyRec) (s : State),
      s.keyWait = r :: rest ∧ (¬ (s.mode.mode = .safe ∧ r.owner ≠ 0x40)) ∧ queueOf s r.owner = none) ∧
    (∃ (r : KeyRec) (rest : List KeyRec) (q : Nat) (s : State),
      s.keyWait = r :: rest ∧ (¬ (s.mode.mode = .safe ∧ r.owner ≠ 0x40)) ∧ queueOf s r.owner = some q ∧ (eqTail s q
      + 1) % eqSize s q = eqHead s q) ∧
    (∃ (r : KeyRec) (rest : List KeyRec) (q : Nat) (s : State),
      s.keyWait = r :: rest ∧ (¬ (s.mode.mode = .safe ∧ r.owner ≠ 0x40)) ∧ queueOf s r.owner = some q ∧ (eqTail s q
      + 1) % eqSize s q ≠ eqHead s q ∧ eqSize s q ≤ 4096 ∧ (busWrite { s with keyWait := rest } 0x0E (r.owner ==
      0x40) (eqBase s q + 8 * eqTail s q) ([r.key, r.edge + s.pf .keys (Reg.KEYS_EQ_TAIL + 16 * q) 30 30 * 128] ++
      leBytes 6 r.time)).2 = .ok ()) ∧
    (∃ (m : Master) (q : Fin 16) (value : Word) (s : State),
      let a := pageBase .keys + Reg.KEYS_EQ_BASE_HI + 16 * q.val
      Accepts s m a ∧ fbit value 31 = true ∧ eqValid (taken s m a) q = false ∧ eqBaseCheck (taken s m a) m q value =
      none) ∧
    (∃ (m : Master) (q : Fin 16) (value : Word) (s : State),
      let a := pageBase .keys + Reg.KEYS_EQ_HEAD + 16 * q.val
      Accepts s m a ∧ eqHeadCheck (taken s m a) q value = none) ∧
    (∃ (k : Nat) (par : Nat) (s : State),
      armed s .keys 0x60 = some (k, par)) ∧
    (∃ (k : Nat) (par : Nat) (s : State),
      armed s .keys 0x61 = some (k, par)) := by
  refine ⟨?_, ?_, ?_, ?_, ?_, ?_, ?_⟩
  · let r : KeyRec := { key := 255, edge := 1, time := 0xFFFFFFFFFFFF, owner := 0x42 }
    let rest : List KeyRec := []
    let s : State := { (put (on (mapped live) .keys) .keys [(Reg.KEYS_PORT_EN, 0xFFFFFFFF), (Reg.KEYS_NEIGH_LIMIT, 100)]) with keyWait := [{ key := 255, edge := 1, time := 0xFFFFFFFFFFFF, owner := 0x42 }] }
    refine ⟨r, rest, s, ?_⟩
    decide +kernel +revert
  · let r : KeyRec := { key := 255, edge := 1, time := 0xFFFFFFFFFFFF, owner := 0x42 }
    let rest : List KeyRec := []
    let q : Nat := 15
    let s : State := { (put (on (mapped live) .keys) .keys [(Reg.KEYS_PORT_EN, 0xFFFFFFFF), (Reg.KEYS_EQ_BASE_LO + 240, 0x40000000), (Reg.KEYS_EQ_BASE_HI + 240, 0x8C420000), (Reg.KEYS_EQ_HEAD + 240, 0), (Reg.KEYS_EQ_TAIL + 240, 4095)]) with keyWait := [{ key := 255, edge := 1, time := 0xFFFFFFFFFFFF, owner := 0x42 }] }
    refine ⟨r, rest, q, s, ?_⟩
    decide +kernel +revert
  · let r : KeyRec := { key := 255, edge := 1, time := 0xFFFFFFFFFFFF, owner := 0x42 }
    let rest : List KeyRec := []
    let q : Nat := 15
    let s : State := { (put (on (mapped live) .keys) .keys [(Reg.KEYS_PORT_EN, 0xFFFFFFFF), (Reg.KEYS_EQ_BASE_LO + 240, 0x40000000), (Reg.KEYS_EQ_BASE_HI + 240, 0x8C420000), (Reg.KEYS_EQ_HEAD + 240, 5), (Reg.KEYS_EQ_TAIL + 240, 4095)]) with keyWait := [{ key := 255, edge := 1, time := 0xFFFFFFFFFFFF, owner := 0x42 }] }
    refine ⟨r, rest, q, s, ?_⟩
    decide +kernel +revert
  · let m : Master := .surveyor
    let q : Fin 16 := 15
    let value : Word := 0x8C420000
    let s : State := (put (on (mapped live) .keys) .keys [(Reg.KEYS_PORT_EN, 0xFFFFFFFF), (Reg.KEYS_NEIGH_LIMIT,
      100)]).stageWord .surveyor (pageBase .keys + Reg.KEYS_EQ_BASE_LO + 240) (pageBase .keys + Reg.KEYS_EQ_BASE_LO +
      240) (pageBase .keys + Reg.KEYS_EQ_BASE_LO + 240) 0x40000000
    refine ⟨m, q, value, s, ?_⟩
    unfold Accepts
    decide +kernel +revert
  · let m : Master := .sapwood
    let q : Fin 16 := 15
    let value : Word := 4095
    let s : State := cores (put (on (mapped live) .keys) .keys [(Reg.KEYS_PORT_EN, 0xFFFFFFFF), (Reg.KEYS_EQ_BASE_LO +
      240, 0x40000000), (Reg.KEYS_EQ_BASE_HI + 240, 0x8C420000), (Reg.KEYS_EQ_HEAD + 240, 5), (Reg.KEYS_EQ_TAIL + 240,
      4095)])
    refine ⟨m, q, value, s, ?_⟩
    unfold Accepts
    decide +kernel +revert
  · let k : Nat := 255
    let par : Nat := 3
    let s : State := arm (put (on (mapped live) .keys) .keys [(Reg.KEYS_PORT_EN, 0xFFFFFFFF), (Reg.KEYS_NEIGH_LIMIT,
      100)]) .keys 0x60 255 3
    refine ⟨k, par, s, ?_⟩
    decide +kernel +revert
  · let k : Nat := 255
    let par : Nat := 3
    let s : State := arm (put (on (mapped live) .keys) .keys [(Reg.KEYS_PORT_EN, 0xFFFFFFFF), (Reg.KEYS_NEIGH_LIMIT,
      100)]) .keys 0x61 255 3
    refine ⟨k, par, s, ?_⟩
    decide +kernel +revert

/-- The hypotheses of Obligations.Haptics hold together. -/
theorem witness_Haptics :
    (∃ (m : Master) (ch : Fin 16) (s : State),
      let a := hadr (.hapch ch) .ctrl
      Accepts s m a ∧ (taken s m a).busy (.hapch ch) = false ∧ (taken s m a).enabled (.hapch ch) = false) ∧
    (∃ (m : Master) (ch : Fin 16) (e : Fin 64) (s : State),
      let a := pageBase (.hapch ch) + Reg.HAPCH_TRIGGER
      Accepts s m a ∧ hapReady (taken s m a) ch = true ∧ keyTook (taken s m a) ch = false ∧ hapPhase (taken s m a)
      ch = 0 ∧ bit (effWord (effectWords (taken s m a) e) 3) 0 = true) ∧
    (∃ (m : Master) (ch : Fin 16) (e : Fin 64) (s : State),
      let a := pageBase (.hapch ch) + Reg.HAPCH_TRIGGER
      Accepts s m a ∧ hapReady (taken s m a) ch = true ∧ keyTook (taken s m a) ch = false ∧ bit (effWord
      (effectWords (taken s m a) e) 3) 0 = false) ∧
    (∃ (m : Master) (ch : Fin 16) (s : State),
      let a := pageBase (.hapch ch) + Reg.HAPCH_TRIGGER
      Accepts s m a ∧ (hapPhase (taken s m a) ch = 1 ∨ hapPhase (taken s m a) ch = 2)) ∧
    (∃ (ch : Fin 16) (s : State),
      hapPhase s ch = 2 ∧ 1 < (s.hap ch).left ∧ (s.hap ch).checkStall = false) ∧
    (∃ (p : BitVec 16) (s : State),
      p ≠ 0) := by
  refine ⟨?_, ?_, ?_, ?_, ?_, ?_⟩
  · let m : Master := .surveyor
    let ch : Fin 16 := 15
    let s : State := put (up live (.hapch 15)) (.hapch 15) [(Reg.HAPCH_HCFG, 0x80000096)]
    refine ⟨m, ch, s, ?_⟩
    unfold Accepts
    decide +kernel +revert
  · let m : Master := .surveyor
    let ch : Fin 16 := 15
    let e : Fin 64 := 63
    let s : State := put (put (on (on live .haptic) (.hapch 15)) .haptic [(Reg.HAPTIC_RAIL_STATUS, 0x80000000),
      (Reg.HAPTIC_POWER_CAP, 1000), (Reg.HAPTIC_EFFECT_W0 + 16 * 63, 0x00400040), (Reg.HAPTIC_EFFECT_W0 + 16 * 63 +
      12, 1)]) (.hapch 15) [(Reg.HAPCH_HSTATUS, 0), (Reg.HAPCH_HCFG, 0x80000096)]
    refine ⟨m, ch, e, s, ?_⟩
    unfold Accepts
    decide +kernel +revert
  · let m : Master := .surveyor
    let ch : Fin 16 := 15
    let e : Fin 64 := 62
    let s : State := put (put (on (on live .haptic) (.hapch 15)) .haptic [(Reg.HAPTIC_RAIL_STATUS, 0x80000000),
      (Reg.HAPTIC_POWER_CAP, 1000), (Reg.HAPTIC_EFFECT_W0 + 16 * 63, 0x00400040), (Reg.HAPTIC_EFFECT_W0 + 16 * 63 +
      12, 1)]) (.hapch 15) [(Reg.HAPCH_HSTATUS, 0), (Reg.HAPCH_HCFG, 0x80000096)]
    refine ⟨m, ch, e, s, ?_⟩
    unfold Accepts
    decide +kernel +revert
  · let m : Master := .surveyor
    let ch : Fin 16 := 15
    let s : State := put (put (on (on live .haptic) (.hapch 15)) .haptic [(Reg.HAPTIC_RAIL_STATUS, 0x80000000),
      (Reg.HAPTIC_POWER_CAP, 1000), (Reg.HAPTIC_EFFECT_W0 + 16 * 63, 0x00400040), (Reg.HAPTIC_EFFECT_W0 + 16 * 63 +
      12, 1)]) (.hapch 15) [(Reg.HAPCH_HSTATUS, 1), (Reg.HAPCH_HCFG, 0x80000096)]
    refine ⟨m, ch, s, ?_⟩
    unfold Accepts
    decide +kernel +revert
  · let ch : Fin 16 := 15
    let s : State :=
      let s := put (put (on (on live .haptic) (.hapch 15)) .haptic [(Reg.HAPTIC_RAIL_STATUS, 0x80000000), (Reg.HAPTIC_POWER_CAP, 1000), (Reg.HAPTIC_EFFECT_W0 + 16 * 63, 0x00400040), (Reg.HAPTIC_EFFECT_W0 + 16 * 63 + 12, 1)]) (.hapch 15) [(Reg.HAPCH_HSTATUS, 2), (Reg.HAPCH_HCFG, 0x80000096)]
      s.setHap 15 { s.hap 15 with left := 2, words := [0x00400040, 0, 0, 1] }
    refine ⟨ch, s, ?_⟩
    decide +kernel +revert
  · let p : BitVec 16 := 0xFFFF
    let s : State := put (put (on (on live .haptic) (.hapch 15)) .haptic [(Reg.HAPTIC_RAIL_STATUS, 0x80000000),
      (Reg.HAPTIC_POWER_CAP, 1000), (Reg.HAPTIC_EFFECT_W0 + 16 * 63, 0x00400040), (Reg.HAPTIC_EFFECT_W0 + 16 * 63 +
      12, 1)]) (.hapch 15) [(Reg.HAPCH_HSTATUS, 2), (Reg.HAPCH_HCFG, 0x80000096)]
    refine ⟨p, s, ?_⟩
    decide +kernel +revert

/-- The hypotheses of Obligations.AudioStreams hold together. -/
theorem witness_AudioStreams :
    (∃ (m : Master) (s : State),
      let a := hadr .audio .ctrl
      Accepts s m a ∧ (taken s m a).busy .audio = false ∧ (taken s m a).enabled .audio = false) ∧
    (∃ (m : Master) (k : Fin 48) (value : Word) (s : State),
      let a := pageBase .audio + Reg.AUDIO_SRC_BASE_HI + 16 * k.val
      let lo := (((taken s m a).staged m (a - 4) (a - 4)).find? (fun w => w.1 == a - 4)).elim ((taken s m a).reg (a
        - 4)) (·.2)
      Accepts s m a ∧ srcEn (taken s m a) k = false ∧ fbit lo 0 = true ∧ 8 ≤ fget value 19 16) ∧
    (∃ (k : Fin 48) (s : State) (s' : State) (b : List Nat),
      srcEn s k = true ∧ s.enabled .audio = true ∧ s.mode.mode ≠ .safe ∧ srcRd s k ≠ srcWr s k ∧ lineServes s k =
      false ∧ ownerRead s (streamOwner s k) 0x0E (streamOwner s k == 0x40) ((srcBase s k + 4 * srcRd s k) / 64 * 64)
      64 = (s', .ok b)) ∧
    (∃ (s : State),
      s.enabled .audio = true ∧ s.mode.mode ≠ .held ∧ loadIsShed s = false) := by
  refine ⟨?_, ?_, ?_, ?_⟩
  · let m : Master := .surveyor
    let s : State := put (up live .audio) .audio [(Reg.AUDIO_SRC_PTR + 752, 7)]
    refine ⟨m, s, ?_⟩
    unfold Accepts
    decide +kernel +revert
  · let m : Master := .sapwood
    let k : Fin 48 := 47
    let value : Word := 0x000FFFFF
    let s : State := (put (on (cores live) .audio) .audio [(Reg.AUDIO_SRC_PTR + 752, 7), (Reg.AUDIO_SRC_OWNER + 752,
      0x42)]).stageWord .sapwood (pageBase .audio + Reg.AUDIO_SRC_BASE_LO + 752) (pageBase .audio +
      Reg.AUDIO_SRC_BASE_LO + 752) (pageBase .audio + Reg.AUDIO_SRC_BASE_LO + 752) 0x40000001
    refine ⟨m, k, value, s, ?_⟩
    unfold Accepts
    decide +kernel +revert
  · let k : Fin 48 := 47
    let s : State := put (on (mapped live) .audio) .audio [(Reg.AUDIO_SRC_BASE_LO + 752, 0x40000001),
      (Reg.AUDIO_SRC_BASE_HI + 752, 0x000F0000), (Reg.AUDIO_SRC_PTR + 752, 0x7FFF0000), (Reg.AUDIO_SRC_OWNER + 752,
      0x42)]
    let s' : State :=
      let s := put (on (mapped live) .audio) .audio [(Reg.AUDIO_SRC_BASE_LO + 752, 0x40000001), (Reg.AUDIO_SRC_BASE_HI + 752, 0x000F0000), (Reg.AUDIO_SRC_PTR + 752, 0x7FFF0000), (Reg.AUDIO_SRC_OWNER + 752, 0x42)]
      (ownerRead s 0x42 0x0E false (0x40000000 + 4 * 0x7FFF / 64 * 64) 64).1
    let b : List Nat := List.replicate 64 0
    refine ⟨k, s, s', b, ?_⟩
    decide +kernel +revert
  · let s : State := put (on (mapped live) .audio) .audio [(Reg.AUDIO_SRC_BASE_LO + 752, 0x40000001),
      (Reg.AUDIO_SRC_BASE_HI + 752, 0x000F0000), (Reg.AUDIO_SRC_PTR + 752, 0x7FFF0000), (Reg.AUDIO_SRC_OWNER + 752,
      0x42)]
    refine ⟨s, ?_⟩
    decide +kernel +revert

/-- The hypotheses of Obligations.HeldEntry hold together. -/
theorem witness_HeldEntry :
    (∃ (s : State),
      s.mode.mode ≠ .held) ∧
    (∃ (s : State),
      s.mode.mode = .held) ∧
    (∃ (s : State),
      s.mode.mode = .held) ∧
    (∃ (s : State),
      s.mode.mode = .held ∧ s.surv.step = .charging ∧ aget 0 s.surv.trial 0 = 0) ∧
    (∃ (s : State),
      s.mode.mode = .held ∧ s.surv.step = .surveyorUp ∧ s.surv.mains = true) := by
  refine ⟨?_, ?_, ?_, ?_, ?_⟩
  · let s : State :=
      let s : State := mapped live
      { s with log := { s.log with queue := List.replicate 5 (⟨7, 1, .power, false, false, false, 0, 0, 0, 0, 0, []⟩ : LogEntry) } }
    refine ⟨s, ?_⟩
    decide +kernel +revert
  · let s : State := ({ (live) with mode := { mode := .held, prior := .native }, surv := { step := .stuck } } : State)
    refine ⟨s, ?_⟩
    decide +kernel +revert
  · let s : State := ({ (live) with mode := { mode := .held, prior := .native }, surv := { step := .stuck } } : State)
    refine ⟨s, ?_⟩
    decide +kernel +revert
  · let s : State := ({ (live) with mode := { mode := .held, prior := .native }, surv := { step := .charging } } :
      State)
    refine ⟨s, ?_⟩
    decide +kernel +revert
  · let s : State := ({ (live) with mode := { mode := .held, prior := .native }, surv := { step := .surveyorUp } } :
      State)
    refine ⟨s, ?_⟩
    decide +kernel +revert

/-- The hypotheses of Obligations.ReleaseFromHeld hold together. -/
theorem witness_ReleaseFromHeld :
    (∃ (ppm : Int) (s : State),
      s.mode.mode = .held ∧ s.surv.step = .railsGood ∧ s.surv.resetIn = false ∧ condsOk s ppm = true) ∧
    (∃ (ppm : Int) (s : State),
      s.mode.mode = .held ∧ s.surv.step = .railsGood ∧ s.surv.resetIn = false ∧ condsOk s ppm = false) ∧
    (∃ (s : State),
      s.mode.mode ≠ .held ∧ s.log.queue.length < 1024) ∧
    (∃ (s : State),
      s.surv.step ≠ .unpowered ∧ s.surv.step ≠ .charging ∧ s.surv.step ≠ .recovery) ∧
    (∃ (comp : Fin 5) (s : State),
      comp.val ≠ 0 ∧ 2 ≤ aget 0 s.surv.trial comp ∧ s.surv.step = .running) ∧
    (∃ (comp : Fin 5) (s : State),
      comp.val ≠ 0 ∧ 4 ≤ aget 0 s.surv.trial comp ∧ s.mode.mode = .held ∧ s.surv.step = .railsGood) := by
  refine ⟨?_, ?_, ?_, ?_, ?_, ?_⟩
  · let ppm : Int := -100
    let s : State := ({ live with mode := { mode := .held, prior := .native }, surv := { step := .railsGood, sensors := [(0, -200), (1, 800), (2, 250), (3, 250), (4, 250), (5, 250), (6, 250), (7, 250), (16, 741)] } }
      : State)
    refine ⟨ppm, s, ?_⟩
    decide +kernel +revert
  · let ppm : Int := 100
    let s : State := ({ live with mode := { mode := .held, prior := .native }, surv := { step := .railsGood, sensors := [(0, -200), (1, 800), (2, 250), (3, 250), (4, 250), (5, 250), (6, 250), (7, 250), (16, 742)] } }
      : State)
    refine ⟨ppm, s, ?_⟩
    decide +kernel +revert
  · let s : State := live
    refine ⟨s, ?_⟩
    decide +kernel +revert
  · let s : State := live
    refine ⟨s, ?_⟩
    decide +kernel +revert
  · let comp : Fin 5 := 4
    let s : State :=
      let s : State := live
      { s with surv := { s.surv with trial := [(4, 2)], active := [(4, 1)] } }
    refine ⟨comp, s, ?_⟩
    decide +kernel +revert
  · let comp : Fin 5 := 4
    let s : State :=
      let s : State := ({ (live) with mode := { mode := .held, prior := .native }, surv := { step := .railsGood } } : State)
      { s with surv := { s.surv with trial := [(4, 4)], active := [(4, 1)] } }
    refine ⟨comp, s, ?_⟩
    decide +kernel +revert

/-- The hypotheses of Obligations.SurveySteps hold together. -/
theorem witness_SurveySteps :
    (∃ (s : State),
      s.mode.mode = .survey ∧ s.surv.step = .bist ∧ (channelsOut s).length ≤ 4) ∧
    (∃ (s : State),
      s.mode.mode = .survey ∧ s.surv.step = .bist ∧ (channelsOut s).length ≤ 4) ∧
    (∃ (s : State),
      s.mode.mode = .survey ∧ s.surv.step = .bist) ∧
    (∃ (s : State),
      s.mode.mode = .survey ∧ s.surv.step = .training ∧ (channelsOut s).length ≤ 4) := by
  refine ⟨?_, ?_, ?_, ?_⟩
  · let s : State := ({ State.reset with surv := { State.reset.surv with step := .bist } } : State)
    refine ⟨s, ?_⟩
    decide +kernel +revert
  · let s : State := ({ State.reset with surv := { State.reset.surv with step := .bist } } : State)
    refine ⟨s, ?_⟩
    decide +kernel +revert
  · let s : State := ({ State.reset with surv := { State.reset.surv with step := .bist } } : State)
    refine ⟨s, ?_⟩
    decide +kernel +revert
  · let s : State := ({ State.reset with surv := { State.reset.surv with step := .training } } : State)
    refine ⟨s, ?_⟩
    decide +kernel +revert

/-- The hypotheses of Obligations.SurveyEnds hold together. -/
theorem witness_SurveyEnds :
    (∃ (s : State),
      s.mode.mode = .survey ∧ s.surv.step = .endOfSurvey) ∧
    (∃ (s : State),
      s.surv.step = .running ∧ s.surv.hwLoaded = false ∧ s.cpx.step = .idle ∧ s.mode.mode ≠ .safe ∧ s.surv.hwTried =
      [] ∧ activeBankOf s 1 ≤ 1) := by
  refine ⟨?_, ?_⟩
  · let s : State := ({ State.reset with surv := { State.reset.surv with step := .endOfSurvey } } : State)
    refine ⟨s, ?_⟩
    decide +kernel +revert
  · let s : State := live
    refine ⟨s, ?_⟩
    decide +kernel +revert

/-- The hypotheses of Obligations.SensorsAndClock hold together. -/
theorem witness_SensorsAndClock :
    (∃ (s : State),
      s.surv.step ≠ .unpowered ∧ s.surv.step ≠ .charging ∧ s.surv.step ≠ .recovery ∧ s.mode.mode ≠ .held) ∧
    (∃ (s : State),
      let step := (gclkLimits s).foldl max 0
      let by' := if step = 0 then 0 else maskOf 4 (fun k => (gclkLimits s).getD k 0 == step)
      let w := w32 (by' * 256 + step)
      s.mode.mode ≠ .held ∧ w ≠ s.pr .clkpwr Reg.CLKPWR_GCLK_STATUS) := by
  refine ⟨?_, ?_⟩
  · let s : State := live
    refine ⟨s, ?_⟩
    decide +kernel +revert
  · let s : State :=
      let s : State := live
      { s with surv := { s.surv with sagStep := 2 } }
    refine ⟨s, ?_⟩
    decide +kernel +revert

/-- The hypotheses of Obligations.FansAndSags hold together. -/
theorem witness_FansAndSags :
    (∃ (s : State),
      s.surv.fanLost = [] ∧ s.mode.mode ≠ .held) ∧
    (∃ (k : Fin 2) (j : Fin 2) (s : State),
      s.surv.fanLost = [j.val] ∧ k ≠ j ∧ s.mode.mode ≠ .held) ∧
    (∃ (s : State),
      s.surv.sagOn = [] ∧ s.mode.mode ≠ .held) ∧
    (∃ (cond : Fin 3) (s : State),
      s.surv.sagOn ≠ [] ∧ cond.val ∉ s.surv.sagOn ∧ s.mode.mode ≠ .held) ∧
    (∃ (s : State),
      s.surv.sagOn ≠ [] ∧ s.surv.sagAt + 100 ≤ s.uptimeUs ∧ s.mode.mode ≠ .held) ∧
    (∃ (cond : Fin 3) (s : State),
      cond.val ∈ s.surv.sagOn ∧ s.mode.mode ≠ .held) ∧
    (∃ (s : State),
      s.surv.sagOn = [] ∧ s.surv.sagStep ≠ 0 ∧ s.surv.sagClearAt + 10000 ≤ s.uptimeUs ∧ s.mode.mode ≠ .held) := by
  refine ⟨?_, ?_, ?_, ?_, ?_, ?_, ?_⟩
  · let s : State := live
    refine ⟨s, ?_⟩
    decide +kernel +revert
  · let k : Fin 2 := 1
    let j : Fin 2 := 0
    let s : State :=
      let s : State := live
      { s with surv := { s.surv with fanLost := [0] } }
    refine ⟨k, j, s, ?_⟩
    decide +kernel +revert
  · let s : State := live
    refine ⟨s, ?_⟩
    decide +kernel +revert
  · let cond : Fin 3 := 0
    let s : State :=
      let s : State := live
      { s with surv := { s.surv with sagOn := [1, 2], sagStep := 3 } }
    refine ⟨cond, s, ?_⟩
    decide +kernel +revert
  · let s : State :=
      let s : State := atMs live 1
      { s with surv := { s.surv with sagOn := [1], sagStep := 2, sagAt := 900 } }
    refine ⟨s, ?_⟩
    decide +kernel +revert
  · let cond : Fin 3 := 2
    let s : State :=
      let s : State := live
      { s with surv := { s.surv with sagOn := [1, 2], sagStep := 3 } }
    refine ⟨cond, s, ?_⟩
    decide +kernel +revert
  · let s : State :=
      let s : State := atMs live 11
      { s with surv := { s.surv with sagStep := 3, sagClearAt := 1000 } }
    refine ⟨s, ?_⟩
    decide +kernel +revert

/-- The hypotheses of Obligations.MainsLoss hold together. -/
theorem witness_MainsLoss :
    (∃ (t0 : Nat) (s : State),
      s.surv.acLowAt = some t0 ∧ s.mode.mode ≠ .held ∧ loadIsShed s = false ∧ t0 + 20000 ≤ s.uptimeUs) ∧
    (∃ (bulk : BitVec 16) (rail12 : BitVec 16) (ac : Bool) (s : State),
      loadIsShed s = true ∧ s.log.queue = [] ∧ (bulk.toNat < 2600 ∨ rail12.toNat < 11000 ∨ ac = true)) ∧
    (∃ (bulk : BitVec 16) (s : State),
      s.log.queue ≠ [] ∧ s.surv.step ≠ .unpowered ∧ s.surv.step ≠ .charging ∧ s.log.flash.length + 4 ≤ 32768 ∧
      s.surv.deferred = false ∧ energyOk { s with surv := { s.surv with bulk := bulk.toNat } } 100 = true) ∧
    (∃ (bulk : BitVec 16) (s : State),
      s.log.queue ≠ [] ∧ s.surv.step ≠ .unpowered ∧ s.surv.step ≠ .charging ∧ s.surv.deferred = false ∧ energyOk { s with surv := { s.surv with bulk := bulk.toNat } }
      100 = false) ∧
    (∃ (bulk : BitVec 16) (e : LogEntry) (rest : List LogEntry) (s : State),
      s.surv.deferred = true ∧ s.log.queue = e :: rest ∧ s.log.flash.length + 4 ≤ 32768 ∧ energyOk { s with surv := { s.surv with bulk := bulk.toNat } }
      100 = true) := by
  refine ⟨?_, ?_, ?_, ?_, ?_⟩
  · let t0 : Nat := 0
    let s : State :=
      let s : State := atMs (mapped live) 20
      { s with surv := { s.surv with acLowAt := some 0 } }
    refine ⟨t0, s, ?_⟩
    decide +kernel +revert
  · let bulk : BitVec 16 := 2600
    let rail12 : BitVec 16 := 10999
    let ac : Bool := false
    let s : State :=
      let s : State := live
      { s with surv := { s.surv with step := .shed, mains := false } }
    refine ⟨bulk, rail12, ac, s, ?_⟩
    decide +kernel +revert
  · let bulk : BitVec 16 := 3900
    let s : State :=
      let s : State := live
      { s with log := { s.log with queue := List.replicate 5 (⟨7, 1, .power, false, false, false, 0, 0, 0, 0, 0, []⟩ : LogEntry) } }
    refine ⟨bulk, s, ?_⟩
    decide +kernel +revert
  · let bulk : BitVec 16 := 2500
    let s : State :=
      let s : State := live
      { s with log := { s.log with queue := List.replicate 5 (⟨7, 1, .power, false, false, false, 0, 0, 0, 0, 0, []⟩ : LogEntry) } }
    refine ⟨bulk, s, ?_⟩
    decide +kernel +revert
  · let bulk : BitVec 16 := 3900
    let e : LogEntry := (⟨7, 1, .power, false, false, false, 0, 0, 0, 0, 0, []⟩ : LogEntry)
    let rest : List LogEntry := List.replicate 4 (⟨7, 1, .power, false, false, false, 0, 0, 0, 0, 0, []⟩ : LogEntry)
    let s : State :=
      let s : State := (let s : State := live; { s with log := { s.log with queue := List.replicate 5 (⟨7, 1, .power, false, false, false, 0, 0, 0, 0, 0, []⟩ : LogEntry) } } : State)
      { s with surv := { s.surv with deferred := true } }
    refine ⟨bulk, e, rest, s, ?_⟩
    decide +kernel +revert

/-- The hypotheses of Obligations.TelemetryAndPower hold together. -/
theorem witness_TelemetryAndPower :
    (∃ (s : State),
      s.surv.telemetry.en = true ∧ s.mode.mode ≠ .held ∧ s.surv.telemetry.count ≠ 0) ∧
    (∃ (m : Master) (value : Word) (u : Nat) (s : State),
      let a := pageBase .clkpwr + Reg.CLKPWR_UNIT_CTRL
      Accepts s m a ∧ unitOf (taken s m a) = some u ∧ unitCheck (taken s m a) value = none) ∧
    (∃ (n : Fin 12) (s : State),
      s.surv.dpPwr = true ∧ n.val ∉ s.surv.dpOff) := by
  refine ⟨?_, ?_, ?_⟩
  · let s : State :=
      let s : State := mapped live
      { s with surv := { s.surv with telemetry := { base := 0x40000000, count := 3, en := true, seq := 5, owner := 0x42 } } }
    refine ⟨s, ?_⟩
    decide +kernel +revert
  · let m : Master := .sapwood
    let value : Word := 7
    let u : Nat := 51
    let s : State := put (up (cores live) .clkpwr) .clkpwr [(Reg.CLKPWR_UNIT_SEL, pageBase .veneer / 4096)]
    refine ⟨m, value, u, s, ?_⟩
    unfold Accepts
    decide +kernel +revert
  · let n : Fin 12 := 11
    let s : State :=
      let s : State := live
      { s with surv := { s.surv with dpPwr := true } }
    refine ⟨n, s, ?_⟩
    decide +kernel +revert

/-- The hypotheses of Obligations.MailboxSlots hold together. -/
theorem witness_MailboxSlots :
    (∃ (m : Master) (k : Fin 4) (value : Word) (s : State),
      let a := pageBase .surveyorMb + slotOff k 0
      Accepts s m a ∧ slotBusy (taken s m a) k = false ∧ 8 ≤ fget value 8 0 ∧ fget value 8 0 ≤ 256) ∧
    (∃ (k : Fin 4) (r : List Nat) (s : State),
      s.mode.mode ≠ .held ∧ slotBusy s k = true ∧ aget none s.surv.replies k = some r ∧ r.length ≤ 256 ∧
      s.surv.resetAfter ≠ some k.val) ∧
    (∃ (k : Fin 4) (s : State),
      s.mode.mode ≠ .held ∧ slotBusy s k = true ∧ aget none s.surv.replies k = none ∧ s.surv.resetAfter ≠ some k.val
      ∧ (slotRequest s k).getD 0 256 ∉ mbCmds) ∧
    (∃ (k : Fin 4) (r : List Nat) (s : State),
      s.mode.mode ≠ .held ∧ slotBusy s k = true ∧ aget none s.surv.replies k = some r ∧ s.surv.resetAfter = some
      k.val) ∧
    (∃ (p : MbPath) (s : State),
      Asked s p 0x21 0 ∧ (pathWho p = .p ∨ pathWho p = .sap)) ∧
    (∃ (p : MbPath) (s : State),
      Asked s p 0x21 0 ∧ (pathWho p = .h ∨ pathWho p = .v) ∧ (argsOf s p).length < 64) := by
  refine ⟨?_, ?_, ?_, ?_, ?_, ?_⟩
  · let m : Master := .sapwood
    let k : Fin 4 := 3
    let value : Word := 0x100
    let s : State := on (cores live) .surveyorMb
    refine ⟨m, k, value, s, ?_⟩
    unfold Accepts
    decide +kernel +revert
  · let k : Fin 4 := 3
    let r : List Nat := ([(0x40 : Nat), 0, 1, 2, 0, 0, 0, 0, 9] : List Nat)
    let s : State :=
      let s : State := put (on (live) .surveyorMb) .surveyorMb ((slotOff 3 0, ((([0x40, 0, 1, 2, 0, 0, 0, 0] ++ [] : List Nat))).length) :: (slotOff 3 4, 0x80000000) :: (List.range 64).map (fun i => (slotOff 3 (0x100 + 4 * i), ofLeBytes ((((([0x40, 0, 1, 2, 0, 0, 0, 0] ++ [] : List Nat))).drop (4 * i)).take 4))))
      { s with surv := { s.surv with replies := [(3, some ([(0x40 : Nat), 0, 1, 2, 0, 0, 0, 0, 9] : List Nat))] } }
    refine ⟨k, r, s, ?_⟩
    decide +kernel +revert
  · let k : Fin 4 := 3
    let s : State := put (on (live) .surveyorMb) .surveyorMb ((slotOff 3 0, ((([0x42, 0, 1, 2, 0, 0, 0, 0] ++ [] :
      List Nat))).length) :: (slotOff 3 4, 0x80000000) :: (List.range 64).map (fun i => (slotOff 3 (0x100 + 4 * i),
      ofLeBytes ((((([0x42, 0, 1, 2, 0, 0, 0, 0] ++ [] : List Nat))).drop (4 * i)).take 4))))
    refine ⟨k, s, ?_⟩
    decide +kernel +revert
  · let k : Fin 4 := 2
    let r : List Nat := ([(0x40 : Nat), 0, 1, 2, 0, 0, 0, 0, 9] : List Nat)
    let s : State :=
      let s : State := put (on (live) .surveyorMb) .surveyorMb ((slotOff 2 0, ((([0x40, 0, 1, 2, 0, 0, 0, 0] ++ [] : List Nat))).length) :: (slotOff 2 4, 0x80000000) :: (List.range 64).map (fun i => (slotOff 2 (0x100 + 4 * i), ofLeBytes ((((([0x40, 0, 1, 2, 0, 0, 0, 0] ++ [] : List Nat))).drop (4 * i)).take 4))))
      { s with surv := { s.surv with replies := [(2, some ([(0x40 : Nat), 0, 1, 2, 0, 0, 0, 0, 9] : List Nat))], resetAfter := some 2 } }
    refine ⟨k, r, s, ?_⟩
    decide +kernel +revert
  · let p : MbPath := .slot 3
    let s : State := put (on (live) .surveyorMb) .surveyorMb ((slotOff 3 0, ((([0x21, 0, 1, 2, 0, 0, 0, 0] ++ [] :
      List Nat))).length) :: (slotOff 3 4, 0x80000000) :: (List.range 64).map (fun i => (slotOff 3 (0x100 + 4 * i),
      ofLeBytes ((((([0x21, 0, 1, 2, 0, 0, 0, 0] ++ [] : List Nat))).drop (4 * i)).take 4))))
    refine ⟨p, s, ?_⟩
    unfold Asked
    decide +kernel +revert
  · let p : MbPath := .slot 2
    let s : State := put (on (live) .surveyorMb) .surveyorMb ((slotOff 2 0, ((([0x21, 0, 1, 2, 0, 0, 0, 0] ++
      List.replicate 63 0 : List Nat))).length) :: (slotOff 2 4, 0x80000000) :: (List.range 64).map (fun i => (slotOff
      2 (0x100 + 4 * i), ofLeBytes ((((([0x21, 0, 1, 2, 0, 0, 0, 0] ++ List.replicate 63 0 : List Nat))).drop (4 *
      i)).take 4))))
    refine ⟨p, s, ?_⟩
    unfold Asked
    decide +kernel +revert

/-- The hypotheses of Obligations.MailboxReads hold together. -/
theorem witness_MailboxReads :
    (∃ (p : MbPath) (s : State),
      Asked s p 0x01 0) ∧
    (∃ (p : MbPath) (s : State),
      Asked s p 0x02 2 ∧ arg (argsOf s p) 0 1 + arg (argsOf s p) 1 1 ≤ 45) ∧
    (∃ (p : MbPath) (s : State),
      Asked s p 0x02 2 ∧ 45 < arg (argsOf s p) 0 1 + arg (argsOf s p) 1 1) ∧
    (∃ (p : MbPath) (s : State),
      Asked s p 0x03 5 ∧ 1 ≤ arg (argsOf s p) 4 1 ∧ arg (argsOf s p) 4 1 ≤ 3) ∧
    (∃ (p : MbPath) (a : LogEntry) (b : LogEntry) (s : State),
      Asked s p 0x04 0 ∧ (logSeen s).head? = some a ∧ (logSeen s).getLast? = some b) ∧
    (∃ (p : MbPath) (s : State),
      Asked s p 0x04 0 ∧ logSeen s = []) ∧
    (∃ (p : MbPath) (s : State),
      Asked s p 0x20 1 ∧ arg (argsOf s p) 0 1 ≤ 1) ∧
    (∃ (p : MbPath) (s : State),
      Asked s p 0x30 5 ∧ arg (argsOf s p) 4 1 ≤ 30) ∧
    (∃ (p : MbPath) (s : State),
      Asked s p 0x32 0) := by
  refine ⟨?_, ?_, ?_, ?_, ?_, ?_, ?_, ?_, ?_⟩
  · let p : MbPath := .slot 0
    let s : State := put (on (live) .surveyorMb) .surveyorMb ((slotOff 0 0, ((([1, 0, 1, 2, 0, 0, 0, 0] ++ [] : List
      Nat))).length) :: (slotOff 0 4, 0x80000000) :: (List.range 64).map (fun i => (slotOff 0 (0x100 + 4 * i),
      ofLeBytes ((((([1, 0, 1, 2, 0, 0, 0, 0] ++ [] : List Nat))).drop (4 * i)).take 4))))
    refine ⟨p, s, ?_⟩
    unfold Asked
    decide +kernel +revert
  · let p : MbPath := (.service (((([2, 0, 1, 2, 0, 0, 0, 0] ++ [44, 1] : List Nat))).map (BitVec.ofNat 8)))
    let s : State := live
    refine ⟨p, s, ?_⟩
    unfold Asked
    decide +kernel +revert
  · let p : MbPath := (.service (((([2, 0, 1, 2, 0, 0, 0, 0] ++ [44, 2] : List Nat))).map (BitVec.ofNat 8)))
    let s : State := live
    refine ⟨p, s, ?_⟩
    unfold Asked
    decide +kernel +revert
  · let p : MbPath := (.service (((([3, 0, 1, 2, 0, 0, 0, 0] ++ [0, 0, 0, 0, 3] : List Nat))).map (BitVec.ofNat 8)))
    let s : State :=
      let s : State := live
      { s with log := { s.log with flash := List.replicate 3 (⟨7, 1, .power, false, false, false, 0, 0, 0, 0, 0, []⟩ : LogEntry), queue := [(⟨7, 1, .power, false, false, false, 0, 0, 0, 0, 0, []⟩ : LogEntry)] } }
    refine ⟨p, s, ?_⟩
    unfold Asked
    decide +kernel +revert
  · let p : MbPath := (.service (((([4, 0, 1, 2, 0, 0, 0, 0] ++ [] : List Nat))).map (BitVec.ofNat 8)))
    let a : LogEntry := (⟨7, 1, .power, false, false, false, 0, 0, 0, 0, 0, []⟩ : LogEntry)
    let b : LogEntry := (⟨7, 1, .power, false, false, false, 0, 0, 0, 0, 0, []⟩ : LogEntry)
    let s : State :=
      let s : State := live
      { s with log := { s.log with flash := List.replicate 3 (⟨7, 1, .power, false, false, false, 0, 0, 0, 0, 0, []⟩ : LogEntry), queue := [(⟨7, 1, .power, false, false, false, 0, 0, 0, 0, 0, []⟩ : LogEntry)] } }
    refine ⟨p, a, b, s, ?_⟩
    unfold Asked
    decide +kernel +revert
  · let p : MbPath := (.service (((([4, 0, 1, 2, 0, 0, 0, 0] ++ [] : List Nat))).map (BitVec.ofNat 8)))
    let s : State := live
    refine ⟨p, s, ?_⟩
    unfold Asked
    decide +kernel +revert
  · let p : MbPath := .slot 1
    let s : State := put (on (live) .surveyorMb) .surveyorMb ((slotOff 1 0, ((([0x20, 0, 1, 2, 0, 0, 0, 0] ++ [1] :
      List Nat))).length) :: (slotOff 1 4, 0x80000000) :: (List.range 64).map (fun i => (slotOff 1 (0x100 + 4 * i),
      ofLeBytes ((((([0x20, 0, 1, 2, 0, 0, 0, 0] ++ [1] : List Nat))).drop (4 * i)).take 4))))
    refine ⟨p, s, ?_⟩
    unfold Asked
    decide +kernel +revert
  · let p : MbPath := .slot 3
    let s : State := put (on (live) .surveyorMb) .surveyorMb ((slotOff 3 0, ((([0x30, 0, 1, 2, 0, 0, 0, 0] ++ [1, 0,
      0, 0, 30] : List Nat))).length) :: (slotOff 3 4, 0x80000000) :: (List.range 64).map (fun i => (slotOff 3 (0x100
      + 4 * i), ofLeBytes ((((([0x30, 0, 1, 2, 0, 0, 0, 0] ++ [1, 0, 0, 0, 30] : List Nat))).drop (4 * i)).take 4))))
    refine ⟨p, s, ?_⟩
    unfold Asked
    decide +kernel +revert
  · let p : MbPath := (.service (((([0x32, 0, 1, 2, 0, 0, 0, 0] ++ [] : List Nat))).map (BitVec.ofNat 8)))
    let s : State := live
    refine ⟨p, s, ?_⟩
    unfold Asked
    decide +kernel +revert

/-- The hypotheses of Obligations.MailboxWrites hold together. -/
theorem witness_MailboxWrites :
    (∃ (p : MbPath) (s : State),
      Asked s p 0x21 64 ∧ (pathWho p = .h ∨ pathWho p = .v) ∧ cfgOk s (argsOf s p) = true ∧ energyOk s 300 = true) ∧
    (∃ (p : MbPath) (s : State),
      Asked s p 0x21 64 ∧ (pathWho p = .h ∨ pathWho p = .v) ∧ cfgOk s (argsOf s p) = false) ∧
    (∃ (p : MbPath) (s : State),
      Asked s p 0x21 64 ∧ (pathWho p = .h ∨ pathWho p = .v) ∧ cfgOk s (argsOf s p) = true ∧ energyOk s 300 = false) ∧
    (∃ (p : MbPath) (s : State),
      Asked s p 0x05 13 ∧ (pathWho p = .h ∨ pathWho p = .v) ∧ arg (argsOf s p) 12 1 ≠ 0 ∧ arg (argsOf s p) 8 4 ≠ 0) ∧
    (∃ (p : MbPath) (s : State),
      let pages := (List.range (arg (argsOf s p) 0 1)).map (fun i => arg (argsOf s p) (1 + 8 * i) 8)
      let new := pages.eraseDups.filter (fun x => !s.surv.retired.contains x)
      Asked s p 0x31 1 ∧ pathWho p ≠ .p ∧ arg (argsOf s p) 0 1 ≤ 30 ∧ 1 + 8 * arg (argsOf s p) 0 1 ≤ (argsOf s
      p).length ∧ energyOk s 300 = true ∧ s.surv.retired.length + new.length ≤ 4096) ∧
    (∃ (r : List (BitVec 8)) (s : State),
      Asked s (.service r) 0x41 0 ∧ s.mode.mode ≠ .held) ∧
    (∃ (k : Fin 4) (s : State),
      Asked s (.slot k) 0x40 0 ∧ k.val < 3) ∧
    (∃ (r : List (BitVec 8)) (s : State),
      Asked s (.service r) 0x40 0) := by
  refine ⟨?_, ?_, ?_, ?_, ?_, ?_, ?_, ?_⟩
  · let p : MbPath := .slot 2
    let s : State := put (on (live) .surveyorMb) .surveyorMb ((slotOff 2 0, ((([0x21, 0, 1, 2, 0, 0, 0, 0] ++ cfgBytes
      {} : List Nat))).length) :: (slotOff 2 4, 0x80000000) :: (List.range 64).map (fun i => (slotOff 2 (0x100 + 4 *
      i), ofLeBytes ((((([0x21, 0, 1, 2, 0, 0, 0, 0] ++ cfgBytes {} : List Nat))).drop (4 * i)).take 4))))
    refine ⟨p, s, ?_⟩
    unfold Asked
    decide +kernel +revert
  · let p : MbPath := (.service (((([0x21, 0, 1, 2, 0, 0, 0, 0] ++ List.replicate 64 0 : List Nat))).map (BitVec.ofNat
      8)))
    let s : State := live
    refine ⟨p, s, ?_⟩
    unfold Asked
    decide +kernel +revert
  · let p : MbPath := (.service (((([0x21, 0, 1, 2, 0, 0, 0, 0] ++ cfgBytes {} : List Nat))).map (BitVec.ofNat 8)))
    let s : State :=
      let s : State := live
      { s with surv := { s.surv with bulk := 0 } }
    refine ⟨p, s, ?_⟩
    unfold Asked
    decide +kernel +revert
  · let p : MbPath := (.service (((([5, 0, 1, 2, 0, 0, 0, 0] ++ [0, 0, 0, 0x40, 0, 0, 0, 0, 1, 0, 0, 0, 1] : List
      Nat))).map (BitVec.ofNat 8)))
    let s : State := live
    refine ⟨p, s, ?_⟩
    unfold Asked
    decide +kernel +revert
  · let p : MbPath := .slot 3
    let s : State := put (on (live) .surveyorMb) .surveyorMb ((slotOff 3 0, ((([0x31, 0, 1, 2, 0, 0, 0, 0] ++ [2] ++
      leBytes 8 7 ++ leBytes 8 7 : List Nat))).length) :: (slotOff 3 4, 0x80000000) :: (List.range 64).map (fun i =>
      (slotOff 3 (0x100 + 4 * i), ofLeBytes ((((([0x31, 0, 1, 2, 0, 0, 0, 0] ++ [2] ++ leBytes 8 7 ++ leBytes 8 7 :
      List Nat))).drop (4 * i)).take 4))))
    refine ⟨p, s, ?_⟩
    unfold Asked
    decide +kernel +revert
  · let r : List (BitVec 8) := (((([0x41, 0, 1, 2, 0, 0, 0, 0] ++ [] : List Nat))).map (BitVec.ofNat 8))
    let s : State := live
    refine ⟨r, s, ?_⟩
    unfold Asked
    decide +kernel +revert
  · let k : Fin 4 := 2
    let s : State := put (on (live) .surveyorMb) .surveyorMb ((slotOff 2 0, ((([0x40, 0, 1, 2, 0, 0, 0, 0] ++ [] :
      List Nat))).length) :: (slotOff 2 4, 0x80000000) :: (List.range 64).map (fun i => (slotOff 2 (0x100 + 4 * i),
      ofLeBytes ((((([0x40, 0, 1, 2, 0, 0, 0, 0] ++ [] : List Nat))).drop (4 * i)).take 4))))
    refine ⟨k, s, ?_⟩
    unfold Asked
    decide +kernel +revert
  · let r : List (BitVec 8) := (((([0x40, 0, 1, 2, 0, 0, 0, 0] ++ [] : List Nat))).map (BitVec.ofNat 8))
    let s : State := live
    refine ⟨r, s, ?_⟩
    unfold Asked
    decide +kernel +revert

/-- The hypotheses of Obligations.Updates hold together. -/
theorem witness_Updates :
    (∃ (p : MbPath) (s : State),
      Asked s p 0x10 5 ∧ pathWho p ≠ .sap ∧ s.surv.update = none ∧ arg (argsOf s p) 0 1 ≤ 4 ∧ 1024 ≤ arg (argsOf s
      p) 1 4 ∧ arg (argsOf s p) 1 4 ≤ bankSize (arg (argsOf s p) 0 1)) ∧
    (∃ (p : MbPath) (u : UpdateSt) (s : State),
      Asked s p 0x11 5 ∧ pathWho p ≠ .sap ∧ s.surv.update = some u ∧ u.path = pathNo p ∧ 5 + arg (argsOf s p) 4 1 ≤
      (argsOf s p).length ∧ arg (argsOf s p) 4 1 ≤ 240 ∧ u.next ≤ arg (argsOf s p) 0 4 ∧ arg (argsOf s p) 0 4 + arg
      (argsOf s p) 4 1 ≤ u.size ∧ energyOk s 100 = true) ∧
    (∃ (p : MbPath) (u : UpdateSt) (s : State),
      Asked s p 0x12 0 ∧ pathWho p ≠ .sap ∧ s.surv.update = some u ∧ u.path = pathNo p) ∧
    (∃ (p : MbPath) (s : State),
      let comp := arg (argsOf s p) 0 1
      Asked s p 0x13 1 ∧ pathWho p ≠ .sap ∧ s.surv.update = none ∧ comp ≤ 4 ∧ energyOk s 300 = true) ∧
    (∃ (u : UpdateSt) (s : State),
      s.surv.update = some u ∧ u.lastUs + 60000000 ≤ s.uptimeUs) := by
  refine ⟨?_, ?_, ?_, ?_, ?_⟩
  · let p : MbPath := (.service (((([0x10, 0, 1, 2, 0, 0, 0, 0] ++ [4, 0, 4, 0, 0] : List Nat))).map (BitVec.ofNat
      8)))
    let s : State := live
    refine ⟨p, s, ?_⟩
    unfold Asked
    decide +kernel +revert
  · let p : MbPath := (.service (((([0x11, 0, 1, 2, 0, 0, 0, 0] ++ [0xF8, 3, 0, 0, 8, 1, 2, 3, 4, 5, 6, 7, 8] : List
      Nat))).map (BitVec.ofNat 8)))
    let u : UpdateSt := ⟨4, 1024, 0, 4, 0⟩
    let s : State :=
      let s : State := live
      { s with surv := { s.surv with update := some ⟨4, 1024, 0, 4, 0⟩ } }
    refine ⟨p, u, s, ?_⟩
    unfold Asked
    decide +kernel +revert
  · let p : MbPath := (.service (((([0x12, 0, 1, 2, 0, 0, 0, 0] ++ [] : List Nat))).map (BitVec.ofNat 8)))
    let u : UpdateSt := ⟨4, 1024, 0, 4, 0⟩
    let s : State :=
      let s : State := live
      { s with surv := { s.surv with update := some ⟨4, 1024, 0, 4, 0⟩ } }
    refine ⟨p, u, s, ?_⟩
    unfold Asked
    decide +kernel +revert
  · let p : MbPath := (.service (((([0x13, 0, 1, 2, 0, 0, 0, 0] ++ [4] : List Nat))).map (BitVec.ofNat 8)))
    let s : State := live
    refine ⟨p, s, ?_⟩
    unfold Asked
    decide +kernel +revert
  · let u : UpdateSt := ⟨4, 1024, 0, 4, 0⟩
    let s : State :=
      let s : State := atMs live 60000
      { s with surv := { s.surv with update := some ⟨4, 1024, 0, 4, 0⟩ } }
    refine ⟨u, s, ?_⟩
    decide +kernel +revert

/-- The hypotheses of Obligations.ServicePort hold together. -/
theorem witness_ServicePort :
    ∃ (s : State),
      s.surv.step ≠ .unpowered ∧ s.surv.step ≠ .charging := by
  let s : State := live
  refine ⟨s, ?_⟩
  decide +kernel +revert

end Sys2Proof.Tests
end

section
/-!
PROOF. Every command is answered and leaves the rest of the queue (R35), and what the release from Held leaves.
-/
namespace Sys2Proof.Machine

/-- Every command answers a next state, and between it and the state before the command nothing that `Kept` names is
broken. One arm per command, by the law of its meaning. -/
theorem exec_kept (c : Instr) {s0 s : State} (h : Kept s0 s) : KeptX s0 (exec c s) :=
  match c with
  | .registerWrite _ _ _ _ _ => execRegisterWrite_kept _ _ _ _ _ h
  | .loReadLatch _ _ _ => execLoReadLatch_kept _ _ _ h
  | .foreignWriteEffect => execForeignWriteEffect_kept h
  | .softReset _ _ _ => execSoftReset_kept _ _ _ h
  | .softResetDone _ => execSoftResetDone_kept _ h
  | .enableDrainDone _ => execEnableDrainDone_kept _ h
  | .commitGo _ _ _ => execCommitGo_kept _ _ _ h
  | .commitApply _ => execCommitApply_kept _ h
  | .ownerChange _ _ _ => execOwnerChange_kept _ _ _ h
  | .tableEntryWrite _ _ _ => execTableEntryWrite_kept _ _ _ h
  | .headEnable _ _ => execHeadEnable_kept _ _ h
  | .pllLock _ => execPllLock_kept _ h
  | .headDisable _ _ => execHeadDisable_kept _ _ h
  | .timingStop _ => execTimingStop_kept _ h
  | .pllStopped _ => execPllStopped_kept _ h
  | .pllUnlock _ => execPllUnlock_kept _ h
  | .pllRelock _ => execPllRelock_kept _ h
  | .frameStart _ => execFrameStart_kept _ h
  | .frameLatch _ => execFrameLatch_kept _ h
  | .bandLatch _ _ => execBandLatch_kept _ _ h
  | .disabledLatch _ => execDisabledLatch_kept _ h
  | .layerFetch _ _ _ _ => execLayerFetch_kept _ _ _ _ h
  | .lineCompose _ _ => execLineCompose_kept _ _ h
  | .layerFetchFault _ _ _ _ _ => execLayerFetchFault_kept _ _ _ _ _ h
  | .layerDataError _ _ _ _ => execLayerDataError_kept _ _ _ _ h
  | .paletteRead _ _ => execPaletteRead_kept _ _ h
  | .retireWrite _ _ => execRetireWrite_kept _ _ h
  | .veneerWriteBehind _ _ _ => execVeneerWriteBehind_kept _ _ _ h
  | .writeBehindAbandon _ => execWriteBehindAbandon_kept _ h
  | .veneerReadError _ _ _ => execVeneerReadError_kept _ _ _ h
  | .veneerWriteError _ _ => execVeneerWriteError_kept _ _ h
  | .hpdPlug _ _ _ _ => execHpdPlug_kept _ _ _ _ h
  | .hpdUnplug _ => execHpdUnplug_kept _ h
  | .irqHpd _ _ => execIrqHpd_kept _ _ h
  | .edidReadDone _ _ => execEdidReadDone_kept _ _ h
  | .linkTraining _ => execLinkTraining_kept _ h
  | .trainingAttemptEnd _ _ => execTrainingAttemptEnd_kept _ _ h
  | .auxGo _ _ _ _ => execAuxGo_kept _ _ _ _ h
  | .auxReply _ _ => execAuxReply_kept _ _ h
  | .auxTimeout _ => execAuxTimeout_kept _ h
  | .streamUnderflow _ => execStreamUnderflow_kept _ h
  | .phyFault _ => execPhyFault_kept _ h
  | .coefWrite _ _ _ _ => execCoefWrite_kept _ _ _ _ h
  | .legendEnable _ => execLegendEnable_kept _ h
  | .pointRecordAccept _ => execPointRecordAccept_kept _ h
  | .pointEntryRead => execPointEntryRead_kept h
  | .updHiWrite _ _ => execUpdHiWrite_kept _ _ h
  | .rangeWrite _ _ _ _ => execRangeWrite_kept _ _ _ _ h
  | .styleEntryWrite _ _ _ => execStyleEntryWrite_kept _ _ _ h
  | .glyphEntryWrite _ _ _ => execGlyphEntryWrite_kept _ _ _ h
  | .snapshot _ _ => execSnapshot_kept _ _ h
  | .glyphFill _ _ => execGlyphFill_kept _ _ h
  | .glyphCacheParity _ _ => execGlyphCacheParity_kept _ _ h
  | .glyphFetchFault _ _ => execGlyphFetchFault_kept _ _ h
  | .pointReadFail _ _ _ => execPointReadFail_kept _ _ _ h
  | .memoryRead _ _ _ _ => execMemoryRead_kept _ _ _ _ h
  | .memoryWrite _ _ _ _ => execMemoryWrite_kept _ _ _ _ h
  | .correctingRead _ _ _ _ => execCorrectingRead_kept _ _ _ _ h
  | .staleReread _ _ _ _ _ => execStaleReread_kept _ _ _ _ _ h
  | .mirrorRead _ _ _ _ _ => execMirrorRead_kept _ _ _ _ _ h
  | .pageRecode => execPageRecode_kept h
  | .mirWindowWrite _ _ _ => execMirWindowWrite_kept _ _ _ h
  | .mirrorSyncDone _ => execMirrorSyncDone_kept _ h
  | .shimInstall _ _ _ => execShimInstall_kept _ _ _ h
  | .shimCopyDone _ => execShimCopyDone_kept _ h
  | .scrubStripe => execScrubStripe_kept h
  | .scrubPeriodStart => execScrubPeriodStart_kept h
  | .refreshInterval _ _ => execRefreshInterval_kept _ _ h
  | .tempPoll _ _ _ => execTempPoll_kept _ _ _ h
  | .periodicRetrain _ => execPeriodicRetrain_kept _ h
  | .retrainDone _ _ => execRetrainDone_kept _ _ h
  | .selfRefreshEntry _ => execSelfRefreshEntry_kept _ h
  | .selfRefreshExit _ => execSelfRefreshExit_kept _ h
  | .clrMax _ _ => execClrMax_kept _ _ h
  | .memInitStripe => execMemInitStripe_kept h
  | .secureSramParity _ _ => execSecureSramParity_kept _ _ h
  | .dataFlip _ _ _ _ => execDataFlip_kept _ _ _ _ h
  | .parityFlip _ _ _ _ => execParityFlip_kept _ _ _ _ h
  | .silentFlip _ _ _ _ => execSilentFlip_kept _ _ _ _ h
  | .sqDoorbell _ _ _ _ => execSqDoorbell_kept _ _ _ _ h
  | .cqDoorbell _ _ _ => execCqDoorbell_kept _ _ _ h
  | .descriptorFetch _ _ => execDescriptorFetch_kept _ _ h
  | .completionWrite _ => execCompletionWrite_kept _ h
  | .cqWrite _ => execCqWrite_kept _ h
  | .msixMessage _ => execMsixMessage_kept _ h
  | .cqModTimer _ => execCqModTimer_kept _ h
  | .ringEnable _ _ _ _ => execRingEnable_kept _ _ _ _ h
  | .restart _ _ _ _ => execRestart_kept _ _ _ _ h
  | .pcieLinkUp _ _ _ => execPcieLinkUp_kept _ _ _ h
  | .linkDown _ => execLinkDown_kept _ h
  | .hotReset _ => execHotReset_kept _ h
  | .functionLevelReset _ => execFunctionLevelReset_kept _ h
  | .funcCtrlReset _ _ _ => execFuncCtrlReset_kept _ _ _ h
  | .resetDone _ => execResetDone_kept _ h
  | .vfEnableChange _ _ _ => execVfEnableChange_kept _ _ _ h
  | .configRequest _ _ _ => execConfigRequest_kept _ _ _ h
  | .bar2Access _ _ _ _ => execBar2Access_kept _ _ _ _ h
  | .vfBar2Access _ _ _ _ => execVfBar2Access_kept _ _ _ _ h
  | .malformedTlp _ => execMalformedTlp_kept _ h
  | .ecrcError _ => execEcrcError_kept _ h
  | .poisonedRequest _ => execPoisonedRequest_kept _ h
  | .unexpectedCompletion _ => execUnexpectedCompletion_kept _ h
  | .completionTimeout _ _ _ => execCompletionTimeout_kept _ _ _ h
  | .xlateWalk _ _ _ _ _ _ => execXlateWalk_kept _ _ _ _ _ _ h
  | .s1invGo _ _ _ => execS1invGo_kept _ _ _ h
  | .s1invDone _ => execS1invDone_kept _ h
  | .s2invGo _ _ _ => execS2invGo_kept _ _ _ h
  | .s2RootWrite _ _ _ => execS2RootWrite_kept _ _ _ h
  | .s2invDone _ => execS2invDone_kept _ h
  | .freeze _ _ => execFreeze_kept _ _ h
  | .freezeDone _ => execFreezeDone_kept _ h
  | .save _ _ => execSave_kept _ _ h
  | .restore _ _ => execRestore_kept _ _ h
  | .resume _ _ => execResume_kept _ _ h
  | .cvuEnable _ _ => execCvuEnable_kept _ _ h
  | .cvuClose _ _ _ => execCvuClose_kept _ _ _ h
  | .nop _ => execNop_kept _ h
  | .render _ => execRender_kept _ h
  | .compute _ => execCompute_kept _ h
  | .copy _ => execCopy_kept _ h
  | .fill _ => execFill_kept _ h
  | .moduleLoad _ => execModuleLoad_kept _ h
  | .moduleUnload _ => execModuleUnload_kept _ h
  | .pointUpdate _ => execPointUpdate_kept _ h
  | .present _ => execPresent_kept _ h
  | .fencePoll _ => execFencePoll_kept _ h
  | .fenceTimeout _ => execFenceTimeout_kept _ h
  | .workDispatch _ => execWorkDispatch_kept _ h
  | .preemptDone _ => execPreemptDone_kept _ h
  | .workgroupDone _ _ => execWorkgroupDone_kept _ _ h
  | .partialFlush _ => execPartialFlush_kept _ h
  | .tileComplete _ _ => execTileComplete_kept _ _ h
  | .bayFence _ _ => execBayFence_kept _ _ h
  | .tileWatchdog _ _ => execTileWatchdog_kept _ _ h
  | .jobWatchdog _ => execJobWatchdog_kept _ h
  | .translateDone _ => execTranslateDone_kept _ h
  | .translateTimeout _ => execTranslateTimeout_kept _ h
  | .jobComplete _ => execJobComplete_kept _ h
  | .wcall _ _ _ => execWcall_kept _ _ _ h
  | .wret _ _ _ => execWret_kept _ _ _ h
  | .secureIrqTaken => execSecureIrqTaken_kept h
  | .normalIrqTaken _ => execNormalIrqTaken_kept _ h
  | .hwBudgetExpiry _ => execHwBudgetExpiry_kept _ h
  | .wdogExpiry _ => execWdogExpiry_kept _ h
  | .kick _ _ => execKick_kept _ _ h
  | .monitorFault _ => execMonitorFault_kept _ h
  | .coreParity _ => execCoreParity_kept _ h
  | .hwCtrlRestart _ _ => execHwCtrlRestart_kept _ _ h
  | .hwQuiesced => execHwQuiesced_kept h
  | .hwClearDone => execHwClearDone_kept h
  | .hwMeasureDone => execHwMeasureDone_kept h
  | .claim _ _ _ => execClaim_kept _ _ _ h
  | .claimRelease _ _ _ => execClaimRelease_kept _ _ _ h
  | .safeOkSet _ _ => execSafeOkSet_kept _ _ h
  | .safeOkKick _ _ => execSafeOkKick_kept _ _ h
  | .safeOkExpired => execSafeOkExpired_kept h
  | .keysEnable _ => execKeysEnable_kept _ h
  | .scanStart _ => execScanStart_kept _ h
  | .slotEnd _ _ => execSlotEnd_kept _ _ h
  | .keyEventWrite _ => execKeyEventWrite_kept _ h
  | .selftest _ _ => execSelftest_kept _ _ h
  | .selftestDone _ _ _ => execSelftestDone_kept _ _ _ h
  | .eqBaseWrite _ _ _ => execEqBaseWrite_kept _ _ _ h
  | .eqHeadWrite _ _ _ => execEqHeadWrite_kept _ _ _ h
  | .senseParity _ => execSenseParity_kept _ h
  | .forceTouch => execForceTouch_kept h
  | .forceOpen => execForceOpen_kept h
  | .hapchEnable _ _ => execHapchEnable_kept _ _ h
  | .hostTrigger _ _ _ => execHostTrigger_kept _ _ _ h
  | .stop _ _ => execStop_kept _ _ h
  | .halfCycleEnd _ _ _ _ _ => execHalfCycleEnd_kept _ _ _ _ _ h
  | .powerMeasure _ => execPowerMeasure_kept _ h
  | .railFault => execRailFault_kept h
  | .railOk => execRailOk_kept h
  | .audioEnable _ => execAudioEnable_kept _ h
  | .sampleBoundary _ => execSampleBoundary_kept _ h
  | .sourceFetch _ => execSourceFetch_kept _ h
  | .srcEnable _ _ _ => execSrcEnable_kept _ _ _ h
  | .gclkStepChange => execGclkStepChange_kept h
  | .mainsApplied => execMainsApplied_kept h
  | .surveyorStart => execSurveyorStart_kept h
  | .railsGood => execRailsGood_kept h
  | .bistConditionsCheck _ => execBistConditionsCheck_kept _ h
  | .consoleIdRead _ _ => execConsoleIdRead_kept _ _ h
  | .bistDone _ _ => execBistDone_kept _ _ h
  | .dramTrainingDone _ => execDramTrainingDone_kept _ h
  | .surveyEnd => execSurveyEnd_kept h
  | .resetToHeld => execResetToHeld_kept h
  | .resetIn => execResetIn_kept h
  | .resetInDeasserted => execResetInDeasserted_kept h
  | .imageLoadDone => execImageLoadDone_kept h
  | .sensorSample _ => execSensorSample_kept _ h
  | .fanLost _ => execFanLost_kept _ h
  | .sagOnset _ => execSagOnset_kept _ h
  | .sagEscalate => execSagEscalate_kept h
  | .sagClear _ => execSagClear_kept _ h
  | .loadShed => execLoadShed_kept h
  | .holdupHeld _ _ _ => execHoldupHeld_kept _ _ _ h
  | .flashOperation _ => execFlashOperation_kept _ h
  | .flashDeferRetry _ => execFlashDeferRetry_kept _ h
  | .telemetryRecord => execTelemetryRecord_kept h
  | .unitCtrlWrite _ _ => execUnitCtrlWrite_kept _ _ h
  | .mbReqGo _ _ _ => execMbReqGo_kept _ _ _ h
  | .mailboxDone _ => execMailboxDone_kept _ h
  | .getInfo _ => execGetInfo_kept _ h
  | .readSensors _ => execReadSensors_kept _ h
  | .logRead _ => execLogRead_kept _ h
  | .logStatus _ => execLogStatus_kept _ h
  | .telemetryCfg _ => execTelemetryCfg_kept _ h
  | .updateBegin _ => execUpdateBegin_kept _ h
  | .updateData _ => execUpdateData_kept _ h
  | .updateEnd _ => execUpdateEnd_kept _ h
  | .updateActivate _ => execUpdateActivate_kept _ h
  | .configRead _ => execConfigRead_kept _ h
  | .configWrite _ => execConfigWrite_kept _ h
  | .retireRead _ => execRetireRead_kept _ h
  | .retireAdd _ => execRetireAdd_kept _ h
  | .shimRead _ => execShimRead_kept _ h
  | .reset _ => execReset_kept _ h
  | .injectEnable _ => execInjectEnable_kept _ h
  | .setEndpointId _ => execSetEndpointId_kept _ h
  | .getEndpointId => execGetEndpointId_kept h
  | .getMctpVersionSupport => execGetMctpVersionSupport_kept h
  | .getMessageTypeSupport => execGetMessageTypeSupport_kept h
  | .gettid => execGettid_kept h
  | .getpldmversion => execGetpldmversion_kept h
  | .getpldmtypes => execGetpldmtypes_kept h
  | .getpldmcommands _ => execGetpldmcommands_kept _ h
  | .getpdr _ => execGetpdr_kept _ h
  | .getsensorreading _ => execGetsensorreading_kept _ h
  | .surveyorWatchdog => execSurveyorWatchdog_kept h
  | .updateIdleTimeout => execUpdateIdleTimeout_kept h
  | .updateTrialEnd _ => execUpdateTrialEnd_kept _ h
  | .slipFrameBadCrc => execSlipFrameBadCrc_kept h
  | .dpPwrOvercurrent _ => execDpPwrOvercurrent_kept _ h
  | .dpPwrRetry _ => execDpPwrRetry_kept _ h
  | .b4SoftReset => execB4SoftReset_kept h
  | .b4SoftResetDone => execB4SoftResetDone_kept h
  | .b4KeyfifoRead => execB4KeyfifoRead_kept h
  | .b4KeycfgWrite _ => execB4KeycfgWrite_kept _ h
  | .keyEn _ => execKeyEn_kept _ h
  | .headBlockFlip _ _ _ => execHeadBlockFlip_kept _ _ _ h
  | .flipCutoff _ => execFlipCutoff_kept _ h
  | .hctrlEn _ _ => execHctrlEn_kept _ _ h
  | .pixclkWrite _ _ => execPixclkWrite_kept _ _ h
  | .deFifoWrite _ => execDeFifoWrite_kept _ h
  | .deDisable _ => execDeDisable_kept _ h
  | .fillRect => execFillRect_kept h
  | .copyRect => execCopyRect_kept h
  | .drawLine => execDrawLine_kept h
  | .monoExpand => execMonoExpand_kept h
  | .streamError _ => execStreamError_kept _ h
  | .pixelRange _ => execPixelRange_kept _ h
  | .deRingRdWrite _ _ => execDeRingRdWrite_kept _ _ h
  | .deIdle => execDeIdle_kept h
  | .beepGo _ => execBeepGo_kept _ h
  | .beepDone => execBeepDone_kept h
  | .assertInta => execAssertInta_kept h
  | .deassertInta => execDeassertInta_kept h
  | .faultRaised _ _ _ => execFaultRaised_kept _ _ _ h
  | .headerParityError _ _ => execHeaderParityError_kept _ _ h
  | .safeRequest _ _ => execSafeRequest_kept _ _ h
  | .faultInjectArm _ _ _ => execFaultInjectArm_kept _ _ _ h
  | .setFault _ => execSetFault_kept _ h
  | .headerParity _ => execHeaderParity_kept _ h
  | .drop => execDrop_kept h
  | .corrupt => execCorrupt_kept h
  | .reorder => execReorder_kept h
  | .burst => execBurst_kept h
  | .lcrc _ => execLcrc_kept _ h
  | .auxDrop _ => execAuxDrop_kept _ h
  | .tileParity _ => execTileParity_kept _ h
  | .glyphParity _ _ => execGlyphParity_kept _ _ h
  | .readError _ _ _ => execReadError_kept _ _ _ h
  | .linkReplay _ _ => execLinkReplay_kept _ _ h
  | .statCfgWrite _ _ _ => execStatCfgWrite_kept _ _ _ h

/-- With no command waiting a step is one FCLK cycle. -/
theorem step_of_empty {s : State} (h : s.pending = []) : step s = .next (passCycles s 1) := by
  simp [step, h]

/-- With a command waiting a step carries it out on the state with the rest of the queue. -/
theorem step_of_command {s : State} {c : Instr} {rest : List Instr} (h : s.pending = c :: rest) :
    step s = exec c { s with pending := rest } := by
  simp [step, h]

/-- Settles O3: a cycle keeps the empty queue, and a command keeps the queue that is left behind it. -/
theorem everyStepAnswers : Obligations.EveryStepAnswers := by
  intro s
  cases hq : s.pending with
  | nil =>
    have hk := passCycles_kept 1 (Kept.refl s)
    exact ⟨passCycles s 1, step_of_empty hq, hk.pending.trans hq⟩
  | cons c rest =>
    obtain ⟨t, ht, hk⟩ := (exec_kept c (Kept.refl { s with pending := rest })).out
    exact ⟨t, (step_of_command hq).trans ht, hk.pending⟩

/-- Settles O2: the fields are the defaults of State, and every page's header register is the value of its table. -/
theorem resetState : Obligations.ResetState := by
  have ready : ∀ p ∈ allPages, State.reset.ready p = (p == .dev || p == .surveyorMb) := by decide +kernel
  have owners : State.reset.owner .clkpwr = 0x42 ∧ State.reset.owner .legacy = 0x42 ∧
      State.reset.owner .surveyorMb = 0x41 ∧ State.reset.owner .world = 0x40 := by decide +kernel
  obtain ⟨clkpwr, legacy, surveyor, world⟩ := owners
  exact ⟨rfl, rfl, rfl, ready, fun _ _ => rfl, clkpwr, legacy, surveyor, world, rfl, rfl, rfl, Nat.zero_le _⟩

end Sys2Proof.Machine
end

section
/-!
SUPPORT. What single updates of State leave alone: registers but the one that is written, and the log but the entry
that is queued.
-/
namespace Sys2Proof.Machine

/-! Registers. -/

theorem RegsBut.trans {s t u : State} {l : List Nat} (h : RegsBut s t l) (k : RegsBut t u l) : RegsBut s u l :=
  fun a ha => (k a ha).trans (h a ha)

theorem hwBits_regsBut {s : State} {a mask : Nat} {l : List Nat} (h : a ∈ l) : RegsBut s (s.hwBits a mask) l := by
  intro b hb
  rw [State.reg_hwBits, if_neg (ne_of_mem_of_not_mem h hb).symm]

theorem setHd_regsBut {s : State} {p : Page} {h : Hdr} {v : Word} {l : List Nat} (hl : hadr p h ∈ l) :
    RegsBut s (s.setHd p h v) l := by
  intro b hb
  rw [State.reg_setHd, if_neg (ne_of_mem_of_not_mem hl hb).symm]

theorem setPr_regsBut {s : State} {p : Page} {o : Nat} {v : Word} {l : List Nat} (hl : pageBase p + o ∈ l) :
    RegsBut s (s.setPr p o v) l := by
  intro b hb
  rw [State.reg_setPr, if_neg (ne_of_mem_of_not_mem hl hb).symm]

theorem event_regsBut {s : State} {p : Page} {k : Nat} {l : List Nat} (hl : hadr p .irqStatus ∈ l) :
    RegsBut s (s.event p k) l := hwBits_regsBut hl

/-- A change of the cycle's record changes no register. -/
theorem State.reg_setCyc (s : State) (c : Cycle) (a : Nat) : State.reg { s with cyc := c } a = s.reg a := rfl

/-! Parts of State: a register write changes registers, an event the cycle's record with them. -/

theorem State.setHd_only (s : State) (p : Page) (h : Hdr) (v : Word) :
    s.setHd p h v = { s with regs := (s.setHd p h v).regs } := rfl

theorem State.setPr_only (s : State) (p : Page) (o : Nat) (v : Word) :
    s.setPr p o v = { s with regs := (s.setPr p o v).regs, cyc := (s.setPr p o v).cyc } := rfl

theorem State.hwBits_only (s : State) (a mask : Nat) :
    s.hwBits a mask = { s with regs := (s.hwBits a mask).regs, cyc := (s.hwBits a mask).cyc } := rfl

theorem State.event_only (s : State) (p : Page) (k : Nat) :
    s.event p k = { s with regs := (s.event p k).regs, cyc := (s.event p k).cyc } := State.hwBits_only ..

/-- A log that follows a change of registers alone. -/
theorem setLog_of_regs_only {s u : State} (l : LogSt) (h : u = { s with regs := u.regs }) :
    { u with log := l } = { s with regs := u.regs, log := l } := by
  rw [h]

/-! The log. -/

theorem State.logPut_flash (s : State) (e : LogEntry) : (s.logPut e).log.flash = s.log.flash := by
  unfold State.logPut
  split <;> rfl

theorem State.logPut_prefix (s : State) (e : LogEntry) : s.log.queue <+: (s.logPut e).log.queue := by
  unfold State.logPut
  split
  · exact List.prefix_append _ _
  · exact List.prefix_rfl

/-- A queue with room takes the entry with the next number (R537). -/
theorem State.logPut_room {s : State} (e : LogEntry) (h : s.log.queue.length < 1024) :
    (s.logPut e).log.queue = s.log.queue ++ [{ e with seq := s.log.nextSeq }] := by
  simp [State.logPut, h]

@[simp] theorem State.logAdd_flash (s : State) (k : LogKind) (place code addr : Nat) (injected : Bool) :
    (s.logAdd k place code addr injected).log.flash = s.log.flash := State.logPut_flash _ _

theorem State.logAdd_prefix (s : State) (k : LogKind) (place code addr : Nat) (injected : Bool) :
    s.log.queue <+: (s.logAdd k place code addr injected).log.queue := State.logPut_prefix _ _

end Sys2Proof.Machine
end

section
/-!
PROOF. The links of the fabric (R14, R599, R520): what a packet's replays count and record, and what an armed injection
on a link does.
-/
namespace Sys2Proof.Machine

/-! Recording a fault whose action is LOG or IGNORE touches the page's fault registers alone (R496). -/

/-- The header registers that recording a fault writes (R53 to R55). -/
def faultRegs (p : Page) : List Nat :=
  [hadr p .faultStatus, hadr p .faultFirst, hadr p .ffTimeLo, hadr p .ffTimeHi]

theorem recordFirst_regsBut (s : State) (p : Page) (b sev : Nat) (multi : Bool) :
    RegsBut s (recordFirst s p b sev multi) (faultRegs p) := by
  intro a ha
  have kept {t : State} {h : Hdr} {v : Word} (hl : hadr p h ∈ faultRegs p) : (t.setHd p h v).reg a = t.reg a :=
    setHd_regsBut hl a ha
  unfold recordFirst
  rw [State.reg_setCyc, kept (by simp [faultRegs]), kept (by simp [faultRegs]), kept (by simp [faultRegs])]

theorem mergeFirst_regsBut (s : State) (p : Page) (b sev : Nat) : RegsBut s (mergeFirst s p b sev) (faultRegs p) := by
  unfold mergeFirst
  dsimp only
  split
  · exact recordFirst_regsBut s p b sev true
  · exact setHd_regsBut (by simp [faultRegs])

theorem recordFault_regsBut (s : State) (p : Page) (b : Nat) (injected : Bool) :
    RegsBut s (recordFault s p b injected) (faultRegs p) := by
  have bits : RegsBut s (s.hwBits (hadr p .faultStatus) (2 ^ b)) (faultRegs p) := hwBits_regsBut (by simp [faultRegs])
  intro a ha
  unfold recordFault
  dsimp only
  rw [State.logAdd_reg]
  split
  · exact bits.trans (recordFirst_regsBut _ _ _ _ _) a ha
  · split
    · exact bits.trans (mergeFirst_regsBut _ _ _ _) a ha
    · exact bits a ha

/-- A fault whose action is neither FENCE nor SAFE changes no register but its page's fault registers. -/
theorem raiseFault_regsBut_of_log {s : State} {q : Page} {b : Nat} (injected : Bool)
    (h : actionOf s (faultPage q) b < 2) : RegsBut s (raiseFault s q b injected) (faultRegs (faultPage q)) := by
  unfold raiseFault
  dsimp only
  split
  · exact hwBits_regsBut (by simp [faultRegs])
  · rw [if_neg (by omega), if_neg (by omega)]
    exact recordFault_regsBut _ _ _ _

/-- The action in force depends on the page's action registers and on this cycle's record of their writes alone. -/
theorem actionOf_congr {s t : State} {p : Page} {b : Nat} (hc : t.cyc.actPrev = s.cyc.actPrev)
    (hr : t.reg (hadr p (if b < 16 then .action0 else .action1)) = s.reg (hadr p (if b < 16 then .action0 else .action1))) :
    actionOf t p b = actionOf s p b := by
  simp only [actionOf, hc, hr]

/-! What a replay does. -/

theorem linkInfo_rises {s0 s : State} (link : Nat) (h : Rises s0 s) : Rises s0 (linkInfo s link) :=
  State.hwBits_rises (State.setPf_rises (by decide) h)

/-- LINK_INFO names the link of the latest fault and is valid (R599). -/
theorem linkInfo_pr (s : State) (link : Nat) :
    (linkInfo s link).pr .fabric Reg.FABRIC_LINK_INFO = fset (s.pr .fabric Reg.FABRIC_LINK_INFO) 7 0 link ||| w32 (2 ^ 31) := by
  unfold linkInfo State.pr
  rw [State.reg_hwBits, if_pos rfl, State.reg_setPf, if_pos rfl]

theorem linkInfo_regsBut (s : State) (link : Nat) :
    RegsBut s (linkInfo s link) [pageBase .fabric + Reg.FABRIC_LINK_INFO] := by
  intro a ha
  have hne := List.ne_of_not_mem_cons ha
  unfold linkInfo
  rw [State.reg_hwBits, if_neg hne, State.reg_setPf, if_neg hne]

/-- A field below bit 31 reads past the VALID bit. -/
theorem fget_or_valid (w : Word) : fget (w ||| w32 (2 ^ 31)) 7 0 = fget w 7 0 := by
  apply Nat.eq_of_testBit_eq
  intro i
  rw [fget, fget, bits_testBit, bits_testBit, BitVec.toNat_or, Nat.testBit_or]
  by_cases hi : i < 8
  · rw [show (w32 (2 ^ 31)).toNat = 2 ^ 31 by decide, Nat.testBit_two_pow,
      decide_eq_false (show 31 ≠ 0 + i by omega), Bool.or_false]
  · simp [show ¬ i < 7 + 1 - 0 by omega]

/-- LINK_SPARED stands apart from the sticky registers and from HW_CTRL. -/
theorem sparedAt_apart (link : Nat) :
    (pageBase .fabric + (sparedAt link).1) % 4096 ≠ 0x18 ∧ (pageBase .fabric + (sparedAt link).1) % 4096 ≠ 0x24 ∧
      pageBase .fabric + (sparedAt link).1 ≠ 0x411000 + Reg.WORLD_HW_CTRL := by
  have h : (sparedAt link).1 = Reg.FABRIC_LINK_SPARED_LO ∨ (sparedAt link).1 = Reg.FABRIC_LINK_SPARED_HI := by
    unfold sparedAt
    split <;> simp
  rcases h with h | h
  · rw [h]; decide
  · rw [h]; decide

section
variable {link failed : Nat} {s : State} (hl : linkOk link = true)
include hl

/-- One to three lost transmissions: a replay, and FABRIC fault 0 (R14). -/
theorem linkReplay_retried (h0 : 0 < failed) (h4 : failed < 4) :
    linkReplay s link failed = raiseFault (linkInfo (s.count .fabric Reg.FABRIC_REPLAY_COUNT) link) .fabric 0 := by
  simp [linkReplay, hl, h4, Nat.ne_of_gt h0]

/-- Four lost transmissions take the link's spare: FABRIC fault 1 (R599). -/
theorem linkReplay_spared (hs : s.pf .fabric (sparedAt link).1 (sparedAt link).2 (sparedAt link).2 ≠ 1) :
    linkReplay s link 4 = raiseFault (linkInfo
      (s.setPf .fabric (sparedAt link).1 (sparedAt link).2 (sparedAt link).2 1) link) .fabric 1 := by
  simp [linkReplay, hl, hs]

/-- Four lost transmissions on a link that runs on its spare: FABRIC fault 2 (R599). -/
theorem linkReplay_dead (hs : s.pf .fabric (sparedAt link).1 (sparedAt link).2 (sparedAt link).2 = 1) :
    linkReplay s link 4 = raiseFault (linkInfo s link) .fabric 2 := by
  simp [linkReplay, hl, hs]

theorem linkReplay_retried_bit (h0 : 0 < failed) (h4 : failed < 4) :
    fbit ((linkReplay s link failed).hd .fabric .faultStatus) 0 = true := by
  rw [linkReplay_retried hl h0 h4]
  exact raiseFault_bit _ _ 0 _ (by decide)

theorem linkReplay_spared_bit (hs : s.pf .fabric (sparedAt link).1 (sparedAt link).2 (sparedAt link).2 ≠ 1) :
    fbit ((linkReplay s link 4).hd .fabric .faultStatus) 1 = true := by
  rw [linkReplay_spared hl hs]
  exact raiseFault_bit _ _ 1 _ (by decide)

theorem linkReplay_dead_bit (hs : s.pf .fabric (sparedAt link).1 (sparedAt link).2 (sparedAt link).2 = 1) :
    fbit ((linkReplay s link 4).hd .fabric .faultStatus) 2 = true := by
  rw [linkReplay_dead hl hs]
  exact raiseFault_bit _ _ 2 _ (by decide)

/-- Where the action of fault 0 is LOG the count and the link of a replay stay to be read. -/
theorem linkReplay_retried_log (h0 : 0 < failed) (h4 : failed < 4) (ha : actionOf s .fabric 0 < 2) :
    (linkReplay s link failed).pr .fabric Reg.FABRIC_REPLAY_COUNT = s.pr .fabric Reg.FABRIC_REPLAY_COUNT + 1 ∧
    (linkReplay s link failed).pr .fabric Reg.FABRIC_LINK_INFO =
      fset (s.pr .fabric Reg.FABRIC_LINK_INFO) 7 0 link ||| w32 (2 ^ 31) := by
  let c := s.count .fabric Reg.FABRIC_REPLAY_COUNT
  have act : actionOf (linkInfo c link) .fabric 0 = actionOf s .fabric 0 :=
    actionOf_congr rfl ((linkInfo_regsBut c link _ (by decide)).trans (by rw [State.reg_count, if_neg (by decide)]))
  have kept : RegsBut (linkInfo c link) (linkReplay s link failed) (faultRegs .fabric) := by
    rw [linkReplay_retried hl h0 h4]
    exact raiseFault_regsBut_of_log (q := .fabric) false (lt_of_eq_of_lt act ha)
  refine ⟨?_, ?_⟩
  · exact (kept _ (by decide)).trans ((linkInfo_regsBut c link _ (by decide)).trans (State.pr_setPr ..))
  · refine (kept _ (by decide)).trans ((linkInfo_pr c link).trans ?_)
    rw [State.pr, State.reg_count, if_neg (by decide)]
    rfl

end

/-- A replay touches nothing but what faults touch. -/
theorem linkReplay_rises {s0 s : State} (link failed : Nat) (h : Rises s0 s) : Rises s0 (linkReplay s link failed) := by
  unfold linkReplay
  split
  · exact h
  · split
    · exact raiseFault_rises _ _ _ (linkInfo_rises _ (State.count_rises (by decide) h))
    · dsimp only
      split
      · exact raiseFault_rises _ _ _ (linkInfo_rises _ h)
      · exact raiseFault_rises _ _ _ (linkInfo_rises _ (State.setPf_rises (sparedAt_apart link) h))

/-- Four lost transmissions set FABRIC fault 1, or 2 on a link that runs on its spare. -/
theorem linkReplay_exhausted_bit {link : Nat} (s : State) (hl : linkOk link = true) :
    fbit ((linkReplay s link 4).hd .fabric .faultStatus) 1 = true ∨
      fbit ((linkReplay s link 4).hd .fabric .faultStatus) 2 = true := by
  by_cases hs : s.pf .fabric (sparedAt link).1 (sparedAt link).2 (sparedAt link).2 = 1
  · exact .inr (linkReplay_dead_bit hl hs)
  · exact .inl (linkReplay_spared_bit hl hs)

/-! Injection on a link (R520). -/

theorem fireInject_rises {s0 s : State} (p : Page) (h : Rises s0 s) : Rises s0 (fireInject s p) :=
  State.logAdd_rises _ _ _ _ _ (State.setHd_rises (by decide) h)

/-- An armed injection of a KIND is carried out on the link and with the parameter that it names. -/
theorem fabricInject_armed {s : State} {kind link n : Nat} (f : State → Nat → Nat → State)
    (h : armed s .fabric kind = some (link, n)) : fabricInject s kind f = f (fireInject s .fabric) link n := by
  simp [fabricInject, h]

/-- Drawing a free value leaves what a fault keeps as it was. -/
theorem Rises.draw {s0 s : State} (h : Rises s0 s) : Rises { s0 with fresh := s0.fresh + 1 } s.draw.2 :=
  ⟨{ h.keeps with fresh := congrArg (· + 1) h.keeps.fresh }, h.restart, h.bits⟩

/-- A packet astray draws one free value, and beside it touches only what faults touch. -/
theorem packetAstray_rises {s0 s : State} (link : Nat) (h : Rises s0 s) :
    Rises { s0 with fresh := s0.fresh + 1 } (packetAstray s link) := by
  unfold packetAstray
  split
  next v t e =>
    obtain rfl : s.draw.2 = t := congrArg Prod.snd e
    split
    · exact h.draw
    · exact linkReplay_rises _ _ h.draw

/-- DROP and REORDER alike: the injection fires and the packet goes astray. -/
theorem packetAstray_fired (s : State) (link : Nat) :
    (packetAstray (fireInject s .fabric) link).fresh = s.fresh + 1 ∧
      FaultParts { s with fresh := (packetAstray (fireInject s .fabric) link).fresh }
        (packetAstray (fireInject s .fabric) link) := by
  have astray := packetAstray_rises link (fireInject_rises .fabric (Rises.refl s))
  have fresh : (packetAstray (fireInject s .fabric) link).fresh = s.fresh + 1 := astray.keeps.fresh
  exact ⟨fresh, fresh ▸ astray.parts⟩

/-- A fired injection writes FAULT_INJECT and is logged (R57). -/
theorem fireInject_eq (s : State) (p : Page) :
    fireInject s p = (s.setHd p .inject (fsetb (fsetb (s.hd p .inject) 31 false) 30 true)).logAdd
      .fault (pageBase p) (fget (s.hd p .inject) 15 8) 0 true := rfl

/-- A fired injection changes registers and the log alone. -/
theorem fireInject_only (s : State) (p : Page) :
    fireInject s p = { s with regs := (fireInject s p).regs, log := (fireInject s p).log } := by
  rw [fireInject_eq, State.logAdd_regs]
  conv_lhs => rw [State.logAdd_only]
  exact setLog_of_regs_only _ (State.setHd_only ..)

theorem fireInject_inject (s : State) (p : Page) :
    (fireInject s p).hd p .inject = fsetb (fsetb (s.hd p .inject) 31 false) 30 true := by
  rw [fireInject_eq, State.hd, State.logAdd_reg, State.reg_setHd, if_pos rfl]

theorem fireInject_regsBut (s : State) (p : Page) : RegsBut s (fireInject s p) [hadr p .inject] := by
  intro a ha
  rw [fireInject_eq, State.logAdd_reg, State.reg_setHd, if_neg (List.ne_of_not_mem_cons ha)]

/-- ARM is 0 and FIRED is 1 after an injection (R57). -/
theorem fireInject_fired (s : State) (p : Page) :
    fbit ((fireInject s p).hd p .inject) 31 = false ∧ fbit ((fireInject s p).hd p .inject) 30 = true := by
  rw [fireInject_inject]
  refine ⟨?_, fbit_fsetb _ _ (by decide)⟩
  rw [fbit_fsetb_other _ _ (by decide) (by decide), fbit_fsetb _ _ (by decide)]

/-- LCRC on an armed port is the firing of the injection alone. -/
theorem exec_lcrc_armed {s : State} {port : Fin 2} {x : Nat × Nat} (h : armed s (.hostif port) 0x20 = some x) :
    exec (.lcrc port) s = .next (fireInject s (.hostif port)) := by
  change execLcrc port s = _
  simp [execLcrc, h]

section
variable {s : State} {link n : Nat}

/-- An armed DROP. -/
theorem exec_drop_armed (h : armed s .fabric 0x10 = some (link, n)) :
    exec .drop s = .next (packetAstray (fireInject s .fabric) link) :=
  congrArg Host.Outcome.next (fabricInject_armed _ h)

/-- An armed CORRUPT. -/
theorem exec_corrupt_armed (h : armed s .fabric 0x11 = some (link, n)) :
    exec .corrupt s = .next (linkReplay (fireInject s .fabric) link 1) :=
  congrArg Host.Outcome.next (fabricInject_armed _ h)

/-- An armed REORDER. -/
theorem exec_reorder_armed (h : armed s .fabric 0x12 = some (link, n)) :
    exec .reorder s = .next (packetAstray (fireInject s .fabric) link) :=
  congrArg Host.Outcome.next (fabricInject_armed _ h)

/-- An armed BURST. -/
theorem exec_burst_armed (h : armed s .fabric 0x13 = some (link, n)) :
    exec .burst s = .next (linkReplay (fireInject s .fabric) link (min 4 (n + 1))) :=
  congrArg Host.Outcome.next (fabricInject_armed _ h)

end

/-- LINK_REPLAY outside Held. -/
theorem exec_linkReplay_live {s : State} (link : Fin 40) (failed : Fin 5) (h : s.mode.mode ≠ .held) :
    exec (.linkReplay link failed) s = .next (linkReplay s link failed) := by
  change execLinkReplay link failed s = _
  simp [execLinkReplay, h]

/-- Settles O15: each clause is one case of `linkReplay`, and `raiseFault` sets the bit that the case names. -/
theorem fabricLinks : Obligations.FabricLinks := by
  refine ⟨?retried, ?spared, ?dead, ?corrupt, ?burst, ?drop, ?reorder, ?lcrc⟩
  case retried =>
    intro link failed s hm hl h0 h4
    refine ⟨_, exec_linkReplay_live link failed hm, linkReplay_retried_bit hl h0 h4,
      (linkReplay_rises _ _ (Rises.refl s)).parts, fun ha => ?_⟩
    obtain ⟨count, info⟩ := linkReplay_retried_log hl h0 h4 ha
    refine ⟨count, ?_, ?_⟩
    · rw [State.pf, info, fget_or_valid, fget_fset _ _ (by decide) (by decide)]
      omega
    · rw [info]
      exact fbit_or_self _ (by decide)
  case spared =>
    intro link s hm hl hs
    exact ⟨_, exec_linkReplay_live link 4 hm, linkReplay_spared_bit hl hs, (linkReplay_rises _ _ (Rises.refl s)).parts⟩
  case dead =>
    intro link s hm hl hs
    exact ⟨_, exec_linkReplay_live link 4 hm, linkReplay_dead_bit hl hs, (linkReplay_rises _ _ (Rises.refl s)).parts⟩
  case corrupt =>
    intro link n s ha hl
    exact ⟨_, exec_corrupt_armed ha, linkReplay_retried_bit hl (by decide) (by decide),
      (linkReplay_rises _ _ (fireInject_rises _ (Rises.refl s))).parts⟩
  case burst =>
    intro link n s ha hl
    refine ⟨_, exec_burst_armed ha,
      (linkReplay_rises _ _ (fireInject_rises _ (Rises.refl s))).parts, fun hn => ?_, fun hn => ?_⟩
    · exact linkReplay_retried_bit hl (by omega) (by omega)
    · rw [show min 4 (n + 1) = 4 by omega]
      exact linkReplay_exhausted_bit _ hl
  case drop =>
    intro x s ha
    exact ⟨_, exec_drop_armed ha, packetAstray_fired s x.1⟩
  case reorder =>
    intro x s ha
    exact ⟨_, exec_reorder_armed ha, packetAstray_fired s x.1⟩
  case lcrc =>
    intro port x s ha
    obtain ⟨disarmed, fired⟩ := fireInject_fired s (.hostif port)
    exact ⟨_, exec_lcrc_armed ha, fireInject_only s _, disarmed, fired, fireInject_regsBut s _⟩

end Sys2Proof.Machine
end

section
/-!
PROOF. The way into Held and through it, release from it, and Surveyor's own events (R26, R523, R537, R544).
-/
namespace Sys2Proof.Machine

/-- An image's log entry changes the log only. -/
theorem logImage_only (s : State) (comp code : Nat) :
    logImage s comp code = { s with log := (logImage s comp code).log } := State.logAdd_only ..

/-! Entering Held (R26). -/

/-- What `toHeld` leaves in every mode: the device is in Held with a step of bring-up, and the configuration and what
Surveyor stores are as they were. -/
structure InHeld (s t : State) (step : BootStep) (full : Bool) : Prop where
  mode : t.mode.mode = .held
  step : t.surv.step = step
  fullNext : t.surv.fullNext = (s.surv.fullNext || full || s.mode.mode == .safe)
  stored : t.surv.stored = s.surv.stored
  banks : t.surv.banks = s.surv.banks
  retired : t.surv.retired = s.surv.retired
  pending : t.pending = s.pending
  cfg : t.cfg = s.cfg
  flash : t.log.flash = s.log.flash
  queue : s.log.queue <+: t.log.queue

/-- The core die of t is at reset after the modes of s. -/
structure DieAtReset (s t : State) : Prop where
  prior : t.mode.prior = s.cyc.modeFrom.getD s.mode.mode
  regs : t.regs = []
  mem : t.mem = {}
  heads : t.heads = []
  rings : t.rings = []
  fclk : t.fclk = 0

/-- The state that Held begins with, before the change of mode is logged and the relay follows it. -/
def heldStart (s : State) (step : BootStep) (full : Bool) : State :=
  { coreDieReset s with
    mode := { mode := .held, prior := s.cyc.modeFrom.getD s.mode.mode },
    cyc := { modeFrom := some (s.cyc.modeFrom.getD s.mode.mode) },
    surv := { s.surv with
      step := step, fullNext := s.surv.fullNext || full || s.mode.mode == .safe, resetAfter := none,
      replies := [], units := [], dpOff := [], dpPwr := false, telemetry := {}, hwTried := [], hwLoaded := false,
      sapLoaded := false, condLogged := false } }

theorem toHeld_of_live {s : State} (step : BootStep) (full : Bool) (h : s.mode.mode ≠ .held) :
    toHeld s step full = relayUpdate ((heldStart s step full).logAdd .mode 0 Mode.held.code 0) := by
  unfold toHeld
  dsimp only
  rw [if_neg h]
  rfl

/-- Leaving any other mode for Held. -/
theorem toHeld_enters {s : State} (step : BootStep) (full : Bool) (h : s.mode.mode ≠ .held) :
    InHeld s (toHeld s step full) step full ∧ DieAtReset s (toHeld s step full) := by
  rw [toHeld_of_live step full h]
  have logged := State.logAdd_only (heldStart s step full) .mode 0 Mode.held.code 0 false
  have flash := State.logAdd_flash (heldStart s step full) .mode 0 Mode.held.code 0 false
  have queue := State.logAdd_prefix (heldStart s step full) .mode 0 Mode.held.code 0 false
  generalize (heldStart s step full).logAdd .mode 0 Mode.held.code 0 = u at logged flash queue ⊢
  rw [logged]
  exact ⟨⟨rfl, rfl, rfl, rfl, rfl, rfl, rfl, rfl, flash, queue⟩, ⟨rfl, rfl, rfl, rfl, rfl, rfl⟩⟩

/-- In Held it is Surveyor alone that takes note, and the relay with it. -/
theorem toHeld_of_held {s : State} (step : BootStep) (full : Bool) (h : s.mode.mode = .held) :
    toHeld s step full = relayUpdate { s with surv := { s.surv with
      step := step, fullNext := s.surv.fullNext || full || s.mode.mode == .safe, resetAfter := none } } := by
  simp [toHeld, h]

theorem toHeld_inHeld (s : State) (step : BootStep) (full : Bool) : InHeld s (toHeld s step full) step full := by
  by_cases h : s.mode.mode = .held
  · rw [toHeld_of_held step full h]
    exact ⟨h, rfl, rfl, rfl, rfl, rfl, rfl, rfl, rfl, List.prefix_rfl⟩
  · exact (toHeld_enters step full h).1

/-- In Held a reset cause leaves bring-up where it is (R26). -/
theorem resetCause_of_held {s : State} (full : Bool) (h : s.mode.mode = .held) :
    resetCause s full = toHeld s s.surv.step full := by
  simp [resetCause, h]

/-- In every other mode a reset cause takes the device to Held (R26). -/
theorem resetCause_enters {s : State} (full : Bool) (h : s.mode.mode ≠ .held) :
    InHeld s (resetCause s full) (heldStep s) full ∧ DieAtReset s (resetCause s full) := by
  obtain ⟨held, die⟩ := toHeld_enters (heldStep s) full h
  unfold resetCause
  rw [if_neg h]
  exact ⟨{ held with mode := held.mode }, { die with regs := die.regs }⟩

theorem resetCause_mode (s : State) (full : Bool) : (resetCause s full).mode.mode = .held := by
  by_cases h : s.mode.mode = .held
  · rw [resetCause_of_held full h]
    exact (toHeld_inHeld s s.surv.step full).mode
  · exact (resetCause_enters full h).1.mode

/-- The end of the wait of R527 changes Surveyor's step alone. -/
theorem unstick_only (s : State) : unstick s = { s with surv := (unstick s).surv } := by
  unfold unstick
  split <;> rfl

theorem unstick_step (s : State) : (unstick s).surv.step ≠ .stuck := by
  unfold unstick
  split
  · simp
  · assumption

/-! Trials (R544). -/

theorem trialStart_off {s : State} {comp : Nat} (h : aget 0 s.surv.trial comp = 0) : trialStart s comp = s := by
  simp [trialStart, h]

theorem trialFallback_only (s : State) (comp : Nat) :
    trialFallback s comp = { s with
      log := (trialFallback s comp).log,
      surv := { s.surv with
        active := aset 0 s.surv.active comp (otherBankOf s comp), trial := aset 0 s.surv.trial comp 0 } } :=
  logImage_only _ comp 3

theorem trialFallback_trial (s : State) (comp : Nat) : aget 0 (trialFallback s comp).surv.trial comp = 0 := by
  rw [trialFallback_only]
  simp

theorem trialFallback_active (s : State) (comp : Nat) :
    activeBankOf (trialFallback s comp) comp = otherBankOf s comp := by
  rw [activeBankOf, trialFallback_only]
  simp

theorem trialFallback_minSec (s : State) (comp : Nat) : (trialFallback s comp).surv.minSec = s.surv.minSec := by
  rw [trialFallback_only]

theorem trialDone_trial (s : State) (comp : Nat) : aget 0 (trialDone s comp).surv.trial comp = 0 := by
  simp [trialDone]

/-- The minimum SEC_VERSION after a trial is that of the image that ran. -/
theorem trialDone_minSec (s : State) (comp : Nat) :
    aget 0 (trialDone s comp).surv.minSec comp = imgSec (bankBytes s comp (activeBankOf s comp)) := by
  simp [trialDone]

/-- The state s with another log, other active banks and other counts of starts. -/
def withTrials (s : State) (log : LogSt) (active trial : Assoc Nat) : State :=
  { s with log := log, surv := { s.surv with active := active, trial := trial } }

theorem trialStart_withTrials (s : State) (comp : Nat) : ∃ l a t, trialStart s comp = withTrials s l a t := by
  unfold trialStart
  dsimp only
  split
  · exact ⟨s.log, s.surv.active, s.surv.trial, rfl⟩
  · split
    · exact ⟨_, _, _, trialFallback_only s comp⟩
    · exact ⟨s.log, s.surv.active, _, rfl⟩

/-- The starts of several components together. -/
theorem trialStarts_withTrials (ks : List Nat) (s : State) :
    ∃ l a t, ks.foldl (fun s k => trialStart s (k + 1)) s = withTrials s l a t := by
  induction ks generalizing s with
  | nil => exact ⟨s.log, s.surv.active, s.surv.trial, rfl⟩
  | cons k ks ih =>
    obtain ⟨l, a, t, e⟩ := trialStart_withTrials s (k + 1)
    obtain ⟨l', a', t', e'⟩ := ih (withTrials s l a t)
    exact ⟨l', a', t', by rw [List.foldl_cons, e, e']; rfl⟩

/-! Surveyor's start and the rails (R523, R543). -/

section
variable {s : State} (hm : s.mode.mode = .held) (hs : s.surv.step = .charging) (ht : aget 0 s.surv.trial 0 = 0)
include hm hs ht

/-- With no valid image Surveyor's boot block logs it and stays in recovery. -/
theorem exec_surveyorStart_recovery (hb : bootBank s 0 = none) :
    ∃ l, exec .surveyorStart s = .next (relayUpdate { s with
      upTicks := 0, log := l, surv := { s.surv with step := .recovery } }) := by
  have quiet : trialStart { s with upTicks := 0 } 0 = { s with upTicks := 0 } := trialStart_off ht
  have none : bootBank { s with upTicks := 0 } 0 = none := hb
  have ran : execSurveyorStart s = .next (relayUpdate (logImage
      { s with upTicks := 0, surv := { s.surv with step := .recovery } } 0 2)) := by
    simp [execSurveyorStart, hm, hs, quiet, none]
  rw [logImage_only] at ran
  exact ⟨_, ran⟩

/-- Surveyor runs from the bank that its boot block takes; that it is not the active one is logged. -/
theorem exec_surveyorStart_up {b : Nat} (hb : bootBank s 0 = some b) :
    ∃ l, exec .surveyorStart s = .next (relayUpdate { s with
      upTicks := 0, log := l, surv := { s.surv with step := .surveyorUp, runBank := b } }) := by
  have quiet : trialStart { s with upTicks := 0 } 0 = { s with upTicks := 0 } := trialStart_off ht
  have bank : bootBank { s with upTicks := 0 } 0 = some b := hb
  by_cases ha : b = activeBankOf { s with upTicks := 0 } 0
  · have ran : execSurveyorStart s = .next (relayUpdate
        { s with upTicks := 0, surv := { s.surv with step := .surveyorUp, runBank := b } }) := by
      simp [execSurveyorStart, hm, hs, quiet, bank, ← ha]
    exact ⟨s.log, ran⟩
  · have logged := logImage_only { s with upTicks := 0 } 0 1
    have ran : execSurveyorStart s = .next (relayUpdate
        { s with upTicks := 0, log := (logImage { s with upTicks := 0 } 0 1).log,
                 surv := { s.surv with step := .surveyorUp, runBank := b } }) := by
      simp only [execSurveyorStart, hm, hs, quiet, bank, ha, if_false, ne_eq, not_true_eq_false, or_self]
      rw [logged]
    exact ⟨_, ran⟩

end

/-- Settles O48: `toHeld` says what a reset cause leaves, and each later step is one case of its command. -/
theorem heldEntry : Obligations.HeldEntry := by
  refine ⟨?reset, ?resetHeld, ?resetIn, ?resetOut, ?mains, ?start, ?rails⟩
  case reset =>
    intro s hm
    obtain ⟨held, die⟩ := resetCause_enters false hm
    exact ⟨_, rfl, held.mode, die.prior, die.regs, die.mem, die.heads, die.rings, die.fclk, held.pending, held.cfg,
      held.stored, held.banks, held.retired, held.flash, held.queue⟩
  case resetHeld =>
    intro s hm
    refine ⟨_, rfl, ?_⟩
    rw [resetCause_of_held false hm, toHeld_of_held _ _ hm]
    exact ⟨rfl, rfl, rfl⟩
  case resetIn =>
    intro s
    have free := unstick_step (resetCause s false)
    refine ⟨relayUpdate { unstick (resetCause s false) with
      surv := { (unstick (resetCause s false)).surv with resetIn := true } }, rfl, ?_⟩
    rw [unstick_only (resetCause s false)]
    exact ⟨resetCause_mode s false, rfl, free, fun hm =>
      have die := (resetCause_enters false hm).2
      ⟨die.regs, die.mem⟩⟩
  case resetOut =>
    intro s
    exact ⟨_, rfl, rfl, rfl⟩
  case mains =>
    intro s hm
    exact ⟨_, if_neg (not_not.mpr hm), rfl, rfl, rfl, rfl, rfl, rfl, rfl, rfl, rfl⟩
  case start =>
    intro s hm hs ht
    cases hb : bootBank s 0 with
    | none =>
      obtain ⟨l, ran⟩ := exec_surveyorStart_recovery hm hs ht hb
      exact ⟨_, ran, rfl, rfl, rfl, fun b h => (nomatch h), fun _ => rfl⟩
    | some b =>
      obtain ⟨l, ran⟩ := exec_surveyorStart_up hm hs ht hb
      exact ⟨_, ran, rfl, rfl, rfl, fun b' h => ⟨rfl, Option.some.inj h⟩, fun h => (nomatch h)⟩
  case rails =>
    intro s hm hs hp
    exact ⟨_, congrArg Host.Outcome.next (if_pos ⟨hm, hs, hp⟩), rfl⟩

/-- DEVTIME is 0 before the first FCLK cycle (R18). -/
theorem devtime_of_fclk_zero {s : State} (h : s.fclk = 0) : s.devtime = 0 := by
  simp [State.devtime, h]

/-! Release from Held (R523, R524, R526, R528). -/

/-- The core die as it leaves Held, before SAG_STATUS follows the sags: t gives the log and the trials. -/
def leftHeld (s t : State) : State :=
  { coreDieReset t with
    cfg := s.surv.stored,
    mode := { mode := .survey, prior := .held },
    surv := { t.surv with
      step := .bist, bootCount := s.surv.bootCount + 1, full := s.surv.fullNext || s.surv.stored.bistFull == 1,
      fullNext := false, condLogged := false } }

theorem release_eq (s : State) : ∃ l a t, release s = sagRegs (leftHeld s (withTrials s l a t)) := by
  obtain ⟨l, a, t, e⟩ := trialStarts_withTrials (List.range 4) s
  refine ⟨l, a, t, ?_⟩
  unfold release
  rw [e]
  rfl

theorem sagRegs_regsBut (s : State) : RegsBut s (sagRegs s) [pageBase .clkpwr + Reg.CLKPWR_SAG_STATUS] :=
  setPr_regsBut (by simp)

section
variable {s : State} {ppm : Int} (hm : s.mode.mode = .held) (hs : s.surv.step = .railsGood)
  (hr : s.surv.resetIn = false)
include hm hs hr

/-- With every condition in its range the core die is released. -/
theorem exec_bistConditionsCheck_ok (hc : condsOk s ppm = true) :
    exec (.bistConditionsCheck ppm) s = .next (relayUpdate (release s)) := by
  change execBistConditionsCheck ppm s = _
  simp [execBistConditionsCheck, hm, hs, hr, hc]

/-- A condition out of its range is logged once and noted. -/
theorem exec_bistConditionsCheck_fails (hc : condsOk s ppm = false) :
    ∃ l, exec (.bistConditionsCheck ppm) s = .next (relayUpdate { s with
      log := l, surv := { s.surv with condLogged := true } }) := by
  have ran : execBistConditionsCheck ppm s = .next (relayUpdate
      { (if s.surv.condLogged then s else s.logAdd .bist 0 1 0) with
        surv := { (if s.surv.condLogged then s else s.logAdd .bist 0 1 0).surv with condLogged := true } }) := by
    simp [execBistConditionsCheck, hm, hs, hr, hc]
  split at ran
  · exact ⟨s.log, ran⟩
  · rw [State.logAdd_only] at ran
    exact ⟨_, ran⟩

end

/-! A console's ID (R590). -/

/-- The log entry of a console port's ID, with a code and the bytes. -/
def consoleEntry (s : State) (k : Fin 4) (code : Nat) (bytes : List Nat) : LogEntry :=
  { seq := 0, boot := s.surv.bootCount % 65536, kind := .config, inHeld := false, injected := false,
    deferral := false, devtime := s.devtime, uptimeUs := s.uptimeUs, place := 30 + k.val, code := code,
    addr := 0, data := bytes }

/-- The bytes of a console's ID memory, 256 of them. -/
def consoleBytes (d : List (BitVec 8)) : List Nat := (List.range 256).map (fun i => (d.getD i 0).toNat)

theorem exec_consoleIdRead_none {s : State} (k : Fin 4) (hm : s.mode.mode ≠ .held) :
    exec (.consoleIdRead k none) s = .next (s.logPut (consoleEntry s k 1 (List.replicate 20 0))) := if_neg hm

theorem exec_consoleIdRead_some {s : State} (k : Fin 4) (d : List (BitVec 8)) (hm : s.mode.mode ≠ .held) :
    exec (.consoleIdRead k (some d)) s = .next (s.logPut (consoleEntry s k 0
      ((consoleBytes d).take 16 ++ leBytes 4 (crc32c (consoleBytes d))))) := if_neg hm

/-- The entry begins with the first 16 bytes of the ID memory. -/
theorem consoleBytes_take (d : List (BitVec 8)) (r : List Nat) :
    ((consoleBytes d).take 16 ++ r).take 16 = (List.range 16).map (fun i => (d.getD i 0).toNat) := by
  have len : ((consoleBytes d).take 16).length = 16 := by simp [consoleBytes]
  rw [List.take_append_of_le_length len.ge, List.take_of_length_le len.le, consoleBytes, ← List.map_take,
    List.take_range]
  rfl

/-! Surveyor's watchdog and the end of a trial (R544, R550). -/

/-- The step of bring-up after Surveyor's watchdog. -/
def watchdogStep (s : State) : BootStep := if s.surv.step = .stuck then .stuck else .charging

theorem exec_updateTrialEnd_done {s : State} {comp : Fin 5} (hc : comp.val ≠ 0) (ht : 2 ≤ aget 0 s.surv.trial comp)
    (hs : s.surv.step = .running) : exec (.updateTrialEnd comp) s = .next (trialDone s comp) := by
  change execUpdateTrialEnd comp s = _
  simp [execUpdateTrialEnd, hc, ht, hs]

theorem exec_updateTrialEnd_fallback {s : State} {comp : Fin 5} (hc : comp.val ≠ 0)
    (ht : 4 ≤ aget 0 s.surv.trial comp) (hm : s.mode.mode = .held) (hs : s.surv.step = .railsGood) :
    exec (.updateTrialEnd comp) s = .next (trialFallback s comp) := by
  change execUpdateTrialEnd comp s = _
  simp [execUpdateTrialEnd, hc, ht, hs, hm]

/-- Settles O49: the release is `release_eq`, the watchdog is `toHeld`, and each other clause is one case of its
command. -/
theorem releaseFromHeld : Obligations.ReleaseFromHeld := by
  refine ⟨?release, ?conds, ?console, ?watchdog, ?done, ?fallback⟩
  case release =>
    intro ppm s hm hs hr hc
    obtain ⟨l, a, t, e⟩ := release_eq s
    refine ⟨_, exec_bistConditionsCheck_ok hm hs hr hc, ?_⟩
    rw [e]
    refine ⟨rfl, rfl, rfl, rfl, devtime_of_fclk_zero rfl, rfl, rfl, fun x hx => ?_, rfl⟩
    exact sagRegs_regsBut (leftHeld s (withTrials s l a t)) x hx
  case conds =>
    intro ppm s hm hs hr hc
    obtain ⟨l, ran⟩ := exec_bistConditionsCheck_fails hm hs hr hc
    exact ⟨_, ran, rfl, hs, rfl, rfl, rfl⟩
  case console =>
    intro k d s hm hq
    cases d with
    | none =>
      exact ⟨_, _, exec_consoleIdRead_none k hm, State.logPut_only .., State.logPut_room _ hq, rfl, rfl, rfl, rfl,
        fun _ => rfl, fun b h => (nomatch h)⟩
    | some d =>
      refine ⟨_, _, exec_consoleIdRead_some k d hm, State.logPut_only .., State.logPut_room _ hq, rfl, rfl, rfl, rfl,
        fun h => (nomatch h), fun b h => ⟨rfl, ?_⟩⟩
      cases h
      exact consoleBytes_take d _
  case watchdog =>
    intro s h1 h2 h3
    have held := toHeld_inHeld s (watchdogStep s) true
    refine ⟨_, if_neg (by simp [h1, h2, h3]), held.mode, ?_, rfl, rfl, held.stored, held.banks, fun h => ?_, fun hm => ?_⟩
    · exact held.fullNext.trans (by simp)
    · exact held.step.trans (if_neg h)
    · have die := (toHeld_enters (watchdogStep s) true hm).2
      exact ⟨die.regs, die.mem⟩
  case done =>
    intro comp s hc ht hs
    exact ⟨_, exec_updateTrialEnd_done hc ht hs, rfl, trialDone_trial s comp, trialDone_minSec s comp, rfl⟩
  case fallback =>
    intro comp s hc ht hm hs
    exact ⟨_, exec_updateTrialEnd_fallback hc ht hm hs, trialFallback_trial s comp, trialFallback_active s comp,
      trialFallback_minSec s comp⟩

end Sys2Proof.Machine
end

section
/-!
PROOF. Sensor samples with their thermal faults, and the step of the graphics clock (R17, R532, R533, R535).
-/
namespace Sys2Proof.Machine

/-! A sample (R532, R533). -/

/-- The reading of a sensor in a sample. -/
def sampleRead (values : List (BitVec 16)) (k : Nat) : Int := sext (values.getD k 0).toNat 16

/-- The hottest die site and the hottest memory stack of a sample. -/
def sampleHot (values : List (BitVec 16)) : Int :=
  (List.range 8).foldl (fun acc k => max acc (sampleRead values k)) (sampleRead values 0)

def sampleDram (values : List (BitVec 16)) : Int :=
  (List.range 4).foldl (fun acc k => max acc (sampleRead values (8 + k))) (sampleRead values 8)

/-- What Surveyor holds after a sample. -/
def sampled (values : List (BitVec 16)) (s : State) : State :=
  { s with surv := { s.surv with
    sensors := (List.range 45).foldl (fun m k => aset 0 m k (sampleRead values k)) [],
    bulk := (values.getD 38 0).toNat, thermal := thermalStep s.surv.thermal (sampleHot values),
    fanLost := s.surv.fanLost.filter (fun k => decide (sampleRead values (40 + k) < 1000)) } }

/-- The faults of a sample: a higher thermal step, then a trip temperature. -/
def sampleFaults (values : List (BitVec 16)) (s : State) : State :=
  let s' := if s.surv.thermal < (sampled values s).surv.thermal then raiseFault (sampled values s) .clkpwr 1
    else sampled values s
  if 880 ≤ sampleHot values ∨ 840 ≤ sampleDram values then raiseFault s' .clkpwr 4 else s'

theorem exec_sensorSample_live {s : State} (values : List (BitVec 16)) (h1 : s.surv.step ≠ .unpowered)
    (h2 : s.surv.step ≠ .charging) (h3 : s.surv.step ≠ .recovery) (hm : s.mode.mode ≠ .held) :
    exec (.sensorSample values) s = .next (sampleFaults values s) := by
  change execSensorSample values s = _
  unfold execSensorSample
  rw [if_neg (by simp [h1, h2, h3])]
  exact if_neg hm

/-- A store filled key by key reads as it was filled. -/
theorem aget_foldl_aset {α : Type} [DecidableEq α] (d : α) (f : Nat → α) {n k : Nat} (h : k < n) :
    aget d ((List.range n).foldl (fun m k => aset d m k (f k)) []) k = f k := by
  induction n with
  | zero => omega
  | succ n ih =>
    rw [List.range_succ, List.foldl_append, List.foldl_cons, List.foldl_nil, aget_aset_cases]
    split
    · next e => rw [e]
    · exact ih (by omega)

theorem sensor_sampled (values : List (BitVec 16)) (s : State) {k : Nat} (h : k < 45) :
    sensor (sampled values s) k = sampleRead values k :=
  aget_foldl_aset 0 (sampleRead values) h

/-- The faults of a sample touch nothing but what faults touch. -/
theorem sampleFaults_rises (values : List (BitVec 16)) (s : State) :
    Rises (sampled values s) (sampleFaults values s) := by
  have warm : Rises (sampled values s) (if s.surv.thermal < (sampled values s).surv.thermal
      then raiseFault (sampled values s) .clkpwr 1 else sampled values s) :=
    Rises.ite (raiseFault_rises _ _ _ (Rises.refl _)) (Rises.refl _)
  exact Rises.ite (raiseFault_rises _ _ _ warm) warm

/-- No higher step and no trip temperature: no fault. -/
theorem sampleFaults_none {values : List (BitVec 16)} {s : State}
    (ht : (sampled values s).surv.thermal ≤ s.surv.thermal) (hh : sampleHot values < 880) (hd : sampleDram values < 840) :
    sampleFaults values s = sampled values s := by
  unfold sampleFaults
  rw [if_neg (not_lt.mpr ht), if_neg (by omega)]

/-- A higher step sets CLKPWR fault 1, and the trip fault behind it leaves it set (R533). -/
theorem sampleFaults_warm {values : List (BitVec 16)} {s : State}
    (ht : s.surv.thermal < (sampled values s).surv.thermal) :
    fbit ((sampleFaults values s).hd .clkpwr .faultStatus) 1 = true := by
  have warm := raiseFault_bit (sampled values s) .clkpwr 1 false (by decide)
  have after : Rises (raiseFault (sampled values s) .clkpwr 1) (sampleFaults values s) := by
    unfold sampleFaults
    rw [if_pos ht]
    exact Rises.ite (raiseFault_rises _ _ _ (Rises.refl _)) (Rises.refl _)
  exact after.bits _ (.inr (faultStatus_mod .clkpwr)) 1 warm

/-- A trip temperature sets CLKPWR fault 4 (R533). -/
theorem sampleFaults_trip {values : List (BitVec 16)} {s : State} (h : 880 ≤ sampleHot values ∨ 840 ≤ sampleDram values) :
    fbit ((sampleFaults values s).hd .clkpwr .faultStatus) 4 = true := by
  unfold sampleFaults
  rw [if_pos h]
  exact raiseFault_bit _ .clkpwr 4 false (by decide)

/-! The graphics clock (R17, R535). -/

/-- GCLK_STATUS as the limits ask for it. -/
def gclkWord (s : State) : Word := w32 ((gclkTarget s).2 * 256 + (gclkTarget s).1)

/-- GCLK_STATUS follows the limits, with an event where the step differs. -/
def gclkFollow (s : State) : State :=
  let s' := s.setPr .clkpwr Reg.CLKPWR_GCLK_STATUS (gclkWord s)
  if s.pf .clkpwr Reg.CLKPWR_GCLK_STATUS 1 0 = (gclkTarget s).1 then s' else s'.event .clkpwr 0

theorem exec_gclkStepChange_differs {s : State} (hm : s.mode.mode ≠ .held)
    (hw : gclkWord s ≠ s.pr .clkpwr Reg.CLKPWR_GCLK_STATUS) : exec .gclkStepChange s = .next (gclkFollow s) :=
  if_neg (not_or.mpr ⟨hm, hw⟩)

theorem gclkFollow_only (s : State) :
    gclkFollow s = { s with regs := (gclkFollow s).regs, cyc := (gclkFollow s).cyc } := by
  unfold gclkFollow
  dsimp only
  split
  · exact State.setPr_only ..
  · exact State.event_only (s.setPr ..) ..

theorem gclkFollow_status (s : State) : (gclkFollow s).pr .clkpwr Reg.CLKPWR_GCLK_STATUS = gclkWord s := by
  unfold gclkFollow
  dsimp only
  split
  · exact State.pr_setPr ..
  · rw [State.pr, State.reg_event, if_neg (by decide)]
    exact State.pr_setPr ..

theorem gclkFollow_event {s : State} (h : s.pf .clkpwr Reg.CLKPWR_GCLK_STATUS 1 0 ≠ (gclkTarget s).1) :
    fbit ((gclkFollow s).hd .clkpwr .irqStatus) 0 = true := by
  unfold gclkFollow
  dsimp only
  rw [if_neg h]
  exact event_bit _ .clkpwr 0 (by decide)

theorem gclkFollow_regsBut (s : State) :
    RegsBut s (gclkFollow s) [pageBase .clkpwr + Reg.CLKPWR_GCLK_STATUS, hadr .clkpwr .irqStatus] := by
  have status : RegsBut s (s.setPr .clkpwr Reg.CLKPWR_GCLK_STATUS (gclkWord s))
      [pageBase .clkpwr + Reg.CLKPWR_GCLK_STATUS, hadr .clkpwr .irqStatus] := setPr_regsBut (.head _)
  unfold gclkFollow
  dsimp only
  split
  · exact status
  · exact status.trans (event_regsBut (.tail _ (.head _)))

/-- Settles O52: `sampled` gives the readings and `sampleFaults` the faults; `gclkFollow` gives the clock's status. -/
theorem sensorsAndClock : Obligations.SensorsAndClock := by
  refine ⟨fun values s h1 h2 h3 hm => ?sample, fun s hm => ?clock⟩
  case sample =>
    exact ⟨sampleFaults values s, sampled values s, exec_sensorSample_live values h1 h2 h3 hm, rfl,
      fun k hk => sensor_sampled values s hk, rfl, rfl, rfl, (sampleFaults_rises values s).parts, sampleFaults_none,
      sampleFaults_warm, sampleFaults_trip⟩
  case clock =>
    intro step by' w hw
    exact ⟨gclkFollow s, exec_gclkStepChange_differs hm hw, gclkFollow_only s, gclkFollow_status s, gclkFollow_event,
      gclkFollow_regsBut s⟩

end Sys2Proof.Machine
end

section
/-!
SUPPORT. Refused writes, landing writes and reads as the register fabric carries them out (R16, R41, R42, R60).
-/
namespace Sys2Proof.Machine

/-! Registers and fields. -/

theorem State.hd_setHf (s : State) (p : Page) (h : Hdr) (hi lo v : Nat) :
    (s.setHf p h hi lo v).hd p h = fset (s.hd p h) hi lo v := State.hd_setHd s p h _

theorem setHf_regsBut {s : State} {p : Page} {h : Hdr} {hi lo v : Nat} {l : List Nat} (hl : hadr p h ∈ l) :
    RegsBut s (s.setHf p h hi lo v) l := setHd_regsBut hl

/-- A change of the log changes no register. -/
theorem State.reg_setLog (s : State) (l : LogSt) (a : Nat) : State.reg { s with log := l } a = s.reg a := rfl

theorem State.hd_setLog (s : State) (l : LogSt) (p : Page) (h : Hdr) : State.hd { s with log := l } p h = s.hd p h := rfl

/-- A field above the bits that are set reads as before. -/
theorem fget_or_below (w : Word) {n hi lo : Nat} (h : n < 2 ^ lo) : fget (w ||| w32 n) hi lo = fget w hi lo := by
  apply Nat.eq_of_testBit_eq
  intro i
  have above : n.testBit (lo + i) = false :=
    Nat.testBit_lt_two_pow (h.trans_le (Nat.pow_le_pow_right (by decide) (Nat.le_add_right lo i)))
  rw [fget, fget, bits_testBit, bits_testBit, BitVec.toNat_or, Nat.testBit_or, w32_toNat, Nat.testBit_mod_two_pow,
    above, Bool.and_false, Bool.or_false]

/-! Refusals (R60). -/

theorem masterCode_lt (m : Master) : m.code < 256 := by
  cases m with
  | func f => exact f.isLt.trans (by decide)
  | _ => decide

theorem Cause.code_lt (c : Cause) : c.code < 16 := by
  cases c <;> decide

/-- The bits of CFG_REJECT_INFO that hardware sets with a refusal: VALID, and OVERRUN where it was VALID. -/
def rejectHw (old : Word) : Nat := b2n (fbit old 0) * 2 + 1

/-- CFG_REJECT_INFO of a page has recorded a refusal. -/
def rejected (s : State) (m : Master) (p : Page) (c : Cause) (off : Nat) : State :=
  (s.setHd p .reject (rejectWord (s.hd p .reject) m.code c.code off)).hwBits (hadr p .reject)
    (rejectHw (s.hd p .reject))

theorem refuse_range (s : State) (m : Master) (p : Page) (off full : Nat) :
    s.refuse m p .range off full = rejected s m p .range off := by
  unfold State.refuse
  dsimp only
  rfl

/-- The log entry of a refusal, at most one per millisecond and page, changes the log alone (R61). -/
theorem logRefusal_only (s : State) (p : Page) (full code : Nat) : ∃ l,
    (if aget 0 s.log.refusalAt (pageBase p) = 0 ∨ aget 0 s.log.refusalAt (pageBase p) - 1 + 1000000 ≤ s.devtime then
      { (s.logAdd .refusal full code 0) with
        log := { (s.logAdd .refusal full code 0).log with
          refusalAt := aset 0 (s.logAdd .refusal full code 0).log.refusalAt (pageBase p)
            ((s.logAdd .refusal full code 0).devtime + 1) } }
    else s) = { s with log := l } := by
  split
  · rw [State.logAdd_only]
    exact ⟨_, rfl⟩
  · exact ⟨s.log, rfl⟩

/-- A refusal with CLAIMED is recorded, and perhaps logged (R61). -/
theorem refuse_claimed (s : State) (m : Master) (p : Page) (off full : Nat) :
    ∃ l, s.refuse m p .claimed off full = { rejected s m p .claimed off with log := l } := by
  unfold State.refuse
  exact logRefusal_only (rejected s m p .claimed off) p full _

theorem rejected_regsBut (s : State) (m : Master) (p : Page) (c : Cause) (off : Nat) :
    RegsBut s (rejected s m p c off) [hadr p .reject] := by
  intro a ha
  have apart := List.ne_of_not_mem_cons ha
  rw [rejected, State.reg_hwBits, if_neg apart, State.reg_setHd, if_neg apart]

theorem rejected_only (s : State) (m : Master) (p : Page) (c : Cause) (off : Nat) :
    rejected s m p c off = { s with regs := (rejected s m p c off).regs, cyc := (rejected s m p c off).cyc } := by
  unfold rejected
  exact State.hwBits_only ..

theorem rejectHw_lt (old : Word) : rejectHw old < 4 := by
  unfold rejectHw
  cases fbit old 0 <;> decide

theorem rejected_hd (s : State) (m : Master) (p : Page) (c : Cause) (off : Nat) :
    (rejected s m p c off).hd p .reject =
      rejectWord (s.hd p .reject) m.code c.code off ||| w32 (rejectHw (s.hd p .reject)) := by
  rw [rejected, State.hd, State.reg_hwBits, if_pos rfl]
  exact congrArg (· ||| _) (State.hd_setHd ..)

/-- The fields of CFG_REJECT_INFO add up without a carry. -/
theorem rejectWord_fields (old : Word) {code cause : Nat} (off : Nat) (hc : code < 256) (hk : cause < 16) :
    fget (rejectWord old code cause off) 23 20 = cause ∧ fget (rejectWord old code cause off) 31 24 = code ∧
      fget (rejectWord old code cause off) 11 2 = off % 4096 / 4 := by
  have count : (if fbit old 0 then satInc (fget old 19 12) 255 else 1) < 256 := by
    unfold satInc
    split
    · split <;> omega
    · decide
  have low : b2n (fbit old 0 || fbit old 1) < 2 := by
    unfold b2n
    split <;> decide
  unfold rejectWord
  dsimp only
  generalize (if fbit old 0 then satInc (fget old 19 12) 255 else 1) = n at count
  generalize b2n (fbit old 0 || fbit old 1) = b at low
  simp only [fget, bits, w32_toNat, Nat.shiftRight_eq_div_pow]
  omega

/-- The refusal that CFG_REJECT_INFO shows: its cause, its master, its offset, and VALID (R60). -/
theorem rejected_fields (s : State) (m : Master) (p : Page) (c : Cause) (off : Nat) :
    fget ((rejected s m p c off).hd p .reject) 23 20 = c.code ∧
      fget ((rejected s m p c off).hd p .reject) 31 24 = m.code ∧
      fbit ((rejected s m p c off).hd p .reject) 0 = true ∧
      fget ((rejected s m p c off).hd p .reject) 11 2 = off % 4096 / 4 := by
  have small := rejectHw_lt (s.hd p .reject)
  obtain ⟨cause, code, offset⟩ := rejectWord_fields (s.hd p .reject) off (masterCode_lt m) c.code_lt
  have valid : (rejectHw (s.hd p .reject)).testBit 0 = true := by
    unfold rejectHw
    cases fbit (s.hd p .reject) 0 <;> rfl
  rw [rejected_hd, fget_or_below _ (by omega), fget_or_below _ (by omega), fget_or_below _ (by omega), fbit_or, valid]
  exact ⟨cause, code, by simp, offset⟩

/-! A write that the fabric refuses in DEV under the offset as presented. -/

section
variable {s : State} {m : Master} {a shown : Nat} {c : Cause} (hm : masterThere s m = true)
  (hr : refusalOf (beginAccess s m) m a = some (.dev, c, true))
include hm hr

theorem partialAccess_refused : partialAccess s m a shown = (beginAccess s m).refuse m .dev c shown shown := by
  simp [partialAccess, hm, hr, recordRefusal]

theorem plainAccess_refused (v : Word) : plainAccess s m a shown v = (beginAccess s m).refuse m .dev c shown shown := by
  simp [plainAccess, hm, hr, recordRefusal]

theorem gated_refused_dev (op : State → State) : gated s m a op = (beginAccess s m).refuse m .dev c a a :=
  gated_refused hm hr

/-- With no rule of its own behind the offset a write of any byte enables is refused alike. -/
theorem regWrite_refused {x : Nat} {be : BitVec 4} {v : Word} (ha : a = x / 4 * 4) (ht : targetOf s m x = .at x)
    (route : routeOwn s m a v = none) : regWrite s m x be v = (beginAccess s m).refuse m .dev c x x := by
  subst ha
  unfold regWrite
  simp only [ht, route]
  split
  · exact partialAccess_refused hm hr
  · exact plainAccess_refused hm hr v

end

/-! Reads. -/

/-- The state that a read finds: its place in the cycle, and for a function every earlier write landed (R373). -/
def readStart (s : State) (m : Master) : State := if isFunc m then flushAll (beginAccess s m) else beginAccess s m

theorem regRead_at {s : State} {m : Master} {x y : Nat} (ht : targetOf s m x = .at y) (hm : masterThere s m = true) :
    regRead s m x = pfRead (readStart s m) m (y / 4 * 4) x := by
  simp [regRead, readStart, ht, hm]

/-! Writes that land (R16). -/

theorem ampStatic_only (s : State) (p : Nat) : ampStatic s p = { s with regs := (ampStatic s p).regs } := by
  unfold ampStatic
  dsimp only
  split
  · rfl
  · split <;> rfl

/-- A landing write touches registers, the cycle's record and the parity marks of AUDIO. -/
def LandParts (s t : State) : Prop := t = { s with regs := t.regs, cyc := t.cyc, audio := t.audio }

theorem LandParts.refl (s : State) : LandParts s s := rfl

theorem LandParts.trans {s t u : State} (h : LandParts s t) (k : LandParts t u) : LandParts s u := by
  unfold LandParts at *
  rw [k, h]

theorem LandParts.foldl {β : Type} {f : State → β → State} (l : List β) {s t : State} (h : LandParts s t)
    (hf : ∀ x b, LandParts x (f x b)) : LandParts s (l.foldl f t) :=
  State.foldl_invariant (LandParts s) f l t h fun x b hx => hx.trans (hf x b)

theorem ampStatic_lands (s : State) (p : Nat) : LandParts s (ampStatic s p) := by
  rw [ampStatic_only]
  rfl

theorem landEffect_lands (s : State) (p : Page) (o : Nat) (old : Word) : LandParts s (landEffect s p o old) := by
  unfold landEffect
  split
  · dsimp only
    split
    · exact LandParts.foldl _ rfl ampStatic_lands
    · split <;> rfl
  · split <;> rfl
  · split <;> rfl
  · rfl

theorem landWrite_lands (s : State) (c : Crossing) : LandParts s (landWrite s c) := by
  unfold landWrite
  split
  · rfl
  · split
    · rfl
    · split
      · rfl
      · have noted : LandParts s (s.notePrev c.addr) := by
          rw [notePrev_only]
          rfl
        have written {u : State} (v : Word) (h : LandParts s u) : LandParts s (u.setReg c.addr v) := h.trans rfl
        exact (written _ noted).trans (landEffect_lands ..)

/-- Waiting writes that land leave the queue; beside it they touch what landing writes touch. -/
theorem landWhere_lands (s : State) (t : Crossing → Bool) :
    LandParts { s with crossings := s.crossings.filter (fun c => !t c) } (landWhere s t) :=
  LandParts.foldl _ (LandParts.refl _) landWrite_lands

theorem landWhere_only (s : State) (t : Crossing → Bool) :
    landWhere s t = { s with
      crossings := (landWhere s t).crossings, regs := (landWhere s t).regs, cyc := (landWhere s t).cyc,
      audio := (landWhere s t).audio } := by
  have h := landWhere_lands s t
  unfold LandParts at h
  rw [h]

theorem flushPage_only (s : State) (p : Page) :
    flushPage s p = { s with
      crossings := (flushPage s p).crossings, regs := (flushPage s p).regs, cyc := (flushPage s p).cyc,
      audio := (flushPage s p).audio } := by
  unfold flushPage
  split
  · rfl
  · exact landWhere_only s _

theorem flushAll_only (s : State) :
    flushAll s = { s with
      crossings := (flushAll s).crossings, regs := (flushAll s).regs, cyc := (flushAll s).cyc,
      audio := (flushAll s).audio } := by
  unfold flushAll
  split
  · rfl
  · exact landWhere_only s _

theorem flushAll_of_empty {s : State} (h : s.crossings = []) : flushAll s = s := by
  simp [flushAll, h]

end Sys2Proof.Machine
end

section
/-!
PROOF. Unmapped offsets of PF BAR0 (R42), and the WORLD page as hosts find it (R81).
-/
namespace Sys2Proof.Machine

/-! Unmapped offsets (R42). -/

section
variable {a : Nat} (ht : tableAt a = none) (hp : pageAt a = none)
include ht hp

theorem refusalOf_unmapped (s : State) (m : Master) : refusalOf s m a = some (.dev, .range, true) := by
  simp [refusalOf, ht, hp]

theorem routeOwn_unmapped (s : State) (m : Master) (v : Word) : routeOwn s m a v = none := by
  simp [routeOwn, ht, hp]

theorem readReg_unmapped (s : State) (m : Master) : readReg s m a = 0 := by
  simp [readReg, ht, hp]

theorem pfRead_unmapped (s : State) (m : Master) (shown : Nat) :
    (pfRead s m a shown).answer = some ⟨m.code, shown, 0⟩ := by
  simp [pfRead, ht, hp, readReg_unmapped ht hp s m]

end

/-- Settles O7: an unmapped offset has no route and no page, so its read answers 0 and its write is refused in DEV. -/
theorem unmappedOffsets : Obligations.UnmappedOffsets := by
  refine ⟨?read, ?write⟩
  case read =>
    intro m addr wait s u target there table page
    exact ⟨_, rfl, (congrArg State.answer (regRead_at target there)).trans (pfRead_unmapped table page _ m _)⟩
  case write =>
    intro m addr be v wait s u target there table page
    have refused : regWrite u m addr.toNat be v = rejected (beginAccess u m) m .dev .range addr.toNat := by
      rw [regWrite_refused there (refusalOf_unmapped table page _ m) rfl target (routeOwn_unmapped table page u m v),
        refuse_range]
    obtain ⟨cause, code, valid, offset⟩ := rejected_fields (beginAccess u m) m .dev .range addr.toNat
    exact ⟨_, congrArg Host.Outcome.next refused, cause, code, valid, offset,
      rejected_regsBut _ m .dev .range addr.toNat, rejected_only ..⟩

/-! The WORLD page and a host (R81). -/

/-- The offset lies in the WORLD page of PF BAR0 (R80). -/
def InWorld (a : Nat) : Prop := a / 4096 = 0x411

theorem inWorld_add {o : Nat} (h : o < 4096) : InWorld (pageBase .world + o) := by
  change (0x411000 + o) / 4096 = 0x411
  omega

theorem pageAt_world {a : Nat} (h : InWorld a) : pageAt a = some (.world, a % 4096) := by
  simp [pageAt, show a / 0x1000 = 0x411 from h]

theorem tableAt_world {a : Nat} (h : InWorld a) : tableAt a = none := by
  have above : 0x3F8000 ≤ a := by
    unfold InWorld at h
    omega
  unfold tableAt
  rw [if_neg (by omega), if_neg (by omega), if_neg (by omega), if_neg (by omega)]

theorem shownTo_world (s : State) (f : Fin 64) (o : Nat) : shownTo s (.func f) .world o = false := by
  have low : f.val ≠ 0x40 ∧ f.val ≠ 0x41 := by omega
  simp [shownTo, secureMaster, Master.code, low]

section
variable {a : Nat} (h : InWorld a) (s : State) (f : Fin 64)
include h

theorem refusalOf_world : refusalOf s (.func f) a = some (.dev, .claimed, true) := by
  simp [refusalOf, tableAt_world h, pageAt_world h, isFunc]

theorem readReg_world : readReg s (.func f) a = 0 := by
  simp [readReg, tableAt_world h, pageAt_world h, shownTo_world]

/-- A host's read of WORLD answers 0: neither the register nor a latch of it is shown. -/
theorem pfRead_world (shown : Nat) : (pfRead s (.func f) a shown).answer = some ⟨f.val, shown, 0⟩ := by
  simp [pfRead, tableAt_world h, pageAt_world h, shownTo_world, readReg_world h s f, Master.code]

end

/-! What a host needs to present an access, no landing write changes: FUNC_STATUS has no field that a write reaches. -/

theorem landEffect_reg {s : State} {p : Page} {o a : Nat} {old : Word} (low : a < pageBase .audio)
    (apart : a % 4096 ≠ Reg.FUNC_REVOKE_INFO) : (landEffect s p o old).reg a = s.reg a := by
  have audio {t : State} {x hi lo v : Nat} : (t.setPf .audio x hi lo v).reg a = t.reg a := by
    rw [State.reg_setPf, if_neg (by omega)]
  unfold landEffect
  split
  · dsimp only
    split
    · refine State.foldl_invariant (fun t => t.reg a = s.reg a) ampStatic _ _ rfl fun t k ht => ?_
      unfold ampStatic
      dsimp only
      split
      · exact audio.trans ht
      · split
        · exact audio.trans ht
        · exact ht
    · split
      · exact audio
      · rfl
  · split
    · have above : pageBase .audio < pageBase .world := by decide
      rw [State.reg_setPf, if_neg (by omega)]
    · rfl
  · split
    next k h =>
      rw [State.reg_setPf, if_neg]
      rw [h.1]
      rintro rfl
      apply apart
      change (0x10000 + 0x1000 * k + 0x13C) % 0x1000 = 0x13C
      omega
    next => rfl
  · rfl

/-- FUNC_STATUS of a function, and its place in PF BAR0. -/
def funcStatusAt (f : Fin 64) : Nat := pageBase (.func f.val) + Reg.FUNC_FUNC_STATUS

theorem funcStatusAt_page (f : Fin 64) : pageAt (funcStatusAt f) = some (.func f.val, Reg.FUNC_FUNC_STATUS) := by
  revert f
  decide

/-- Every field of FUNC_STATUS is read-only: no master's write replaces a bit of it, and none clears one. -/
theorem funcStatus_readOnly (k : Nat) : ∃ r, rowAt (.func k) Reg.FUNC_FUNC_STATUS = some r ∧
    (∀ code, plainMask r code = 0) ∧ accMask r (fun t => t == .w1c) = 0 :=
  ⟨_, rfl, fun _ => rfl, rfl⟩

theorem funcStatusAt_low (f : Fin 64) : funcStatusAt f < pageBase .audio ∧ funcStatusAt f % 4096 ≠ Reg.FUNC_REVOKE_INFO := by
  revert f
  decide

theorem landWrite_funcStatus (s : State) (c : Crossing) (f : Fin 64) :
    (landWrite s c).reg (funcStatusAt f) = s.reg (funcStatusAt f) := by
  obtain ⟨low, apart⟩ := funcStatusAt_low f
  by_cases h : c.addr = funcStatusAt f
  · obtain ⟨r, row, plain, once⟩ := funcStatus_readOnly f.val
    simp only [landWrite, h, funcStatusAt_page, row, plain, once]
    split
    · rfl
    · rw [landEffect_reg low apart, State.reg_setReg, if_pos rfl, notePrev_reg]
      simp only [w32, BitVec.and_zero, BitVec.zero_and, BitVec.or_zero, BitVec.not_zero, BitVec.and_allOnes]
  · unfold landWrite
    split
    · rfl
    · split
      · rfl
      · split
        · rfl
        · rw [landEffect_reg low apart, State.reg_setReg, if_neg (Ne.symm h), notePrev_reg]

theorem flushAll_funcStatus (s : State) (f : Fin 64) :
    (flushAll s).reg (funcStatusAt f) = s.reg (funcStatusAt f) := by
  unfold flushAll
  split
  · rfl
  · exact State.foldl_invariant (fun t => t.reg (funcStatusAt f) = s.reg (funcStatusAt f)) landWrite _ _ rfl
      fun t c ht => (landWrite_funcStatus t c f).trans ht

/-- A host that can issue an access still can when the writes on their way have landed. -/
theorem masterThere_flushAll {s : State} {f : Fin 64} (h : masterThere s (.func f) = true) :
    masterThere (flushAll s) (.func f) = true := by
  have mode : (flushAll s).mode = s.mode := by rw [flushAll_only]
  have ports : (flushAll s).ports = s.ports := by rw [flushAll_only]
  have status : funcExists (flushAll s) f.val = funcExists s f.val := by
    simp only [funcExists, State.pf, State.pr]
    rw [← funcStatusAt, flushAll_funcStatus]
  rw [← h]
  simp only [masterThere, mode, ports, status]

/-! A host's write of WORLD: whatever rule the register has, the fabric refuses the write first. -/

/-- The write of master m in s was refused in DEV with CLAIMED, perhaps behind the writes on their way (R373). -/
def ClaimedAway (s : State) (m : Master) (t : State) : Prop :=
  ∃ u off full, (u = s ∨ u = flushAll s) ∧ t = (beginAccess u m).refuse m .dev .claimed off full

section
variable {s : State} {f : Fin 64} (hm : masterThere s (.func f) = true)
include hm

theorem gated_world {a : Nat} (h : InWorld a) (op : State → State) :
    ClaimedAway s (.func f) (gated s (.func f) a op) :=
  ⟨s, a, a, .inl rfl, gated_refused_dev hm (refusalOf_world h _ f) op⟩

theorem writeReg_world {a : Nat} (h : InWorld a) (check : State → Option Cause) (op : State → State) :
    ClaimedAway s (.func f) (writeReg s (.func f) a check op) :=
  gated_world hm h _

/-- A doorbell lets the writes on their way land before it is refused (R373). -/
theorem doorbellWrite_world {r : Nat} (v : Word) (h : r < 5) :
    ClaimedAway s (.func f) (doorbellWrite s (.func f) 64 r v) := by
  have place : InWorld (doorbellAddr 64 r) := by
    change (0x411000 + 0x800 + 4 * r) / 4096 = 0x411
    omega
  refine ⟨flushAll s, doorbellAddr 64 r, doorbellAddr 64 r, .inr rfl, ?_⟩
  unfold doorbellWrite writeReg
  exact gated_refused_dev (masterThere_flushAll hm) (refusalOf_world place _ f) _

theorem ringCtrlWrite_world {r : Nat} (v : Word) (h : r < 5) :
    ClaimedAway s (.func f) (ringCtrlWrite s (.func f) 64 r v) := by
  have place : InWorld (pageBase (ringPage 64) + ringOff 64 r + rCtrl) := by
    change (0x411000 + (0x300 + 0x20 * r) + 8) / 4096 = 0x411
    omega
  exact writeReg_world hm place _ _

theorem commitGo_world (seq : Nat) : ClaimedAway s (.func f) (commitGo s (.func f) .world seq) := by
  have refused := refusalOf_world (a := hadr .world .commit) rfl (beginAccess s (.func f)) f
  refine ⟨s, hadr .world .commit, hadr .world .commit, .inl rfl, ?_⟩
  simp [commitGo, hm, pageOk, refused, commitRevoked, recordRefusal]

theorem routeHeader_world {o : Nat} {v : Word} {t : State} (h : routeHeader s (.func f) .world o v = some t) :
    ClaimedAway s (.func f) t := by
  simp only [routeHeader] at h
  split at h
  · obtain rfl := Option.some.inj h
    exact writeReg_world (a := hadr .world .ctrl) hm rfl _ _
  · split at h
    · obtain rfl := Option.some.inj h
      exact commitGo_world hm _
    · split at h
      · obtain rfl := Option.some.inj h
        exact writeReg_world (a := hadr .world .inject) hm rfl _ _
      · cases h

theorem routeWorld_refused {o a : Nat} {v : Word} {t : State} (ha : InWorld a)
    (h : routeWorld s (.func f) o a v = some t) : ClaimedAway s (.func f) t := by
  simp only [routeWorld] at h
  split at h
  · obtain rfl := Option.some.inj h
    exact writeReg_world hm ha _ _
  · split at h
    · obtain rfl := Option.some.inj h
      exact writeReg_world (a := pageBase .world + Reg.WORLD_SAFE_OK) hm rfl _ _
    · split at h
      · obtain rfl := Option.some.inj h
        exact writeReg_world hm ha _ _
      · split at h
        next claim =>
          obtain rfl := Option.some.inj h
          obtain ⟨lo, hi⟩ : 0x200 ≤ o ∧ o < 0x200 + 128 := claim
          have place : InWorld (pageBase .world + Reg.WORLD_CLAIM + 4 * ((o - Reg.WORLD_CLAIM) / 4)) := by
            change (0x411000 + 0x200 + 4 * ((o - 0x200) / 4)) / 4096 = 0x411
            omega
          exact writeReg_world hm place _ _
        next => cases h

/-- Every register of WORLD with a rule of its own is refused to a host. -/
theorem routeOwn_world {a : Nat} {v : Word} {t : State} (ha : InWorld a)
    (h : routeOwn s (.func f) a v = some t) : ClaimedAway s (.func f) t := by
  simp only [routeOwn, tableAt_world ha, pageAt_world ha] at h
  split at h
  · exact routeHeader_world hm h
  · split at h
    next rs r x ring =>
      simp only [ringBlockAt, Option.ite_none_right_eq_some, Option.some.injEq, Prod.mk.injEq] at ring h
      obtain ⟨⟨lo, hi⟩, place⟩ := ring
      obtain ⟨-, rfl⟩ := h
      obtain ⟨rfl, rfl, -⟩ := place
      exact ringCtrlWrite_world hm v (by omega)
    next =>
      split at h
      next rs r bell =>
        simp only [doorbellAt, Option.ite_none_right_eq_some, Option.some.injEq, Prod.mk.injEq] at bell
        obtain ⟨⟨lo, hi⟩, place⟩ := bell
        obtain rfl := Option.some.inj h
        obtain ⟨rfl, rfl⟩ := place
        exact doorbellWrite_world hm v (by omega)
      next => exact routeWorld_refused hm ha h

/-- A host's write at an offset of WORLD, of any bytes, is refused in DEV with CLAIMED (R81). -/
theorem regWrite_world {x : Nat} (be : BitVec 4) (v : Word) (hx : InWorld x) (ht : targetOf s (.func f) x = .at x) :
    ClaimedAway s (.func f) (regWrite s (.func f) x be v) := by
  have place : InWorld (x / 4 * 4) := by
    unfold InWorld at *
    omega
  have refused := refusalOf_world place (beginAccess s (.func f)) f
  simp only [regWrite, ht]
  split
  · exact ⟨s, x, x, .inl rfl, partialAccess_refused hm refused⟩
  · split
    next t route => exact routeOwn_world hm place route
    next => exact ⟨s, x, x, .inl rfl, plainAccess_refused hm refused v⟩

end

/-- What such a refusal shows in CFG_REJECT_INFO of DEV (R60). -/
theorem ClaimedAway.fields {s t : State} {f : Fin 64} (h : ClaimedAway s (.func f) t) :
    fget (t.hd .dev .reject) 23 20 = Cause.claimed.code ∧ fget (t.hd .dev .reject) 31 24 = f.val ∧
      fbit (t.hd .dev .reject) 0 = true := by
  obtain ⟨u, off, full, -, rfl⟩ := h
  obtain ⟨l, e⟩ := refuse_claimed (beginAccess u (.func f)) (.func f) .dev off full
  obtain ⟨cause, code, valid, -⟩ := rejected_fields (beginAccess u (.func f)) (.func f) .dev .claimed off
  rw [e, State.hd_setLog]
  exact ⟨cause, code, valid⟩

/-- With no write on its way it changes no other register, and no memory. -/
theorem ClaimedAway.frame {s t : State} {m : Master} (h : ClaimedAway s m t) (quiet : s.crossings = []) :
    RegsBut (beginAccess s m) t [hadr .dev .reject] ∧ t.mem = s.mem := by
  obtain ⟨u, off, full, start, rfl⟩ := h
  obtain rfl : u = s := start.elim id fun e => e.trans (flushAll_of_empty quiet)
  obtain ⟨l, e⟩ := refuse_claimed (beginAccess u m) m .dev off full
  rw [e]
  refine ⟨fun a ha => ?_, beginAccess_mem u m⟩
  rw [State.reg_setLog]
  exact rejected_regsBut (beginAccess u m) m .dev .claimed off a ha

/-- Settles O8: `pfRead_world` answers the read, and `regWrite_world` refuses the write whatever its route. -/
theorem worldHiddenFromHosts : Obligations.WorldHiddenFromHosts := by
  have offset (o : Fin 4096) : (BitVec.ofNat 26 (pageBase .world + o.val)).toNat = pageBase .world + o.val := by
    rw [BitVec.toNat_ofNat]
    change (0x411000 + o.val) % 2 ^ 26 = 0x411000 + o.val
    omega
  refine ⟨?read, ?write⟩
  case read =>
    intro f o wait s m x u target there
    have place : InWorld (x / 4 * 4) := by
      change (0x411000 + o.val) / 4 * 4 / 4096 = 0x411
      omega
    refine ⟨regRead u m x, congrArg (fun y => Host.Outcome.next (regRead u m y)) (offset o), ?_⟩
    rw [regRead_at target there]
    exact pfRead_world place _ f x
  case write =>
    intro f o be v wait s m x u target there
    have away := regWrite_world there be v (inWorld_add o.isLt) target
    obtain ⟨cause, code, valid⟩ := away.fields
    exact ⟨regWrite u m x be v, congrArg (fun y => Host.Outcome.next (regWrite u m y be v)) (offset o), cause, code,
      valid, fun quiet _ => away.frame quiet⟩

end Sys2Proof.Machine
end

section
/-!
PROOF. Plain register writes and their arrival, reads of pairs, and entries of the effect library (R16, R41, R62, R69).
-/
namespace Sys2Proof.Machine

/-! What an update of other parts of State leaves alone. -/

/-- A register reads what the stores it comes from hold. -/
theorem reg_of_regs {s t : State} (hr : t.regs = s.regs) (hc : t.cfg = s.cfg) (a : Nat) : t.reg a = s.reg a := by
  simp only [State.reg, hr, hc]

theorem bytesBut_of_mem {s t : State} {p : Nat → Prop} (h : t.mem = s.mem) : BytesBut s t p := fun a _ => by
  simp only [memByte, h]

theorem staged_of_slots {s t : State} (h : t.slots = s.slots) (m : Master) (table entry : Nat) :
    t.staged m table entry = s.staged m table entry := by
  simp only [State.staged, h]

theorem State.latched_setAnswer (s : State) (x : Option Answer) (m : Master) (a : Nat) :
    State.latched { s with answer := x } m a = s.latched m a := rfl

theorem State.reg_unstage (s : State) (m : Master) (table a : Nat) : (s.unstage m table).reg a = s.reg a := rfl

/-- The slot that a master empties holds no word of the table (R69). -/
theorem staged_unstage (s : State) (m : Master) (table entry : Nat) :
    (s.unstage m table).staged m table entry = [] := by
  have gone : (s.unstage m table).slots.find? (fun x => x.master == m.code && x.table == table && x.entry == entry) =
      none := by
    rw [List.find?_eq_none]
    intro x hx
    have other := (List.mem_filter.mp hx).2
    simp only [Bool.not_eq_true'] at other
    simp [other]
  simp [State.staged, gone]

/-- The frame of an access at its place in the cycle: no register and no memory. -/
theorem begun_reg (s : State) (n : Nat) (m : Master) (a : Nat) : (beginAccess (advance s n) m).reg a = s.reg a :=
  (beginAccess_reg _ m a).trans (advance_reg s n a)

theorem begun_mem (s : State) (n : Nat) (m : Master) : (beginAccess (advance s n) m).mem = s.mem :=
  (beginAccess_mem _ m).trans (advance_mem s n)

/-! A plain write on its way (R16, R62). -/

/-- An aligned write of all four bytes without a rule of its own. -/
theorem regWrite_whole {s : State} {m : Master} {x : Nat} {v : Word} (ht : targetOf s m x = .at x) (aligned : x % 4 = 0)
    (route : routeOwn s m x v = none) : regWrite s m x 15 v = plainAccess s m x x v := by
  have word : x / 4 * 4 = x := by omega
  simp [regWrite, ht, aligned, word, route]

/-- The fabric takes a write behind the header of a page. -/
theorem plainAccess_body {s : State} {m : Master} {a shown : Nat} {v : Word} {p : Page} {o : Nat} (h : Accepts s m a)
    (table : tableAt a = none) (page : pageAt a = some (p, o)) (body : pageBody p ≤ o) :
    plainAccess s m a shown v = bodyWrite (beginAccess s m) m p o v := by
  obtain ⟨there, free⟩ := h
  simp [plainAccess, there, free, table, page, not_lt.mpr body]

/-- A register whose row the block takes as it stands. -/
theorem bodyWrite_plain {s : State} {m : Master} {p : Page} {o : Nat} {v : Word} {r : RegRow} (row : rowAt p o = some r)
    (effect : p ≠ .haptic) (pair : stagedPair r = false) (check : bodyCheck s m p o r v = none) :
    bodyWrite s m p o v = plainWrite s m p r (pageBase p + o) v := by
  simp [bodyWrite, row, effect, pair, check]

/-- The write leaves FCLK for the block's own domain (R16). -/
theorem plainWrite_crosses {s : State} {m : Master} {p : Page} {r : RegRow} {a : Nat} {v : Word} (shd : shdMask r = 0)
    (rest : accMask r (fun t => t != .ro && t != .shd) ≠ 0) (foreign : pageForeign p = true) :
    plainWrite s m p r a v = State.noteWrite { s with crossings := s.crossings ++ [⟨m.code, a, v⟩] } a := by
  simp [plainWrite, shd, rest, foreign]

/-! Its arrival (R16, R52, R62). -/

theorem landEffect_plain {s : State} {p : Page} {o : Nat} {old : Word} (audio : p ≠ .audio) (world : p ≠ .world)
    (func : ∀ k, p ≠ .func k) : landEffect s p o old = s := by
  unfold landEffect
  split
  next => exact absurd rfl audio
  next => exact absurd rfl world
  next k => exact absurd rfl (func k)
  next => rfl

/-- The word that a landing write leaves in its register. -/
def landWord (s : State) (c : Crossing) (r : RegRow) : Word :=
  ((s.reg c.addr &&& ~~~ (w32 (plainMask r c.master))) ||| (c.val &&& w32 (plainMask r c.master))) &&&
    ~~~ (w32 (accMask r (fun t => t == .w1c)) &&& c.val &&& ~~~ (w32 (aget 0 s.cyc.hwSet c.addr)))

theorem landWrite_plain {s : State} {c : Crossing} {p : Page} {o : Nat} {r : RegRow} (page : pageAt c.addr = some (p, o))
    (row : rowAt p o = some r) (ready : s.ready p = true) (audio : p ≠ .audio) (world : p ≠ .world)
    (func : ∀ k, p ≠ .func k) : landWrite s c = (s.notePrev c.addr).setReg c.addr (landWord s c r) := by
  simp only [landWrite, page, row, ready, landEffect_plain audio world func, notePrev_reg, notePrev_hwSet, landWord,
    Bool.not_true, Bool.false_eq_true, if_false]

theorem notePrev_setReg_only (s : State) (a : Nat) (v : Word) :
    (s.notePrev a).setReg a v =
      { s with regs := ((s.notePrev a).setReg a v).regs, cyc := ((s.notePrev a).setReg a v).cyc } := by
  rw [notePrev_only]
  rfl

/-! A read of the lower word of a pair (R41). -/

theorem resultRead_other {p : Page} (cvu : ∀ u, p ≠ .cvu u) (s : State) (m : Master) (o : Nat) :
    resultRead s m p o = s := by
  unfold resultRead
  split
  next u => exact absurd rfl (cvu u)
  next => rfl

section
variable {p : Page} {o : Nat} {r : RegRow} (row : rowAt p o = some r) (low : r.pair = 1)
  (composer : ∀ n, p ≠ .composer n) (cvu : ∀ u, p ≠ .cvu u)
include row low composer cvu

theorem latchedBy_low : latchedBy p o = [o + 4] := by
  unfold latchedBy
  split
  next n => exact absurd rfl (composer n)
  next u => exact absurd rfl (cvu u)
  next => simp [row, low]

theorem readsLatch_low : readsLatch p o = false := by
  unfold readsLatch
  split
  next n => exact absurd rfl (composer n)
  next u => exact absurd rfl (cvu u)
  next => simp [row, low]

theorem pfRead_low {a : Nat} (table : tableAt a = none) (page : pageAt a = some (p, o)) (s : State) (m : Master)
    (shown : Nat) : pfRead s m a shown =
      { s.latch m (pageBase p + (o + 4)) (readReg s m (pageBase p + (o + 4))) with
        answer := some ⟨m.code, shown, readReg s m a⟩ } := by
  simp [pfRead, table, page, latchedBy_low row low composer cvu, readsLatch_low row low composer cvu,
    resultRead_other cvu]

end

/-! The highest word of an effect (R464, R69). -/

/-- Word k of the effect at e: as the master has staged it, else as it stands. -/
def effectWord (s : State) (m : Master) (e k : Nat) : Word :=
  ((s.staged m (pageBase .haptic + Reg.HAPTIC_EFFECT_W0) e).find? (fun x => x.1 == e + 4 * k)).elim
    (s.reg (e + 4 * k)) (·.2)

/-- The effect at e in force whole, with v as its word 3, and the master's slot empty. -/
def effectEntry (s : State) (m : Master) (e : Nat) (v : Word) : State :=
  (((((s.unstage m (pageBase .haptic + Reg.HAPTIC_EFFECT_W0)).setReg e (effectWord s m e 0)).setReg (e + 4)
    (effectWord s m e 1)).setReg (e + 8) (effectWord s m e 2)).setReg (e + 12) v).noteWrite (e + 12)

theorem effectWrite_top {s : State} {m : Master} {e o : Nat} {v : Word} (base : e % 16 = 0)
    (place : pageBase .haptic + o = e + 12)
    (ok : effectOk (effectWord s m e 0) (effectWord s m e 1) (effectWord s m e 2) v = true) :
    effectWrite s m o v = effectEntry s m e v := by
  have top : o % 16 = 12 := by
    change 0x3D0000 + o = e + 12 at place
    omega
  have entry : (e + 12) / 16 * 16 = e := by omega
  simp only [effectWord] at ok
  simp only [effectWrite, place, top, entry, ok, effectEntry, effectWord, ne_eq, not_true_eq_false, if_false, if_true]

/-- What the four words of the entry read, and every other register. -/
theorem effectEntry_reg (s : State) (m : Master) (e : Nat) (v : Word) (a : Nat) :
    (effectEntry s m e v).reg a =
      if a = e + 12 then v else if a = e + 8 then effectWord s m e 2 else if a = e + 4 then effectWord s m e 1
      else if a = e then effectWord s m e 0 else s.reg a := by
  rw [effectEntry, State.noteWrite, State.reg_setCyc]
  simp only [State.reg_setReg, State.reg_unstage]

theorem effectEntry_staged (s : State) (m : Master) (e : Nat) (v : Word) (entry : Nat) :
    (effectEntry s m e v).staged m (pageBase .haptic + Reg.HAPTIC_EFFECT_W0) entry = [] := by
  have slots : (effectEntry s m e v).slots = (s.unstage m (pageBase .haptic + Reg.HAPTIC_EFFECT_W0)).slots := by
    rw [effectEntry, State.noteWrite_slots, State.setReg_slots, State.setReg_slots, State.setReg_slots,
      State.setReg_slots]
  exact (staged_of_slots slots ..).trans (staged_unstage s m _ entry)

theorem bodyWrite_effect {s : State} {m : Master} {o : Nat} {v : Word} (row : (rowAt .haptic o).isSome = true)
    (lib : Reg.HAPTIC_EFFECT_W0 ≤ o) : bodyWrite s m .haptic o v = effectWrite s m o v := by
  obtain ⟨r, row⟩ := Option.isSome_iff_exists.mp row
  simp [bodyWrite, row, lib]

/-- A write of the highest word of an effect, which has no route of its own. -/
theorem exec_tableEntryWrite_effect {s : State} {m : Master} {addr : BitVec 26} {v : Word} {e : Fin 64}
    (place : addr.toNat = pageBase .haptic + Reg.HAPTIC_EFFECT_W0 + 16 * e.val + 12) (h : Accepts s m addr.toNat) :
    exec (.tableEntryWrite m addr v) s =
      .next (effectWrite (beginAccess s m) m (Reg.HAPTIC_EFFECT_W0 + 16 * e.val + 12) v) := by
  obtain ⟨top, table, page, row⟩ := effect_top_word e
  rw [← place] at top table page
  have word : addr.toNat / 4 * 4 = addr.toNat := by
    rw [place]
    change (0x3D0000 + 0x400 + 16 * e.val + 12) / 4 * 4 = 0x3D0000 + 0x400 + 16 * e.val + 12
    omega
  have body : pageBody .haptic ≤ Reg.HAPTIC_EFFECT_W0 + 16 * e.val + 12 := by
    change 0x100 ≤ 0x400 + 16 * e.val + 12
    omega
  have route : routeOwn s m addr.toNat v = none := by
    simp [routeOwn, table, page, not_lt.mpr body, ringBlockAt, doorbellAt, routeBody]
  have lib : Reg.HAPTIC_EFFECT_W0 ≤ Reg.HAPTIC_EFFECT_W0 + 16 * e.val + 12 := by omega
  change execTableEntryWrite m addr v s = _
  simp only [execTableEntryWrite, word, top, if_true, route]
  rw [plainAccess_body h table page body, bodyWrite_effect row lib]

/-- Settles O10: the write waits in the queue (`plainWrite_crosses`), lands (`landWrite_plain`), the read latches the
upper word (`pfRead_low`), and the effect's entry is `effectEntry`. -/
theorem registerAccesses : Obligations.RegisterAccesses := by
  refine ⟨?write, ?arrival, ?read, ?effect⟩
  case write =>
    intro m addr v wait s p o r target aligned table page place body row effect pair shd rest foreign route accepts check
    have ran : regWrite (advance s wait.toNat) m addr.toNat 15 v = State.noteWrite
        { beginAccess (advance s wait.toNat) m with
          crossings := (beginAccess (advance s wait.toNat) m).crossings ++ [⟨m.code, addr.toNat, v⟩] } addr.toNat := by
      rw [regWrite_whole target aligned route, plainAccess_body accepts table page body,
        bodyWrite_plain row effect pair check, plainWrite_crosses shd rest foreign, ← place]
    refine ⟨_, congrArg Host.Outcome.next ran, ?_, fun a _ => ?_, by simp [State.noteWrite],
      bytesBut_of_mem (begun_mem s wait.toNat m)⟩
    · exact congrArg (· ++ _) ((beginAccess_crossings _ m).trans (advance_crossings s _))
    · exact (reg_of_regs rfl rfl a).trans (begun_reg s wait.toNat m a)
  case arrival =>
    intro s c q p o r queue page row ready audio world func
    have ran : exec .foreignWriteEffect s =
        .next ((State.notePrev { s with crossings := q } c.addr).setReg c.addr (landWord s c r)) := by
      change execForeignWriteEffect s = _
      simp only [execForeignWriteEffect, queue]
      exact congrArg Host.Outcome.next (landWrite_plain (s := { s with crossings := q }) page row ready audio world func)
    refine ⟨_, ran, notePrev_setReg_only { s with crossings := q } c.addr _, fun a ha => ?_, ?_⟩
    · rw [State.reg_setReg, if_neg (List.ne_of_not_mem_cons ha), notePrev_reg]
      rfl
    · rw [State.reg_setReg, if_pos rfl]
      rfl
  case read =>
    intro m addr wait s p o r target aligned table page row low composer cvu there host
    have word : addr.toNat / 4 * 4 = addr.toNat := by omega
    have ran := regRead_at target there
    rw [word, readStart, host, if_neg Bool.false_ne_true, pfRead_low row low composer cvu table page] at ran
    refine ⟨_, congrArg Host.Outcome.next ran, rfl, ?_, fun a _ => ?_, bytesBut_of_mem (begun_mem s wait.toNat m)⟩
    · rw [State.latched_setAnswer]
      exact latched_latch _ m _ _
    · exact (reg_of_regs rfl rfl a).trans (begun_reg s wait.toNat m a)
  case effect =>
    intro m e addr v s place accepts st w ok
    obtain ⟨b, base, top, offset⟩ : ∃ b, b % 16 = 0 ∧ addr.toNat = b + 12 ∧
        pageBase .haptic + (Reg.HAPTIC_EFFECT_W0 + 16 * e.val + 12) = b + 12 :=
      ⟨0x3D0000 + 0x400 + 16 * e.val, by omega, place, by
        change 0x3D0000 + (0x400 + 16 * e.val + 12) = _
        omega⟩
    have entry : addr.toNat - 12 = b := by omega
    have words (k : Nat) : w k = effectWord (beginAccess s m) m b k := by
      simp only [w, st, entry, effectWord, beginAccess_reg]
    rw [words, words, words] at ok
    have ran := (exec_tableEntryWrite_effect place accepts).trans
      (congrArg Host.Outcome.next (effectWrite_top base offset ok))
    have reads := effectEntry_reg (beginAccess s m) m b v
    rw [words, words, words, entry, show addr.toNat - 8 = b + 4 by omega, show addr.toNat - 4 = b + 8 by omega, top]
    refine ⟨_, ran, ?_, ?_, ?_, ?_, fun a ha => ?_, effectEntry_staged ..⟩
    · simp [reads]
    · simp [reads]
    · simp [reads]
    · simp [reads]
    · simp only [List.mem_cons, List.not_mem_nil, or_false, not_or] at ha
      simp [reads, ha, beginAccess_reg]

end Sys2Proof.Machine
end

section
/-!
PROOF. Soft resets and drains of blocks (R46, R48, R49).
-/
namespace Sys2Proof.Machine

/-! The READY register (R46). -/

theorem setBusy_hd (s : State) (p : Page) (b : Bool) :
    (s.setBusy p b).hd p .ready = fset (s.hd p .ready) 1 1 (b2n b) := State.hd_setHf ..

theorem setBusy_regsBut (s : State) (p : Page) (b : Bool) : RegsBut s (s.setBusy p b) [hadr p .ready] :=
  setHf_regsBut (.head _)

theorem setBusy_busy (s : State) (p : Page) (b : Bool) : (s.setBusy p b).busy p = b := by
  rw [State.busy, setBusy_hd, fbit_fset _ _ _ (by decide) (by decide)]
  cases b <;> rfl

/-- BUSY and REASON together, as a soft reset sets and clears them. -/
def setReset (s : State) (p : Page) (b : Bool) (reason : Nat) : State := (s.setBusy p b).setHf p .ready 15 8 reason

theorem setReset_hd (s : State) (p : Page) (b : Bool) (reason : Nat) :
    (setReset s p b reason).hd p .ready = fset (fset (s.hd p .ready) 1 1 (b2n b)) 15 8 reason := by
  rw [setReset, State.hd_setHf, setBusy_hd]

theorem setReset_regsBut (s : State) (p : Page) (b : Bool) (reason : Nat) :
    RegsBut s (setReset s p b reason) [hadr p .ready] :=
  (setBusy_regsBut s p b).trans (setHf_regsBut (.head _))

theorem setReset_reason (s : State) (p : Page) (b : Bool) {reason : Nat} (h : reason < 256) :
    fget ((setReset s p b reason).hd p .ready) 15 8 = reason := by
  rw [setReset_hd, fget_fset _ _ (by decide) (by decide)]
  exact Nat.mod_eq_of_lt h

theorem setReset_busy (s : State) (p : Page) (b : Bool) (reason : Nat) : (setReset s p b reason).busy p = b := by
  rw [State.busy, setReset_hd, fbit_fset _ _ _ (by decide) (by decide), if_neg (by decide), ← setBusy_hd]
  exact setBusy_busy s p b

/-- The bits of READY outside BUSY and REASON stay. -/
theorem setReset_bit (s : State) (p : Page) (b : Bool) (reason : Nat) {k : Nat} (busy : k ≠ 1)
    (low : k < 8) : fbit ((setReset s p b reason).hd p .ready) k = fbit (s.hd p .ready) k := by
  rw [setReset_hd, fbit_fset _ _ _ (by decide) (by decide), if_neg (by omega), fbit_fset _ _ _ (by decide) (by decide),
    if_neg (by omega)]

/-! What a reset returns to its reset value (R49). -/

theorem aget_filter_dropped {α : Type} (d : α) (m : Assoc α) {stays : Nat → Bool} {k : Nat} (h : stays k = false) :
    aget d (m.filter (fun e => stays e.1)) k = d := by
  induction m with
  | nil => rfl
  | cons e r ih =>
    obtain ⟨j, v⟩ := e
    by_cases hj : stays j = true
    · have apart : j ≠ k := by
        rintro rfl
        simp [hj] at h
      simpa [List.filter_cons, hj, aget, apart] using ih
    · simpa [List.filter_cons, hj] using ih

/-- The addresses whose registers the reset of a page leaves: other pages, the header but CTRL and IRQ_STATUS, and
what the block keeps. -/
def resetLeaves (p : Page) (a : Nat) : Bool :=
  a < pageBase p || pageBase p + pageSize p ≤ a ||
    (a - pageBase p < pageBody p && a != hadr p .ctrl && a != hadr p .irqStatus) ||
    (pageBody p ≤ a - pageBase p && keepsReg p (a - pageBase p))

theorem resetRegs_eq (s : State) (p : Page) : resetRegs s p = { s with
    regs := s.regs.filter (fun e => resetLeaves p e.1), shadow := s.shadow.filter (fun e => resetLeaves p e.1) } := rfl

section
variable {p : Page} (hb : pageBody p = 0x100)
include hb

/-- Every page but a layer block has the common header (R43, R78). -/
theorem hadr_common (h : Hdr) : hadr p h = pageBase p + hdrOff h := by
  cases p with
  | layer n l => cases hb
  | _ => rfl

theorem pageSize_common : pageSize p = 0x1000 := by
  cases p with
  | layer n l => cases hb
  | _ => rfl

variable {o : Nat} (lo : 0x100 ≤ o) (hi : o < 0x1000)
include lo

theorem ready_apart : pageBase p + o ∉ [hadr p .ready] := by
  have ready : hadr p .ready = pageBase p + 8 := hadr_common hb .ready
  rw [ready, List.mem_singleton]
  omega

variable (reset : keepsReg p o = false)
include hi reset

theorem resetLeaves_own : resetLeaves p (pageBase p + o) = false := by
  have offset : pageBase p + o - pageBase p = o := Nat.add_sub_cancel_left ..
  have size := pageSize_common hb
  have body : ¬ o < 0x100 := not_lt.mpr lo
  have inside : ¬ 0x1000 ≤ o := not_le.mpr hi
  simp [resetLeaves, offset, size, hb, reset, body, inside]

/-- A register of its own that the reset of a page does not leave. -/
theorem resetRegs_reg (s : State) : (resetRegs s p).pr p o = regRst s.cfg (pageBase p + o) := by
  rw [resetRegs_eq]
  exact aget_filter_dropped _ s.regs (resetLeaves_own hb lo hi reset)

end

/-- Pages whose blocks hold nothing beside their registers. -/
def plainBlocks : List Page := [.fabric, .xlate, .kerf, .scaler, .renderFe, .bin, .memctl, .haptic]

/-- The pending commit of a page is discarded, with LAST_SEQ unchanged (R49). -/
def unpend (s : State) (p : Page) : State :=
  if (s.pend p).isSome then (s.setPend p none).setHd p .commitStatus (fsetb (s.hd p .commitStatus) 0 false) else s

theorem unpend_cfg (s : State) (p : Page) : (unpend s p).cfg = s.cfg := by
  unfold unpend
  split <;> rfl

theorem resetBlock_plain (s : State) {p : Page} (h : p ∈ plainBlocks) : resetBlock s p = resetRegs (unpend s p) p := by
  simp only [plainBlocks, List.mem_cons, List.not_mem_nil, or_false] at h
  rcases h with rfl | rfl | rfl | rfl | rfl | rfl | rfl | rfl <;> rfl

theorem softResetOp_plain (s : State) {p : Page} (h : p ∈ plainBlocks) {o : Nat} (hb : pageBody p = 0x100)
    (lo : 0x100 ≤ o) (hi : o < 0x1000) (reset : keepsReg p o = false) :
    (softResetOp s p).pr p o = regRst s.cfg (pageBase p + o) :=
  calc (softResetOp s p).pr p o
    _ = (resetBlock s p).pr p o := setReset_regsBut (resetBlock s p) p true 7 _ (ready_apart hb lo)
    _ = (resetRegs (unpend s p) p).pr p o := by rw [resetBlock_plain s h]
    _ = regRst s.cfg (pageBase p + o) := by rw [resetRegs_reg hb lo hi reset, unpend_cfg]

/-! The commands. -/

/-- A write that the fabric and the register's own check take has its effect and stands for the cycle (R62, R76). -/
theorem writeReg_taken {s : State} {m : Master} {a : Nat} {check : State → Option Cause} {op : State → State}
    (h : Accepts s m a) (hc : check (taken s m a) = none) : writeReg s m a check op = (op (taken s m a)).noteWrite a := by
  rw [writeReg, gated_taken h.1 h.2, ← taken, hc]

theorem taken_cfg (s : State) (m : Master) (a : Nat) : (taken s m a).cfg = s.cfg := by
  have begun : (beginAccess s m).cfg = s.cfg := by
    unfold beginAccess
    dsimp only
    split <;> rfl
  rw [taken, flushPage_only]
  exact begun

theorem exec_softReset {s : State} {m : Master} {p : Page} {value : Word} (ok : pageOk p = true)
    (hb : pageBody p = 0x100) (h : Accepts s m (hadr p .ctrl))
    (hc : ctrlCheck (taken s m (hadr p .ctrl)) p (fsetb value 1 true) = none) :
    exec (.softReset m p value) s = .next ((softResetOp (taken s m (hadr p .ctrl)) p).noteWrite (hadr p .ctrl)) := by
  have ran : ctrlWrite s m p (fsetb value 1 true) =
      (ctrlOp (taken s m (hadr p .ctrl)) p (fsetb value 1 true)).noteWrite (hadr p .ctrl) :=
    writeReg_taken (check := fun s => ctrlCheck s p (fsetb value 1 true)) h hc
  have reset : ctrlOp (taken s m (hadr p .ctrl)) p (fsetb value 1 true) = softResetOp (taken s m (hadr p .ctrl)) p :=
    if_pos (fbit_fsetb value true (by decide))
  change execSoftReset m p value s = _
  simp [execSoftReset, ok, hb, ran, reset]

theorem exec_softResetDone {s : State} {p : Page} (ok : pageOk p = true) (h : softResetting s p = true)
    (pll : ∀ n, p = .timing n → (s.head n).pll ≠ .stopping) :
    exec (.softResetDone p) s = .next (setReset s p false 0) := by
  change execSoftResetDone p s = _
  cases p with
  | timing n => simp [execSoftResetDone, ok, h, pll n rfl, setReset]
  | _ => simp [execSoftResetDone, ok, h, setReset]

/-- Settles O12: `softResetOp` is what the write leaves; its end is `setReset`, and a drain's end `setBusy`. -/
theorem softResets : Obligations.SoftResets := by
  refine ⟨?reset, ?resetDone, ?drainDone⟩
  case reset =>
    intro m p value s ok hb accepts check
    refine ⟨_, exec_softReset ok hb accepts check, ?_, ?_, fun plain o lo hi reset => ?_⟩
    · exact setReset_busy (resetBlock (taken s m (hadr p .ctrl)) p) p true 7
    · exact setReset_reason (resetBlock (taken s m (hadr p .ctrl)) p) p true (by decide)
    · rw [← taken_cfg s m (hadr p .ctrl)]
      exact softResetOp_plain _ plain hb lo hi reset
  case resetDone =>
    intro p s ok resetting pll
    exact ⟨_, exec_softResetDone ok resetting pll, setReset_busy s p false 0, setReset_reason s p false (by decide),
      setReset_bit s p false 0 (by decide) (by decide), setReset_bit s p false 0 (by decide) (by decide),
      setReset_bit s p false 0 (by decide) (by decide), setReset_regsBut s p false 0, rfl⟩
  case drainDone =>
    intro p s function ok off busy reason drain
    have ran : exec (.enableDrainDone p) s = .next (s.setBusy p false) := by
      change execEnableDrainDone p s = _
      simp [execEnableDrainDone, function, ok, off, busy, reason, drain]
    refine ⟨_, ran, setBusy_busy s p false, ?_, ?_, setBusy_regsBut s p false, rfl⟩
    · rw [setBusy_hd, fget_fset_other _ _ (by decide) (by decide) (by decide)]
    · rw [State.ready, setBusy_hd, fbit_fset _ _ _ (by decide) (by decide)]
      rfl

end Sys2Proof.Machine
end

section
/-!
PROOF. What a head fetches, composes and writes (R144 to R146, R151, R163), and the coefficients of the scaler (R186).
-/
namespace Sys2Proof.Machine

/-! What stands of a head when its line is captured for the veneer and seen by the CVUs, whose mismatch is a fault that
can lead to Safe (R163, R166, R509, R518). -/

/-- Each head of t is that of s but for its runs, which an invalidation can take away (R166). -/
structure HeadsButRuns (s t : State) : Prop where
  head : ∀ k, t.head k = { s.head k with runs := (t.head k).runs }

theorem HeadsButRuns.of_heads {s t : State} (h : t.heads = s.heads) : HeadsButRuns s t where
  head k := by
    have same : t.head k = s.head k := by rw [State.head, h, State.head]
    rw [same]

theorem HeadsButRuns.trans {s t u : State} (h : HeadsButRuns s t) (g : HeadsButRuns t u) : HeadsButRuns s u where
  head k := by rw [g.head k, h.head k]

theorem HeadsButRuns.foldl {β : Type} {f : State → β → State} (l : List β) {s t : State} (h : HeadsButRuns s t)
    (hf : ∀ x b, HeadsButRuns x (f x b)) : HeadsButRuns s (l.foldl f t) :=
  State.foldl_invariant (HeadsButRuns s) f l t h fun x b hx => hx.trans (hf x b)

theorem setHead_runs_butRuns (s : State) (n : Nat) (l : List Run) :
    HeadsButRuns s (s.setHead n { s.head n with runs := l }) := by
  refine ⟨fun k => ?_⟩
  by_cases hk : k = n
  · rw [hk, State.head_setHead]
  · have other : (s.setHead n { s.head n with runs := l }).head k = s.head k := aget_aset_ne _ _ _ _ hk
    rw [other]

theorem invalidateRun_butRuns (s : State) (n r code : Nat) : HeadsButRuns s (invalidateRun s n r code) := by
  refine (setHead_runs_butRuns s n ((s.head n).runs.filter (fun x => x.idx != r))).trans (.of_heads ?_)
  unfold invalidateRun
  split <;> simp

theorem invalidateWhere_butRuns (s : State) (n code : Nat) (p : Run → Bool) :
    HeadsButRuns s (invalidateWhere s n code p) :=
  .foldl _ (.of_heads rfl) fun x r => invalidateRun_butRuns x n r.idx code

theorem dropStage_heads (s : State) (p : Page) (reject : Nat) : (dropStage s p reject).heads = s.heads := by
  unfold dropStage
  split <;> simp

theorem hapStop_heads (s : State) (ch : Nat) : (hapStop s ch).heads = s.heads := rfl

theorem setMode_heads (s : State) (m : Mode) : (setMode s m).heads = s.heads := by
  simp [setMode]

theorem safeStops_butRuns (s : State) : HeadsButRuns s (safeStops s) := by
  unfold safeStops
  extract_lets dropped invalidated stopped unscheduled idle
  have drop : HeadsButRuns s dropped := .foldl _ (.of_heads rfl) fun x p => by
    split
    · exact .of_heads rfl
    · exact .of_heads (dropStage_heads x p 8)
  have invalidate : HeadsButRuns s invalidated := drop.foldl _ fun x n => invalidateWhere_butRuns x n 9 _
  have stop : HeadsButRuns s stopped := invalidate.foldl _ fun x ch => .of_heads (hapStop_heads x ch)
  clear_value stopped
  exact stop.trans (.of_heads rfl)

theorem holdHeartwood_butRuns (s : State) : HeadsButRuns s (holdHeartwood s) :=
  .foldl _ (.of_heads rfl) fun x c => by
    dsimp only
    split <;> exact .of_heads rfl

theorem enterSafe_butRuns (s : State) (hw : Bool) (p : Page) (b sev : Nat) (atFault : Bool) :
    HeadsButRuns s (enterSafe s hw p b sev atFault) := by
  have held {t : State} (f : Bool) (h : HeadsButRuns s t) : HeadsButRuns s (if f then holdHeartwood t else t) := by
    split
    · exact h.trans (holdHeartwood_butRuns t)
    · exact h
  unfold enterSafe
  dsimp only
  split
  · exact .of_heads rfl
  · split
    · exact .of_heads rfl
    · exact held _ (.of_heads rfl)
  · refine held _ (HeadsButRuns.trans (.of_heads ?_) (safeStops_butRuns _))
    exact setMode_heads _ _

theorem enterDegraded_heads (s : State) : (enterDegraded s).heads = s.heads := by
  unfold enterDegraded
  split
  · exact setMode_heads s _
  · exact setMode_heads s _
  · rfl

theorem markFenced_heads (s : State) (p : Page) : (markFenced s p).heads = s.heads := by
  unfold markFenced readyChange
  split <;> simp

theorem recordFault_heads (s : State) (p : Page) (b : Nat) (injected : Bool) :
    (recordFault s p b injected).heads = s.heads := by
  unfold recordFault mergeFirst recordFirst
  dsimp only
  split_ifs <;> simp

/-- A mismatch fences its CVU or enters Safe; neither touches a head beyond its runs (R500, R509, R518). -/
theorem raiseFault_cvu_butRuns (s : State) (u b : Nat) : HeadsButRuns s (raiseFault s (.cvu u) b) := by
  have recorded : HeadsButRuns s (recordFault s (.cvu u) b false) := .of_heads (recordFault_heads ..)
  unfold raiseFault
  dsimp only [faultPage]
  split
  · exact .of_heads rfl
  · split
    · exact recorded.trans (enterSafe_butRuns ..)
    · split
      · refine recorded.trans ?_
        unfold fenceUnit
        dsimp only
        split
        · exact .of_heads rfl
        · exact .of_heads ((enterDegraded_heads _).trans (markFenced_heads _ _))
      · exact recorded

theorem cvuLatch_butRuns (s : State) (u seq : Nat) (skipped : Bool) : HeadsButRuns s (cvuLatch s u seq skipped) := by
  unfold cvuLatch
  extract_lets p c res ea bad st numbered timed told unread latched
  have latch : HeadsButRuns s latched := by
    apply HeadsButRuns.of_heads
    rw [State.setCvu_heads]
    unfold unread
    split <;> simp [told, timed, numbered]
  split
  · exact latch.trans (raiseFault_cvu_butRuns latched u 0)
  · exact latch

theorem cvuPack_heads (s : State) (u : Nat) (ws : List Nat) (part : Bool) : (cvuPack s u ws part).heads = s.heads := rfl

theorem cvuHeadLine_butRuns (s : State) (n line : Nat) (px : List Rgb) :
    HeadsButRuns s (cvuHeadLine s n line px) := by
  refine HeadsButRuns.foldl _ (.of_heads rfl) fun x u => ?_
  generalize cvuRect x u = rect
  obtain ⟨left, top, w, h⟩ := rect
  dsimp only
  have pack (ws : List Nat) (part : Bool) : HeadsButRuns x (cvuPack x u ws part) := .of_heads rfl
  split
  · split
    · exact (pack _ _).trans (cvuLatch_butRuns _ u _ false)
    · exact pack _ _
  · exact .of_heads rfl

theorem cvuLayerLine_butRuns (s : State) (n line : Nat) (its : List Item) :
    HeadsButRuns s (cvuLayerLine s n line its) := by
  refine HeadsButRuns.foldl _ (.of_heads rfl) fun x u => ?_
  split
  · extract_lets l c seen item
    split
    extract_lets px filled packed ended skip started
    have pack : packed.heads = x.heads := by
      unfold packed
      split <;> simp [seen, cvuPack_heads]
    split
    · have start : started.heads = packed.heads := by
        unfold started
        split <;> simp
      exact HeadsButRuns.trans (.of_heads (start.trans pack)) (cvuLatch_butRuns started u _ skip)
    · exact .of_heads pack
  · exact .of_heads rfl

theorem legendMiss_heads (s : State) (n line : Nat) : (legendMiss s n line).heads = s.heads := by
  unfold legendMiss
  split
  · rfl
  · split
    · split <;> simp
    · rfl

theorem layerEvent_heads (s : State) (code bit : Nat) : (layerEvent s code bit).heads = s.heads := by
  unfold layerEvent
  split <;> simp

theorem countUnderrun_butRuns (s : State) (n : Nat) (miss : List Nat) : HeadsButRuns s (countUnderrun s n miss) := by
  unfold countUnderrun
  dsimp only
  split
  · exact .of_heads rfl
  · refine .foldl _ (.of_heads ?_) fun x k => .of_heads (layerEvent_heads x _ 2)
    simp

theorem captureRuns_butRuns (s : State) (n line : Nat) (its : List Item) (miss : List Nat) :
    HeadsButRuns s (captureRuns s n line its miss) :=
  (invalidateWhere_butRuns s n 7 _).trans (setHead_runs_butRuns _ n _)

/-! A composed line (R145). -/

/-- The line is sent: it is the head's output, its fetched parts go, and the CVUs of the head see it (R145, R515). -/
def sendLine (s : State) (n line : Nat) (px : List Rgb) : State :=
  cvuHeadLine (s.setHead n { s.head n with
    out := px, outLine := line, lines := (s.head n).lines.filter (fun f => f.line != line) }) n line px

theorem sendLine_head (s : State) (n line : Nat) (px : List Rgb) :
    ((sendLine s n line px).head n).outLine = line ∧ ((sendLine s n line px).head n).out = px ∧
      ((sendLine s n line px).head n).line = (s.head n).line ∧
      ((sendLine s n line px).head n).lines = (s.head n).lines.filter (fun f => f.line != line) := by
  unfold sendLine
  rw [(cvuHeadLine_butRuns _ n line px).head n, State.head_setHead]
  exact ⟨rfl, rfl, rfl, rfl⟩

/-- Outside the Safe picture an active line of a running head is sent with a pixel for each column, from a state in
which the head stands at that line (R145). -/
theorem exec_lineCompose_sends {n : Fin 12} {line : Nat} {s : State} (running : (s.head n).running = true)
    (active : line < (s.head n).raster.vActive) (normal : safePicture s = false) :
    ∃ u px, exec (.lineCompose n line) s = .next (sendLine u n line px) ∧
      px.length = (s.head n).raster.hActive ∧ (u.head n).line = line := by
  change ∃ u px, execLineCompose n line s = _ ∧ _
  unfold execLineCompose
  extract_lets raster _ _ _ _ flipped h begun
  rw [if_neg (by simp [running, raster, active]), if_neg (by simp [normal])]
  split
  next its miss _ =>
  extract_lets px missed captured seen
  refine ⟨seen, px, rfl, by simp [px, raster], ?_⟩
  have miss14 : HeadsButRuns begun missed := by
    unfold missed
    split
    · exact .of_heads (legendMiss_heads begun n line)
    · exact .of_heads rfl
  have kept : HeadsButRuns begun seen :=
    ((miss14.trans (countUnderrun_butRuns missed n miss)).trans (captureRuns_butRuns _ n line its miss)).trans
      (cvuLayerLine_butRuns captured n line its)
  rw [kept.head n, State.head_setHead]

/-! What arrives: layer lines and palettes (R144, R146). -/

/-- A layer line that arrives is kept (R144); its frame is the one it was read in (R151). -/
theorem exec_layerFetch_arrives {n : Fin 12} {k : Fin 16} {line x0 : Nat} {px : List Px} {s : State}
    (running : (s.head n).running = true) (inRaster : line < (rasterInForce s n).vActive)
    (active : layerActive s n k = true) (palette : (s.head n).paletteWait.contains k.val = false)
    (visible : (visibleSpan s n k line).isSome = true) (legend : k.val ≠ 14)
    (fetched : (fetchLine s n k line).2 = .ok (x0, px)) :
    exec (.layerFetch n false k line) s =
      .next ((keepLine (fetchLine s n k line).1 n ⟨.layer k, line, x0, px, false⟩).setPr (.layer n k)
        Reg.LAYER_CUR_READ_FRAME (fetchFrame (fetchLine s n k line).1 n)) := by
  have read : fetchLine s n k line = ((fetchLine s n k line).1, .ok (x0, px)) := by rw [← fetched]
  have wanted : (!layerActive s n k || (s.head n).paletteWait.contains k.val ||
      (visibleSpan s n k line).isNone) = false := by
    rw [active, palette, Option.isNone_eq_false_iff.mpr visible]
    rfl
  change execLayerFetch n false k line s = _
  unfold execLayerFetch
  dsimp only
  rw [wanted, if_neg (by simp [running, inRaster]), if_neg (by simp), if_neg (by simp),
    if_neg (by simp [legend]), if_neg legend, read]

theorem mem_keepLine (s : State) (n : Nat) (f : FetchedLine) : f ∈ ((keepLine s n f).head n).lines := by
  simp [keepLine]

/-- A palette that arrives is on chip and no longer awaited (R146). -/
theorem exec_paletteRead_arrives {n : Fin 12} {k : Fin 16} {b : List Nat} {s : State}
    (waits : (s.head n).paletteWait.contains k.val = true)
    (read : (layerRead s n k (s.pair (.layer n k) Reg.LAYER_PALETTE_ADDR_LO) 1024).2 = .ok b) :
    ∃ u : State, exec (.paletteRead n k) s = .next (u.setHead n { u.head n with
      palettes := aset [] (u.head n).palettes k (wordsOf 4 256 b),
      paletteWait := (u.head n).paletteWait.filter (fun x => x != k.val) }) := by
  refine ⟨(layerRead s n k (s.pair (.layer n k) Reg.LAYER_PALETTE_ADDR_LO) 1024).1, ?_⟩
  have got : layerRead s n k (s.pair (.layer n k) Reg.LAYER_PALETTE_ADDR_LO) 1024 =
      ((layerRead s n k (s.pair (.layer n k) Reg.LAYER_PALETTE_ADDR_LO) 1024).1, .ok b) := by rw [← read]
  change execPaletteRead n k s = _
  unfold execPaletteRead
  dsimp only
  rw [if_neg (by simpa using waits), got]

/-! Write-behind (R163). -/

/-- A run with block row `row` written: the row is listed, and its held lines and its fallback go (R163, R168). -/
def rowWritten (row : Nat) (y : Run) : Run :=
  { y with
    rows := y.rows.filter (fun k => k != row) ++ [row], held := y.held.filter (fun e => e.1 / 8 != row),
    fallback := y.fallback.filter (fun f => f.1 != row) }

theorem mem_rows_rowWritten (row : Nat) (y : Run) : row ∈ (rowWritten row y).rows := by
  simp [rowWritten]

theorem held_rowWritten {row : Nat} {y : Run} {e : Nat × List Px} (h : e ∈ (rowWritten row y).held) :
    e.1 / 8 ≠ row := by
  simp only [rowWritten, List.mem_filter, bne_iff_ne] at h
  exact h.2

/-- A block row whose lines are all held is written to the veneer, and its run notes it (R163). -/
theorem exec_veneerWriteBehind_writes {n : Fin 12} {r : Fin 3} {row : Nat} {s : State} {x : Run}
    (run : (s.head n).runs.find? (fun x => x.idx == r.val) = some x) (inService : s.fenced .veneer = false)
    (active : 8 * row < (s.head n).raster.vActive)
    (held : ∀ i < 8, 8 * row + i < (s.head n).raster.vActive → ∃ e ∈ x.held, e.1 = 8 * row + i) :
    ∃ u : State, exec (.veneerWriteBehind n r row) s = .next (u.setHead n { u.head n with
      runs := (u.head n).runs.map (fun y => if y.idx = r.val then rowWritten row y else y) }) := by
  change ∃ u : State, execVeneerWriteBehind n r row s = _
  unfold execVeneerWriteBehind
  extract_lets h raster lines
  rw [run]
  have first : 0 ∈ lines := by simp [lines, raster, h, active]
  have ready : ¬ (s.fenced .veneer || lines.isEmpty ||
      !lines.all (fun i => x.held.any (fun e => e.1 == 8 * row + i))) = true := by
    simp only [lines, inService, List.isEmpty_eq_false_iff.mpr (List.ne_nil_of_mem first), Bool.false_or,
      Bool.not_eq_true', List.all_eq_false]
    simpa [raster] using held
  dsimp only
  rw [if_neg ready]
  exact ⟨_, rfl⟩

/-! Coefficients (R186). -/

/-- The two fields of a coefficient word are its bits 25:16 and 9:0. -/
theorem coefWord_eq_mask (v : Word) : w32 (0x10000 * fget v 25 16 + fget v 9 0) = v &&& 0x03FF03FF := by
  have low : fget v 9 0 < 2 ^ 16 := (fget_lt v 9 0).trans (by decide)
  apply BitVec.eq_of_toNat_eq
  apply Nat.eq_of_testBit_eq
  intro i
  rw [w32_toNat, Nat.testBit_mod_two_pow, show 0x10000 = 2 ^ 16 by decide, Nat.testBit_two_pow_mul_add _ low,
    BitVec.toNat_and, Nat.testBit_and, fget, fget, bits_testBit, bits_testBit,
    show (0x03FF03FF : Word).toNat = 2 ^ 16 * (2 ^ 10 - 1) + (2 ^ 10 - 1) by decide,
    Nat.testBit_two_pow_mul_add _ (by decide), Nat.testBit_two_pow_sub_one, Nat.testBit_two_pow_sub_one]
  by_cases lower : i < 16
  · simp [lower, Bool.and_comm, show i < 32 by omega]
  · by_cases upper : i - 16 < 10
    · simp [lower, upper, show i < 32 by omega, show 16 + (i - 16) = i by omega]
    · simp [lower, upper]

/-- A coefficient that the fabric, its owner and its use allow takes its two fields (R186, R189). -/
theorem exec_coefWrite_taken {m : Master} {k : Fin 16} {off : BitVec 11} {value : Word} {s : State} {a : Nat}
    (place : a = 0x148000 + 0x800 * k.val + off.toNat / 4 * 4) (accepts : Accepts s m a)
    (permits : coefPermits (taken s m a) m k = true) (inSet : off.toNat < 0x700)
    (free : setInUse (taken s m a) k = false) :
    exec (.coefWrite m k off value) s = .next (((taken s m a).setReg a (value &&& 0x03FF03FF)).noteWrite a) := by
  obtain ⟨there, accepted⟩ := accepts
  change execCoefWrite m k off value s = _
  rw [execCoefWrite, ← place, gated_taken there accepted, ← taken, coefWriteOp, if_neg (by simp [permits]),
    if_pos (by omega), if_neg (by simp [free]), coefWord_eq_mask, place]

/-- Settles O23: each command's effect is one of the states above, and what the statement asks of it is read there. -/
theorem linesAndCoefficients : Obligations.LinesAndCoefficients := by
  refine ⟨?fetch, ?compose, ?palette, ?writeBehind, ?coef⟩
  case fetch =>
    intro n k line s x0 px running inRaster active palette visible legend fetched
    refine ⟨_, exec_layerFetch_arrives running inRaster active palette visible legend fetched, ?_, ?_, rfl⟩
    · exact mem_keepLine (fetchLine s n k line).1 n _
    · exact State.pr_setPr ..
  case compose =>
    intro n line s running active normal
    obtain ⟨u, px, ran, width, atLine⟩ := exec_lineCompose_sends running active normal
    obtain ⟨outLine, out, head, lines⟩ := sendLine_head u n line px
    refine ⟨_, ran, outLine, (congrArg List.length out).trans width, head.trans atLine, fun f hf => ?_⟩
    rw [lines] at hf
    simpa using (List.mem_filter.mp hf).2
  case palette =>
    intro n k s b waits read
    obtain ⟨u, ran⟩ := exec_paletteRead_arrives waits read
    exact ⟨_, ran, by simp, by simp⟩
  case writeBehind =>
    intro n r row s x run inService active held
    obtain ⟨u, ran⟩ := exec_veneerWriteBehind_writes run inService active held
    refine ⟨_, ran, fun y hy own => ?_⟩
    rw [State.head_setHead] at hy
    obtain ⟨z, -, rfl⟩ := List.mem_map.mp hy
    have written : z.idx = r.val := by
      by_contra other
      rw [if_neg other] at own
      exact other own
    rw [if_pos written]
    exact ⟨mem_rows_rowWritten row z, fun _ => held_rowWritten⟩
  case coef =>
    intro m k off value s a accepts permits inSet free
    refine ⟨_, exec_coefWrite_taken rfl accepts permits inSet free, ?_, fun b hb => ?_, rfl⟩
    · rw [State.noteWrite_reg, State.reg_setReg, if_pos rfl]
    · rw [State.noteWrite_reg, State.reg_setReg, if_neg (List.ne_of_not_mem_cons hb)]

end Sys2Proof.Machine
end

section
/-!
SUPPORT. What the parts of the Legend engine do to the rest of State: the ranges that a check reads, and an entry of
four words in force whole (R69, R203 to R206).
-/
namespace Sys2Proof.Machine

/-! Registers. -/

theorem setReg_regsBut {s : State} {a : Nat} {v : Word} {l : List Nat} (h : a ∈ l) : RegsBut s (s.setReg a v) l := by
  intro b hb
  rw [State.reg_setReg, if_neg (ne_of_mem_of_not_mem h hb).symm]

theorem count_regsBut {s : State} {p : Page} {o : Nat} {l : List Nat} (h : pageBase p + o ∈ l) :
    RegsBut s (s.count p o) l := setReg_regsBut h

theorem setPf_regsBut {s : State} {p : Page} {o hi lo v : Nat} {l : List Nat} (h : pageBase p + o ∈ l) :
    RegsBut s (s.setPf p o hi lo v) l := setReg_regsBut h

theorem noteWrite_regsBut {s t : State} {a : Nat} {l : List Nat} (h : RegsBut s t l) : RegsBut s (t.noteWrite a) l := h

/-! Updates that touch registers and the cycle's record alone. -/

/-- t differs from s in nothing but registers and the cycle's record. -/
def RegisterParts (s t : State) : Prop := t = { s with regs := t.regs, cyc := t.cyc }

theorem RegisterParts.trans {s t u : State} (h : RegisterParts s t) (k : RegisterParts t u) : RegisterParts s u := by
  unfold RegisterParts at *
  rw [k, h]

theorem count_registerParts (s : State) (p : Page) (o : Nat) : RegisterParts s (s.count p o) := State.setPr_only ..

/-! Ranges: a check of an index reads range registers alone, which stand from offset 0x200 on (R195, R203). -/

theorem rangeTable_base (k : Nat) : 0x200 ≤ (rangeTable k).1 := by
  unfold rangeTable
  split_ifs <;> decide

theorem rangeOwned_congr {s t : State} (ranges : ∀ o, 0x200 ≤ o → t.pr .legend o = s.pr .legend o) (k i code : Nat) :
    rangeOwned t k i code = rangeOwned s k i code := by
  have base := rangeTable_base k
  have low (j : Nat) := ranges ((rangeTable k).1 + 8 * j) (by omega)
  have high (j : Nat) := ranges ((rangeTable k).1 + 8 * j + 4) (by omega)
  simp only [rangeOwned, rangeHas, low, high]

/-! An entry of a staged table. -/

/-- The four words of the entry at a in force, and the master's slot for the table empty. -/
def putEntry (s : State) (m : Master) (table a : Nat) (w0 w1 w2 w3 : Word) : State :=
  (((((s.unstage m table).setReg a w0).setReg (a + 4) w1).setReg (a + 8) w2).setReg (a + 12) w3).noteWrite (a + 12)

/-- What the four words of the entry read, and every other register. -/
theorem putEntry_reg (s : State) (m : Master) (table a : Nat) (w0 w1 w2 w3 : Word) (b : Nat) :
    (putEntry s m table a w0 w1 w2 w3).reg b =
      if b = a + 12 then w3 else if b = a + 8 then w2 else if b = a + 4 then w1 else if b = a then w0 else s.reg b := by
  simp only [putEntry, State.noteWrite_reg, State.reg_setReg, State.unstage_reg]

theorem putEntry_regsBut (s : State) (m : Master) (table a : Nat) (w0 w1 w2 w3 : Word) :
    RegsBut s (putEntry s m table a w0 w1 w2 w3) [a, a + 4, a + 8, a + 12] := by
  intro b hb
  simp only [List.mem_cons, List.not_mem_nil, or_false, not_or] at hb
  simp only [putEntry_reg, hb, if_false]

/-- The entry is in force whole, and no other register, no byte of memory and nothing of the engine changes. -/
theorem putEntry_puts (s : State) (m : Master) (table a : Nat) (w0 w1 w2 w3 : Word) :
    let t := putEntry s m table a w0 w1 w2 w3
    t.reg a = w0 ∧ t.reg (a + 4) = w1 ∧ t.reg (a + 8) = w2 ∧ t.reg (a + 12) = w3 ∧
      RegsBut s t [a, a + 4, a + 8, a + 12] ∧ t.mem = s.mem ∧ t.legend = s.legend := by
  refine ⟨?_, ?_, ?_, ?_, putEntry_regsBut s m table a w0 w1 w2 w3, ?_, ?_⟩
  · simp [putEntry_reg]
  · simp [putEntry_reg]
  · simp [putEntry_reg]
  · simp [putEntry_reg]
  · simp [putEntry]
  · simp [putEntry]

end Sys2Proof.Machine
end

section
/-!
PROOF. Point records and their table (R195, R199, R200, R202, R353).
-/
namespace Sys2Proof.Machine

/-! Enabling the engine (R195, R353). -/

theorem ptMirrorStart_regsBut {s : State} {l : List Nat} (h : pageBase .memctl + Reg.MEMCTL_MIRROR_STATUS ∈ l) :
    RegsBut s (ptMirrorStart s) l := setPf_regsBut h

theorem exec_legendEnable_starts {m : Master} {s : State} (accepts : Accepts s m (hadr .legend .ctrl))
    (check : legendEnableCheck (taken s m (hadr .legend .ctrl)) = none)
    (off : (taken s m (hadr .legend .ctrl)).enabled .legend = false) :
    exec (.legendEnable m) s =
      .next ((ptMirrorStart ((taken s m (hadr .legend .ctrl)).setHf .legend .ctrl 0 0 1)).noteWrite
        (hadr .legend .ctrl)) := by
  change execLegendEnable m s = _
  rw [execLegendEnable, writeReg_taken accepts check, legendEnableOp, if_neg (by simp [off])]

/-! The register path (R202). -/

/-- The high word of Heartwood or Sapwood submits a record with the low word that it staged. -/
theorem updHiOp_submits {m : Master} {v lo : Word} {s : State} (path : m = .heartwood ∨ m = .sapwood)
    (low : s.staged m (pageBase .legend + Reg.LEGEND_UPD_LO) (pageBase .legend + Reg.LEGEND_UPD_LO) =
      [(pageBase .legend + Reg.LEGEND_UPD_LO, lo)]) :
    updHiOp s m v = (s.unstage m (pageBase .legend + Reg.LEGEND_UPD_LO)).setLegend { s.legend with
      queue := s.legend.queue ++ [⟨lo.toNat + 2 ^ 32 * v.toNat, m.code,
        rangeOwned s 0 (bits (lo.toNat + 2 ^ 32 * v.toNat) 17 0) m.code, none⟩] } := by
  have owned (i : Nat) : rangeOwned (s.unstage m (pageBase .legend + Reg.LEGEND_UPD_LO)) 0 i m.code =
      rangeOwned s 0 i m.code := rangeOwned_congr (fun _ _ => rfl) 0 i m.code
  rw [updHiOp, if_pos path]
  simp [low, owned]

theorem exec_updHiWrite_taken {m : Master} {v : Word} {s : State}
    (accepts : Accepts s m (pageBase .legend + Reg.LEGEND_UPD_HI)) :
    exec (.updHiWrite m v) s = .next (updHiOp (taken s m (pageBase .legend + Reg.LEGEND_UPD_HI)) m v) := by
  change execUpdHiWrite m v s = _
  rw [execUpdHiWrite, gated_taken accepts.1 accepts.2, taken]

/-! Acceptance (R199, R200). -/

/-- A check of a record reads CTRL and the ranges alone. -/
theorem pointCheck_congr {s t : State} (ctrl : t.hd .legend .ctrl = s.hd .legend .ctrl)
    (ranges : ∀ o, 0x200 ≤ o → t.pr .legend o = s.pr .legend o) (r : PointRec) : pointCheck t r = pointCheck s r := by
  have enabled : t.enabled .legend = s.enabled .legend := congrArg (fbit · 0) ctrl
  simp only [pointCheck, enabled, rangeOwned_congr ranges]

theorem pointCheck_counted (s : State) (r : PointRec) :
    pointCheck (s.count .legend Reg.LEGEND_ACCEPTED) r = pointCheck s r := by
  refine pointCheck_congr ?_ (fun o ho => ?_) r
  · rw [State.hd, State.reg_count, if_neg (by decide), State.hd]
  · have apart : pageBase .legend + o ≠ pageBase .legend + Reg.LEGEND_ACCEPTED := by
      change _ + o ≠ _ + 0x118
      omega
    rw [State.pr, State.reg_count, if_neg apart, State.pr]

/-- A record that passes is counted and waits for its entry. -/
theorem pointAccept_passes {s : State} {r : PointRec} (current : staleRecord s r = none)
    (passes : pointCheck s r = none) :
    pointAccept s r = (s.count .legend Reg.LEGEND_ACCEPTED).setLegend { s.legend with
      accepted := s.legend.accepted ++ [r] } := by
  simp [pointAccept, current, pointCheck_counted, passes]

/-- A BAD record of no descriptor, counted and settled. -/
def droppedBad (s : State) : State :=
  (((s.count .legend Reg.LEGEND_ACCEPTED).setPr .legend Reg.LEGEND_UPD_RESULT 3).count .legend
    Reg.LEGEND_DROPPED).event .legend 0

theorem droppedBad_registerParts (s : State) : RegisterParts s (droppedBad s) :=
  ((count_registerParts ..).trans (State.setPr_only ..)).trans ((count_registerParts ..).trans (State.event_only ..))

theorem droppedBad_result (s : State) : (droppedBad s).pr .legend Reg.LEGEND_UPD_RESULT = 3 := by
  rw [State.pr, droppedBad, State.reg_event, if_neg (by decide), State.reg_count, if_neg (by decide),
    State.reg_setPr, if_pos rfl]

theorem droppedBad_dropped (s : State) :
    (droppedBad s).pr .legend Reg.LEGEND_DROPPED = s.pr .legend Reg.LEGEND_DROPPED + 1 := by
  rw [State.pr, droppedBad, State.reg_event, if_neg (by decide), State.reg_count, if_pos rfl, State.reg_setPr,
    if_neg (by decide), State.reg_count, if_neg (by decide), State.pr]

theorem droppedBad_regsBut {s : State} {l : List Nat} (accepted : pageBase .legend + Reg.LEGEND_ACCEPTED ∈ l)
    (result : pageBase .legend + Reg.LEGEND_UPD_RESULT ∈ l) (dropped : pageBase .legend + Reg.LEGEND_DROPPED ∈ l)
    (irq : hadr .legend .irqStatus ∈ l) : RegsBut s (droppedBad s) l :=
  ((RegsBut.trans (count_regsBut accepted) (setPr_regsBut result)).trans (count_regsBut dropped)).trans
    (event_regsBut irq)

/-- A BAD record of no descriptor: its result, the count of dropped records and DROP (R195, R199). -/
theorem pointAccept_bad {s : State} {r : PointRec} (current : staleRecord s r = none)
    (bad : pointCheck s r = some .bad) (alone : r.job = none) : pointAccept s r = droppedBad s := by
  simp only [pointAccept, current, pointCheck_counted, bad, pointSettle, alone]
  rfl

/-- The state without the oldest record of a master in its queue. -/
def dequeued (s : State) (m : Master) : State :=
  s.setLegend { s.legend with queue := s.legend.queue.eraseP (fun x => x.code == m.code) }

theorem exec_pointRecordAccept_oldest {m : Master} {r : PointRec} {s : State}
    (oldest : s.legend.queue.find? (fun r => r.code == m.code) = some r) :
    exec (.pointRecordAccept m) s = .next (pointAccept (dequeued s m) r) := by
  change execPointRecordAccept m s = _
  rw [execPointRecordAccept, oldest, dequeued]

/-! The entry of an accepted record (R199). -/

/-- Settling a descriptor's record touches neither memory nor the records that are accepted. -/
theorem pointJobSettle_keeps (s : State) (n : Nat) (drop : Bool) :
    (pointJobSettle s n drop).mem = s.mem ∧ (pointJobSettle s n drop).legend.accepted = s.legend.accepted := by
  unfold pointJobSettle
  split
  · exact ⟨rfl, rfl⟩
  · dsimp only
    split
    · split <;> exact ⟨rfl, rfl⟩
    · exact ⟨rfl, rfl⟩

theorem pointSettle_applied_keeps (s : State) (r : PointRec) :
    (pointSettle s r .applied).mem = s.mem ∧ (pointSettle s r .applied).legend.accepted = s.legend.accepted := by
  cases job : r.job with
  | none => simp [pointSettle, job]
  | some n => simpa [pointSettle, job] using pointJobSettle_keeps s n false

/-- The oldest accepted record, its entry read: the new entry is stored, and the record is settled. -/
theorem pointApply_stores {r : PointRec} {rest : List PointRec} {b : List Nat} {s v : State}
    (oldest : s.legend.accepted = r :: rest)
    (read : busRead (s.setLegend { s.legend with accepted := rest }) legendAgent false
      (ptBase s + 4 * bits r.word 17 0) 4 = (v, .ok b)) :
    pointApply s = pointSettle (busWrite v legendAgent false (ptBase s + 4 * bits r.word 17 0)
      (leBytes 4 (pointEntry (ofLeBytes b) r.word))).1 r .applied := by
  have base : ptBase (s.setLegend { s.legend with accepted := rest }) = ptBase s := rfl
  rw [pointApply, oldest]
  simp only [base, read]

theorem busWrite_legend (s : State) (agent : Nat) (sec : Bool) (a : Nat) (bytes : List Nat) :
    (busWrite s agent sec a bytes).1.legend = s.legend := by
  have parts := (busWrite_wrote s agent sec a bytes).parts
  rw [StoreParts] at parts
  rw [parts]

/-- Settles O27: each command's effect is one of the states above, and what the statement asks of it is read there. -/
theorem pointRecords : Obligations.PointRecords := by
  refine ⟨?enable, ?submit, ?accept, ?drop, ?apply⟩
  case enable =>
    intro m s a accepts check off
    refine ⟨_, exec_legendEnable_starts accepts check off, ?_, ?_, ?_, rfl, rfl⟩
    · change fbit (State.reg _ _) 0 = true
      rw [State.noteWrite_reg, ptMirrorStart, State.reg_setPf, if_neg (by decide), State.reg_setHf, if_pos rfl,
        fbit_fset _ _ _ (by decide) (by decide)]
      rfl
    · rw [State.pf, State.pr, State.noteWrite_reg, ptMirrorStart, State.reg_setPf, if_pos rfl,
        fget_fset _ _ (by decide) (by decide)]
      rfl
    · have ctrl : RegsBut (taken s m a) ((taken s m a).setHf .legend .ctrl 0 0 1)
          [a, pageBase .memctl + Reg.MEMCTL_MIRROR_STATUS] := setHf_regsBut List.mem_cons_self
      exact noteWrite_regsBut (ctrl.trans (ptMirrorStart_regsBut (List.mem_cons_of_mem _ (List.mem_singleton_self _))))
  case submit =>
    intro m v lo s a u path accepts low w
    refine ⟨_, (exec_updHiWrite_taken accepts).trans (congrArg Host.Outcome.next (updHiOp_submits path low)),
      fun _ _ => rfl, rfl, rfl⟩
  case accept =>
    intro m r s oldest current passes
    refine ⟨_, (exec_pointRecordAccept_oldest oldest).trans (congrArg Host.Outcome.next
      (pointAccept_passes (s := dequeued s m) current passes)), rfl, rfl, ?_, ?_⟩
    · rw [State.pr, State.setLegend_reg, State.reg_count, if_pos rfl]
      rfl
    · exact count_regsBut (s := dequeued s m) (List.mem_singleton_self _)
  case drop =>
    intro m r s oldest current bad alone
    have ran := (exec_pointRecordAccept_oldest oldest).trans (congrArg Host.Outcome.next
      (pointAccept_bad (s := dequeued s m) current bad alone))
    have parts : droppedBad (dequeued s m) = { s with
        regs := (droppedBad (dequeued s m)).regs, legend := (dequeued s m).legend,
        cyc := (droppedBad (dequeued s m)).cyc } := droppedBad_registerParts (dequeued s m)
    refine ⟨_, ran, ?_, ?_, droppedBad_result _, droppedBad_dropped _, event_bit _ _ _ (by decide),
      droppedBad_regsBut (.head _) (.tail _ (.head _)) (.tail _ (.tail _ (.head _)))
        (.tail _ (.tail _ (.tail _ (.head _))))⟩
    · rw [parts]
    · rw [parts]
      rfl
  case apply =>
    intro r rest b s v oldest a read kept
    obtain ⟨mem, accepted⟩ := pointSettle_applied_keeps
      (busWrite v legendAgent false a (leBytes 4 (pointEntry (ofLeBytes b) r.word))).1 r
    have stored := (busWrite_wrote v legendAgent false a (leBytes 4 (pointEntry (ofLeBytes b) r.word))).bytes
    rw [leBytes, List.length_map, List.length_range] at stored
    refine ⟨_, congrArg Host.Outcome.next (pointApply_stores oldest read), ?_, fun x hx => ?_, mem⟩
    · rw [accepted, busWrite_legend, kept]
    · exact (bytesBut_of_mem (p := fun _ => False) mem x id).trans (stored x hx)

end Sys2Proof.Machine
end

section
/-!
PROOF. The range, style and glyph tables of the Legend engine (R204, R206, R211, R214, R226).
-/
namespace Sys2Proof.Machine

/-! Ranges (R204). -/

/-- Address of the low word of range j of a table. -/
def rangeAt (t j : Nat) : Nat := pageBase .legend + (rangeTable t).1 + 8 * j

/-- The low word of range j: as the master has staged it, else as it stands. -/
def rangeLow (s : State) (m : Master) (t j : Nat) : Word :=
  ((s.staged m (pageBase .legend + (rangeTable t).1) (rangeAt t j)).find? (fun w => w.1 == rangeAt t j)).elim
    (s.reg (rangeAt t j)) (·.2)

/-- Both words of range j in force, and the master's slot empty. -/
def putRange (s : State) (m : Master) (t j : Nat) (lo hi : Word) : State :=
  (((s.unstage m (pageBase .legend + (rangeTable t).1)).setReg (rangeAt t j) lo).setReg (rangeAt t j + 4) hi).noteWrite
    (rangeAt t j + 4)

theorem putRange_reg (s : State) (m : Master) (t j : Nat) (lo hi : Word) (a : Nat) :
    (putRange s m t j lo hi).reg a =
      if a = rangeAt t j + 4 then hi else if a = rangeAt t j then lo else s.reg a := by
  simp only [putRange, State.noteWrite_reg, State.reg_setReg, State.unstage_reg]

theorem putRange_keeps (s : State) (m : Master) (t j : Nat) (lo hi : Word) :
    (putRange s m t j lo hi).mem = s.mem ∧ (putRange s m t j lo hi).legend = s.legend := by
  simp [putRange]

theorem rangeWriteOp_takes {s : State} {m : Master} {t j : Nat} {v : Word} (inTable : j < (rangeTable t).2.1)
    (ok : rangeWriteOk (s.unstage m (pageBase .legend + (rangeTable t).1)) t j (rangeLow s m t j)
      (v &&& 0xFFC3FFFF) = true) :
    rangeWriteOp s m t j v = putRange s m t j (rangeLow s m t j &&& 0x3FFFF) (v &&& 0xFFC3FFFF) := by
  unfold rangeWriteOp
  exact (if_neg (not_le.mpr inTable)).trans (if_pos ok)

theorem exec_rangeWrite_taken {m : Master} {t : Fin 3} {j : Fin 64} {v : Word} {s : State}
    (accepts : Accepts s m (rangeAt t j + 4)) :
    exec (.rangeWrite m t j v) s = .next (rangeWriteOp (taken s m (rangeAt t j + 4)) m t j v) := by
  change execRangeWrite m t j v s = _
  rw [execRangeWrite, ← rangeAt, gated_taken accepts.1 accepts.2, taken]

/-! Styles (R206, R211). -/

theorem exec_styleEntryWrite_taken {m : Master} {e : Fin 4096} {v : Word} {s : State}
    (accepts : Accepts s m (0x170000 + 16 * e.val + 12)) :
    exec (.styleEntryWrite m e v) s = .next (styleEntryOp (taken s m (0x170000 + 16 * e.val + 12)) m e v) := by
  change execStyleEntryWrite m e v s = _
  rw [execStyleEntryWrite, gated_taken accepts.1 accepts.2, taken]

/-- Word k of the entry at a, as a write of its word 3 puts it in force. -/
def entryWord (s : State) (m : Master) (table a : Nat) (v : Word) (k : Nat) : Word :=
  (entryWords s m table a v).getD k 0

theorem styleEntryOp_takes {s : State} {m : Master} {e : Nat} {v : Word} (owned : rangeOwned s 1 e m.code = true)
    (ok : styleOk (entryWord s m 0x170000 (0x170000 + 16 * e) v 0) (entryWord s m 0x170000 (0x170000 + 16 * e) v 1)
      (entryWord s m 0x170000 (0x170000 + 16 * e) v 2) v = true) :
    styleEntryOp s m e v = putEntry s m 0x170000 (0x170000 + 16 * e)
      (entryWord s m 0x170000 (0x170000 + 16 * e) v 0) (entryWord s m 0x170000 (0x170000 + 16 * e) v 1)
      (entryWord s m 0x170000 (0x170000 + 16 * e) v 2) v := by
  rw [styleEntryOp, if_neg (by simp [owned])]
  exact if_pos ok

/-- A master that owns no range of the entry is refused with OWNER (R206). -/
theorem styleEntryOp_refuses {s : State} {m : Master} {e : Nat} {v : Word} (foreign : rangeOwned s 1 e m.code = false) :
    styleEntryOp s m e v =
      s.refuse m .legend .owner (0x170000 + 16 * e + 12) (0x170000 + 16 * e + 12) := by
  rw [styleEntryOp, if_pos (by simp [foreign])]

/-- A refusal with OWNER is recorded, and perhaps logged (R60, R61). -/
theorem refuse_owner (s : State) (m : Master) (p : Page) (off full : Nat) :
    ∃ l, s.refuse m p .owner off full = { rejected s m p .owner off with log := l } := by
  unfold State.refuse
  exact logRefusal_only (rejected s m p .owner off) p full _

theorem refuse_owner_keeps (s : State) (m : Master) (p : Page) (off full : Nat) :
    RegsBut s (s.refuse m p .owner off full) [hadr p .reject] ∧ (s.refuse m p .owner off full).mem = s.mem := by
  obtain ⟨l, refused⟩ := refuse_owner s m p off full
  rw [refused]
  refine ⟨fun a ha => (State.reg_setLog _ l a).trans (rejected_regsBut s m p .owner off a ha), ?_⟩
  change (rejected s m p .owner off).mem = s.mem
  rw [rejected_only]

/-! Glyphs (R214, R226). -/

theorem exec_glyphEntryWrite_taken {m : Master} {e : Fin 8192} {v : Word} {s : State}
    (accepts : Accepts s m (0x180000 + 16 * e.val + 12)) :
    exec (.glyphEntryWrite m e v) s = .next (glyphEntryOp (taken s m (0x180000 + 16 * e.val + 12)) m e v) := by
  change execGlyphEntryWrite m e v s = _
  rw [execGlyphEntryWrite, gated_taken accepts.1 accepts.2, taken]

theorem dropGlyph_reg (s : State) (g a : Nat) : (dropGlyph s g).reg a = s.reg a := State.setLegend_reg ..

/-- WRITER is the master's code, and the resident copy of the glyph goes. -/
theorem glyphEntryOp_takes {s : State} {m : Master} {e : Nat} {v : Word} (owned : rangeOwned s 2 e m.code = true)
    (ok : glyphOk (entryWord s m 0x180000 (0x180000 + 16 * e) v 0)
      (entryWord s m 0x180000 (0x180000 + 16 * e) v 2) = true) :
    glyphEntryOp s m e v = dropGlyph (putEntry s m 0x180000 (0x180000 + 16 * e)
      (entryWord s m 0x180000 (0x180000 + 16 * e) v 0)
      ((entryWord s m 0x180000 (0x180000 + 16 * e) v 1 &&& 0xFFFF) ||| w32 (2 ^ 24 * m.code))
      (entryWord s m 0x180000 (0x180000 + 16 * e) v 2 &&& 0x33F3F) (v &&& 0xFFFF)) e := by
  rw [glyphEntryOp, if_neg (by simp [owned])]
  exact if_pos ok

/-- Settles O28: `putRange` and `putEntry` are what the writes leave, and a refusal writes CFG_REJECT_INFO alone. -/
theorem legendTables : Obligations.LegendTables := by
  refine ⟨?range, ?style, ?foreign, ?glyph⟩
  case range =>
    intro m t j v s b a u lo accepts inTable ok
    refine ⟨_, (exec_rangeWrite_taken accepts).trans (congrArg Host.Outcome.next (rangeWriteOp_takes inTable ok)),
      ?_, ?_, fun c hc => ?_, (putRange_keeps ..).1, (putRange_keeps ..).2⟩
    · exact (putRange_reg ..).trans ((if_neg (by simp [a, b, rangeAt])).trans (if_pos rfl))
    · exact (putRange_reg ..).trans (if_pos rfl)
    · simp only [List.mem_cons, List.not_mem_nil, or_false, not_or] at hc
      exact (putRange_reg ..).trans ((if_neg hc.2).trans (if_neg hc.1))
  case style =>
    intro m e v s a u w accepts owned ok
    exact ⟨_, (exec_styleEntryWrite_taken accepts).trans (congrArg Host.Outcome.next (styleEntryOp_takes owned ok)),
      putEntry_puts u m 0x170000 a (w 0) (w 1) (w 2) v⟩
  case foreign =>
    intro m e v s a accepts foreign
    obtain ⟨others, mem⟩ := refuse_owner_keeps (taken s m (a + 12)) m .legend (a + 12) (a + 12)
    refine ⟨_, (exec_styleEntryWrite_taken accepts).trans (congrArg Host.Outcome.next (styleEntryOp_refuses foreign)),
      fun k hk => others (a + 4 * k) ?_, mem⟩
    have place : a = 0x170000 + 16 * e.val := rfl
    have reject : hadr .legend .reject = 0x160044 := rfl
    rw [List.mem_singleton, reject]
    omega
  case glyph =>
    intro m e v s a u w accepts owned ok
    have ran := (exec_glyphEntryWrite_taken accepts).trans (congrArg Host.Outcome.next (glyphEntryOp_takes owned ok))
    obtain ⟨word0, word1, word2, word3, others, mem, legend⟩ := putEntry_puts u m 0x180000 a (w 0)
      ((w 1 &&& 0xFFFF) ||| w32 (2 ^ 24 * m.code)) (w 2 &&& 0x33F3F) (v &&& 0xFFFF)
    refine ⟨_, ran, (dropGlyph_reg ..).trans word0, (dropGlyph_reg ..).trans word1, (dropGlyph_reg ..).trans word2,
      (dropGlyph_reg ..).trans word3, fun b hb => (dropGlyph_reg ..).trans (others b hb), mem, ?_⟩
    exact congrArg (fun g : LegendSt => { g with cache := g.cache.filter (fun r => r.glyph != e.val) }) legend

end Sys2Proof.Machine
end

section
/-!
PROOF. Captures and glyphs of the Legend engine (R219 to R226, R228, R246).
-/
namespace Sys2Proof.Machine

/-! Captures (R219 to R221). -/

/-- The capture of row r of head n with its cells, in place of an earlier one. -/
def putSnap (s : State) (n r : Nat) (cells : List CellCap) : State :=
  s.setLegend { s.legend with
    snaps := s.legend.snaps.filter (fun x => !(x.head == n && x.row == r)) ++ [⟨n, r, cells⟩],
    failed := s.legend.failed.filter (fun x => !(x.1 == n && x.2.1 == r)) }

theorem mem_putSnap (s : State) (n r : Nat) (cells : List CellCap) : ⟨n, r, cells⟩ ∈ (putSnap s n r cells).legend.snaps :=
  List.mem_append_right _ (List.mem_singleton_self _)

theorem cells_putSnap {s : State} {n r : Nat} {cells : List CellCap} {x : Snap}
    (mem : x ∈ (putSnap s n r cells).legend.snaps) (head : x.head = n) (row : x.row = r) : x.cells = cells := by
  rcases List.mem_append.mp mem with kept | new
  · simp [head, row] at kept
  · rw [List.mem_singleton.mp new]

/-- With no record accepted and the cell words read, a visible row is captured. -/
theorem exec_snapshot_captures {n : Fin 12} {r : Fin 540} {b : List Nat} {s v : State}
    (active : layerActive s n 14 = true) (on : s.enabled .legend = true)
    (inGrid : r.val < fget (s.pr (.layer n 14) Reg.LAYERL_LG_GRID) 25 16) (visible : legendRowSpan s n r ≠ [])
    (idle : s.legend.accepted = [])
    (read : ownerRead s (committer s n 14) legendAgent false (s.pair (.layer n 14) Reg.LAYERL_CELLMAP_LO +
      r.val * fget (s.pr (.layer n 14) Reg.LAYERL_CM_PITCH) 15 0 + 4 * (visibleCols s n).headD 0)
      (4 * (visibleCols s n).length) = (v, .ok b)) :
    exec (.snapshot n r) s = .next (putSnap
      (captureCells v n ((visibleCols s n).zip (wordsOf 4 (visibleCols s n).length b))).1 n r
      (captureCells v n ((visibleCols s n).zip (wordsOf 4 (visibleCols s n).length b))).2) := by
  have flushed : pointFlush s.legend.accepted.length s = s := by
    rw [idle]
    rfl
  change execSnapshot n r s = _
  unfold execSnapshot
  dsimp only [legendCell]
  rw [if_neg (by simp [active, on, inGrid, visible]), flushed, read]
  rfl

/-! What bad cells and bad blocks leave: faults and counts alone (R207, R228, R246, R249). -/

theorem badCell_rises {s0 s : State} (n : Nat) (h : Rises s0 s) : Rises s0 (badCell s n) := by
  refine State.event_rises (State.count_rises ?_ h)
  simp only [pageBase, Reg.LAYERL_LG_BAD_CELLS, Reg.WORLD_HW_CTRL]
  omega

theorem badCells_rises {β : Type} {s0 s : State} (n : Nat) (l : List β) (h : Rises s0 s) :
    Rises s0 (l.foldl (fun s _ => badCell s n) s) :=
  Rises.foldl h fun _ _ hs => badCell_rises n hs

theorem kerfError_rises {s0 s : State} (src code cause addr : Nat) (h : Rises s0 s) :
    Rises s0 (kerfError s src code cause addr) :=
  raiseFault_rises _ _ _ (State.event_rises (setPair_rises (by decide) (by decide)
    (State.setPr_rises (by decide) (State.count_rises (by decide) h))))

/-- The bad blocks of a glyph, recorded one by one in the KERF page. -/
def recordBad (s : State) (gl : CellGlyph) (bad : List (Nat × Nat × Nat)) : State :=
  bad.foldl (fun s x => kerfError s 0x12 x.2.1 x.2.2 (glyphAddr gl.words + x.1)) s

theorem recordBad_rises {s0 s : State} (gl : CellGlyph) (bad : List (Nat × Nat × Nat)) (h : Rises s0 s) :
    Rises s0 (recordBad s gl bad) :=
  Rises.foldl h fun _ _ hs => kerfError_rises _ _ _ _ hs

/-- The first bad block sets KERF fault bit 0, and what follows leaves it set. -/
theorem recordBad_bit {s : State} {gl : CellGlyph} {bad : List (Nat × Nat × Nat)} (damaged : bad ≠ []) :
    fbit ((recordBad s gl bad).hd .kerf .faultStatus) 0 = true := by
  obtain ⟨x, rest, rfl⟩ := List.exists_cons_of_ne_nil damaged
  have first : fbit ((kerfError s 0x12 x.2.1 x.2.2 (glyphAddr gl.words + x.1)).reg (hadr .kerf .faultStatus)) 0 = true :=
    raiseFault_bit _ .kerf 0 false (by decide)
  exact (recordBad_rises gl rest (Rises.refl _)).bits _ (.inr (faultStatus_mod .kerf)) 0 first

theorem glyphDamage_sound {s : State} {n : Nat} {gl : CellGlyph} {b : List Nat} (sound : glyphBad gl.words b = []) :
    glyphDamage s n gl b = s := by
  simp [glyphDamage, sound]

/-- Behind the record of its bad blocks, the damage of a glyph counts cells. -/
theorem glyphDamage_rises {s0 s : State} {gl : CellGlyph} {b : List Nat} (n : Nat)
    (h : Rises s0 (recordBad s gl (glyphBad gl.words b))) : Rises s0 (glyphDamage s n gl b) := by
  unfold glyphDamage
  exact Rises.ite h (badCells_rises n _ h)

theorem glyphDamage_bit {s : State} {n : Nat} {gl : CellGlyph} {b : List Nat} (damaged : glyphBad gl.words b ≠ []) :
    fbit ((glyphDamage s n gl b).hd .kerf .faultStatus) 0 = true :=
  (glyphDamage_rises n (Rises.refl _)).bits _ (.inr (faultStatus_mod .kerf)) 0 (recordBad_bit damaged)

/-! Fills (R223, R225). -/

/-- The bytes of a glyph are resident, in the room made for them. -/
def putGlyph (s : State) (gl : CellGlyph) (b : List Nat) : State :=
  s.setLegend { s.legend with
    cache := (makeRoom s (cdiv b.length 64 * 64) s.legend.cache).filter (fun r => r.glyph != gl.glyph) ++
      [⟨gl.glyph, gl.words, b⟩] }

theorem mem_putGlyph (s : State) (gl : CellGlyph) (b : List Nat) :
    ⟨gl.glyph, gl.words, b⟩ ∈ (putGlyph s gl b).legend.cache :=
  List.mem_append_right _ (List.mem_singleton_self _)

/-- A glyph that is read and fits is resident, and its bad blocks are recorded. -/
theorem glyphFetch_fits {n : Nat} {gl : CellGlyph} {b : List Nat} {s v : State}
    (read : ownerRead s (bits (gl.words.getD 1 0) 31 24) legendAgent false (glyphAddr gl.words) (glyphBytes gl.words) =
      (v, .ok b))
    (fits : cacheSize (makeRoom v (cdiv b.length 64 * 64) v.legend.cache) + cdiv b.length 64 * 64 ≤ 2097152) :
    glyphFetch s n gl = glyphDamage (putGlyph v gl b) n gl b := by
  rw [glyphFetch, read]
  exact if_pos fits

/-- Head n has spent tokens of its fill bucket. -/
def spendTokens (s : State) (n need : Nat) : State :=
  s.setLegend { s.legend with tokens := aset (65536 * 1200, 0) s.legend.tokens n (fillTokens s n - need, s.fclk) }

theorem exec_glyphFill_fetches {n : Fin 12} {g : Fin 8192} {gl : CellGlyph} {s : State}
    (captured : capturedGlyph s n g = some gl) (absent : residentGlyph s gl = none)
    (enough : 1200 * glyphBytes gl.words ≤ fillTokens s n) :
    exec (.glyphFill n g) s = .next (glyphFetch (spendTokens s n (1200 * glyphBytes gl.words)) n gl) := by
  change execGlyphFill n g s = _
  simp only [execGlyphFill, captured, absent, Option.isSome_none, Bool.false_eq_true, if_false, not_lt.mpr enough,
    spendTokens]

theorem exec_glyphFill_fits {n : Fin 12} {g : Fin 8192} {gl : CellGlyph} {b : List Nat} {s v : State}
    (captured : capturedGlyph s n g = some gl) (absent : residentGlyph s gl = none)
    (enough : 1200 * glyphBytes gl.words ≤ fillTokens s n)
    (read : ownerRead (spendTokens s n (1200 * glyphBytes gl.words)) (bits (gl.words.getD 1 0) 31 24) legendAgent false
      (glyphAddr gl.words) (glyphBytes gl.words) = (v, .ok b))
    (fits : cacheSize (makeRoom v (cdiv b.length 64 * 64) v.legend.cache) + cdiv b.length 64 * 64 ≤ 2097152) :
    exec (.glyphFill n g) s = .next (glyphDamage (putGlyph v gl b) n gl b) := by
  rw [exec_glyphFill_fetches captured absent enough, glyphFetch_fits read fits]

/-! Failures (R224, R229). -/

theorem exec_glyphCacheParity_fetches {n : Fin 12} {g : Fin 8192} {gl : CellGlyph} {s : State}
    (captured : capturedGlyph s n g = some gl) (resident : (residentGlyph s gl).isSome = true) :
    exec (.glyphCacheParity n g) s = .next (glyphFetch (raiseFault (dropGlyph s g) .legend 2) n gl) := by
  change execGlyphCacheParity n g s = _
  rw [execGlyphCacheParity, glyphParity, captured]
  exact congrArg Host.Outcome.next (if_neg (by simp [Option.isNone_iff_eq_none, Option.isSome_iff_ne_none.mp resident]))

/-- The cells of a captured row that use glyph g count as bad, and the row's glyph as failed. -/
def failRow (n g : Nat) (s : State) (sn : Snap) : State :=
  let counted := (List.range (sn.cells.filter (fun c => c.glyphs.any (fun gl => gl.glyph == g))).length).foldl
    (fun s _ => badCell s n) s
  counted.setLegend { counted.legend with failed := counted.legend.failed ++ [(n, sn.row, g)] }

theorem failRow_keeps (n g : Nat) (s : State) (sn : Snap) :
    (failRow n g s sn).legend.snaps = s.legend.snaps ∧ (failRow n g s sn).mem = s.mem := by
  have counted := (badCells_rises n
    (List.range (sn.cells.filter (fun c => c.glyphs.any (fun gl => gl.glyph == g))).length) (Rises.refl s)).keeps
  refine ⟨?_, counted.mem⟩
  rw [failRow, State.setLegend, counted.legend]

/-- Every captured row of head n that uses glyph g has failed. -/
def failRows (s : State) (n g : Nat) : State :=
  (s.legend.snaps.filter (fun sn =>
    sn.head == n && sn.cells.any (fun c => c.glyphs.any (fun gl => gl.glyph == g)))).foldl (failRow n g) s

theorem failRows_keeps (s : State) (n g : Nat) :
    (failRows s n g).legend.snaps = s.legend.snaps ∧ (failRows s n g).mem = s.mem :=
  State.foldl_invariant (fun t => t.legend.snaps = s.legend.snaps ∧ t.mem = s.mem) _ _ s ⟨rfl, rfl⟩ fun t sn h =>
    ⟨(failRow_keeps n g t sn).1.trans h.1, (failRow_keeps n g t sn).2.trans h.2⟩

theorem glyphFail_eq (s : State) (n g : Nat) :
    glyphFail s n g = raiseFault (dropGlyph (failRows s n g) g) .legend 3 := rfl

theorem exec_glyphFetchFault_fails {n : Fin 12} {g : Fin 8192} {s : State}
    (captured : (capturedGlyph s n g).isSome = true) : exec (.glyphFetchFault n g) s = .next (glyphFail s n g) := by
  change execGlyphFetchFault n g s = _
  rw [execGlyphFetchFault, if_pos captured]

/-- A point entry that cannot be read: fault bit 0, and the cell captured anew. -/
theorem exec_pointReadFail_raises {n : Fin 12} {r : Fin 540} {c : Fin 960} {sn : Snap} {b : List Nat} {s v : State}
    (captured : s.legend.snaps.find? (fun x => x.head == n.val && x.row == r.val) = some sn)
    (read : ownerRead s (committer s n 14) legendAgent false (s.pair (.layer n 14) Reg.LAYERL_CELLMAP_LO +
      r.val * fget (s.pr (.layer n 14) Reg.LAYERL_CM_PITCH) 15 0 + 4 * c.val) 4 = (v, .ok b)) :
    ∃ l, exec (.pointReadFail n r c) s = .next ((raiseFault v .legend 0).setLegend
      { (raiseFault v .legend 0).legend with snaps := l }) := by
  change ∃ l, execPointReadFail n r c s = _
  simp only [execPointReadFail, captured, read]
  exact ⟨_, rfl⟩

/-- Settles O29: each command's effect is one of the states above; the faults it raises show by `raiseFault_bit`, and
nothing that follows them takes them back. -/
theorem legendCaptures : Obligations.LegendCaptures := by
  refine ⟨?capture, ?fill, ?damagedFill, ?parity, ?fetchFault, ?pointFault⟩
  case capture =>
    intro n r b s v cols a active on inGrid visible idle read
    exact ⟨_, exec_snapshot_captures active on inGrid visible idle read, mem_putSnap .., fun x => cells_putSnap⟩
  case fill =>
    intro n g gl b s v need u captured absent enough read fits sound
    have ran := exec_glyphFill_fits captured absent enough read fits
    rw [glyphDamage_sound sound] at ran
    exact ⟨_, ran, mem_putGlyph v gl b, rfl⟩
  case damagedFill =>
    intro n g gl b s v need u captured absent enough read fits damaged
    have kept := (glyphDamage_rises n (recordBad_rises gl (glyphBad gl.words b) (Rises.refl (putGlyph v gl b)))).keeps
    refine ⟨_, exec_glyphFill_fits captured absent enough read fits, ?_, glyphDamage_bit damaged, ?_, kept.mem⟩
    · rw [kept.legend]
      exact mem_putGlyph v gl b
    · rw [kept.legend]
      rfl
  case parity =>
    intro n g gl s captured resident
    exact ⟨_, (raiseFault_rises .legend 2 false (Rises.refl _)).parts, raiseFault_bit _ .legend 2 false (by decide),
      exec_glyphCacheParity_fetches captured resident⟩
  case fetchFault =>
    intro n g s captured
    have kept := (raiseFault_rises .legend 3 false (Rises.refl (dropGlyph (failRows s n g) g))).keeps
    obtain ⟨snaps, mem⟩ := failRows_keeps s n g
    have ran := exec_glyphFetchFault_fails captured
    rw [glyphFail_eq] at ran
    refine ⟨_, ran, raiseFault_bit _ .legend 3 false (by decide), fun r hr => ?_, ?_, kept.mem.trans mem⟩
    · rw [kept.legend] at hr
      exact bne_iff_ne.mp (List.mem_filter.mp hr).2
    · rw [kept.legend]
      exact snaps
  case pointFault =>
    intro n r c sn b s v a captured read
    obtain ⟨l, ran⟩ := exec_pointReadFail_raises captured read
    have kept := (raiseFault_rises .legend 0 false (Rises.refl v)).keeps
    refine ⟨_, ran, raiseFault_bit v .legend 0 false (by decide), kept.mem, ?_⟩
    rw [State.setLegend, kept.legend]

end Sys2Proof.Machine
end

section
/-!
SUPPORT. Job slots and the wait stage of a ring: what a slot holds after it is filled, after its job ends, and after
the wait stage has moved on (R294, R297, R301).
-/
namespace Sys2Proof.Machine

/-! What updates of the scheduler leave alone. -/

/-- SCHED.JOBS, the one register that follows the job slots (R328). -/
def jobsReg : Nat := pageBase .sched + Reg.SCHED_JOBS

/-- t differs from s in the scheduler and in SCHED.JOBS at most. -/
structure SlotParts (s t : State) : Prop where
  parts : t = { s with sched := t.sched, regs := t.regs }
  regs : RegsBut s t [jobsReg]

theorem SlotParts.refl (s : State) : SlotParts s s := ⟨rfl, fun _ _ => rfl⟩

theorem SlotParts.trans {s t u : State} (h : SlotParts s t) (k : SlotParts t u) : SlotParts s u := by
  refine ⟨?_, h.regs.trans k.regs⟩
  rw [k.parts, h.parts]

theorem SlotParts.mem {s t : State} (h : SlotParts s t) : t.mem = s.mem := by rw [h.parts]

theorem setJob_slotParts (s : State) (i : Nat) (j : Option Job) : SlotParts s (s.setJob i j) :=
  ⟨rfl, setPf_regsBut (s := { s with sched := { s.sched with jobs := aset none s.sched.jobs i j } })
    (List.mem_singleton_self _)⟩

/-- A change of the scheduler behind such an update. -/
theorem SlotParts.setSched {s t : State} (h : SlotParts s t) (x : SchedSt) : SlotParts s { t with sched := x } := by
  refine ⟨?_, h.regs⟩
  rw [h.parts]

theorem State.reg_setJob {s : State} {i : Nat} {j : Option Job} {a : Nat} (h : a ≠ jobsReg) :
    (s.setJob i j).reg a = s.reg a := (setJob_slotParts s i j).regs a (by simpa using h)

theorem State.sched_setJob (s : State) (i : Nat) (j : Option Job) :
    (s.setJob i j).sched = { s.sched with jobs := aset none s.sched.jobs i j } := rfl

/-- A slot holds what the scheduler's list of slots holds. -/
theorem job_of_sched {s t : State} (h : t.sched.jobs = s.sched.jobs) (i : Nat) : t.job i = s.job i := by
  simp only [State.job, h]

/-! Slots. -/

theorem mem_of_aget_some {α : Type} {m : Assoc (Option α)} {k : Nat} {v : α} (h : aget none m k = some v) :
    (k, some v) ∈ m := by
  induction m with
  | nil => exact absurd h (by simp [aget])
  | cons e r ih =>
    obtain ⟨k', v'⟩ := e
    by_cases hk : k' = k
    · rw [aget, if_pos hk] at h
      rw [hk, h]
      exact List.mem_cons_self
    · rw [aget, if_neg hk] at h
      exact List.mem_cons_of_mem _ (ih h)

/-- A write to a sparse store leaves one entry at most at its key, and every other entry. -/
theorem mem_aset {α : Type} [DecidableEq α] {d : α} {m : Assoc α} {k : Nat} {v : α} {e : Nat × α}
    (h : e ∈ aset d m k v) : e = (k, v) ∨ (e ∈ m ∧ e.1 ≠ k) := by
  have kept : e ∈ adel m k → e ∈ m ∧ e.1 ≠ k := fun he => by simpa [adel] using he
  by_cases hv : v = d
  · rw [aset, if_pos hv] at h
    exact .inr (kept h)
  · rw [aset, if_neg hv] at h
    exact (mem_ains _ k v e h).imp_right kept

theorem mem_jobs_setJob {s : State} {i : Nat} {j : Option Job} {e : Nat × Option Job}
    (h : e ∈ (s.setJob i j).sched.jobs) : e = (i, j) ∨ (e ∈ s.sched.jobs ∧ e.1 ≠ i) := by
  rw [State.sched_setJob] at h
  exact mem_aset h

theorem mem_jobsIn {s : State} {i : Nat} {j : Job} : (i, j) ∈ jobsIn s ↔ (i, some j) ∈ s.sched.jobs := by
  simp [jobsIn, List.mem_filterMap]

/-- Slot i holds a job, and every job listed for it meets P. -/
structure SlotHolds (P : Job → Prop) (s : State) (i : Nat) : Prop where
  filled : (s.job i).isSome = true
  each : ∀ k, (i, some k) ∈ s.sched.jobs → P k

theorem SlotHolds.job {P : Job → Prop} {s : State} {i : Nat} (h : SlotHolds P s i) : ∃ k, s.job i = some k ∧ P k := by
  obtain ⟨k, hk⟩ := Option.isSome_iff_exists.mp h.filled
  exact ⟨k, hk, h.each k (mem_of_aget_some hk)⟩

theorem SlotHolds.of_jobs {P : Job → Prop} {s t : State} {i : Nat} (e : t.sched.jobs = s.sched.jobs)
    (h : SlotHolds P s i) : SlotHolds P t i :=
  ⟨(congrArg Option.isSome (job_of_sched e i)).trans h.filled, fun k hk => h.each k (e ▸ hk)⟩

/-- A slot that has just been filled holds that job alone. -/
theorem setJob_holds {P : Job → Prop} {s : State} {i : Nat} {k : Job} (h : P k) :
    SlotHolds P (s.setJob i (some k)) i := by
  refine ⟨by simp, fun x hx => ?_⟩
  rcases mem_jobs_setJob hx with e | ⟨-, ne⟩
  · obtain rfl : x = k := Option.some.inj (Prod.mk.inj e).2
    exact h
  · exact absurd rfl ne

/-- Filling a slot keeps what slot i holds, where it is another slot or the job meets P. -/
theorem SlotHolds.setJob {P : Job → Prop} {s : State} {i n : Nat} {k : Job} (h : SlotHolds P s i) (new : n = i → P k) :
    SlotHolds P (s.setJob n (some k)) i := by
  by_cases same : n = i
  · subst same
    exact setJob_holds (new rfl)
  · have other : (s.setJob n (some k)).job i = s.job i := aget_aset_ne none none s.sched.jobs (some k) (Ne.symm same)
    refine ⟨(congrArg Option.isSome other).trans h.filled, fun x hx => ?_⟩
    rcases mem_jobs_setJob hx with e | ⟨old, -⟩
    · exact absurd (Prod.mk.inj e).1.symm same
    · exact h.each x old

/-! The end of a job. -/

/-- The job with its status known (R298, R327). -/
def Job.ended (j : Job) (status detail : Nat) : Job :=
  { j with phase := .ended, status := status, detail := detail,
           rend := { j.rend with flying := [] }, comp := { j.comp with flying := [] } }

/-- A job in a slot ends there; no status but FENCED_LOSS counts anything more. -/
theorem endJobAs_eq {s : State} {i : Nat} {j : Job} {st : JStat} (detail : Nat) (filled : s.job i = some j)
    (counted : st.code ≠ 0x20) : endJobAs s i st detail = s.setJob i (some (j.ended st.code detail)) := by
  rw [endJobAs, endJob, filled]
  exact if_neg counted

/-! The wait stage (R301). -/

/-- The job that comes to the wait stage is a waiting job of the slots. -/
theorem waitHead_waits {s : State} {rs q i : Nat} {j : Job} (h : waitHead s rs q = some (i, j)) :
    (i, some j) ∈ s.sched.jobs ∧ j.phase = .waiting := by
  have best : ∀ b, waitHead s rs q = some b → b ∈ jobsIn s ∧ b.2.phase = .waiting := by
    unfold waitHead
    refine List.foldlRecOn (motive := fun best => ∀ b, best = some b → b ∈ jobsIn s ∧ b.2.phase = .waiting) _ _
      (fun _ => nofun) fun best hbest e listed b hb => ?_
    split at hb
    · exact hbest b hb
    · next passes =>
      have here : e ∈ jobsIn s ∧ e.2.phase = .waiting := by
        simp only [Bool.or_eq_true, bne_iff_ne, not_or, not_not] at passes
        exact ⟨listed, passes.2⟩
      split at hb
      · split at hb
        · exact Option.some.inj hb ▸ here
        · exact hbest b hb
      · exact Option.some.inj hb ▸ here
  obtain ⟨listed, waiting⟩ := best _ h
  exact ⟨mem_jobsIn.mp listed, waiting⟩

/-- What a waiting job becomes when it passes the wait stage (R301, R322). -/
def passedJob (s : State) (j : Job) : Job :=
  { j with
    phase := .ready, since := none, readyAt := s.sched.nextSeq
    deadline := if bits j.flags 1 0 = 1 then deadlineOf s (j.dlHead % 16) j.dlFrame else none }

theorem makeReady_eq (s : State) (i : Nat) (j : Job) :
    makeReady s i j = { s.setJob i (some (passedJob s j)) with
      sched := { (s.setJob i (some (passedJob s j))).sched with nextSeq := s.sched.nextSeq + 1 } } := rfl

theorem makeReady_slotParts (s : State) (i : Nat) (j : Job) : SlotParts s (makeReady s i j) :=
  (setJob_slotParts s i _).setSched _

/-- The wait stage of a ring moves on: slots and SCHED.JOBS. -/
theorem settleWait_slotParts (rs q n : Nat) (s : State) : SlotParts s (settleWait rs q n s) := by
  induction n generalizing s with
  | zero => exact SlotParts.refl s
  | succ n ih =>
    rw [settleWait]
    cases waitHead s rs q with
    | none => exact SlotParts.refl s
    | some e =>
      obtain ⟨i, j⟩ := e
      dsimp only
      split_ifs
      · exact SlotParts.refl s
      · exact setJob_slotParts s i _
      · exact (makeReady_slotParts s i j).trans (ih _)

theorem waitNext_slotParts (s : State) (rs q : Nat) : SlotParts s (waitNext s rs q) := settleWait_slotParts ..

/-- P holds of a waiting job wherever the wait stage puts it. -/
def WaitStable (P : Job → Prop) : Prop :=
  ∀ j, P j → j.phase = .waiting → (∀ x, P { j with since := x }) ∧ ∀ s, P (passedJob s j)

/-- The wait stage keeps what it does not change of the job in a slot. -/
theorem settleWait_holds {P : Job → Prop} (stable : WaitStable P) (rs q n : Nat) {s : State} {i : Nat}
    (h : SlotHolds P s i) : SlotHolds P (settleWait rs q n s) i := by
  induction n generalizing s with
  | zero => exact h
  | succ n ih =>
    rw [settleWait]
    cases first : waitHead s rs q with
    | none => exact h
    | some e =>
      obtain ⟨m, j⟩ := e
      obtain ⟨listed, waiting⟩ := waitHead_waits first
      have moves : m = i → (∀ x, P { j with since := x }) ∧ ∀ s, P (passedJob s j) := fun e =>
        stable j (h.each j (e ▸ listed)) waiting
      dsimp only
      split_ifs
      · exact h
      · exact h.setJob fun e => (moves e).1 _
      · have ready := h.setJob fun e => (moves e).2 s
        exact ih (SlotHolds.of_jobs (s := s.setJob m (some (passedJob s j))) rfl ready)

theorem waitNext_holds {P : Job → Prop} (stable : WaitStable P) {s : State} {i : Nat} (rs q : Nat)
    (h : SlotHolds P s i) : SlotHolds P (waitNext s rs q) i := settleWait_holds stable rs q _ h

/-- A slot filled with a job that does not wait holds it when the wait stage has moved on. -/
theorem waitNext_keeps_passed {s : State} {i rs q : Nat} {k : Job} (passed : k.phase ≠ .waiting)
    (h : SlotHolds (· = k) s i) : (waitNext s rs q).job i = some k := by
  have stable : WaitStable (· = k) := fun j e waiting => absurd (e ▸ waiting) passed
  obtain ⟨x, hx, rfl⟩ := (waitNext_holds stable rs q h).job
  exact hx

/-- k is job j, wherever it stands at the wait stage. -/
def Job.SameAs (j k : Job) : Prop :=
  k = { j with phase := k.phase, since := k.since, readyAt := k.readyAt, deadline := k.deadline }

theorem Job.SameAs.fields {j k : Job} (h : j.SameAs k) :
    k.rs = j.rs ∧ k.q = j.q ∧ k.op = j.op ∧ k.flags = j.flags ∧ k.ctx = j.ctx ∧ k.tag = j.tag ∧ k.body = j.body ∧
      k.entry = j.entry := by
  rw [h]
  exact ⟨rfl, rfl, rfl, rfl, rfl, rfl, rfl, rfl⟩

theorem Job.sameAs_waitStable (j : Job) : WaitStable j.SameAs := by
  intro k same _
  constructor
  · intro x
    unfold Job.SameAs at *
    rw [same]
  · intro s
    unfold Job.SameAs passedJob at *
    rw [same]

end Sys2Proof.Machine
end

section
/-!
SUPPORT. Ring registers (R382, R384): what a field of a ring reads after another update, a ring that stops, and HEAD
when it moves past an entry.
-/
namespace Sys2Proof.Machine

/-- The registers of a ring set's rings lie apart from SCHED.JOBS and from the event bits of their page. -/
theorem ringReg_apart (rs o : Nat) (h : 0x200 ≤ o) :
    pageBase (ringPage rs) + o ≠ jobsReg ∧ pageBase (ringPage rs) + o ≠ hadr (ringPage rs) .irqStatus := by
  have jobs : jobsReg = 0x3110 := rfl
  rw [jobs]
  unfold ringPage
  split_ifs <;> simp only [hadr, hdrOff, pageBase] <;> omega

theorem ringOff_low (rs r : Nat) : 0x200 ≤ ringOff rs r := by
  unfold ringOff Reg.FUNC_RING_BASE_LO Reg.WORLD_RING_BASE_LO Reg.CTRLCPLX_RING_BASE_LO
  split_ifs <;> omega

/-- The address of offset o of ring r's block. -/
def ringAdr (rs r o : Nat) : Nat := pageBase (ringPage rs) + (ringOff rs r + o)

theorem ringF_eq (s : State) (rs r o hi lo : Nat) : ringF s rs r o hi lo = fget (s.reg (ringAdr rs r o)) hi lo := rfl

theorem ringAdr_apart (rs r o : Nat) : ringAdr rs r o ≠ jobsReg ∧ ringAdr rs r o ≠ hadr (ringPage rs) .irqStatus :=
  ringReg_apart rs _ (Nat.le_add_right_of_le (ringOff_low rs r))

theorem SlotParts.ringF {s t : State} (h : SlotParts s t) (rs r o hi lo : Nat) :
    ringF t rs r o hi lo = ringF s rs r o hi lo := by
  rw [ringF_eq, ringF_eq, h.regs _ (by simpa using (ringAdr_apart rs r o).1)]

theorem SlotParts.ringHead {s t : State} (h : SlotParts s t) (rs r : Nat) : ringHead t rs r = ringHead s rs r :=
  h.ringF ..

theorem SlotParts.ringSize {s t : State} (h : SlotParts s t) (rs r : Nat) : ringSize t rs r = ringSize s rs r :=
  congrArg (2 ^ ·) (h.ringF ..)

/-! A field that is written, and the others. -/

theorem ringF_setRingF (s : State) (rs r o v : Nat) {hi lo : Nat} (order : lo ≤ hi) (word : hi < 32) :
    ringF (setRingF s rs r o hi lo v) rs r o hi lo = v % 2 ^ (hi + 1 - lo) := by
  rw [ringF, State.pf, setRingF, State.setPf, State.pr_setPr]
  exact fget_fset _ _ order word

theorem ringF_setRingF_otherField (s : State) (rs r o v : Nat) {hi lo hi' lo' : Nat} (order : lo ≤ hi) (word : hi < 32)
    (apart : hi' < lo ∨ hi < lo') :
    ringF (setRingF s rs r o hi lo v) rs r o hi' lo' = ringF s rs r o hi' lo' := by
  rw [ringF, State.pf, setRingF, State.setPf, State.pr_setPr]
  exact fget_fset_other _ _ order word apart

theorem ringF_setRingF_otherReg (s : State) (rs r v hi lo hi' lo' : Nat) {o o' : Nat} (other : o' ≠ o) :
    ringF (setRingF s rs r o hi lo v) rs r o' hi' lo' = ringF s rs r o' hi' lo' := by
  have apart : ringAdr rs r o' ≠ ringAdr rs r o := by
    unfold ringAdr
    omega
  exact congrArg (fget · hi' lo') ((State.reg_setPf ..).trans (if_neg apart))

theorem stoppedEvent_registerParts (s : State) (rs : Nat) : RegisterParts s (stoppedEvent s rs) := by
  unfold stoppedEvent
  split_ifs
  · exact State.event_only ..
  · exact State.event_only ..
  · rfl

theorem setRingF_registerParts (s : State) (rs r o hi lo v : Nat) : RegisterParts s (setRingF s rs r o hi lo v) := rfl

@[simp] theorem ringF_stoppedEvent (s : State) (rs r o hi lo : Nat) :
    ringF (stoppedEvent s rs) rs r o hi lo = ringF s rs r o hi lo := by
  have apart := (ringAdr_apart rs r o).2
  have silent : (stoppedEvent s rs).reg (ringAdr rs r o) = s.reg (ringAdr rs r o) := by
    unfold stoppedEvent
    split_ifs with function sapwood
    · rw [ringPage, if_pos function] at apart
      exact (State.reg_event ..).trans (if_neg apart)
    · rw [sapwood] at apart ⊢
      exact (State.reg_event ..).trans (if_neg apart)
    · rfl
  rw [ringF_eq, ringF_eq, silent]

theorem RegisterParts.mem {s t : State} (h : RegisterParts s t) : t.mem = s.mem := by rw [h]

theorem RegisterParts.rings {s t : State} (h : RegisterParts s t) : t.rings = s.rings := by rw [h]

theorem RegisterParts.sched {s t : State} (h : RegisterParts s t) : t.sched = s.sched := by rw [h]

/-! A ring that stops (R384). -/

theorem stopRing_registerParts (s : State) (rs r cause idx : Nat) : RegisterParts s (stopRing s rs r cause idx) :=
  (((setRingF_registerParts s rs r rStatus 31 31 1).trans (setRingF_registerParts ..)).trans
    (setRingF_registerParts ..)).trans (stoppedEvent_registerParts ..)

theorem stopRing_stopped (s : State) (rs r cause idx : Nat) : ringStopped (stopRing s rs r cause idx) rs r = true := by
  rw [ringStopped, stopRing, ringF_stoppedEvent, ringF_setRingF_otherField _ _ _ _ _ (by omega) (by omega) (by omega),
    ringF_setRingF_otherField _ _ _ _ _ (by omega) (by omega) (by omega),
    ringF_setRingF _ _ _ _ _ (by omega) (by omega)]
  rfl

theorem stopRing_cause (s : State) (rs r idx : Nat) {cause : Nat} (h : cause < 256) :
    ringF (stopRing s rs r cause idx) rs r rStatus 23 16 = cause := by
  rw [stopRing, ringF_stoppedEvent, ringF_setRingF_otherField _ _ _ _ _ (by omega) (by omega) (by omega),
    ringF_setRingF _ _ _ _ _ (by omega) (by omega)]
  exact Nat.mod_eq_of_lt h

theorem stopRing_index (s : State) (rs r cause : Nat) {idx : Nat} (h : idx < 4096) :
    ringF (stopRing s rs r cause idx) rs r rStatus 11 0 = idx := by
  rw [stopRing, ringF_stoppedEvent, ringF_setRingF _ _ _ _ _ (by omega) (by omega)]
  exact Nat.mod_eq_of_lt h

theorem ringHead_stopRing (s : State) (rs r cause idx : Nat) :
    ringHead (stopRing s rs r cause idx) rs r = ringHead s rs r := by
  have other : rHead ≠ rStatus := by decide
  rw [ringHead, stopRing, ringF_stoppedEvent, ringF_setRingF_otherReg _ _ _ _ _ _ _ _ other,
    ringF_setRingF_otherReg _ _ _ _ _ _ _ _ other, ringF_setRingF_otherReg _ _ _ _ _ _ _ _ other]
  rfl

theorem ringHead_lt (s : State) (rs r : Nat) : ringHead s rs r < 4096 := fget_lt ..

/-! HEAD moves on. -/

/-- HEAD of a ring of at most 4,096 entries takes the next index. -/
theorem ringHead_headNext {s : State} {rs q : Nat} (size : ringSize s rs q ≤ 4096) :
    ringHead (headNext s rs q) rs q = (ringHead s rs q + 1) % ringSize s rs q := by
  have inRing : (ringHead s rs q + 1) % ringSize s rs q < 4096 :=
    (Nat.mod_lt _ (Nat.two_pow_pos _)).trans_le size
  rw [ringHead, headNext, ringF_setRingF _ _ _ _ _ (by omega) (by omega)]
  exact Nat.mod_eq_of_lt inRing

end Sys2Proof.Machine
end

section
/-!
PROOF. Descriptors, fences and the end of jobs (R291 to R301, R384, R390).
-/
namespace Sys2Proof.Machine

/-! Descriptor fetch (R293, R294, R384). -/

/-- The fetch of a job descriptor that has been read and found a slot free. -/
theorem fetchOp_job {rs q i : Nat} {d : List Nat} {s v : State} (fetches : sqFetches s rs q = true) (job : q ≠ 3)
    (cap : atCap s rs = false)
    (read : ringRead s rs (rs == 64) 1 (ringBase s rs q + 64 * ringHead s rs q) 64 = (v, .ok d))
    (slot : freeSlot s (dClass d) = some i) (fresh : staleGen v rs (dByte d 1) = false) :
    fetchOp s rs q false = jobFetch v rs q d := by
  simp [fetchOp, fetches, job, cap, read, slot, fresh]

/-- The fetch of a POINT_UPDATE that has been read. -/
theorem fetchOp_point {rs : Nat} {d : List Nat} {s v : State} (fetches : sqFetches s rs 3 = true)
    (idle : pointsWait s rs = false)
    (read : ringRead s rs (rs == 64) 1 (ringBase s rs 3 + 64 * ringHead s rs 3) 64 = (v, .ok d))
    (point : dByte d 0 = 0x40) (fresh : staleGen v rs (dByte d 1) = false) :
    fetchOp s rs 3 true = pointFetch v rs d := by
  simp [fetchOp, fetches, idle, read, point, fresh]

theorem jobFetch_takes {rs q i : Nat} {d : List Nat} {e : Option (List Nat)} {v w : State}
    (context : ctxRead v rs (dByte d 3) = (w, .ok e)) (sound : fetchCause w rs q d e = none)
    (slot : freeSlot w (dClass d) = some i) : jobFetch v rs q d = takeJob w rs q i d (e.getD []) := by
  simp [jobFetch, context, sound, slot]

theorem jobFetch_stops {rs q c : Nat} {d : List Nat} {e : Option (List Nat)} {v w : State}
    (context : ctxRead v rs (dByte d 3) = (w, .ok e)) (cause : fetchCause w rs q d e = some c) :
    jobFetch v rs q d = stopRing w rs q c (ringHead w rs q) := by
  simp [jobFetch, context, cause]

/-- The causes of a job descriptor are 1 to 6 (R384). -/
theorem fetchCause_le {rs q c : Nat} {d : List Nat} {e : Option (List Nat)} {s : State}
    (h : fetchCause s rs q d e = some c) : c ≤ 6 := by
  obtain ⟨x, found, rfl⟩ := Option.map_eq_some_iff.mp h
  have listed := List.mem_of_find?_eq_some found
  simp only [List.mem_cons, List.not_mem_nil, or_false] at listed
  rcases listed with rfl | rfl | rfl | rfl | rfl | rfl <;> simp

/-- The job of a descriptor with its context entry (R291, R296). -/
def descriptorJob (s : State) (rs q : Nat) (d entry : List Nat) : Job :=
  { rs := rs, q := q, idx := ringHead s rs q, gen := dByte d 1, op := dByte d 0, flags := dByte d 2,
    ctx := dByte d 3, tag := bytesAt d 4 4, wait := bytesAt d 8 8, signal := bytesAt d 16 8, dlFrame := bytesAt d 24 4,
    dlHead := dByte d 28, body := d.drop 32, entry := entry, seq := s.sched.nextSeq }

/-- HEAD has moved past a descriptor whose job has taken slot i, and the next sequence number is another. -/
def slotTaken (s : State) (rs q i : Nat) (j : Job) : State :=
  let t := headNext (s.setJob i (some j)) rs q
  { t with sched := { t.sched with nextSeq := t.sched.nextSeq + 1 } }

theorem takeJob_eq (s : State) (rs q i : Nat) (d entry : List Nat) :
    takeJob s rs q i d entry = waitNext (slotTaken s rs q i (descriptorJob s rs q d entry)) rs q := rfl

theorem takeJob_job (s : State) (rs q i : Nat) (d entry : List Nat) :
    ∃ k, (takeJob s rs q i d entry).job i = some k ∧ (descriptorJob s rs q d entry).SameAs k := by
  let j := descriptorJob s rs q d entry
  have taken : SlotHolds j.SameAs (slotTaken s rs q i j) i :=
    SlotHolds.of_jobs (s := s.setJob i (some j)) rfl (setJob_holds rfl)
  exact (waitNext_holds j.sameAs_waitStable rs q taken).job

theorem takeJob_head {s : State} {rs q : Nat} (i : Nat) (d entry : List Nat) (size : ringSize s rs q ≤ 4096) :
    ringHead (takeJob s rs q i d entry) rs q = (ringHead s rs q + 1) % ringSize s rs q := by
  have filled := setJob_slotParts s i (some (descriptorJob s rs q d entry))
  rw [takeJob_eq, (waitNext_slotParts ..).ringHead]
  refine (ringHead_headNext ((filled.ringSize rs q).trans_le size)).trans ?_
  rw [filled.ringHead, filled.ringSize]

theorem takeJob_mem (s : State) (rs q i : Nat) (d entry : List Nat) : (takeJob s rs q i d entry).mem = s.mem :=
  (waitNext_slotParts ..).mem

/-! POINT_UPDATE (R197, R200). -/

theorem pointFetch_takes {rs : Nat} {d : List Nat} {s : State} (reserved : dByte d 3 / 2 = 0) (one : 1 ≤ dByte d 2)
    (few : dByte d 2 ≤ 7) : pointFetch s rs d = pointTake s rs d := by
  rw [pointFetch, if_neg (not_not.mpr reserved), if_neg (by omega)]

/-- The records enter the queue behind those before them, and HEAD moves on. -/
theorem pointTake_takes {rs : Nat} {d : List Nat} {s : State} (size : ringSize s rs 3 ≤ 4096) :
    let t := pointTake s rs d
    s.legend.queue <+: t.legend.queue ∧ t.legend.queue.length = s.legend.queue.length + dByte d 2 ∧
      t.legend.accepted = s.legend.accepted ∧ ringHead t rs 3 = (ringHead s rs 3 + 1) % ringSize s rs 3 ∧
      t.sched = s.sched ∧ t.mem = s.mem :=
  ⟨List.prefix_append _ _, (List.length_append ..).trans (by simp), rfl,
    ringHead_headNext (s := s.setLegend _) size, rfl, rfl⟩

/-! Fences (R297, R299, R300). -/

theorem waitingJob_some {s : State} {i : Nat} {j : Job} (h : waitingJob s i = some j) : s.job i = some j :=
  (Option.filter_eq_some_iff.mp h).1

/-- A fence word that has reached the value lets the job pass (R299). -/
theorem pollOp_reached {s v : State} {i : Nat} {j : Job} {b : List Nat} {late : Bool}
    (read : fenceRead s j (j.wait % 4096) = (v, .ok b)) (sound : bit (ofLeBytes b) 63 = false)
    (reached : j.wait / 4096 ≤ ofLeBytes b) : pollOp s i j late = waitNext (makeReady v i j) j.rs j.q := by
  simp [pollOp, read, sound, reached]

/-- A fence word that has not leaves the job waiting, or ends it once its time has run out (R300). -/
theorem pollOp_short {s v : State} {i : Nat} {j : Job} {b : List Nat} {late : Bool}
    (read : fenceRead s j (j.wait % 4096) = (v, .ok b)) (sound : bit (ofLeBytes b) 63 = false)
    (short : ofLeBytes b < j.wait / 4096) :
    pollOp s i j late = if late then (endWaiting v i j .fenceTimeout).event .sched 2 else v := by
  simp [pollOp, read, sound, not_le.mpr short]

theorem exec_fencePoll {s : State} {i : Fin 1024} {j : Job} (waits : waitingJob s i = some j) :
    exec (.fencePoll i) s = .next (pollOp s i j false) := by
  change execFencePoll i s = _
  simp [execFencePoll, waits]

theorem exec_fenceTimeout {s : State} {i : Fin 1024} {j : Job} (waits : waitingJob s i = some j)
    (expired : j.since.getD 0 + 1000000 * s.pf .sched Reg.SCHED_FENCE_TIMEOUT 15 0 ≤ s.devtime) :
    exec (.fenceTimeout i) s = .next (pollOp s i j true) := by
  change execFenceTimeout i s = _
  simp [execFenceTimeout, waits, expired]

theorem makeReady_holds (s : State) (i : Nat) (j : Job) : SlotHolds (· = passedJob s j) (makeReady s i j) i :=
  SlotHolds.of_jobs (s := s.setJob i (some (passedJob s j))) rfl (setJob_holds rfl)

theorem endWaiting_eq {s : State} {i : Nat} {j : Job} {st : JStat} (filled : s.job i = some j)
    (counted : st.code ≠ 0x20) :
    endWaiting s i j st = waitNext (s.setJob i (some (j.ended st.code 0))) j.rs j.q := by
  rw [endWaiting, endJobAs_eq 0 filled counted]

theorem endWaiting_job {s : State} {i : Nat} {j : Job} {st : JStat} (filled : s.job i = some j)
    (counted : st.code ≠ 0x20) : (endWaiting s i j st).job i = some (j.ended st.code 0) := by
  rw [endWaiting_eq filled counted]
  exact waitNext_keeps_passed (by simp [Job.ended]) (setJob_holds rfl)

theorem endWaiting_mem {s : State} {i : Nat} {j : Job} {st : JStat} (filled : s.job i = some j)
    (counted : st.code ≠ 0x20) : (endWaiting s i j st).mem = s.mem := by
  rw [endWaiting_eq filled counted]
  exact (waitNext_slotParts ..).mem

/-! Completion (R291, R294, R298, R327). -/

/-- A job with the detail and the flags that it completes with. -/
def Job.settled (j : Job) (detail cflags : Nat) : Job := { j with detail := detail, cflags := cflags }

/-- Settling a job changes registers and the cycle's record, and of the job its detail and its flags. -/
theorem settleJob_settles (s : State) (j : Job) :
    ∃ u detail flags, settleJob s j = (u, j.settled detail flags) ∧ RegisterParts s u := by
  unfold settleJob
  dsimp only
  split_ifs
  · exact ⟨_, _, _, rfl, (count_registerParts ..).trans (State.event_only ..)⟩
  · exact ⟨_, _, _, rfl, rfl⟩
  · exact ⟨_, _, _, rfl, (count_registerParts ..).trans (State.event_only ..)⟩
  · exact ⟨_, _, _, rfl, rfl⟩

/-- A job without a signal completes as it is settled. -/
theorem exec_jobComplete {s u : State} {i : Fin 1024} {j k : Job} (filled : s.job i = some j) (ended : j.phase = .ended)
    (fresh : jobStale s j = false) (settled : settleJob s j = (u, k)) (silent : bit k.flags 5 = false) :
    exec (.jobComplete i) s = .next (completeJob u i k) := by
  change execJobComplete i s = _
  simp [execJobComplete, filled, ended, fresh, settled, signalJob, silent]

theorem State.job_setRing (s : State) (rs : Nat) (x : RingSt) (i : Nat) : (s.setRing rs x).job i = s.job i := rfl

/-- The completion record of the job in slot i (R327). -/
def completionOf (i : Nat) (j : Job) : CqRec := ⟨some i, j.gen, j.tag, j.status, j.cflags, j.q, j.detail⟩

/-- A completion that is asked for, or that reports a failure, waits behind those of its ring set. -/
theorem completeJob_queues {s : State} (i : Nat) {j : Job} (asked : bit j.flags 3 = true ∨ j.status ≠ 0) :
    let t := completeJob s i j
    t.job i = some { j with phase := .signalled } ∧
      (t.ring j.rs).cqWait = (s.ring j.rs).cqWait ++ [completionOf i j] ∧ t.mem = s.mem := by
  have queued : completeJob s i j =
      queueCompletion (s.setJob i (some { j with phase := .signalled })) j.rs (completionOf i j) := if_pos asked
  have ring : (s.setJob i (some { j with phase := .signalled })).ring j.rs = s.ring j.rs := rfl
  simp only [queued, queueCompletion, State.job_setRing, State.job_setJob, State.ring_setRing, ring, State.setRing_mem,
    State.setJob_mem, and_self]

theorem completeJob_frees {s : State} (i : Nat) {j : Job} (unasked : bit j.flags 3 = false) (ok : j.status = 0) :
    completeJob s i j = freeJob s i := if_neg (by simp [unasked, ok])

theorem freeJob_job (s : State) (i : Nat) : (freeJob s i).job i = none := State.job_setJob s i none

/-- Settles O40: a fetch ends in `takeJob`, `stopRing` or `pointTake`, a look at a fence in the wait stage's next move,
and an ended job in `completeJob`. What a slot holds behind the wait stage is `waitNext_holds`. -/
theorem jobStages : Obligations.JobStages := by
  refine ⟨?taken, ?stopped, ?points, ?reached, ?short, ?expired, ?completed, ?freed⟩
  case taken =>
    intro rs q d i0 i e s v w fetches job cap read free fresh context sound slot size
    have ran : exec (.descriptorFetch rs q) s = .next (takeJob w rs q i d (e.getD [])) :=
      congrArg Host.Outcome.next ((fetchOp_job fetches job cap read free fresh).trans
        (jobFetch_takes context sound slot))
    obtain ⟨k, hk, same⟩ := takeJob_job w rs q i d (e.getD [])
    obtain ⟨rsEq, qEq, op, flags, ctx, tag, body, entry⟩ := same.fields
    exact ⟨_, k, ran, hk, rsEq, qEq, op, flags, ctx, tag, body, entry, takeJob_head i d _ size, takeJob_mem ..⟩
  case stopped =>
    intro rs q d i0 c e s v w fetches job cap read free fresh context cause
    have ran : exec (.descriptorFetch rs q) s = .next (stopRing w rs q c (ringHead w rs q)) :=
      congrArg Host.Outcome.next ((fetchOp_job fetches job cap read free fresh).trans (jobFetch_stops context cause))
    refine ⟨_, ran, stopRing_stopped .., stopRing_cause _ _ _ _ ?_, stopRing_index _ _ _ _ (ringHead_lt ..),
      ringHead_stopRing .., ?_⟩
    · exact (fetchCause_le cause).trans_lt (by decide)
    · exact (stopRing_registerParts ..).sched
  case points =>
    intro rs d s v fetches idle read point fresh reserved one few size
    have ran : exec (.pointUpdate rs) s = .next (pointTake v rs d) :=
      congrArg Host.Outcome.next ((fetchOp_point fetches idle read point fresh).trans
        (pointFetch_takes reserved one few))
    exact ⟨_, ran, pointTake_takes size⟩
  case reached =>
    intro i j b s v waits read sound reached
    have ran := (exec_fencePoll waits).trans (congrArg Host.Outcome.next (pollOp_reached read sound reached))
    exact ⟨_, _, ran, waitNext_keeps_passed (by simp [passedJob]) (makeReady_holds v i j), rfl, rfl, rfl,
      (waitNext_slotParts ..).mem⟩
  case short =>
    intro i j b s v waits read sound short
    exact (exec_fencePoll waits).trans (congrArg Host.Outcome.next (pollOp_short read sound short))
  case expired =>
    intro i j b s v waits expired read sound short filled
    have ran := (exec_fenceTimeout waits expired).trans
      (congrArg Host.Outcome.next ((pollOp_short read sound short).trans (if_pos rfl)))
    have ended := endWaiting_job (st := .fenceTimeout) filled (by decide)
    exact ⟨_, _, ran, (job_of_sched (congrArg SchedSt.jobs (State.event_sched ..)) i).trans ended, rfl, rfl,
      event_bit _ .sched 2 (by decide), (State.event_mem ..).trans (endWaiting_mem filled (by decide))⟩
  case completed =>
    intro i j s filled ended fresh silent asked
    obtain ⟨u, detail, flags, settled, parts⟩ := settleJob_settles s j
    obtain ⟨job, waits, mem⟩ := completeJob_queues (s := u) i (j := j.settled detail flags) asked
    have ring : u.ring j.rs = s.ring j.rs := by rw [State.ring, parts.rings, State.ring]
    exact ⟨_, _, _, exec_jobComplete filled ended fresh settled silent, job, rfl,
      waits.trans (congrArg (RingSt.cqWait · ++ _) ring), rfl, rfl, rfl, rfl, rfl, mem.trans parts.mem⟩
  case freed =>
    intro i j s filled ended fresh silent unasked ok
    obtain ⟨u, detail, flags, settled, parts⟩ := settleJob_settles s j
    have ran := (exec_jobComplete filled ended fresh settled silent).trans
      (congrArg Host.Outcome.next (completeJob_frees i unasked ok))
    exact ⟨_, ran, freeJob_job u i, parts.rings, parts.mem⟩

end Sys2Proof.Machine
end

section
/-!
PROOF. Jobs that need no bay (R292, R310, R314 to R319, R324).
-/
namespace Sys2Proof.Machine

theorem readyJob_some {s : State} {i op : Nat} {j : Job} (h : readyJob s i op = some j) : s.job i = some j :=
  (Option.filter_eq_some_iff.mp h).1

/-- A job that ends as it stands, with its slot, its status and memory. -/
theorem endJobAs_ends {s : State} {i : Nat} {j : Job} {st : JStat} (detail : Nat) (filled : s.job i = some j)
    (counted : st.code ≠ 0x20) :
    ∃ k, (endJobAs s i st detail).job i = some k ∧ k.phase = .ended ∧ k.status = st.code ∧ k.detail = detail ∧
      (endJobAs s i st detail).mem = s.mem := by
  rw [endJobAs_eq detail filled counted]
  exact ⟨_, State.job_setJob .., rfl, rfl, rfl, rfl⟩

/-- Ending a job leaves pending stages and shadow registers. -/
theorem endJobAs_stages {s : State} {i : Nat} {j : Job} {st : JStat} (detail : Nat) (filled : s.job i = some j)
    (counted : st.code ≠ 0x20) :
    (∀ p, (endJobAs s i st detail).pend p = s.pend p) ∧ ∀ a, (endJobAs s i st detail).shd a = s.shd a := by
  rw [endJobAs_eq detail filled counted]
  exact ⟨fun _ => rfl, fun _ => rfl⟩

/-- Ending a job leaves the handles as they are. -/
theorem endJobAs_handles (s : State) (i : Nat) (st : JStat) (detail rs h : Nat) :
    handleOf (endJobAs s i st detail) rs h = handleOf s rs h := by
  have kept : (endJobAs s i st detail).sched.handles = s.sched.handles := by
    unfold endJobAs endJob
    split
    · rfl
    · split_ifs <;> rfl
  rw [handleOf, handleOf, kept]

/-! NOP (R292). -/

theorem exec_nop {s : State} {i : Fin 1024} {j : Job} (ready : readyJob s i 0 = some j) :
    exec (.nop i) s = .next (endJobAs s i .ok 0) := by
  change execNop i s = _
  rw [execNop, ready]

/-! Modules (R315 to R319). -/

theorem exec_moduleLoad {s v : State} {i : Fin 1024} {j : Job} {b : List Nat} (ready : readyJob s i 0x22 = some j)
    (inRange : bytesAt j.body 12 2 ≤ 1023) (free : handleOf s j.rs (bytesAt j.body 12 2) = none)
    (turn : loadWaits s j = false)
    (read : jRead s j 0x16 (bytesAt j.body 0 8) (bytesAt j.body 8 4) = (v, .ok b)) :
    exec (.moduleLoad i) s = .next (loadStart v i j b) := by
  change execModuleLoad i s = _
  simp [execModuleLoad, ready, free, turn, read, not_lt.mpr inRange]

/-- The module's key, from its bytes (R318). -/
def moduleKey (b : List Nat) : Nat := Config.sha384 b / 2 ^ 128

/-- A job whose translation starts. -/
def startedJob (s : State) (j : Job) : Job := { j with phase := .running, started := some s.devtime }

/-- The job runs, and its translation is on the list. -/
def translating (s : State) (i : Nat) (j : Job) (b : List Nat) : State :=
  let t := s.setJob i (some (startedJob s j))
  { t with sched := { t.sched with trans := t.sched.trans ++ [⟨i, j.rs, moduleKey b, b, s.devtime⟩] } }

/-- A module that an empty cache does not hold starts to translate, and counts as a miss. -/
theorem loadStart_translates {s : State} (i : Nat) (j : Job) (b : List Nat) (empty : s.sched.modules = []) :
    loadStart s i j b = (translating s i j b).count .sched Reg.SCHED_TC_MISSES := by
  have room : cacheFull s = false := by simp [cacheFull, empty]
  simp only [loadStart, empty, List.any_nil, room, Bool.false_eq_true, if_false]
  rfl

theorem translating_job (s : State) (i : Nat) (j : Job) (b : List Nat) :
    (translating s i j b).job i = some (startedJob s j) :=
  (job_of_sched (s := s.setJob i (some (startedJob s j))) rfl i).trans (State.job_setJob ..)

theorem State.job_count (s : State) (p : Page) (o i : Nat) : (s.count p o).job i = s.job i := rfl

/-- TC_MISSES is not the register that follows the job slots. -/
theorem translating_misses (s : State) (i : Nat) (j : Job) (b : List Nat) :
    (translating s i j b).pr .sched Reg.SCHED_TC_MISSES = s.pr .sched Reg.SCHED_TC_MISSES :=
  State.reg_setJob (s := s) (i := i) (j := some (startedJob s j)) (a := pageBase .sched + Reg.SCHED_TC_MISSES)
    (by decide)

/-- A handle of a ring set refers to nothing (R316). -/
def dropHandle (s : State) (rs h : Nat) : State :=
  { s with sched := { s.sched with handles := s.sched.handles.filter (fun e => !(e.func == rs && e.handle == h)) } }

theorem exec_moduleUnload {s : State} {i : Fin 1024} {j : Job} (ready : readyJob s i 0x23 = some j)
    (inRange : bytesAt j.body 0 2 ≤ 1023) (taken : (handleOf s j.rs (bytesAt j.body 0 2)).isSome = true) :
    exec (.moduleUnload i) s = .next (endJobAs (dropHandle s j.rs (bytesAt j.body 0 2)) i .ok 0) := by
  change execModuleUnload i s = _
  rw [execModuleUnload, ready]
  exact if_neg (by simp [Option.isSome_iff_ne_none.mp taken, inRange])

theorem handleOf_dropHandle (s : State) (rs h : Nat) : handleOf (dropHandle s rs h) rs h = none := by
  simp only [handleOf, dropHandle, List.find?_eq_none]
  intro e he
  simpa [imp_iff_not_or] using (List.mem_filter.mp he).2

/-- A handle of a ring set takes a module (R316). -/
def takeHandle (s : State) (rs h key : Nat) : State :=
  { s with sched := { s.sched with handles := s.sched.handles ++ [⟨rs, h, key⟩] } }

/-- A handle that nothing has taken refers to the module that it takes. -/
theorem handleOf_takeHandle {s : State} {rs h : Nat} (key : Nat) (free : handleOf s rs h = none) :
    handleOf (takeHandle s rs h key) rs h = some ⟨rs, h, key⟩ := by
  rw [handleOf] at free
  simp [handleOf, takeHandle, List.find?_append, free]

theorem cacheLoad_handles (s : State) (key : Nat) (b : List Nat) :
    (cacheLoad s key b).sched.handles = s.sched.handles := rfl

/-- A load whose handle is free completes: the handle takes the module. -/
theorem loadDone_takes {s : State} {i : Nat} {j : Job} (key : Nat) (b : List Nat) (detail : Nat)
    (filled : s.job i = some j) (free : handleOf s j.rs (bytesAt j.body 12 2) = none) :
    ∃ k, (loadDone s i j key b detail).job i = some k ∧ k.phase = .ended ∧ k.status = 0 ∧
      (handleOf (loadDone s i j key b detail) j.rs (bytesAt j.body 12 2)).map (·.key) = some key ∧
      (loadDone s i j key b detail).mem = s.mem := by
  have done : loadDone s i j key b detail =
      endJobAs (takeHandle (cacheLoad s key b) j.rs (bytesAt j.body 12 2) key) i .ok detail := by
    rw [loadDone, free]
    rfl
  have still : handleOf (cacheLoad s key b) j.rs (bytesAt j.body 12 2) = none := by
    rw [← free, handleOf, handleOf, cacheLoad_handles]
  have here : (takeHandle (cacheLoad s key b) j.rs (bytesAt j.body 12 2) key).job i = some j :=
    (job_of_sched rfl i).trans filled
  obtain ⟨k, job, ended, status, -, mem⟩ := endJobAs_ends (st := .ok) detail here (by decide)
  rw [done]
  refine ⟨k, job, ended, status, ?_, mem⟩
  rw [endJobAs_handles, handleOf_takeHandle key still]
  rfl

/-- Taking a translation off the list leaves its slot, the clock, the handles and memory. -/
theorem takeTrans_takes {s u : State} {i : Nat} {x : Translating} {j : Job} (h : takeTrans s i = some (x, j, u)) :
    u.job i = some j ∧ u.devtime = s.devtime ∧ u.sched.handles = s.sched.handles ∧ u.mem = s.mem := by
  unfold takeTrans at h
  split at h
  · next filled =>
    cases h
    exact ⟨filled, rfl, rfl, rfl⟩
  · cases h

theorem tcLast_registerParts (s : State) (x : Translating) (cause : Nat) : RegisterParts s (tcLast s x cause) :=
  State.setPr_only ..

/-- A translation fails: the job ends with the cause, and SCHED shows the event (R319). -/
theorem translateFails_fails {s : State} {x : Translating} {j : Job} (cause : Nat) (filled : s.job x.slot = some j) :
    ∃ k, (translateFails s x cause).job x.slot = some k ∧ k.phase = .ended ∧ k.status = 0x28 ∧ k.detail = cause ∧
      fbit ((translateFails s x cause).hd .sched .irqStatus) 1 = true ∧ (translateFails s x cause).mem = s.mem := by
  let e := (s.count .sched Reg.SCHED_TC_FAILS).event .sched 1
  have shown : Rises e (translateFails s x cause) :=
    endJob_rises _ _ _ (State.setPr_rises (by decide) (Rises.refl e))
  have parts : RegisterParts s (tcLast e x cause) :=
    ((count_registerParts ..).trans (State.event_only ..)).trans (tcLast_registerParts e x cause)
  have here : (tcLast e x cause).job x.slot = some j :=
    (job_of_sched (congrArg SchedSt.jobs parts.sched) x.slot).trans filled
  obtain ⟨k, job, ended, status, detail, mem⟩ := endJobAs_ends (st := .translateFail) cause here (by decide)
  exact ⟨k, job, ended, status, detail,
    shown.bits _ (.inl (irq_mod .sched)) 1 (event_bit (s.count .sched Reg.SCHED_TC_FAILS) .sched 1 (by decide)),
    mem.trans parts.mem⟩

theorem exec_translateDone {s u : State} {i : Fin 1024} {x : Translating} {j : Job}
    (taken : takeTrans s i = some (x, j, u)) (inTime : u.devtime ≤ translateLimit u x) :
    exec (.translateDone i) s = .next (translateEnds u x j) := by
  change execTranslateDone i s = _
  simp only [execTranslateDone, taken, if_neg (not_lt.mpr inTime)]

theorem exec_translateTimeout {s u : State} {i : Fin 1024} {x : Translating} {j : Job}
    (taken : takeTrans s i = some (x, j, u)) (late : translateLimit s x ≤ s.devtime) :
    exec (.translateTimeout i) s = .next (translateFails u x 6) := by
  change execTranslateTimeout i s = _
  simp only [execTranslateTimeout, taken, if_pos late]

/-- A module without a cause of failure goes to its handle, where the cache has room. -/
theorem translateEnds_loads {s : State} {x : Translating} (j : Job) (sound : moduleCause x.bytes = 0)
    (room : cacheFull s = false) :
    ∃ detail, translateEnds s x j = loadDone (tcLast s x 0) x.slot j x.key x.bytes detail := by
  have room' : cacheFull (tcLast s x 0) = false := room
  simp only [translateEnds, sound, room', Bool.and_false, Bool.false_eq_true, if_false]
  exact ⟨_, rfl⟩

theorem translateEnds_fails {s : State} {x : Translating} (j : Job) (unsound : moduleCause x.bytes ≠ 0) :
    translateEnds s x j = translateFails s x (moduleCause x.bytes) := by
  unfold translateEnds
  split
  · next sound => exact absurd sound unsound
  · rfl

/-! Presents (R314). -/

/-- The shadow set of a layer with the addresses that a PRESENT writes. -/
def presentShadow (s : State) (p : Page) (body : List Nat) : State :=
  (presentWrites p body).foldl (fun s w => (s.setShd w.1 (w32 w.2)).noteWrite w.1) s

/-- Writes of shadow registers leave heads, slots and memory. -/
theorem presentShadow_keeps (s : State) (p : Page) (body : List Nat) :
    let t := presentShadow s p body
    t.heads = s.heads ∧ t.sched = s.sched ∧ t.mem = s.mem :=
  State.foldl_invariant (fun t => t.heads = s.heads ∧ t.sched = s.sched ∧ t.mem = s.mem) _ _ s ⟨rfl, rfl, rfl⟩
    fun _ _ h => h

theorem State.shd_setShd (s : State) (a b : Nat) (v : Word) :
    (s.setShd a v).shd b = if b = a then v else s.shd b := by
  by_cases h : b = a
  · subst h
    simp [State.shd, State.setShd]
  · rw [if_neg h]
    exact aget_aset_ne _ _ _ _ h

theorem State.shd_noteWrite (s : State) (a b : Nat) : (s.noteWrite a).shd b = s.shd b := rfl

/-- The first of the four addresses is the buffer's (R314). -/
theorem presentShadow_bufLo (s : State) (p : Page) (body : List Nat) :
    (presentShadow s p body).shd (pageBase p + Reg.LAYER_BUF_ADDR_LO) = w32 (bytesAt body 8 4) := by
  simp [presentShadow, presentWrites, State.shd_noteWrite, State.shd_setShd]

/-- A stage is put in the pending stages; beside them, the status of the commit is a register (R64, R66). -/
theorem stageShadow_registerParts (s : State) (p : Page) (m : Master) (seq cost : Nat) :
    RegisterParts (s.setPend p (some ⟨seq, m.code, shadowSet s p, cost⟩)) (stageShadow s p m seq cost) := by
  unfold stageShadow
  dsimp only
  split_ifs
  · exact RegisterParts.trans (State.setHd_only ..) (State.hwBits_only ..)
  · exact State.setHd_only ..

/-- A commit to a layer of a head that does not run stays pending (R66, R98). -/
theorem commitOp_stopped {s : State} {m : Master} {n l : Nat} (seq : Nat) (sound : commitCheck s (.layer n l) m = none)
    (stopped : (s.head n).running = false) :
    commitOp s m (.layer n l) seq = stageShadow s (.layer n l) m seq (commitCost s (.layer n l)) := by
  have still : ((stageShadow s (.layer n l) m seq (commitCost s (.layer n l))).head n).running = false := by
    rw [stageShadow_registerParts]
    exact stopped
  rw [commitOp, sound]
  simp [commitTiming, still]

/-- The stage that a commit leaves pending: its number; the shadow set, the slots and memory as before. -/
theorem stageShadow_stages (s : State) (p : Page) (m : Master) (seq cost : Nat) :
    let t := stageShadow s p m seq cost
    (t.pend p).map (·.seq) = some seq ∧ (∀ a, t.shd a = s.shd a) ∧ t.sched = s.sched ∧ t.mem = s.mem := by
  have parts := stageShadow_registerParts s p m seq cost
  have pends : (stageShadow s p m seq cost).pends = (s.setPend p (some ⟨seq, m.code, shadowSet s p, cost⟩)).pends := by
    rw [parts]
  have staged := State.pend_setPend s p (some ⟨seq, m.code, shadowSet s p, cost⟩)
  refine ⟨?_, fun a => ?_, parts.sched, parts.mem⟩
  · rw [State.pend] at staged
    rw [State.pend, pends, staged]
    rfl
  · rw [parts]
    rfl

/-- A present whose writes no check refuses goes on to its commit, and its job to its end. -/
theorem presentOp_allowed {s : State} {j : Job} {n l : Nat} (i : Nat) (hn : n < 12) (hl : l < 15)
    (head : bytesAt j.body 0 1 % 16 = n) (layer : bytesAt j.body 1 1 % 16 = l)
    (allowed : ∀ a, a ∈ (presentWrites (.layer n l) j.body).map (·.1) ∨ a = hadr (.layer n l) .commit →
      refusalOf s (ringMaster j.rs) a = none)
    (sound : commitCheck (presentShadow s (.layer n l) j.body) (.layer n l) (ringMaster j.rs) = none) :
    presentOp s i j = endJobAs ((commitOp (presentShadow s (.layer n l) j.body) (ringMaster j.rs) (.layer n l)
      (bytesAt j.body 2 2)).noteWrite (hadr (.layer n l) .commit)) i .ok 0 := by
  have unrefused : (((presentWrites (.layer n l) j.body).map (·.1)) ++ [hadr (.layer n l) .commit]).findSome?
      (fun a => (refusalOf s (ringMaster j.rs) a).map (fun r => (a, r))) = none := by
    rw [List.findSome?_eq_none_iff]
    intro a ha
    rw [allowed a (by simpa using ha)]
    rfl
  unfold presentShadow at sound
  simp only [presentOp, head, layer, unrefused, sound, if_neg (show ¬(11 < n ∨ 14 < l) by omega)]
  rfl

/-- For a head that does not run the commit stays pending, and the job ends with OK. -/
theorem presentOp_commits {s : State} {j : Job} {n l i : Nat} (hn : n < 12) (hl : l < 15)
    (filled : s.job i = some j) (head : bytesAt j.body 0 1 % 16 = n) (layer : bytesAt j.body 1 1 % 16 = l)
    (allowed : ∀ a, a ∈ (presentWrites (.layer n l) j.body).map (·.1) ∨ a = hadr (.layer n l) .commit →
      refusalOf s (ringMaster j.rs) a = none)
    (sound : commitCheck (presentShadow s (.layer n l) j.body) (.layer n l) (ringMaster j.rs) = none)
    (stopped : (s.head n).running = false) :
    ∃ k, (presentOp s i j).job i = some k ∧ k.phase = .ended ∧ k.status = 0 ∧
      ((presentOp s i j).pend (.layer n l)).map (·.seq) = some (bytesAt j.body 2 2) ∧
      (presentOp s i j).shd (pageBase (.layer n l) + Reg.LAYER_BUF_ADDR_LO) = w32 (bytesAt j.body 8 4) ∧
      (presentOp s i j).mem = s.mem := by
  have kept := presentShadow_keeps s (.layer n l) j.body
  have bufLo := presentShadow_bufLo s (.layer n l) j.body
  rw [presentOp_allowed i hn hl head layer allowed sound]
  generalize presentShadow s (.layer n l) j.body = u at kept bufLo sound ⊢
  obtain ⟨heads, sched, mem⟩ := kept
  have idle : (u.head n).running = false := by rwa [State.head, heads]
  rw [commitOp_stopped _ sound idle]
  obtain ⟨stage, shadow, sched', mem'⟩ := stageShadow_stages u (.layer n l) (ringMaster j.rs) (bytesAt j.body 2 2)
    (commitCost u (.layer n l))
  generalize stageShadow u (.layer n l) (ringMaster j.rs) (bytesAt j.body 2 2) (commitCost u (.layer n l)) = v at *
  have here : (v.noteWrite (hadr (.layer n l) .commit)).job i = some j :=
    (job_of_sched (congrArg SchedSt.jobs (sched'.trans sched)) i).trans filled
  obtain ⟨k, job, ended, status, -, kept⟩ := endJobAs_ends (st := .ok) 0 here (by decide)
  obtain ⟨pend, shd⟩ := endJobAs_stages (st := .ok) 0 here (by decide)
  refine ⟨k, job, ended, status, ?_, ?_, kept.trans (mem'.trans mem)⟩
  · rw [pend]
    exact stage
  · rw [shd]
    exact (shadow _).trans bufLo

theorem exec_present {s : State} {i : Fin 1024} {j : Job} (ready : readyJob s i 0x41 = some j)
    (fresh : jobStale s j = false) : exec (.present i) s = .next (presentOp s i j) := by
  change execPresent i s = _
  simp [execPresent, ready, fresh]

/-! Compute jobs and watchdogs (R310, R316, R324). -/

theorem exec_compute {s : State} {i : Fin 1024} {j : Job} (ready : readyJob s i 2 = some j) :
    exec (.compute i) s = .next (computeStart s i j) := by
  change execCompute i s = _
  rw [execCompute, ready]

theorem computeStart_noModule {s : State} {i : Nat} {j : Job} (bays : baysIn s ≠ [])
    (missing : entryOf (moduleOf s j.rs (bytesAt j.body 0 2)) (bytesAt j.body 2 1) 2 = none) :
    computeStart s i j = endJobAs s i .noModule (bytesAt j.body 0 2) := by
  simp [computeStart, bays, missing]

theorem computeStart_emptyGrid {s : State} {i : Nat} {j : Job} (bays : baysIn s ≠ [])
    (found : entryOf (moduleOf s j.rs (bytesAt j.body 0 2)) (bytesAt j.body 2 1) 2 ≠ none) (empty : gridTotal j = 0) :
    computeStart s i j = endJobAs s i .badState 0 := by
  obtain ⟨e, he⟩ := Option.ne_none_iff_exists'.mp found
  simp [computeStart, bays, he, empty]

/-- A compute job with a module and a grid runs, with all its workgroups still to come. -/
theorem computeStart_runs {s : State} {i : Nat} {j : Job} (bays : baysIn s ≠ [])
    (found : entryOf (moduleOf s j.rs (bytesAt j.body 0 2)) (bytesAt j.body 2 1) 2 ≠ none) (grid : gridTotal j ≠ 0) :
    ∃ k, computeStart s i j = s.setJob i (some k) ∧ k.phase = .running ∧ k.comp.total = gridTotal j ∧
      k.comp.nextWg = 0 := by
  obtain ⟨e, he⟩ := Option.ne_none_iff_exists'.mp found
  simp only [computeStart, bays, he, grid, if_false]
  exact ⟨_, rfl, rfl, rfl, rfl⟩

theorem exec_jobWatchdog {s : State} {i : Fin 1024} {j : Job} (filled : s.job i = some j) (running : j.phase = .running)
    (compute : j.op = 2)
    (long : 1000000000 * s.pf .sched Reg.SCHED_WATCHDOG 31 24 < runningNs s j) :
    exec (.jobWatchdog i) s = .next (endJobAs s i .watchdog 0) := by
  change execJobWatchdog i s = _
  rw [execJobWatchdog, filled]
  exact if_pos ⟨running, compute, long⟩

theorem exec_tileWatchdog {s : State} {i : Fin 1024} {tile : Nat} {j : Job} (filled : s.job i = some j)
    (running : j.phase = .running) (flies : j.rend.flying.any (fun e => e.1 == tile) = true)
    (long : aget 0 j.rend.tileAt tile + 1000 * s.pf .sched Reg.SCHED_WATCHDOG 15 0 < s.devtime) :
    exec (.tileWatchdog i tile) s = .next (endJobAs s i .watchdog 0) := by
  change execTileWatchdog i tile s = _
  rw [execTileWatchdog, filled]
  exact if_pos ⟨running, flies, long⟩

/-- Settles O41: each job's command ends in `endJobAs`, whose slot is `endJobAs_ends`, or in a job that runs; a present
goes through `commitOp`, which leaves its stage pending for a head that does not run. -/
theorem jobKinds : Obligations.JobKinds := by
  refine ⟨?nop, ?load, ?unload, ?translated, ?timeout, ?present, ?compute, ?jobLong, ?tileLong⟩
  case nop =>
    intro i j s ready
    obtain ⟨k, job, ended, status, -, mem⟩ := endJobAs_ends (st := .ok) 0 (readyJob_some ready) (by decide)
    exact ⟨_, k, exec_nop ready, job, ended, status, mem⟩
  case load =>
    intro i j b s v ready inRange free turn read empty
    have ran := (exec_moduleLoad ready inRange free turn read).trans
      (congrArg Host.Outcome.next (loadStart_translates i j b empty))
    have counted : ((translating v i j b).count .sched Reg.SCHED_TC_MISSES).pr .sched Reg.SCHED_TC_MISSES =
        v.pr .sched Reg.SCHED_TC_MISSES + 1 := by
      rw [State.count, State.pr_setPr, translating_misses]
    exact ⟨_, _, ran, (State.job_count ..).trans (translating_job ..), rfl, rfl, counted, rfl⟩
  case unload =>
    intro i j s ready inRange taken
    obtain ⟨k, job, ended, status, -, mem⟩ := 
      endJobAs_ends (s := dropHandle s j.rs (bytesAt j.body 0 2)) (st := .ok) 0 (readyJob_some ready) (by decide)
    exact ⟨_, k, exec_moduleUnload ready inRange taken, job, ended, status,
      (endJobAs_handles ..).trans (handleOf_dropHandle ..), mem⟩
  case translated =>
    intro i x j s u taken slot inTime free room
    obtain ⟨here, clock, handles, mem⟩ := takeTrans_takes taken
    have unheld : handleOf (tcLast u x 0) j.rs (bytesAt j.body 12 2) = none := by
      rw [← free, handleOf, handleOf, ← handles]
      rfl
    have ran := exec_translateDone taken (clock.trans_le inTime)
    rw [← slot] at here ⊢
    by_cases sound : moduleCause x.bytes = 0
    · obtain ⟨detail, loads⟩ := translateEnds_loads j sound room
      obtain ⟨k, job, ended, status, handle, kept⟩ :=
        loadDone_takes (s := tcLast u x 0) x.key x.bytes detail here unheld
      rw [loads] at ran
      exact ⟨_, k, ran, job, ended, kept.trans mem, fun _ => ⟨status, handle⟩, fun unsound => absurd sound unsound⟩
    · obtain ⟨k, job, ended, status, detail, shown, kept⟩ := translateFails_fails (moduleCause x.bytes) here
      rw [translateEnds_fails j sound] at ran
      exact ⟨_, k, ran, job, ended, kept.trans mem, fun zero => absurd zero sound, fun _ => ⟨status, detail, shown⟩⟩
  case timeout =>
    intro i x j s u taken slot late
    obtain ⟨here, -, -, mem⟩ := takeTrans_takes taken
    rw [← slot] at here
    obtain ⟨k, job, ended, status, detail, shown, kept⟩ := translateFails_fails 6 here
    exact ⟨_, k, exec_translateTimeout taken late, slot ▸ job, ended, status, detail, shown, kept.trans mem⟩
  case present =>
    intro i j n l s ready fresh head layer m p u allowed sound stopped
    obtain ⟨k, job, ended, status, stage, bufLo, mem⟩ :=
      presentOp_commits n.isLt l.isLt (readyJob_some ready) head layer allowed sound stopped
    exact ⟨_, k, exec_present ready fresh, job, ended, status, stage, bufLo, mem⟩
  case compute =>
    intro i j s ready bays x
    have ran := exec_compute ready
    have filled := readyJob_some ready
    rcases eq_or_ne x none with missing | found
    · obtain ⟨k, job, ended, status, detail, mem⟩ :=
        endJobAs_ends (st := .noModule) (bytesAt j.body 0 2) filled (by decide)
      rw [computeStart_noModule bays missing] at ran
      exact ⟨_, k, ran, job, mem, fun _ => ⟨ended, status, detail⟩, fun found => absurd missing found,
        fun found => absurd missing found⟩
    rcases eq_or_ne (gridTotal j) 0 with empty | grid
    · obtain ⟨k, job, ended, status, -, mem⟩ := endJobAs_ends (st := .badState) 0 filled (by decide)
      rw [computeStart_emptyGrid bays found empty] at ran
      exact ⟨_, k, ran, job, mem, fun missing => absurd missing found, fun _ _ => ⟨ended, status⟩,
        fun _ grid => absurd empty grid⟩
    · obtain ⟨k, runs, running, total, first⟩ := computeStart_runs bays found grid
      rw [runs] at ran
      exact ⟨_, k, ran, State.job_setJob .., rfl, fun missing => absurd missing found, fun _ empty => absurd empty grid,
        fun _ _ => ⟨running, total, first⟩⟩
  case jobLong =>
    intro i j s filled running compute long
    obtain ⟨k, job, ended, status, -, mem⟩ := endJobAs_ends (st := .watchdog) 0 filled (by decide)
    exact ⟨_, k, exec_jobWatchdog filled running compute long, job, ended, status, mem⟩
  case tileLong =>
    intro i tile j s filled running flies long
    obtain ⟨k, job, ended, status, -, mem⟩ := endJobAs_ends (st := .watchdog) 0 filled (by decide)
    exact ⟨_, k, exec_tileWatchdog filled running flies long, job, ended, status, mem⟩

end Sys2Proof.Machine
end

section
/-!
SUPPORT. Fields and pairs of a page's registers after a write, and what an update leaves of those it does not name.
-/
namespace Sys2Proof.Machine

theorem RegsBut.pf {s t : State} {l : List Nat} (h : RegsBut s t l) {p : Page} {o : Nat} (apart : pageBase p + o ∉ l)
    (hi lo : Nat) : t.pf p o hi lo = s.pf p o hi lo :=
  congrArg (fget · hi lo) (h _ apart)

theorem RegsBut.pair {s t : State} {l : List Nat} (h : RegsBut s t l) {p : Page} {o : Nat} (low : pageBase p + o ∉ l)
    (high : pageBase p + (o + 4) ∉ l) : t.pair p o = s.pair p o := by
  rw [State.pair, State.pr, State.pr, h _ low, h _ high, State.pair, State.pr, State.pr]

theorem State.pf_setPf {s : State} {p : Page} {o v hi lo : Nat} (order : lo ≤ hi) (word : hi < 32) :
    (s.setPf p o hi lo v).pf p o hi lo = v % 2 ^ (hi + 1 - lo) := by
  rw [State.pf, State.setPf, State.pr_setPr]
  exact fget_fset _ _ order word

theorem State.pf_setPf_otherField {s : State} {p : Page} {o v hi lo hi' lo' : Nat} (order : lo ≤ hi) (word : hi < 32)
    (apart : hi' < lo ∨ hi < lo') : (s.setPf p o hi lo v).pf p o hi' lo' = s.pf p o hi' lo' := by
  rw [State.pf, State.setPf, State.pr_setPr]
  exact fget_fset_other _ _ order word apart

theorem State.pf_setPf_otherReg {s : State} {p : Page} {v hi lo hi' lo' o o' : Nat} (other : o' ≠ o) :
    (s.setPf p o hi lo v).pf p o' hi' lo' = s.pf p o' hi' lo' :=
  congrArg (fget · hi' lo') ((State.reg_setPf ..).trans (if_neg (by omega)))

theorem setPair_regsBut {s : State} {p : Page} {o v : Nat} {l : List Nat} (low : pageBase p + o ∈ l)
    (high : pageBase p + (o + 4) ∈ l) : RegsBut s (s.setPair p o v) l :=
  (setPr_regsBut low).trans (setPr_regsBut high)

/-- A pair reads the 64-bit value written to it. -/
theorem State.pair_setPair (s : State) (p : Page) (o : Nat) {v : Nat} (fits : v < 2 ^ 64) :
    (s.setPair p o v).pair p o = v := by
  have apart : pageBase p + o ≠ pageBase p + (o + 4) := by omega
  rw [State.pair, State.pr, State.pr, State.setPair, State.reg_setPr, if_neg apart, State.reg_setPr, if_pos rfl,
    State.reg_setPr, if_pos rfl, w32_toNat, w32_toNat]
  omega

/-- t differs from s in nothing but registers. -/
def RegsOnly (s t : State) : Prop := t = { s with regs := t.regs }

theorem RegsOnly.trans {s t u : State} (h : RegsOnly s t) (k : RegsOnly t u) : RegsOnly s u := by
  unfold RegsOnly at *
  rw [k, h]

theorem setPr_regsOnly (s : State) (p : Page) (o : Nat) (v : Word) : RegsOnly s (s.setPr p o v) := rfl

theorem setPf_regsOnly (s : State) (p : Page) (o hi lo v : Nat) : RegsOnly s (s.setPf p o hi lo v) :=
  setPr_regsOnly ..

theorem count_regsOnly (s : State) (p : Page) (o : Nat) : RegsOnly s (s.count p o) := setPr_regsOnly ..

end Sys2Proof.Machine
end

section
/-!
SUPPORT. CH_STATUS of a channel, and a channel that leaves self-refresh (R362, R363, R366).
-/
namespace Sys2Proof.Machine

theorem chStatus_setChStatus (s : State) (c v : Nat) {hi lo : Nat} (order : lo ≤ hi) (word : hi < 32) :
    chStatus (setChStatus s c hi lo v) c hi lo = v % 2 ^ (hi + 1 - lo) :=
  State.pf_setPf order word

theorem setChStatus_regsBut {s : State} {c hi lo v : Nat} {l : List Nat}
    (h : pageBase (.memch c) + Reg.MEMCH_CH_STATUS ∈ l) : RegsBut s (setChStatus s c hi lo v) l := setPf_regsBut h

/-- The registers of a channel that leaving self-refresh writes. -/
def wakeRegs (c : Nat) : List Nat := [pageBase (.memch c) + Reg.MEMCH_CH_STATUS, hadr (.memch c) .irqStatus]

theorem leaveSelfRefresh_regsBut (s : State) (c : Nat) : RegsBut s (leaveSelfRefresh s c) (wakeRegs c) := by
  unfold leaveSelfRefresh
  split
  · exact fun _ _ => rfl
  · exact RegsBut.trans (setPf_regsBut (.head _)) (event_regsBut (.tail _ (.head _)))

theorem leaveSelfRefresh_registerParts (s : State) (c : Nat) : RegisterParts s (leaveSelfRefresh s c) := by
  unfold leaveSelfRefresh
  split
  · rfl
  · exact RegisterParts.trans (State.setPr_only ..) (State.event_only ..)

/-- The event register of a page stands apart from the registers of its body. -/
theorem memch_ne_irq (c : Nat) {o : Nat} (body : 0x100 ≤ o) :
    pageBase (.memch c) + o ≠ hadr (.memch c) .irqStatus := by
  simp only [hadr, hdrOff]
  omega

/-- A request has reached a channel, whose idle time starts again. -/
def requested (s : State) (c : Nat) : State :=
  { s with mem := { s.mem with lastReq := aset 0 s.mem.lastReq c s.devtime } }

theorem leaveSelfRefresh_requested (s : State) (c : Nat) :
    let t := leaveSelfRefresh (requested s c) c
    t = { s with regs := t.regs, cyc := t.cyc, mem := t.mem } ∧ t.mem = (requested s c).mem := by
  have parts := leaveSelfRefresh_registerParts (requested s c) c
  exact ⟨by rw [parts]; rfl, parts.mem⟩

/-- A channel in self-refresh leaves it, with an event. -/
theorem leaveSelfRefresh_wakes {s : State} {c : Nat} (sleeps : chStatus s c 2 2 = 1) :
    chStatus (leaveSelfRefresh s c) c 2 2 = 0 ∧ fbit ((leaveSelfRefresh s c).hd (.memch c) .irqStatus) 0 = true := by
  rw [leaveSelfRefresh, if_neg (by omega)]
  refine ⟨?_, event_bit _ _ _ (by decide)⟩
  have silent := event_regsBut (s := setChStatus s c 2 2 0) (p := .memch c) (k := 0) (List.mem_singleton_self _)
  have status := silent.pf (o := Reg.MEMCH_CH_STATUS) (by simpa using memch_ne_irq c (by decide)) 2 2
  exact status.trans (chStatus_setChStatus s c 0 (by decide) (by decide))

end Sys2Proof.Machine
end

section
/-!
PROOF. What device memory does by itself: the scrubber, refresh, retraining, self-refresh and initialisation (R33,
R357 to R364, R529).
-/
namespace Sys2Proof.Machine

/-! The scrubber (R357, R358). -/

/-- The stripe's 32 pages have been under the scrubber. -/
def scrubbed (s : State) (stripe : Nat) : State := (List.range 32).foldl (fun s j => scrubPage s (32 * stripe + j)) s

theorem exec_scrubStripe_moves {s : State} {k : Nat} (position : s.pf .memctl Reg.MEMCTL_SCRUB_POS 19 0 = k)
    (works : s.mem.scrubWait = false) (mapped : stripes s ≠ 0) (more : k + 1 < stripes (scrubbed s k)) :
    exec .scrubStripe s = .next ((scrubbed s k).setPf .memctl Reg.MEMCTL_SCRUB_POS 19 0 (k + 1)) := by
  subst position
  change execScrubStripe s = _
  rw [execScrubStripe, if_neg (by simp [works, mapped])]
  exact if_pos more

theorem exec_scrubPeriodStart_starts {s : State} (waits : s.mem.scrubWait = true)
    (due : s.mem.scrubStart + scrubPeriod s ≤ s.devtime) :
    exec .scrubPeriodStart s =
      .next { s with mem := { s.mem with scrubWait := false, scrubStart := s.devtime } } := by
  change execScrubPeriodStart s = _
  exact if_pos (by simp [waits, due])

/-! Refresh (R359). -/

theorem exec_refreshInterval_counts {c : Fin 32} {issued : Fin 10} {s : State}
    (few : chStatus s c 15 12 + 1 - issued.val < 8) :
    exec (.refreshInterval c issued) s = .next (setChStatus s c 15 12 (chStatus s c 15 12 + 1 - issued.val)) := by
  change execRefreshInterval c issued s = _
  exact if_neg (not_le.mpr few)

/-- Eight refreshes are owed: none is after the forced one, which is counted. -/
def refreshForced (s : State) (c : Nat) : State := (setChStatus s c 15 12 0).count (.memch c) Reg.MEMCH_FORCED_REFAB

theorem exec_refreshInterval_forces {c : Fin 32} {issued : Fin 10} {s : State}
    (owed : 8 ≤ chStatus s c 15 12 + 1 - issued.val) :
    exec (.refreshInterval c issued) s = .next (raiseFault (refreshForced s c) (.memch c) 3) := by
  change execRefreshInterval c issued s = _
  exact if_pos owed

/-- The registers of a channel stand apart from the sticky registers and from HW_CTRL. -/
theorem memch_apart (c : Fin 32) {o : Nat} (body : 0x100 ≤ o) (page : o < 0x1000) :
    (pageBase (.memch c) + o) % 4096 ≠ 0x18 ∧ (pageBase (.memch c) + o) % 4096 ≠ 0x24 ∧
      pageBase (.memch c) + o ≠ 0x411000 + Reg.WORLD_HW_CTRL := by
  have channel := c.isLt
  simp only [pageBase, Reg.WORLD_HW_CTRL]
  omega

theorem refreshForced_rises (s : State) (c : Fin 32) : Rises s (refreshForced s c) :=
  State.count_rises (memch_apart c (by decide) (by decide))
    (State.setPf_rises (memch_apart c (by decide) (by decide)) (Rises.refl s))

/-! Retraining (R33, R359, R361). -/

theorem retrainNext_idle {s : State} (idle : s.mem.retrainDue = []) : retrainNext s = s := by
  simp [retrainNext, idle]

/-- A poll shows the refresh rate and the temperature. -/
def polled (s : State) (c : Nat) (rate : BitVec 4) (temp : BitVec 8) : State :=
  (setChStatus s c 11 8 rate.toNat).setPf (.memch c) Reg.MEMCH_TEMP 15 8 temp.toNat

theorem polled_trained (s : State) (c : Nat) (rate : BitVec 4) (temp : BitVec 8) :
    (polled s c rate temp).pf (.memch c) Reg.MEMCH_TEMP 7 0 = s.pf (.memch c) Reg.MEMCH_TEMP 7 0 := by
  rw [polled, State.pf_setPf_otherField (by omega) (by omega) (by omega)]
  exact State.pf_setPf_otherReg (by decide)

theorem polled_shows (s : State) (c : Nat) (rate : BitVec 4) (temp : BitVec 8) :
    chStatus (polled s c rate temp) c 11 8 = rate.toNat ∧
      (polled s c rate temp).pf (.memch c) Reg.MEMCH_TEMP 15 8 = temp.toNat := by
  constructor
  · rw [polled, chStatus, State.pf_setPf_otherReg (by decide), ← chStatus,
      chStatus_setChStatus _ _ _ (by decide) (by decide)]
    exact Nat.mod_eq_of_lt rate.isLt
  · rw [polled, State.pf_setPf (by decide) (by decide)]
    exact Nat.mod_eq_of_lt temp.isLt

/-- A move of less than 5 °C since the last retraining makes none due. -/
theorem exec_tempPoll_steady {c : Fin 32} {rate : BitVec 4} {temp : BitVec 8} {s : State} (idle : s.mem.retrainDue = [])
    (below : sext temp.toNat 8 - sext (s.pf (.memch c) Reg.MEMCH_TEMP 7 0) 8 < 5)
    (above : -5 < sext temp.toNat 8 - sext (s.pf (.memch c) Reg.MEMCH_TEMP 7 0) 8) :
    exec (.tempPoll c rate temp) s = .next (polled s c rate temp) := by
  rw [← polled_trained s c rate temp] at below above
  have steady : ¬ (5 ≤ sext temp.toNat 8 - sext ((polled s c rate temp).pf (.memch c) Reg.MEMCH_TEMP 7 0) 8 ∨
      sext temp.toNat 8 - sext ((polled s c rate temp).pf (.memch c) Reg.MEMCH_TEMP 7 0) 8 ≤ -5) := by omega
  change execTempPoll c rate temp s = _
  exact congrArg Host.Outcome.next ((if_neg steady).trans (retrainNext_idle idle))

/-- A channel that may pause and does not sleep, and for which alone retraining is due, pauses. -/
theorem retrainNext_starts {s : State} {c : Nat} (due : s.mem.retrainDue = [c]) (may : mayRetrain s c = true)
    (awake : chStatus s c 2 2 = 0) :
    retrainNext s = setChStatus { s with mem := { s.mem with retrainDue := [] } } c 3 3 1 := by
  have first : s.mem.retrainDue.find? (mayRetrain s) = some c := by simp [due, may]
  rw [retrainNext, first]
  simp [leaveSelfRefresh, awake, due]

theorem mayRetrain_runs {s : State} {c : Fin 32} (may : mayRetrain s c = true) : chStatus s c 3 3 = 0 := by
  have running := List.all_eq_true.mp (Bool.and_eq_true_iff.mp may).1
  exact eq_of_beq (running c (List.mem_range.mpr c.isLt))

/-- With no channel paused and no other waiting, retraining starts at once. -/
theorem exec_periodicRetrain_starts {c : Fin 32} {s : State} (idle : s.mem.retrainDue = [])
    (may : mayRetrain s c = true) (awake : chStatus s c 2 2 = 0) :
    exec (.periodicRetrain c) s = .next (setChStatus s c 3 3 1) := by
  have due : retrainFallsDue s c = retrainNext { s with mem := { s.mem with retrainDue := [c.val] } } := by
    rw [retrainFallsDue, if_neg (by simp [idle, mayRetrain_runs may]), idle, List.nil_append]
  have starts := retrainNext_starts (s := { s with mem := { s.mem with retrainDue := [c.val] } }) rfl may awake
  change Host.Outcome.next (retrainFallsDue s c) = _
  rw [due, starts, ← idle]

/-- The pause of a channel has ended. -/
def resumed (s : State) (c : Nat) : State := setChStatus s c 3 3 0

/-- A retraining is counted, in the field of those that were done or of those that failed. -/
def retrainCounted (s : State) (c hi lo : Nat) : State :=
  s.setPf (.memch c) Reg.MEMCH_RETRAINS hi lo (s.pf (.memch c) Reg.MEMCH_RETRAINS hi lo + 1)

/-- The temperature of the latest poll is that of the last retraining. -/
def tempTaken (s : State) (c : Nat) : State :=
  s.setPf (.memch c) Reg.MEMCH_TEMP 7 0 (s.pf (.memch c) Reg.MEMCH_TEMP 15 8)

theorem retrained_shows (s : State) (c : Nat) :
    let t := tempTaken (retrainCounted (resumed s c) c 15 0) c
    chStatus t c 3 3 = 0 ∧
      t.pf (.memch c) Reg.MEMCH_RETRAINS 15 0 = (s.pf (.memch c) Reg.MEMCH_RETRAINS 15 0 + 1) % 65536 ∧
      t.pf (.memch c) Reg.MEMCH_TEMP 7 0 = s.pf (.memch c) Reg.MEMCH_TEMP 15 8 := by
  refine ⟨?_, ?_, ?_⟩
  · rw [chStatus, tempTaken, State.pf_setPf_otherReg (by decide), retrainCounted,
      State.pf_setPf_otherReg (by decide)]
    exact chStatus_setChStatus s c 0 (by decide) (by decide)
  · rw [tempTaken, State.pf_setPf_otherReg (by decide), retrainCounted,
      State.pf_setPf (by decide) (by decide), resumed, setChStatus,
      State.pf_setPf_otherReg (by decide)]
    rfl
  · rw [tempTaken, State.pf_setPf (by decide) (by decide), retrainCounted,
      State.pf_setPf_otherReg (by decide), resumed, setChStatus,
      State.pf_setPf_otherReg (by decide)]
    exact Nat.mod_eq_of_lt (fget_lt ..)

theorem exec_retrainDone_done {c : Fin 32} {s : State} (pauses : chStatus s c 3 3 = 1) (idle : s.mem.retrainDue = []) :
    exec (.retrainDone c true) s = .next (tempTaken (retrainCounted (resumed s c) c 15 0) c) := by
  change execRetrainDone c true s = _
  rw [execRetrainDone, if_neg (by omega)]
  exact congrArg Host.Outcome.next (retrainNext_idle idle)

theorem retrainFailed_rises (s : State) (c : Fin 32) :
    Rises s (raiseFault (retrainCounted (resumed s c) c 31 16) (.memch c) 2) :=
  raiseFault_rises _ _ _ (State.setPf_rises (memch_apart c (by decide) (by decide))
    (State.setPf_rises (memch_apart c (by decide) (by decide)) (Rises.refl s)))

theorem exec_retrainDone_failed {c : Fin 32} {s : State} (pauses : chStatus s c 3 3 = 1)
    (idle : s.mem.retrainDue = []) :
    exec (.retrainDone c false) s = .next (raiseFault (retrainCounted (resumed s c) c 31 16) (.memch c) 2) := by
  have still : (raiseFault (retrainCounted (resumed s c) c 31 16) (.memch c) 2).mem.retrainDue = [] :=
    (congrArg MemSt.retrainDue (retrainFailed_rises s c).keeps.mem).trans idle
  change execRetrainDone c false s = _
  rw [execRetrainDone, if_neg (by omega)]
  exact congrArg Host.Outcome.next (retrainNext_idle still)

/-! Self-refresh (R362, R363). -/

/-- A channel has entered self-refresh, which is counted. -/
def asleep (s : State) (c : Nat) : State := (setChStatus s c 2 2 1).count (.memch c) Reg.MEMCH_SR_COUNT

theorem asleep_shows (s : State) (c : Nat) :
    chStatus (asleep s c) c 2 2 = 1 ∧
      (asleep s c).pr (.memch c) Reg.MEMCH_SR_COUNT = s.pr (.memch c) Reg.MEMCH_SR_COUNT + 1 := by
  have counted := count_regsBut (s := setChStatus s c 2 2 1) (p := .memch c) (o := Reg.MEMCH_SR_COUNT)
    (List.mem_singleton_self _)
  have entered := setChStatus_regsBut (s := s) (c := c) (hi := 2) (lo := 2) (v := 1) (List.mem_singleton_self _)
  constructor
  · exact (counted.pf (o := Reg.MEMCH_CH_STATUS) (by simp) 2 2).trans
      (chStatus_setChStatus s c 1 (by decide) (by decide))
  · rw [asleep, State.count, State.pr_setPr, State.pr, entered _ (by simp), State.pr]

theorem exec_selfRefreshEntry_enters {c : Fin 32} {s : State} (enabled : fbit (s.pr (.memch c) Reg.MEMCH_SR_CFG) 0 = true)
    (free : fbit (s.pr (.memch c) Reg.MEMCH_SR_CFG) 1 = false)
    (idle : aget 0 s.mem.lastReq c + 1000 * fget (s.pr (.memch c) Reg.MEMCH_SR_CFG) 31 16 ≤ s.devtime)
    (trained : s.mem.retrainDue.contains c.val = false) (runs : chStatus s c 3 3 = 0) (awake : chStatus s c 2 2 = 0)
    (unpinned : realTimePins s = false) : exec (.selfRefreshEntry c) s = .next (asleep s c) := by
  change execSelfRefreshEntry c s = _
  exact if_pos (by simp only [enabled, free, idle, trained, runs, awake, unpinned]; decide)

theorem exec_selfRefreshExit (s : State) (c : Fin 32) :
    exec (.selfRefreshExit c) s = .next (leaveSelfRefresh (requested s c) c) := rfl

/-! The longest stale window (R364), and initialisation (R529). -/

theorem recodeCfgOp_clears {s : State} {v : Word} (clear : fbit v 31 = true) :
    recodeCfgOp s v = (s.setPr .memctl Reg.MEMCTL_RECODE_CFG (v &&& 0x3F)).setPair .memctl
      Reg.MEMCTL_STALE_WINDOW_MAX_LO 0 :=
  if_pos clear

/-- RECODE_CFG has taken its value, and the longest stale window is cleared. -/
def windowCleared (s : State) (v : Word) : State :=
  ((s.setPr .memctl Reg.MEMCTL_RECODE_CFG (v &&& 0x3F)).setPair .memctl Reg.MEMCTL_STALE_WINDOW_MAX_LO 0).noteWrite
    (pageBase .memctl + Reg.MEMCTL_RECODE_CFG)

/-- The registers of the longest stale window. -/
def staleWindowRegs : List Nat :=
  [pageBase .memctl + Reg.MEMCTL_STALE_WINDOW_MAX_LO, pageBase .memctl + (Reg.MEMCTL_STALE_WINDOW_MAX_LO + 4)]

theorem windowCleared_shows (s : State) (v : Word) :
    (windowCleared s v).reg (pageBase .memctl + Reg.MEMCTL_RECODE_CFG) = v &&& 0x3F ∧
      (windowCleared s v).pair .memctl Reg.MEMCTL_STALE_WINDOW_MAX_LO = 0 := by
  let u := s.setPr .memctl Reg.MEMCTL_RECODE_CFG (v &&& 0x3F)
  have cleared : RegsBut u (u.setPair .memctl Reg.MEMCTL_STALE_WINDOW_MAX_LO 0) staleWindowRegs :=
    setPair_regsBut (.head _) (.tail _ (.head _))
  have noted : RegsBut (u.setPair .memctl Reg.MEMCTL_STALE_WINDOW_MAX_LO 0) (windowCleared s v) [] :=
    fun _ _ => State.noteWrite_reg ..
  constructor
  · rw [noted _ List.not_mem_nil, cleared _ (by decide), State.reg_setPr, if_pos rfl]
  · rw [noted.pair List.not_mem_nil List.not_mem_nil, State.pair_setPair _ _ _ (by decide)]

theorem windowCleared_mem (s : State) (v : Word) : (windowCleared s v).mem = s.mem := by simp [windowCleared]

theorem windowCleared_regsBut (s : State) (v : Word) :
    RegsBut s (windowCleared s v) ((pageBase .memctl + Reg.MEMCTL_RECODE_CFG) :: staleWindowRegs) :=
  noteWrite_regsBut (RegsBut.trans (setPr_regsBut (.head _))
    (setPair_regsBut (.tail _ (.head _)) (.tail _ (.tail _ (.head _)))))

theorem exec_clrMax_clears {m : Master} {v : Word} {s : State}
    (accepts : Accepts s m (pageBase .memctl + Reg.MEMCTL_RECODE_CFG)) (least : 1 ≤ fget v 5 0) (most : fget v 5 0 ≤ 50)
    (clear : fbit v 31 = true) :
    exec (.clrMax m v) s = .next (windowCleared (taken s m (pageBase .memctl + Reg.MEMCTL_RECODE_CFG)) v) := by
  have inRange : recodeCfgCheck v = none := if_pos ⟨least, most⟩
  change execClrMax m v s = _
  rw [execClrMax, writeReg_taken accepts inRange, recodeCfgOp_clears clear, windowCleared]

/-- The registers of the initialisation watermark. -/
def initWmRegs : List Nat := [pageBase .dev + Reg.DEV_MEM_INIT_WM_LO, pageBase .dev + (Reg.DEV_MEM_INIT_WM_LO + 4)]

theorem initWm_regsBut (s : State) (wm : Nat) : RegsBut s (s.setPair .dev Reg.DEV_MEM_INIT_WM_LO wm) initWmRegs :=
  setPair_regsBut (.head _) (.tail _ (.head _))

/-- The watermark of initialisation is at wm, and the pages below it are no longer listed as written. -/
def initialised (s : State) (wm : Nat) : State :=
  let u := s.setPair .dev Reg.DEV_MEM_INIT_WM_LO wm
  { u with mem := { u.mem with touched := u.mem.touched.filter (fun p => wm ≤ 4096 * p) } }

theorem exec_memInitStripe_rises {s : State} (works : s.mem.initOn = true) (below : initWm s + 0x20000 < memTop s) :
    exec .memInitStripe s = .next (initialised s (initWm s + 0x20000)) := by
  have top : memTop (s.setPair .dev Reg.DEV_MEM_INIT_WM_LO (initWm s + 0x20000)) = memTop s :=
    congrArg (4096 * ·) ((initWm_regsBut s _).pf (by decide) 23 0)
  rw [← top, ← not_le] at below
  change execMemInitStripe s = _
  rw [execMemInitStripe, if_neg (by simp [works])]
  exact if_neg below

theorem initWm_initialised (s : State) {wm : Nat} (fits : wm < 2 ^ 64) : initWm (initialised s wm) = wm :=
  State.pair_setPair s .dev _ fits

theorem initialised_regsBut (s : State) (wm : Nat) : RegsBut s (initialised s wm) initWmRegs := initWm_regsBut s wm

theorem initialised_parts (s : State) (wm : Nat) :
    initialised s wm = { s with regs := (initialised s wm).regs, mem := (initialised s wm).mem } := rfl

theorem initialised_cells (s : State) (wm : Nat) : (initialised s wm).mem.cells = s.mem.cells := rfl

/-- Settles O35: each command's effect is one of the states above, and what the statement asks of it is read there. -/
theorem memoryTiming : Obligations.MemoryTiming := by
  refine ⟨?scrub, ?period, ?refresh, ?forced, ?poll, ?retrain, ?done, ?failed, ?sleep, ?wake, ?clear, ?init⟩
  case scrub =>
    intro s k v works mapped more bound
    refine ⟨_, exec_scrubStripe_moves rfl works mapped more, setPf_regsOnly .., ?_,
      setPf_regsBut (List.mem_singleton_self _)⟩
    rw [State.pf_setPf (by decide) (by decide)]
    exact Nat.mod_eq_of_lt (more.trans_le bound)
  case period =>
    intro s waits due
    exact exec_scrubPeriodStart_starts waits due
  case refresh =>
    intro c i s few
    refine ⟨_, exec_refreshInterval_counts few, setPf_regsOnly .., ?_, setChStatus_regsBut (List.mem_singleton_self _)⟩
    rw [chStatus_setChStatus _ _ _ (by decide) (by decide)]
    exact Nat.mod_eq_of_lt (few.trans (by decide))
  case forced =>
    intro c i s owed
    exact ⟨_, exec_refreshInterval_forces owed, raiseFault_bit _ (.memch c) 3 false (by decide),
      (raiseFault_rises _ _ _ (refreshForced_rises s c)).parts⟩
  case poll =>
    intro c rate temp s idle below above
    obtain ⟨rated, warm⟩ := polled_shows s c rate temp
    exact ⟨_, exec_tempPoll_steady idle below above, (setPf_regsOnly ..).trans (setPf_regsOnly ..), rated, warm,
      polled_trained s c rate temp, RegsBut.trans (setChStatus_regsBut (.head _)) (setPf_regsBut (.tail _ (.head _)))⟩
  case retrain =>
    intro c s idle may awake
    exact ⟨_, exec_periodicRetrain_starts idle may awake, setPf_regsOnly ..,
      chStatus_setChStatus s c 1 (by decide) (by decide), setChStatus_regsBut (List.mem_singleton_self _)⟩
  case done =>
    intro c s pauses idle
    obtain ⟨runs, counted, trained⟩ := retrained_shows s c
    exact ⟨_, exec_retrainDone_done pauses idle,
      ((setPf_regsOnly ..).trans (setPf_regsOnly ..)).trans (setPf_regsOnly ..), runs, counted, trained,
      RegsBut.trans (RegsBut.trans (setChStatus_regsBut (.head _)) (setPf_regsBut (.tail _ (.head _))))
        (setPf_regsBut (.tail _ (.tail _ (.head _))))⟩
  case failed =>
    intro c s pauses idle
    exact ⟨_, exec_retrainDone_failed pauses idle, raiseFault_bit _ (.memch c) 2 false (by decide),
      (retrainFailed_rises s c).parts⟩
  case sleep =>
    intro c s w enabled free idle trained runs awake unpinned
    obtain ⟨sleeps, counted⟩ := asleep_shows s c
    exact ⟨_, exec_selfRefreshEntry_enters enabled free idle trained runs awake unpinned,
      (setPf_regsOnly ..).trans (count_regsOnly ..), sleeps, counted,
      RegsBut.trans (setChStatus_regsBut (.head _)) (count_regsBut (.tail _ (.head _)))⟩
  case wake =>
    intro c s sleeps
    obtain ⟨awake, event⟩ := leaveSelfRefresh_wakes (s := requested s c) sleeps
    obtain ⟨frame, mem⟩ := leaveSelfRefresh_requested s c
    have cells := congrArg MemSt.cells mem
    exact ⟨_, exec_selfRefreshExit s c, awake, event, frame, cells, leaveSelfRefresh_regsBut (requested s c) c⟩
  case clear =>
    intro m v s a accepts least most clear
    obtain ⟨config, window⟩ := windowCleared_shows (taken s m a) v
    exact ⟨_, exec_clrMax_clears accepts least most clear, config, window, windowCleared_mem (taken s m a) v,
      windowCleared_regsBut (taken s m a) v⟩
  case init =>
    intro s works below fits
    exact ⟨_, exec_memInitStripe_rises works below, initialised_parts s _, initWm_initialised s fits,
      initialised_cells s _, initialised_regsBut s _⟩

end Sys2Proof.Machine
end

section
/-!
SUPPORT. Accesses of device memory that lie in one line: the fabric's lines, the bytes that a store leaves with their
parity, and an access that neither the watermark nor a mirror turns aside (R332, R335, R343, R349, R413, R415).
-/
namespace Sys2Proof.Machine

/-! Lines. -/

/-- The line that holds an address. -/
def lineAt (a : Nat) : Nat := a / 64 * 64

theorem lineAt_add (a : Nat) : lineAt a + a % 64 = a := by
  unfold lineAt
  omega

theorem lineAt_lineAt (a : Nat) : lineAt (lineAt a) = lineAt a := by
  unfold lineAt
  omega

/-- An access starts with the line of its first byte. -/
theorem linesOf_cons {a len : Nat} (nonempty : len ≠ 0) : ∃ rest, linesOf a len = lineAt a :: rest := by
  rw [linesOf, if_neg nonempty, List.range_succ_eq_map]
  exact ⟨_, by rw [List.map_cons, Nat.add_zero, Nat.mul_comm, lineAt]⟩

theorem linesOf_one {a len : Nat} (nonempty : len ≠ 0) (fits : a % 64 + len ≤ 64) : linesOf a len = [lineAt a] := by
  have last : (a + len - 1) / 64 = a / 64 := by omega
  rw [linesOf, if_neg nonempty, last, Nat.sub_self]
  simp [lineAt, Nat.mul_comm]

theorem isSecureSram_lineAt (a : Nat) : isSecureSram (lineAt a) = isSecureSram a := by
  simp only [isSecureSram, lineAt]
  congr 1
  · exact decide_eq_decide.mpr (by omega)
  · exact decide_eq_decide.mpr (by omega)

theorem chanOf_lineAt (s : State) (a : Nat) : chanOf s (lineAt a) = chanOf s a := by
  have page : lineAt a / 4096 = a / 4096 := by
    unfold lineAt
    omega
  rw [chanOf, page, chanOf]

/-- An access whose first line answers with an error answers with it. -/
theorem busRead_fails {s t : State} {agent a len : Nat} {sec : Bool} {e : AccErr} (nonempty : len ≠ 0)
    (h : readLine s agent sec (lineAt a) = (t, .error e)) : busRead s agent sec a len = (t, .error e) := by
  obtain ⟨rest, lines⟩ := linesOf_cons (a := a) nonempty
  simp only [busRead, lines, readLines, h]

/-- A read within a line answers its part of the line. -/
theorem busRead_answers {s t : State} {agent a len : Nat} {sec : Bool} {b : List Nat} (nonempty : len ≠ 0)
    (fits : a % 64 + len ≤ 64) (h : readLine s agent sec (lineAt a) = (t, .ok b)) :
    busRead s agent sec a len = (t, .ok ((b.drop (a % 64)).take len)) := by
  simp only [busRead, linesOf_one nonempty fits, readLines, h, List.append_nil]

/-- A write within a line that nothing turns aside. -/
theorem busWriteMasked_stores {s t : State} {agent a : Nat} {sec : Bool} {bytes : List (Option Nat)}
    (nonempty : bytes.length ≠ 0) (fits : a % 64 + bytes.length ≤ 64)
    (h : writeLine s agent sec (lineAt a) (linePart a bytes (lineAt a)) = (t, none)) :
    busWriteMasked s agent sec a bytes = (t, .ok ()) := by
  simp only [busWriteMasked, linesOf_one nonempty fits, List.foldl_cons, List.foldl_nil, h]

/-- The part of a line's bytes that a read within the line takes. -/
theorem memBytes_slice (s : State) {a len : Nat} (fits : a % 64 + len ≤ 64) :
    ((memBytes s (lineAt a) 64).drop (a % 64)).take len = memBytes s a len := by
  refine List.ext_getElem ?_ fun i hi hj => ?_
  · simp only [memBytes, List.length_take, List.length_drop, List.length_map, List.length_range]
    omega
  · simp only [memBytes, List.getElem_take, List.getElem_drop, List.getElem_map, List.getElem_range]
    rw [← Nat.add_assoc, lineAt_add]

/-- A write of one byte has it at its place in the line, and nothing elsewhere. -/
theorem linePart_one (a v i : Nat) :
    (linePart a [some v] (lineAt a)).getD i none = if i = a % 64 then some v else none := by
  have line := lineAt_add a
  rw [linePart, List.getD_eq_getElem?_getD, List.getElem?_map]
  rcases lt_or_ge i 64 with inside | outside
  · rw [List.getElem?_range inside]
    simp only [Option.map_some, Option.getD_some]
    rcases lt_trichotomy i (a % 64) with before | rfl | behind
    · rw [if_neg (by omega), if_neg (by omega)]
    · rw [if_pos line.ge, if_pos rfl, line, Nat.sub_self]
      rfl
    · rw [if_pos (by omega), if_neg (by omega)]
      exact List.getD_eq_default _ _ (by rw [List.length_singleton]; omega)
  · rw [List.getElem?_eq_none (by simpa using outside), if_neg (by omega)]
    rfl

theorem linePart_length (a line : Nat) (bytes : List (Option Nat)) : (linePart a bytes line).length = 64 := by
  simp [linePart]

/-! What a store leaves (R335). -/

theorem isBad_setBad (s : State) (a x : Nat) (b : Bool) :
    isBad (setBad s a b) x = if x = a then b else isBad s x := by
  rw [Bool.eq_iff_iff]
  by_cases same : x = a
  · cases b <;> simp [isBad, setBad, same]
  · cases b <;> simp [isBad, setBad, same]

theorem isBad_memSet (s : State) (a v x : Nat) : isBad (memSet s a v) x = isBad s x := rfl

theorem memByte_setBad (s : State) (a : Nat) (b : Bool) (x : Nat) : memByte (setBad s a b) x = memByte s x := rfl

/-- Byte i of a list is stored with its parity, where the list gives one. -/
def putNth (a : Nat) (bytes : List (Option Nat)) (s : State) (i : Nat) : State :=
  match bytes.getD i none with
  | some v => setBad (memSet s (a + i) v) (a + i) false
  | none => s

theorem memPut_eq (s : State) (a : Nat) (bytes : List (Option Nat)) :
    memPut s a bytes = (List.range bytes.length).foldl (putNth a bytes) s := rfl

theorem putNth_holds {a i v : Nat} {bytes : List (Option Nat)} (s : State) (given : bytes.getD i none = some v) :
    memByte (putNth a bytes s i) (a + i) = v % 256 ∧ isBad (putNth a bytes s i) (a + i) = false := by
  rw [putNth, given]
  simp [isBad_setBad, memByte_setBad]

theorem putNth_other {a i j : Nat} {bytes : List (Option Nat)} (s : State) (other : i ≠ j) :
    memByte (putNth a bytes s j) (a + i) = memByte s (a + i) ∧ isBad (putNth a bytes s j) (a + i) = isBad s (a + i) := by
  unfold putNth
  split
  · simp [isBad_setBad, isBad_memSet, memByte_setBad, other]
  · exact ⟨rfl, rfl⟩

/-- A byte that is stored holds its value, with sound parity. -/
theorem memPut_holds {s : State} {a i v : Nat} {bytes : List (Option Nat)} (inside : i < bytes.length)
    (given : bytes.getD i none = some v) :
    memByte (memPut s a bytes) (a + i) = v % 256 ∧ isBad (memPut s a bytes) (a + i) = false := by
  rw [memPut_eq]
  generalize bytes.length = n at inside
  induction n with
  | zero => exact absurd inside (Nat.not_lt_zero i)
  | succ n ih =>
    rw [List.range_succ, List.foldl_append, List.foldl_cons, List.foldl_nil]
    rcases Nat.lt_succ_iff_lt_or_eq.mp inside with earlier | rfl
    · obtain ⟨byte, parity⟩ := putNth_other (a := a) (bytes := bytes)
        ((List.range n).foldl (putNth a bytes) s) (Nat.ne_of_lt earlier)
      rw [byte, parity]
      exact ih earlier
    · exact putNth_holds _ given

/-- t differs from s in nothing but memory. -/
def MemoryOnly (s t : State) : Prop := t = { s with mem := t.mem }

theorem MemoryOnly.trans {s t u : State} (h : MemoryOnly s t) (k : MemoryOnly t u) : MemoryOnly s u := by
  unfold MemoryOnly at *
  rw [k, h]

theorem MemoryOnly.reg {s t : State} (h : MemoryOnly s t) (a : Nat) : t.reg a = s.reg a := by
  rw [h]
  rfl

theorem memPut_memoryOnly (s : State) (a : Nat) (bytes : List (Option Nat)) : MemoryOnly s (memPut s a bytes) :=
  State.foldl_invariant (MemoryOnly s) (putNth a bytes) _ s rfl fun t i h => by
    unfold putNth
    split
    · exact h.trans rfl
    · exact h

/-- The bytes of t and their parity are those of s, and beside memory t is s. -/
structure SameBytes (s t : State) : Prop where
  only : MemoryOnly s t
  cells : t.mem.cells = s.mem.cells
  bad : t.mem.bad = s.mem.bad

theorem SameBytes.trans {s t u : State} (h : SameBytes s t) (k : SameBytes t u) : SameBytes s u :=
  ⟨h.only.trans k.only, k.cells.trans h.cells, k.bad.trans h.bad⟩

theorem SameBytes.byte {s t : State} (h : SameBytes s t) (a : Nat) : memByte t a = memByte s a := by
  rw [memByte, h.cells, memByte]

theorem SameBytes.parity {s t : State} (h : SameBytes s t) (a : Nat) : isBad t a = isBad s a := by
  rw [isBad, h.bad, isBad]

/-- A recode queue with room takes a page without the recoder. -/
theorem recodePush_sameBytes {s : State} (page : Nat) (room : s.mem.recq.length < 65536) :
    SameBytes s (recodePush s page) := by
  rw [recodePush, if_neg (by omega)]
  exact ⟨rfl, rfl, rfl⟩

theorem recodeEnter_sameBytes {s : State} (page : Nat) (room : s.mem.recq.length < 65536) :
    SameBytes s (recodeEnter s page) := by
  unfold recodeEnter
  split
  · exact SameBytes.trans (t := { s with mem := { s.mem with held := s.mem.held.filter (fun x => x != page) } })
      ⟨rfl, rfl, rfl⟩ (recodePush_sameBytes page room)
  · split
    · exact ⟨rfl, rfl, rfl⟩
    · exact recodePush_sameBytes page room

theorem memPut_recq (s : State) (a : Nat) (bytes : List (Option Nat)) : (memPut s a bytes).mem.recq = s.mem.recq :=
  State.foldl_invariant (fun t => t.mem.recq = s.mem.recq) (putNth a bytes) _ s rfl fun t i h => by
    unfold putNth
    split <;> exact h

/-- Beside the bytes a store leaves the page's code, or an entry of the recode queue. -/
theorem storeLine_sameBytes {s : State} {line : Nat} {bytes : List (Option Nat)} (room : s.mem.recq.length < 65536)
    (given : bytes.all (·.isNone) = false) : SameBytes (memPut s line bytes) (storeLine s line bytes) := by
  rw [storeLine, if_neg (by simp [given])]
  dsimp only
  split
  · exact ⟨rfl, rfl, rfl⟩
  · exact recodeEnter_sameBytes _ (by rwa [memPut_recq])

/-! A request on its way to the channel (R362, R363, R517). -/

/-- The state in which a line's bytes are stored: its channel has the request, and the check values have seen it. -/
def reached (s : State) (agent line : Nat) (bytes : List (Option Nat)) : State :=
  cvuWrite (channelRequest s line) agent line bytes

theorem channelRequest_regsBut (s : State) (a : Nat) : RegsBut s (channelRequest s a) (wakeRegs (chanOf s a)) :=
  leaveSelfRefresh_regsBut (requested s (chanOf s a)) (chanOf s a)

theorem channelRequest_mem (s : State) (a : Nat) : (channelRequest s a).mem = (requested s (chanOf s a)).mem :=
  (leaveSelfRefresh_requested s (chanOf s a)).2

theorem cvuWrite_only (s : State) (agent line : Nat) (bytes : List (Option Nat)) :
    cvuWrite s agent line bytes = { s with cvus := (cvuWrite s agent line bytes).cvus } :=
  State.foldl_invariant (fun t => t = { s with cvus := t.cvus }) _ _ s rfl fun t u h => by
    dsimp only
    split
    · rw [h]
      rfl
    · exact h

theorem reached_regsBut (s : State) (agent line : Nat) (bytes : List (Option Nat)) :
    RegsBut s (reached s agent line bytes) (wakeRegs (chanOf s line)) := by
  rw [reached, cvuWrite_only]
  exact channelRequest_regsBut s line

theorem reached_mem (s : State) (agent line : Nat) (bytes : List (Option Nat)) :
    (reached s agent line bytes).mem = (requested s (chanOf s line)).mem := by
  rw [reached, cvuWrite_only]
  exact channelRequest_mem s line

/-- The channels in service depend on the map of channels alone. -/
theorem chanOf_congr {s t : State} (map : t.pr .memctl Reg.MEMCTL_CHAN_MAP = s.pr .memctl Reg.MEMCTL_CHAN_MAP) (a : Nat) :
    chanOf t a = chanOf s a := by
  simp only [chanOf, chanOfRaw, channelsIn, map]

theorem armed_congr {s t : State} {p : Page} (inject : t.hd p .inject = s.hd p .inject) (kind : Nat) :
    armed t p kind = armed s p kind := by
  simp only [armed, inject]

/-- What a channel's wake writes lies apart from the pages below the channels' own, and from INJECT. -/
theorem below_wakeRegs (c : Nat) {a : Nat} (below : a < 0x310000) : a ∉ wakeRegs c := by
  simp only [wakeRegs, hadr, hdrOff, pageBase, List.mem_cons, List.not_mem_nil, or_false, not_or]
  omega

theorem inject_wakeRegs (c : Nat) : hadr (.memch c) .inject ∉ wakeRegs c := by
  simp only [wakeRegs, hadr, hdrOff, pageBase, Reg.MEMCH_CH_STATUS, List.mem_cons, List.not_mem_nil, or_false, not_or]
  omega

end Sys2Proof.Machine
end

section
/-!
PROOF. Reads and writes of device memory, with the injected flips that meet a write, the watermark, and the parity of
secure SRAM (R332, R335, R343, R413, R414, R415, R520).
-/
namespace Sys2Proof.Machine

/-- An address of usable memory that the agent may reach and no mirror pair has, with room in the recode queue. -/
def PlainAt (s : State) (agent : Nat) (sec : Bool) (addr : Nat) : Prop :=
  isSecureSram addr = false ∧ addr < memTop s ∧ (watermarkAddr s ≤ addr ∨ sec = true ∨ wmExempt agent = true) ∧
    mirrorOf s (addr / 64 * 64) = none ∧ s.mem.recq.length < 65536

/-- Memory ends, and normal memory starts, at the start of a line. -/
theorem lineAt_lt_memTop (s : State) (a : Nat) : lineAt a < memTop s ↔ a < memTop s := by
  unfold lineAt memTop
  omega

theorem lineAt_lt_watermark (s : State) (a : Nat) : lineAt a < watermarkAddr s ↔ a < watermarkAddr s := by
  unfold lineAt watermarkAddr
  omega

section
variable {s : State} {agent a : Nat} {sec : Bool} (plain : PlainAt s agent sec a)
include plain

theorem PlainAt.room : s.mem.recq.length < 65536 := by
  obtain ⟨-, -, -, -, room⟩ := plain
  exact room

/-- The watermark does not block the access. -/
theorem PlainAt.passes : (decide (lineAt a < watermarkAddr s) && !sec && !wmExempt agent) = false := by
  obtain ⟨-, -, pass, -⟩ := plain
  rcases pass with above | sec | exempt
  · simp [lineAt_lt_watermark, above]
  · simp [sec]
  · simp [exempt]

theorem PlainAt.readLine_primary : readLine s agent sec (lineAt a) = readPrimary s agent sec (lineAt a) false := by
  have passes := plain.passes
  obtain ⟨normal, usable, -, unmirrored, -⟩ := plain
  rw [readLine, if_neg (by simp [isSecureSram_lineAt, normal]),
    if_neg (not_le.mpr ((lineAt_lt_memTop s a).mpr usable)), if_neg (by simp [passes]), lineAt, unmirrored]

theorem PlainAt.writeLine_stores (bytes : List (Option Nat)) :
    let t := storeLine (reached s agent (lineAt a) bytes) (lineAt a) bytes
    writeLine s agent sec (lineAt a) bytes = (if agent < 0x1A then flipLine t (lineAt a) bytes else t, none) := by
  have passes := plain.passes
  obtain ⟨normal, usable, -, unmirrored, -⟩ := plain
  rw [writeLine, if_neg (by simp [isSecureSram_lineAt, normal]),
    if_neg (not_le.mpr ((lineAt_lt_memTop s a).mpr usable)), if_neg (by simp [passes]), lineAt, unmirrored]
  rfl

end

/-! A write of one byte (R335). -/

/-- The part of a line that a write of one byte gives. -/
def onePart (a v : Nat) : List (Option Nat) := linePart a [some v] (lineAt a)

/-- A byte is stored, and no flip has met it yet. -/
def oneStored (s : State) (agent a v : Nat) : State :=
  storeLine (reached s agent (lineAt a) (onePart a v)) (lineAt a) (onePart a v)

theorem onePart_getD (a v : Nat) : (onePart a v).getD (a % 64) none = some v := by
  rw [onePart, linePart_one, if_pos rfl]

theorem onePart_isSome {a v i : Nat} (h : ((onePart a v).getD i none).isSome = true) : lineAt a + i = a := by
  have line := lineAt_add a
  rw [onePart, linePart_one] at h
  split at h
  · omega
  · cases h

theorem onePart_some (a v : Nat) : (onePart a v).all (·.isNone) = false := by
  have place : (onePart a v)[a % 64]? = some (some v) := by
    have inside : a % 64 < (onePart a v).length := by
      rw [onePart, linePart_length]
      omega
    have given := onePart_getD a v
    rw [List.getD_eq_getElem _ _ inside] at given
    rw [List.getElem?_eq_getElem inside, given]
  rw [List.all_eq_false]
  exact ⟨some v, List.mem_of_getElem? place, by simp⟩

theorem oneStored_holds {s : State} {agent a v : Nat} (room : s.mem.recq.length < 65536) :
    memByte (oneStored s agent a v) a = v % 256 ∧ isBad (oneStored s agent a v) a = false := by
  have room' : (reached s agent (lineAt a) (onePart a v)).mem.recq.length < 65536 := by
    rw [reached_mem]
    exact room
  have same := storeLine_sameBytes (line := lineAt a) room' (onePart_some a v)
  have inside : a % 64 < (onePart a v).length := by
    rw [onePart, linePart_length]
    omega
  have held := memPut_holds (s := reached s agent (lineAt a) (onePart a v)) (a := lineAt a) inside (onePart_getD a v)
  rw [lineAt_add] at held
  rw [oneStored, same.byte, same.parity]
  exact held

theorem oneStored_wrote (s : State) (agent a v : Nat) : Wrote (· = a) s (oneStored s agent a v) :=
  ((channelRequest_wrote _ s (lineAt a)).trans (cvuWrite_wrote _ _ agent (lineAt a) (onePart a v))).trans
    (storeLine_wrote _ _ _ fun _ _ given => onePart_isSome given)

/-- The store leaves the registers but those of a channel that it wakes. -/
theorem oneStored_regsBut {s : State} {agent a v : Nat} (room : s.mem.recq.length < 65536) :
    RegsBut s (oneStored s agent a v) (wakeRegs (chanOf s a)) := by
  have room' : (reached s agent (lineAt a) (onePart a v)).mem.recq.length < 65536 := by
    rw [reached_mem]
    exact room
  have stored := (memPut_memoryOnly (reached s agent (lineAt a) (onePart a v)) (lineAt a) (onePart a v)).trans
    (storeLine_sameBytes (line := lineAt a) room' (onePart_some a v)).only
  have before := reached_regsBut s agent (lineAt a) (onePart a v)
  rw [chanOf_lineAt] at before
  exact before.trans fun x _ => stored.reg x

/-- The injection that a store meets on its channel is that of the state before it. -/
theorem oneStored_armed {s : State} {agent a v : Nat} (room : s.mem.recq.length < 65536) (kind : Nat) :
    armed (oneStored s agent a v) (.memch (chanOf (oneStored s agent a v) (lineAt a))) kind =
      armed s (.memch (chanOf s a)) kind := by
  have kept := oneStored_regsBut (agent := agent) (a := a) (v := v) room
  rw [chanOf_lineAt, chanOf_congr (kept _ (below_wakeRegs _ (by decide)))]
  exact armed_congr (kept _ (inject_wakeRegs _)) kind

/-- What a write of one byte leaves: the byte stored, met by a flip where the agent is no part of the device's own
upkeep. -/
def oneWritten (s : State) (agent a v : Nat) : State :=
  if agent < 0x1A then flipLine (oneStored s agent a v) (lineAt a) (onePart a v) else oneStored s agent a v

theorem PlainAt.write_one {s : State} {agent a : Nat} {sec : Bool} (plain : PlainAt s agent sec a) (v : Nat) :
    busWriteMasked s agent sec a [some v] = (oneWritten s agent a v, .ok ()) :=
  busWriteMasked_stores (by simp) (by simp; omega) (plain.writeLine_stores (onePart a v))

/-! Flips (R520, KINDs 0x40 to 0x42). -/

theorem fireInject_mem (s : State) (p : Page) : (fireInject s p).mem = s.mem :=
  (State.logAdd_mem ..).trans (State.setHd_mem ..)

/-- One injection is armed at a time. -/
theorem armed_other {s : State} {p : Page} {kind other : Nat} {x : Nat × Nat} (h : armed s p kind = some x)
    (apart : kind ≠ other) : armed s p other = none := by
  unfold armed at *
  dsimp only at *
  split at h
  · next here => exact if_neg fun there => apart (here.2.symm.trans there.2)
  · cases h

section
variable {s : State} {line : Nat} {bytes : List (Option Nat)}

theorem flipLine_unarmed
    (unarmed : ∀ k, k = 0x40 ∨ k = 0x41 ∨ k = 0x42 → armed s (.memch (chanOf s line)) k = none) :
    flipLine s line bytes = s := by
  simp only [flipLine, unarmed 0x40 (by simp), unarmed 0x41 (by simp), unarmed 0x42 (by simp)]

variable {tg par : Nat} (hit : (bytes.getD (tg % 64) none).isSome = true)
include hit

theorem flipLine_data (data : armed s (.memch (chanOf s line)) 0x40 = some (tg, par)) :
    flipLine s line bytes = fireInject (setBad (memSet s (line + tg % 64)
      (memByte s (line + tg % 64) ^^^ 2 ^ (par % 8))) (line + tg % 64) true) (.memch (chanOf s line)) := by
  simp only [flipLine, data]
  exact if_pos hit

theorem flipLine_parity (parity : armed s (.memch (chanOf s line)) 0x41 = some (tg, par)) :
    flipLine s line bytes = fireInject (setBad s (line + tg % 64) true) (.memch (chanOf s line)) := by
  simp only [flipLine, armed_other parity (other := 0x40) (by decide), parity]
  exact if_pos hit

theorem flipLine_silent (silent : armed s (.memch (chanOf s line)) 0x42 = some (tg, par)) :
    flipLine s line bytes = fireInject (memSet s (line + tg % 64)
      (memByte s (line + tg % 64) ^^^ 2 ^ (par % 8))) (.memch (chanOf s line)) := by
  simp only [flipLine, armed_other silent (other := 0x40) (by decide), armed_other silent (other := 0x41) (by decide),
    silent]
  exact if_pos hit

end

/-- A flipped bit of a byte leaves a byte. -/
theorem flipped_lt (par : Nat) (b : BitVec 8) : (b.toNat ^^^ 2 ^ (par % 8)) % 256 = b.toNat ^^^ 2 ^ (par % 8) := by
  refine Nat.mod_eq_of_lt (Nat.xor_lt_two_pow (n := 8) b.isLt ?_)
  exact Nat.pow_lt_pow_right (by decide) (Nat.mod_lt _ (by decide))

section
variable {s : State} {agent a tg par : Nat} {b : BitVec 8} (room : s.mem.recq.length < 65536)
include room

theorem oneStored_byte : memByte (oneStored s agent a b.toNat) a = b.toNat := by
  rw [(oneStored_holds room).1, Nat.mod_eq_of_lt b.isLt]

/-- With no flip armed the byte holds its value, with sound parity. -/
theorem oneWritten_unarmed
    (unarmed : ∀ k, k = 0x40 ∨ k = 0x41 ∨ k = 0x42 → armed s (.memch (chanOf s a)) k = none) :
    memByte (oneWritten s agent a b.toNat) a = b.toNat ∧ isBad (oneWritten s agent a b.toNat) a = false := by
  have still := flipLine_unarmed (s := oneStored s agent a b.toNat) (line := lineAt a) (bytes := onePart a b.toNat)
    fun k hk => (oneStored_armed room k).trans (unarmed k hk)
  rw [oneWritten, still, ite_self]
  exact ⟨oneStored_byte room, (oneStored_holds room).2⟩

variable (master : agent < 0x1A) (target : tg % 64 = a % 64)
include master target

/-- DATA_FLIP: the bit inverted, under the parity of the byte before. -/
theorem oneWritten_data (data : armed s (.memch (chanOf s a)) 0x40 = some (tg, par)) :
    memByte (oneWritten s agent a b.toNat) a = b.toNat ^^^ 2 ^ (par % 8) ∧
      isBad (oneWritten s agent a b.toNat) a = true := by
  rw [← oneStored_armed (agent := agent) (v := b.toNat) room] at data
  have flipped := flipLine_data (bytes := onePart a b.toNat) (by rw [target, onePart_getD]; rfl) data
  rw [target, lineAt_add, oneStored_byte room] at flipped
  rw [oneWritten, if_pos master, flipped, memByte, isBad, fireInject_mem, ← memByte, ← isBad, memByte_setBad,
    memByte_memSet, if_pos rfl, isBad_setBad, if_pos rfl]
  exact ⟨flipped_lt par b, rfl⟩

/-- PARITY_FLIP: the byte as written, under the other parity. -/
theorem oneWritten_parity (parity : armed s (.memch (chanOf s a)) 0x41 = some (tg, par)) :
    memByte (oneWritten s agent a b.toNat) a = b.toNat ∧ isBad (oneWritten s agent a b.toNat) a = true := by
  rw [← oneStored_armed (agent := agent) (v := b.toNat) room] at parity
  have flipped := flipLine_parity (bytes := onePart a b.toNat) (by rw [target, onePart_getD]; rfl) parity
  rw [target, lineAt_add] at flipped
  rw [oneWritten, if_pos master, flipped, memByte, isBad, fireInject_mem, ← memByte, ← isBad, memByte_setBad,
    isBad_setBad, if_pos rfl]
  exact ⟨oneStored_byte room, rfl⟩

/-- SILENT_FLIP: the bit inverted, and its parity with it. -/
theorem oneWritten_silent (silent : armed s (.memch (chanOf s a)) 0x42 = some (tg, par)) :
    memByte (oneWritten s agent a b.toNat) a = b.toNat ^^^ 2 ^ (par % 8) ∧
      isBad (oneWritten s agent a b.toNat) a = false := by
  rw [← oneStored_armed (agent := agent) (v := b.toNat) room] at silent
  have flipped := flipLine_silent (bytes := onePart a b.toNat) (by rw [target, onePart_getD]; rfl) silent
  rw [target, lineAt_add, oneStored_byte room] at flipped
  rw [oneWritten, if_pos master, flipped, memByte, isBad, fireInject_mem, ← memByte, ← isBad, memByte_memSet,
    if_pos rfl, isBad_memSet]
  exact ⟨flipped_lt par b, (oneStored_holds room).2⟩

end

/-- A write of one byte changes no other. -/
theorem oneWritten_wrote (s : State) (agent a v : Nat) : Wrote (· = a) s (oneWritten s agent a v) := by
  unfold oneWritten
  exact Wrote.ite ((oneStored_wrote s agent a v).trans (flipLine_wrote _ _ _ fun _ given => onePart_isSome given))
    (oneStored_wrote s agent a v)

/-! The commands that write. -/

/-- The answer of an access is kept. -/
def answered (s : State) (x : BusAnswer) : State := { s with mem := { s.mem with answer := some x } }

@[simp] theorem answered_cells (s : State) (x : BusAnswer) : (answered s x).mem.cells = s.mem.cells := rfl

@[simp] theorem answered_hd (s : State) (x : BusAnswer) (p : Page) (h : Hdr) : (answered s x).hd p h = s.hd p h := rfl

@[simp] theorem memByte_answered (s : State) (x : BusAnswer) (a : Nat) : memByte (answered s x) a = memByte s a := rfl

@[simp] theorem isBad_answered (s : State) (x : BusAnswer) (a : Nat) : isBad (answered s x) a = isBad s a := rfl

/-- Keeping an answer changes no byte. -/
theorem answered_wrote {p : Nat → Prop} {s t : State} (x : BusAnswer) (h : Wrote p s t) : Wrote p s (answered t x) :=
  h.trans (Wrote.lit rfl rfl)

/-- A write's answer names its address, and carries no data. -/
theorem answerWrite_eq (agent a : Nat) (r : State × Except AccErr Unit) :
    ∃ status, answerWrite agent a r = answered r.1 ⟨agent, a, status, []⟩ := by
  unfold answerWrite
  split <;> exact ⟨_, rfl⟩

/-- What a write of one byte leaves there stands when it is answered, and no other byte has changed. -/
theorem oneWritten_answered {s : State} {agent a v byte : Nat} {bad : Bool} (x : BusAnswer)
    (holds : memByte (oneWritten s agent a v) a = byte) (parity : isBad (oneWritten s agent a v) a = bad) :
    memByte (answered (oneWritten s agent a v) x) a = byte ∧ isBad (answered (oneWritten s agent a v) x) a = bad ∧
      BytesBut s (answered (oneWritten s agent a v) x) (· = a) := by
  rw [memByte_answered, isBad_answered]
  exact ⟨holds, parity, (answered_wrote x (oneWritten_wrote s agent a v)).bytes⟩

theorem exec_memoryWrite_one {agent : Fin 29} {sec : Bool} {addr : BitVec 48} {b : BitVec 8} {s : State}
    (plain : PlainAt s agent sec addr.toNat) :
    exec (.memoryWrite agent sec addr [some b]) s =
      .next (answered (oneWritten s agent addr.toNat b.toNat) ⟨agent, addr.toNat, 0, []⟩) :=
  congrArg (fun r => Host.Outcome.next (answerWrite agent addr.toNat r)) (plain.write_one b.toNat)

/-- A write of one byte that an armed injection meets. -/
theorem flipWrite_one {agent kind a : Nat} {sec : Bool} {b : BitVec 8} {x : Nat × Nat} {s : State}
    (plain : PlainAt s agent sec a) (meets : armed s (.memch (chanOf s a)) kind = some x) :
    flipWrite s kind agent sec a [some b] =
      answered (oneWritten s agent a b.toNat) ⟨agent, a, 0, []⟩ := by
  rw [flipWrite, meets]
  exact congrArg (answerWrite agent a) (plain.write_one b.toNat)

/-! Reads (R343, R413, R414). -/

theorem busRead_slice {s t : State} {agent a len : Nat} {sec : Bool} (nonempty : len ≠ 0) (fits : a % 64 + len ≤ 64)
    (h : readLine s agent sec (lineAt a) = (t, .ok (memBytes t (lineAt a) 64))) :
    busRead s agent sec a len = (t, .ok (memBytes t a len)) := by
  rw [busRead_answers nonempty fits h, memBytes_slice t fits]

/-- The line of a touched page reads as it stands when every byte of it is sound. -/
theorem soundLine_sound {s : State} {line : Nat} (touched : untouched s (line / 4096) = false)
    (sound : ∀ i < 64, isBad s (line + i) = false) : soundLine s line = (s, .ok (memBytes s line 64)) := by
  have allSound : (List.range 64).any (fun i => isBad s (line + i)) = false := by
    rw [List.any_eq_false]
    exact fun i hi => by simp [sound i (List.mem_range.mp hi)]
  simp only [soundLine, touched, allSound]
  rfl

theorem memBytes_congr {s t : State} (cells : t.mem.cells = s.mem.cells) (a len : Nat) :
    memBytes t a len = memBytes s a len := by
  simp only [memBytes, memByte, cells]

/-- Whether a page is untouched depends on the initialisation watermark and the list of pages. -/
theorem untouched_congr {s t : State} (wm : initWm t = initWm s) (listed : t.mem.touched = s.mem.touched) (page : Nat) :
    untouched t page = untouched s page := by
  rw [untouched, wm, listed, untouched]

theorem PlainAt.read_sound {s : State} {agent a : Nat} {sec : Bool} (plain : PlainAt s agent sec a)
    (touched : untouched s (a / 4096) = false) (sound : ∀ i < 64, isBad s (lineAt a + i) = false) :
    readLine s agent sec (lineAt a) =
      (channelRequest s (lineAt a), .ok (memBytes (channelRequest s (lineAt a)) (lineAt a) 64)) := by
  have mem := channelRequest_mem s (lineAt a)
  have kept := channelRequest_regsBut s (lineAt a)
  have page : lineAt a / 4096 = a / 4096 := by
    unfold lineAt
    omega
  have wm : initWm (channelRequest s (lineAt a)) = initWm s :=
    kept.pair (below_wakeRegs _ (by decide)) (below_wakeRegs _ (by decide))
  have there : untouched (channelRequest s (lineAt a)) (lineAt a / 4096) = false := by
    rw [page, untouched_congr wm (by rw [mem]; rfl), touched]
  have whole : ∀ i < 64, isBad (channelRequest s (lineAt a)) (lineAt a + i) = false := fun i hi => by
    rw [isBad, mem]
    exact sound i hi
  rw [plain.readLine_primary, readPrimary, soundLine_sound there whole, primaryGives]

/-- A normal agent's read below the watermark. -/
theorem readLine_blocked {s : State} {agent a : Nat} (normal : isSecureSram (lineAt a) = false)
    (usable : lineAt a < memTop s) (below : lineAt a < watermarkAddr s) (checked : wmExempt agent = false) :
    readLine s agent false (lineAt a) = (watermarkBlock s agent false (lineAt a), .error (.watermark (lineAt a))) := by
  rw [readLine, if_neg (by simp [normal]), if_neg (not_le.mpr usable), if_pos (by simp [below, checked])]

/-- A block is reported: WORLD fault bit 0 and its event. -/
theorem watermarkBlock_reports (s : State) (agent : Nat) (write : Bool) (a : Nat) :
    fbit ((watermarkBlock s agent write a).hd .world .faultStatus) 0 = true ∧
      fbit ((watermarkBlock s agent write a).hd .world .irqStatus) 3 = true ∧
      (watermarkBlock s agent write a).mem.cells = s.mem.cells := by
  refine ⟨?_, ?_, by rw [(watermarkBlock_rises agent write a (Rises.refl s)).keeps.mem]⟩
  · rw [State.hd, watermarkBlock, State.logLimited_reg]
    exact raiseFault_bit _ .world 0 false (by decide)
  · rw [State.hd, watermarkBlock, State.logLimited_reg]
    exact (raiseFault_rises .world 0 false (Rises.refl _)).bits _ (.inl (irq_mod .world)) 3
      (event_bit _ .world 3 (by decide))

theorem exec_memoryRead_ok {agent : Fin 29} {sec : Bool} {addr : BitVec 48} {len : Fin 4097} {s t : State}
    {b : List Nat} (read : busRead s agent sec addr.toNat len = (t, .ok b)) :
    exec (.memoryRead agent sec addr len) s = .next (answered t ⟨agent, addr.toNat, 0, b⟩) :=
  congrArg (fun r => Host.Outcome.next (answerRead agent addr.toNat r)) read

theorem exec_memoryRead_error {agent : Fin 29} {sec : Bool} {addr : BitVec 48} {len : Fin 4097} {s t : State}
    {e : AccErr} (read : busRead s agent sec addr.toNat len = (t, .error e)) :
    exec (.memoryRead agent sec addr len) s = .next (answered t ⟨agent, addr.toNat, accStatus e, []⟩) :=
  congrArg (fun r => Host.Outcome.next (answerRead agent addr.toNat r)) read

/-- A secure read of a line of secure SRAM in which a byte's parity fails. -/
theorem readLine_secureSram_fails {s : State} {agent a : Nat} (sram : isSecureSram a = true) (bad : isBad s a = true) :
    readLine s agent true (lineAt a) = (raiseFault s .world 6, .error (.uncorrectable (lineAt a))) := by
  have fails : (List.range 64).any (fun i => isBad s (lineAt a + i)) = true := by
    rw [List.any_eq_true]
    exact ⟨a % 64, List.mem_range.mpr (Nat.mod_lt a (by decide)), by rw [lineAt_add, bad]⟩
  rw [readLine, if_pos (by rw [isSecureSram_lineAt, sram]), if_neg (by simp), if_pos fails]

/-- The offset of a byte of secure SRAM as fabric agents see it (R415). -/
theorem isSecureSram_offset (off : BitVec 20) : isSecureSram (0x1010000000 + off.toNat) = true := by
  have inside := off.isLt
  simp only [isSecureSram, Bool.and_eq_true, decide_eq_true_eq]
  omega

/-- The parity of a byte of secure SRAM fails, and a secure read has met it. -/
def sramFailed (s : State) (a : Nat) : State := raiseFault (setBad s a true) .world 6

theorem sramFailed_mem (s : State) (a : Nat) : (sramFailed s a).mem = (setBad s a true).mem :=
  (raiseFault_rises .world 6 false (Rises.refl (setBad s a true))).keeps.mem

theorem isBad_sramFailed (s : State) (a : Nat) : isBad (sramFailed s a) a = true := by
  rw [isBad, sramFailed_mem, ← isBad, isBad_setBad, if_pos rfl]

theorem exec_secureSramParity_fails (agent : Fin 26) (off : BitVec 20) (s : State) :
    exec (.secureSramParity agent off) s =
      .next (answered (sramFailed s (0x1010000000 + off.toNat)) ⟨agent, 0x1010000000 + off.toNat, 3, []⟩) := by
  have sram := isSecureSram_offset off
  generalize address : 0x1010000000 + off.toNat = a at sram
  have fails := readLine_secureSram_fails (agent := agent) sram (show isBad (setBad s a true) a = true by
    rw [isBad_setBad, if_pos rfl])
  have read := busRead_fails (a := lineAt a) (len := 64) (by decide) (by rwa [lineAt_lineAt])
  subst address
  exact congrArg (fun r => Host.Outcome.next (answerRead agent (0x1010000000 + off.toNat) r)) read

/-- Settles O33: a write of one byte is `oneWritten`, with the flip that meets it; a read within a line answers its
slice of the line, or the error of the line. -/
theorem memoryAccesses : Obligations.MemoryAccesses := by
  refine ⟨?write, ?one, ?data, ?parity, ?silent, ?read, ?blocked, ?sram⟩
  case write =>
    intro agent sec addr bytes s
    have wrote := busWriteMasked_wrote s agent sec addr.toNat (maskedBytes bytes)
    rw [maskedBytes, List.length_map, ← maskedBytes] at wrote
    obtain ⟨status, answers⟩ := answerWrite_eq agent addr.toNat
      (busWriteMasked s agent sec addr.toNat (maskedBytes bytes))
    have kept := answered_wrote ⟨agent, addr.toNat, status, []⟩ wrote
    exact ⟨_, congrArg Host.Outcome.next answers, kept.parts, kept.bytes, rfl⟩
  case one =>
    intro agent sec addr b s (plain : PlainAt s agent sec addr.toNat) unarmed
    obtain ⟨byte, sound⟩ := oneWritten_unarmed (b := b) plain.room unarmed
    obtain ⟨byte', sound', bytes⟩ := oneWritten_answered ⟨agent, addr.toNat, 0, []⟩ byte sound
    exact ⟨_, exec_memoryWrite_one plain, byte', sound', bytes, rfl⟩
  case data =>
    intro agent sec addr b tg par s (plain : PlainAt s agent sec addr.toNat) armed target
    obtain ⟨byte, bad⟩ := oneWritten_data (b := b) plain.room agent.isLt target armed
    exact ⟨_, congrArg Host.Outcome.next (flipWrite_one plain armed), oneWritten_answered _ byte bad⟩
  case parity =>
    intro agent sec addr b tg par s (plain : PlainAt s agent sec addr.toNat) armed target
    obtain ⟨byte, bad⟩ := oneWritten_parity (b := b) plain.room agent.isLt target armed
    exact ⟨_, congrArg Host.Outcome.next (flipWrite_one plain armed), oneWritten_answered _ byte bad⟩
  case silent =>
    intro agent sec addr b tg par s (plain : PlainAt s agent sec addr.toNat) armed target
    obtain ⟨byte, sound⟩ := oneWritten_silent (b := b) plain.room agent.isLt target armed
    exact ⟨_, congrArg Host.Outcome.next (flipWrite_one plain armed), oneWritten_answered _ byte sound⟩
  case read =>
    intro agent sec addr len s (plain : PlainAt s agent sec addr.toNat) nonempty fits touched sound
    have cells := congrArg MemSt.cells (channelRequest_mem s (lineAt addr.toNat))
    have ran := exec_memoryRead_ok (busRead_slice nonempty fits (plain.read_sound touched sound))
    rw [memBytes_congr cells] at ran
    exact ⟨_, ran, (answered_cells ..).trans cells, rfl⟩
  case blocked =>
    intro agent addr len s normal usable below checked nonempty
    obtain ⟨fault, event, cells⟩ := watermarkBlock_reports s agent false (lineAt addr.toNat)
    refine ⟨_, exec_memoryRead_error (busRead_fails nonempty (readLine_blocked normal usable below checked)),
      ?_, rfl, ?_, ?_⟩
    · rw [answered_cells, cells]
    · rw [answered_hd, fault]
    · rw [answered_hd, event]
  case sram =>
    intro agent off s
    refine ⟨_, exec_secureSramParity_fails agent off s, ?_, ?_, ?_, rfl⟩
    · rw [answered_hd]
      exact raiseFault_bit _ .world 6 false (by decide)
    · rw [isBad_answered, isBad_sramFailed]
    · rw [answered_cells, sramFailed_mem]
      rfl

end Sys2Proof.Machine
end

section
/-!
SUPPORT. A page's event register and the registers of its body, and writes that the register fabric takes.
-/
namespace Sys2Proof.Machine

theorem RegsBut.reg_of_ne {s t : State} {a b : Nat} (h : RegsBut s t [a]) (other : b ≠ a) : t.reg b = s.reg b :=
  h b (mt List.mem_singleton.mp other)

theorem RegsBut.reg_of_ne_pair {s t : State} {a a' b : Nat} (h : RegsBut s t [a, a']) (low : b ≠ a) (high : b ≠ a') :
    t.reg b = s.reg b :=
  h b fun listed => (List.mem_cons.mp listed).elim low fun rest => high (List.mem_singleton.mp rest)

theorem RegsBut.mono {s t : State} {l l' : List Nat} (h : RegsBut s t l) (more : l ⊆ l') : RegsBut s t l' :=
  fun a ha => h a fun listed => ha (more listed)

theorem offset_ne {p : Page} {o o' : Nat} (other : o ≠ o') : pageBase p + o ≠ pageBase p + o' :=
  fun same => other (Nat.add_left_cancel same)

/-- A register of a page's body stands apart from the page's event register. -/
theorem body_ne_irq {p : Page} (common : pageBody p = 0x100) {o : Nat} (body : 0x100 ≤ o) :
    pageBase p + o ≠ hadr p .irqStatus := by
  have irq : hadr p .irqStatus = pageBase p + 0x18 := hadr_common common .irqStatus
  omega

/-- An event leaves the body of its page as it was. -/
theorem State.pr_event {p : Page} (common : pageBody p = 0x100) {o : Nat} (body : 0x100 ≤ o) (s : State) (k : Nat) :
    (s.event p k).pr p o = s.pr p o :=
  (State.reg_event ..).trans (if_neg (body_ne_irq common body))

theorem State.pf_event {p : Page} (common : pageBody p = 0x100) {o : Nat} (body : 0x100 ≤ o) (s : State)
    (k hi lo : Nat) : (s.event p k).pf p o hi lo = s.pf p o hi lo :=
  congrArg (fget · hi lo) (State.pr_event common body s k)

/-- A field reads the value written to it, where it fits. -/
theorem State.pf_setPf_fits {s : State} {p : Page} {o v hi lo : Nat} (order : lo ≤ hi) (word : hi < 32)
    (fits : v < 2 ^ (hi + 1 - lo)) : (s.setPf p o hi lo v).pf p o hi lo = v :=
  (State.pf_setPf order word).trans (Nat.mod_eq_of_lt fits)

/-- A field of a body register that is written, with an event of the page behind it. -/
theorem pf_setPf_event {p : Page} (common : pageBody p = 0x100) {o hi lo : Nat} (body : 0x100 ≤ o) (order : lo ≤ hi)
    (word : hi < 32) {v : Nat} (fits : v < 2 ^ (hi + 1 - lo)) (s : State) (k : Nat) :
    ((s.setPf p o hi lo v).event p k).pf p o hi lo = v :=
  (State.pf_event common body ..).trans (State.pf_setPf_fits order word fits)

theorem setPf_registerParts (s : State) (p : Page) (o hi lo v : Nat) : RegisterParts s (s.setPf p o hi lo v) := rfl

theorem setPr_registerParts (s : State) (p : Page) (o : Nat) (v : Word) : RegisterParts s (s.setPr p o v) := rfl

theorem setPair_registerParts (s : State) (p : Page) (o v : Nat) : RegisterParts s (s.setPair p o v) :=
  (setPr_registerParts ..).trans (setPr_registerParts ..)

theorem event_registerParts (s : State) (p : Page) (k : Nat) : RegisterParts s (s.event p k) := State.event_only ..

end Sys2Proof.Machine
end

section
/-!
PROOF. Translations and their invalidation (R398, R402 to R404).
-/
namespace Sys2Proof.Machine

/-! Stage 2 of a function (R398, R400, R402). -/

/-- The cached leaf of a function that an address lies in. -/
def cachedLeaf (s : State) (f a : Nat) : Option S2Ent :=
  s.xlate.s2.find? (fun e => e.func == f && e.ip ≤ a && a < e.ip + e.size)

section
variable {s : State} {q : XReq} {a : Nat} (native : legacyOn s = false)
include native

theorem stage2_allowed {e : S2Ent} (cached : cachedLeaf s q.func a = some e) (allows : leafCause s q e = none) :
    stage2 s q a = (s, .ok ⟨e.out + (a - e.ip), e.host, e.ns⟩) := by
  rw [cachedLeaf] at cached
  simp [stage2, native, cached, allows]

theorem stage2_noRoot (cached : cachedLeaf s q.func a = none)
    (root : bit (s.pair (.func q.func) Reg.FUNC_S2_ROOT_LO) 0 = false) :
    stage2 s q a = (xlateFault s q 6 1 a, .error ()) := by
  rw [cachedLeaf] at cached
  simp [stage2, native, cached, root]

end

/-- The request of a normal access of a function whose address enters stage 2 (R397, R402). -/
def walkReq (f : Fin 64) (w : Bool) (ag : Fin 29) (src : Fin 12) : XReq :=
  ⟨f, ag, false, w, src, 0, [5, 6, 7, 8, 9, 0xB].contains src.val⟩

theorem exec_xlateWalk_stage2 {f : Fin 64} {s : State} (there : funcExists s f = true) (addr : BitVec 48) (w : Bool)
    (ag : Fin 29) (src : Fin 12) :
    exec (.xlateWalk f none addr w ag src) s = .next (stage2 s (walkReq f w ag src) addr.toNat).1 := by
  change execXlateWalk f none addr w ag src s = _
  simp [execXlateWalk, there, walkReq]

/-- XFAULT_INFO of a stage-2 fault (R381, R402). -/
def xfaultInfo (q : XReq) (cause : Nat) : Word :=
  w32 (2 ^ 31 + 2 ^ 24 * cause + 2 ^ 23 + 2 ^ 22 * b2n q.write + q.source)

/-- XFAULT_INFO and XFAULT_ADDR of a function after a stage-2 fault, with the event. -/
def xfaultShown (s : State) (q : XReq) (cause a : Nat) : State :=
  ((s.setPr (.func q.func) Reg.FUNC_XFAULT_INFO (xfaultInfo q cause)).setPair (.func q.func) Reg.FUNC_XFAULT_ADDR_LO
    a).event (.func q.func) 2

/-- A stage-2 fault shows in the function's page, counts in XLATE, and is logged (R402). -/
theorem xlateFault_stage2 (s : State) (q : XReq) (cause a : Nat) :
    xlateFault s q cause 1 a = ((xfaultShown s q cause a).count .xlate Reg.XLATE_FAULTS).logLimited
      (3000 + q.func) 1000000 .host (pageBase (.func q.func)) cause a := by
  simp only [xlateFault, one_ne_zero, if_false, if_true, mul_zero, mul_one, add_zero]
  rfl

/-- The registers of XLATE stand apart from those of a function's page. -/
theorem xlate_ne_func {o : Nat} (inside : o < 0x1000) (f o' : Nat) :
    pageBase .xlate + o ≠ pageBase (.func f) + o' := by
  simp only [pageBase]
  omega

/-- What the function's page shows of a stage-2 fault (R381, R402). -/
theorem xfaultShown_shows (s : State) (q : XReq) (cause : Nat) {a : Nat} (fits : a < 2 ^ 64) :
    (xfaultShown s q cause a).pr (.func q.func) Reg.FUNC_XFAULT_INFO = xfaultInfo q cause ∧
    (xfaultShown s q cause a).pair (.func q.func) Reg.FUNC_XFAULT_ADDR_LO = a ∧
    fbit ((xfaultShown s q cause a).hd (.func q.func) .irqStatus) 2 = true := by
  let p : Page := .func q.func
  let informed := s.setPr p Reg.FUNC_XFAULT_INFO (xfaultInfo q cause)
  let placed := informed.setPair p Reg.FUNC_XFAULT_ADDR_LO a
  have silent (o : Nat) (body : 0x100 ≤ o) : (xfaultShown s q cause a).pr p o = placed.pr p o :=
    State.pr_event rfl body placed 2
  have place : RegsBut informed placed
      [pageBase p + Reg.FUNC_XFAULT_ADDR_LO, pageBase p + (Reg.FUNC_XFAULT_ADDR_LO + 4)] :=
    setPair_regsBut (.head _) (.tail _ (.head _))
  refine ⟨?_, ?_, event_bit placed p 2 (by decide)⟩
  · calc (xfaultShown s q cause a).pr p Reg.FUNC_XFAULT_INFO
      _ = placed.pr p Reg.FUNC_XFAULT_INFO := silent _ (by decide)
      _ = informed.pr p Reg.FUNC_XFAULT_INFO := place.reg_of_ne_pair (offset_ne (by decide)) (offset_ne (by decide))
      _ = xfaultInfo q cause := State.pr_setPr ..
  · calc (xfaultShown s q cause a).pair p Reg.FUNC_XFAULT_ADDR_LO
      _ = placed.pair p Reg.FUNC_XFAULT_ADDR_LO := by
        rw [State.pair, silent _ (by decide), silent _ (by decide), State.pair]
      _ = a := State.pair_setPair _ _ _ fits

theorem xfaultShown_registerParts (s : State) (q : XReq) (cause a : Nat) :
    RegisterParts s (xfaultShown s q cause a) :=
  ((setPr_registerParts ..).trans (setPair_registerParts ..)).trans (event_registerParts ..)

theorem xfaultShown_faults (s : State) (q : XReq) (cause a : Nat) :
    (xfaultShown s q cause a).pr .xlate Reg.XLATE_FAULTS = s.pr .xlate Reg.XLATE_FAULTS := by
  have other (o : Nat) := xlate_ne_func (o := Reg.XLATE_FAULTS) (by decide) q.func o
  have apart : pageBase .xlate + Reg.XLATE_FAULTS ≠ hadr (.func q.func) .irqStatus := other _
  unfold xfaultShown State.setPair State.pr
  rw [State.reg_event, if_neg apart, State.reg_setPr, if_neg (other _), State.reg_setPr, if_neg (other _),
    State.reg_setPr, if_neg (other _)]

/-- A limited log entry behind a change of registers and the cycle's record. -/
theorem RegisterParts.logLimited {s t : State} (h : RegisterParts s t) (key interval : Nat) (k : LogKind)
    (place code addr : Nat) :
    let u := t.logLimited key interval k place code addr
    u = { s with regs := u.regs, cyc := u.cyc, log := u.log } := by
  intro u
  have only : u = { t with log := u.log } := State.logLimited_only ..
  rw [only, h]

/-- A stage-2 fault touches registers, the cycle's record and the log, and shows its cause, its address and an event,
with one more fault counted (R381, R402). -/
theorem xlateFault_stage2_shows (s : State) (q : XReq) (cause : Nat) {a : Nat} (fits : a < 2 ^ 64) :
    let t := xlateFault s q cause 1 a
    t = { s with regs := t.regs, cyc := t.cyc, log := t.log } ∧
      t.pr (.func q.func) Reg.FUNC_XFAULT_INFO = xfaultInfo q cause ∧
      t.pair (.func q.func) Reg.FUNC_XFAULT_ADDR_LO = a ∧ fbit (t.hd (.func q.func) .irqStatus) 2 = true ∧
      t.pr .xlate Reg.XLATE_FAULTS = s.pr .xlate Reg.XLATE_FAULTS + 1 := by
  obtain ⟨info, place, irq⟩ := xfaultShown_shows s q cause fits
  have faults := xfaultShown_faults s q cause a
  have parts := xfaultShown_registerParts s q cause a
  rw [xlateFault_stage2]
  generalize xfaultShown s q cause a = u at info place irq faults parts ⊢
  let counted := u.count .xlate Reg.XLATE_FAULTS
  have silent : RegsBut u counted [pageBase .xlate + Reg.XLATE_FAULTS] := count_regsBut (.head _)
  have others (o : Nat) : counted.reg (pageBase (.func q.func) + o) = u.reg (pageBase (.func q.func) + o) :=
    silent.reg_of_ne (xlate_ne_func (o := Reg.XLATE_FAULTS) (by decide) q.func o).symm
  refine ⟨?_, ?_, ?_, ?_, ?_⟩
  · exact (parts.trans (count_registerParts ..)).logLimited ..
  · rw [State.pr, State.logLimited_reg]
    exact (others _).trans info
  · rw [State.pair, State.pr, State.pr, State.logLimited_reg, State.logLimited_reg]
    refine Eq.trans ?_ place
    rw [State.pair, State.pr, State.pr, others, others]
  · rw [State.hd, State.logLimited_reg]
    exact (congrArg (fbit · 2) (others 0x18)).trans irq
  · rw [State.pr, State.logLimited_reg, ← faults]
    exact State.pr_setPr ..

/-! Invalidations (R403, R404). -/

/-- The drop of stage-1 entries leaves stage 2, the entries of other functions, and of its own those that the test
spares. -/
theorem dropS1_drops (s : State) (f : Nat) (hit : Nat → Nat → Nat → Bool) :
    (dropS1 s f hit).xlate.s2 = s.xlate.s2 ∧ (∀ e ∈ s.xlate.s1, e.func ≠ f → e ∈ (dropS1 s f hit).xlate.s1) ∧
    ∀ e ∈ (dropS1 s f hit).xlate.s1, e.func = f → hit e.ctx e.va e.size = false := by
  refine ⟨rfl, fun e he other => List.mem_filter.mpr ⟨he, by simp [other]⟩, fun e he own => ?_⟩
  simpa [own] using (List.mem_filter.mp he).2

/-- The drop of a function's whole stage 2 leaves the leaves of other functions. -/
theorem dropS2_drops (s : State) (f : Nat) :
    (∀ e ∈ s.xlate.s2, e.func ≠ f → e ∈ (dropS2 s f 0 (2 ^ 64)).xlate.s2) ∧
    ∀ e ∈ (dropS2 s f 0 (2 ^ 64)).xlate.s2, e.func = f → 2 ^ 64 ≤ e.ip ∨ e.ip + e.size = 0 := by
  refine ⟨fun e he other => List.mem_filter.mpr ⟨he, by simp [other]⟩, fun e he own => ?_⟩
  have spared := (List.mem_filter.mp he).2
  simp only [own, beq_self_eq_true, Bool.true_and, Bool.not_eq_true', Bool.and_eq_false_iff,
    decide_eq_false_iff_not] at spared
  omega

/-- What a write of S1INV_CMD with SCOPE hits of a context's entries (R403). -/
def s1Hit (s : State) (f : Nat) (v : Word) (c a n : Nat) : Bool :=
  let va := 4096 * s.pf (.func f) Reg.FUNC_S1INV_ADDR_LO 31 12 + 2 ^ 32 * s.pf (.func f) Reg.FUNC_S1INV_ADDR_HI 15 0
  match fget v 29 28 with
  | 0 => true
  | 1 => c == fget v 19 16
  | _ => c == fget v 19 16 && a < va + 4096 * fget v 15 0 && va < a + n

/-- S1INV_CMD takes the fields of a write. -/
def s1Commanded (s : State) (f : Nat) (v : Word) : State :=
  s.setPr (.func f) Reg.FUNC_S1INV_CMD ((s.pr (.func f) Reg.FUNC_S1INV_CMD &&& 0x40000000) ||| (v &&& 0x300FFFFF))

/-- A write of S1INV_CMD with GO drops the entries of its scope and shows BUSY. -/
theorem s1invOp_go (s : State) (f : Nat) {v : Word} (go : fbit v 31 = true) :
    s1invOp s f v = (dropS1 (s1Commanded s f v) f (s1Hit (s1Commanded s f v) f v)).setPf
      (.func f) Reg.FUNC_S1INV_CMD 30 30 1 := by
  rw [s1invOp, go]
  rfl

theorem s1invOp_drops (s : State) (f : Nat) {v : Word} (go : fbit v 31 = true) :
    let t := s1invOp s f v
    t.pf (.func f) Reg.FUNC_S1INV_CMD 30 30 = 1 ∧ RegsBut s t [pageBase (.func f) + Reg.FUNC_S1INV_CMD] ∧
      t.xlate.s2 = s.xlate.s2 ∧ t.mem = s.mem ∧ (∀ e ∈ s.xlate.s1, e.func ≠ f → e ∈ t.xlate.s1) ∧
      (fget v 29 28 = 0 → ∀ e ∈ t.xlate.s1, e.func ≠ f) ∧
      (fget v 29 28 = 1 → ∀ e ∈ t.xlate.s1, e.func = f → e.ctx ≠ fget v 19 16) := by
  have commanded : RegsBut s (s1Commanded s f v) [pageBase (.func f) + Reg.FUNC_S1INV_CMD] := setPr_regsBut (.head _)
  have xlate : (s1Commanded s f v).xlate = s.xlate := State.setPr_xlate ..
  have mem : (s1Commanded s f v).mem = s.mem := State.setPr_mem ..
  simp only [s1invOp_go s f go]
  generalize s1Commanded s f v = u at commanded xlate mem ⊢
  obtain ⟨stage2, others, own⟩ := dropS1_drops u f (s1Hit u f v)
  rw [State.setPf_xlate, State.setPf_mem]
  refine ⟨State.pf_setPf_fits (by decide) (by decide) (by decide), ?_, stage2.trans (congrArg XlateSt.s2 xlate),
    mem, xlate ▸ others, fun all e he mine => ?_, fun one e he mine => ?_⟩
  · exact commanded.trans (setPf_regsBut (s := dropS1 u f (s1Hit u f v)) (.head _))
  · have spared := own e he mine
    simp [s1Hit, all] at spared
  · have spared := own e he mine
    simpa [s1Hit, one] using spared

/-- S2INV_CMD takes the fields of a write. -/
def s2Commanded (s : State) (p : Nat) (v : Word) : State :=
  s.setPr .xlate (s2invOff p 8) ((s.pr .xlate (s2invOff p 8) &&& 0x40000000) ||| (v &&& 0x303FFFFF))

/-- A write of S2INV_CMD with GO for a whole function drops its leaves and shows BUSY. -/
theorem s2invOp_go (s : State) (p : Nat) {v : Word} (go : fbit v 31 = true) (whole : fget v 29 28 = 0) :
    s2invOp s p v = (dropS2 (s2Commanded s p v) (fget v 21 16) 0 (2 ^ 64)).setPf .xlate (s2invOff p 8) 30 30 1 := by
  rw [s2invOp, go, whole]
  rfl

theorem s2invOp_drops (s : State) (p : Nat) {v : Word} (go : fbit v 31 = true) (whole : fget v 29 28 = 0) :
    let t := s2invOp s p v
    t.pf .xlate (s2invOff p 8) 30 30 = 1 ∧ RegsBut s t [pageBase .xlate + s2invOff p 8] ∧ t.mem = s.mem ∧
      (∀ e ∈ s.xlate.s2, e.func ≠ fget v 21 16 → e ∈ t.xlate.s2) ∧
      ∀ e ∈ t.xlate.s2, e.func = fget v 21 16 → 2 ^ 64 ≤ e.ip ∨ e.ip + e.size = 0 := by
  have commanded : RegsBut s (s2Commanded s p v) [pageBase .xlate + s2invOff p 8] := setPr_regsBut (.head _)
  have xlate : (s2Commanded s p v).xlate = s.xlate := State.setPr_xlate ..
  have mem : (s2Commanded s p v).mem = s.mem := State.setPr_mem ..
  simp only [s2invOp_go s p go whole]
  generalize s2Commanded s p v = u at commanded xlate mem ⊢
  obtain ⟨others, own⟩ := dropS2_drops u (fget v 21 16)
  rw [State.setPf_xlate, State.setPf_mem]
  exact ⟨State.pf_setPf_fits (by decide) (by decide) (by decide),
    commanded.trans (setPf_regsBut (s := dropS2 u (fget v 21 16) 0 (2 ^ 64)) (.head _)), mem, xlate ▸ others, own⟩

theorem exec_s1invDone_busy {f : Fin 64} {s : State} (busy : s.pf (.func f) Reg.FUNC_S1INV_CMD 30 30 = 1) :
    exec (.s1invDone f) s = .next ((s.setPf (.func f) Reg.FUNC_S1INV_CMD 30 30 0).event (.func f) 7) := by
  change execS1invDone f s = _
  rw [execS1invDone, if_pos busy]

theorem exec_s2invDone_busy {p : Fin 2} {s : State} (busy : s.pf .xlate (s2invOff p 8) 30 30 = 1) :
    exec (.s2invDone p) s = .next ((s.setPf .xlate (s2invOff p 8) 30 30 0).event (.func (32 * p.val)) 8) := by
  change execS2invDone p s = _
  rw [execS2invDone, if_pos busy]

/-! A new root (R403). -/

/-- The lower word that a master staged and the upper word that it writes stand in force (R71). -/
theorem hiWrite_puts {s : State} {m : Master} {lo : Nat} {v w : Word} (staged : s.staged m lo lo = [(lo, w)]) :
    (hiWrite s m lo v).reg lo = w ∧ (hiWrite s m lo v).reg (lo + 4) = v ∧
      RegsBut s (hiWrite s m lo v) [lo, lo + 4] ∧ (hiWrite s m lo v).mem = s.mem := by
  have put : hiWrite s m lo v = ((s.setReg lo w).unstage m lo).setReg (lo + 4) v := by
    rw [hiWrite, State.applyStaged, staged]
    rfl
  rw [put]
  refine ⟨?_, ?_, ?_, rfl⟩
  · rw [State.reg_setReg, if_neg (by omega), State.unstage_reg, State.reg_setReg, if_pos rfl]
  · rw [State.reg_setReg, if_pos rfl]
  · exact RegsBut.trans (setReg_regsBut (.head _))
      (setReg_regsBut (s := (s.setReg lo w).unstage m lo) (.tail _ (.head _)))

/-- A new root of stage 2 stands in force, and no leaf of its function is left. -/
theorem s2RootOp_drops {s : State} {m : Master} {f : Nat} {v w : Word}
    (staged : s.staged m (pageBase (.func f) + Reg.FUNC_S2_ROOT_LO) (pageBase (.func f) + Reg.FUNC_S2_ROOT_LO) =
      [(pageBase (.func f) + Reg.FUNC_S2_ROOT_LO, w)]) :
    let t := s2RootOp s m f v
    t.reg (pageBase (.func f) + Reg.FUNC_S2_ROOT_LO) = w ∧
      t.reg (pageBase (.func f) + Reg.FUNC_S2_ROOT_HI) = v &&& 0xFFFF ∧
      RegsBut s t [pageBase (.func f) + Reg.FUNC_S2_ROOT_LO, pageBase (.func f) + Reg.FUNC_S2_ROOT_HI] ∧
      t.mem = s.mem ∧ ∀ e ∈ t.xlate.s2, e.func = f → 2 ^ 64 ≤ e.ip ∨ e.ip + e.size = 0 := by
  have put := hiWrite_puts (v := v &&& 0xFFFF) staged
  rw [s2RootOp]
  generalize hiWrite s m (pageBase (.func f) + Reg.FUNC_S2_ROOT_LO) (v &&& 0xFFFF) = u at put ⊢
  obtain ⟨low, high, regs, mem⟩ := put
  exact ⟨low, high, regs, mem, (dropS2_drops u f).2⟩

/-- Settles O39: a walk is `stage2`, whose fault shows by `xlateFault_stage2_shows`; an invalidation is `dropS1` or
`dropS2`, which spare what `dropS1_drops` and `dropS2_drops` name. -/
theorem translations : Obligations.Translations := by
  refine ⟨?cached, ?noRoot, ?s1Go, ?s1Done, ?s2Go, ?s2Done, ?root⟩
  case cached =>
    intro f addr w ag src e s there native cached allows
    rw [exec_xlateWalk_stage2 there, stage2_allowed (q := walkReq f w ag src) native cached allows]
  case noRoot =>
    intro f addr w ag src s there native cached root
    have ran := exec_xlateWalk_stage2 there addr w ag src
    rw [stage2_noRoot (q := walkReq f w ag src) native cached root] at ran
    exact ⟨_, ran, xlateFault_stage2_shows s (walkReq f w ag src) 6 (addr.isLt.trans (by decide))⟩
  case s1Go =>
    intro m f v s a u accepts check go
    have ran : exec (.s1invGo m f v) s = .next ((s1invOp u f v).noteWrite a) := congrArg Host.Outcome.next
      (writeReg_taken (check := fun s => s1invCheck s f v) (op := fun s => s1invOp s f v) accepts check)
    have drops := s1invOp_drops u f go
    generalize s1invOp u f v = t at ran drops
    exact ⟨_, ran, drops⟩
  case s1Done =>
    intro f s busy
    have ran := exec_s1invDone_busy busy
    refine ⟨_, ran, (setPf_registerParts ..).trans (event_registerParts ..), ?_, event_bit _ _ _ (by decide), ?_⟩
    · exact pf_setPf_event (p := .func f.val) rfl (by decide) (by decide) (by decide) (by decide) ..
    · exact RegsBut.trans (setPf_regsBut (.head _)) (event_regsBut (.tail _ (.head _)))
  case s2Go =>
    intro m p v s a u accepts check go whole
    have ran : exec (.s2invGo m p v) s = .next ((s2invOp u p v).noteWrite a) := congrArg Host.Outcome.next
      (writeReg_taken (check := fun s => s2invCheck s p v) (op := fun s => s2invOp s p v) accepts check)
    have drops := s2invOp_drops u p go whole
    generalize s2invOp u p v = t at ran drops
    exact ⟨_, ran, drops⟩
  case s2Done =>
    intro p s busy
    have inside : s2invOff p 8 < 0x1000 := by
      unfold s2invOff
      omega
    have apart := xlate_ne_func inside (32 * p) 0x18
    have ran := exec_s2invDone_busy busy
    refine ⟨_, ran, (setPf_registerParts ..).trans (event_registerParts ..), ?_, event_bit _ _ _ (by decide), ?_⟩
    · have silent : RegsBut (s.setPf .xlate (s2invOff p 8) 30 30 0) _ [hadr (.func (32 * p.val)) .irqStatus] :=
        event_regsBut (k := 8) (.head _)
      exact (silent.pf (mt List.mem_singleton.mp apart) 30 30).trans
        (State.pf_setPf_fits (by decide) (by decide) (by decide))
    · exact RegsBut.trans (setPf_regsBut (.head _)) (event_regsBut (.tail _ (.head _)))
  case root =>
    intro m f v w s a u accepts staged
    have ran : exec (.s2RootWrite m f v) s = .next ((s2RootOp u m f v).noteWrite a) := congrArg Host.Outcome.next
      (writeReg_taken (check := fun _ => none) (op := fun s => s2RootOp s m f v) accepts rfl)
    have drops := s2RootOp_drops (v := v) staged
    generalize s2RootOp u m f v = t at ran drops
    exact ⟨_, ran, drops⟩

end Sys2Proof.Machine
end

section
/-!
PROOF. Migration: FREEZE, SAVE, RESTORE and RESUME (R393 to R396).
-/
namespace Sys2Proof.Machine

/-! The end of a command (R393). -/

/-- The registers that the end of a migration command writes. -/
def migRegs (f : Nat) : List Nat := [pageBase (.func f) + Reg.FUNC_MIG_STATUS, hadr (.func f) .irqStatus]

theorem MigResult.code_lt (r : MigResult) : r.code < 16 := by
  cases r <;> decide

theorem migEnd_registerParts (s : State) (f : Nat) (r : MigResult) : RegisterParts s (migEnd s f r) :=
  ((setPf_registerParts ..).trans (setPf_registerParts ..)).trans (event_registerParts ..)

theorem migEnd_regsBut (s : State) (f : Nat) (r : MigResult) : RegsBut s (migEnd s f r) (migRegs f) :=
  ((setPf_regsBut (.head _)).trans (setPf_regsBut (.head _))).trans (event_regsBut (.tail _ (.head _)))

/-- MIG_STATUS shows the result and no BUSY, and MIG_DONE is set. -/
theorem migEnd_shows (s : State) (f : Nat) (r : MigResult) :
    (migEnd s f r).pf (.func f) Reg.FUNC_MIG_STATUS 31 31 = 0 ∧
    (migEnd s f r).pf (.func f) Reg.FUNC_MIG_STATUS 19 16 = r.code ∧
    fbit ((migEnd s f r).hd (.func f) .irqStatus) 5 = true := by
  refine ⟨?_, ?_, event_bit _ _ _ (by decide)⟩
  · rw [migEnd, State.pf_event rfl (by decide), State.pf_setPf_otherField (by decide) (by decide) (by decide)]
    exact State.pf_setPf_fits (by decide) (by decide) (by decide)
  · rw [migEnd]
    exact pf_setPf_event rfl (by decide) (by decide) (by decide) r.code_lt ..

/-- A register of a function's page outside the header that is not MIG_STATUS. -/
theorem migEnd_pf (s : State) (f : Nat) (r : MigResult) {o : Nat} (body : 0x100 ≤ o) (other : o ≠ Reg.FUNC_MIG_STATUS)
    (hi lo : Nat) : (migEnd s f r).pf (.func f) o hi lo = s.pf (.func f) o hi lo := by
  rw [migEnd, State.pf_event rfl body, State.pf_setPf_otherReg other, State.pf_setPf_otherReg other]

/-! A write of MIG_CTRL (R393). -/

/-- MIG_CTRL takes the command. -/
def commanded (s : State) (f cmd : Nat) : State := s.setPf (.func f) Reg.FUNC_MIG_CTRL 2 0 cmd

theorem commanded_registerParts (s : State) (f cmd : Nat) : RegisterParts s (commanded s f cmd) :=
  setPf_registerParts ..

theorem commanded_regsBut (s : State) (f cmd : Nat) :
    RegsBut s (commanded s f cmd) [pageBase (.func f) + Reg.FUNC_MIG_CTRL] := setPf_regsBut (.head _)

theorem commanded_frozen (s : State) (f cmd : Nat) : funcFrozen (commanded s f cmd) f = funcFrozen s f :=
  congrArg (· == 1) (State.pf_setPf_otherReg (by decide))

theorem migWrite_takes {s : State} {m : Master} {f : Fin 64} {v : Word}
    (accepts : Accepts s m (pageBase (.func f) + Reg.FUNC_MIG_CTRL))
    (check : migCheck (taken s m (pageBase (.func f) + Reg.FUNC_MIG_CTRL)) f v = none) :
    migWrite s m f v = (migWriteOp (taken s m (pageBase (.func f) + Reg.FUNC_MIG_CTRL)) f v).noteWrite
      (pageBase (.func f) + Reg.FUNC_MIG_CTRL) :=
  writeReg_taken (check := fun s => migCheck s f v) (op := fun s => migWriteOp s f v) accepts check

section
variable {v : Word} (s : State) (f : Fin 64) (go : fbit v 31 = true)
include go

theorem migWriteOp_freeze (cmd : fget v 2 0 = 1) : migWriteOp s f v = freezeOp (commanded s f 1) f := by
  simp [migWriteOp, cmd, go, commanded]

theorem migWriteOp_save (cmd : fget v 2 0 = 2) : migWriteOp s f v = saveOp (commanded s f 2) f := by
  simp [migWriteOp, cmd, go, commanded]

theorem migWriteOp_restore (cmd : fget v 2 0 = 3) : migWriteOp s f v = restoreOp (commanded s f 3) f := by
  simp [migWriteOp, cmd, go, commanded]

theorem migWriteOp_resume (cmd : fget v 2 0 = 4) : migWriteOp s f v = resumeOp (commanded s f 4) f := by
  simp [migWriteOp, cmd, go, commanded]

end

/-! FREEZE (R394). -/

theorem freeJob_slotParts (s : State) (i : Nat) : SlotParts s (freeJob s i) := (setJob_slotParts s i none).setSched _

/-- t has of s the ring sets, memory, and the registers of function f's page below its rings. -/
structure FreezeKeeps (f : Nat) (s t : State) : Prop where
  rings : t.rings = s.rings
  mem : t.mem = s.mem
  regs : ∀ o < 0x200, t.pr (.func f) o = s.pr (.func f) o

theorem FreezeKeeps.refl (f : Nat) (s : State) : FreezeKeeps f s s := ⟨rfl, rfl, fun _ _ => rfl⟩

theorem FreezeKeeps.trans {f : Nat} {s t u : State} (h : FreezeKeeps f s t) (k : FreezeKeeps f t u) :
    FreezeKeeps f s u :=
  ⟨k.rings.trans h.rings, k.mem.trans h.mem, fun o low => (k.regs o low).trans (h.regs o low)⟩

theorem SlotParts.freezeKeeps {s t : State} (h : SlotParts s t) (f : Nat) : FreezeKeeps f s t := by
  refine ⟨by rw [h.parts], h.mem, fun o _ => h.regs.reg_of_ne ?_⟩
  have jobs : jobsReg = 0x3110 := rfl
  rw [jobs, pageBase]
  omega

/-- A function's ring registers stand behind the registers that FREEZE keeps. -/
theorem setRingF_freezeKeeps (s : State) {f : Nat} (function : f < 64) (q o hi lo v : Nat) :
    FreezeKeeps f s (setRingF s f q o hi lo v) := by
  refine ⟨rfl, rfl, fun a low => (State.reg_setPf ..).trans (if_neg ?_)⟩
  have rings := ringOff_low f q
  rw [ringPage, if_pos function]
  omega

/-- FREEZE releases jobs that wait and moves HEAD of their rings back. -/
theorem releaseWaiting_keeps (s : State) {f : Nat} (function : f < 64) :
    FreezeKeeps f s (releaseWaiting s f) := by
  refine State.foldl_invariant (FreezeKeeps f s) _ _ _ (.refl f s) fun t q kept => ?_
  split
  · exact kept
  · refine State.foldl_invariant (FreezeKeeps f s) _ _ _ (kept.trans (setRingF_freezeKeeps _ function ..))
      fun u e kept => kept.trans ((freeJob_slotParts u e.1).freezeKeeps f)

/-- MIG_STATUS shows BUSY. -/
def migBusy (s : State) (f : Nat) : State := s.setPf (.func f) Reg.FUNC_MIG_STATUS 31 31 1

theorem freezeOp_running {s : State} {f : Nat} (runs : funcFrozen s f = false) :
    freezeOp s f = releaseWaiting ((migBusy s f).setRing f { (migBusy s f).ring f with freezing := true }) f := by
  rw [freezeOp, if_neg (by simp [runs])]
  rfl

/-- FREEZE of a function that is not frozen makes it busy (R394). -/
theorem freezeOp_freezes {s : State} {f : Nat} (function : f < 64) (runs : funcFrozen s f = false) :
    (freezeOp s f).pf (.func f) Reg.FUNC_MIG_STATUS 31 31 = 1 ∧ ((freezeOp s f).ring f).freezing = true ∧
      (freezeOp s f).mem = s.mem := by
  have shows : (migBusy s f).pf (.func f) Reg.FUNC_MIG_STATUS 31 31 = 1 := by
    rw [migBusy]
    exact State.pf_setPf_fits (by decide) (by decide) (by decide)
  have mem : (migBusy s f).mem = s.mem := State.setPf_mem ..
  rw [freezeOp_running runs]
  generalize migBusy s f = busy at shows mem ⊢
  have kept := releaseWaiting_keeps (busy.setRing f { busy.ring f with freezing := true }) function
  refine ⟨?_, ?_, kept.mem.trans ((State.setRing_mem ..).trans mem)⟩
  · rw [State.pf, kept.regs _ (by decide), State.pr, State.setRing_reg]
    exact shows
  · rw [State.ring, kept.rings]
    exact congrArg RingSt.freezing (State.ring_setRing busy f { busy.ring f with freezing := true })

theorem exec_freezeDone {f : Fin 64} {s : State} (freezing : (s.ring f).freezing = true)
    (free : ∀ e ∈ jobsIn s, e.2.rs ≠ f.val) (drained : (s.ring f).cqWait = [])
    (applied : ∀ j ∈ s.legend.jobs, j.func ≠ f.val) :
    exec (.freezeDone f) s = .next (migEnd
      ((s.setRing f { s.ring f with freezing := false }).setPf (.func f) Reg.FUNC_FUNC_STATUS 11 11 1) f .ok) := by
  have slots : (jobsIn s).any (fun e => e.2.rs == f.val) = false := by simpa using free
  have points : s.legend.jobs.any (fun j => j.func == f.val) = false := by simpa using applied
  change execFreezeDone f s = _
  simp [execFreezeDone, freezing, drained, slots, points]

/-! SAVE (R395). -/

/-- SAVE of a frozen function ends behind the write of its image. -/
theorem saveOp_saves {s : State} {f b : Nat} (frozen : funcFrozen s f = true) (place : imageAddr s f = some b) :
    let w := busWrite s (portAgent f) false b (imageOf s f)
    ∃ x r, saveOp s f = migEnd x f r ∧ x.mem = w.1.mem ∧ (w.2 = .ok () → r = .ok) := by
  intro w
  have written : busWrite s (portAgent f) false b (imageOf s f) = w := rfl
  obtain ⟨u, e⟩ := w
  cases e with
  | error e => exact ⟨u, .access, by simp [saveOp, frozen, place, written], rfl, fun h => nomatch h⟩
  | ok =>
    refine ⟨u.setPf (.func f) Reg.FUNC_MIG_STATUS 10 0 ((imageOf s f).length / 64), .ok, ?_, rfl, fun _ => rfl⟩
    simp [saveOp, frozen, place, written]

/-! RESTORE and RESUME (R396). -/

/-- RESTORE of a frozen function ends with the result of the image's checks; an image that fails one changes
nothing more. -/
theorem restoreOp_ends {s : State} {f : Fin 64} {b : Nat} (frozen : funcFrozen s f = true)
    (place : imageAddr s f = some b) :
    ∃ x r, restoreOp s f = migEnd x f r ∧ ∀ v img, busRead s (portAgent f) false b 47104 = (v, .ok img) →
      r = migImageCheck v f img ∧ (r ≠ .ok → x = v) := by
  cases read : busRead s (portAgent f) false b 47104 with
  | mk v e =>
    cases e with
    | error e =>
      exact ⟨v, .access, by simp [restoreOp, frozen, place, read], fun _ _ h => nomatch (Prod.mk.inj h).2⟩
    | ok img =>
      have ends : restoreOp s f =
          migEnd (if migImageCheck v f img = .ok then imageLoad v f img else v) f (migImageCheck v f img) := by
        simp only [restoreOp, frozen, place, read]
        cases migImageCheck v f img <;> rfl
      refine ⟨_, _, ends, fun v' img' h => ?_⟩
      obtain ⟨rfl, same⟩ := Prod.mk.inj h
      obtain rfl := Except.ok.inj same
      exact ⟨rfl, fun fails => if_neg fails⟩

theorem resumeOp_resumes {s : State} {f : Nat} (frozen : funcFrozen s f = true) :
    resumeOp s f = migEnd (s.setPf (.func f) Reg.FUNC_FUNC_STATUS 11 11 0) f .ok := by
  simp [resumeOp, frozen]

/-- FROZEN reads what is written to it, through the end of a command. -/
theorem migEnd_frozen (s : State) (f : Nat) (r : MigResult) {v : Nat} (one : v < 2) :
    funcFrozen (migEnd (s.setPf (.func f) Reg.FUNC_FUNC_STATUS 11 11 v) f r) f = (v == 1) := by
  rw [funcFrozen, migEnd_pf _ _ _ (by decide) (by decide)]
  exact congrArg (· == 1) (State.pf_setPf_fits (by decide) (by decide) one)

/-- Settles O43: every command ends in `migEnd`, whose registers are `migEnd_shows`; FREEZE begins in `freezeOp`. -/
theorem migration : Obligations.Migration := by
  refine ⟨?freeze, ?freezeDone, ?save, ?restore, ?resume⟩
  case freeze =>
    intro m f s a u accepts check runs
    have ran : exec (.freeze m f) s = .next ((freezeOp (commanded u f 1) f).noteWrite a) :=
      congrArg Host.Outcome.next ((migWrite_takes accepts check).trans
        (congrArg (State.noteWrite · a) (migWriteOp_freeze u f (by decide) (by decide))))
    have freezes := freezeOp_freezes f.isLt ((commanded_frozen u f 1).trans runs)
    have mem := (commanded_registerParts u f 1).mem
    generalize freezeOp (commanded u f 1) f = t at ran freezes
    obtain ⟨busy, freezing, kept⟩ := freezes
    exact ⟨_, ran, busy, freezing, kept.trans mem⟩
  case freezeDone =>
    intro f s freezing free drained applied
    have ran := exec_freezeDone freezing free drained applied
    generalize thawed : s.setRing f { s.ring f with freezing := false } = u at ran
    have parts : u = { s with rings := u.rings } := by rw [← thawed, State.setRing]
    have ring : (u.ring f).freezing = false := by rw [← thawed, State.ring_setRing]
    have regs : ∀ b, u.reg b = s.reg b := fun b => by rw [← thawed, State.setRing_reg]
    clear thawed
    obtain ⟨idle, result, done⟩ := migEnd_shows (u.setPf (.func f) Reg.FUNC_FUNC_STATUS 11 11 1) f .ok
    have frozen := migEnd_frozen u f .ok (v := 1) (by decide)
    have ended : RegisterParts u (migEnd (u.setPf (.func f) Reg.FUNC_FUNC_STATUS 11 11 1) f .ok) :=
      (setPf_registerParts ..).trans (migEnd_registerParts ..)
    have quiet : RegsBut u (migEnd (u.setPf (.func f) Reg.FUNC_FUNC_STATUS 11 11 1) f .ok)
        ((pageBase (.func f) + Reg.FUNC_FUNC_STATUS) :: migRegs f) :=
      (setPf_regsBut (.head _)).trans fun b hb => migEnd_regsBut _ _ _ b fun listed => hb (.tail _ listed)
    generalize migEnd (u.setPf (.func f) Reg.FUNC_FUNC_STATUS 11 11 1) f .ok = t at *
    refine ⟨t, ran, ?_, frozen, ?_, idle, result, done, fun b hb => (quiet b hb).trans (regs b)⟩
    · rw [ended, parts]
    · rw [State.ring, ended.rings]
      exact ring
  case save =>
    intro m f b s a u w accepts check frozen place
    obtain ⟨x, r, saved, mem, ok⟩ := saveOp_saves ((commanded_frozen u f 2).trans frozen) place
    have ran : exec (.save m f) s = .next ((migEnd x f r).noteWrite a) :=
      congrArg Host.Outcome.next ((migWrite_takes accepts check).trans
        (congrArg (State.noteWrite · a) ((migWriteOp_save u f (by decide) (by decide)).trans saved)))
    obtain ⟨idle, result, done⟩ := migEnd_shows x f r
    have ended := (migEnd_registerParts x f r).mem.trans mem
    have wrote := (busWrite_wrote (commanded u f 2) (portAgent f) false b (imageOf (commanded u f 2) f)).bytes
    have same : (commanded u f 2).mem = u.mem := (commanded_registerParts u f 2).mem
    generalize migEnd x f r = t at *
    refine ⟨_, ran, ended, fun y hy => ?_, idle, done, fun h => result.trans (congrArg MigResult.code (ok h))⟩
    have read := wrote y hy
    rw [memByte, ← ended, memByte, same] at read
    exact read
  case restore =>
    intro m f b s a u w accepts check frozen place
    obtain ⟨x, r, restored, checked⟩ := restoreOp_ends ((commanded_frozen u f 3).trans frozen) place
    have ran : exec (.restore m f) s = .next ((migEnd x f r).noteWrite a) :=
      congrArg Host.Outcome.next ((migWrite_takes accepts check).trans
        (congrArg (State.noteWrite · a) ((migWriteOp_restore u f (by decide) (by decide)).trans restored)))
    obtain ⟨idle, result, done⟩ := migEnd_shows x f r
    have ended := migEnd_registerParts x f r
    have quiet := migEnd_regsBut x f r
    generalize migEnd x f r = t at *
    refine ⟨_, ran, idle, done, fun v img read => ?_⟩
    obtain ⟨rfl, fails⟩ := checked v img read
    refine ⟨result, fun bad => ?_⟩
    obtain rfl := fails bad
    refine ⟨?_, quiet⟩
    conv_lhs => rw [ended]
    rfl
  case resume =>
    intro m f s a u accepts check frozen
    have ran : exec (.resume m f) s = .next ((resumeOp (commanded u f 4) f).noteWrite a) :=
      congrArg Host.Outcome.next ((migWrite_takes accepts check).trans
        (congrArg (State.noteWrite · a) (migWriteOp_resume u f (by decide) (by decide))))
    have mem := (commanded_registerParts u f 4).mem
    have regs := commanded_regsBut u f 4
    rw [resumeOp_resumes ((commanded_frozen u f 4).trans frozen)] at ran
    generalize commanded u f 4 = w at *
    obtain ⟨idle, result, done⟩ := migEnd_shows (w.setPf (.func f) Reg.FUNC_FUNC_STATUS 11 11 0) f .ok
    have thawed := migEnd_frozen w f .ok (v := 0) (by decide)
    have ended := (setPf_registerParts w (.func f) Reg.FUNC_FUNC_STATUS 11 11 0).trans (migEnd_registerParts _ f .ok)
    have quiet := migEnd_regsBut (w.setPf (.func f) Reg.FUNC_FUNC_STATUS 11 11 0) f .ok
    have status : RegsBut w (w.setPf (.func f) Reg.FUNC_FUNC_STATUS 11 11 0)
        [pageBase (.func f) + Reg.FUNC_FUNC_STATUS] := setPf_regsBut (.head _)
    generalize migEnd (w.setPf (.func f) Reg.FUNC_FUNC_STATUS 11 11 0) f .ok = t at *
    refine ⟨_, ran, thawed, result, done, ended.mem.trans mem, ?_⟩
    exact noteWrite_regsBut ((regs.mono (by simp [a])).trans
      ((status.mono (by simp)).trans (quiet.mono (by simp [migRegs]))))

end Sys2Proof.Machine
end

section
/-!
PROOF. Rings, doorbells and completions (R382 to R390, R427).
-/
namespace Sys2Proof.Machine

/-! Ring registers. -/

theorem ringAdr_eq (rs r o : Nat) : pageBase (ringPage rs) + ringOff rs r + o = ringAdr rs r o := Nat.add_assoc ..

theorem ringAdr_ne {rs r o o' : Nat} (other : o ≠ o') : ringAdr rs r o ≠ ringAdr rs r o' := by
  unfold ringAdr
  omega

theorem RegsBut.ringF {s t : State} {l : List Nat} (h : RegsBut s t l) {rs r o : Nat} (spared : ringAdr rs r o ∉ l)
    (hi lo : Nat) : ringF t rs r o hi lo = ringF s rs r o hi lo := congrArg (fget · hi lo) (h _ spared)

theorem setRingF_regsBut {l : List Nat} {s : State} {rs r o hi lo v : Nat} (listed : ringAdr rs r o ∈ l) :
    RegsBut s (setRingF s rs r o hi lo v) l := setPf_regsBut listed

/-- A field of a ring register reads the value written to it, where it fits. -/
theorem ringF_setRingF_fits {s : State} {rs r o v hi lo : Nat} (order : lo ≤ hi) (word : hi < 32)
    (fits : v < 2 ^ (hi + 1 - lo)) : ringF (setRingF s rs r o hi lo v) rs r o hi lo = v :=
  (ringF_setRingF _ _ _ _ _ order word).trans (Nat.mod_eq_of_lt fits)

theorem ringF_setPr (s : State) (rs r o hi lo : Nat) (v : Word) :
    ringF (s.setPr (ringPage rs) (ringOff rs r + o) v) rs r o hi lo = fget v hi lo :=
  congrArg (fget · hi lo) (State.pr_setPr ..)

/-! RING_CTRL (R382 to R384). -/

/-- RING_CTRL takes the size and ENABLE of a write. -/
def ringSized (s : State) (rs r : Nat) (v : Word) : State :=
  setRingF (setRingF s rs r rCtrl 11 8 (fget v 11 8)) rs r rCtrl 0 0 (fget v 0 0)

theorem ringSized_registerParts (s : State) (rs r : Nat) (v : Word) : RegisterParts s (ringSized s rs r v) := rfl

theorem ringSized_regsBut (s : State) (rs r : Nat) (v : Word) :
    RegsBut s (ringSized s rs r v) [ringAdr rs r rCtrl] :=
  (setRingF_regsBut (.head _)).trans (setRingF_regsBut (.head _))

theorem ringSized_size (s : State) (rs r : Nat) (v : Word) : ringSize (ringSized s rs r v) rs r = 2 ^ fget v 11 8 := by
  rw [ringSize, ringSized, ringF_setRingF_otherField _ _ _ _ _ (by decide) (by decide) (by decide),
    ringF_setRingF_fits (by decide) (by decide) (fget_lt ..)]

theorem ringSized_on (s : State) (rs r : Nat) (v : Word) : ringOn (ringSized s rs r v) rs r = fbit v 0 := by
  rw [ringOn, ringSized, ringF_setRingF_fits (by decide) (by decide) (fget_lt ..), fget_bit]
  cases fbit v 0 <;> rfl

/-- STATUS of a ring that starts anew. -/
def ringFresh (r : Nat) : Word := if r = 4 then 0x20000000 else 0

/-- HEAD, TAIL and STATUS of a ring that starts anew. -/
def ringBegun (s : State) (rs r : Nat) : State :=
  ((s.setPr (ringPage rs) (ringOff rs r + rHead) 0).setPr (ringPage rs) (ringOff rs r + rTail) 0).setPr (ringPage rs)
    (ringOff rs r + rStatus) (ringFresh r)

theorem ringCtrlOp_begins {s : State} {rs r : Nat} {v : Word} (off : ringOn s rs r = false) (go : fbit v 0 = true) :
    ringCtrlOp s rs r v = ringBegun (ringSized s rs r v) rs r := by
  rw [ringCtrlOp, off, go]
  rfl

/-- The registers of a ring that starts anew, and what stays. -/
theorem ringBegun_shows (s : State) (rs r : Nat) :
    let t := ringBegun s rs r
    ringHead t rs r = 0 ∧ ringTail t rs r = 0 ∧ t.reg (ringAdr rs r rStatus) = ringFresh r ∧
      RegsBut s t [ringAdr rs r rHead, ringAdr rs r rTail, ringAdr rs r rStatus] ∧ RegisterParts s t := by
  let headed := s.setPr (ringPage rs) (ringOff rs r + rHead) 0
  let tailed := headed.setPr (ringPage rs) (ringOff rs r + rTail) 0
  have status : RegsBut tailed (ringBegun s rs r) [ringAdr rs r rStatus] := setPr_regsBut (.head _)
  have tail : RegsBut headed tailed [ringAdr rs r rTail] := setPr_regsBut (.head _)
  have head : RegsBut s headed [ringAdr rs r rHead] := setPr_regsBut (.head _)
  have spared {o o' : Nat} (other : o ≠ o') : ringAdr rs r o ∉ [ringAdr rs r o'] :=
    mt List.mem_singleton.mp (ringAdr_ne other)
  refine ⟨?_, ?_, (State.reg_setPr ..).trans (if_pos rfl), ?_, ?_⟩
  · rw [ringHead, status.ringF (spared (by decide)), tail.ringF (spared (by decide))]
    exact ringF_setPr ..
  · rw [ringTail, status.ringF (spared (by decide))]
    exact ringF_setPr ..
  · exact (head.mono (by simp)).trans ((tail.mono (by simp)).trans (status.mono (by simp)))
  · exact ((setPr_registerParts ..).trans (setPr_registerParts ..)).trans (setPr_registerParts ..)

/-- A ring that leaves the stopped state, past the entry at HEAD where it is to skip it. -/
def ringResumed (s : State) (rs r : Nat) (skip : Bool) : State :=
  let s := setRingF s rs r rStatus 31 31 0
  if r < 4 ∧ skip ∧ ringHead s rs r ≠ ringTail s rs r then headNext s rs r else s

theorem ringCtrlOp_resumes {s : State} {rs r : Nat} {v : Word} (on : ringOn s rs r = true)
    (stopped : ringStopped s rs r = true) (go : fbit v 1 = true) :
    ringCtrlOp s rs r v = ringResumed (ringSized s rs r v) rs r (fbit v 2) := by
  rw [ringCtrlOp, on, stopped, go]
  rfl

/-- A ring that is on keeps its size (R382). -/
theorem ringCtrlCheck_size {s : State} {rs r : Nat} {v : Word} (on : ringOn s rs r = true)
    (passes : ringCtrlCheck s rs r v = none) : 2 ^ fget v 11 8 = ringSize s rs r := by
  by_contra other
  have differs : fget v 11 8 ≠ ringF s rs r rCtrl 11 8 := fun same => other (congrArg (2 ^ ·) same)
  simp [ringCtrlCheck, on, differs] at passes

theorem headNext_regsBut (s : State) (rs q : Nat) : RegsBut s (headNext s rs q) [ringAdr rs q rHead] :=
  setRingF_regsBut (.head _)

theorem ringResumed_shows (s : State) (rs r : Nat) (skip : Bool) (size : ringSize s rs r ≤ 4096) :
    let t := ringResumed s rs r skip
    ringStopped t rs r = false ∧ ringTail t rs r = ringTail s rs r ∧
      ringHead t rs r = (if r < 4 ∧ skip ∧ ringHead s rs r ≠ ringTail s rs r then
        (ringHead s rs r + 1) % ringSize s rs r else ringHead s rs r) ∧
      RegsBut s t [ringAdr rs r rHead, ringAdr rs r rStatus] ∧ t.mem = s.mem := by
  have cleared : ringF (setRingF s rs r rStatus 31 31 0) rs r rStatus 31 31 = 0 :=
    ringF_setRingF_fits (by decide) (by decide) (by decide)
  have silent : RegsBut s (setRingF s rs r rStatus 31 31 0) [ringAdr rs r rStatus] := setRingF_regsBut (.head _)
  have mem : (setRingF s rs r rStatus 31 31 0).mem = s.mem := (setRingF_registerParts ..).mem
  rw [ringResumed]
  generalize setRingF s rs r rStatus 31 31 0 = u at cleared silent mem ⊢
  have spared {o o' : Nat} (other : o ≠ o') : ringAdr rs r o ∉ [ringAdr rs r o'] :=
    mt List.mem_singleton.mp (ringAdr_ne other)
  have same {o : Nat} (other : o ≠ rStatus) (hi lo : Nat) : ringF u rs r o hi lo = ringF s rs r o hi lo :=
    silent.ringF (spared other) hi lo
  have heads : ringHead u rs r = ringHead s rs r := same (by decide) ..
  have tails : ringTail u rs r = ringTail s rs r := same (by decide) ..
  have sizes : ringSize u rs r = ringSize s rs r := congrArg (2 ^ ·) (same (by decide) ..)
  have moved := headNext_regsBut u rs r
  dsimp only
  rw [heads, tails]
  split_ifs with skips
  · have stays {o : Nat} (other : o ≠ rHead) (hi lo : Nat) :
        ringF (headNext u rs r) rs r o hi lo = ringF u rs r o hi lo := moved.ringF (spared other) hi lo
    refine ⟨?_, (stays (by decide) ..).trans tails, ?_, ?_, mem⟩
    · rw [ringStopped, stays (by decide), cleared]
      rfl
    · rw [ringHead_headNext (sizes.trans_le size), heads, sizes]
    · exact (silent.mono (by simp)).trans (moved.mono (by simp))
  · exact ⟨by rw [ringStopped, cleared]; rfl, tails, heads, silent.mono (by simp), mem⟩

theorem ringCtrlWrite_takes {s : State} {m : Master} {rs r : Nat} {v : Word}
    (accepts : Accepts s m (pageBase (ringPage rs) + ringOff rs r + rCtrl))
    (passes : ringCtrlCheck (taken s m (pageBase (ringPage rs) + ringOff rs r + rCtrl)) rs r v = none) :
    ringCtrlWrite s m rs r v = (ringCtrlOp (taken s m (pageBase (ringPage rs) + ringOff rs r + rCtrl)) rs r v).noteWrite
      (pageBase (ringPage rs) + ringOff rs r + rCtrl) :=
  writeReg_taken (check := fun s => ringCtrlCheck s rs r v) (op := fun s => ringCtrlOp s rs r v) accepts passes

/-! Doorbells (R385, R386). -/

theorem sqDoorbell_takes {s : State} {m : Master} {rs : Fin 66} {q : Fin 4} (v : Word)
    (accepts : Accepts (flushAll s) m (doorbellAddr rs q)) :
    exec (.sqDoorbell m rs q v) s =
      .next ((sqDoorbellOp (taken (flushAll s) m (doorbellAddr rs q)) rs q v).noteWrite (doorbellAddr rs q)) := by
  have took := writeReg_taken (check := fun _ => none)
    (op := fun s => if q.val < 4 then sqDoorbellOp s rs q v else cqDoorbellOp s rs v) accepts rfl
  rw [if_pos q.isLt] at took
  exact congrArg Host.Outcome.next took

theorem cqDoorbell_takes {s : State} {m : Master} {rs : Fin 66} (v : Word)
    (accepts : Accepts (flushAll s) m (doorbellAddr rs 4)) :
    exec (.cqDoorbell m rs v) s =
      .next ((cqDoorbellOp (taken (flushAll s) m (doorbellAddr rs 4)) rs v).noteWrite (doorbellAddr rs 4)) :=
  congrArg Host.Outcome.next (writeReg_taken (check := fun _ => none)
    (op := fun s => if 4 < 4 then sqDoorbellOp s rs 4 v else cqDoorbellOp s rs v) accepts rfl)

/-- A doorbell out of range is counted and reported in the function's page (R386). -/
theorem doorbellBad_function {s : State} {rs : Nat} (function : rs < 64) :
    let t := doorbellBad s rs
    fbit (t.hd (.func rs) .irqStatus) 6 = true ∧
      t.pr (.func rs) Reg.FUNC_DB_BAD_COUNT = s.pr (.func rs) Reg.FUNC_DB_BAD_COUNT + 1 ∧
      RegsBut s t [pageBase (.func rs) + Reg.FUNC_DB_BAD_COUNT, hadr (.func rs) .irqStatus] ∧ t.mem = s.mem := by
  have count : (s.count (.func rs) Reg.FUNC_DB_BAD_COUNT).pr (.func rs) Reg.FUNC_DB_BAD_COUNT =
      s.pr (.func rs) Reg.FUNC_DB_BAD_COUNT + 1 := State.pr_setPr ..
  have counted : RegsBut s (s.count (.func rs) Reg.FUNC_DB_BAD_COUNT)
      [pageBase (.func rs) + Reg.FUNC_DB_BAD_COUNT] := count_regsBut (.head _)
  have mem := (count_registerParts s (.func rs) Reg.FUNC_DB_BAD_COUNT).mem
  rw [doorbellBad, if_pos function]
  generalize s.count (.func rs) Reg.FUNC_DB_BAD_COUNT = u at count counted mem ⊢
  have irq : RegsBut u (u.event (.func rs) 6) [hadr (.func rs) .irqStatus] := event_regsBut (.head _)
  have logged (b : Nat) : _ = (u.event (.func rs) 6).reg b :=
    State.logLimited_reg _ (3100 + rs) 1000000 .host (pageBase (ringPage rs)) 0x100 0 b
  refine ⟨?_, ?_, fun b spared => (logged b).trans ?_, ?_⟩
  · exact (congrArg (fbit · 6) (logged _)).trans (event_bit _ _ _ (by decide))
  · exact (logged _).trans ((State.pr_event rfl (by decide) ..).trans count)
  · exact ((counted.mono (by simp)).trans (irq.mono (by simp))) b spared
  · rw [State.logLimited_only, (event_registerParts u (.func rs) 6).mem]
    exact mem

/-! FULL of a completion ring (R388). -/

/-- t differs from s in the event bits of a ring set's page at most. -/
theorem fullEvent_regsBut (s : State) (rs : Nat) : RegsBut s (fullEvent s rs) [hadr (ringPage rs) .irqStatus] := by
  unfold fullEvent
  split_ifs with function sapwood
  · rw [ringPage, if_pos function]
    exact event_regsBut (.head _)
  · rw [sapwood]
    exact event_regsBut (.head _)
  · exact fun _ _ => rfl

theorem fullEvent_registerParts (s : State) (rs : Nat) : RegisterParts s (fullEvent s rs) := by
  unfold fullEvent
  split_ifs
  · exact event_registerParts ..
  · exact event_registerParts ..
  · rfl

theorem ringF_fullEvent (s : State) (rs r o hi lo : Nat) : ringF (fullEvent s rs) rs r o hi lo = ringF s rs r o hi lo :=
  (fullEvent_regsBut s rs).ringF (mt List.mem_singleton.mp (ringAdr_apart rs r o).2) hi lo

/-- FULL says whether TAIL stands one before HEAD, and nothing else of a ring moves. -/
theorem settleFull_shows (s : State) (rs : Nat) :
    let t := settleFull s rs
    cqFull t rs = ((ringTail s rs 4 + 1) % ringSize s rs 4 == ringHead s rs 4) ∧
      RegsBut s t [ringAdr rs 4 rStatus, hadr (ringPage rs) .irqStatus] ∧ RegisterParts s t := by
  have shown : ringF (setRingF s rs 4 rStatus 30 30 (b2n ((ringTail s rs 4 + 1) % ringSize s rs 4 == ringHead s rs 4)))
      rs 4 rStatus 30 30 = b2n ((ringTail s rs 4 + 1) % ringSize s rs 4 == ringHead s rs 4) := by
    refine ringF_setRingF_fits (by decide) (by decide) ?_
    cases (ringTail s rs 4 + 1) % ringSize s rs 4 == ringHead s rs 4 <;> decide
  have silent : RegsBut s (setRingF s rs 4 rStatus 30 30
      (b2n ((ringTail s rs 4 + 1) % ringSize s rs 4 == ringHead s rs 4))) [ringAdr rs 4 rStatus] :=
    setRingF_regsBut (.head _)
  have parts := setRingF_registerParts s rs 4 rStatus 30 30
    (b2n ((ringTail s rs 4 + 1) % ringSize s rs 4 == ringHead s rs 4))
  rw [settleFull]
  generalize ((ringTail s rs 4 + 1) % ringSize s rs 4 == ringHead s rs 4) = full at shown silent parts ⊢
  generalize setRingF s rs 4 rStatus 30 30 (b2n full) = u at shown silent parts ⊢
  have reads : cqFull u rs = full := by
    rw [cqFull, shown]
    cases full <;> rfl
  dsimp only
  split_ifs
  · refine ⟨(congrArg (· == 1) (ringF_fullEvent ..)).trans reads, ?_, parts.trans (fullEvent_registerParts ..)⟩
    exact (silent.mono (by simp)).trans ((fullEvent_regsBut u rs).mono (by simp))
  · exact ⟨reads, silent.mono (by simp), parts⟩

/-- A field of a ring outside STATUS stays when FULL is settled. -/
theorem ringF_settleFull (s : State) (rs r : Nat) {o : Nat} (other : ringAdr rs r o ≠ ringAdr rs 4 rStatus)
    (hi lo : Nat) :
    ringF (settleFull s rs) rs r o hi lo = ringF s rs r o hi lo := by
  obtain ⟨-, regs, -⟩ := settleFull_shows s rs
  exact regs.ringF (by simpa [other] using (ringAdr_apart rs r o).2) hi lo

theorem cqDoorbellOp_frees {s : State} {rs : Nat} {v : Word} (inRing : doorbellOut s rs 4 v = false)
    (ahead : (fget v 11 0 + ringSize s rs 4 - ringHead s rs 4 % ringSize s rs 4) % ringSize s rs 4 ≤
      (ringTail s rs 4 + ringSize s rs 4 - ringHead s rs 4 % ringSize s rs 4) % ringSize s rs 4) :
    cqDoorbellOp s rs v = settleFull (setRingF s rs 4 rHead 11 0 (fget v 11 0)) rs := by
  simp [cqDoorbellOp, inRing, ahead]

/-- HEAD of a completion ring that is written, with FULL settled behind it. -/
theorem cqFreed_shows (s : State) (rs : Nat) {head : Nat} (index : head < 4096) :
    let t := settleFull (setRingF s rs 4 rHead 11 0 head) rs
    ringHead t rs 4 = head ∧ cqFull t rs = ((ringTail s rs 4 + 1) % ringSize s rs 4 == head) ∧ t.mem = s.mem ∧
      RegsBut s t [ringAdr rs 4 rHead, ringAdr rs 4 rStatus, hadr (ringPage rs) .irqStatus] := by
  have heads : ringHead (setRingF s rs 4 rHead 11 0 head) rs 4 = head :=
    ringF_setRingF_fits (by decide) (by decide) index
  have moved : RegsBut s (setRingF s rs 4 rHead 11 0 head) [ringAdr rs 4 rHead] := setRingF_regsBut (.head _)
  have mem := (setRingF_registerParts s rs 4 rHead 11 0 head).mem
  generalize setRingF s rs 4 rHead 11 0 head = u at heads moved mem ⊢
  have stays {o : Nat} (other : o ≠ rHead) (hi lo : Nat) : ringF u rs 4 o hi lo = ringF s rs 4 o hi lo :=
    moved.ringF (mt List.mem_singleton.mp (ringAdr_ne other)) hi lo
  have tails : ringTail u rs 4 = ringTail s rs 4 := stays (by decide) ..
  have sizes : ringSize u rs 4 = ringSize s rs 4 := congrArg (2 ^ ·) (stays (by decide) ..)
  obtain ⟨full, regs, parts⟩ := settleFull_shows u rs
  rw [tails, sizes, heads] at full
  refine ⟨?_, full, parts.mem.trans mem, (moved.mono (by simp)).trans (regs.mono (by simp))⟩
  exact (ringF_settleFull _ _ _ (ringAdr_ne (by decide)) ..).trans heads

/-! Interrupt messages (R389). -/

/-- A vector's message is sent, or kept as a Pending Bit; nothing else changes. -/
theorem raiseVector_only (s : State) (f v : Nat) :
    RegisterParts s (raiseVector s f v) ∧ RegsBut s (raiseVector s f v) [pageBase (.func f) + Reg.FUNC_MSIX_PBA] := by
  unfold raiseVector
  split_ifs
  · exact ⟨rfl, fun _ _ => rfl⟩
  · exact ⟨setPf_registerParts .., setPf_regsBut (.head _)⟩
  · exact ⟨rfl, fun _ _ => rfl⟩

theorem raiseVectors_only (s : State) (f : Nat) (vs : List Nat) :
    let t := vs.foldl (fun s v => raiseVector s f v) s
    RegisterParts s t ∧ RegsBut s t [pageBase (.func f) + Reg.FUNC_MSIX_PBA] := by
  refine State.foldl_invariant
    (fun t => RegisterParts s t ∧ RegsBut s t [pageBase (.func f) + Reg.FUNC_MSIX_PBA]) _ _ _ ⟨rfl, fun _ _ => rfl⟩ ?_
  intro t v ⟨parts, regs⟩
  obtain ⟨more, others⟩ := raiseVector_only t f v
  exact ⟨parts.trans more, regs.trans others⟩

theorem State.ring_setRing_other (s : State) {r k : Nat} (x : RingSt) (other : k ≠ r) :
    (s.setRing r x).ring k = s.ring k := aget_aset_ne _ _ _ _ other

/-- A change of one ring set's state behind a change of registers. -/
theorem RegisterParts.setRing {s t : State} (h : RegisterParts s t) (r : Nat) (x : RingSt) :
    t.setRing r x = { s with regs := t.regs, cyc := t.cyc, rings := aset {} s.rings r x } := by
  rw [State.setRing, h]

theorem cqMessage_shows (s : State) (f : Nat) :
    let t := cqMessage s f
    t = { s with regs := t.regs, cyc := t.cyc, rings := t.rings } ∧ t.ring f = { s.ring f with modCount := 0 } ∧
      (∀ k, k ≠ f → t.ring k = s.ring k) ∧ RegsBut s t [pageBase (.func f) + Reg.FUNC_MSIX_PBA] := by
  have ring := State.ring_setRing s f { s.ring f with modCount := 0 }
  have others (k : Nat) := State.ring_setRing_other (k := k) s (r := f) { s.ring f with modCount := 0 }
  have regs := State.setRing_reg s f { s.ring f with modCount := 0 }
  have parts : s.setRing f { s.ring f with modCount := 0 } =
    { s with rings := (s.setRing f { s.ring f with modCount := 0 }).rings } := rfl
  rw [cqMessage]
  generalize s.setRing f { s.ring f with modCount := 0 } = u at ring others regs parts ⊢
  obtain ⟨only, pending⟩ := raiseVector_only u f (groupVector s f 0)
  generalize raiseVector u f (groupVector s f 0) = t at only pending ⊢
  have same (k : Nat) : t.ring k = u.ring k := by rw [State.ring, State.ring, only.rings]
  refine ⟨?_, (same f).trans ring, fun k other => (same k).trans (others k other), fun b spared => ?_⟩
  · rw [only, parts]
  · exact (pending b spared).trans (regs b)

/-! Completion records (R387, R388, R390). -/

theorem leBytes_length (n v : Nat) : (leBytes n v).length = n := by
  simp [leBytes]

theorem cqBytes_length (s : State) (rs : Nat) (r : CqRec) : (cqBytes s rs r).length = 16 := by
  simp [cqBytes, leBytes_length]

/-- PHASE inverts where TAIL wraps. -/
def cqPhased (s : State) (rs tail : Nat) : State :=
  if tail = 0 then setRingF s rs 4 rStatus 29 29 (1 - ringF s rs 4 rStatus 29 29) else s

theorem cqAdvance_eq (s : State) (rs : Nat) :
    cqAdvance s rs = settleFull (cqPhased (setRingF s rs 4 rTail 11 0 ((ringTail s rs 4 + 1) % ringSize s rs 4)) rs
      ((ringTail s rs 4 + 1) % ringSize s rs 4)) rs := rfl

theorem cqPhased_only (s : State) (rs tail : Nat) :
    RegisterParts s (cqPhased s rs tail) ∧ RegsBut s (cqPhased s rs tail) [ringAdr rs 4 rStatus] := by
  unfold cqPhased
  split_ifs
  · exact ⟨setRingF_registerParts .., setRingF_regsBut (.head _)⟩
  · exact ⟨rfl, fun _ _ => rfl⟩

theorem cqAdvance_shows {s : State} {rs : Nat} (size : ringSize s rs 4 ≤ 4096) :
    ringTail (cqAdvance s rs) rs 4 = (ringTail s rs 4 + 1) % ringSize s rs 4 ∧ RegisterParts s (cqAdvance s rs) := by
  rw [cqAdvance_eq]
  have index : (ringTail s rs 4 + 1) % ringSize s rs 4 < 4096 := (Nat.mod_lt _ (Nat.two_pow_pos _)).trans_le size
  generalize (ringTail s rs 4 + 1) % ringSize s rs 4 = tail at index ⊢
  have tails : ringTail (setRingF s rs 4 rTail 11 0 tail) rs 4 = tail :=
    ringF_setRingF_fits (by decide) (by decide) index
  have parts := setRingF_registerParts s rs 4 rTail 11 0 tail
  generalize setRingF s rs 4 rTail 11 0 tail = u at tails parts ⊢
  obtain ⟨only, phase⟩ := cqPhased_only u rs tail
  obtain ⟨-, -, settled⟩ := settleFull_shows (cqPhased u rs tail) rs
  refine ⟨?_, (parts.trans only).trans settled⟩
  have apart : ringAdr rs 4 rTail ≠ ringAdr rs 4 rStatus := ringAdr_ne (by decide)
  exact (ringF_settleFull _ _ _ apart ..).trans ((phase.ringF (mt List.mem_singleton.mp apart) ..).trans tails)

/-- A record leaves the queue and its slot; nothing else of rings and memory changes. -/
theorem dropCqRec_shows (s : State) (rs : Nat) (r : CqRec) :
    let t := dropCqRec s rs r
    (t.ring rs).cqWait = (s.ring rs).cqWait.tail ∧ ringTail t rs 4 = ringTail s rs 4 ∧ t.mem = s.mem ∧
      ∀ i, r.slot = some i → t.job i = none := by
  have ring := congrArg RingSt.cqWait (State.ring_setRing s rs { s.ring rs with cqWait := (s.ring rs).cqWait.tail })
  have tail (o hi lo : Nat) :
      ringF (s.setRing rs { s.ring rs with cqWait := (s.ring rs).cqWait.tail }) rs 4 o hi lo = ringF s rs 4 o hi lo :=
    congrArg (fget · hi lo) (State.setRing_reg ..)
  have mem := State.setRing_mem s rs { s.ring rs with cqWait := (s.ring rs).cqWait.tail }
  rw [dropCqRec]
  generalize s.setRing rs { s.ring rs with cqWait := (s.ring rs).cqWait.tail } = u at ring tail mem ⊢
  dsimp only
  cases slot : r.slot with
  | none => exact ⟨ring, tail .., mem, fun i h => nomatch h⟩
  | some i =>
    have freed := setJob_slotParts u i none
    have empty := State.job_setJob u i none
    dsimp only
    generalize u.setJob i none = t at freed empty ⊢
    have same : t.ring rs = u.ring rs := by rw [freed.parts]; rfl
    refine ⟨(congrArg RingSt.cqWait same).trans ring, (freed.ringF ..).trans (tail ..), freed.mem.trans mem, ?_⟩
    intro j h
    obtain rfl := Option.some.inj h
    exact empty

/-- A function's ring set with one more record that waits to be announced (R389). -/
def cqCounted (s : State) (f : Nat) : RingSt :=
  { s.ring f with modCount := (s.ring f).modCount + 1, modFirst :=
    if (s.ring f).modCount = 0 then s.devtime else (s.ring f).modFirst }

/-- The announcement of a record touches counts of its ring set, messages and Pending Bits alone. -/
theorem cqRecordWritten_keeps (s : State) (f : Nat) :
    let t := cqRecordWritten s f
    t = { s with regs := t.regs, cyc := t.cyc, rings := t.rings } ∧ (t.ring f).cqWait = (s.ring f).cqWait ∧
      RegsBut s t [pageBase (.func f) + Reg.FUNC_MSIX_PBA] := by
  have ring := congrArg RingSt.cqWait (State.ring_setRing s f (cqCounted s f))
  have regs := State.setRing_reg s f (cqCounted s f)
  have parts : s.setRing f (cqCounted s f) = { s with rings := (s.setRing f (cqCounted s f)).rings } := rfl
  have written : cqRecordWritten s f = if (s.setRing f (cqCounted s f)).pf (.func f) Reg.FUNC_CQ_MOD 11 0 ≤
      (s.ring f).modCount + 1 then cqMessage (s.setRing f (cqCounted s f)) f else s.setRing f (cqCounted s f) := rfl
  simp only [written]
  generalize s.setRing f (cqCounted s f) = u at ring regs parts ⊢
  split_ifs
  · obtain ⟨only, announced, -, pending⟩ := cqMessage_shows u f
    generalize cqMessage u f = t at only announced pending ⊢
    refine ⟨?_, (congrArg RingSt.cqWait announced).trans ring, fun b spared => (pending b spared).trans (regs b)⟩
    rw [only, parts]
  · refine ⟨?_, ring, fun b _ => regs b⟩
    rw [parts]

/-- What follows a record that was written (R389, R427). -/
def cqAnnounced (s : State) (rs : Nat) : State :=
  if rs < 64 then cqRecordWritten s rs else if rs = 64 then s.event .world 2 else s

theorem cqAnnounced_keeps {s : State} {rs : Nat} :
    let t := cqAnnounced s rs
    (t.ring rs).cqWait = (s.ring rs).cqWait ∧ ringTail t rs 4 = ringTail s rs 4 ∧ t.mem = s.mem ∧
      ∀ i, t.job i = s.job i := by
  rw [cqAnnounced]
  split_ifs with function world
  · obtain ⟨only, queue, pending⟩ := cqRecordWritten_keeps s rs
    generalize cqRecordWritten s rs = t at only queue pending ⊢
    have apart : ringAdr rs 4 rTail ∉ [pageBase (.func rs) + Reg.FUNC_MSIX_PBA] := by
      rw [ringAdr, ringPage, if_pos function, ringOff, if_pos function, List.mem_singleton]
      exact offset_ne (by decide)
    refine ⟨queue, pending.ringF apart .., ?_, fun i => job_of_sched ?_ i⟩
    · rw [only]
    · rw [only]
  · have parts := event_registerParts s .world 2
    have events : RegsBut s (s.event .world 2) [hadr (ringPage rs) .irqStatus] := by
      rw [world]
      exact event_regsBut (.head _)
    generalize s.event .world 2 = t at parts events ⊢
    refine ⟨?_, events.ringF (mt List.mem_singleton.mp (ringAdr_apart rs 4 rTail).2) .., parts.mem,
      fun i => job_of_sched (congrArg SchedSt.jobs parts.sched) i⟩
    rw [State.ring, State.ring, parts.rings]
  · exact ⟨rfl, rfl, rfl, fun _ => rfl⟩

theorem exec_completionWrite_ok {rs : Fin 66} {r : CqRec} {rest : List CqRec} {s v : State}
    (queue : (s.ring rs).cqWait = r :: rest) (fresh : staleGen s rs r.gen = false) (takes : cqTakes s rs = true)
    (wrote : ringWrite s rs (rs.val == 64) 2 (ringBase s rs 4 + 16 * ringTail s rs 4) (cqBytes s rs r) = (v, .ok ())) :
    exec (.completionWrite rs) s = .next (cqAnnounced (dropCqRec (cqAdvance v rs) rs r) rs) := by
  change execCompletionWrite rs s = _
  rw [execCompletionWrite, queue]
  simp only [fresh, takes, wrote]
  rfl

/-- A record of Heartwood or Sapwood is written device physical (R397). -/
theorem ringWrite_cores {s : State} {rs a : Nat} {bytes : List Nat} {sec : Bool} (source : Nat) (cores : 64 ≤ rs) :
    BytesBut s (ringWrite s rs sec source a bytes).1 (Stored a bytes.length) := by
  rw [ringWrite, if_neg (by omega)]
  exact (busWrite_wrote ..).bytes

/-! An error of a completion write (R388). -/

theorem exec_cqWrite_fails {rs : Fin 66} {r : CqRec} {rest : List CqRec} {s : State}
    (queue : (s.ring rs).cqWait = r :: rest) (fresh : staleGen s rs r.gen = false) (takes : cqTakes s rs = true) :
    exec (.cqWrite rs) s = .next (cqError s rs) := by
  change execCqWrite rs s = _
  simp [execCqWrite, queue, fresh, takes]

theorem stoppedEvent_regsBut (s : State) (rs : Nat) :
    RegsBut s (stoppedEvent s rs) [hadr (ringPage rs) .irqStatus] := by
  unfold stoppedEvent
  split_ifs with function sapwood
  · rw [ringPage, if_pos function]
    exact event_regsBut (.head _)
  · rw [sapwood]
    exact event_regsBut (.head _)
  · exact fun _ _ => rfl

theorem stopRing_regsBut (s : State) (rs r cause idx : Nat) :
    RegsBut s (stopRing s rs r cause idx) [ringAdr rs r rStatus, hadr (ringPage rs) .irqStatus] := by
  have fields : RegsBut s (setRingF (setRingF (setRingF s rs r rStatus 31 31 1) rs r rStatus 23 16 cause) rs r rStatus
      11 0 idx) [ringAdr rs r rStatus] :=
    ((setRingF_regsBut (.head _)).trans (setRingF_regsBut (.head _))).trans (setRingF_regsBut (.head _))
  exact (fields.mono (by simp)).trans ((stoppedEvent_regsBut _ rs).mono (by simp))

/-- The ring stops; of a function, its fault stands recorded. -/
theorem cqError_stops (s : State) (rs : Nat) :
    let t := cqError s rs
    ringStopped t rs 4 = true ∧ ringF t rs 4 rStatus 23 16 = 8 ∧
      (rs < 64 → fbit (t.hd (.func rs) .faultStatus) 0 = true) ∧ t.mem = s.mem := by
  let u := if rs < 64 then raiseFault s (.func rs) 0 else s
  have recorded : (rs < 64 → fbit (u.hd (.func rs) .faultStatus) 0 = true) ∧ u.mem = s.mem := by
    by_cases function : rs < 64
    · simp only [u, if_pos function]
      exact ⟨fun _ => raiseFault_bit s (.func rs) 0 false (by decide),
        (raiseFault_rises (.func rs) 0 false (.refl s)).keeps.mem⟩
    · simp only [u, if_neg function]
      exact ⟨fun h => absurd h function, trivial⟩
  have error : cqError s rs = stopRing u rs 4 8 (ringTail u rs 4) := rfl
  simp only [error]
  generalize u = w at recorded ⊢
  obtain ⟨fault, mem⟩ := recorded
  have stopped := stopRing_stopped w rs 4 8 (ringTail w rs 4)
  have cause := stopRing_cause w rs 4 (ringTail w rs 4) (cause := 8) (by decide)
  have regs := stopRing_regsBut w rs 4 8 (ringTail w rs 4)
  have kept := (stopRing_registerParts w rs 4 8 (ringTail w rs 4)).mem
  generalize stopRing w rs 4 8 (ringTail w rs 4) = t at *
  refine ⟨stopped, cause, fun function => ?_, kept.trans mem⟩
  have low := ringOff_low rs 4
  have apart : hadr (.func rs) .faultStatus ∉ [ringAdr rs 4 rStatus, hadr (ringPage rs) .irqStatus] := by
    have status : hadr (.func rs) .faultStatus = pageBase (.func rs) + 0x24 := rfl
    have irq : hadr (.func rs) .irqStatus = pageBase (.func rs) + 0x18 := rfl
    rw [ringAdr, ringPage, if_pos function, status, irq]
    simp only [List.mem_cons, List.not_mem_nil, or_false]
    omega
  exact (congrArg (fbit · 0) (regs _ apart)).trans (fault function)

/-- Settles O36: a write of RING_CTRL is `ringBegun` or `ringResumed`, a doorbell sets a field or is `doorbellBad`, a
record goes through `cqAdvance`, `dropCqRec` and `cqAnnounced`, and an announcement is `raiseVector`. -/
theorem rings : Obligations.Rings := by
  refine ⟨?enable, ?restart, ?sq, ?sqBad, ?cq, ?completion, ?cqWrite, ?messages, ?moderated⟩
  case enable =>
    intro m rs r v s b u accepts off passes
    have blocks (o : Nat) : b + o = ringAdr rs r o := ringAdr_eq ..
    have ran : exec (.ringEnable m rs r v) s = .next ((ringCtrlOp u rs r (fsetb v 0 true)).noteWrite (b + rCtrl)) :=
      congrArg Host.Outcome.next (ringCtrlWrite_takes accepts passes)
    have size : fget (fsetb v 0 true) 11 8 = fget v 11 8 :=
      fget_fset_other _ _ (by decide) (by decide) (by decide)
    have enabled := (ringSized_on u rs r (fsetb v 0 true)).trans (fbit_fsetb v true (by decide))
    have sized := ringSized_size u rs r (fsetb v 0 true)
    have quiet := ringSized_regsBut u rs r (fsetb v 0 true)
    have mem := (ringSized_registerParts u rs r (fsetb v 0 true)).mem
    rw [ringCtrlOp_begins off (fbit_fsetb v true (by decide))] at ran
    rw [size] at sized
    generalize ringSized u rs r (fsetb v 0 true) = w at *
    obtain ⟨head, tail, status, regs, parts⟩ := ringBegun_shows w rs r
    generalize ringBegun w rs r = t at *
    have ctrl (hi lo : Nat) : ringF t rs r rCtrl hi lo = ringF w rs r rCtrl hi lo := regs.ringF (by
      simp [ringAdr_ne (show rCtrl ≠ rHead by decide), ringAdr_ne (show rCtrl ≠ rTail by decide),
        ringAdr_ne (show rCtrl ≠ rStatus by decide)]) ..
    have runs : ringStopped t rs r = false := by
      rw [ringStopped, ringF_eq, status, ringFresh]
      split_ifs <;> decide
    have four : ringFresh r = if r = 4 then 0x20000000 else 0 := by simp [ringFresh, Fin.ext_iff]
    simp only [blocks] at ran ⊢
    refine ⟨_, ran, ?_, (congrArg (2 ^ ·) (ctrl ..)).trans sized, head, tail, runs, status.trans four, ?_,
      parts.mem.trans mem⟩
    · exact (congrArg (· == 1) (ctrl ..)).trans enabled
    · exact noteWrite_regsBut ((quiet.mono (by simp)).trans (regs.mono (by simp)))
  case restart =>
    intro m rs r v s b u accepts on stopped passes size
    have blocks (o : Nat) : b + o = ringAdr rs r o := ringAdr_eq ..
    have ran : exec (.restart m rs r v) s = .next ((ringCtrlOp u rs r (fsetb v 1 true)).noteWrite (b + rCtrl)) :=
      congrArg Host.Outcome.next (ringCtrlWrite_takes accepts passes)
    have sized := (ringSized_size u rs r (fsetb v 1 true)).trans (ringCtrlCheck_size on passes)
    have quiet := ringSized_regsBut u rs r (fsetb v 1 true)
    have mem := (ringSized_registerParts u rs r (fsetb v 1 true)).mem
    rw [ringCtrlOp_resumes on stopped (fbit_fsetb v true (by decide)),
      fbit_fsetb_other v true (by decide) (by decide)] at ran
    generalize ringSized u rs r (fsetb v 1 true) = w at *
    have same {o : Nat} (other : o ≠ rCtrl) (hi lo : Nat) : ringF w rs r o hi lo = ringF u rs r o hi lo :=
      quiet.ringF (mt List.mem_singleton.mp (ringAdr_ne other)) hi lo
    have heads : ringHead w rs r = ringHead u rs r := same (by decide) ..
    have tails : ringTail w rs r = ringTail u rs r := same (by decide) ..
    obtain ⟨runs, tail, head, regs, kept⟩ := ringResumed_shows w rs r (fbit v 2) (sized.trans_le size)
    rw [heads, tails, sized] at head
    generalize ringResumed w rs r (fbit v 2) = t at *
    simp only [blocks] at ran ⊢
    exact ⟨_, ran, runs, tail.trans tails, head, noteWrite_regsBut ((quiet.mono (by simp)).trans (regs.mono (by simp))),
      kept.trans mem⟩
  case sq =>
    intro m rs q v s a u accepts inRing
    have ran := sqDoorbell_takes v accepts
    rw [sqDoorbellOp, inRing] at ran
    have tail : ringTail (setRingF u rs q rTail 11 0 (fget v 11 0)) rs q = fget v 11 0 :=
      ringF_setRingF_fits (by decide) (by decide) (fget_lt ..)
    have regs : RegsBut u (setRingF u rs q rTail 11 0 (fget v 11 0)) [ringAdr rs q rTail] :=
      setRingF_regsBut (.head _)
    have mem := (setRingF_registerParts u rs q rTail 11 0 (fget v 11 0)).mem
    change _ = Host.Outcome.next ((setRingF u rs q rTail 11 0 (fget v 11 0)).noteWrite a) at ran
    generalize setRingF u rs q rTail 11 0 (fget v 11 0) = t at *
    exact ⟨_, ran, tail, noteWrite_regsBut regs, mem⟩
  case sqBad =>
    intro m rs q v s a u accepts out function
    have ran := sqDoorbell_takes v accepts
    rw [sqDoorbellOp, if_pos out] at ran
    have shows := doorbellBad_function (s := u) function
    change _ = Host.Outcome.next ((doorbellBad u rs).noteWrite a) at ran
    generalize doorbellBad u rs = t at *
    exact ⟨_, ran, shows⟩
  case cq =>
    intro m rs v s a u n dist accepts inRing ahead
    have ran := cqDoorbell_takes v accepts
    rw [cqDoorbellOp_frees inRing ahead] at ran
    obtain ⟨head, full, mem, regs⟩ := cqFreed_shows u rs (head := fget v 11 0) (fget_lt ..)
    change _ = Host.Outcome.next ((settleFull (setRingF u rs 4 rHead 11 0 (fget v 11 0)) rs).noteWrite a) at ran
    generalize settleFull (setRingF u rs 4 rHead 11 0 (fget v 11 0)) rs = t at *
    exact ⟨_, ran, head, full, mem, noteWrite_regsBut regs⟩
  case completion =>
    intro rs r rest s v queue fresh takes wrote size
    obtain ⟨tail, advanced⟩ := cqAdvance_shows size
    have ran := exec_completionWrite_ok queue fresh takes wrote
    generalize cqAdvance v rs = w at tail advanced ran
    obtain ⟨left, stays, kept, freed⟩ := dropCqRec_shows w rs r
    generalize dropCqRec w rs r = x at left stays kept freed ran
    obtain ⟨queued, announced, same, jobs⟩ := cqAnnounced_keeps (s := x) (rs := rs)
    generalize cqAnnounced x rs = t at queued announced same jobs ran
    have rings : w.ring rs = v.ring rs := by rw [State.ring, State.ring, advanced.rings]
    have mem : t.mem = v.mem := same.trans (kept.trans advanced.mem)
    refine ⟨t, ran, ?_, announced.trans (stays.trans tail), mem, fun i slot => (jobs i).trans (freed i slot), ?_⟩
    · rw [queued, left, rings]
    · intro cores y spared
      have bytes := ringWrite_cores (s := s) (sec := rs.val == 64) (a := ringBase s rs 4 + 16 * ringTail s rs 4)
        (bytes := cqBytes s rs r) 2 cores
      rw [wrote, cqBytes_length] at bytes
      have read := bytes y spared
      rw [memByte, ← mem] at read
      exact read
  case cqWrite =>
    intro rs r rest s queue fresh takes
    exact ⟨_, exec_cqWrite_fails queue fresh takes, cqError_stops s rs⟩
  case messages =>
    intro f s there
    let now := maskOf 8 (fun g => g != 0 && groupOn s f g)
    let rising := keysWhere 8 (vectorRises s f (s.ring f).groups now)
    obtain ⟨only, pending⟩ := raiseVectors_only s f rising
    have ran : exec (.msixMessage f) s = .next
        ((rising.foldl (fun s v => raiseVector s f v) s).setRing f
          { (rising.foldl (fun s v => raiseVector s f v) s).ring f with groups := now }) := by
      change execMsixMessage f s = _
      rw [execMsixMessage, there]
      rfl
    generalize rising.foldl (fun s v => raiseVector s f v) s = t at only pending ran
    have same (k : Nat) : t.ring k = s.ring k := by rw [State.ring, State.ring, only.rings]
    have shown := State.ring_setRing t f { t.ring f with groups := now }
    have others (k : Nat) := State.ring_setRing_other (k := k) t (r := f) { t.ring f with groups := now }
    have regs := State.setRing_reg t f { t.ring f with groups := now }
    have parts : t.setRing f { t.ring f with groups := now } =
      { t with rings := (t.setRing f { t.ring f with groups := now }).rings } := rfl
    generalize t.setRing f { t.ring f with groups := now } = w at ran shown others regs parts
    refine ⟨w, ran, ?_, congrArg RingSt.groups shown, ?_, fun k other => (others k other).trans (same k),
      fun b spared => (regs b).trans (pending b spared)⟩
    · rw [parts, only]
    · exact (congrArg RingSt.cqWait shown).trans (show (t.ring f).cqWait = _ by rw [same])
  case moderated =>
    intro f s w timed waits due
    have ran : exec (.cqModTimer f) s = .next (cqMessage s f) := by
      change execCqModTimer f s = _
      rw [execCqModTimer]
      exact congrArg Host.Outcome.next (if_pos ⟨timed, waits, due⟩)
    exact ⟨_, ran, cqMessage_shows s f⟩

end Sys2Proof.Machine
end

section
/-!
PROOF. Host ports and their functions (R369 to R371, R391, R392, R405).
-/
namespace Sys2Proof.Machine

/-! What a function's reset and existence leave (R371, R391). -/

/-- t has of s memory, the ports' state, the configuration, and the registers of p. -/
structure KeepsAt (p : Nat → Prop) (s t : State) : Prop where
  mem : t.mem = s.mem
  ports : t.ports = s.ports
  cfg : t.cfg = s.cfg
  regs : ∀ a, p a → t.reg a = s.reg a

section
variable {p : Nat → Prop} {s t u : State}

theorem KeepsAt.refl (p : Nat → Prop) (s : State) : KeepsAt p s s := ⟨rfl, rfl, rfl, fun _ _ => rfl⟩

theorem KeepsAt.trans (h : KeepsAt p s t) (k : KeepsAt p t u) : KeepsAt p s u :=
  ⟨k.mem.trans h.mem, k.ports.trans h.ports, k.cfg.trans h.cfg, fun a ha => (k.regs a ha).trans (h.regs a ha)⟩

theorem KeepsAt.mono {q : Nat → Prop} (h : KeepsAt p s t) (fewer : ∀ a, q a → p a) : KeepsAt q s t :=
  ⟨h.mem, h.ports, h.cfg, fun a ha => h.regs a (fewer a ha)⟩

theorem RegisterParts.keepsAt (h : RegisterParts s t) {l : List Nat} (regs : RegsBut s t l)
    (off : ∀ a ∈ l, ¬ p a) : KeepsAt p s t :=
  ⟨h.mem, by rw [h], by rw [h], fun a ha => regs a fun listed => off a listed ha⟩

end

/-- The registers of the host ports and the functions. -/
def HostPage (a : Nat) : Prop := (0x5000 ≤ a ∧ a < 0x7000) ∨ (0x10000 ≤ a ∧ a < 0x50000)

/-- Those that are not in function f's page. -/
def Beside (f a : Nat) : Prop := HostPage a ∧ (a < pageBase (.func f) ∨ pageBase (.func f) + 0x1000 ≤ a)

theorem not_beside_own (f : Nat) {o : Nat} (inside : o < 0x1000) : ¬ Beside f (pageBase (.func f) + o) := by
  unfold Beside
  omega

theorem not_hostPage_jobs : ¬ HostPage jobsReg := by
  have jobs : jobsReg = 0x3110 := rfl
  rw [jobs, HostPage]
  omega

theorem hostPage_func {f o : Nat} (function : f < 64) (inside : o < 0x1000) : HostPage (pageBase (.func f) + o) := by
  simp only [HostPage, pageBase]
  omega

theorem beside_func {f g o : Nat} (function : g < 64) (inside : o < 0x1000) (other : g ≠ f) :
    Beside f (pageBase (.func g) + o) := by
  refine ⟨hostPage_func function inside, ?_⟩
  simp only [pageBase]
  omega

/-- FUNC_STATUS of a function through updates that keep the ports and the functions. -/
theorem KeepsAt.status {s t : State} (h : KeepsAt HostPage s t) {f : Nat} (function : f < 64) (hi lo : Nat) :
    t.pf (.func f) Reg.FUNC_FUNC_STATUS hi lo = s.pf (.func f) Reg.FUNC_FUNC_STATUS hi lo :=
  congrArg (fget · hi lo) (h.regs _ (hostPage_func function (by decide)))

/-- Another function exists as it did. -/
theorem KeepsAt.exists_other {s t : State} {f g : Nat} (h : KeepsAt (Beside f) s t) (function : g < 64)
    (other : g ≠ f) : funcExists t g = funcExists s g :=
  congrArg (fget · 9 9 == 1) (h.regs _ (beside_func function (by decide) other))

/-! A function reset (R391). -/

theorem aget_filter_stays {α : Type} (d : α) (m : Assoc α) {stays : Nat → Bool} {k : Nat} (h : stays k = true) :
    aget d (m.filter (fun e => stays e.1)) k = aget d m k := by
  induction m with
  | nil => rfl
  | cons e r ih =>
    obtain ⟨j, v⟩ := e
    by_cases same : j = k
    · simp [same, h, aget]
    · by_cases hj : stays j = true
      · simp [hj, aget, same, ih]
      · simp [hj, aget, same, ih]

/-- A function's page after its reset, with the registers that a reset leaves (R391). -/
def funcCleared (s : State) (f : Nat) : State :=
  ((Reg.FUNC_FUNC_STATUS :: pfFieldOffs).map (fun o => (pageBase (.func f) + o, s.pr (.func f) o))).foldl
    (fun s e => s.setReg e.1 e.2) (s.resetRange (pageBase (.func f) + 0x100) (pageBase (.func f) + 0x1000))

/-- FUNC_STATUS of a function that resets: the next generation, RESETTING, and not FROZEN. -/
def funcMarked (s : State) (f gen : Nat) : State :=
  ((s.setPf (.func f) Reg.FUNC_FUNC_STATUS 31 24 gen).setPf (.func f) Reg.FUNC_FUNC_STATUS 10 10 1).setPf (.func f)
    Reg.FUNC_FUNC_STATUS 11 11 0

/-- A function's ring set, jobs, translations and streams after its reset. -/
def funcEmptied (s : State) (f : Nat) (jobs : List (Nat × Job)) : State :=
  streamsOff (dropS1 (jobs.foldl (fun s e => resetJob s e.1 e.2)
    (s.setRing f { s.ring f with modCount := 0, groups := 0, freezing := false })) f (fun _ _ _ => true)) f

theorem resetNow_eq (s : State) (f : Nat) :
    resetNow s f = funcEmptied (funcMarked (funcCleared s f) f ((funcGen s f + 1) % 256)) f
      ((jobsIn s).filter (fun e => e.2.rs == f)) := rfl

theorem resetRange_keepsAt (s : State) (f : Nat) :
    KeepsAt (Beside f) s (s.resetRange (pageBase (.func f) + 0x100) (pageBase (.func f) + 0x1000)) := by
  refine ⟨rfl, rfl, rfl, fun a ⟨_, off⟩ => ?_⟩
  refine aget_filter_stays (stays := fun a => decide (a < pageBase (.func f) + 0x100) ||
    decide (pageBase (.func f) + 0x1000 ≤ a)) _ _ ?_
  simp only [Bool.or_eq_true, decide_eq_true_eq]
  omega

theorem funcCleared_keepsAt (s : State) (f : Nat) : KeepsAt (Beside f) s (funcCleared s f) := by
  rw [funcCleared, List.foldl_map]
  refine List.foldlRecOn (motive := KeepsAt (Beside f) s) _ _ (resetRange_keepsAt s f) fun t kept o listed => ?_
  have inside : o < 0x1000 := by
    have all : ∀ o ∈ Reg.FUNC_FUNC_STATUS :: pfFieldOffs, o < 0x1000 := by decide
    exact all o listed
  refine kept.trans ⟨rfl, rfl, rfl, fun a off => ?_⟩
  refine (State.reg_setReg ..).trans (if_neg ?_)
  rintro rfl
  exact not_beside_own f inside off

theorem setPf_keepsAt {p : Nat → Prop} {page : Page} {o : Nat} (off : ¬ p (pageBase page + o)) (s : State)
    (hi lo v : Nat) : KeepsAt p s (s.setPf page o hi lo v) :=
  (setPf_registerParts ..).keepsAt (l := [_]) (setPf_regsBut (.head _)) (by simpa using off)

theorem funcMarked_keepsAt (s : State) (f gen : Nat) : KeepsAt (Beside f) s (funcMarked s f gen) := by
  have status := not_beside_own f (o := Reg.FUNC_FUNC_STATUS) (by decide)
  exact ((setPf_keepsAt status ..).trans (setPf_keepsAt status ..)).trans (setPf_keepsAt status ..)

theorem funcMarked_shows (s : State) (f : Nat) {gen : Nat} (fits : gen < 256) :
    funcGen (funcMarked s f gen) f = gen ∧ funcResetting (funcMarked s f gen) f = true := by
  constructor
  · rw [funcGen, funcMarked, State.pf_setPf_otherField (by decide) (by decide) (by decide),
      State.pf_setPf_otherField (by decide) (by decide) (by decide)]
    exact State.pf_setPf_fits (by decide) (by decide) fits
  · rw [funcResetting, funcMarked, State.pf_setPf_otherField (by decide) (by decide) (by decide)]
    exact congrArg (· == 1) (State.pf_setPf_fits (by decide) (by decide) (by decide))

theorem SlotParts.keepsAt {s t : State} (h : SlotParts s t) : KeepsAt HostPage s t := by
  refine ⟨h.mem, by rw [h.parts], by rw [h.parts], fun a ha => h.regs.reg_of_ne ?_⟩
  exact fun same => not_hostPage_jobs (same ▸ ha)

theorem resetJob_keepsAt (s : State) (i : Nat) (j : Job) : KeepsAt HostPage s (resetJob s i j) := by
  unfold resetJob
  split
  · exact (freeJob_slotParts s i).keepsAt
  · exact (freeJob_slotParts s i).keepsAt
  · split_ifs
    · exact .refl ..
    · exact (freeJob_slotParts s i).keepsAt
  · exact .refl ..
  · exact .refl ..

theorem srcOff_keepsAt (s : State) (k : Nat) : KeepsAt HostPage s (srcOff s k) := by
  refine setPf_keepsAt ?_ ..
  simp only [HostPage, pageBase]
  omega

theorem streamsOff_keepsAt (s : State) (owner : Nat) : KeepsAt HostPage s (streamsOff s owner) := by
  refine State.foldl_invariant (KeepsAt HostPage s) _ _ _ (.refl ..) fun t k kept => ?_
  split_ifs
  · exact kept.trans (srcOff_keepsAt t k)
  · exact kept

theorem funcEmptied_keepsAt (s : State) (f : Nat) (jobs : List (Nat × Job)) :
    KeepsAt HostPage s (funcEmptied s f jobs) := by
  have ring : KeepsAt HostPage s (s.setRing f { s.ring f with modCount := 0, groups := 0, freezing := false }) :=
    ⟨rfl, rfl, rfl, fun _ _ => rfl⟩
  have freed := State.foldl_invariant (KeepsAt HostPage s) (fun s e => resetJob s e.1 e.2) jobs _ ring
    fun t e kept => kept.trans (resetJob_keepsAt t e.1 e.2)
  rw [funcEmptied]
  generalize jobs.foldl (fun s e => resetJob s e.1 e.2)
    (s.setRing f { s.ring f with modCount := 0, groups := 0, freezing := false }) = t at freed ⊢
  have dropped : KeepsAt HostPage t (dropS1 t f (fun _ _ _ => true)) := ⟨rfl, rfl, rfl, fun _ _ => rfl⟩
  exact (freed.trans dropped).trans (streamsOff_keepsAt ..)

theorem resetNow_keepsAt (s : State) (f : Nat) : KeepsAt (Beside f) s (resetNow s f) :=
  ((funcCleared_keepsAt s f).trans (funcMarked_keepsAt ..)).trans ((funcEmptied_keepsAt ..).mono fun _ h => h.1)

/-- A function that resets shows its next generation and RESETTING (R391). -/
theorem resetNow_shows (s : State) {f : Nat} (function : f < 64) :
    funcGen (resetNow s f) f = (funcGen s f + 1) % 256 ∧ funcResetting (resetNow s f) f = true := by
  have marked := funcMarked_shows (funcCleared s f) f (gen := (funcGen s f + 1) % 256) (by omega)
  rw [resetNow_eq]
  generalize funcMarked (funcCleared s f) f ((funcGen s f + 1) % 256) = t at marked ⊢
  have kept := funcEmptied_keepsAt t f ((jobsIn s).filter (fun e => e.2.rs == f))
  exact ⟨(kept.status function 31 24).trans marked.1, (congrArg (· == 1) (kept.status function 10 10)).trans marked.2⟩

theorem funcReset_keepsAt (s : State) (f : Nat) : KeepsAt (Beside f) s (funcReset s f) := by
  unfold funcReset
  split_ifs
  · exact ⟨rfl, rfl, rfl, fun _ _ => rfl⟩
  · exact resetNow_keepsAt s f

theorem funcReset_idle {s : State} {f : Nat} (idle : funcResetting s f = false) : funcReset s f = resetNow s f := by
  simp [funcReset, idle]

/-! Which functions exist (R371). -/

theorem readyChange_only (was s : State) (p : Page) :
    RegisterParts s (readyChange was s p) ∧ RegsBut s (readyChange was s p) [hadr .dev .irqStatus] := by
  unfold readyChange
  split_ifs
  · exact ⟨event_registerParts .., event_regsBut (.head _)⟩
  · exact ⟨rfl, fun _ _ => rfl⟩

/-- A change of READY reaches the page's READY register and the events of DEV (R46). -/
theorem readied_only (s : State) (p : Page) (on reason : Nat) :
    let t := readyChange s ((s.setHf p .ready 0 0 on).setHf p .ready 15 8 reason) p
    RegisterParts s t ∧ RegsBut s t [hadr p .ready, hadr .dev .irqStatus] := by
  have fields : RegsBut s ((s.setHf p .ready 0 0 on).setHf p .ready 15 8 reason) [hadr p .ready] :=
    (setHf_regsBut (.head _)).trans (setHf_regsBut (.head _))
  have parts : RegisterParts s ((s.setHf p .ready 0 0 on).setHf p .ready 15 8 reason) := rfl
  generalize (s.setHf p .ready 0 0 on).setHf p .ready 15 8 reason = u at fields parts ⊢
  obtain ⟨more, dev⟩ := readyChange_only s u p
  exact ⟨parts.trans more, (fields.mono (by simp)).trans (dev.mono (by simp))⟩

theorem setReady_only (s : State) (p : Page) :
    RegisterParts s (s.setReady p) ∧ RegsBut s (s.setReady p) [hadr p .ready, hadr .dev .irqStatus] :=
  readied_only s p 1 0

theorem clearReady_only (s : State) (p : Page) (reason : Nat) :
    RegisterParts s (s.clearReady p reason) ∧
      RegsBut s (s.clearReady p reason) [hadr p .ready, hadr .dev .irqStatus] :=
  readied_only s p 0 reason

/-- READY of a function's page follows its existence (R371, R530). -/
def funcReadied (s : State) (f : Nat) (on : Bool) : State :=
  if !on then s.clearReady (.func f) 6 else if s.ready (hif (portOf f)) then s.setReady (.func f) else s

theorem setExists_eq (s : State) (f : Nat) (on : Bool) :
    setExists s f on = funcReadied (s.setPf (.func f) Reg.FUNC_FUNC_STATUS 9 9 (b2n on)) f on := rfl

theorem funcReadied_only (s : State) (f : Nat) (on : Bool) :
    RegisterParts s (funcReadied s f on) ∧
      RegsBut s (funcReadied s f on) [hadr (.func f) .ready, hadr .dev .irqStatus] := by
  unfold funcReadied
  split_ifs
  · exact clearReady_only ..
  · exact setReady_only ..
  · exact ⟨rfl, fun _ _ => rfl⟩

theorem not_hostPage_devIrq : ¬ HostPage (hadr .dev .irqStatus) := by
  have irq : hadr .dev .irqStatus = 0x18 := rfl
  rw [irq, HostPage]
  omega

/-- A function comes to exist or ceases to, with nothing of other functions and of the ports changed. -/
theorem setExists_shows (s : State) (f : Nat) (on : Bool) :
    KeepsAt (Beside f) s (setExists s f on) ∧ funcExists (setExists s f on) f = on := by
  have kept := setPf_keepsAt (not_beside_own f (o := Reg.FUNC_FUNC_STATUS) (by decide)) s 9 9 (b2n on)
  have exist : (s.setPf (.func f) Reg.FUNC_FUNC_STATUS 9 9 (b2n on)).pf (.func f) Reg.FUNC_FUNC_STATUS 9 9 = b2n on :=
    State.pf_setPf_fits (by decide) (by decide) (by cases on <;> decide)
  rw [setExists_eq]
  generalize s.setPf (.func f) Reg.FUNC_FUNC_STATUS 9 9 (b2n on) = u at kept exist ⊢
  obtain ⟨parts, regs⟩ := funcReadied_only u f on
  have ready : hadr (.func f) .ready = pageBase (.func f) + 0x8 := rfl
  have dev : hadr .dev .irqStatus = 0x18 := rfl
  refine ⟨kept.trans (parts.keepsAt regs ?_), ?_⟩
  · simp only [List.mem_cons, List.not_mem_nil, or_false, forall_eq_or_imp, forall_eq]
    exact ⟨not_beside_own f (o := 0x8) (by decide), fun h => not_hostPage_devIrq h.1⟩
  · have spared : pageBase (.func f) + Reg.FUNC_FUNC_STATUS ∉ [hadr (.func f) .ready, hadr .dev .irqStatus] := by
      rw [ready, dev]
      simp only [List.mem_cons, List.not_mem_nil, or_false, pageBase, Reg.FUNC_FUNC_STATUS]
      omega
    rw [funcExists, regs.pf spared, exist]
    cases on <;> rfl

theorem vfExists_shows (s : State) (f : Nat) (on : Bool) :
    KeepsAt (Beside f) s (vfExists s f on) ∧ funcExists (vfExists s f on) f = on := by
  unfold vfExists
  split_ifs with same enters
  · exact ⟨.refl .., same⟩
  · rw [enters]
    exact setExists_shows s f true
  · obtain ⟨kept, gone⟩ := setExists_shows (funcReset s f) f false
    exact ⟨(funcReset_keepsAt s f).trans kept, gone.trans (by simpa using enters)⟩

/-- The registers of the host ports. -/
def PortPage (a : Nat) : Prop := 0x5000 ≤ a ∧ a < 0x7000

theorem beside_of_portPage (f : Nat) {a : Nat} (h : PortPage a) : Beside f a := by
  simp only [Beside, HostPage, PortPage, pageBase] at *
  omega

/-- The first k VFs of a port as VF Enable and NumVFs say (R371). -/
def vfsExist (s : State) (p : Nat) (enable : Bool) (n k : Nat) : State :=
  (List.range k).foldl (fun s i => vfExists s (32 * p + i + 1) (enable && i < n)) s

theorem vfsExist_succ (s : State) (p : Nat) (enable : Bool) (n k : Nat) : vfsExist s p enable n (k + 1) =
    vfExists (vfsExist s p enable n k) (32 * p + k + 1) (enable && decide (k < n)) := by
  simp [vfsExist, List.range_succ]

theorem vfsExist_shows (s : State) {p : Nat} (port : p < 2) (enable : Bool) (n : Nat) {k : Nat} (few : k ≤ 31) :
    KeepsAt PortPage s (vfsExist s p enable n k) ∧
      ∀ i < k, funcExists (vfsExist s p enable n k) (32 * p + i + 1) = (enable && decide (i < n)) := by
  induction k with
  | zero => exact ⟨.refl .., fun i h => absurd h (by omega)⟩
  | succ k ih =>
    obtain ⟨kept, exist⟩ := ih (by omega)
    rw [vfsExist_succ]
    generalize vfsExist s p enable n k = t at kept exist ⊢
    obtain ⟨others, this⟩ := vfExists_shows t (32 * p + k + 1) (enable && decide (k < n))
    refine ⟨kept.trans (others.mono fun a => beside_of_portPage _), fun i h => ?_⟩
    obtain earlier | rfl : i < k ∨ i = k := by omega
    · exact (others.exists_other (by omega) (by omega)).trans (exist i earlier)
    · exact this

/-- VF Enable and NumVFs as the host sets them show in SRIOV, and the port's VFs exist accordingly (R371, R405). -/
theorem setSriov_shows (s : State) {p : Nat} (port : p < 2) (enable : Bool) (n : Nat) :
    let t := setSriov s p enable n
    t.pr (hif p) Reg.HOSTIF_SRIOV = w32 (b2n enable * 256 + n) ∧
      (∀ i < 31, funcExists t (32 * p + i + 1) = (enable && decide (i < n))) ∧
      t.mem = s.mem ∧ t.ports = s.ports ∧ t.cfg = s.cfg := by
  let word := w32 (b2n enable * 256 + n)
  have shown : (s.setPr (hif p) Reg.HOSTIF_SRIOV word).pr (hif p) Reg.HOSTIF_SRIOV = word := State.pr_setPr ..
  have stays : (s.setPr (hif p) Reg.HOSTIF_SRIOV word).mem = s.mem ∧
    (s.setPr (hif p) Reg.HOSTIF_SRIOV word).ports = s.ports ∧
    (s.setPr (hif p) Reg.HOSTIF_SRIOV word).cfg = s.cfg := ⟨rfl, rfl, rfl⟩
  have set : setSriov s p enable n = if s.pf (hif p) Reg.HOSTIF_SRIOV 8 8 = b2n enable then
      vfsExist (s.setPr (hif p) Reg.HOSTIF_SRIOV word) p enable n 31
    else (vfsExist (s.setPr (hif p) Reg.HOSTIF_SRIOV word) p enable n 31).event (hif p) 2 := rfl
  simp only [set]
  generalize s.setPr (hif p) Reg.HOSTIF_SRIOV word = u at shown stays ⊢
  obtain ⟨kept, exist⟩ := vfsExist_shows u port enable n (k := 31) (by decide)
  generalize vfsExist u p enable n 31 = v at kept exist ⊢
  obtain ⟨mem, ports, cfg⟩ := stays
  have sriov : v.pr (hif p) Reg.HOSTIF_SRIOV = word := by
    refine (kept.regs _ ?_).trans shown
    simp only [PortPage, hif, pageBase, Reg.HOSTIF_SRIOV]
    omega
  split_ifs
  · exact ⟨sriov, exist, kept.mem.trans mem, kept.ports.trans ports, kept.cfg.trans cfg⟩
  · have parts := event_registerParts v (hif p) 2
    have events : RegsBut v (v.event (hif p) 2) [hadr (hif p) .irqStatus] := event_regsBut (.head _)
    have head := State.pr_event (p := hif p) rfl (o := Reg.HOSTIF_SRIOV) (by decide) v 2
    generalize v.event (hif p) 2 = t at parts events head ⊢
    refine ⟨head.trans sriov, fun i few => ?_, parts.mem.trans (kept.mem.trans mem), ?_, ?_⟩
    · have apart : pageBase (.func (32 * p + i + 1)) + Reg.FUNC_FUNC_STATUS ∉ [hadr (hif p) .irqStatus] := by
        have irq : hadr (hif p) .irqStatus = pageBase (hif p) + 0x18 := rfl
        rw [irq]
        simp only [List.mem_singleton, hif, pageBase]
        omega
      rw [funcExists, events.pf apart]
      exact exist i few
    · rw [parts]
      exact kept.ports.trans ports
    · rw [parts]
      exact kept.cfg.trans cfg

/-! Resets from the host (R391, R392). -/

/-- What the host programmed into a function is gone; nothing but its port's state changes. -/
theorem clearConfig_shows (s : State) (p : Nat) {k : Nat} (function : k < 32) :
    let t := clearConfig s (32 * p + k)
    (t.hport p).msixOn = (s.hport p).msixOn.filter (· != k) ∧ (t.hport p).d3hot = (s.hport p).d3hot.filter (· != k) ∧
      t = { s with ports := t.ports } := by
  have port : portOf (32 * p + k) = p := by
    unfold portOf
    omega
  have number : (32 * p + k) % 32 = k := by omega
  refine ⟨?_, ?_, rfl⟩
  · simp [clearConfig, port, number, State.hport, State.setHport]
  · simp [clearConfig, port, number, State.hport, State.setHport]

/-- What the host programmed into the first k VFs of a port is gone. -/
def configsCleared (s : State) (p k : Nat) : State :=
  (List.range k).foldl (fun s i => clearConfig s (32 * p + i + 1)) s

theorem configsCleared_succ (s : State) (p k : Nat) :
    configsCleared s p (k + 1) = clearConfig (configsCleared s p k) (32 * p + (k + 1)) := by
  simp [configsCleared, List.range_succ, Nat.add_assoc]

theorem configsCleared_shows (s : State) (p : Nat) {k : Nat} (few : k ≤ 31) :
    (configsCleared s p k).mem = s.mem ∧ (configsCleared s p k).cfg = s.cfg ∧
      ∀ j, 0 < j → j ≤ k →
        j ∉ ((configsCleared s p k).hport p).msixOn ∧ j ∉ ((configsCleared s p k).hport p).d3hot := by
  induction k with
  | zero => exact ⟨rfl, rfl, fun j h h' => absurd h (by omega)⟩
  | succ k ih =>
    obtain ⟨mem, cfg, gone⟩ := ih (by omega)
    rw [configsCleared_succ]
    generalize configsCleared s p k = t at mem cfg gone ⊢
    obtain ⟨msix, power, parts⟩ := clearConfig_shows t p (k := k + 1) (by omega)
    generalize clearConfig t (32 * p + (k + 1)) = u at msix power parts ⊢
    refine ⟨by rw [parts]; exact mem, by rw [parts]; exact cfg, fun j positive upTo => ?_⟩
    rw [msix, power, List.mem_filter, List.mem_filter]
    obtain earlier | rfl : j ≤ k ∨ j = k + 1 := by omega
    · obtain ⟨off, awake⟩ := gone j positive earlier
      exact ⟨fun h => off h.1, fun h => awake h.1⟩
    · simp

/-- The PF of a port is reset (R392). -/
def pfReset (s : State) (p : Nat) : State :=
  if funcExists s (32 * p) then clearConfig (funcReset s (32 * p)) (32 * p) else s

theorem pfReset_keeps (s : State) (p : Nat) : (pfReset s p).mem = s.mem ∧ (pfReset s p).cfg = s.cfg := by
  unfold pfReset
  split_ifs
  · have kept := funcReset_keepsAt s (32 * p)
    generalize funcReset s (32 * p) = t at kept ⊢
    exact ⟨kept.mem, kept.cfg⟩
  · exact ⟨rfl, rfl⟩

theorem portReset_eq {s : State} {p : Nat} (native : legacyOn s = false) (port : p < 2) :
    portReset s p = setSriov (configsCleared (pfReset s p) p 31) p false 0 := by
  have reset : portReset s p = b4HostReset (setSriov (configsCleared (pfReset s p) p 31) p false 0) p := rfl
  obtain ⟨-, cfg⟩ := pfReset_keeps s p
  obtain ⟨-, cleared, -⟩ := configsCleared_shows (pfReset s p) p (k := 31) (by decide)
  obtain ⟨-, -, -, -, kept⟩ := setSriov_shows (configsCleared (pfReset s p) p 31) port false 0
  have profile : legacyOn (setSriov (configsCleared (pfReset s p) p 31) p false 0) = false := by
    rw [legacyOn, kept, cleared, cfg]
    exact native
  rw [reset, b4HostReset, profile]
  rfl

/-- A port's reset ends its VFs and what the host programmed into them; memory stays (R392). -/
theorem portReset_shows {s : State} {p : Nat} (native : legacyOn s = false) (port : p < 2) :
    let t := portReset s p
    t.pr (hif p) Reg.HOSTIF_SRIOV = 0 ∧
      (∀ k, 0 < k → k < 32 → k ∉ (t.hport p).msixOn ∧ k ∉ (t.hport p).d3hot) ∧ t.mem = s.mem := by
  simp only [portReset_eq native port]
  obtain ⟨before, -⟩ := pfReset_keeps s p
  obtain ⟨cleared, -, gone⟩ := configsCleared_shows (pfReset s p) p (k := 31) (by decide)
  generalize configsCleared (pfReset s p) p 31 = u at cleared gone ⊢
  obtain ⟨sriov, -, mem, ports, -⟩ := setSriov_shows u port false 0
  generalize setSriov u p false 0 = t at sriov mem ports ⊢
  refine ⟨sriov, fun k positive few => ?_, mem.trans (cleared.trans before)⟩
  rw [State.hport, ports]
  exact gone k positive (by omega)

/-! Configuration requests (R370). -/

theorem configOpen_iff (s : State) (p : Nat) :
    configOpen s p = true ↔ s.mode.mode ≠ .held ∧ linkUp s p = true ∧ s.ready (hif p) = true := by
  simp [configOpen, and_assoc]

/-- A configuration request of an open port, by whether the function exists (R370). -/
theorem exec_configRequest_open {p : Fin 2} {fn : BitVec 8} {s : State} (op : ConfigOp)
    (reached : configOpen s p = true) :
    exec (.configRequest p fn op) s = .next (if 32 ≤ fn.toNat ∨ !funcExists s (32 * p.val + fn.toNat) then
      answerUr s p true else configOp s (32 * p.val + fn.toNat) op) := by
  obtain ⟨mode, link, ready⟩ := (configOpen_iff s p).mp reached
  change execConfigRequest p fn op s = _
  rw [execConfigRequest, if_neg (by simp [mode, link]), if_neg (by simp [ready])]
  split_ifs <;> rfl

/-- A completion with Unsupported Request is sent and counted (R374, R405). -/
theorem answerUr_shows (s : State) (p : Nat) :
    let t := answerUr s p true
    t = { s with cyc := t.cyc, regs := t.regs } ∧ t.cyc.sent = s.cyc.sent ++ [.completion p 1 false []] ∧
      t.pr (hif p) Reg.HOSTIF_UR_COUNT = s.pr (hif p) Reg.HOSTIF_UR_COUNT + 1 ∧
      RegsBut s t [pageBase (hif p) + Reg.HOSTIF_UR_COUNT] := by
  have counted : (s.count (hif p) Reg.HOSTIF_UR_COUNT).pr (hif p) Reg.HOSTIF_UR_COUNT =
      s.pr (hif p) Reg.HOSTIF_UR_COUNT + 1 := State.pr_setPr ..
  have regs : RegsBut s (s.count (hif p) Reg.HOSTIF_UR_COUNT) [pageBase (hif p) + Reg.HOSTIF_UR_COUNT] :=
    count_regsBut (.head _)
  exact ⟨rfl, rfl, counted, regs⟩

/-! Links (R369, R405). -/

/-- LINK of a port that is up. -/
def linkWord (speed width : Nat) : Word := w32 (2 ^ 31 + 2 ^ 16 * (speed + 1) + 2 ^ width * 256)

theorem linkWord_fields (speed width : Fin 5) :
    fget (linkWord speed width) 31 31 = 1 ∧ fget (linkWord speed width) 18 16 = speed.val + 1 ∧
      fget (linkWord speed width) 12 8 = 2 ^ width.val := by
  revert speed width
  decide

theorem sriovWord_fields (on : Bool) (n : Fin 32) :
    fget (w32 (b2n on * 256 + n.val)) 8 8 = b2n on ∧ fget (w32 (b2n on * 256 + n.val)) 4 0 = n := by
  revert on n
  decide

theorem exec_pcieLinkUp_open {p : Fin 2} {s : State} (speed width : Fin 5) (mode : s.mode.mode ≠ .held)
    (on : portOn s p = true) :
    exec (.pcieLinkUp p speed width) s =
      .next (if (s.setPr (hif p) Reg.HOSTIF_LINK (linkWord speed width)).ready (hif p) && !linkUp s p then
        (s.setPr (hif p) Reg.HOSTIF_LINK (linkWord speed width)).event (hif p) 0
      else s.setPr (hif p) Reg.HOSTIF_LINK (linkWord speed width)) := by
  change execPcieLinkUp p speed width s = _
  rw [execPcieLinkUp, if_neg (by simp [mode, on])]
  rfl

theorem linkUp_iff {s : State} {p : Nat} : linkUp s p = true ↔ s.pf (hif p) Reg.HOSTIF_LINK 31 31 = 1 := beq_iff_eq

/-- Settles O37: link commands write LINK; resets are `resetNow_shows` and `portReset_shows`, the VFs of a host
`setSriov_shows`, and configuration requests `exec_configRequest_open`. -/
theorem hostPorts : Obligations.HostPorts := by
  refine ⟨?linkUp, ?linkDown, ?hotReset, ?functionReset, ?ctrlReset, ?resetDone, ?vfs, ?read, ?unsupported, ?retry⟩
  case linkUp =>
    intro p sp w s mode on
    have ran := exec_pcieLinkUp_open sp w mode on
    obtain ⟨up, speed, width⟩ := linkWord_fields sp w
    let u := s.setPr (hif p) Reg.HOSTIF_LINK (linkWord sp w)
    have word : u.pr (hif p) Reg.HOSTIF_LINK = linkWord sp w := State.pr_setPr ..
    have regs : RegsBut s u [pageBase (hif p) + Reg.HOSTIF_LINK] := setPr_regsBut (.head _)
    have parts : RegisterParts s u := setPr_registerParts ..
    have ready : u.ready (hif p) = s.ready (hif p) :=
      congrArg (fbit · 0) (regs.reg_of_ne (offset_ne (p := hif p) (o := 0x8) (by decide)))
    change exec _ s = .next (if u.ready (hif p) && !linkUp s p then u.event (hif p) 0 else u) at ran
    generalize u = v at word regs parts ready ran
    have field (hi lo : Nat) : v.pf (hif p) Reg.HOSTIF_LINK hi lo = fget (linkWord sp w) hi lo :=
      congrArg (fget · hi lo) word
    rw [ready] at ran
    split_ifs at ran with rises
    · have same (hi lo : Nat) := (State.pf_event (p := hif p) rfl (o := Reg.HOSTIF_LINK) (by decide) v 0 hi lo).trans
        (field hi lo)
      exact ⟨_, ran, parts.trans (event_registerParts ..), linkUp_iff.mpr ((same ..).trans up), (same ..).trans speed,
        (same ..).trans width, fun _ _ => event_bit _ _ _ (by decide),
        (regs.mono (by simp)).trans (event_regsBut (.tail _ (.head _)))⟩
    · exact ⟨v, ran, parts, linkUp_iff.mpr ((field ..).trans up), (field ..).trans speed, (field ..).trans width,
        fun isReady down => absurd (by simp [isReady, down]) rises, regs.mono (by simp)⟩
  case linkDown =>
    intro p s up
    have ran : exec (.linkDown p) s = .next (raiseFault (portReset
        ((s.setPr (hif p) Reg.HOSTIF_LINK 0).event (hif p) 1) p) (hif p) 0) := by
      change execLinkDown p s = _
      simp [execLinkDown, up]
    have down : ((s.setPr (hif p) Reg.HOSTIF_LINK 0).event (hif p) 1).pr (hif p) Reg.HOSTIF_LINK = 0 :=
      (State.pr_event (p := hif p) rfl (by decide) ..).trans (State.pr_setPr ..)
    refine ⟨_, _, ran, rfl, ?_, event_bit _ _ _ (by decide), raiseFault_bit _ (hif p) 0 false (by decide), ?_⟩
    · rw [linkUp, State.pf, down]
      rfl
    · exact RegsBut.trans (setPr_regsBut (.head _)) (event_regsBut (.tail _ (.head _)))
  case hotReset =>
    intro p s up native
    have ran : exec (.hotReset p) s = .next (portReset s p) := by
      change execHotReset p s = _
      rw [execHotReset, if_pos up]
    exact ⟨_, ran, portReset_shows native p.isLt⟩
  case functionReset =>
    intro f s reached there vf idle
    have ran : exec (.functionLevelReset f) s = .next (clearConfig (resetNow s f) f) := by
      change execFunctionLevelReset f s = _
      simp [execFunctionLevelReset, reached, there, vf, funcReset_idle idle]
    have mem := (resetNow_keepsAt s f).mem
    have shows := resetNow_shows s f.isLt
    generalize resetNow s f = t at ran mem shows
    exact ⟨_, ran, shows.1, shows.2, mem⟩
  case ctrlReset =>
    intro m f v s a accepts go idle
    have took := writeReg_taken (check := fun _ => none) (op := fun s => if fbit v 0 then funcReset s f else s)
      accepts rfl
    rw [if_pos go, funcReset_idle idle] at took
    have ran : exec (.funcCtrlReset m f v) s = .next ((resetNow (taken s m a) f).noteWrite a) :=
      congrArg Host.Outcome.next took
    have mem := (resetNow_keepsAt (taken s m a) f).mem
    have shows := resetNow_shows (taken s m a) f.isLt
    generalize resetNow (taken s m a) f = t at ran mem shows
    exact ⟨_, ran, shows.1, shows.2, mem⟩
  case resetDone =>
    intro f s resets settled once
    let u := (s.setPf (.func f) Reg.FUNC_FUNC_STATUS 10 10 0).event (.func f) 4
    have parts : RegisterParts s u := (setPf_registerParts ..).trans (event_registerParts ..)
    have ran : exec (.resetDone f) s = .next (if (u.ring f).resetAgain then
        resetNow (u.setRing f { u.ring f with resetAgain := false }) f else u) := by
      change execResetDone f s = _
      rw [execResetDone, if_pos (by simp [resets, settled])]
    have again : (u.ring f).resetAgain = false := by
      rw [State.ring, parts.rings]
      exact once
    rw [again] at ran
    refine ⟨u, ran, parts, ?_, event_bit _ _ _ (by decide), ?_⟩
    · exact congrArg (· == 1) (pf_setPf_event (p := .func f) rfl (by decide) (by decide) (by decide) (by decide) ..)
    · exact RegsBut.trans (setPf_regsBut (.head _)) (event_regsBut (.tail _ (.head _)))
  case vfs =>
    intro p on n s reached works there native
    have ran : exec (.vfEnableChange p on n) s = .next (setSriov s p on n) := by
      change execVfEnableChange p on n s = _
      simp [execVfEnableChange, reached, works, there, native]
    obtain ⟨sriov, exist, mem, -⟩ := setSriov_shows s p.isLt on n
    obtain ⟨enable, count⟩ := sriovWord_fields on n
    generalize setSriov s p on n = t at ran sriov exist mem
    exact ⟨t, ran, (congrArg (fget · 8 8) sriov).trans enable, (congrArg (fget · 4 0) sriov).trans count, exist, mem⟩
  case read =>
    intro p fn d s reached few there
    have port : portOf (32 * p.val + fn.toNat) = p := by
      unfold portOf
      omega
    have ran := exec_configRequest_open (fn := fn) (.read d) reached
    rw [if_neg (by simp [there, few]), configOp, port] at ran
    exact ⟨_, ran, rfl, rfl⟩
  case unsupported =>
    intro p fn op s reached absent
    have ran := exec_configRequest_open (fn := fn) op reached
    rw [if_pos (by simpa using absent)] at ran
    exact ⟨_, ran, answerUr_shows s p⟩
  case retry =>
    intro p fn op s mode up unready
    change execConfigRequest p fn op s = _
    rw [execConfigRequest, if_neg (by simp [mode, up]), if_pos (by simp [unready])]

end Sys2Proof.Machine
end

section
/-!
PROOF. World switches and interrupts of the control complex (R408, R417 to R424).
-/
namespace Sys2Proof.Machine

/-! One core changes, and its world bit. -/

theorem State.core_setCore_ne (s : State) {c d : Nat} (x : CoreSt) (other : d ≠ c) :
    (s.setCore c x).core d = s.core d :=
  aget_aset_ne _ _ _ _ other

theorem worldBit_setWorld (s : State) {c : Nat} (word : c < 32) (b : Bool) (d : Nat) :
    worldBit (setWorld s c b) d = if d = c then b else worldBit s d := by
  have register : (setWorld s c b).pr .world Reg.WORLD_CORE_WORLD =
      fset (s.pr .world Reg.WORLD_CORE_WORLD) c c (b2n b) := State.pr_setPr ..
  rw [worldBit, register]
  by_cases same : d = c
  · rw [if_pos same, same]
    exact fbit_fsetb _ b word
  · rw [if_neg same]
    exact fbit_fsetb_other _ b word same

/-- t differs from s in nothing but core c and its world bit, which is b. -/
structure Switched (s t : State) (c : Nat) (b : Bool) : Prop where
  parts : t = { s with regs := t.regs, cpx := t.cpx }
  regs : RegsBut s t [pageBase .world + Reg.WORLD_CORE_WORLD]
  cores : ∀ d, d ≠ c → t.core d = s.core d
  bits : ∀ d, d ≠ c → worldBit t d = worldBit s d
  bit : worldBit t c = b

/-- A core whose state changes while its world bit stands. -/
theorem setCore_switched (s : State) (c : Nat) (k : CoreSt) : Switched s (s.setCore c k) c (worldBit s c) where
  parts := rfl
  regs _ _ := rfl
  cores _ other := State.core_setCore_ne s k other
  bits _ _ := rfl
  bit := rfl

theorem setWorld_switched (s : State) {c : Nat} (word : c < 32) (k : CoreSt) (b : Bool) :
    Switched s (setWorld (s.setCore c k) c b) c b where
  parts := rfl
  regs := setPf_regsBut (s := s.setCore c k) (.head _)
  cores _ other := State.core_setCore_ne s k other
  bits d other := (worldBit_setWorld (s.setCore c k) word b d).trans (if_neg other)
  bit := (worldBit_setWorld (s.setCore c k) word b c).trans (if_pos rfl)

theorem core_setWorld_setCore (s : State) (c : Nat) (k : CoreSt) (b : Bool) :
    (setWorld (s.setCore c k) c b).core c = k := State.core_setCore ..

/-! A trap into M-mode (R408, R418, R424). -/

/-- What a trap into M-mode makes of a core in state k: the saved registers, and where it goes on. -/
structure TrappedM (k k' : CoreSt) (origin : CoreMode) (epc cause tval target : Nat) : Prop where
  mode : k'.mode = .m
  pc : k'.pc = target
  mepc : k'.mepc = epc
  mcause : k'.mcause = cause
  mtval : k'.mtval = tval
  mpp : k'.mpp = origin
  mie : k'.mie = false
  mpie : k'.mpie = k.mie
  x : k'.x = k.x

theorem trapM_switched (s : State) {c : Nat} (word : c < 32) (mode : CoreMode) (epc cause tval pc : Nat) :
    Switched s (trapM s c mode epc cause tval pc) c true :=
  setWorld_switched s word _ true

/-- The record of a secure entry and the isolation level, which a core from world 0 takes as well, are no part of what
the trap saves. -/
theorem trapM_trapped (s : State) (c : Nat) (mode : CoreMode) (epc cause tval pc : Nat) :
    TrappedM (s.core c) ((trapM s c mode epc cause tval pc).core c) mode epc cause tval pc := by
  rw [trapM, core_setWorld_setCore]
  split_ifs <;> exact ⟨rfl, rfl, rfl, rfl, rfl, rfl, rfl, rfl, rfl⟩

/-! WCALL (R417, R418). -/

/-- The world bit of a shared core is 1 in M-mode alone (R408). -/
theorem modeFits_shared {s : State} {c : Nat} {mode : CoreMode} (shared : isHwCore s c = false) :
    modeFits s c mode = (worldBit s c == (mode == .m)) := if_neg (by simp [shared])

theorem exec_wcall_enters {c : Fin 8} {s : State} (pc : BitVec 64) (runs : coreRuns s c = true)
    (shared : isHwCore s c = false) (normal : worldBit s c = false) :
    exec (.wcall c .hs pc) s = .next (wcallEnter s c pc.toNat) := by
  have fits : modeFits s c .hs = true := by
    rw [modeFits_shared shared, normal]
    rfl
  change execWcall c .hs pc s = _
  rw [execWcall, if_neg (by simp [runs, fits]), if_pos rfl]

/-! WRET (R417, R419, R420, R422). -/

/-- The registers of core c behind the scrub, where WRET scrubs. -/
def coreScrubbed (s : State) (c : Nat) : CoreSt := if wretScrubs s c then scrub (s.core c) else s.core c

/-- Core c as WRET leaves it. -/
def coreReturned (s : State) (c : Nat) : CoreSt :=
  let k := coreScrubbed s c
  { k with mode := k.mpp, pc := k.mepc, mie := k.mpie, mpie := true, mpp := .u, firstWret := false, iso := isoField s c }

theorem exec_wret_returns {c : Fin 8} {s : State} (pc : BitVec 64) (runs : coreRuns s c = true)
    (shared : isHwCore s c = false) (secure : worldBit s c = true) (mpp : (s.core c).mpp ≠ .m) :
    exec (.wret c .m pc) s = .next (setWorld (s.setCore c (coreReturned s c)) c false) := by
  have fits : modeFits s c .m = true := by
    rw [modeFits_shared shared, secure]
    rfl
  change execWret c .m pc s = _
  rw [execWret, if_neg (by simp [runs, fits]), if_pos ⟨rfl, shared⟩, wretReturn, if_neg mpp]
  rfl

/-- A scrub leaves the trap registers. -/
theorem coreScrubbed_keeps (s : State) (c : Nat) :
    (coreScrubbed s c).mpp = (s.core c).mpp ∧ (coreScrubbed s c).mepc = (s.core c).mepc ∧
      (coreScrubbed s c).mpie = (s.core c).mpie ∧ (coreScrubbed s c).mtvec = (s.core c).mtvec := by
  unfold coreScrubbed
  split_ifs <;> exact ⟨rfl, rfl, rfl, rfl⟩

theorem coreScrubbed_of_not_wretScrubs {s : State} {c : Nat} (bare : wretScrubs s c = false) :
    coreScrubbed s c = s.core c := if_neg (by simp [bare])

theorem coreScrubbed_of_wretScrubs {s : State} {c : Nat} (scrubs : wretScrubs s c = true) :
    coreScrubbed s c = scrub (s.core c) := if_pos scrubs

/-- A scrub clears every floating-point register. -/
theorem scrub_f {k : CoreSt} {v : Nat} (h : v ∈ (scrub k).f) : v = 0 := List.eq_of_mem_replicate h

/-- A scrub clears every general register but a0 and a1. -/
theorem scrub_x (k : CoreSt) (i : Nat) :
    (scrub k).x[i]? = k.x[i]?.map (fun v => if i = 10 ∨ i = 11 then v else 0) := List.getElem?_mapIdx

/-! Interrupts (R423, R424). -/

/-- The target of secure interrupts is one of the eight cores. -/
theorem secureTarget_lt {s : State} {c : Nat} (target : secureTarget s = some c) : c < 8 := by
  unfold secureTarget at target
  split_ifs at target
  exact List.mem_range.mp (List.mem_filter.mp (List.mem_of_mem_head? target)).1

theorem exec_secureIrqTaken_traps {c : Nat} {s : State} (target : secureTarget s = some c)
    (waits : irqNext s secureSource ≠ 0) :
    exec .secureIrqTaken s = .next (trapM s c (s.core c).mode (s.core c).pc (2 ^ 63 + 11) 0
      (trapTarget (s.core c).mtvec (some 11))) := by
  change execSecureIrqTaken s = _
  simp only [execSecureIrqTaken, target, if_neg waits]

theorem exec_normalIrqTaken_traps {c : Fin 8} {s : State} (shared : isHwCore s c = false)
    (normal : worldBit s c = false) (runs : coreRuns s c = true)
    (target : bit (s.pf .ctrlcplx Reg.CTRLCPLX_SAP_IRQ_TARGET 7 0) c = true) (waits : irqNext s normalSource ≠ 0) :
    exec (.normalIrqTaken c) s = .next (trapS s c (s.core c).mode (s.core c).pc (2 ^ 63 + 9) 0
      (trapTarget (s.core c).stvec (some 9))) := by
  change execNormalIrqTaken c s = _
  rw [execNormalIrqTaken, if_neg (by simp [shared, normal, runs, target, waits])]

/-- Settles O18: each command changes one core and its world bit (`Switched`); what becomes of the core is
`trapM_trapped` for WCALL and secure interrupts, `coreReturned` for WRET, and `trapS` for normal interrupts. -/
theorem worldSwitches : Obligations.WorldSwitches := by
  refine ⟨?wcall, ?wret, ?secure, ?normal⟩
  case wcall =>
    intro c pc s runs shared normal
    have ran := exec_wcall_enters pc runs shared normal
    cases shut : monitorShut s with
    | false =>
      rw [wcallEnter, if_neg (by simp [shut])] at ran
      have switch := trapM_switched s (c := c) (by omega) .hs (pc.toNat + 4) 24 0
        (s.pair .world Reg.WORLD_WCALL_VECTOR_LO)
      have trap := trapM_trapped s c .hs (pc.toNat + 4) 24 0 (s.pair .world Reg.WORLD_WCALL_VECTOR_LO)
      exact ⟨_, ran, switch.parts, switch.regs, switch.cores, switch.bits,
        fun _ => ⟨switch.bit, trap.mode, trap.pc, trap.mepc, trap.mcause, trap.mtval, trap.mpp, trap.mie, trap.mpie,
          trap.x⟩, nofun⟩
    | true =>
      rw [wcallEnter, if_pos shut] at ran
      have switch := setCore_switched s c
        { s.core c with mode := .hs, pc := pc.toNat + 4, x := (s.core c).x.set 10 unavailable }
      exact ⟨_, ran, switch.parts, switch.regs, switch.cores, switch.bits, nofun,
        fun _ => ⟨switch.bit.trans normal, State.core_setCore ..⟩⟩
  case wret =>
    intro c pc s runs shared secure mpp
    have switch := setWorld_switched s (c := c) (by omega) (coreReturned s c) false
    refine ⟨_, exec_wret_returns pc runs shared secure mpp, switch.parts, switch.regs, switch.cores, switch.bits,
      switch.bit, ?_⟩
    rw [core_setWorld_setCore]
    obtain ⟨keepsMode, keepsPc, keepsMie, keepsVector⟩ := coreScrubbed_keeps s c
    refine ⟨keepsMode, keepsPc, keepsMie, rfl, rfl, keepsVector, fun bare => ?_, fun scrubs => ?_⟩
    · simp only [coreReturned, coreScrubbed_of_not_wretScrubs bare, and_self]
    · simp only [coreReturned, coreScrubbed_of_wretScrubs scrubs]
      exact ⟨rfl, fun _ => scrub_f, scrub_x _⟩
  case secure =>
    intro c s target waits
    have switch := trapM_switched s (c := c) ((secureTarget_lt target).trans (by omega)) (s.core c).mode (s.core c).pc
      (2 ^ 63 + 11) 0 (trapTarget (s.core c).mtvec (some 11))
    have trap := trapM_trapped s c (s.core c).mode (s.core c).pc (2 ^ 63 + 11) 0
      (trapTarget (s.core c).mtvec (some 11))
    exact ⟨_, exec_secureIrqTaken_traps target waits, switch.parts, switch.regs, switch.cores, trap.mode, trap.mepc,
      trap.mpp, trap.mcause, trap.mie, trap.mpie, trap.pc, fun _ => switch.bit⟩
  case normal =>
    intro c s shared normal runs target waits
    exact ⟨_, exec_normalIrqTaken_traps shared normal runs target waits, rfl,
      fun _ other => State.core_setCore_ne s _ other, State.core_setCore ..⟩

end Sys2Proof.Machine
end

section
/-!
SUPPORT. A fault of KEYS leaves the block-specific registers of the KEYS page (R459, R500, R509): where its action is
FENCE or SAFE the device enters Safe, and what Safe stops stands in other pages or in headers.
-/
namespace Sys2Proof.Machine

/-! Header registers stand apart from the body of the KEYS page. -/

/-- The addresses of the block-specific registers of the KEYS page (R460). -/
def KeyReg (a : Nat) : Prop := pageBase .keys + 0x100 ≤ a ∧ a < pageBase .keys + 0x1000

theorem keyReg_iff {a : Nat} : KeyReg a ↔ 0x3C0100 ≤ a ∧ a < 0x3C1000 := Iff.rfl

theorem not_keyReg_of_lt {a : Nat} (below : a < 0x3C0100) : ¬ KeyReg a :=
  fun body => Nat.not_le_of_lt below (keyReg_iff.mp body).1

theorem hdrOff_lt (h : Hdr) : hdrOff h < 0x100 := by
  cases h <;> decide

theorem layerHdrOff_lt {h : Hdr} {o : Nat} (there : layerHdrOff h = some o) : o < 0x100 := by
  cases h <;> simp [layerHdrOff] at there <;> omega

theorem pageBase_aligned {p : Page} (common : pageBody p = 0x100) : pageBase p % 0x1000 = 0 := by
  cases p with
  | layer n l => cases common
  | _ => simp only [pageBase] <;> omega

theorem hadr_not_keyReg {p : Page} (ok : pageOk p = true) (h : Hdr) : ¬ KeyReg (hadr p h) := by
  by_cases common : pageBody p = 0x100
  · have aligned := pageBase_aligned common
    have header := hdrOff_lt h
    rw [keyReg_iff, hadr_common common]
    omega
  · cases p with
    | layer n l =>
      have range : n < 12 ∧ l < 16 := by simpa [pageOk] using ok
      have below : hadr (.layer n l) h < 0x140000 := by
        have header := hdrOff_lt h
        simp only [hadr]
        split
        next o there =>
          have mirror := layerHdrOff_lt there
          simp only [pageBase]
          omega
        · simp only [pageBase]
          omega
      rw [keyReg_iff]
      omega
    | _ => exact absurd rfl common

/-- A page that an offset decodes to is one of the device's (R80). -/
theorem pageOk_of_pageAt {a : Nat} {p : Page} {o : Nat} (here : pageAt a = some (p, o)) : pageOk p = true := by
  unfold pageAt at here
  extract_lets k off n at here
  have inside : off < 0x1000 := Nat.mod_lt _ (by decide)
  have head (numbered : k < 0x130) : n < 12 := by omega
  clear_value k off n
  obtain ⟨low, here⟩ | ⟨-, here⟩ := ite_eq_iff.mp here
  · split at here
    all_goals cases here <;> rfl
  obtain ⟨func, here⟩ | ⟨-, here⟩ := ite_eq_iff.mp here
  · cases here
    simp only [pageOk, decide_eq_true_eq]
    omega
  obtain ⟨-, here⟩ | ⟨-, here⟩ := ite_eq_iff.mp here
  · cases here
  obtain ⟨numbered, here⟩ | ⟨-, here⟩ := ite_eq_iff.mp here
  · have head := head numbered
    split at here
    all_goals cases here; simp only [pageOk, Bool.and_eq_true, decide_eq_true_eq]; omega
  · repeat' (rw [ite_eq_iff] at here; obtain ⟨range, here⟩ | ⟨range, here⟩ := here)
    all_goals cases here <;> simp only [pageOk, decide_eq_true_eq] <;> omega

theorem pageOk_of_pending {s : State} {p : Page} (pending : p ∈ pendingPages s) : pageOk p = true := by
  obtain ⟨e, -, here⟩ := List.mem_filterMap.mp pending
  obtain ⟨place, found, rfl⟩ := Option.map_eq_some_iff.mp here
  exact pageOk_of_pageAt found

/-! Updates that leave the body of the KEYS page. -/

/-- Every block-specific register of KEYS holds in t what it holds in s. -/
structure KeepsKeyRegs (s t : State) : Prop where
  reg : ∀ a, KeyReg a → t.reg a = s.reg a

theorem KeepsKeyRegs.of_regs {s t : State} (same : ∀ a, t.reg a = s.reg a) : KeepsKeyRegs s t := ⟨fun a _ => same a⟩

theorem KeepsKeyRegs.trans {s t u : State} (h : KeepsKeyRegs s t) (k : KeepsKeyRegs t u) : KeepsKeyRegs s u :=
  ⟨fun a body => (k.reg a body).trans (h.reg a body)⟩

theorem KeepsKeyRegs.withMode {s t : State} (h : KeepsKeyRegs s t) (m : ModeSt) :
    KeepsKeyRegs s { t with mode := m } := ⟨h.reg⟩

theorem KeepsKeyRegs.withSafe {s t : State} (h : KeepsKeyRegs s t) (x : SafeSt) :
    KeepsKeyRegs s { t with safe := x } := ⟨h.reg⟩

/-- An operation on each element of a list, each of which leaves the body of the page. -/
theorem KeepsKeyRegs.foldl {β : Type} {f : State → β → State} (l : List β) {s t : State} (h : KeepsKeyRegs s t)
    (step : ∀ x, ∀ b ∈ l, KeepsKeyRegs x (f x b)) : KeepsKeyRegs s (l.foldl f t) :=
  List.foldlRecOn (motive := KeepsKeyRegs s) l f h fun x kept b listed => kept.trans (step x b listed)

theorem RegsBut.keepsKeyRegs {s t : State} {l : List Nat} (h : RegsBut s t l) (apart : ∀ a ∈ l, ¬ KeyReg a) :
    KeepsKeyRegs s t :=
  ⟨fun a body => h a fun listed => apart a listed body⟩

theorem KeepsKeyRegs.pf {s t : State} (h : KeepsKeyRegs s t) {o : Nat} (body : 0x100 ≤ o) (inside : o < 0x1000)
    (hi lo : Nat) : t.pf .keys o hi lo = s.pf .keys o hi lo :=
  congrArg (fget · hi lo) (h.reg _ ⟨Nat.add_le_add_left body _, Nat.add_lt_add_left inside _⟩)

/-! What Safe stops (R509). -/

theorem dropStage_keepsKeyRegs (s : State) {p : Page} (ok : pageOk p = true) (reject : Nat) :
    KeepsKeyRegs s (dropStage s p reject) := by
  unfold dropStage
  split
  · exact .of_regs fun _ => rfl
  · refine RegsBut.keepsKeyRegs (l := [hadr p .commitStatus]) (setHd_regsBut (s := s.setPend p none)
      (List.mem_singleton_self _)) ?_
    exact List.forall_mem_singleton.mpr (hadr_not_keyReg ok .commitStatus)

theorem hapStop_keepsKeyRegs (s : State) (ch : Nat) : KeepsKeyRegs s (hapStop s ch) := by
  have status : RegsBut s (hapStop s ch) [pageBase (.hapch ch) + Reg.HAPCH_HSTATUS] :=
    setPr_regsBut (s := { s with haps := aset {} s.haps ch {} }) (List.mem_singleton_self _)
  refine status.keepsKeyRegs ?_
  simp only [List.mem_singleton, forall_eq, keyReg_iff, pageBase]
  omega

/-- The registers that an invalidation of a run of head n writes (R166, R169). -/
def invalRegs (n : Nat) : List Nat :=
  [pageBase .veneer + (Reg.VENEER_VSTATUS + 0x40 * n), pageBase .veneer + (Reg.VENEER_VINVAL_COUNT + 0x40 * n),
    hadr .veneer .irqStatus]

theorem invalidateRun_regsBut (s : State) (n r code : Nat) : RegsBut s (invalidateRun s n r code) (invalRegs n) := by
  unfold invalidateRun
  extract_lets h removed status told
  have status : RegsBut s status (invalRegs n) := setPf_regsBut (s := removed) (by simp [invalRegs])
  have told : RegsBut s told (invalRegs n) :=
    (status.trans (count_regsBut (by simp [invalRegs]))).trans (event_regsBut (by simp [invalRegs]))
  split
  · exact told.trans (event_regsBut (by simp [invalRegs]))
  · exact told

theorem invalidateRun_keepsKeyRegs (s : State) {n : Nat} (head : n < 12) (r code : Nat) :
    KeepsKeyRegs s (invalidateRun s n r code) := by
  refine (invalidateRun_regsBut s n r code).keepsKeyRegs ?_
  simp only [invalRegs, List.forall_mem_cons, List.not_mem_nil, IsEmpty.forall_iff, implies_true, and_true, keyReg_iff,
    pageBase, hadr, hdrOff, Reg.VENEER_VSTATUS, Reg.VENEER_VINVAL_COUNT]
  omega

theorem setMode_keepsKeyRegs (s : State) (m : Mode) : KeepsKeyRegs s (setMode s m) := by
  have event : RegsBut s (setMode s m) [hadr .dev .irqStatus] := fun a apart => by
    unfold setMode
    rw [State.logAdd_reg, State.reg_event, if_neg (List.ne_of_not_mem_cons apart)]
    rfl
  exact event.keepsKeyRegs (List.forall_mem_singleton.mpr (hadr_not_keyReg (p := .dev) rfl .irqStatus))

theorem safeStops_keepsKeyRegs (s : State) : KeepsKeyRegs s (safeStops s) := by
  unfold safeStops
  extract_lets dropped invalidated stopped unscheduled idle
  have drop : KeepsKeyRegs s dropped := .foldl _ (.of_regs fun _ => rfl) fun x p pending => by
    split
    · exact .of_regs fun _ => rfl
    · exact dropStage_keepsKeyRegs x (pageOk_of_pending pending) 8
  have invalidate : KeepsKeyRegs s invalidated := drop.foldl _ fun x n head =>
    .foldl _ (.of_regs fun _ => rfl) fun y r _ => invalidateRun_keepsKeyRegs y (List.mem_range.mp head) r.idx 9
  have stop : KeepsKeyRegs s stopped := invalidate.foldl _ fun x ch _ => hapStop_keepsKeyRegs x ch
  clear_value stopped
  refine stop.trans (RegsBut.keepsKeyRegs (l := [pageBase .sched + Reg.SCHED_JOBS]) (fun a apart => ?_) ?_)
  · exact (State.reg_setPf { stopped with sched := unscheduled } ..).trans (if_neg (List.ne_of_not_mem_cons apart))
  · exact List.forall_mem_singleton.mpr (not_keyReg_of_lt (by decide))

theorem holdHeartwood_keepsKeyRegs (s : State) : KeepsKeyRegs s (holdHeartwood s) :=
  .foldl _ (.of_regs fun _ => rfl) fun x c _ => by
    dsimp only
    split <;> exact .of_regs fun _ => rfl

theorem enterSafe_keepsKeyRegs (s : State) (hw : Bool) (p : Page) (b sev : Nat) (atFault : Bool) :
    KeepsKeyRegs s (enterSafe s hw p b sev atFault) := by
  have held {t : State} (f : Bool) (h : KeepsKeyRegs s t) : KeepsKeyRegs s (if f then holdHeartwood t else t) := by
    split
    · exact h.trans (holdHeartwood_keepsKeyRegs t)
    · exact h
  have info (v : Word) : KeepsKeyRegs s (s.setPr .dev Reg.DEV_SAFE_INFO v) :=
    (setPr_regsBut (List.mem_singleton_self _)).keepsKeyRegs
      (List.forall_mem_singleton.mpr (not_keyReg_of_lt (by decide)))
  unfold enterSafe
  dsimp only
  split
  · exact .of_regs fun _ => rfl
  · split
    · exact .of_regs fun _ => rfl
    · exact held _ ((info _).trans (.of_regs fun _ => rfl))
  · refine held _ (KeepsKeyRegs.trans ?_ (safeStops_keepsKeyRegs _))
    exact (((info _).withMode _).trans (setMode_keepsKeyRegs _ _)).withSafe _

/-- A fault of KEYS leaves the body of its page, whatever its action: a FENCE of KEYS is carried out as SAFE (R500). -/
theorem raiseFault_keys_keepsKeyRegs (s : State) (b : Nat) : KeepsKeyRegs s (raiseFault s .keys b) := by
  have header (h : Hdr) : ¬ KeyReg (hadr .keys h) := hadr_not_keyReg rfl h
  have recorded : KeepsKeyRegs s (recordFault s .keys b false) :=
    (recordFault_regsBut s .keys b false).keepsKeyRegs (by simp [faultRegs, header])
  unfold raiseFault
  dsimp only [faultPage, fenceUnit]
  split
  · exact (hwBits_regsBut (List.mem_singleton_self _)).keepsKeyRegs (List.forall_mem_singleton.mpr (header _))
  · split
    · exact recorded.trans (enterSafe_keepsKeyRegs ..)
    · split
      · exact recorded.trans (enterSafe_keepsKeyRegs ..)
      · exact recorded

end Sys2Proof.Machine
end

section
/-!
PROOF. Scans and self-tests of the keys (R442, R443, R446, R449, R451, R459).
-/
namespace Sys2Proof.Machine

/-! Keys and scanners. -/

@[simp] theorem State.scan_setScan (s : State) (p : Nat) (x : ScanSt) : (s.setScan p x).scan p = x := by
  simp [State.scan, State.setScan]

theorem State.scan_setScan_ne (s : State) {p q : Nat} (x : ScanSt) (other : q ≠ p) :
    (s.setScan p x).scan q = s.scan q := aget_aset_ne _ _ _ _ other

theorem State.pf_setScan (s : State) (p : Nat) (x : ScanSt) (q : Page) (o hi lo : Nat) :
    (s.setScan p x).pf q o hi lo = s.pf q o hi lo := rfl

theorem RegsBut.setScan {s t : State} {l : List Nat} (h : RegsBut s t l) (p : Nat) (x : ScanSt) :
    RegsBut s (t.setScan p x) l := h

theorem State.pf_noteWrite (s : State) (a : Nat) (p : Page) (o hi lo : Nat) :
    (s.noteWrite a).pf p o hi lo = s.pf p o hi lo := rfl

theorem State.key_setKey (s : State) (k j : Nat) (x : KeySt) :
    (s.setKey k x).key j = if j = k then x else s.key j := aget_aset_cases ..

theorem State.scan_of_scans {s t : State} (same : t.scans = s.scans) (p : Nat) : t.scan p = s.scan p :=
  congrArg (fun scans => aget ({} : ScanSt) scans p) same

/-- The address of KEY_STATE of key k (R460). -/
def keyStateAt (k : Nat) : Nat := pageBase .keys + (Reg.KEYS_KEY_STATE + 4 * k)

theorem keyStateAt_eq (k : Nat) : keyStateAt k = 0x3C0C00 + 4 * k := by
  simp only [keyStateAt, pageBase, Reg.KEYS_KEY_STATE]
  omega

theorem keyStateAt_ne {j k : Nat} (other : j ≠ k) : keyStateAt j ≠ keyStateAt k := by
  rw [keyStateAt_eq, keyStateAt_eq]
  omega

/-- No header register and none of the page's control registers is a KEY_STATE. -/
theorem not_mem_keyStates {a : Nat} (below : a < 0x3C0C00) (cs : List Nat) (key : Nat → Nat) :
    a ∉ cs.map fun c => keyStateAt (key c) := by
  intro listed
  obtain ⟨k, -, rfl⟩ := List.mem_map.mp listed
  rw [keyStateAt_eq] at below
  omega

/-- What each turn of a fold over a range brings about holds after it, where the later turns keep it. -/
theorem foldl_range_each {I : State → Prop} {Q : Nat → State → Prop} {f : State → Nat → State} {n : Nat} {s : State}
    (start : I s) (step : ∀ x, ∀ c < n, I x → I (f x c) ∧ Q c (f x c))
    (keep : ∀ x, ∀ c < n, ∀ d < c, I x → Q d x → Q d (f x c)) :
    I ((List.range n).foldl f s) ∧ ∀ c < n, Q c ((List.range n).foldl f s) := by
  induction n with
  | zero => exact ⟨start, fun c range => absurd range c.not_lt_zero⟩
  | succ n ih =>
    obtain ⟨kept, each⟩ := ih (fun x c range => step x c (by omega)) (fun x c range => keep x c (by omega))
    rw [List.range_succ, List.foldl_append, List.foldl_cons, List.foldl_nil]
    obtain ⟨next, last⟩ := step _ n (by omega) kept
    refine ⟨next, fun c range => ?_⟩
    by_cases old : c < n
    · exact keep _ n (by omega) c old kept (each c old)
    · rwa [show c = n by omega]

/-! Enabling KEYS (R443). -/

theorem exec_keysEnable_taken {m : Master} {s : State} (accepts : Accepts s m (hadr .keys .ctrl))
    (idle : (taken s m (hadr .keys .ctrl)).busy .keys = false)
    (mode : (taken s m (hadr .keys .ctrl)).mode.mode ≠ .survey) :
    exec (.keysEnable m) s =
      .next (((taken s m (hadr .keys .ctrl)).setHf .keys .ctrl 0 0 1).noteWrite (hadr .keys .ctrl)) :=
  congrArg Host.Outcome.next (writeReg_taken accepts (by simp [keysEnableCheck, enableCheck, mode, idle]))

/-! Scans (R443). -/

theorem scanRate_lt (idle : Nat) : scanRate idle < 4 := by
  unfold scanRate
  split_ifs <;> decide

/-- A port that scans and is idle starts a scan in slot 0, with the rate of its idle time. -/
def scanStarted (s : State) (p : Nat) : State :=
  (s.setPf .keys Reg.KEYS_SCAN_STATUS (8 * p + 1) (8 * p)
      (if (s.scan p).initScan then 0 else scanRate (s.devtime - (s.scan p).detectEnd))).setScan p
    { s.scan p with slot := some 0, start := s.devtime, detected := false }

theorem scanStarted_only (s : State) (p : Nat) : scanStarted s p =
    { s with regs := (scanStarted s p).regs, scans := (scanStarted s p).scans } := rfl

theorem scanStarted_regsBut (s : State) (p : Nat) :
    RegsBut s (scanStarted s p) [pageBase .keys + Reg.KEYS_SCAN_STATUS] :=
  RegsBut.setScan (setPf_regsBut (List.mem_singleton_self _)) _ _

theorem scanStarted_rate (s : State) {p : Nat} (port : p < 4) :
    (scanStarted s p).pf .keys Reg.KEYS_SCAN_STATUS (8 * p + 1) (8 * p) =
      if (s.scan p).initScan then 0 else scanRate (s.devtime - (s.scan p).detectEnd) := by
  have width : 8 * p + 1 + 1 - 8 * p = 2 := by omega
  rw [scanStarted, State.pf_setScan]
  refine State.pf_setPf_fits (by omega) (by omega) ?_
  rw [width]
  split
  · decide
  · exact scanRate_lt _

theorem exec_scanStart_starts {p : Fin 4} {s : State} (scans : portScans s p = true) (native : b4Keys s = false)
    (idle : (s.scan p).slot = none) (untested : (s.scan p).testing = false) :
    exec (.scanStart p) s = .next (scanStarted s p) := by
  change execScanStart p s = _
  simp [execScanStart, scanStarted, scans, native, idle, untested]
  rfl

/-! A measurement while the port initialises (R446). -/

theorem keyEvent_eq (s : State) (k edge owner : Nat) :
    keyEvent s k edge owner = { s with keyWait := (keyEvent s k edge owner).keyWait } := by
  unfold keyEvent
  split_ifs <;> rfl

/-- A new owner is taken over in the key's own state; what else changes is the events that wait (R452). -/
theorem adoptOwner_eq (s : State) (k : Nat) :
    adoptOwner s k = { s with keys := (adoptOwner s k).keys, keyWait := (adoptOwner s k).keyWait } := by
  unfold adoptOwner
  extract_lets x o down told owned
  have told_eq : told = { s with keyWait := told.keyWait } := by
    unfold told
    split_ifs
    · exact keyEvent_eq ..
    · rfl
  have owned_eq : owned = { s with keys := owned.keys, keyWait := owned.keyWait } := by
    unfold owned
    rw [told_eq]
    rfl
  split_ifs
  · rfl
  · rw [keyEvent_eq, owned_eq]
  · exact owned_eq

theorem adoptOwner_key (s : State) (k j : Nat) : (adoptOwner s k).key j =
    if j = k then { s.key k with owner := s.pf .keys (Reg.KEYS_KEY_CFG + 4 * k) 7 0 } else s.key j := by
  have told (u : State) (edge owner : Nat) : (keyEvent u k edge owner).key j = u.key j := by
    rw [keyEvent_eq]
    rfl
  unfold adoptOwner
  dsimp only
  split
  next same =>
    split
    next here => rw [← same, here]
    · rfl
  · by_cases down : 2 ≤ keyState s k <;> simp only [down, told, State.key_setKey, if_true, if_false]

/-- What a measurement of key k leaves while its port initialises: the raw count is the baseline and shows in KEY_STATE,
and beside the key's own state only events can wait (R446, R452). -/
def baselineTaken (s : State) (k raw : Nat) : State :=
  let t := adoptOwner (s.setPf .keys (Reg.KEYS_KEY_STATE + 4 * k) 15 0 raw) k
  t.setKey k { t.key k with b24 := raw * 256, neg := 0 }

theorem rawOf_free {s : State} {k : Nat} (touch : armed s .keys 0x60 = none) (opened : armed s .keys 0x61 = none)
    (free : (s.key k).forcedLeft = 0) (raw : Nat) : rawOf s k raw = (s, raw) := by
  have met : meetForce s k = s := by rw [meetForce, touch, opened]
  rw [rawOf, met]
  exact if_pos free

theorem measureKey_initialises {s : State} {p k : Nat} (touch : armed s .keys 0x60 = none)
    (opened : armed s .keys 0x61 = none) (free : (s.key k).forcedLeft = 0) (init : (s.scan p).initScan = true)
    (raw : Nat) : measureKey s p k raw = baselineTaken s k raw := by
  have scans : (adoptOwner (s.setPf .keys (Reg.KEYS_KEY_STATE + 4 * k) 15 0 raw) k).scan p = s.scan p :=
    State.scan_of_scans (by rw [adoptOwner_eq]; rfl) p
  unfold measureKey
  rw [rawOf_free touch opened free]
  dsimp only
  rw [scans, if_pos init]
  rfl

section
variable (s : State) (k raw : Nat)

theorem baselineTaken_eq : baselineTaken s k raw = { s with
    regs := (baselineTaken s k raw).regs, keys := (baselineTaken s k raw).keys,
    keyWait := (baselineTaken s k raw).keyWait } := by
  unfold baselineTaken
  dsimp only
  rw [adoptOwner_eq]
  rfl

theorem baselineTaken_reg (a : Nat) : (baselineTaken s k raw).reg a =
    (s.setPf .keys (Reg.KEYS_KEY_STATE + 4 * k) 15 0 raw).reg a := by
  unfold baselineTaken
  dsimp only
  rw [State.setKey_reg, adoptOwner_eq]
  rfl

theorem baselineTaken_regsBut : RegsBut s (baselineTaken s k raw) [keyStateAt k] :=
  fun a apart => (baselineTaken_reg s k raw a).trans (setPf_regsBut (List.mem_singleton_self _) a apart)

theorem baselineTaken_key (j : Nat) : (baselineTaken s k raw).key j = if j = k then
    { s.key k with owner := s.pf .keys (Reg.KEYS_KEY_CFG + 4 * k) 7 0, b24 := raw * 256, neg := 0 } else s.key j := by
  have config : (s.setPf .keys (Reg.KEYS_KEY_STATE + 4 * k) 15 0 raw).pf .keys (Reg.KEYS_KEY_CFG + 4 * k) 7 0 =
      s.pf .keys (Reg.KEYS_KEY_CFG + 4 * k) 7 0 := by
    apply State.pf_setPf_otherReg
    simp only [Reg.KEYS_KEY_CFG, Reg.KEYS_KEY_STATE]
    omega
  unfold baselineTaken
  dsimp only
  rw [State.key_setKey, adoptOwner_key, adoptOwner_key, if_pos rfl, config]
  split <;> rfl

end

/-! The end of a slot (R442, R446). -/

/-- The count of electrode c of a slot. -/
def countOf (counts : List (BitVec 16)) (c : Nat) : Nat := (counts.getD c 0).toNat

/-- What the measurements of a slot whose keys start at `first` keep, from s to t, while the port initialises. -/
structure SlotKeeps (s t : State) (first : Nat) : Prop where
  scans : t.scans = s.scans
  mem : t.mem = s.mem
  regs : RegsBut s t ((List.range 8).map fun c => keyStateAt (first + c))
  forced : ∀ k, (t.key k).forcedLeft = (s.key k).forcedLeft

/-- The baseline and KEY_STATE of key k show a raw count. -/
def ShowsCount (t : State) (k raw : Nat) : Prop :=
  (t.key k).b24 = raw * 256 ∧ t.pf .keys (Reg.KEYS_KEY_STATE + 4 * k) 15 0 = raw

theorem SlotKeeps.refl (s : State) (first : Nat) : SlotKeeps s s first := ⟨rfl, rfl, fun _ _ => rfl, fun _ => rfl⟩

theorem SlotKeeps.armed {s t : State} {first : Nat} (h : SlotKeeps s t first) (kind : Nat) :
    armed t .keys kind = armed s .keys kind := by
  have inject : t.hd .keys .inject = s.hd .keys .inject := h.regs _ (not_mem_keyStates (by decide) _ _)
  rw [Machine.armed, inject, Machine.armed]

theorem SlotKeeps.measured {s t : State} {first c : Nat} (h : SlotKeeps s t first) (slot : c < 8) (raw : Nat) :
    SlotKeeps s (baselineTaken t (first + c) raw) first where
  scans := by rw [baselineTaken_eq, ← h.scans]
  mem := by rw [baselineTaken_eq, ← h.mem]
  regs := h.regs.trans ((baselineTaken_regsBut t _ raw).mono (by
    simpa using ⟨c, slot, rfl⟩))
  forced k := by
    rw [baselineTaken_key, ← h.forced]
    split
    next here => rw [here]
    · rfl

theorem baselineTaken_showsCount (s : State) (k : Nat) {raw : Nat} (fits : raw < 2 ^ 16) :
    ShowsCount (baselineTaken s k raw) k raw := by
  refine ⟨by rw [baselineTaken_key, if_pos rfl], ?_⟩
  exact (congrArg (fget · 15 0) (baselineTaken_reg s k raw _)).trans
    (State.pf_setPf_fits (by decide) (by decide) fits)

theorem ShowsCount.kept {s : State} {j k raw : Nat} (h : ShowsCount s j raw) (other : j ≠ k) (raw' : Nat) :
    ShowsCount (baselineTaken s k raw') j raw := by
  obtain ⟨baseline, shown⟩ := h
  refine ⟨by rw [baselineTaken_key, if_neg other, baseline], ?_⟩
  exact ((baselineTaken_regsBut s k raw').pf (mt List.mem_singleton.mp (keyStateAt_ne other)) 15 0).trans shown

/-- The eight measurements of a slot. -/
def slotMeasured (s : State) (p sl : Nat) (counts : List (BitVec 16)) : State :=
  (List.range 8).foldl (fun s c => measureKey s p (64 * p + 8 * sl + c) (countOf counts c)) s

theorem slotMeasured_initialises {s : State} {p sl : Nat} (counts : List (BitVec 16))
    (touch : armed s .keys 0x60 = none) (opened : armed s .keys 0x61 = none) (init : (s.scan p).initScan = true)
    (free : ∀ c < 8, (s.key (64 * p + 8 * sl + c)).forcedLeft = 0) :
    SlotKeeps s (slotMeasured s p sl counts) (64 * p + 8 * sl) ∧
      ∀ c < 8, ShowsCount (slotMeasured s p sl counts) (64 * p + 8 * sl + c) (countOf counts c) := by
  have taken {x : State} {c : Nat} (slot : c < 8) (h : SlotKeeps s x (64 * p + 8 * sl)) :
      measureKey x p (64 * p + 8 * sl + c) (countOf counts c) =
        baselineTaken x (64 * p + 8 * sl + c) (countOf counts c) :=
    measureKey_initialises ((h.armed _).trans touch) ((h.armed _).trans opened) ((h.forced _).trans (free c slot))
      ((congrArg ScanSt.initScan (State.scan_of_scans h.scans p)).trans init) _
  refine foldl_range_each (I := fun x => SlotKeeps s x (64 * p + 8 * sl))
    (Q := fun c x => ShowsCount x (64 * p + 8 * sl + c) (countOf counts c)) (.refl s _)
    (fun x c slot h => ?_) (fun x c slot d before h shown => ?_)
  · rw [taken slot h]
    exact ⟨h.measured slot _, baselineTaken_showsCount x _ (BitVec.isLt _)⟩
  · rw [taken slot h]
    exact shown.kept (by omega) _

theorem exec_slotEnd_next {p : Fin 4} {counts : List (BitVec 16)} {sl : Nat} {s : State}
    (running : (s.scan p).slot = some sl) (before : sl < 7)
    (same : (slotMeasured s p sl counts).scans = s.scans) :
    exec (.slotEnd p counts) s =
      .next ((slotMeasured s p sl counts).setScan p { s.scan p with slot := some (sl + 1) }) := by
  change execSlotEnd p counts s = _
  rw [← State.scan_of_scans same p, execSlotEnd, running]
  exact if_pos before

/-! Self-tests (R449 to R451). -/

/-- A self-test of port p begins: BUSY and PORT, and the port's scan stops. -/
def testStarted (s : State) (p : Nat) : State :=
  let t := ((s.setPf .keys Reg.KEYS_SELFTEST 1 0 p).setPf .keys Reg.KEYS_SELFTEST 30 30 1).setPf .keys
    Reg.KEYS_SCAN_STATUS (8 * p + 2) (8 * p + 2) 1
  t.setScan p { t.scan p with slot := none, testing := true }

theorem exec_selftest_taken {m : Master} {v : Word} {s : State}
    (accepts : Accepts s m (pageBase .keys + Reg.KEYS_SELFTEST)) (go : fbit v 31 = true)
    (check : selftestCheck (taken s m (pageBase .keys + Reg.KEYS_SELFTEST)) v = none) :
    exec (.selftest m v) s =
      .next ((testStarted (taken s m (pageBase .keys + Reg.KEYS_SELFTEST)) (fget v 1 0)).noteWrite
        (pageBase .keys + Reg.KEYS_SELFTEST)) := by
  have begun (u : State) : selftestOp u v = testStarted u (fget v 1 0) := by
    rw [selftestOp, testStarted, if_pos go]
  have took := writeReg_taken (check := fun s => selftestCheck s v) (op := fun s => selftestOp s v) accepts check
  change execSelftest m v s = _
  rw [execSelftest, took, begun]

theorem testStarted_regsBut (s : State) (p : Nat) : RegsBut s (testStarted s p)
    [pageBase .keys + Reg.KEYS_SELFTEST, pageBase .keys + Reg.KEYS_SCAN_STATUS] :=
  RegsBut.setScan (((setPf_regsBut (.head _)).trans (setPf_regsBut (.head _))).trans
    (setPf_regsBut (.tail _ (.head _)))) _ _

theorem testStarted_shows (s : State) {p : Nat} (port : p < 4) :
    (testStarted s p).pf .keys Reg.KEYS_SELFTEST 30 30 = 1 ∧ (testStarted s p).pf .keys Reg.KEYS_SELFTEST 1 0 = p := by
  have status (u : State) (hi lo v hi' lo' : Nat) : (u.setPf .keys Reg.KEYS_SCAN_STATUS hi lo v).pf .keys
      Reg.KEYS_SELFTEST hi' lo' = u.pf .keys Reg.KEYS_SELFTEST hi' lo' := State.pf_setPf_otherReg (by decide)
  unfold testStarted
  dsimp only
  rw [State.pf_setScan, State.pf_setScan, status, status]
  exact ⟨State.pf_setPf (by decide) (by decide), (State.pf_setPf_otherField (by decide) (by decide) (by decide)).trans
    (State.pf_setPf_fits (by decide) (by decide) port)⟩

theorem testStarted_scan (s : State) (p : Nat) :
    ((testStarted s p).scan p).testing = true ∧ ((testStarted s p).scan p).slot = none := by
  rw [testStarted, State.scan_setScan]
  exact ⟨rfl, rfl⟩

theorem testStarted_mem (s : State) (p : Nat) : (testStarted s p).mem = s.mem := by
  rw [testStarted, State.setScan_mem, State.setPf_mem, State.setPf_mem, State.setPf_mem]

/-- A self-test whose write stands for the cycle shows as it began. -/
theorem testNoted_shows (s : State) {p : Nat} (port : p < 4) (a : Nat) :
    let t := (testStarted s p).noteWrite a
    t.pf .keys Reg.KEYS_SELFTEST 30 30 = 1 ∧ t.pf .keys Reg.KEYS_SELFTEST 1 0 = p ∧ (t.scan p).testing = true ∧
      (t.scan p).slot = none ∧
      RegsBut s t [pageBase .keys + Reg.KEYS_SELFTEST, pageBase .keys + Reg.KEYS_SCAN_STATUS] ∧ t.mem = s.mem := by
  obtain ⟨busy, tested⟩ := testStarted_shows s port
  obtain ⟨testing, slot⟩ := testStarted_scan s p
  intro t
  have noted (hi lo : Nat) : t.pf .keys Reg.KEYS_SELFTEST hi lo = (testStarted s p).pf .keys Reg.KEYS_SELFTEST hi lo :=
    State.pf_noteWrite ..
  have scan : t.scan p = (testStarted s p).scan p := State.scan_of_scans (State.noteWrite_scans ..) p
  rw [noted, noted, scan]
  exact ⟨busy, tested, testing, slot, noteWrite_regsBut (testStarted_regsBut s p),
    (State.noteWrite_mem ..).trans (testStarted_mem s p)⟩

theorem testFlags_lt (openL shortL neigh : Nat) (counts right lower : List (BitVec 16)) (e : Nat) :
    testFlags openL shortL neigh counts right lower e < 8 := by
  have bit_le (b : Bool) : b2n b ≤ 1 := by cases b <;> decide
  unfold testFlags
  extract_lets c r d n
  have opened := bit_le (c counts e < openL)
  have short := bit_le (shortL < c counts e)
  have neighbour := bit_le n
  omega

theorem RegsOnly.parts {s t : State} (h : RegsOnly s t) (p : Nat) :
    t.mem = s.mem ∧ t.keys = s.keys ∧ t.scan p = s.scan p :=
  ⟨by rw [h], by rw [h], State.scan_of_scans (by rw [h]) p⟩

/-- The flags of a self-test in KEY_STATE of every key of port p. -/
def flagged (s : State) (p : Nat) (fl : Nat → Nat) : State :=
  (List.range 64).foldl (fun s e => s.setPf .keys (Reg.KEYS_KEY_STATE + 4 * (64 * p + e)) 30 28 (fl e)) s

theorem flagged_shows (s : State) (p : Nat) {fl : Nat → Nat} (three : ∀ e, fl e < 8) :
    RegsOnly s (flagged s p fl) ∧
      ∀ e < 64, (flagged s p fl).pf .keys (Reg.KEYS_KEY_STATE + 4 * (64 * p + e)) 30 28 = fl e := by
  refine foldl_range_each (I := RegsOnly s)
    (Q := fun e x => x.pf .keys (Reg.KEYS_KEY_STATE + 4 * (64 * p + e)) 30 28 = fl e) rfl
    (fun x e _ only => ?_) (fun x e _ d before _ shown => ?_)
  · exact ⟨only.trans (setPf_regsOnly ..), State.pf_setPf_fits (by decide) (by decide) (three e)⟩
  · exact (State.pf_setPf_otherReg (by omega)).trans shown

/-- A self-test of port p is over: BUSY and the port's TESTING fall, the port initialises, and the end is reported. -/
def testClosed (s : State) (p : Nat) : State :=
  let t := (s.setPf .keys Reg.KEYS_SELFTEST 30 30 0).setPf .keys Reg.KEYS_SCAN_STATUS (8 * p + 2) (8 * p + 2) 0
  (t.setScan p { t.scan p with testing := false, initScan := true, slot := none }).event .keys 2

theorem testClosed_keeps (s : State) (p : Nat) : (testClosed s p).mem = s.mem ∧ (testClosed s p).keys = s.keys := by
  simp [testClosed]

theorem testClosed_scan (s : State) (p : Nat) :
    (testClosed s p).scan p = { s.scan p with testing := false, initScan := true, slot := none } := by
  have told (u : State) : (u.event .keys 2).scan p = u.scan p := rfl
  rw [testClosed, told, State.scan_setScan]
  rfl

theorem testClosed_shows (s : State) (p : Nat) :
    (testClosed s p).pf .keys Reg.KEYS_SELFTEST 30 30 = 0 ∧
      ∀ k hi lo, (testClosed s p).pf .keys (Reg.KEYS_KEY_STATE + 4 * k) hi lo =
        s.pf .keys (Reg.KEYS_KEY_STATE + 4 * k) hi lo := by
  unfold testClosed
  dsimp only
  refine ⟨?_, fun k hi lo => ?_⟩
  · rw [State.pf_event rfl (by decide), State.pf_setScan, State.pf_setPf_otherReg (by decide)]
    exact State.pf_setPf (by decide) (by decide)
  · have state : Reg.KEYS_SCAN_STATUS < Reg.KEYS_KEY_STATE + 4 * k ∧
        Reg.KEYS_SELFTEST < Reg.KEYS_KEY_STATE + 4 * k := by
      simp only [Reg.KEYS_SCAN_STATUS, Reg.KEYS_SELFTEST, Reg.KEYS_KEY_STATE]
      omega
    rw [State.pf_event rfl (by simp only [Reg.KEYS_KEY_STATE]; omega), State.pf_setScan,
      State.pf_setPf_otherReg state.1.ne', State.pf_setPf_otherReg state.2.ne']

theorem testClosed_bit (s : State) (p : Nat) : fbit ((testClosed s p).hd .keys .irqStatus) 2 = true :=
  event_bit _ .keys 2 (by decide)

/-- The fault of a self-test, where one of its flags is set (R451). -/
def testFaulted (s : State) (fl : Nat → Nat) : State :=
  if (List.range 64).any (fun e => fl e != 0) then raiseFault s .keys 0 else s

theorem testFaulted_rises (s : State) (fl : Nat → Nat) : Rises s (testFaulted s fl) :=
  .ite (raiseFault_rises .keys 0 false (.refl s)) (.refl s)

theorem testFaulted_keepsKeyRegs (s : State) (fl : Nat → Nat) : KeepsKeyRegs s (testFaulted s fl) := by
  unfold testFaulted
  split
  · exact raiseFault_keys_keepsKeyRegs s 0
  · exact .of_regs fun _ => rfl

theorem testFaulted_bit {s : State} {fl : Nat → Nat} (flag : ∃ e, e < 64 ∧ fl e ≠ 0) :
    fbit ((testFaulted s fl).hd .keys .faultStatus) 0 = true := by
  have any : (List.range 64).any (fun e => fl e != 0) = true := by simpa using flag
  rw [testFaulted, if_pos any]
  exact raiseFault_bit s .keys 0 false (by decide)

/-- Whatever the action of that fault does, the end of a self-test shows. -/
theorem testResults_show (s : State) {p : Nat} (port : p < 4) (fl : Nat → Nat) :
    let t := testFaulted (testClosed s p) fl
    t.pf .keys Reg.KEYS_SELFTEST 30 30 = 0 ∧
      (∀ e < 64, t.pf .keys (Reg.KEYS_KEY_STATE + 4 * (64 * p + e)) 30 28 =
        s.pf .keys (Reg.KEYS_KEY_STATE + 4 * (64 * p + e)) 30 28) ∧
      fbit (t.hd .keys .irqStatus) 2 = true ∧ t.mem = s.mem ∧ t.keys = s.keys ∧
      t.scan p = { s.scan p with testing := false, initScan := true, slot := none } := by
  obtain ⟨mem, keys⟩ := testClosed_keeps s p
  obtain ⟨done, states⟩ := testClosed_shows s p
  have faulted := testFaulted_rises (testClosed s p) fl
  have body := testFaulted_keepsKeyRegs (testClosed s p) fl
  refine ⟨(body.pf (by decide) (by decide) ..).trans done, fun e key => ?_,
    faulted.bits _ (.inl (irq_mod .keys)) 2 (testClosed_bit s p), faulted.keeps.mem.trans mem,
    faulted.keeps.keys.trans keys, (State.scan_of_scans faulted.keeps.scans p).trans (testClosed_scan s p)⟩
  have inside : 0x100 ≤ Reg.KEYS_KEY_STATE + 4 * (64 * p + e) ∧ Reg.KEYS_KEY_STATE + 4 * (64 * p + e) < 0x1000 := by
    simp only [Reg.KEYS_KEY_STATE]
    omega
  exact (body.pf inside.1 inside.2 ..).trans (states ..)

/-- The results of a self-test as the port that is tested takes them. -/
theorem exec_selftestDone_busy {counts right lower : List (BitVec 16)} {s : State}
    (busy : s.pf .keys Reg.KEYS_SELFTEST 30 30 = 1) :
    let lim := s.pr .keys Reg.KEYS_ST_LIMITS
    let fl := testFlags (fget lim 15 0) (fget lim 31 16) (s.pf .keys Reg.KEYS_NEIGH_LIMIT 15 0) counts right lower
    exec (.selftestDone counts right lower) s =
      .next (testFaulted (testClosed (flagged s (s.pf .keys Reg.KEYS_SELFTEST 1 0) fl)
        (s.pf .keys Reg.KEYS_SELFTEST 1 0)) fl) := by
  intro lim fl
  change execSelftestDone counts right lower s = _
  rw [execSelftestDone, if_neg (by rw [busy]; decide)]
  rfl

/-! Parity errors of a port's sense RAM (R459). -/

theorem keyEdge_keeps (s : State) (k edge : Nat) :
    (keyEdge s k edge).scans = s.scans ∧ (keyEdge s k edge).mem = s.mem := by
  unfold keyEdge b4KeyEdge
  rw [keyEvent_eq]
  split_ifs <;> exact ⟨rfl, rfl⟩

/-- Every key of port p is released, with an event where it was pressed. -/
def keysReleased (s : State) (p : Nat) : State :=
  (List.range 64).foldl (fun s e =>
    let k := 64 * p + e
    let s := if 2 ≤ keyState s k then keyEdge s k 2 else s
    (setKeyState s k 0).setKey k { s.key k with count := 0 }) s

theorem keysReleased_keeps (s : State) (p : Nat) :
    (keysReleased s p).scans = s.scans ∧ (keysReleased s p).mem = s.mem := by
  refine State.foldl_invariant (fun t => t.scans = s.scans ∧ t.mem = s.mem) _ _ s ⟨rfl, rfl⟩ fun x e ⟨scans, mem⟩ => ?_
  have edge : (if 2 ≤ keyState x (64 * p + e) then keyEdge x (64 * p + e) 2 else x).scans = x.scans ∧
      (if 2 ≤ keyState x (64 * p + e) then keyEdge x (64 * p + e) 2 else x).mem = x.mem := by
    split
    · exact keyEdge_keeps ..
    · exact ⟨rfl, rfl⟩
  exact ⟨edge.1.trans scans, edge.2.trans mem⟩

theorem senseParity_eq (s : State) (p : Nat) : senseParity s p = raiseFault ((keysReleased s p).setScan p
    { (keysReleased s p).scan p with slot := none, initScan := true }) .keys 1 := rfl

theorem senseParity_keeps (s : State) (p : Nat) : (senseParity s p).mem = s.mem ∧
    (senseParity s p).scan p = { s.scan p with slot := none, initScan := true } ∧
    ∀ q, q ≠ p → (senseParity s p).scan q = s.scan q := by
  obtain ⟨scans, mem⟩ := keysReleased_keeps s p
  have faulted := (raiseFault_rises .keys 1 false (.refl ((keysReleased s p).setScan p
    { (keysReleased s p).scan p with slot := none, initScan := true }))).keeps
  rw [senseParity_eq]
  refine ⟨faulted.mem.trans mem, ?_, fun q other => ?_⟩
  · rw [State.scan_of_scans faulted.scans, State.scan_setScan, State.scan_of_scans scans]
  · rw [State.scan_of_scans faulted.scans, State.scan_setScan_ne _ _ other, State.scan_of_scans scans]

theorem senseParity_bit (s : State) (p : Nat) : fbit ((senseParity s p).hd .keys .faultStatus) 1 = true := by
  rw [senseParity_eq]
  exact raiseFault_bit _ .keys 1 false (by decide)

/-- Settles O44: each command's effect is one of the states above, and what the statement asks of it is read there. -/
theorem keyScans : Obligations.KeyScans := by
  refine ⟨?enable, ?start, ?slot, ?test, ?results, ?parity⟩
  case enable =>
    intro m s a accepts idle _ mode
    refine ⟨_, exec_keysEnable_taken accepts idle mode, ?_,
      noteWrite_regsBut (setHf_regsBut (List.mem_singleton_self _)), rfl, rfl, rfl⟩
    change fbit (((taken s m a).setHf .keys .ctrl 0 0 1).hd .keys .ctrl) 0 = true
    rw [State.hd_setHf, fbit_fset _ _ _ (by decide) (by decide)]
    rfl
  case start =>
    intro p s on port native idle untested
    have scans : portScans s p = true := by simp [portScans, on, port]
    refine ⟨_, exec_scanStart_starts scans native idle untested, scanStarted_only s p, State.scan_setScan ..,
      scanStarted_rate s p.isLt, fun q other => State.scan_setScan_ne _ _ other, scanStarted_regsBut s p⟩
  case slot =>
    intro p counts sl s running before init touch opened free
    obtain ⟨keeps, shown⟩ := slotMeasured_initialises counts touch opened init free
    have ran := exec_slotEnd_next running before keeps.scans
    generalize slotMeasured s p sl counts = u at keeps shown ran
    exact ⟨_, ran, State.scan_setScan .., shown, keeps.regs, keeps.mem⟩
  case test =>
    intro m value s a accepts go check
    exact ⟨_, exec_selftest_taken accepts go check, testNoted_shows (taken s m a) (fget_lt value 1 0) a⟩
  case results =>
    intro counts right lower s busy p lim fl
    obtain ⟨only, flags⟩ := flagged_shows s p (fl := fl) (testFlags_lt _ _ _ _ _ _)
    obtain ⟨mem, keys, scan⟩ := only.parts p
    have port : p < 4 := fget_lt ..
    obtain ⟨done, states, told, keepsMem, keepsKeys, ownScan⟩ := testResults_show (flagged s p fl) port fl
    exact ⟨_, exec_selftestDone_busy busy, done, fun e key => (states e key).trans (flags e key), told, testFaulted_bit,
      keepsMem.trans mem, keepsKeys.trans keys, ownScan.trans (by rw [scan])⟩
  case parity =>
    intro p s
    obtain ⟨mem, own, others⟩ := senseParity_keeps s p
    exact ⟨senseParity s p, rfl, senseParity_bit s p, own, others, mem⟩

end Sys2Proof.Machine
end

section
/-!
SUPPORT. What a read of device memory, and a fetch from a buffer of an owner, can touch (R140, R343 to R351, R397 to
R402, R475).
-/
namespace Sys2Proof.Machine

/-! Reads of device memory touch no part of State but those of `StoreParts`. -/

theorem StoreParts.trans {s t u : State} (h : StoreParts s t) (k : StoreParts t u) : StoreParts s u := by
  unfold StoreParts at *
  rw [k, h]

theorem Wrote.storeParts {s t : State} (h : Wrote (fun _ => True) s t) : StoreParts s t := h.parts

theorem Rises.storeParts {s t : State} (h : Rises s t) : StoreParts s t := (Wrote.ofRises h).storeParts

theorem memCorrected_rises {s0 s : State} (a : Nat) (h : Rises s0 s) : Rises s0 (memCorrected s a) := by
  unfold memCorrected
  refine raiseFault_rises _ _ _ (raiseFault_rises _ _ _ (State.count_rises (by decide) (State.count_rises ?_ h)))
  simp only [pageBase, Reg.MEMCH_CE_COUNT, Reg.WORLD_HW_CTRL]
  omega

theorem applyFixes_storeParts (s : State) (fx : List (Nat × Nat)) : StoreParts s (applyFixes s fx) :=
  State.foldl_invariant (StoreParts s) _ fx s rfl fun x f h =>
    h.trans ((memSet_wrote x f.2 trivial).trans (setBad_wrote _ (memSet x f.1 f.2) f.1 false)).storeParts

theorem soundLine_storeParts (s : State) (line : Nat) : StoreParts s (soundLine s line).1 := by
  unfold soundLine
  extract_lets page ws
  split
  · rfl
  split
  · rfl
  split
  · split
    · exact (applyFixes_storeParts s _).trans (memCorrected_rises line (Rises.refl _)).storeParts
    · rfl
  · rfl

theorem mirrorTakes_storeParts (line : Nat) (r : State × Except Nat (List Nat)) :
    StoreParts r.1 (mirrorTakes line r).1 := by
  obtain ⟨s, b | b⟩ := r
  · rfl
  · have copied := ((memPut_wrote s line (b.map some) fun _ _ _ => trivial).trans
      (recodeEnter_wrote _ (memPut s line (b.map some)) (line / 4096))).storeParts
    exact copied.trans (raiseFault_rises _ _ _ (memCorrected_rises line (Rises.refl _))).storeParts

theorem channelRequest_storeParts (s : State) (a : Nat) : StoreParts s (channelRequest s a) :=
  (channelRequest_wrote _ s a).storeParts

theorem readMirror_storeParts (s : State) (line : Nat) : StoreParts s (readMirror s line).1 :=
  ((channelRequest_storeParts s _).trans (soundLine_storeParts _ _)).trans (mirrorTakes_storeParts line _)

theorem memError_storeParts (s : State) (agent : Nat) (sec write : Bool) (type a : Nat) :
    StoreParts s (memError s agent sec write type a) := (memError_rises agent sec write type a (Rises.refl s)).storeParts

theorem watermarkBlock_storeParts (s : State) (agent : Nat) (write : Bool) (a : Nat) :
    StoreParts s (watermarkBlock s agent write a) := (watermarkBlock_rises agent write a (Rises.refl s)).storeParts

theorem mirrorGives_storeParts (agent : Nat) (sec : Bool) (line : Nat) (r : State × Option (List Nat)) :
    StoreParts r.1 (mirrorGives agent sec line r).1 := by
  obtain ⟨s, _ | b⟩ := r
  · exact memError_storeParts s agent sec false 3 line
  · rfl

theorem primaryGives_storeParts (agent : Nat) (sec : Bool) (line : Nat) (fallback : Bool)
    (r : State × Except Nat (List Nat)) : StoreParts r.1 (primaryGives agent sec line fallback r).1 := by
  obtain ⟨s, type | b⟩ := r
  · unfold primaryGives
    dsimp only
    split
    · exact memError_storeParts s agent sec false type line
    · exact (readMirror_storeParts s line).trans (mirrorGives_storeParts agent sec line _)
  · rfl

theorem readPrimary_storeParts (s : State) (agent : Nat) (sec : Bool) (line : Nat) (fallback : Bool) :
    StoreParts s (readPrimary s agent sec line fallback).1 :=
  ((channelRequest_storeParts s line).trans (soundLine_storeParts _ line)).trans
    (primaryGives_storeParts agent sec line fallback _)

theorem readLine_storeParts (s : State) (agent : Nat) (sec : Bool) (line : Nat) :
    StoreParts s (readLine s agent sec line).1 := by
  unfold readLine
  split
  · split
    · exact watermarkBlock_storeParts s agent false line
    split
    · exact (raiseFault_rises .world 6 false (Rises.refl s)).storeParts
    · rfl
  split
  · exact memError_storeParts s agent sec false 6 line
  split
  · exact watermarkBlock_storeParts s agent false line
  split
  · dsimp only
    split
    · have mirror := readMirror_storeParts s line
      generalize readMirror s line = read at mirror ⊢
      obtain ⟨t, _ | b⟩ := read
      · exact mirror.trans (readPrimary_storeParts t agent sec line false)
      · exact mirror
    · exact readPrimary_storeParts s agent sec line _
  · exact readPrimary_storeParts s agent sec line false

theorem readLines_storeParts (s : State) (agent : Nat) (sec : Bool) (ls : List Nat) :
    StoreParts s (readLines s agent sec ls).1 := by
  induction ls generalizing s with
  | nil => rfl
  | cons l r ih =>
    have first := readLine_storeParts s agent sec l
    unfold readLines
    generalize readLine s agent sec l = read at first ⊢
    obtain ⟨t, e | b⟩ := read
    · exact first
    · have rest := first.trans (ih t)
      dsimp only
      generalize readLines t agent sec r = read at rest ⊢
      obtain ⟨u, e | bs⟩ := read
      · exact rest
      · exact rest

theorem busRead_storeParts (s : State) (agent : Nat) (sec : Bool) (a len : Nat) :
    StoreParts s (busRead s agent sec a len).1 := by
  have lines := readLines_storeParts s agent sec (linesOf a len)
  unfold busRead
  generalize readLines s agent sec (linesOf a len) = read at lines ⊢
  obtain ⟨t, e | b⟩ := read
  · exact lines
  · exact lines

/-! A fetch from an owner's buffer may beside these draw free values, and cache what it walks. -/

/-- t differs from s in nothing but free values drawn, the translations cached, and the parts of `StoreParts`. -/
def FetchParts (s t : State) : Prop := StoreParts { s with fresh := t.fresh, xlate := t.xlate } t

theorem FetchParts.trans {s t u : State} (h : FetchParts s t) (k : FetchParts t u) : FetchParts s u := by
  unfold FetchParts StoreParts at *
  rw [k, h]

theorem StoreParts.fetchParts {s t : State} (h : StoreParts s t) : FetchParts s t := by
  unfold FetchParts StoreParts at *
  rw [h]

theorem busRead_fetchParts (s : State) (agent : Nat) (sec : Bool) (a len : Nat) :
    FetchParts s (busRead s agent sec a len).1 := (busRead_storeParts s agent sec a len).fetchParts

theorem RegisterParts.fetchParts {s t : State} (h : RegisterParts s t) : FetchParts s t := by
  rw [h]
  rfl

theorem logLimited_fetchParts (s : State) (key interval : Nat) (k : LogKind) (place code addr : Nat) :
    FetchParts s (s.logLimited key interval k place code addr) := by
  rw [State.logLimited_only]
  rfl

theorem xlateFault_fetchParts (s : State) (q : XReq) (cause stage addr : Nat) :
    FetchParts s (xlateFault s q cause stage addr) := by
  unfold xlateFault
  extract_lets p x y z
  have counted : FetchParts s z := RegisterParts.fetchParts <|
    (((setPr_registerParts s p _ _).trans (setPair_registerParts x p _ _)).trans (event_registerParts _ p 2)).trans
      (count_registerParts y .xlate _)
  split
  · exact counted.trans (logLimited_fetchParts z ..)
  · exact counted

theorem s2Walk_fetchParts (s : State) (q : XReq) (ip n tab : Nat) : FetchParts s (s2Walk s q ip n tab).1 := by
  induction n generalizing s tab with
  | zero => rfl
  | succ k ih =>
    unfold s2Walk
    extract_lets level
    split
    · rfl
    have entry := busRead_fetchParts s q.agent q.sec (tab + 8 * tabIndex level ip) 8
    generalize busRead s q.agent q.sec (tab + 8 * tabIndex level ip) 8 = read at entry ⊢
    obtain ⟨t, e | b⟩ := read
    · exact entry
    dsimp only
    split
    · exact entry
    split
    · exact entry
    split
    · exact entry
    · exact entry.trans (ih t _)

/-- The end of stage 2 with the leaf that it found. -/
theorem leafCause_fetchParts (s : State) (q : XReq) (ip : Nat) (e : S2Ent) : FetchParts s
    (match leafCause s q e with
      | some c => (xlateFault s q c 1 ip, Except.error ())
      | none => (s, Except.ok (⟨e.out + (ip - e.ip), e.host, e.ns⟩ : XOut)) : State × Except Unit XOut).1 := by
  cases leafCause s q e with
  | some c => exact xlateFault_fetchParts s q c 1 ip
  | none => rfl

theorem stage2_fetchParts (s : State) (q : XReq) (ip : Nat) : FetchParts s (stage2 s q ip).1 := by
  unfold stage2
  split
  · split
    · exact xlateFault_fetchParts s q 4 1 ip
    · rfl
  dsimp only
  split
  next e _ => exact leafCause_fetchParts s q ip e
  split
  · exact xlateFault_fetchParts s q 6 1 ip
  have walk := (count_registerParts s .xlate Reg.XLATE_WALKS).fetchParts.trans
    (s2Walk_fetchParts _ q ip 4 (4096 * bits (s.pair (.func q.func) Reg.FUNC_S2_ROOT_LO) 47 12))
  generalize s2Walk (s.count .xlate Reg.XLATE_WALKS) q ip 4
    (4096 * bits (s.pair (.func q.func) Reg.FUNC_S2_ROOT_LO) 47 12) = walked at walk ⊢
  obtain ⟨t, c | e⟩ := walked
  · exact walk.trans (xlateFault_fetchParts t q c 1 ip)
  · have cached : FetchParts t { t with xlate := { t.xlate with s2 := t.xlate.s2 ++ [e] } } := rfl
    exact (walk.trans cached).trans (leafCause_fetchParts _ q ip e)

theorem readVia_fetchParts (tr : State → Nat → State × Except Unit XOut) (agent : Nat) (sec : Bool)
    (translates : ∀ s a, FetchParts s (tr s a).1) (l : List (Nat × Nat)) (s : State) :
    FetchParts s (readVia tr agent sec l s).1 := by
  induction l generalizing s with
  | nil => rfl
  | cons piece r ih =>
    obtain ⟨a, len⟩ := piece
    unfold readVia
    have translated := translates s a
    generalize tr s a = read at translated ⊢
    obtain ⟨t, e | o⟩ := read
    · exact translated
    dsimp only
    have bytes : FetchParts s (if o.host = true then
        let (s, b) := hostBytes t len
        (s, Except.ok b)
      else busRead t agent sec o.addr len : State × Except AccErr (List Nat)).1 := by
      split
      · exact translated.trans rfl
      · exact translated.trans (busRead_fetchParts t agent sec o.addr len)
    generalize (if o.host = true then _ else _ : State × Except AccErr (List Nat)) = x at bytes ⊢
    obtain ⟨u, e | b⟩ := x
    · exact bytes
    have rest := bytes.trans (ih u)
    dsimp only
    generalize readVia tr agent sec r u = read at rest ⊢
    obtain ⟨v, e | bs⟩ := read
    · exact rest
    · exact rest

theorem ownerRead_fetchParts (s : State) (code agent : Nat) (sec : Bool) (a len : Nat) :
    FetchParts s (ownerRead s code agent sec a len).1 := by
  unfold ownerRead
  split
  · exact readVia_fetchParts _ agent sec (fun s x => stage2_fetchParts s _ x) (pieces a len) s
  · exact busRead_fetchParts s agent sec a len

end Sys2Proof.Machine
end

section
/-!
PROOF. The mixer and its streams (R473, R475 to R477).
-/
namespace Sys2Proof.Machine

/-! A sample boundary leaves the keys and the configuration, and the boundary number until it rises (R473). -/

/-- t has of s what no part of a sample boundary touches but its last: the boundary number, the keys and the
configuration in force. -/
structure BoundaryKeeps (s t : State) : Prop where
  number : t.audio.n = s.audio.n
  keys : t.keys = s.keys
  cfg : t.cfg = s.cfg

theorem BoundaryKeeps.refl (s : State) : BoundaryKeeps s s := ⟨rfl, rfl, rfl⟩

theorem BoundaryKeeps.trans {s t u : State} (h : BoundaryKeeps s t) (k : BoundaryKeeps t u) : BoundaryKeeps s u :=
  ⟨k.number.trans h.number, k.keys.trans h.keys, k.cfg.trans h.cfg⟩

theorem BoundaryKeeps.foldl {β : Type} {f : State → β → State} (l : List β) (s : State)
    (each : ∀ x b, BoundaryKeeps x (f x b)) : BoundaryKeeps s (l.foldl f s) :=
  State.foldl_invariant (BoundaryKeeps s) f l s (.refl s) fun x b h => h.trans (each x b)

theorem Rises.boundaryKeeps {s t : State} (h : Rises s t) : BoundaryKeeps s t :=
  ⟨congrArg AudioSt.n h.keeps.audio, h.keeps.keys, h.keeps.cfg⟩

theorem FetchParts.boundaryKeeps {s t : State} (h : FetchParts s t) : BoundaryKeeps s t := by
  rw [FetchParts, StoreParts] at h
  rw [h]
  exact ⟨rfl, rfl, rfl⟩

section
variable {s t : State} (h : BoundaryKeeps s t)
include h

/-- An update of the mixer's own state that leaves the boundary number. -/
theorem BoundaryKeeps.setAudio {a : AudioSt} (same : a.n = t.audio.n := by rfl) : BoundaryKeeps s (t.setAudio a) :=
  ⟨same.trans h.number, h.keys, h.cfg⟩

theorem BoundaryKeeps.setStream {k : Nat} {x : StreamSt} : BoundaryKeeps s (t.setStream k x) := h.setAudio

theorem BoundaryKeeps.setReg {a : Nat} {v : Word} : BoundaryKeeps s (t.setReg a v) := ⟨h.number, h.keys, h.cfg⟩

theorem BoundaryKeeps.setPr {p : Page} {o : Nat} {v : Word} : BoundaryKeeps s (t.setPr p o v) := h.setReg

theorem BoundaryKeeps.setPf {p : Page} {o hi lo v : Nat} : BoundaryKeeps s (t.setPf p o hi lo v) := h.setReg

theorem BoundaryKeeps.setHd {p : Page} {r : Hdr} {v : Word} : BoundaryKeeps s (t.setHd p r v) := h.setReg

theorem BoundaryKeeps.setPair {p : Page} {o v : Nat} : BoundaryKeeps s (t.setPair p o v) := h.setPr.setPr

theorem BoundaryKeeps.count {p : Page} {o : Nat} : BoundaryKeeps s (t.count p o) := h.setReg

theorem BoundaryKeeps.hwBits {a mask : Nat} : BoundaryKeeps s (t.hwBits a mask) := ⟨h.number, h.keys, h.cfg⟩

theorem BoundaryKeeps.event {p : Page} {k : Nat} : BoundaryKeeps s (t.event p k) := h.hwBits

theorem BoundaryKeeps.setPend {p : Page} {x : Option PendStage} : BoundaryKeeps s (t.setPend p x) :=
  ⟨h.number, h.keys, h.cfg⟩

theorem BoundaryKeeps.setCvu {u : Nat} {x : CvuSt} : BoundaryKeeps s (t.setCvu u x) := ⟨h.number, h.keys, h.cfg⟩

theorem BoundaryKeeps.withB4 {x : B4St} : BoundaryKeeps s { t with b4 := x } := ⟨h.number, h.keys, h.cfg⟩

theorem BoundaryKeeps.b4Isr {mask : Nat} : BoundaryKeeps s (b4Isr t mask) := ⟨h.number, h.keys, h.cfg⟩

theorem BoundaryKeeps.raiseFault {p : Page} {b : Nat} : BoundaryKeeps s (raiseFault t p b) :=
  h.trans (raiseFault_rises p b false (Rises.refl t)).boundaryKeeps

end

theorem bankSwap_boundaryKeeps (s : State) (ramp : Bool) : BoundaryKeeps s (bankSwap s ramp) := by
  unfold bankSwap
  extract_lets k n u news a v
  have swapped : BoundaryKeeps s v := by
    unfold v
    split
    · exact (BoundaryKeeps.refl s).setPf.setAudio
    · exact (BoundaryKeeps.refl s).setPf.setAudio
  exact swapped.event

theorem audioCommit_boundaryKeeps (s : State) (ramp : Bool) : BoundaryKeeps s (audioCommit s ramp) := by
  unfold audioCommit
  split
  · exact .refl s
  · exact (BoundaryKeeps.refl s).setPend.setHd.trans (bankSwap_boundaryKeeps _ ramp)

theorem rampStep_boundaryKeeps (s : State) : BoundaryKeeps s (rampStep s) := (BoundaryKeeps.refl s).setAudio

theorem beepBoundary_boundaryKeeps (s : State) : BoundaryKeeps s (beepBoundary s) := by
  unfold beepBoundary
  split
  · exact .refl s
  split
  · exact (BoundaryKeeps.refl s).withB4.setPf.setAudio
  split
  · split
    · exact (BoundaryKeeps.refl s).withB4.setPf.withB4.b4Isr
    · exact (BoundaryKeeps.refl s).withB4
  · exact .refl s

theorem fetchSource1_boundaryKeeps (s : State) (k : Nat) : BoundaryKeeps s (fetchSource1 s k) := by
  have fetch := (ownerRead_fetchParts s (streamOwner s k) 0x0E (streamOwner s k == 0x40)
    ((srcBase s k + 4 * srcRd s k) / 64 * 64) 64).boundaryKeeps
  unfold fetchSource1
  dsimp only
  generalize ownerRead s (streamOwner s k) 0x0E (streamOwner s k == 0x40) ((srcBase s k + 4 * srcRd s k) / 64 * 64) 64
    = read at fetch ⊢
  obtain ⟨t, e | b⟩ := read
  · cases e with
    | translation => exact fetch.count.raiseFault.setStream.setPf
    | watermark => exact fetch.count.raiseFault.setStream
    | uncorrectable => exact fetch.count.raiseFault.setStream
  · exact fetch.setStream

theorem streamSample_boundaryKeeps (s : State) (k : Nat) : BoundaryKeeps s (streamSample s k).1 := by
  unfold streamSample
  split
  · exact .refl s
  dsimp only
  split
  · exact (BoundaryKeeps.refl s).setStream.count.hwBits.event
  · have line : BoundaryKeeps s (if lineServes s k = true then s else fetchSource1 s k) := by
      split
      · exact .refl s
      · exact fetchSource1_boundaryKeeps s k
    exact line.setStream.setPf

theorem toneSample_boundaryKeeps (s : State) (i : Nat) : BoundaryKeeps s (toneSample s i).1 :=
  BoundaryKeeps.setPf (BoundaryKeeps.setAudio (.refl s))

theorem collect_boundaryKeeps {f : State → Nat → State × Int} (each : ∀ s i, BoundaryKeeps s (f s i).1) (s : State)
    (n : Nat) : BoundaryKeeps s (collect f s n).1 := by
  induction n with
  | zero => exact .refl s
  | succ n ih =>
    rw [collect, List.range_succ, List.foldl_append]
    exact ih.trans (each _ n)

theorem meter_boundaryKeeps (s : State) (key oPeak m : Nat) : BoundaryKeeps s (meter s key oPeak m) :=
  BoundaryKeeps.setPr (BoundaryKeeps.setPr (BoundaryKeeps.setAudio (.refl s)))

theorem sinkStep_boundaryKeeps (s : State) (j : Nat) (x : Int) : BoundaryKeeps s (sinkStep s j x).1 := by
  unfold sinkStep
  dsimp only
  split
  · exact (BoundaryKeeps.refl s).setAudio.count.event
  · exact (BoundaryKeeps.refl s).setAudio

theorem cvuLatch_boundaryKeeps (s : State) (u seq : Nat) (skipped : Bool) :
    BoundaryKeeps s (cvuLatch s u seq skipped) := by
  unfold cvuLatch
  extract_lets p c res ea bad st results stamped told unread latched
  have shown : BoundaryKeeps s told := (BoundaryKeeps.refl s).setPr.setPr.setPr.setPair.event
  have noted : BoundaryKeeps s unread := by
    unfold unread
    split
    · exact shown.event
    · exact shown
  split
  · exact noted.setCvu.raiseFault
  · exact noted.setCvu

theorem cvuSample_boundaryKeeps (s : State) (sink : Nat) (y : Int) : BoundaryKeeps s (cvuSample s sink y) :=
  BoundaryKeeps.foldl _ s fun x u => by
    have packed (c : CvuSt) : BoundaryKeeps x ((cvuPack x u [toField y 32] false).setCvu u c) :=
      (BoundaryKeeps.refl x).setCvu.setCvu
    dsimp only
    split
    · split
      · exact (packed _).trans (cvuLatch_boundaryKeeps _ u _ false)
      · exact packed _
    · exact .refl x

theorem runSinks_boundaryKeeps (s : State) (xs : List Int) : BoundaryKeeps s (runSinks s xs) :=
  BoundaryKeeps.foldl _ s fun x j =>
    ((sinkStep_boundaryKeeps x j (xs.getD j 0)).trans (meter_boundaryKeeps _ _ _ _)).trans
      (cvuSample_boundaryKeeps _ j _)

theorem ampStatic_boundaryKeeps (s : State) (p : Nat) : BoundaryKeeps s (ampStatic s p) := by
  rw [ampStatic_only]
  exact ⟨rfl, rfl, rfl⟩

theorem ampBoundary_boundaryKeeps (s : State) (xs : List Int) (p : Nat) : BoundaryKeeps s (ampBoundary s xs p) := by
  unfold ampBoundary
  extract_lets c o quiet n a t
  have noted : BoundaryKeeps s t := (BoundaryKeeps.refl s).setAudio
  split
  · exact noted.trans (ampStatic_boundaryKeeps t p)
  split
  · exact noted.setPf
  split
  · exact noted.setPf
  · exact noted

/-- A boundary ends with its number, and SAMPLE_COUNT, one higher. -/
theorem sampleOp_counts (s : State) (din : List (BitVec 32)) : ∃ t, BoundaryKeeps s t ∧
    sampleOp s din = (t.setAudio { t.audio with n := t.audio.n + 1 }).count .audio Reg.AUDIO_SAMPLE_COUNT := by
  have started := ((audioCommit_boundaryKeeps s true).trans (rampStep_boundaryKeeps _)).trans
    (beepBoundary_boundaryKeeps _)
  have streams := started.trans (collect_boundaryKeeps streamSample_boundaryKeeps _ 48)
  unfold sampleOp
  dsimp only
  generalize collect streamSample (beepBoundary (rampStep (audioCommit s true))) 48 = x at streams ⊢
  have tones := streams.trans (collect_boundaryKeeps toneSample_boundaryKeeps _ 8)
  generalize collect toneSample x.1 8 = y at tones ⊢
  have metered (f : State → Nat → State) (each : ∀ x b, BoundaryKeeps x (f x b)) :=
    tones.trans (BoundaryKeeps.foldl (List.range 32) y.1 each)
  exact ⟨_, ((metered _ fun x b => meter_boundaryKeeps x b _ _).trans (runSinks_boundaryKeeps _ _)).trans
    (BoundaryKeeps.foldl _ _ fun x p => ampBoundary_boundaryKeeps x _ p), rfl⟩

theorem exec_sampleBoundary_live {din : List (BitVec 32)} {s : State} (on : s.enabled .audio = true)
    (live : s.mode.mode ≠ .held) (served : loadIsShed s = false) :
    exec (.sampleBoundary din) s = .next (sampleOp s din) := by
  change execSampleBoundary din s = _
  simp [execSampleBoundary, on, live, served]

/-! Streams and their registers (R475). -/

@[simp] theorem State.stream_setStream (s : State) (k : Nat) (x : StreamSt) : (s.setStream k x).stream k = x :=
  aget_aset ..

theorem State.stream_setStream_ne (s : State) {k j : Nat} (x : StreamSt) (other : j ≠ k) :
    (s.setStream k x).stream j = s.stream j := aget_aset_ne _ _ _ _ other

/-- The address of SRC_BASE_LO of stream k; SRC_BASE_HI and SRC_PTR follow it. -/
def srcAt (k : Nat) : Nat := pageBase .audio + (Reg.AUDIO_SRC_BASE_LO + 16 * k)

theorem srcAt_eq (k : Nat) : srcAt k = 0x3F0500 + 16 * k := by
  simp only [srcAt, pageBase, Reg.AUDIO_SRC_BASE_LO]
  omega

theorem srcAt_high (k : Nat) : pageBase .audio + (Reg.AUDIO_SRC_BASE_HI + 16 * k) = srcAt k + 4 := by
  simp only [srcAt, Reg.AUDIO_SRC_BASE_HI, Reg.AUDIO_SRC_BASE_LO]
  omega

theorem srcHigh_eq (k : Nat) : pageBase .audio + Reg.AUDIO_SRC_BASE_HI + 16 * k = srcAt k + 4 :=
  (Nat.add_assoc ..).trans (srcAt_high k)

theorem srcAt_ptr (k : Nat) : pageBase .audio + (Reg.AUDIO_SRC_PTR + 16 * k) = srcAt k + 8 := by
  simp only [srcAt, Reg.AUDIO_SRC_PTR, Reg.AUDIO_SRC_BASE_LO]
  omega

theorem srcEn_eq (s : State) (k : Nat) : srcEn s k = fbit (s.reg (srcAt k)) 0 := by
  change (fget (s.reg (srcAt k)) 0 0 == 1) = _
  rw [fget_bit]
  cases fbit (s.reg (srcAt k)) 0 <;> rfl

theorem srcBase_eq (s : State) (k : Nat) :
    srcBase s k = fget (s.reg (srcAt k)) 31 6 * 64 + 2 ^ 32 * fget (s.reg (srcAt k + 4)) 15 0 := by
  rw [← srcAt_high]
  rfl

theorem srcSize_eq (s : State) (k : Nat) : srcSize s k = 2 ^ fget (s.reg (srcAt k + 4)) 19 16 := by
  rw [← srcAt_high]
  rfl

theorem srcRd_eq (s : State) (k : Nat) : srcRd s k = fget (s.reg (srcAt k + 8)) 31 16 := by
  rw [← srcAt_ptr]
  rfl

theorem srcWr_eq (s : State) (k : Nat) : srcWr s k = fget (s.reg (srcAt k + 8)) 15 0 := by
  rw [← srcAt_ptr]
  rfl

theorem srcWr_lt (s : State) (k : Nat) : srcWr s k < 2 ^ 16 := fget_lt _ 15 0

/-! The fetch of a line (R476). -/

/-- The line of stream k is held with the WR it was fetched under. -/
theorem fetchSource1_keeps {s t : State} {k : Nat} {b : List Nat}
    (read : ownerRead s (streamOwner s k) 0x0E (streamOwner s k == 0x40) ((srcBase s k + 4 * srcRd s k) / 64 * 64) 64 =
      (t, .ok b)) :
    fetchSource1 s k = t.setStream k { t.stream k with
      line := some ((srcBase s k + 4 * srcRd s k) / 64 * 64, srcWr t k,
        some ((List.range 16).map (fun i => ofLeBytes ((b.drop (4 * i)).take 4)))) } := by
  simp only [fetchSource1, read]

theorem exec_sourceFetch_fetches {k : Fin 48} {s : State} (stream : srcEn s k = true) (on : s.enabled .audio = true)
    (mode : s.mode.mode ≠ .safe) (below : srcRd s k ≠ srcWr s k) (needed : lineServes s k = false) :
    exec (.sourceFetch k) s = .next (fetchSource1 s k) := by
  change execSourceFetch k s = _
  simp [execSourceFetch, stream, on, mode, below, needed]

/-! A stream is enabled (R475, R477). -/

/-- The low word of stream k: as the master has staged it, else as it stands. -/
def srcLow (s : State) (m : Master) (k : Nat) : Word :=
  ((s.staged m (srcAt k) (srcAt k)).find? (fun w => w.1 == srcAt k)).elim (s.reg (srcAt k)) (·.2)

/-- The pair of stream k in force. -/
def srcApplied (s : State) (m : Master) (k : Nat) (value : Word) : State :=
  ((s.unstage m (srcAt k)).setReg (srcAt k) (srcLow s m k &&& 0xFFFFFFC1)).setReg (srcAt k + 4) (value &&& 0xFFFFF)

/-- The pair of stream k in force, with nothing left to read. -/
def srcStarted (s : State) (m : Master) (k : Nat) (value : Word) : State :=
  ((srcApplied s m k value).setPf .audio (Reg.AUDIO_SRC_PTR + 16 * k) 31 16 (srcWr s k)).setStream k
    { wrPrev := srcWr s k }

/-- A field whose bits a mask leaves reads as before. -/
theorem fget_and_of_ones (w : Word) {mask : Word} {hi lo : Nat} (ones : fget mask hi lo = 2 ^ (hi + 1 - lo) - 1) :
    fget (w &&& mask) hi lo = fget w hi lo := by
  apply Nat.eq_of_testBit_eq
  intro i
  have bit := congrArg (Nat.testBit · i) ones
  simp only [fget, bits_testBit, Nat.testBit_two_pow_sub_one] at bit
  rw [fget, fget, bits_testBit, bits_testBit, BitVec.toNat_and, Nat.testBit_and]
  by_cases inside : i < hi + 1 - lo
  · simp_all
  · simp [inside]

theorem srcApplied_reg (s : State) (m : Master) (k : Nat) (value : Word) (b : Nat) :
    (srcApplied s m k value).reg b = if b = srcAt k + 4 then value &&& 0xFFFFF
      else if b = srcAt k then srcLow s m k &&& 0xFFFFFFC1 else s.reg b := by
  simp only [srcApplied, State.reg_setReg, State.unstage_reg]

theorem srcApplied_en {s : State} {m : Master} {k : Nat} (value : Word) (on : fbit (srcLow s m k) 0 = true) :
    srcEn (srcApplied s m k value) k = true := by
  change (fget ((srcApplied s m k value).reg (srcAt k)) 0 0 == 1) = true
  rw [srcApplied_reg, if_neg (by omega), if_pos rfl, fget_and_of_ones _ (by decide), fget_bit, on]
  rfl

theorem srcApplied_wr (s : State) (m : Master) (k : Nat) (value : Word) :
    srcWr (srcApplied s m k value) k = srcWr s k := by
  rw [srcWr_eq, srcApplied_reg, if_neg (by omega), if_neg (by omega), ← srcWr_eq]

theorem srcStarted_reg (s : State) (m : Master) (k : Nat) (value : Word) (b : Nat) :
    (srcStarted s m k value).reg b = if b = srcAt k + 8 then fset (s.reg (srcAt k + 8)) 31 16 (srcWr s k)
      else (srcApplied s m k value).reg b := by
  have ptr : (srcApplied s m k value).reg (srcAt k + 8) = s.reg (srcAt k + 8) := by
    rw [srcApplied_reg, if_neg (by omega), if_neg (by omega)]
  rw [srcStarted, State.setStream, State.setAudio_reg, State.reg_setPf, srcAt_ptr, ptr]

/-- A stream whose EN is set reads its new pair, with RD equal to WR. -/
theorem srcStarted_shows {s : State} {m : Master} {k : Nat} (value : Word) (on : fbit (srcLow s m k) 0 = true) :
    let t := srcStarted s m k value
    srcEn t k = true ∧ srcSize t k = 2 ^ fget value 19 16 ∧
      srcBase t k = fget (srcLow s m k) 31 6 * 64 + 2 ^ 32 * fget value 15 0 ∧ srcRd t k = srcWr t k ∧
      srcWr t k = srcWr s k := by
  intro t
  have low : t.reg (srcAt k) = srcLow s m k &&& 0xFFFFFFC1 := by
    rw [srcStarted_reg, if_neg (by omega), srcApplied_reg, if_neg (by omega), if_pos rfl]
  have high : t.reg (srcAt k + 4) = value &&& 0xFFFFF := by
    rw [srcStarted_reg, if_neg (by omega), srcApplied_reg, if_pos rfl]
  have ptr : t.reg (srcAt k + 8) = fset (s.reg (srcAt k + 8)) 31 16 (srcWr s k) := by
    rw [srcStarted_reg, if_pos rfl]
  have wr : srcWr t k = srcWr s k := by
    rw [srcWr_eq, ptr, fget_fset_other _ _ (by decide) (by decide) (by decide), ← srcWr_eq]
  refine ⟨?_, ?_, ?_, ?_, wr⟩
  · have same : t.reg (srcAt k) = (srcApplied s m k value).reg (srcAt k) := by rw [srcStarted_reg, if_neg (by omega)]
    rw [srcEn_eq, same, ← srcEn_eq]
    exact srcApplied_en value on
  · rw [srcSize_eq, high, fget_and_of_ones _ (by decide)]
  · rw [srcBase_eq, low, high, fget_and_of_ones _ (by decide), fget_and_of_ones _ (by decide)]
  · rw [wr, srcRd_eq, ptr, fget_fset _ _ (by decide) (by decide)]
    exact Nat.mod_eq_of_lt (srcWr_lt s k)

theorem srcStarted_regsBut (s : State) (m : Master) (k : Nat) (value : Word) :
    RegsBut s (srcStarted s m k value) [srcAt k, srcAt k + 4, srcAt k + 8] := by
  intro b apart
  simp only [List.mem_cons, List.not_mem_nil, or_false, not_or] at apart
  simp only [srcStarted_reg, srcApplied_reg, apart, if_false]

theorem srcStarted_wrPrev (s : State) (m : Master) (k : Nat) (value : Word) :
    ((srcStarted s m k value).stream k).wrPrev = srcWr s k := by
  rw [srcStarted, State.stream_setStream]

theorem srcStarted_mem (s : State) (m : Master) (k : Nat) (value : Word) : (srcStarted s m k value).mem = s.mem := by
  simp [srcStarted, srcApplied, State.setStream]

/-- EN set on a stream that was off makes RD equal WR. -/
theorem srcEnableOp_starts {s : State} {m : Master} {k : Nat} (value : Word) (off : srcEn s k = false)
    (on : fbit (srcLow s m k) 0 = true) : srcEnableOp s m k value = srcStarted s m k value := by
  have low : pageBase .audio + Reg.AUDIO_SRC_BASE_LO + 16 * k = srcAt k := Nat.add_assoc ..
  rw [srcEnableOp, low]
  change (if (srcEn (srcApplied s m k value) k && !srcEn s k) = true then
    ((srcApplied s m k value).setPf .audio (Reg.AUDIO_SRC_PTR + 16 * k) 31 16 (srcWr (srcApplied s m k value) k)).setStream
      k { wrPrev := srcWr (srcApplied s m k value) k } else srcApplied s m k value) = _
  rw [srcApplied_en value on, off, srcApplied_wr]
  rfl

theorem srcEnableCheck_passes {s : State} {k : Nat} {value : Word} (m : Master) (off : srcEn s k = false)
    (size : 8 ≤ fget value 19 16) : srcEnableCheck s m k value = none := by
  have fits : fget value 19 16 < 16 := fget_lt ..
  simp [srcEnableCheck, off, show ¬ fget value 19 16 < 8 by omega, show ¬ 15 < fget value 19 16 by omega]

theorem exec_srcEnable_starts {m : Master} {k : Fin 48} {value : Word} {s : State}
    (accepts : Accepts s m (srcAt k + 4)) (off : srcEn (taken s m (srcAt k + 4)) k = false)
    (on : fbit (srcLow (taken s m (srcAt k + 4)) m k) 0 = true) (size : 8 ≤ fget value 19 16) :
    exec (.srcEnable m k value) s =
      .next ((srcStarted (taken s m (srcAt k + 4)) m k value).noteWrite (srcAt k + 4)) := by
  change execSrcEnable m k value s = _
  rw [execSrcEnable, srcHigh_eq, writeReg_taken accepts (srcEnableCheck_passes m off size), srcEnableOp_starts value off on]

/-! The mixer is enabled (R473, R486). -/

/-- ENABLE set, and SAMPLE_COUNT at 0. -/
def mixerRegs (s : State) : State := (s.setHf .audio .ctrl 0 0 1).setPr .audio Reg.AUDIO_SAMPLE_COUNT 0

/-- The mixer enabled, with its counts at 0. -/
def mixerOn (s : State) : State :=
  (mixerRegs s).setAudio { (mixerRegs s).audio with n := 0, sinks := [], silent := [] }

/-- WR of stream k is taken as read. -/
def wrSeen (s : State) (k : Nat) : State := s.setStream k { s.stream k with wrPrev := srcWr s k }

theorem mixerOn_regsBut (s : State) :
    RegsBut s (mixerOn s) [hadr .audio .ctrl, pageBase .audio + Reg.AUDIO_SAMPLE_COUNT] := by
  have regs : RegsBut s (mixerRegs s) [hadr .audio .ctrl, pageBase .audio + Reg.AUDIO_SAMPLE_COUNT] :=
    RegsBut.trans (setHf_regsBut (.head _)) (setPr_regsBut (.tail _ (.head _)))
  exact fun a apart => (State.setAudio_reg ..).trans (regs a apart)

theorem mixerOn_mem (s : State) : (mixerOn s).mem = s.mem := by simp [mixerOn, mixerRegs]

theorem mixerOn_enabled (s : State) : (mixerOn s).enabled .audio = true := by
  have apart : hadr .audio .ctrl ≠ pageBase .audio + Reg.AUDIO_SAMPLE_COUNT := by decide
  have ctrl : (mixerRegs s).hd .audio .ctrl = fset (s.hd .audio .ctrl) 0 0 1 :=
    ((State.reg_setPr ..).trans (if_neg apart)).trans (State.hd_setHf s .audio .ctrl 0 0 1)
  change fbit ((mixerRegs s).hd .audio .ctrl) 0 = true
  rw [ctrl, fbit_fset _ _ _ (by decide) (by decide)]
  rfl

theorem mixerOn_sampleCount (s : State) : (mixerOn s).pr .audio Reg.AUDIO_SAMPLE_COUNT = 0 :=
  (State.setAudio_reg ..).trans (State.pr_setPr ..)

theorem mixerOn_wr (s : State) (k : Nat) : srcWr (mixerOn s) k = srcWr s k := by
  refine (mixerOn_regsBut s).pf ?_ 15 0
  have count : pageBase .audio + Reg.AUDIO_SAMPLE_COUNT = 0x3F0108 := rfl
  have ctrl : hadr .audio .ctrl < 0x3F0100 := by decide
  rw [srcAt_ptr, srcAt_eq, count, List.mem_cons, List.mem_singleton]
  omega

theorem audioEnableOp_of_off {s : State} (off : s.enabled .audio = false) :
    audioEnableOp s = (List.range 48).foldl wrSeen (mixerOn s) := by
  rw [audioEnableOp, off]
  rfl

/-- Taking each WR as read changes the streams alone, and each stream's notes its WR. -/
theorem wrsSeen_show (s : State) (n : Nat) :
    let t := (List.range n).foldl wrSeen s
    t = { s with audio := { s.audio with streams := t.audio.streams } } ∧ ∀ k < n, (t.stream k).wrPrev = srcWr s k := by
  refine foldl_range_each (I := fun t => t = { s with audio := { s.audio with streams := t.audio.streams } })
    (Q := fun k t => (t.stream k).wrPrev = srcWr s k) rfl (fun t k _ only => ?_) fun t k _ d before _ seen => ?_
  · have same : srcWr t k = srcWr s k := by
      rw [only]
      rfl
    refine ⟨?_, ?_⟩
    · rw [wrSeen, only]
      rfl
    · rw [wrSeen, State.stream_setStream, same]
  · rw [wrSeen, State.stream_setStream_ne _ _ (by omega), seen]

theorem exec_audioEnable_starts {m : Master} {s : State} (accepts : Accepts s m (hadr .audio .ctrl))
    (idle : (taken s m (hadr .audio .ctrl)).busy .audio = false)
    (off : (taken s m (hadr .audio .ctrl)).enabled .audio = false) :
    exec (.audioEnable m) s = .next
      (((List.range 48).foldl wrSeen (mixerOn (taken s m (hadr .audio .ctrl)))).noteWrite (hadr .audio .ctrl)) := by
  have ran := writeReg_taken (check := fun s => enableCheck s .audio) (op := audioEnableOp) accepts
    (by simp [enableCheck, idle])
  rw [audioEnableOp_of_off off] at ran
  exact congrArg Host.Outcome.next ran

/-- Settles O47: `mixerOn` and the streams' WR are what the enable leaves, `srcStarted` what a stream's enable leaves,
`fetchSource1` keeps the line, and `sampleOp` ends with the count. -/
theorem audioStreams : Obligations.AudioStreams := by
  refine ⟨?enable, ?stream, ?fetch, ?boundary⟩
  case enable =>
    intro m s a accepts idle off
    obtain ⟨only, seen⟩ := wrsSeen_show (mixerOn (taken s m a)) 48
    refine ⟨_, exec_audioEnable_starts accepts idle off, ?_⟩
    generalize (List.range 48).foldl wrSeen (mixerOn (taken s m a)) = t at only seen ⊢
    have regs (b : Nat) : t.reg b = (mixerOn (taken s m a)).reg b := by
      rw [only]
      rfl
    refine ⟨?_, ?_, ?_, ?_, fun k stream => (seen k stream).trans (mixerOn_wr _ k), fun b apart => ?_, ?_⟩
    · exact (congrArg (fbit · 0) (regs _)).trans (mixerOn_enabled _)
    · exact congrArg (fun u => u.audio.n) only
    · exact congrArg (fun u => u.audio.sinks) only
    · exact (regs _).trans (mixerOn_sampleCount _)
    · exact (regs b).trans (mixerOn_regsBut _ b apart)
    · exact (congrArg (fun u => u.mem) only).trans (mixerOn_mem _)
  case stream =>
    intro m k value s a lo accepts off on size
    have high : a = srcAt k + 4 := srcHigh_eq k
    have low : a - 4 = srcAt k := by rw [high, Nat.add_sub_cancel]
    have staged : lo = srcLow (taken s m a) m k := by
      simp only [lo, low]
      rfl
    clear_value lo a
    subst high staged
    rw [low]
    have ran := exec_srcEnable_starts accepts off on size
    obtain ⟨enabled, sized, based, rd, wr⟩ := srcStarted_shows value on
    have seen := srcStarted_wrPrev (taken s m (srcAt k + 4)) m k value
    have regs := srcStarted_regsBut (taken s m (srcAt k + 4)) m k value
    have mem := srcStarted_mem (taken s m (srcAt k + 4)) m k value
    generalize srcStarted (taken s m (srcAt k + 4)) m k value = t at ran enabled sized based rd wr seen regs mem
    exact ⟨_, ran, enabled, sized, based, rd, wr, seen, noteWrite_regsBut regs, mem⟩
  case fetch =>
    intro k s t b stream on mode below needed read
    refine ⟨_, exec_sourceFetch_fetches stream on mode below needed, ?_⟩
    rw [fetchSource1_keeps read]
    exact ⟨rfl, by rw [State.stream_setStream], fun j other => State.stream_setStream_ne _ _ other⟩
  case boundary =>
    intro din s on live served
    obtain ⟨t, keeps, counted⟩ := sampleOp_counts s din
    have pending := (sampleOp_kept din (Kept.refl s)).pending
    refine ⟨_, exec_sampleBoundary_live on live served, ?_, pending, ?_, ?_⟩
    · rw [counted, State.count_audio]
      exact congrArg (· + 1) keeps.number
    · rw [counted, State.count_keys, State.setAudio_keys, keeps.keys]
    · rw [counted, State.count_cfg, State.setAudio_cfg, keeps.cfg]

end Sys2Proof.Machine
end

section
/-!
PROOF. SAFE_REQUEST (R505): who may write it, what its write sets, the way into Safe (R503, R509), and what it reads.
-/
namespace Sys2Proof.Machine

/-! Nothing that stops in Safe changes the mode again (R503, R509). -/

theorem invalidateRun_mode (s : State) (n r code : Nat) : (invalidateRun s n r code).mode = s.mode := by
  unfold invalidateRun
  split <;> simp

theorem invalidateWhere_mode (s : State) (n code : Nat) (p : Run → Bool) :
    (invalidateWhere s n code p).mode = s.mode :=
  State.foldl_invariant (fun t => t.mode = s.mode) _ _ s rfl fun t r h =>
    (invalidateRun_mode t n r.idx code).trans h

theorem dropStage_mode (s : State) (p : Page) (reject : Nat) : (dropStage s p reject).mode = s.mode := by
  unfold dropStage
  split <;> rfl

theorem safeStops_mode (s : State) : (safeStops s).mode = s.mode := by
  unfold safeStops
  extract_lets dropped invalidated stopped unscheduled idle
  have drop : dropped.mode = s.mode := State.foldl_invariant (fun t => t.mode = s.mode) _ _ s rfl fun t p h => by
    split
    · exact h
    · exact (dropStage_mode t p 8).trans h
  have invalidate : invalidated.mode = s.mode := State.foldl_invariant (fun t => t.mode = s.mode) _ _ dropped drop
    fun t n h => (invalidateWhere_mode t n 9 _).trans h
  have stop : stopped.mode = s.mode :=
    State.foldl_invariant (fun t => t.mode = s.mode) hapStop _ invalidated invalidate fun _ _ h => h
  clear_value stopped
  exact stop

theorem holdHeartwood_mode (s : State) : (holdHeartwood s).mode = s.mode :=
  State.foldl_invariant (fun t => t.mode = s.mode) _ _ s rfl fun t c h => by
    dsimp only
    split <;> exact h

theorem setMode_mode (s : State) (m : Mode) : (setMode s m).mode.mode = m := by
  rw [setMode, State.logAdd_mode, State.event_mode]

/-- A cause of Safe outside Held leaves the device in Safe. -/
theorem enterSafe_mode {s : State} (hw : Bool) (p : Page) (b sev : Nat) (atFault : Bool) (live : s.mode.mode ≠ .held)
    (first : s.mode.mode ≠ .safe) : (enterSafe s hw p b sev atFault).mode.mode = .safe := by
  unfold enterSafe
  dsimp only
  split
  next held => exact absurd held live
  next safe => exact absurd safe first
  next =>
    split
    · rw [holdHeartwood_mode, safeStops_mode, setMode_mode]
    · rw [safeStops_mode, setMode_mode]

theorem recordFault_mode (s : State) (p : Page) (b : Nat) (injected : Bool) :
    (recordFault s p b injected).mode = s.mode := by
  unfold recordFault mergeFirst recordFirst
  dsimp only
  split_ifs <;> simp

/-- A fault bit that was clear, with action SAFE in force, leaves a device outside Held in Safe (R496, R503). -/
theorem raiseFault_mode_of_safe {s : State} {q : Page} {b : Nat} (injected : Bool) (live : s.mode.mode ≠ .held)
    (first : s.mode.mode ≠ .safe) (act : actionOf s (faultPage q) b = 3)
    (clear : fbit (s.hd (faultPage q) .faultStatus) b = false) : (raiseFault s q b injected).mode.mode = .safe := by
  rw [raiseFault, clear, if_neg Bool.false_ne_true]
  dsimp only
  rw [if_pos act]
  have same := recordFault_mode s (faultPage q) b injected
  exact enterSafe_mode _ _ _ _ _ (same ▸ live) (same ▸ first)

/-! The write. -/

theorem beginAccess_mode (s : State) (m : Master) : (beginAccess s m).mode = s.mode := by
  unfold beginAccess
  dsimp only
  split <;> rfl

theorem taken_mode (s : State) (m : Master) (a : Nat) : (taken s m a).mode = s.mode := by
  rw [taken, flushPage_only]
  exact beginAccess_mode s m

theorem masterThere_not_held {s : State} {m : Master} (there : masterThere s m = true) : s.mode.mode ≠ .held := by
  intro held
  simp [masterThere, held] at there

/-- The address of SAFE_REQUEST in PF BAR0. -/
def safeRequestAt : Nat := pageBase .dev + Reg.DEV_SAFE_REQUEST

theorem safeRequestAt_aligned : safeRequestAt / 4 * 4 = safeRequestAt := by decide

theorem safeRequestAt_fits : (BitVec.ofNat 26 safeRequestAt).toNat = safeRequestAt := by decide

theorem tableAt_safeRequest : tableAt safeRequestAt = none := rfl

theorem pageAt_safeRequest : pageAt safeRequestAt = some (.dev, Reg.DEV_SAFE_REQUEST) := rfl

/-- The masters that may write SAFE_REQUEST. -/
def MayRequestSafe (m : Master) : Prop := m.code = 0x40 ∨ m.code = 0x41 ∨ m.code = 0 ∨ m.code = 0x20

theorem permit_safeRequest (s : State) {m : Master} (other : ¬ MayRequestSafe m) :
    permit s m .dev Reg.DEV_SAFE_REQUEST = some .owner := by
  simp only [MayRequestSafe, not_or] at other
  simp [permit, other]

/-- In Safe the fabric refuses the write (R30): one that it takes comes before Safe. -/
theorem not_safe_of_accepts {s : State} {m : Master} (accepts : Accepts s m safeRequestAt) : s.mode.mode ≠ .safe := by
  intro safe
  obtain ⟨-, free⟩ := accepts
  have mode : (beginAccess s m).mode.mode = .safe := (congrArg ModeSt.mode (beginAccess_mode s m)).trans safe
  have takes : safeTakes (beginAccess s m) m .dev Reg.DEV_SAFE_REQUEST = false := Bool.and_false _
  generalize beginAccess s m = u at free mode takes
  simp only [refusalOf, tableAt_safeRequest, pageAt_safeRequest] at free
  split at free
  · cases free
  split at free
  · cases free
  split at free
  · cases free
  · rw [if_pos ⟨mode, by rw [takes]; decide⟩] at free
    cases free

/-- A master that may not write SAFE_REQUEST is refused with OWNER where no check before permission refuses it. -/
theorem refusalOf_safeRequest {u : State} {m : Master} (other : ¬ MayRequestSafe m) (ready : u.ready .dev = true)
    (fenced : u.fenced .dev = false) (mode : u.mode.mode ≠ .safe) (frozen : frozenOut u m .dev = false)
    (revoked : (pageBase .dev, m.code) ∉ u.cyc.revoked) :
    refusalOf u m safeRequestAt = some (.dev, .owner, false) := by
  simp [refusalOf, tableAt_safeRequest, pageAt_safeRequest, legacyLock, permit_safeRequest u other, ready, fenced, mode,
    frozen, revoked]

theorem rejected_mode (s : State) (m : Master) (p : Page) (c : Cause) (off : Nat) :
    (rejected s m p c off).mode = s.mode := by
  rw [rejected_only]

/-- What a refusal with OWNER shows in CFG_REJECT_INFO (R60). -/
theorem refuse_owner_shows (s : State) (m : Master) (p : Page) (off full : Nat) :
    fget ((s.refuse m p .owner off full).hd p .reject) 23 20 = Cause.owner.code ∧
      fget ((s.refuse m p .owner off full).hd p .reject) 31 24 = m.code ∧
      (s.refuse m p .owner off full).mode = s.mode := by
  obtain ⟨l, refused⟩ := refuse_owner s m p off full
  obtain ⟨cause, code, -, -⟩ := rejected_fields s m p .owner off
  rw [refused, State.hd_setLog]
  exact ⟨cause, code, rejected_mode s m p .owner off⟩

/-- A write that the fabric takes and the register's own check refuses (R60, R62). -/
theorem writeReg_refused {s : State} {m : Master} {a : Nat} {c : Cause} {check : State → Option Cause}
    (op : State → State) (h : Accepts s m a) (hc : check (taken s m a) = some c) :
    writeReg s m a check op = (taken s m a).refuse m (recordPage a) c a a := by
  rw [writeReg, gated_taken h.1 h.2, ← taken, hc]

theorem exec_safeRequest_sets {s : State} {m : Master} (accepts : Accepts s m safeRequestAt) :
    exec (.safeRequest m 0x5AFE) s =
      .next ((raiseFault (taken s m safeRequestAt) .dev 0).noteWrite safeRequestAt) :=
  congrArg Host.Outcome.next (writeReg_taken (check := fun _ => safeRequestCheck 0x5AFE) accepts rfl)

theorem exec_safeRequest_otherValue {s : State} {m : Master} {v : Word} (accepts : Accepts s m safeRequestAt)
    (other : v ≠ 0x5AFE) :
    exec (.safeRequest m v) s = .next (rejected (taken s m safeRequestAt) m .dev .range safeRequestAt) := by
  have refused := writeReg_refused (check := fun _ => safeRequestCheck v) (fun s => raiseFault s .dev 0) accepts
    (if_neg other)
  exact congrArg Host.Outcome.next (refused.trans (refuse_range ..))

theorem exec_safeRequest_refused {s : State} {m : Master} (v : Word) (there : masterThere s m = true)
    (refused : refusalOf (beginAccess s m) m safeRequestAt = some (.dev, .owner, false)) :
    exec (.safeRequest m v) s = .next ((beginAccess s m).refuse m .dev .owner safeRequestAt safeRequestAt) :=
  congrArg Host.Outcome.next (gated_refused there refused)

/-! The read. -/

/-- SAFE_REQUEST is write-only: no bit of it reads. -/
theorem safeRequest_writeOnly : ∃ r, rowAt .dev Reg.DEV_SAFE_REQUEST = some r ∧ readMask r = 0 := ⟨_, rfl, rfl⟩

theorem pageReg_safeRequest (s : State) (sec : Bool) : pageReg s sec .dev Reg.DEV_SAFE_REQUEST = 0 := by
  obtain ⟨r, row, mask⟩ := safeRequest_writeOnly
  have plain : bodyView s sec .dev Reg.DEV_SAFE_REQUEST = none := rfl
  have body : ¬ Reg.DEV_SAFE_REQUEST < pageBody .dev := by decide
  simp only [pageReg, row, plain, mask, body, if_false]
  simp [w32]

theorem readReg_safeRequest (s : State) (m : Master) : readReg s m safeRequestAt = 0 := by
  simp only [readReg, tableAt_safeRequest, pageAt_safeRequest]
  split
  · rfl
  · exact pageReg_safeRequest s (secureMaster m)

theorem pfRead_safeRequest (s : State) (m : Master) (shown : Nat) :
    (pfRead s m safeRequestAt shown).answer = some ⟨m.code, shown, 0⟩ := by
  have unlatched : readsLatch .dev Reg.DEV_SAFE_REQUEST = false := rfl
  simp [pfRead, tableAt_safeRequest, pageAt_safeRequest, unlatched, readReg_safeRequest]

/-- Settles O9: a write that is taken raises DEV fault 0 or is refused for its value, the fabric refuses any other
master, and no bit of the register reads. -/
theorem safeRequestRule : Obligations.SafeRequestRule := by
  refine ⟨rfl, ?sets, ?otherValue, ?otherMaster, ?read⟩
  case sets =>
    intro m s a u _ accepts
    have mode : u.mode = s.mode := taken_mode s m a
    have bit := raiseFault_bit u .dev 0 false (by decide)
    have rises := raiseFault_rises .dev 0 false (Rises.refl u)
    have safe (act : actionOf u .dev 0 = 3) := raiseFault_mode_of_safe (q := .dev) false
      (mode ▸ masterThere_not_held accepts.1) (mode ▸ not_safe_of_accepts accepts) act
    have ran : exec (.safeRequest m 0x5AFE) s = .next ((raiseFault u .dev 0).noteWrite a) :=
      exec_safeRequest_sets accepts
    generalize raiseFault u .dev 0 = t at bit rises safe ran
    exact ⟨_, ran, bit, rises.lit.parts, safe⟩
  case otherValue =>
    intro m v s a _ accepts other
    have ran : exec (.safeRequest m v) s = .next (rejected (taken s m a) m .dev .range a) :=
      exec_safeRequest_otherValue accepts other
    obtain ⟨cause, -⟩ := rejected_fields (taken s m a) m .dev .range a
    exact ⟨_, ran, cause, rejected_only .., rejected_regsBut (taken s m a) m .dev .range a⟩
  case otherMaster =>
    intro m v s u other there ready fenced mode frozen revoked
    have refused := refusalOf_safeRequest other ready fenced mode frozen revoked
    obtain ⟨cause, code, same⟩ := refuse_owner_shows u m .dev safeRequestAt safeRequestAt
    exact ⟨_, exec_safeRequest_refused v there refused, cause, code, same,
      (refuse_owner_keeps u m .dev safeRequestAt safeRequestAt).1⟩
  case read =>
    intro m wait s x u target there
    refine ⟨regRead u m x, congrArg (fun y => Host.Outcome.next (regRead u m y)) safeRequestAt_fits, ?_⟩
    rw [regRead_at target there]
    exact (congrArg (fun y => (pfRead (readStart u m) m y x).answer) safeRequestAt_aligned).trans
      (pfRead_safeRequest (readStart u m) m x)

end Sys2Proof.Machine
end

section
/-!
PROOF. The check-value units: their enable, and CLOSE of an accumulation that runs until CLOSE (R513 to R515, R518).
-/
namespace Sys2Proof.Machine

theorem State.cvu_setCvu (s : State) (u : Nat) (c : CvuSt) : (s.setCvu u c).cvu u = c := aget_aset ..

/-- CVU_CFG decides the source. -/
theorem cvuSource_congr {s t : State} {u : Nat}
    (same : t.pr (.cvu u) Reg.CVU_CVU_CFG = s.pr (.cvu u) Reg.CVU_CVU_CFG) : cvuSource t u = cvuSource s u :=
  congrArg (fget · 2 0) same

/-! The enable (R514, R515). -/

/-- ENABLE is set and RESULT_STATUS is cleared. -/
def cvuEnabled (s : State) (u : Nat) : State :=
  (s.setHf (.cvu u) .ctrl 0 0 1).setPr (.cvu u) Reg.CVU_RESULT_STATUS 0

theorem cvuEnabled_regsBut (s : State) (u : Nat) :
    RegsBut s (cvuEnabled s u) [hadr (.cvu u) .ctrl, pageBase (.cvu u) + Reg.CVU_RESULT_STATUS] :=
  (setHf_regsBut (.head _)).trans (setPr_regsBut (.tail _ (.head _)))

theorem cvuEnabled_source (s : State) (u : Nat) : cvuSource (cvuEnabled s u) u = cvuSource s u := by
  have ctrl : hadr (.cvu u) .ctrl = pageBase (.cvu u) + 0xC := rfl
  refine cvuSource_congr (cvuEnabled_regsBut s u _ ?_)
  rw [ctrl]
  simp

theorem cvuEnabled_enabled (s : State) (u : Nat) : (cvuEnabled s u).enabled (.cvu u) = true := by
  have ctrl : (cvuEnabled s u).hd (.cvu u) .ctrl = fset (s.hd (.cvu u) .ctrl) 0 0 1 := by
    have apart : hadr (.cvu u) .ctrl ≠ pageBase (.cvu u) + Reg.CVU_RESULT_STATUS :=
      offset_ne (p := .cvu u) (o := 0xC) (by decide)
    rw [cvuEnabled, State.hd, State.reg_setPr, if_neg apart]
    exact State.hd_setHf ..
  change fbit ((cvuEnabled s u).hd (.cvu u) .ctrl) 0 = true
  rw [ctrl]
  exact fbit_fset _ 1 0 (by decide) (by decide)

/-- The accumulation of unit u starts afresh. -/
def cvuAfresh (s : State) (u : Nat) : CvuSt :=
  { running := cvuSource s u == 5, crc := if cvuSource s u = 5 then 0 else 0xFFFFFFFF }

theorem cvuEnableOp_of_off {s : State} {u : Nat} (off : s.enabled (.cvu u) = false) :
    cvuEnableOp s u = (cvuEnabled s u).setCvu u (cvuAfresh s u) := by
  rw [cvuEnableOp, off, if_neg Bool.false_ne_true, cvuAfresh, ← cvuEnabled_source]
  rfl

/-! A latched result (R515, R518). -/

/-- The value that a result takes: the CRC complemented, or the sum of the records' codes. -/
def cvuResult (s : State) (u : Nat) : Nat :=
  if cvuSource s u = 5 then (s.cvu u).crc else (s.cvu u).crc ^^^ 0xFFFFFFFF

/-- The comparison is on and the result is not the expected one. -/
def cvuMismatch (s : State) (u : Nat) : Bool :=
  s.pf (.cvu u) Reg.CVU_CVU_CMP 0 0 == 1 &&
    w32 (cvuResult s u) != aget (s.reg (pageBase (.cvu u) + Reg.CVU_CVU_EXPECT)) s.cyc.actPrev
      (pageBase (.cvu u) + Reg.CVU_CVU_EXPECT)

/-- RESULT and its companions hold the result. -/
def cvuWritten (s : State) (u seq : Nat) (skipped : Bool) : State :=
  let c := s.cvu u
  (((s.setPr (.cvu u) Reg.CVU_RESULT (w32 (cvuResult s u))).setPr (.cvu u) Reg.CVU_RESULT_SEQ (w32 seq)).setPr (.cvu u)
    Reg.CVU_RESULT_STATUS (w32 (2 ^ 31 + 2 ^ 30 * b2n c.partialSeen + 2 ^ 29 * b2n skipped +
      2 ^ 28 * b2n (cvuMismatch s u) + 2 ^ 24 * min c.unread 15 + c.words % 2 ^ 24))).setPair (.cvu u)
    Reg.CVU_RESULT_TIME_LO s.devtime

/-- The result is reported, and as overrun where one before it is unread. -/
def cvuTold (s : State) (u seq : Nat) (skipped : Bool) : State :=
  let t := (cvuWritten s u seq skipped).event (.cvu u) 0
  if 0 < (s.cvu u).unread then t.event (.cvu u) 1 else t

/-- The accumulation starts again behind the result. -/
def cvuLatched (s : State) (u seq : Nat) (skipped : Bool) : State :=
  (cvuTold s u seq skipped).setCvu u {
    running := (s.cvu u).running, windows := (s.cvu u).windows + 1, unread := (s.cvu u).unread + 1,
    crc := if cvuSource (cvuTold s u seq skipped) u = 5 then 0 else 0xFFFFFFFF }

theorem cvuLatch_eq (s : State) (u seq : Nat) (skipped : Bool) :
    cvuLatch s u seq skipped =
      if cvuMismatch s u then raiseFault (cvuLatched s u seq skipped) (.cvu u) 0 else cvuLatched s u seq skipped := rfl

theorem cvuTold_bit (s : State) (u seq : Nat) (skipped : Bool) :
    fbit ((cvuTold s u seq skipped).hd (.cvu u) .irqStatus) 0 = true := by
  have told := event_bit (cvuWritten s u seq skipped) (.cvu u) 0 (by decide)
  unfold cvuTold
  dsimp only
  split
  · exact (State.event_rises (Rises.refl _)).bits _ (.inl (irq_mod (.cvu u))) 0 told
  · exact told

/-- The events of a result leave the body of the unit's page. -/
theorem cvuTold_pr (s : State) (u seq : Nat) (skipped : Bool) {o : Nat} (body : 0x100 ≤ o) :
    (cvuTold s u seq skipped).pr (.cvu u) o = (cvuWritten s u seq skipped).pr (.cvu u) o := by
  unfold cvuTold
  dsimp only
  split
  · rw [State.pr_event rfl body, State.pr_event rfl body]
  · rw [State.pr_event rfl body]

theorem cvuTold_mem (s : State) (u seq : Nat) (skipped : Bool) : (cvuTold s u seq skipped).mem = s.mem := by
  unfold cvuTold
  split <;> simp [cvuWritten]

theorem State.pr_setPr_other {s : State} {p : Page} {o o' : Nat} {v : Word} (other : o' ≠ o) :
    (s.setPr p o v).pr p o' = s.pr p o' := (State.reg_setPr ..).trans (if_neg (offset_ne other))

theorem State.pr_setPair_other {s : State} {p : Page} {o o' v : Nat} (low : o' ≠ o) (high : o' ≠ o + 4) :
    (s.setPair p o v).pr p o' = s.pr p o' :=
  (State.pr_setPr_other high).trans (State.pr_setPr_other low)

theorem cvuWritten_seq (s : State) (u seq : Nat) (skipped : Bool) :
    (cvuWritten s u seq skipped).pr (.cvu u) Reg.CVU_RESULT_SEQ = w32 seq := by
  rw [cvuWritten, State.pr_setPair_other (by decide) (by decide), State.pr_setPr_other (by decide), State.pr_setPr]

theorem cvuWritten_result (s : State) (u seq : Nat) (skipped : Bool) :
    (cvuWritten s u seq skipped).pr (.cvu u) Reg.CVU_RESULT = w32 (cvuResult s u) := by
  rw [cvuWritten, State.pr_setPair_other (by decide) (by decide), State.pr_setPr_other (by decide),
    State.pr_setPr_other (by decide), State.pr_setPr]

theorem cvuMismatch_of_off {s : State} {u : Nat} (off : s.pf (.cvu u) Reg.CVU_CVU_CMP 0 0 = 0) :
    cvuMismatch s u = false := by
  simp [cvuMismatch, off]

/-- A fault of a mismatch keeps the accumulation, the events and memory (R496, R518). -/
theorem cvuLatch_rises (s : State) (u seq : Nat) (skipped : Bool) :
    Rises (cvuLatched s u seq skipped) (cvuLatch s u seq skipped) := by
  rw [cvuLatch_eq]
  exact Rises.ite (raiseFault_rises _ _ _ (Rises.refl _)) (Rises.refl _)

/-- A result shows in the unit's event, and the accumulation behind it starts again. -/
theorem cvuLatch_restarts (s : State) (u seq : Nat) (skipped : Bool) :
    fbit ((cvuLatch s u seq skipped).hd (.cvu u) .irqStatus) 0 = true ∧
      ((cvuLatch s u seq skipped).cvu u).windows = (s.cvu u).windows + 1 ∧
      ((cvuLatch s u seq skipped).cvu u).unread = (s.cvu u).unread + 1 ∧
      ((cvuLatch s u seq skipped).cvu u).words = 0 ∧ (cvuLatch s u seq skipped).mem = s.mem := by
  have rises := cvuLatch_rises s u seq skipped
  have unit : (cvuLatch s u seq skipped).cvu u = (cvuLatched s u seq skipped).cvu u := by
    rw [State.cvu, rises.keeps.cvus, State.cvu]
  have told : fbit ((cvuLatched s u seq skipped).reg (hadr (.cvu u) .irqStatus)) 0 = true := cvuTold_bit s u seq skipped
  rw [unit, cvuLatched, State.cvu_setCvu]
  exact ⟨rises.bits _ (.inl (irq_mod (.cvu u))) 0 told, rfl, rfl, rfl,
    rises.keeps.mem.trans (cvuTold_mem s u seq skipped)⟩

/-- With the comparison off the result stays to be read. -/
theorem cvuLatch_result {s : State} {u : Nat} (off : s.pf (.cvu u) Reg.CVU_CVU_CMP 0 0 = 0) (seq : Nat) (skipped : Bool) :
    (cvuLatch s u seq skipped).pr (.cvu u) Reg.CVU_RESULT_SEQ = w32 seq ∧
      (cvuLatch s u seq skipped).pr (.cvu u) Reg.CVU_RESULT = w32 (cvuResult s u) := by
  have latched : cvuLatch s u seq skipped = cvuLatched s u seq skipped := by
    rw [cvuLatch_eq, cvuMismatch_of_off off, if_neg Bool.false_ne_true]
  rw [latched]
  exact ⟨(cvuTold_pr s u seq skipped (by decide)).trans (cvuWritten_seq ..),
    (cvuTold_pr s u seq skipped (by decide)).trans (cvuWritten_result ..)⟩

/-! The commands. -/

theorem exec_cvuEnable_starts {s : State} {m : Master} {u : Fin 16} (accepts : Accepts s m (hadr (.cvu u) .ctrl))
    (check : cvuEnableCheck (taken s m (hadr (.cvu u) .ctrl)) u = none)
    (off : (taken s m (hadr (.cvu u) .ctrl)).enabled (.cvu u) = false) :
    exec (.cvuEnable m u) s = .next (((cvuEnabled (taken s m (hadr (.cvu u) .ctrl)) u).setCvu u
      (cvuAfresh (taken s m (hadr (.cvu u) .ctrl)) u)).noteWrite (hadr (.cvu u) .ctrl)) := by
  have ran := writeReg_taken (check := fun s => cvuEnableCheck s u) (op := fun s => cvuEnableOp s u) accepts check
  rw [cvuEnableOp_of_off off] at ran
  exact congrArg Host.Outcome.next ran

/-- CLOSE of an accumulation that runs until CLOSE (R514). -/
theorem exec_cvuClose_latches {s : State} {m : Master} {u : Fin 16} {value : Word}
    (accepts : Accepts s m (pageBase (.cvu u) + Reg.CVU_CVU_CLOSE)) (go : fbit value 0 = true)
    (on : cvuOn (taken s m (pageBase (.cvu u) + Reg.CVU_CVU_CLOSE)) u = true)
    (untilClose : cvuWindow (taken s m (pageBase (.cvu u) + Reg.CVU_CVU_CLOSE)) u = 2) :
    exec (.cvuClose m u value) s =
      .next ((cvuLatch (taken s m (pageBase (.cvu u) + Reg.CVU_CVU_CLOSE)) u
        (((taken s m (pageBase (.cvu u) + Reg.CVU_CVU_CLOSE)).cvu u).windows + 1) false).noteWrite
          (pageBase (.cvu u) + Reg.CVU_CVU_CLOSE)) := by
  have ran := writeReg_taken (check := fun _ => none) (op := fun s => cvuCloseOp s u value) accepts rfl
  rw [cvuCloseOp, if_pos ⟨go, on, untilClose⟩] at ran
  exact congrArg Host.Outcome.next ran

/-- Settles O14: the enable leaves `cvuEnabled` with the unit's state afresh, and CLOSE is `cvuLatch`. -/
theorem checkValues : Obligations.CheckValues := by
  refine ⟨?enable, ?close⟩
  case enable =>
    intro m u s accepts check off
    refine ⟨_, exec_cvuEnable_starts accepts check off, ?_⟩
    generalize taken s m (hadr (.cvu u) .ctrl) = v
    have on := cvuEnabled_enabled v u
    have status : (cvuEnabled v u).pr (.cvu u) Reg.CVU_RESULT_STATUS = 0 := State.pr_setPr ..
    have regs := cvuEnabled_regsBut v u
    generalize cvuEnabled v u = w at on status regs
    exact ⟨on, status, State.cvu_setCvu .., regs⟩
  case close =>
    intro m u value s a b accepts go on untilClose
    have ran := exec_cvuClose_latches accepts go on untilClose
    obtain ⟨told, windows, unread, words, mem⟩ := cvuLatch_restarts b u ((b.cvu u).windows + 1) false
    have shown (off : b.pf (.cvu u) Reg.CVU_CVU_CMP 0 0 = 0) := cvuLatch_result off ((b.cvu u).windows + 1) false
    exact ⟨_, ran, told, windows, unread, words, shown, mem⟩

end Sys2Proof.Machine
end

section
/-!
PROOF. Injections into units (R128, R168, R224, R520), and the statistics slots (R250).
-/
namespace Sys2Proof.Machine

/-! AUX_DROP (R128). -/

theorem State.head_setHead_ne {s : State} {n q : Nat} {x : HeadSt} (other : q ≠ n) :
    (s.setHead n x).head q = s.head q := aget_aset_ne _ _ _ _ other

/-- One more try of the request of head n is counted. -/
def auxRetried (s : State) (n : Nat) : State :=
  (s.setHead n { s.head n with auxTries := (s.head n).auxTries + 1 }).setPf (.dplink n) Reg.DPLINK_AUX_STATUS 15 8
    ((s.head n).auxTries + 1)

/-- Below the limit of retries the request goes on. -/
theorem auxTimedOut_below {s : State} {n : Nat} (queued : (s.head n).auxQueued = true)
    (below : (s.head n).auxTries < 7) : auxTimedOut s n = auxRetried s n := by
  rw [auxTimedOut, if_pos queued, auxRetry]
  exact if_pos below

/-- The reply of head n is discarded, and the next k are to be. -/
def auxDropping (s : State) (n k : Nat) : State := s.setHead n { s.head n with auxDrop := k }

/-- A reply is discarded below the limit of retries. -/
def auxDropped (s : State) (n k : Nat) : State := auxRetried (auxDropping (fireInject s (.dplink n)) n k) n

theorem fireInject_head (s : State) (p : Page) (n : Nat) : (fireInject s p).head n = s.head n := by
  rw [fireInject_only]
  rfl

theorem auxDropping_head (s : State) (n k : Nat) :
    (auxDropping (fireInject s (.dplink n)) n k).head n = { s.head n with auxDrop := k } := by
  rw [auxDropping, State.head_setHead, fireInject_head]

theorem auxDropped_only (s : State) (n k : Nat) :
    auxDropped s n k = { s with
      regs := (auxDropped s n k).regs, heads := (auxDropped s n k).heads, log := (auxDropped s n k).log } := by
  have fired := fireInject_only s (.dplink n)
  unfold auxDropped
  generalize fireInject s (.dplink n) = u at fired
  rw [fired]
  rfl

theorem auxDropped_head (s : State) (n k : Nat) :
    (auxDropped s n k).head n = { s.head n with auxDrop := k, auxTries := (s.head n).auxTries + 1 } := by
  refine (State.head_setHead ..).trans ?_
  rw [auxDropping_head]

theorem auxDropped_head_ne (s : State) {n q : Nat} (k : Nat) (other : q ≠ n) :
    (auxDropped s n k).head q = s.head q :=
  (State.head_setHead_ne other).trans ((State.head_setHead_ne other).trans (fireInject_head ..))

/-- The count of retries is the one register that changes behind the injection. -/
theorem auxDropped_fired (s : State) (n k : Nat) :
    RegsBut (fireInject s (.dplink n)) (auxDropped s n k) [pageBase (.dplink n) + Reg.DPLINK_AUX_STATUS] :=
  setPf_regsBut (s := (auxDropping (fireInject s (.dplink n)) n k).setHead n _) (.head _)

theorem auxDropped_regsBut (s : State) (n k : Nat) :
    RegsBut s (auxDropped s n k) [hadr (.dplink n) .inject, pageBase (.dplink n) + Reg.DPLINK_AUX_STATUS] :=
  ((fireInject_regsBut s _).mono (by simp)).trans ((auxDropped_fired s n k).mono (by simp))

theorem auxDropped_inject (s : State) (n k : Nat) :
    (auxDropped s n k).hd (.dplink n) .inject = (fireInject s (.dplink n)).hd (.dplink n) .inject :=
  auxDropped_fired s n k _ (mt List.mem_singleton.mp (offset_ne (p := .dplink n) (o := 0x3C) (by decide)))

theorem exec_auxDrop_armed {n : Fin 12} {target k : Nat} {s : State}
    (arm : armed s (.dplink n) 0x30 = some (target, k)) (queued : (s.head n).auxQueued = true)
    (below : (s.head n).auxTries < 7) : exec (.auxDrop n) s = .next (auxDropped s n k) := by
  have retried := auxTimedOut_below (s := auxDropping (fireInject s (.dplink n)) n k) (n := n)
    (by rw [auxDropping_head]; exact queued) (by rw [auxDropping_head]; exact below)
  change execAuxDrop n s = _
  rw [execAuxDrop, arm]
  dsimp only
  rw [if_pos queued]
  exact congrArg Host.Outcome.next retried

/-! Parity of tile memory and of the glyph cache (R224, R520). -/

theorem exec_tileParity_armed {b : Fin 48} {x : Nat × Nat} {s : State} (arm : armed s (.bay b) 0x50 = some x)
    (there : bayFenced s b = false) :
    exec (.tileParity b) s = .next (raiseFault (fireInject s (.bay b)) (.bay b) 0) := by
  change execTileParity b s = _
  simp [execTileParity, arm, there]

theorem fireInject_legend (s : State) (p : Page) : (fireInject s p).legend = s.legend := by
  rw [fireInject_only]

theorem capturedGlyph_congr {s t : State} (same : t.legend = s.legend) (n g : Nat) :
    capturedGlyph t n g = capturedGlyph s n g := by
  rw [capturedGlyph, same, capturedGlyph]

theorem residentGlyph_congr {s t : State} (same : t.legend = s.legend) (gl : CellGlyph) :
    residentGlyph t gl = residentGlyph s gl := by
  rw [residentGlyph, same, residentGlyph]

/-- A parity error on a resident glyph that is captured: it is dropped, the fault is raised, and it is fetched. -/
theorem glyphParity_fetches {s : State} {n g : Nat} {gl : CellGlyph} {r : GlyphRes}
    (captured : capturedGlyph s n g = some gl) (resident : residentGlyph s gl = some r) :
    glyphParity s n g = glyphFetch (raiseFault (dropGlyph s g) .legend 2) n gl := by
  rw [glyphParity, captured]
  exact if_neg (by simp [resident])

theorem exec_glyphParity_armed {n : Fin 12} {g : Fin 8192} {x : Nat × Nat} {gl : CellGlyph} {r : GlyphRes} {s : State}
    (arm : armed s .legend 0x70 = some x) (captured : capturedGlyph s n g = some gl)
    (resident : residentGlyph s gl = some r) :
    exec (.glyphParity n g) s =
      .next (glyphFetch (raiseFault (dropGlyph (fireInject s .legend) g) .legend 2) n gl) := by
  have same := fireInject_legend s .legend
  have fetched := glyphParity_fetches ((capturedGlyph_congr same n g).trans captured)
    ((residentGlyph_congr same gl).trans resident)
  change execGlyphParity n g s = _
  simp [execGlyphParity, arm, captured, resident, fetched]

/-- A change of the Legend engine keeps what a fault can touch apart. -/
theorem Rises.setLegend {s t : State} (h : Rises s t) (x : LegendSt) : Rises (s.setLegend x) (t.setLegend x) :=
  ⟨{ h.keeps with legend := rfl }, h.restart, h.bits⟩

/-- An injection that fires before a glyph is dropped touches what faults touch. -/
theorem dropGlyph_fireInject_rises (s : State) (p : Page) (g : Nat) :
    Rises (dropGlyph s g) (dropGlyph (fireInject s p) g) := by
  rw [dropGlyph, dropGlyph, fireInject_legend]
  exact (fireInject_rises p (Rises.refl s)).setLegend _

/-! READ_ERROR (R168). -/

theorem veneerFallback_rises {s0 s : State} {n : Nat} (head : n < 12) (r line : Nat) (h : Rises s0 s) :
    Rises s0 (veneerFallback s n r line) := by
  unfold veneerFallback
  dsimp only
  refine raiseFault_rises _ _ _ (State.countBy_rises ?_ (State.setHead_rises h))
  simp only [pageBase, Reg.VENEER_VFALLBACK_LINES, Reg.WORLD_HW_CTRL]
  omega

theorem veneerFallback_bit (s : State) (n r line : Nat) :
    fbit ((veneerFallback s n r line).hd .veneer .faultStatus) 0 = true :=
  raiseFault_bit _ .veneer 0 false (by decide)

theorem exec_readError_armed {n : Fin 12} {r : Fin 3} {line x : Nat} {run : Run} {s : State}
    (arm : armed s .veneer 0x71 = some (n.val, x)) (listed : run ∈ (s.head n).runs) (index : run.idx = r.val)
    (reads : runReads run line = true) (inside : line < (s.head n).raster.vActive) :
    exec (.readError n r line) s = .next (veneerFallback (fireInject s .veneer) n r line) := by
  have found : (s.head n).runs.any (fun x => x.idx == r.val && runReads x line) = true :=
    List.any_eq_true.mpr ⟨run, listed, by simp [index, reads]⟩
  change execReadError n r line s = _
  simp [execReadError, arm, found, inside]

/-! Statistics slots (R250). -/

/-- The registers of the counters of slot k, STAT_MAXk the last of them. -/
def statCounters (k : Nat) : List Nat := (List.range 18).map (fun i => Reg.KERF_STAT_CFG + 0x80 * k + 4 + 4 * i)

/-- Registers of a page that are cleared. -/
def clearRegs (s : State) (p : Page) (l : List Nat) : State := l.foldl (fun s o => s.setPr p o 0) s

theorem clearRegs_reg (s : State) (p : Page) (l : List Nat) (a : Nat) :
    (clearRegs s p l).reg a = if a ∈ l.map (pageBase p + ·) then 0 else s.reg a := by
  induction l generalizing s with
  | nil => rfl
  | cons o l ih =>
    change (clearRegs (s.setPr p o 0) p l).reg a = _
    rw [ih, State.reg_setPr]
    by_cases rest : a ∈ l.map (pageBase p + ·)
    · simp only [List.map_cons, List.mem_cons, rest, or_true, if_true]
    · simp only [List.map_cons, List.mem_cons, rest, or_false, if_false]

theorem clearRegs_registerParts (s : State) (p : Page) (l : List Nat) : RegisterParts s (clearRegs s p l) :=
  State.foldl_invariant (RegisterParts s) _ l s rfl fun t o h => h.trans (setPr_registerParts t p o 0)

theorem statCfgOp_eq (s : State) (k : Nat) (v : Word) :
    statCfgOp s k v = (clearRegs s .kerf (statCounters k)).setPr .kerf (Reg.KERF_STAT_CFG + 0x80 * k) (v &&& 0x8000FFFF) := by
  rw [clearRegs, statCounters, List.foldl_map]
  rfl

theorem exec_statCfgWrite_sets {m : Master} {k : Fin 16} {v : Word} {s : State}
    (accepts : Accepts s m (pageBase .kerf + Reg.KERF_STAT_CFG + 0x80 * k.val)) :
    exec (.statCfgWrite m k v) s =
      .next ((statCfgOp (taken s m (pageBase .kerf + Reg.KERF_STAT_CFG + 0x80 * k.val)) k v).noteWrite
        (pageBase .kerf + Reg.KERF_STAT_CFG + 0x80 * k.val)) :=
  congrArg Host.Outcome.next (writeReg_taken (check := fun _ => none) (op := fun s => statCfgOp s k v) accepts rfl)

/-- The registers of the counters of slot k stand behind its STAT_CFG. -/
theorem statCounters_at (k : Nat) : (statCounters k).map (pageBase .kerf + ·) =
    (List.range 18).map (fun i => pageBase .kerf + Reg.KERF_STAT_CFG + 0x80 * k + 4 + 4 * i) := by
  rw [statCounters, List.map_map]
  exact List.map_congr_left fun i _ => by simp only [Function.comp_apply]; omega

theorem statCfgOp_reg (s : State) (k : Nat) (v : Word) (a : Nat) :
    (statCfgOp s k v).reg a =
      if a = pageBase .kerf + Reg.KERF_STAT_CFG + 0x80 * k then v &&& 0x8000FFFF
      else if a ∈ (List.range 18).map (fun i => pageBase .kerf + Reg.KERF_STAT_CFG + 0x80 * k + 4 + 4 * i) then 0
      else s.reg a := by
  rw [statCfgOp_eq, State.reg_setPr, clearRegs_reg, statCounters_at, Nat.add_assoc (pageBase .kerf)]

theorem statCfgOp_registerParts (s : State) (k : Nat) (v : Word) : RegisterParts s (statCfgOp s k v) := by
  rw [statCfgOp_eq]
  exact (clearRegs_registerParts ..).trans (setPr_registerParts ..)

/-- Settles O17: each armed injection is the unit's own trouble behind `fireInject`, and a write of STAT_CFG clears the
counters of its slot. -/
theorem unitInjections : Obligations.UnitInjections := by
  refine ⟨?auxDrop, ?tileParity, ?glyphParity, ?readError, ?statCfg⟩
  case auxDrop =>
    intro n target k s arm queued below
    obtain ⟨disarmed, fired⟩ := fireInject_fired s (.dplink n)
    have inject := auxDropped_inject s n k
    exact ⟨_, exec_auxDrop_armed arm queued below, auxDropped_only s n k, auxDropped_head s n k,
      fun q other => auxDropped_head_ne s k other, by rw [inject]; exact disarmed, by rw [inject]; exact fired,
      auxDropped_regsBut s n k⟩
  case tileParity =>
    intro b x s arm there
    exact ⟨_, exec_tileParity_armed arm there, raiseFault_bit _ (.bay b) 0 false (by decide),
      (raiseFault_rises (.bay b) 0 false (fireInject_rises _ (Rises.refl s))).parts⟩
  case glyphParity =>
    intro n g x gl r s arm captured resident
    exact ⟨_, _, exec_glyphParity_armed arm captured resident,
      (raiseFault_rises .legend 2 false (dropGlyph_fireInject_rises s .legend g)).parts,
      raiseFault_bit _ .legend 2 false (by decide), rfl⟩
  case readError =>
    intro n r line x run s arm listed index reads inside
    exact ⟨_, exec_readError_armed arm listed index reads inside, veneerFallback_bit ..,
      (veneerFallback_rises n.isLt r line (fireInject_rises .veneer (Rises.refl s))).parts⟩
  case statCfg =>
    intro m k v s a accepts
    have ran := exec_statCfgWrite_sets (v := v) accepts
    have parts := statCfgOp_registerParts (taken s m a) k v
    have regs := statCfgOp_reg (taken s m a) k v
    generalize statCfgOp (taken s m a) k v = t at ran parts regs
    refine ⟨_, ran, parts.trans rfl, (regs a).trans (if_pos rfl), fun i inside => ?_, fun b apart => ?_⟩
    · have counter : a + 4 + 4 * i ∈ (List.range 18).map (fun i => a + 4 + 4 * i) :=
        List.mem_map_of_mem (List.mem_range.mpr inside)
      exact (regs _).trans ((if_neg (by omega)).trans (if_pos counter))
    · obtain ⟨config, counter⟩ := not_or.mp (mt List.mem_cons.mpr apart)
      exact (regs b).trans ((if_neg config).trans (if_neg counter))

end Sys2Proof.Machine
end

section
/-!
PROOF. The bounds that every step keeps, and the queue of commands: each is read off what every command keeps
(`exec_kept`) or what an FCLK cycle leaves (`passCycles`).
-/
namespace Sys2Proof.Machine

/-- A step keeps what every operation keeps, but for the command that it takes from the queue. -/
theorem step_kept {s t : State} (h : step s = .next t) :
    (Memory.wf s.mem.cells = true → Memory.wf t.mem.cells = true) ∧
      (s.log.queue.length ≤ 1024 → t.log.queue.length ≤ 1024) := by
  cases hq : s.pending with
  | nil =>
    have kept := passCycles_kept 1 (Kept.refl s)
    obtain rfl := Host.Outcome.next.inj ((step_of_empty hq).symm.trans h)
    exact ⟨kept.mem, kept.log⟩
  | cons c rest =>
    obtain ⟨u, ran, kept⟩ := (exec_kept c (Kept.refl { s with pending := rest })).out
    obtain rfl := Host.Outcome.next.inj (ran.symm.trans ((step_of_command hq).symm.trans h))
    exact ⟨kept.mem, kept.log⟩

/-- Settles O4: `step_kept`, whose cases are an FCLK cycle and the command in front of the queue. -/
theorem memoryStaysCanonical : Obligations.MemoryStaysCanonical :=
  fun _ _ canonical h => (step_kept h).1 canonical

/-- Settles O5: `step_kept`, whose cases are an FCLK cycle and the command in front of the queue. -/
theorem logQueueStaysBounded : Obligations.LogQueueStaysBounded :=
  fun _ _ bounded h => (step_kept h).2 bounded

/-- Settles O1: both cases are those of `step`, and a cycle writes no register and no byte of memory. -/
theorem stepRunsFrontCommand : Obligations.StepRunsFrontCommand := by
  refine ⟨fun c rest s => step_of_command rfl, fun s empty => ?_⟩
  exact ⟨passCycles s 1, step_of_empty empty, empty, rfl, rfl, rfl, rfl⟩

end Sys2Proof.Machine
end

section
/-!
PROOF. What Surveyor answers: a request that its path may send, with its arguments whole, is served and its answer
waits on the path (R545 to R548).
-/
namespace Sys2Proof.Machine

/-! Serving a request. -/

/-- The state t, in which the answer to the request on path p of s waits. -/
def mbAnswered (s t : State) (p : MbPath) (a : MbAnswer) : State := putReply t p (mbResponse (pathRequest s p) a)

theorem mbServe_asked {s t : State} {p : MbPath} {cmd n : Nat} {paths : List MbWho}
    {f : State → List Nat → State × MbAnswer} {a : MbAnswer} (asked : Asked s p cmd n)
    (may : pathWho p ∈ paths) (serves : f s (argsOf s p) = (t, a)) :
    mbServe s p cmd paths n f = mbAnswered s t p a := by
  obtain ⟨open_, command, whole⟩ := asked
  have long : ¬ (pathRequest s p).length < 8 := by omega
  have full : ¬ (pathRequest s p).length < 8 + n := by omega
  unfold argsOf at serves
  simp only [mbServe, open_, command, long, full, serves, mbAnswered]
  simp [may]

theorem pathWho_mem_allWho (p : MbPath) : pathWho p ∈ allWho := by
  cases pathWho p <;> decide

theorem pathWho_mem_phv {p : MbPath} (h : pathWho p ≠ .sap) : pathWho p ∈ phv := by
  cases hw : pathWho p
  case sap => exact absurd hw h
  all_goals decide

/-- An answer is a change of what Surveyor holds for its paths. -/
theorem mbAnswered_only (s t : State) (p : MbPath) (a : MbAnswer) : OnlyReplied t (mbAnswered s t p a) := by
  cases p <;> rfl

theorem mbAnswered_replied (s t : State) (p : MbPath) (a : MbAnswer) :
    Replied s (mbAnswered s t p a) p a.status a.detail a.data := by
  cases p with
  | slot k => simp [Replied, replyOn, mbAnswered, putReply, mbResponse]
  | service r => rfl

/-- What a command that is served leaves, where its meaning answers a and leaves the state t. -/
theorem exec_served (c : Instr) {s t : State} {p : MbPath} {cmd n : Nat} {paths : List MbWho}
    {f : State → List Nat → State × MbAnswer} {a : MbAnswer} (meaning : exec c s = .next (mbServe s p cmd paths n f))
    (asked : Asked s p cmd n) (may : pathWho p ∈ paths) (serves : f s (argsOf s p) = (t, a)) :
    ∃ u, exec c s = .next u ∧ OnlyReplied t u ∧ Replied s u p a.status a.detail a.data :=
  ⟨mbAnswered s t p a, meaning.trans (congrArg _ (mbServe_asked asked may serves)), mbAnswered_only s t p a,
    mbAnswered_replied s t p a⟩

/-! The formats of the answers. -/

theorem cfgBytes_length (c : CfgRec) : (cfgBytes c).length = 64 := by
  simp [cfgBytes, leBytes_length]

theorem bankInfo_length (s : State) (comp b : Nat) : (bankInfo s comp b).length = 8 := by
  simp [bankInfo, leBytes_length]

/-- The part of GET_INFO's answer that tells of the five components (R548). -/
def componentInfo (s : State) : List Nat :=
  (List.range 5).flatMap (fun c =>
    bankInfo s c 0 ++ bankInfo s c 1 ++ [activeBankOf s c, if aget 0 s.surv.trial c = 0 then 0 else 1])

theorem componentInfo_length (s : State) : (componentInfo s).length = 90 := by
  simp [componentInfo, List.range_succ, bankInfo_length]

/-- The data of GET_INFO: the components, the boot count, and the configuration in force. -/
def infoBytes (s : State) : List Nat := componentInfo s ++ leBytes 4 s.surv.bootCount ++ cfgBytes s.cfg

theorem infoBytes_length (s : State) : (infoBytes s).length = 158 := by
  simp [infoBytes, componentInfo_length, leBytes_length, cfgBytes_length]

theorem infoBytes_cfg (s : State) : (infoBytes s).drop 94 = cfgBytes s.cfg :=
  List.drop_left' (by simp [componentInfo_length, leBytes_length])

theorem infoBytes_bootCount (s : State) : ((infoBytes s).drop 90).take 4 = leBytes 4 s.surv.bootCount := by
  rw [infoBytes, List.append_assoc, List.drop_left' (componentInfo_length s), List.take_left' (leBytes_length ..)]

/-- The data of LOG_STATUS: the oldest and newest SEQ, the entries not in flash yet, and those lost. -/
def statusBytes (s : State) (oldest newest : Nat) : List Nat :=
  leBytes 4 oldest ++ leBytes 4 newest ++ leBytes 4 s.log.queue.length ++ leBytes 4 s.log.lost

/-- Settles O57: each read-out is served (`exec_served`), and what its meaning answers is read off its definition. -/
theorem mailboxReads : Obligations.MailboxReads := by
  refine ⟨?getInfo, ?sensors, ?sensorsRange, ?logRead, ?logStatus, ?logStatusEmpty, ?configRead, ?retireRead, ?shimRead⟩
  case getInfo =>
    intro p s asked
    obtain ⟨t, ran, only, replied⟩ := exec_served (.getInfo p) rfl asked (pathWho_mem_allWho p) rfl
    exact ⟨t, infoBytes s, ran, only, replied, infoBytes_length s, infoBytes_cfg s, infoBytes_bootCount s⟩
  case sensors =>
    intro p s asked inside
    exact exec_served (.readSensors p) rfl asked (pathWho_mem_allWho p) (if_neg (Nat.not_lt.mpr inside))
  case sensorsRange =>
    intro p s asked outside
    exact exec_served (.readSensors p) rfl asked (pathWho_mem_allWho p) (if_pos outside)
  case logRead =>
    intro p s asked least most es
    have inside : ¬ (arg (argsOf s p) 4 1 = 0 ∨ 3 < arg (argsOf s p) 4 1) := by omega
    exact exec_served (.logRead p) rfl asked (pathWho_mem_allWho p) (if_neg inside)
  case logStatus =>
    intro p a b s asked oldest newest
    refine exec_served (.logStatus p) (a := { data := statusBytes s a.seq b.seq }) rfl asked (pathWho_mem_allWho p) ?_
    simp [oldest, newest, statusBytes]
  case logStatusEmpty =>
    intro p s asked empty
    obtain ⟨t, served⟩ := exec_served (.logStatus p) (t := s.draw.2.draw.2)
      (a := { data := statusBytes s s.draw.1 s.draw.2.draw.1 }) rfl asked (pathWho_mem_allWho p) (by
        simp [empty, statusBytes])
    exact ⟨t, s.draw.1, s.draw.2.draw.1, served⟩
  case configRead =>
    intro p s asked inside
    refine exec_served (.configRead p)
      (a := { data := cfgBytes (if arg (argsOf s p) 0 1 = 0 then s.cfg else s.surv.stored) }) rfl asked
      (pathWho_mem_allWho p) ?_
    obtain which | which := Nat.le_one_iff_eq_zero_or_eq_one.mp inside <;> simp [which]
  case retireRead =>
    intro p s asked inside
    exact exec_served (.retireRead p) rfl asked (pathWho_mem_allWho p) (if_neg (Nat.not_lt.mpr inside))
  case shimRead =>
    intro p s asked
    exact exec_served (.shimRead p) rfl asked (pathWho_mem_allWho p) rfl

/-! Updates (R537, R541, R544, R548). -/

/-- An answer changes nothing of Surveyor's store. -/
theorem OnlyReplied.store {s t : State} (h : OnlyReplied s t) : t.surv.update = s.surv.update ∧
    t.surv.banks = s.surv.banks ∧ t.surv.active = s.surv.active ∧ t.surv.trial = s.surv.trial := by
  unfold OnlyReplied at h
  exact ⟨by rw [h], by rw [h], by rw [h], by rw [h]⟩

theorem OnlyReplied.surv {s u t : State} (h : OnlyReplied u t) (hu : u = { s with surv := u.surv }) :
    t = { s with surv := t.surv } := by
  unfold OnlyReplied at h
  rw [h, hu]

theorem OnlyReplied.freshSurv {s u t : State} (h : OnlyReplied u t)
    (hu : u = { s with fresh := u.fresh, surv := u.surv }) : t = { s with fresh := t.fresh, surv := t.surv } := by
  unfold OnlyReplied at h
  rw [h, hu]

theorem bankOf_congr {s t : State} (h : t.surv.banks = s.surv.banks) (comp b : Nat) : bankOf t comp b = bankOf s comp b := by
  rw [bankOf, bankOf, h]

/-- The bank b of a component takes x. -/
def putBank (s : State) (comp b : Nat) (x : BankSt) : State :=
  { s with surv := { s.surv with banks := aset {} s.surv.banks (2 * comp + b) x } }

theorem bankOf_putBank (s : State) (comp b : Nat) (x : BankSt) : bankOf (putBank s comp b x) comp b = x :=
  aget_aset {} s.surv.banks (2 * comp + b) x

/-- Data programmed at an offset stand there, behind whatever was kept and erased before them. -/
theorem programBytes_data (old data : List Nat) (next off : Nat) :
    ((programBytes old next off data).drop off).take data.length = data := by
  have kept : (if 4096 * (off / 4096) < next then off else 4096 * (off / 4096)) ≤ off := by
    split <;> omega
  unfold programBytes
  dsimp only
  generalize (if 4096 * (off / 4096) < next then off else 4096 * (off / 4096)) = keep at kept
  rw [List.append_assoc, List.append_assoc, List.drop_left' (by simp; omega), List.take_left' rfl]

/-- The state in which an update has begun. -/
def updateBegun (s : State) (x : UpdateSt) : State := { s with surv := { s.surv with update := some x } }

theorem updateOf_own {s : State} {p : MbPath} {u : UpdateSt} (running : s.surv.update = some u)
    (own : u.path = pathNo p) : updateOf s p = .ok u := by
  simp [updateOf, running, own]

/-- The bank of an update with data programmed at an offset. -/
def programmedBank (s : State) (u : UpdateSt) (off : Nat) (data : List Nat) : BankSt :=
  { bytes := some (programBytes (bankBytes s u.comp (otherBankOf s u.comp)) u.next off data), invalid := true }

/-- The state in which n bytes of data at an offset are programmed. -/
def updateProgrammed (s : State) (u : UpdateSt) (off n : Nat) (data : List Nat) : State :=
  updateBegun (putBank s u.comp (otherBankOf s u.comp) (programmedBank s u off data))
    { u with next := off + n, lastUs := s.uptimeUs }

theorem bankOf_updateProgrammed (s : State) (u : UpdateSt) (off n : Nat) (data : List Nat) :
    bankOf (updateProgrammed s u off n data) u.comp (otherBankOf s u.comp) = programmedBank s u off data :=
  aget_aset {} s.surv.banks (2 * u.comp + otherBankOf s u.comp) (programmedBank s u off data)

/-- The state in which an update has ended, its bank marked. -/
def updateEnded (s : State) (comp : Nat) (invalid : Bool) : State :=
  { s with surv := { s.surv with
      banks := aset {} s.surv.banks (2 * comp + otherBankOf s comp)
        { bankOf s comp (otherBankOf s comp) with invalid := invalid }
      update := none } }

theorem bankOf_updateEnded (s : State) (comp : Nat) (invalid : Bool) :
    (bankOf (updateEnded s comp invalid) comp (otherBankOf s comp)).invalid = invalid :=
  congrArg BankSt.invalid (aget_aset {} s.surv.banks (2 * comp + otherBankOf s comp) _)

/-- INVALID_IMAGE names the failed check; for a refused manifest its DETAIL is drawn. -/
theorem invalidImage_answers (s : State) (c : Nat) :
    ∃ n v, invalidImage s c = ({ s with fresh := n }, { status := 6, detail := v }) ∧ (c ≠ 6 → v = c) := by
  unfold invalidImage
  split
  next refused => exact ⟨_, _, rfl, fun h => absurd refused h⟩
  next => exact ⟨s.fresh, c, rfl, fun _ => rfl⟩

/-- The failed check for which UPDATE_ACTIVATE refuses the other bank, 0 for none. -/
def activateCheck (s : State) (comp : Nat) : Nat :=
  if (bankOf s comp (otherBankOf s comp)).invalid then 1 else updateCheck s comp

theorem activateCheck_marked {s : State} {comp : Nat} (h : (bankOf s comp (otherBankOf s comp)).invalid = true) :
    activateCheck s comp = 1 := if_pos h

theorem activateCheck_unmarked {s : State} {comp : Nat} (h : (bankOf s comp (otherBankOf s comp)).invalid = false) :
    activateCheck s comp = updateCheck s comp := if_neg (by simp [h])

/-- The state in which the other bank of a component is active, on trial. -/
def onTrial (s : State) (comp : Nat) : State :=
  { s with surv := { s.surv with
      active := aset 0 s.surv.active comp (otherBankOf s comp), trial := aset 0 s.surv.trial comp 1 } }

theorem exec_updateIdleTimeout_late {s : State} {u : UpdateSt} (running : s.surv.update = some u)
    (late : u.lastUs + 60000000 ≤ s.uptimeUs) :
    exec .updateIdleTimeout s = .next (logImage (updateEnded s u.comp true) u.comp 5) := by
  have ended : abandonUpdate s = updateEnded s u.comp true := by rw [abandonUpdate, running]; rfl
  change execUpdateIdleTimeout s = _
  rw [execUpdateIdleTimeout, running]
  exact congrArg _ ((if_pos late).trans (by rw [ended]))

/-- An answer INVALID_IMAGE to UPDATE_END or UPDATE_ACTIVATE leaves the state t but for the count of free values. -/
theorem exec_invalidImage (c : Instr) {s t : State} {p : MbPath} {cmd n x : Nat} {f : State → List Nat → State × MbAnswer}
    (meaning : exec c s = .next (mbServe s p cmd phv n f)) (asked : Asked s p cmd n) (may : pathWho p ≠ .sap)
    (serves : f s (argsOf s p) = invalidImage t x) :
    ∃ u k v, exec c s = .next u ∧ OnlyReplied { t with fresh := k } u ∧ Replied s u p 6 v [] ∧ (x ≠ 6 → v = x) := by
  obtain ⟨k, v, answer, detail⟩ := invalidImage_answers t x
  obtain ⟨u, ran, only, replied⟩ := exec_served c meaning asked (pathWho_mem_phv may) (serves.trans answer)
  exact ⟨u, k, v, ran, only, replied, detail⟩

theorem exec_updateBegin_begins {p : MbPath} {s : State} (asked : Asked s p 0x10 5) (may : pathWho p ≠ .sap)
    (idle : s.surv.update = none) (known : arg (argsOf s p) 0 1 ≤ 4) (least : 1024 ≤ arg (argsOf s p) 1 4)
    (most : arg (argsOf s p) 1 4 ≤ bankSize (arg (argsOf s p) 0 1)) :
    ∃ t, exec (.updateBegin p) s = .next t ∧
      OnlyReplied (updateBegun s ⟨arg (argsOf s p) 0 1, arg (argsOf s p) 1 4, 0, pathNo p, s.uptimeUs⟩) t ∧
      Replied s t p 0 0 [] := by
  have inside : ¬ (4 < arg (argsOf s p) 0 1 ∨ arg (argsOf s p) 1 4 < 1024 ∨
      bankSize (arg (argsOf s p) 0 1) < arg (argsOf s p) 1 4) := by omega
  exact exec_served (.updateBegin p) (a := {}) rfl asked (pathWho_mem_phv may) (by
    simp [inside, idle, abandonUpdate, updateBegun])

theorem exec_updateData_programs {p : MbPath} {u : UpdateSt} {s : State} (asked : Asked s p 0x11 5)
    (may : pathWho p ≠ .sap) (running : s.surv.update = some u) (own : u.path = pathNo p)
    (whole : 5 + arg (argsOf s p) 4 1 ≤ (argsOf s p).length) (most : arg (argsOf s p) 4 1 ≤ 240)
    (next : u.next ≤ arg (argsOf s p) 0 4) (inside : arg (argsOf s p) 0 4 + arg (argsOf s p) 4 1 ≤ u.size)
    (energy : energyOk s 100 = true) :
    ∃ t, exec (.updateData p) s = .next t ∧
      OnlyReplied (updateProgrammed s u (arg (argsOf s p) 0 4) (arg (argsOf s p) 4 1)
        (((argsOf s p).drop 5).take (arg (argsOf s p) 4 1))) t ∧ Replied s t p 0 0 [] := by
  have fits : ¬ (argsOf s p).length < 5 + arg (argsOf s p) 4 1 := by omega
  have inOrder : ¬ (240 < arg (argsOf s p) 4 1 ∨ arg (argsOf s p) 0 4 < u.next ∨
      u.size < arg (argsOf s p) 0 4 + arg (argsOf s p) 4 1) := by omega
  exact exec_served (.updateData p) (a := {}) rfl asked (pathWho_mem_phv may) (by
    simp only [updateOf_own running own]
    exact (if_neg fits).trans ((if_neg inOrder).trans (if_neg (by simp [energy]))))

section
variable {p : MbPath} {u : UpdateSt} {s : State}

theorem exec_updateEnd_sound (asked : Asked s p 0x12 0) (may : pathWho p ≠ .sap) (running : s.surv.update = some u)
    (own : u.path = pathNo p) (sound : updateCheck s u.comp = 0) :
    ∃ t, exec (.updateEnd p) s = .next t ∧ OnlyReplied (updateEnded s u.comp (updateCheck s u.comp != 0)) t ∧
      Replied s t p 0 0 [] :=
  exec_served (.updateEnd p) (a := {}) rfl asked (pathWho_mem_phv may) (by
    simp only [updateOf_own running own]
    exact if_pos sound)

theorem exec_updateEnd_fails (asked : Asked s p 0x12 0) (may : pathWho p ≠ .sap) (running : s.surv.update = some u)
    (own : u.path = pathNo p) (fails : updateCheck s u.comp ≠ 0) :
    ∃ t k v, exec (.updateEnd p) s = .next t ∧
      OnlyReplied { updateEnded s u.comp (updateCheck s u.comp != 0) with fresh := k } t ∧
      Replied s t p 6 v [] ∧ (updateCheck s u.comp ≠ 6 → v = updateCheck s u.comp) :=
  exec_invalidImage (.updateEnd p) rfl asked may (by
    simp only [updateOf_own running own]
    exact if_neg fails)

theorem exec_updateActivate_sound (asked : Asked s p 0x13 1) (may : pathWho p ≠ .sap) (idle : s.surv.update = none)
    (known : ¬ 4 < arg (argsOf s p) 0 1) (energy : energyOk s 300 = true)
    (sound : activateCheck s (arg (argsOf s p) 0 1) = 0) :
    ∃ t, exec (.updateActivate p) s = .next t ∧ OnlyReplied (onTrial s (arg (argsOf s p) 0 1)) t ∧
      Replied s t p 0 0 [] :=
  exec_served (.updateActivate p) (a := {}) rfl asked (pathWho_mem_phv may)
    ((if_neg known).trans ((if_neg (by simp [idle])).trans
      ((if_neg (not_not.mpr sound)).trans (if_neg (by simp [energy])))))

theorem exec_updateActivate_fails (asked : Asked s p 0x13 1) (may : pathWho p ≠ .sap) (idle : s.surv.update = none)
    (known : ¬ 4 < arg (argsOf s p) 0 1) (fails : activateCheck s (arg (argsOf s p) 0 1) ≠ 0) :
    ∃ t k v, exec (.updateActivate p) s = .next t ∧ OnlyReplied { s with fresh := k } t ∧ Replied s t p 6 v [] ∧
      (activateCheck s (arg (argsOf s p) 0 1) ≠ 6 → v = activateCheck s (arg (argsOf s p) 0 1)) :=
  exec_invalidImage (.updateActivate p) rfl asked may
    ((if_neg known).trans ((if_neg (by simp [idle])).trans (if_pos fails)))

end

/-- Settles O59: each command is served and leaves the state that is named for it above, which a store reads. -/
theorem updates : Obligations.Updates := by
  refine ⟨?begin, ?data, ?done, ?activate, ?idle⟩
  case begin =>
    intro p s asked may idle known least most
    obtain ⟨t, ran, only, replied⟩ := exec_updateBegin_begins asked may idle known least most
    exact ⟨t, ran, only.surv rfl, replied, only.store.1⟩
  case data =>
    intro p u s asked may running own whole most next inside energy
    obtain ⟨t, ran, only, replied⟩ := exec_updateData_programs asked may running own whole most next inside energy
    obtain ⟨update, banks, -, -⟩ := only.store
    have bank := (bankOf_congr banks ..).trans (bankOf_updateProgrammed ..)
    refine ⟨t, ran, only.surv rfl, replied, update, congrArg BankSt.invalid bank, ?_⟩
    have length : (((argsOf s p).drop 5).take (arg (argsOf s p) 4 1)).length = arg (argsOf s p) 4 1 := by
      rw [List.length_take, List.length_drop]
      omega
    have program := programBytes_data (bankBytes s u.comp (otherBankOf s u.comp))
      (((argsOf s p).drop 5).take (arg (argsOf s p) 4 1)) u.next (arg (argsOf s p) 0 4)
    rw [length] at program
    rw [bankBytes, bank]
    exact program
  case done =>
    intro p u s asked may running own c
    by_cases sound : c = 0
    · obtain ⟨t, ran, only, replied⟩ := exec_updateEnd_sound asked may running own sound
      obtain ⟨update, banks, -, -⟩ := only.store
      exact ⟨t, ran, only.freshSurv rfl, update, by rw [bankOf_congr banks, bankOf_updateEnded],
        fun _ => replied, fun bad => absurd sound bad, fun six => absurd (sound.symm.trans six) (by decide)⟩
    · obtain ⟨t, k, v, ran, only, replied, detail⟩ := exec_updateEnd_fails asked may running own sound
      obtain ⟨update, banks, -, -⟩ := only.store
      refine ⟨t, ran, only.freshSurv rfl, update, ?_, fun good => absurd good sound,
        fun _ named => ?_, fun _ => ⟨v, replied⟩⟩
      · exact (congrArg BankSt.invalid (bankOf_congr banks ..)).trans (bankOf_updateEnded s u.comp (c != 0))
      · rw [detail named] at replied
        exact replied
  case activate =>
    intro p s comp asked may idle known energy
    by_cases sound : activateCheck s comp = 0
    · obtain ⟨t, ran, only, replied⟩ := exec_updateActivate_sound asked may idle (Nat.not_lt.mpr known) energy sound
      obtain ⟨-, -, active, trial⟩ := only.store
      refine ⟨t, ran, only.freshSurv rfl, fun marked => ?_, fun _ _ => ⟨?_, ?_, replied⟩⟩
      · exact absurd (sound.symm.trans (activateCheck_marked marked)) (by decide)
      · exact (congrArg (aget 0 · comp) active).trans (aget_aset 0 s.surv.active comp _)
      · exact (congrArg (aget 0 · comp) trial).trans (aget_aset 0 s.surv.trial comp 1)
    · obtain ⟨t, k, v, ran, only, replied, detail⟩ := exec_updateActivate_fails asked may idle (Nat.not_lt.mpr known) sound
      obtain ⟨-, -, active, -⟩ := only.store
      refine ⟨t, ran, only.freshSurv rfl, fun marked => ⟨?_, active⟩, fun unmarked passes => ?_⟩
      · have first : activateCheck s (arg (argsOf s p) 0 1) = 1 := activateCheck_marked marked
        rw [first] at detail
        exact detail (by decide) ▸ replied
      · exact absurd ((activateCheck_unmarked unmarked).trans passes) sound
  case idle =>
    intro u s running late
    have entry := logImage_only (updateEnded s u.comp true) u.comp 5
    refine ⟨_, exec_updateIdleTimeout_late running late, ?_, ?_, ?_⟩
    · rw [entry]
      rfl
    · rw [entry]
      rfl
    · rw [entry]
      exact bankOf_updateEnded s u.comp true

end Sys2Proof.Machine
end

section
/-!
PROOF. The service port's MCTP and PLDM commands (R549): while Surveyor runs, its endpoint answers.
-/
namespace Sys2Proof.Machine

/-- The endpoint's meaning f is carried out, and its answer goes out on the service port. -/
theorem exec_endpoint (c : Instr) {s t : State} {f : State → State × List Nat} {r : List Nat}
    (meaning : exec c s = .next (mctpReply s f))
    (powered : s.surv.step ≠ .unpowered) (up : s.surv.step ≠ .charging) (answers : f s = (t, r)) :
    exec c s = .next { t with surv := { t.surv with service := some r } } := by
  rw [meaning, mctpReply, if_neg (not_or.mpr ⟨powered, up⟩), answers]

/-- The handle of the record behind handle h, and 0 behind the last: handle 0 asks for the first record, whose handle
is 1. -/
theorem pdrNext_eq {h : Nat} (known : h ≤ 45) :
    (if h - 1 = 44 then 0 else h - 1 + 2) = if h = 45 then 0 else max h 1 + 1 := by
  by_cases last : h = 45
  · rw [if_pos last, if_pos (by omega)]
  · rw [if_neg last, if_neg (by omega)]
    omega

/-- Settles O60: every command is `exec_endpoint`, with the answer that its meaning gives. -/
theorem servicePort : Obligations.ServicePort := by
  intro s powered up
  refine ⟨?setEid, ?getEid, ?version, ?messageTypes, ?tid, ?pldmVersion, ?pldmTypes, ?pldmCommands, ?pdr, ?reading⟩
  case setEid =>
    intro eid usable notAll
    exact ⟨_, exec_endpoint (.setEndpointId eid) rfl powered up (if_neg (not_or.mpr ⟨usable, notAll⟩)), rfl⟩
  case getEid => exact ⟨_, exec_endpoint .getEndpointId rfl powered up rfl, rfl⟩
  case version => exact ⟨_, s.draw.1, exec_endpoint .getMctpVersionSupport rfl powered up rfl, rfl⟩
  case messageTypes => exact ⟨_, exec_endpoint .getMessageTypeSupport rfl powered up rfl, rfl⟩
  case tid => exact ⟨_, s.draw.1, exec_endpoint .gettid rfl powered up rfl, rfl⟩
  case pldmVersion =>
    exact ⟨_, s.draw.1, s.draw.2.draw.1, exec_endpoint .getpldmversion rfl powered up rfl, rfl⟩
  case pldmTypes => exact ⟨_, exec_endpoint .getpldmtypes rfl powered up rfl, rfl⟩
  case pldmCommands =>
    intro type
    refine ⟨_, exec_endpoint (.getpldmcommands type) rfl powered up (r := _) ?_, rfl⟩
    split_ifs <;> rfl
  case pdr =>
    intro h known
    refine ⟨_, _, exec_endpoint (.getpdr h) rfl powered up (if_neg (by omega)), rfl, ?_⟩
    rw [pdrNext_eq known]
    simp only [List.append_assoc]
    rw [← List.append_assoc [0], List.take_left' (by simp [leBytes_length])]
  case reading =>
    intro id known
    exact ⟨_, s.draw.1, exec_endpoint (.getsensorreading id) rfl powered up (if_neg (Nat.not_le.mpr known)), rfl⟩

end Sys2Proof.Machine
end

section
/-!
PROOF. Loss of mains (R538): the load is shed, and the log reaches flash as the energy permits (R537, R539).
-/
namespace Sys2Proof.Machine

/-! Shedding the load. -/

theorem setLink_rises {s0 s : State} (n hi lo v : Nat) (h : Rises s0 s) : Rises s0 (setLink s n hi lo v) := by
  refine State.setPf_rises ?_ h
  simp only [pageBase, Reg.DPLINK_LINK_STATUS, Reg.WORLD_HW_CTRL]
  omega

theorem linkIdle_rises {s0 s : State} (n : Nat) (h : Rises s0 s) : Rises s0 (linkIdle s n) :=
  setLink_rises _ _ _ _ (setLink_rises _ _ _ _ (setLink_rises _ _ _ _ h))

theorem stopGenerator_rises {s0 s : State} (n : Nat) (pll : PllPhase) (h : Rises s0 s) :
    Rises s0 (stopGenerator s n pll) := setLink_rises _ _ _ _ (State.setHead_rises h)

theorem shedHeads_rises {s0 s : State} (h : Rises s0 s) : Rises s0 (shedHeads s) :=
  Rises.foldl h fun _ _ h => setLink_rises _ _ _ _ (linkIdle_rises _ (State.setHead_rises
    (Rises.ite h (stopGenerator_rises _ _ h))))

theorem sinksSilent_rises {s0 s : State} (h : Rises s0 s) :
    Rises s0 ((List.range 4).foldl (fun s p => s.setPf .audio (Reg.AUDIO_SIL_TIME + 8 * p) 31 31 0) s) := by
  simp only [show List.range 4 = [0, 1, 2, 3] from rfl, List.foldl_cons, List.foldl_nil]
  exact State.setPf_rises (by decide) (State.setPf_rises (by decide) (State.setPf_rises (by decide)
    (State.setPf_rises (by decide) h)))

/-- The state in which heads, haptics and sinks have stopped for want of power. -/
def shedStopped (s : State) : State :=
  (List.range 4).foldl (fun s p => s.setPf .audio (Reg.AUDIO_SIL_TIME + 8 * p) 31 31 0)
    ((List.range 16).foldl hapStop (shedHeads (raiseFault s .clkpwr 5)))

theorem shedStopped_rises (s : State) : Rises (raiseFault s .clkpwr 5) (shedStopped s) := by
  have stopped := Rises.foldl (l := List.range 16) (shedHeads_rises (Rises.refl (raiseFault s .clkpwr 5)))
    fun _ ch h => hapStop_rises ch h
  exact sinksSilent_rises stopped

/-- The state in which the load is shed, before the relay follows. -/
def shedLoad (s : State) : State :=
  ({ shedStopped s with
    sched := { (shedStopped s).sched with jobs := [], trans := [], preempting := [] },
    surv := { (shedStopped s).surv with step := .shed, dpPwr := false } }).setPf .sched Reg.SCHED_JOBS 10 0 0

theorem shedLoad_rises (s : State) : Rises (raiseFault s .clkpwr 5) (relayUpdate (shedLoad s)) :=
  relayUpdate_rises (State.setPf_rises (by decide) (Rises.lit (shedStopped_rises s)))

theorem shedLoad_jobs (s : State) : (relayUpdate (shedLoad s)).pf .sched Reg.SCHED_JOBS 10 0 = 0 :=
  (congrArg (fget · 10 0) (relayUpdate_reg ..)).trans (State.pf_setPf_fits (by decide) (by decide) (by decide))

theorem exec_loadShed_due {s : State} {t0 : Nat} (low : s.surv.acLowAt = some t0) (live : s.mode.mode ≠ .held)
    (loaded : loadIsShed s = false) (due : t0 + 20000 ≤ s.uptimeUs) :
    exec .loadShed s = .next (relayUpdate (shedLoad s)) := by
  change execLoadShed s = _
  have waits : ¬ (s.mode.mode = .held ∨ loadIsShed s = true ∨ s.uptimeUs < t0 + 20000) := by
    simp [live, loaded, due]
  rw [execLoadShed, low]
  exact if_neg waits

/-! Held after load shedding. -/

/-- What becomes of mains is no matter of entering Held. -/
theorem toHeld_mains (s : State) (step : BootStep) (full : Bool) : (toHeld s step full).surv.mains = s.surv.mains := by
  by_cases held : s.mode.mode = .held
  · rw [toHeld_of_held step full held]
    rfl
  · rw [toHeld_of_live step full held, State.logAdd_only]
    rfl

/-- The bulk voltage that Surveyor has sampled. -/
def bulkSampled (s : State) (bulk : BitVec 16) : State := { s with surv := { s.surv with bulk := bulk.toNat } }

theorem exec_holdupHeld_ends {s : State} {bulk rail12 : BitVec 16} {ac : Bool} (shed : loadIsShed s = true)
    (committed : s.log.queue = []) (falls : bulk.toNat < 2600 ∨ rail12.toNat < 11000 ∨ ac = true) :
    let t := toHeld (bulkSampled s bulk) (if ac then .railsGood else .surveyorUp) false
    exec (.holdupHeld bulk rail12 ac) s = .next { t with surv := { t.surv with mains := t.surv.mains && ac } } := by
  have shed' : loadIsShed (bulkSampled s bulk) = true := shed
  have ends : (loadIsShed (bulkSampled s bulk) && (bulkSampled s bulk).log.queue.isEmpty &&
      (decide (bulk.toNat < 2600) || decide (rail12.toNat < 11000) || ac)) = true := by
    have queue : (bulkSampled s bulk).log.queue = [] := committed
    simpa only [shed', queue, List.isEmpty_nil, Bool.true_and, Bool.or_eq_true, decide_eq_true_eq, or_assoc] using falls
  exact if_pos ends

/-! Page programs. -/

/-- With room in flash, a page program moves the four oldest entries there; the first notes a deferral. -/
theorem commitLog_log {s : State} {e : LogEntry} {rest : List LogEntry} (queued : s.log.queue = e :: rest)
    (room : s.log.flash.length + 4 ≤ 32768) :
    (commitLog s).log.queue = s.log.queue.drop 4 ∧
      (commitLog s).log.flash = s.log.flash ++ { e with deferral := e.deferral || s.surv.deferred } :: rest.take 3 := by
  have fits : (s.log.flash ++ { e with deferral := e.deferral || s.surv.deferred } :: rest.take 3).length - 32768 = 0 := by
    simp
    omega
  refine ⟨rfl, ?_⟩
  simp only [commitLog, queued, List.take_succ_cons, fits, List.drop_zero]

theorem exec_flashOperation_tries {s : State} {bulk : BitVec 16} (queued : s.log.queue ≠ [])
    (powered : s.surv.step ≠ .unpowered) (up : s.surv.step ≠ .charging) :
    exec (.flashOperation bulk) s = .next (flashTry (bulkSampled s bulk)) := by
  have works : ¬ (s.log.queue.isEmpty || s.surv.step == .unpowered || s.surv.step == .charging) = true := by
    simp [queued, powered, up]
  exact congrArg Host.Outcome.next (if_neg works)

theorem exec_flashDeferRetry_tries {s : State} {bulk : BitVec 16} (deferred : s.surv.deferred = true) :
    exec (.flashDeferRetry bulk) s = .next (flashTry (bulkSampled s bulk)) :=
  congrArg Host.Outcome.next (if_pos deferred)

theorem flashTry_commits {s : State} (energy : energyOk s 100 = true) : flashTry s = commitLog s := if_pos energy

theorem flashTry_defers {s : State} (energy : energyOk s 100 = false) (fresh : s.surv.deferred = false) :
    flashTry s = { s.logAdd .power 39 1 0 with surv := { s.surv with deferred := true } } :=
  (if_neg (by simp [energy])).trans (if_neg (by simp [fresh]))

/-- Settles O54: each command's effect is one of the states above; the fault shows by `raiseFault_bit`, and a page
program is `commitLog` or its deferral. -/
theorem mainsLoss : Obligations.MainsLoss := by
  refine ⟨?shed, ?held, ?program, ?defer, ?retry⟩
  case shed =>
    intro t0 s low live loaded due
    have rises := shedLoad_rises s
    refine ⟨_, exec_loadShed_due low live loaded due, rfl, rfl, rfl, ?_, ?_, rfl, ?_⟩
    · exact shedLoad_jobs s
    · exact rises.bits _ (Or.inr (faultStatus_mod .clkpwr)) 5 (raiseFault_bit s .clkpwr 5 false (by decide))
    · exact rises.keeps.mem.trans (raiseFault_rises .clkpwr 5 false (Rises.refl s)).keeps.mem
  case held =>
    intro bulk rail12 ac s shed committed falls
    have held := toHeld_inHeld (bulkSampled s bulk) (if ac then .railsGood else .surveyorUp) false
    refine ⟨_, exec_holdupHeld_ends shed committed falls, held.mode, held.step, ?_, fun live => ?_⟩
    · exact congrArg (· && ac) (toHeld_mains (bulkSampled s bulk) _ false)
    · obtain ⟨-, die⟩ := toHeld_enters (s := bulkSampled s bulk) (if ac then .railsGood else .surveyorUp) false live
      exact ⟨die.regs, die.mem⟩
  case program =>
    intro bulk s queued powered up room fresh energy
    obtain ⟨e, rest, queue⟩ := List.exists_cons_of_ne_nil queued
    obtain ⟨queueLeft, flash⟩ := commitLog_log (s := bulkSampled s bulk) queue room
    have undeferred : (bulkSampled s bulk).surv.deferred = false := fresh
    rw [undeferred, Bool.or_false] at flash
    have ran := (exec_flashOperation_tries queued powered up).trans (congrArg _ (flashTry_commits energy))
    exact ⟨_, ran, rfl, queueLeft, by rw [flash, queue]; rfl, rfl, rfl⟩
  case defer =>
    intro bulk s queued powered up fresh energy
    have ran := (exec_flashOperation_tries queued powered up).trans (congrArg _ (flashTry_defers energy fresh))
    refine ⟨_, ran, rfl, ?_, ?_, ?_, ?_⟩
    · exact State.logAdd_prefix (bulkSampled s bulk) ..
    · exact State.logAdd_flash (bulkSampled s bulk) ..
    · exact State.logAdd_regs (bulkSampled s bulk) ..
    · exact State.logAdd_mem (bulkSampled s bulk) ..
  case retry =>
    intro bulk e rest s deferred queued room energy
    obtain ⟨queueLeft, flash⟩ := commitLog_log (s := bulkSampled s bulk) queued room
    have noted : (bulkSampled s bulk).surv.deferred = true := deferred
    rw [noted, Bool.or_true] at flash
    exact ⟨_, (exec_flashDeferRetry_tries deferred).trans (congrArg _ (flashTry_commits energy)), rfl, queueLeft, flash⟩

end Sys2Proof.Machine
end

section
/-!
PROOF. Telemetry (R540), the power of units (R535), and DP_PWR (R587).
-/
namespace Sys2Proof.Machine

/-! Telemetry. -/

theorem exec_telemetryRecord_writes {s t : State} (on : s.surv.telemetry.en = true) (live : s.mode.mode ≠ .held)
    (slots : s.surv.telemetry.count ≠ 0)
    (written : (busWrite s 0x19 (s.surv.telemetry.owner == 0x40)
      (s.surv.telemetry.base + 4096 * (s.surv.telemetry.seq % s.surv.telemetry.count)) (telemetryBytes s)).1 = t) :
    exec .telemetryRecord s = .next { t with surv := { t.surv with
      telemetry := { s.surv.telemetry with seq := (s.surv.telemetry.seq + 1) % 2 ^ 32 } } } := by
  subst written
  exact if_neg (by simp [on, live, slots])

/-- A change of Surveyor's parts is among those of a store. -/
theorem StoreParts.withSurv {s t : State} (h : StoreParts s t) (x : SurvSt) : StoreParts s { t with surv := x } := by
  unfold StoreParts at *
  rw [h]

/-! The power of units. -/

theorem setHf_registerParts (s : State) (p : Page) (h : Hdr) (hi lo v : Nat) : RegisterParts s (s.setHf p h hi lo v) := rfl

theorem invalidateRun_surv (s : State) (n r code : Nat) : (invalidateRun s n r code).surv = s.surv := by
  unfold invalidateRun
  split <;> simp

theorem invalidateWhere_surv (s : State) (n code : Nat) (p : Run → Bool) : (invalidateWhere s n code p).surv = s.surv :=
  State.foldl_invariant (fun t => t.surv = s.surv) _ _ s rfl fun t r h => (invalidateRun_surv t n r.idx code).trans h

theorem stopGenerator_surv (s : State) (n : Nat) (pll : PllPhase) : (stopGenerator s n pll).surv = s.surv :=
  (State.setPf_surv ..).trans (State.setHead_surv ..)

theorem unpend_surv (s : State) (p : Page) : (unpend s p).surv = s.surv := by
  unfold unpend
  split
  · exact (State.setHd_surv ..).trans (State.setPend_surv ..)
  · rfl

/-- Surveyor's own parts are no block's, but for the mailbox and the B4 model's requests. -/
theorem resetHidden_surv (s : State) {p : Page} (h : p ≠ .surveyorMb ∧ p ≠ .legacy) :
    (resetHidden s p).surv = s.surv := by
  cases p with
  | timing n =>
    change (if (s.head n).pll = .off then s else stopGenerator s n .stopping).surv = s.surv
    split
    · rfl
    · exact stopGenerator_surv s n .stopping
  | composer n => exact (State.setHead_surv ..).trans (invalidateWhere_surv s n 9 _)
  | veneer => exact State.foldl_invariant (fun t => t.surv = s.surv) _ _ s rfl fun _ _ h => h
  | surveyorMb => exact absurd rfl h.1
  | legacy => exact absurd rfl h.2
  | _ => rfl

theorem resetBlock_surv (s : State) {p : Page} (h : p ≠ .surveyorMb ∧ p ≠ .legacy) :
    (resetBlock s p).surv = s.surv := by
  have hidden : (resetHidden (resetRegs (unpend s p) p) p).surv = s.surv :=
    (resetHidden_surv (resetRegs (unpend s p) p) h).trans (unpend_surv s p)
  cases p with
  | dplink n => exact (State.setPf_surv ..).trans hidden
  | audio =>
    refine State.foldl_invariant (fun t => t.surv = s.surv) _ _ _ hidden fun t i h => ?_
    split
    · exact (State.setPf_surv ..).trans h
    · exact h
  | _ => exact hidden

theorem unitPages_blocks (u : Nat) : ∀ p ∈ unitPages u ++ unitLayers u, p ≠ .surveyorMb ∧ p ≠ .legacy := by
  unfold unitPages unitLayers
  split_ifs <;> simp

theorem readyChange_ready (was s : State) (p q : Page) : (readyChange was s p).ready q = s.ready q := by
  have apart : hadr q .ready ≠ hadr .dev .irqStatus := fun e =>
    (hdr_apart q .ready (by decide) (by decide)).1 (e ▸ irq_mod .dev)
  exact congrArg (fbit · 0) ((readyChange_only was s p).2 _ (by simpa using apart))

/-- A page that is cleared is not READY; every other page is as READY as before. -/
theorem clearReady_ready (s : State) (p q : Page) (reason : Nat) :
    (s.clearReady q reason).ready p = (s.ready p && decide (hadr p .ready ≠ hadr q .ready)) := by
  rw [State.clearReady, readyChange_ready]
  by_cases same : hadr p .ready = hadr q .ready
  · simp [State.ready, State.hd, same, fbit_fset]
  · simp [State.ready, State.hd, same]

theorem cleared_stays {l : List Page} {s : State} {p : Page} (h : s.ready p = false) (reason : Nat) :
    (l.foldl (fun s q => s.clearReady q reason) s).ready p = false :=
  State.foldl_invariant (fun t => t.ready p = false) _ l s h fun t q h => by rw [clearReady_ready, h, Bool.false_and]

theorem cleared_all {l : List Page} {s : State} {p : Page} (h : p ∈ l) (reason : Nat) :
    (l.foldl (fun s q => s.clearReady q reason) s).ready p = false := by
  induction l generalizing s with
  | nil => cases h
  | cons q l ih =>
    have off : (s.clearReady q reason).ready q = false := by simp [clearReady_ready]
    obtain rfl | later := List.mem_cons.mp h
    · exact cleared_stays off reason
    · exact ih later

theorem cleared_parts (l : List Page) (s : State) (reason : Nat) :
    RegisterParts s (l.foldl (fun s q => s.clearReady q reason) s) :=
  State.foldl_invariant (RegisterParts s) _ l s rfl fun t q h => h.trans (clearReady_only t q reason).1

/-- UNIT_CTRL of a unit is in force. -/
def unitSet (s : State) (u new : Nat) : State :=
  { s with surv := { s.surv with units := aset 0 s.surv.units u new } }

/-- The pages and layer blocks of a unit that are not fenced. -/
def unitBlocks (s : State) (u : Nat) : List Page := (unitPages u ++ unitLayers u).filter (fun p => !s.fenced p)

/-- A block is READY again after its reset (R535). -/
def reinit (s : State) (p : Page) : State := ((resetBlock s p).setBusy p false).setReady p

theorem unitOp_selected {s : State} {u : Nat} (v : Word) (selected : unitOf s = some u) : unitOp s v =
    if fget v 2 0 ≠ 0 then (unitBlocks s u).foldl (fun s p => s.clearReady p 1) (unitSet s u (fget v 2 0))
    else if aget 0 s.surv.units u ≠ 0 then (unitBlocks s u).foldl reinit (unitSet s u (fget v 2 0))
    else unitSet s u (fget v 2 0) := by
  rw [unitOp, selected]
  rfl

theorem reinit_surv (s : State) {p : Page} (h : p ≠ .surveyorMb ∧ p ≠ .legacy) : (reinit s p).surv = s.surv := by
  have ready := (setReady_only ((resetBlock s p).setBusy p false) p).1
  rw [reinit, ready]
  exact resetBlock_surv s h

theorem reinits_surv {l : List Page} (s : State) (h : ∀ p ∈ l, p ≠ .surveyorMb ∧ p ≠ .legacy) :
    (l.foldl reinit s).surv = s.surv := by
  induction l generalizing s with
  | nil => rfl
  | cons p l ih =>
    exact (ih (reinit s p) fun q hq => h q (.tail _ hq)).trans (reinit_surv s (h p (.head _)))

theorem unitOp_units {s : State} {u : Nat} (v : Word) (selected : unitOf s = some u) :
    aget 0 (unitOp s v).surv.units u = fget v 2 0 := by
  have set : aget 0 (unitSet s u (fget v 2 0)).surv.units u = fget v 2 0 := aget_aset ..
  rw [unitOp_selected v selected]
  split_ifs
  · have parts := cleared_parts (unitBlocks s u) (unitSet s u (fget v 2 0)) 1
    rw [parts]
    exact set
  · have surv := reinits_surv (l := unitBlocks s u) (unitSet s u (fget v 2 0))
      fun p hp => unitPages_blocks u p (List.mem_filter.mp hp).1
    rw [surv]
    exact set
  · exact set

theorem exec_unitCtrlWrite_taken {s : State} {m : Master} {value : Word}
    (accepts : Accepts s m (pageBase .clkpwr + Reg.CLKPWR_UNIT_CTRL))
    (allowed : unitCheck (taken s m (pageBase .clkpwr + Reg.CLKPWR_UNIT_CTRL)) value = none) :
    exec (.unitCtrlWrite m value) s = .next ((unitOp (taken s m (pageBase .clkpwr + Reg.CLKPWR_UNIT_CTRL)) value).noteWrite
      (pageBase .clkpwr + Reg.CLKPWR_UNIT_CTRL)) :=
  congrArg Host.Outcome.next (writeReg_taken (check := fun s => unitCheck s value) (op := fun s => unitOp s value)
    accepts allowed)

/-! DP_PWR. -/

/-- A receptacle is switched off after an overload. -/
def overloaded (s : State) (n : Nat) : State := { s with surv := { s.surv with dpOff := s.surv.dpOff ++ [n] } }

/-- The first entry under a limit is queued where there is room (R537). -/
theorem logLimited_first {s : State} {key : Nat} (interval : Nat) (k : LogKind) (place code : Nat)
    (first : aget 0 s.log.limitAt key = 0) (room : s.log.queue.length < 1024) :
    ∃ e, (s.logLimited key interval k place code 0).log.queue = s.log.queue ++ [e] ∧ e.kind = k ∧ e.place = place := by
  have due : s.logLimited key interval k place code 0 = _ := if_pos (Or.inl first)
  rw [due]
  exact ⟨_, State.logPut_room _ room, rfl, rfl⟩

/-- Settles O55: the record is written by `busWrite`, UNIT_CTRL is `unitOp_selected`, which clears READY of a unit's
pages (`cleared_all`), and an overload is logged by `logLimited`. -/
theorem telemetryAndPower : Obligations.TelemetryAndPower := by
  refine ⟨?telemetry, ?units, ?overload, ?retry⟩
  case telemetry =>
    intro s on live slots tl
    have wrote := busWrite_wrote s 0x19 (tl.owner == 0x40) (tl.base + 4096 * (tl.seq % tl.count)) (telemetryBytes s)
    generalize written : (busWrite s 0x19 (tl.owner == 0x40) (tl.base + 4096 * (tl.seq % tl.count))
      (telemetryBytes s)).1 = t at wrote ⊢
    exact ⟨_, exec_telemetryRecord_writes on live slots written, wrote.parts.withSurv _, rfl, wrote.bytes, rfl⟩
  case units =>
    intro m value u s a accepts selected allowed
    refine ⟨_, exec_unitCtrlWrite_taken accepts allowed, unitOp_units value selected, fun off p page sound => ?_,
      fun off => ?_⟩
    · change (unitOp (taken s m a) value).ready p = false
      rw [unitOp_selected value selected, if_pos off]
      exact cleared_all (List.mem_filter.mpr ⟨List.mem_append_left _ page, by rw [sound]; rfl⟩) 1
    · change (unitOp (taken s m a) value).mem = _
      rw [unitOp_selected value selected, if_pos off]
      exact (cleared_parts ..).mem
  case overload =>
    intro n s on lit
    have powered : ¬ (!s.surv.dpPwr || s.surv.dpOff.contains n.val) = true := by simp [on, lit]
    have log := State.logLimited_only (overloaded s n) (3200 + n.val) 1000000000 .power (10 + n.val) 2 0
    refine ⟨_, if_neg powered, ?_, ?_, fun first room => ?_⟩
    · rw [← overloaded, log]
      rfl
    · rw [← overloaded, log]
      rfl
    · exact logLimited_first (s := overloaded s n) _ _ _ _ first room
  case retry =>
    intro n s
    refine ⟨_, rfl, rfl, ?_, fun k other => ?_⟩
    · simp
    · simp [other]

end Sys2Proof.Machine
end

section
/-!
SUPPORT. What the native writes of the LEGACY block leave of the window's own state and of memory: a commit, a refusal
and a disable touch neither (R553, R566, R567).
-/
namespace Sys2Proof.Machine

/-- t has the window's state and the memory of s. -/
structure WindowKeeps (s t : State) : Prop where
  b4 : t.b4 = s.b4
  mem : t.mem = s.mem

theorem WindowKeeps.refl (s : State) : WindowKeeps s s := ⟨rfl, rfl⟩

theorem WindowKeeps.trans {s t u : State} (h : WindowKeeps s t) (k : WindowKeeps t u) : WindowKeeps s u :=
  ⟨k.b4.trans h.b4, k.mem.trans h.mem⟩

theorem WindowKeeps.foldl {β : Type} {f : State → β → State} (l : List β) (s : State)
    (each : ∀ x b, WindowKeeps x (f x b)) : WindowKeeps s (l.foldl f s) :=
  State.foldl_invariant (WindowKeeps s) f l s (.refl s) fun x b h => h.trans (each x b)

theorem WindowKeeps.ite {s a b : State} {c : Prop} [Decidable c] (ha : WindowKeeps s a) (hb : WindowKeeps s b) :
    WindowKeeps s (if c then a else b) := by
  split
  · exact ha
  · exact hb

theorem Rises.windowKeeps {s t : State} (h : Rises s t) : WindowKeeps s t := ⟨h.keeps.b4, h.keeps.mem⟩

section
variable {s t : State} (h : WindowKeeps s t)
include h

theorem WindowKeeps.setReg {a : Nat} {v : Word} : WindowKeeps s (t.setReg a v) := ⟨h.b4, h.mem⟩

theorem WindowKeeps.setPr {p : Page} {o : Nat} {v : Word} : WindowKeeps s (t.setPr p o v) := h.setReg

theorem WindowKeeps.setPf {p : Page} {o hi lo v : Nat} : WindowKeeps s (t.setPf p o hi lo v) := h.setReg

theorem WindowKeeps.setHd {p : Page} {r : Hdr} {v : Word} : WindowKeeps s (t.setHd p r v) := h.setReg

theorem WindowKeeps.setHf {p : Page} {r : Hdr} {hi lo v : Nat} : WindowKeeps s (t.setHf p r hi lo v) := h.setReg

theorem WindowKeeps.setBusy {p : Page} {b : Bool} : WindowKeeps s (t.setBusy p b) := h.setHf

theorem WindowKeeps.count {p : Page} {o : Nat} : WindowKeeps s (t.count p o) := h.setReg

theorem WindowKeeps.hwBits {a mask : Nat} : WindowKeeps s (t.hwBits a mask) := ⟨h.b4, h.mem⟩

theorem WindowKeeps.event {p : Page} {k : Nat} : WindowKeeps s (t.event p k) := h.hwBits

theorem WindowKeeps.setPend {p : Page} {x : Option PendStage} : WindowKeeps s (t.setPend p x) := ⟨h.b4, h.mem⟩

theorem WindowKeeps.setHead {n : Nat} {x : HeadSt} : WindowKeeps s (t.setHead n x) := ⟨h.b4, h.mem⟩

theorem WindowKeeps.setShd {a : Nat} {v : Word} : WindowKeeps s (t.setShd a v) := ⟨h.b4, h.mem⟩

theorem WindowKeeps.draw : WindowKeeps s t.draw.2 := ⟨h.b4, h.mem⟩

theorem WindowKeeps.setLog {l : LogSt} : WindowKeeps s { t with log := l } := ⟨h.b4, h.mem⟩

theorem WindowKeeps.logAdd {k : LogKind} {place code addr : Nat} : WindowKeeps s (t.logAdd k place code addr) := by
  rw [State.logAdd_only]
  exact h.setLog

theorem WindowKeeps.setLink {n hi lo v : Nat} : WindowKeeps s (setLink t n hi lo v) := h.setPf

theorem WindowKeeps.linkIdle {n : Nat} : WindowKeeps s (linkIdle t n) := h.setLink.setLink.setLink

theorem WindowKeeps.invalidateWhere {n code : Nat} {p : Run → Bool} : WindowKeeps s (invalidateWhere t n code p) :=
  h.trans (invalidateWhere_rises n code p (Rises.refl t)).windowKeeps

theorem WindowKeeps.commitResult {p : Page} {seq reject : Nat} {pending : Bool} :
    WindowKeeps s (commitResult t p seq reject pending) := h.setHd

end

/-! Pending stages. -/

theorem putStage_windowKeeps (s : State) (p : Page) : WindowKeeps s (putStage s p) := by
  unfold putStage
  split
  · exact .refl s
  · next st _ =>
    have put : WindowKeeps s ((shdRegs p).foldl (fun s r =>
        match st.vals.find? (fun e => e.1 == r.1) with
        | some e => putShd s r.2 e
        | none => s) s) := by
      refine WindowKeeps.foldl _ s fun x r => ?_
      split
      · exact (WindowKeeps.refl x).setReg
      · exact .refl x
    exact put.setPend.commitResult

theorem stageShadow_windowKeeps (s : State) (p : Page) (m : Master) (seq cost : Nat) :
    WindowKeeps s (stageShadow s p m seq cost) :=
  WindowKeeps.ite (WindowKeeps.refl s).setPend.setHd.hwBits (WindowKeeps.refl s).setPend.setHd

theorem applyTiming_windowKeeps (s : State) (n : Nat) (rec : Bool) : WindowKeeps s (applyTiming s n rec) := by
  unfold applyTiming
  split
  · exact .refl s
  · exact (putStage_windowKeeps s (.timing n)).setHead.invalidateWhere

theorem applyComposer_windowKeeps (s : State) (n : Nat) (rec : Bool) : WindowKeeps s (applyComposer s n rec) := by
  unfold applyComposer
  split
  · exact .refl s
  · exact WindowKeeps.ite (putStage_windowKeeps s (.composer n)).setHead.invalidateWhere
      (putStage_windowKeeps s (.composer n)).setHead

theorem retireSet_windowKeeps (s : State) (n l seq : Nat) : WindowKeeps s (retireSet s n l seq) :=
  (WindowKeeps.refl s).setHead.setPf.setPf.setPr

theorem applyLayer_windowKeeps (s : State) (n l band first : Nat) (rec : Bool) :
    WindowKeeps s (applyLayer s n l band first rec) := by
  unfold applyLayer
  extract_lets p
  split
  · exact .refl s
  · have retired {c : Prop} [Decidable c] (seq : Nat) : WindowKeeps s (if c then retireSet s n l seq else s) :=
      WindowKeeps.ite (retireSet_windowKeeps s n l seq) (.refl s)
    exact ((retired _).trans (putStage_windowKeeps _ (.layer n l))).setPf.setPf.setHead.invalidateWhere

theorem layerEvent_windowKeeps (s : State) (code bit : Nat) : WindowKeeps s (layerEvent s code bit) :=
  (layerEvent_rises code bit (Rises.refl s)).windowKeeps

theorem markLate_windowKeeps (s : State) (n bits : Nat) (p : Page) : WindowKeeps s (markLate s n bits p) := by
  have late := (WindowKeeps.refl s).hwBits (a := pageBase (.composer n) + Reg.COMPOSER_FLIP_STATUS) (mask := bits + 1)
    |>.event (p := .composer n) (k := 1)
  cases p with
  | layer a b => exact late.trans (layerEvent_windowKeeps ..)
  | _ => exact late

theorem commitTiming_windowKeeps (s : State) (p : Page) : WindowKeeps s (commitTiming s p) := by
  unfold commitTiming
  split
  · exact WindowKeeps.ite (.refl s) (WindowKeeps.ite (applyTiming_windowKeeps ..) (markLate_windowKeeps ..))
  · exact WindowKeeps.ite (.refl s) (WindowKeeps.ite (applyComposer_windowKeeps ..) (markLate_windowKeeps ..))
  · refine WindowKeeps.ite (.refl s) (WindowKeeps.ite (WindowKeeps.ite (applyLayer_windowKeeps ..).setPf
      (markLate_windowKeeps ..)) ?_)
    split
    · exact WindowKeeps.ite (.refl s) (WindowKeeps.ite (applyLayer_windowKeeps ..).setHead (markLate_windowKeeps ..))
    · exact .refl s
  · exact .refl s

theorem commitOp_windowKeeps (s : State) (m : Master) (p : Page) (seq : Nat) :
    WindowKeeps s (commitOp s m p seq) := by
  unfold commitOp
  split
  · exact (WindowKeeps.refl s).commitResult
  · exact (stageShadow_windowKeeps ..).trans (commitTiming_windowKeeps ..)

/-! Refusals. -/

theorem refuse_windowKeeps (s : State) (m : Master) (p : Page) (c : Cause) (off full : Nat) :
    WindowKeeps s (s.refuse m p c off full) := by
  unfold State.refuse
  extract_lets old t u last
  have shown : WindowKeeps s u := by
    unfold u
    split
    · exact (WindowKeeps.refl s).setHd.hwBits.setReg.hwBits
    · exact (WindowKeeps.refl s).setHd.hwBits
  split
  case h_4 => exact shown
  all_goals exact WindowKeeps.ite shown.logAdd.setLog shown

theorem b4Reject_windowKeeps (s : State) (h target : Nat) (c : Cause) : WindowKeeps s (b4Reject s h target c) :=
  (WindowKeeps.refl s).setPr.count.event

/-! The native writes of the LEGACY block. -/

theorem b4Native_windowKeeps (s : State) (h target a : Nat) (check : State → Option Cause) {op : State → State}
    (effect : WindowKeeps s (op s)) : WindowKeeps s (b4Native s h target a check op) := by
  unfold b4Native
  split
  · exact (refuse_windowKeeps ..).trans (b4Reject_windowKeeps ..)
  · split
    · exact (refuse_windowKeeps ..).trans (b4Reject_windowKeeps ..)
    · exact effect

theorem b4Commit_windowKeeps (s : State) (h target : Nat) (p : Page) (vals : List (Nat × Nat)) :
    WindowKeeps s (b4Commit s h target p vals) := by
  unfold b4Commit
  dsimp only
  split
  · exact (refuse_windowKeeps ..).trans (b4Reject_windowKeeps ..)
  · have put := (WindowKeeps.foldl (f := fun s v => s.setShd (pageBase p + v.1) (w32 v.2)) vals s
      fun x _ => (WindowKeeps.refl x).setShd).draw
    generalize vals.foldl _ s = u at put ⊢
    have done := put.trans (commitOp_windowKeeps u.draw.2 (.func 0) p (u.draw.1 % 65536))
    split
    · exact done.trans (b4Reject_windowKeeps ..)
    · exact done

theorem headDisableOp_windowKeeps (s : State) (n : Nat) : WindowKeeps s (headDisableOp s n) :=
  WindowKeeps.ite (.refl s) (WindowKeeps.refl s).setHf.setBusy.setHead.invalidateWhere

theorem ctrlOffOp_windowKeeps (s : State) {h : Nat} {p : Page} (native : p = .timing h ∨ p = .composer h ∨ p = .dplink h) :
    WindowKeeps s (ctrlOffOp s p) := by
  have off := (WindowKeeps.refl s).setHf (p := p) (r := .ctrl) (hi := 0) (lo := 0) (v := 0) |>.setBusy (p := p) (b := true)
  rcases native with rfl | rfl | rfl
  · exact WindowKeeps.ite (.refl s) (headDisableOp_windowKeeps s h)
  · exact WindowKeeps.ite (.refl s) off.invalidateWhere
  · exact WindowKeeps.ite (.refl s) off.setHead.setLink.linkIdle

theorem b4Enable_off_windowKeeps (s : State) (h : Nat) {p : Page} (native : p = .timing h ∨ p = .composer h ∨ p = .dplink h) :
    WindowKeeps s (b4Enable s h p false) :=
  b4Native_windowKeeps s h 5 (hadr p .ctrl) _ (ctrlOffOp_windowKeeps s native)

end Sys2Proof.Machine
end

section
/-!
PROOF. The registers of the B4 window (R559 to R561, R568, R574, R575).
-/
namespace Sys2Proof.Machine

/-- An access that the window takes has its register's effect. -/
theorem b4Access_taken {s : State} (takes : WindowTakes s) (o : Nat) (op : State → State) :
    b4Access s o op = op (beginAccess s (.func 0)) := by
  obtain ⟨legacy, there, ready, mode, open_⟩ := takes
  simp [b4Access, legacy, there, ready, mode, open_]

/-! Registers of the window. -/

theorem State.b4r_setB4_ne (s : State) {o o' : Nat} (v : Word) (other : o' ≠ o) : (s.setB4 o v).b4r o' = s.b4r o' :=
  aget_aset_ne _ _ _ _ other

theorem b4Isr_only (s : State) (mask : Nat) : b4Isr s mask = { s with cyc := (b4Isr s mask).cyc, b4 := (b4Isr s mask).b4 } := rfl

theorem b4Isr_isr (s : State) (mask : Nat) : (b4Isr s mask).b4r 8 = s.b4r 8 ||| w32 mask := State.b4r_setB4 s 8 _

theorem b4KeycfgOp_takes {s : State} {v : Word} (period : fget v 11 0 ≠ 0) (slots : fget v 19 16 ≠ 0) :
    b4KeycfgOp s v = s.setB4 0x14 (v &&& 0x000F0FFF) := if_neg (by simp [period, slots])

/-- A write of B4_CTRL that resets nothing (R560). -/
theorem b4CtrlOp_plain {s : State} {v : Word} (keep : fbit v 31 = false) (beep : fbit v 3 = fbit (s.b4r 4) 3) :
    b4CtrlOp s v =
      let t := s.setB4 4 (v &&& 0xF)
      let t := if fbit (s.b4r 4) 1 == fbit v 1 then t else
        if fbit v 1 then (portStop t 0).setB4 0x18 0 else portStop t 0
      if fbit (s.b4r 4) 2 && !fbit v 2 then deClear t else t := by
  have quiet : (fbit (s.b4r 4) 3 && !fbit v 3) = false := by rw [beep]; exact Bool.and_not_self _
  simp only [b4CtrlOp, keep, quiet, Bool.false_eq_true, if_false]

theorem b4CtrlOp_keysOn {s : State} {v : Word} (keep : fbit v 31 = false) (on : fbit v 1 = true)
    (off : fbit (s.b4r 4) 1 = false) (draw : fbit v 2 = fbit (s.b4r 4) 2) (beep : fbit v 3 = fbit (s.b4r 4) 3) :
    b4CtrlOp s v = (portStop (s.setB4 4 (v &&& 0xF)) 0).setB4 0x18 0 := by
  rw [b4CtrlOp_plain keep beep]
  simp [on, off, draw]

theorem b4CtrlOp_drawOff {s : State} {v : Word} (keep : fbit v 31 = false) (off : fbit v 2 = false)
    (on : fbit (s.b4r 4) 2 = true) (keys : fbit v 1 = fbit (s.b4r 4) 1) (beep : fbit v 3 = fbit (s.b4r 4) 3) :
    b4CtrlOp s v = deClear (s.setB4 4 (v &&& 0xF)) := by
  rw [b4CtrlOp_plain keep beep]
  simp [on, off, keys]

/-! The soft reset (R561). -/

/-- Clearing EN of a head that waits for no restart touches neither the window's state nor memory. -/
theorem b4HeadSwitch_off_windowKeeps {s : State} (h : Nat) (none : s.b4.restarts = []) :
    WindowKeeps s (b4HeadSwitch s h false) := by
  have same : ({ s with b4 := { s.b4 with restarts := s.b4.restarts.filter (fun k => k != h) } } : State) = s := by
    rw [none, List.filter_nil, ← none]
  change WindowKeeps s (b4Enable (b4Enable (b4Enable _ h (.dplink h) false) h (.composer h) false) h (.timing h) false)
  rw [same]
  exact ((b4Enable_off_windowKeeps s h (.inr (.inr rfl))).trans (b4Enable_off_windowKeeps _ h (.inr (.inl rfl)))).trans
    (b4Enable_off_windowKeeps _ h (.inl rfl))

theorem b4FlipVideo_windowKeeps (s : State) (h : Nat) : WindowKeeps s (b4FlipVideo s h) :=
  WindowKeeps.ite (b4Commit_windowKeeps ..) (b4Reject_windowKeeps ..)

/-- The state of the window that a soft reset leaves, before its native writes. -/
def windowShut (s : State) : State :=
  let t := portStop (deClear (beepStop s)) 0
  { t with b4 := { t.b4 with regs := [], keyFifo := [], heldFlips := [], restarts := [], resetting := true } }

theorem beepStop_mem (s : State) : (beepStop s).mem = s.mem := by
  unfold beepStop
  extract_lets t u
  have quiet : t.mem = s.mem := by
    unfold t
    split
    · exact State.setPf_mem ..
    · rfl
  exact quiet

theorem deClear_mem (s : State) : (deClear s).mem = s.mem := rfl

theorem windowShut_mem (s : State) : (windowShut s).mem = s.mem := by
  unfold windowShut
  extract_lets t
  have kept : t.mem = (deClear (beepStop s)).mem := State.setScan_mem ..
  exact kept.trans ((deClear_mem _).trans (beepStop_mem s))

/-- The native writes of a soft reset: every head stops, and its pages take the reset values of the window. -/
theorem b4ResetOp_windowKeeps (s : State) : WindowKeeps (windowShut s) (b4ResetOp s) := by
  refine State.foldl_invariant (WindowKeeps (windowShut s)) _ _ _ (.refl _) fun t h kept => ?_
  have stopped : t.b4.restarts = [] := congrArg B4St.restarts kept.b4
  exact kept.trans (((((b4HeadSwitch_off_windowKeeps h stopped).trans (b4Commit_windowKeeps ..)).trans
    (b4Commit_windowKeeps ..)).trans (b4FlipVideo_windowKeeps ..)).trans (b4Commit_windowKeeps ..))

/-! The key FIFO (R560). -/

theorem b4ReadAccess_keyFifo {s : State} (legacy : legacyOn s = true) (there : masterThere s (.func 0) = true)
    (ready : (beginAccess s (.func 0)).ready .legacy = true) :
    let u := beginAccess s (.func 0)
    b4ReadAccess s 0x10 =
      { u with b4 := { u.b4 with keyFifo := u.b4.keyFifo.drop 1 }, answer := some ⟨0, 0x10, b4Read u 0x10⟩ } := by
  simp [b4ReadAccess, legacy, there, ready]

theorem b4Read_keyFifo {s : State} {e : Nat} {rest : List Nat} (waits : s.b4.keyFifo = e :: rest) :
    b4Read s 0x10 = w32 (2 ^ 31 + e) := by
  simp [b4Read, waits]

/-! Words for the draw engine (R574, R575). -/

theorem deMove_of_empty {s : State} (empty : s.b4.deFifo = []) : deMove s = s := by
  rw [deMove, empty]

theorem deMove_of_off {s : State} (off : s.enabled .legacy = false) : deMove s = s := by
  unfold deMove
  split
  · rfl
  · exact if_pos (Or.inl (by rw [off]; rfl))

/-- A word that a store has taken is in the ring. -/
def deMoved (s x : State) (rest : List Word) : State :=
  (({ x with b4 := { x.b4 with deFifo := rest } } : State).setPf .legacy Reg.LEGACY_DE_RING_WR 13 0
    ((s.pf .legacy Reg.LEGACY_DE_RING_WR 13 0 + 1) % 16384)).event .legacy 0

theorem deMoved_b4 (s x : State) (rest : List Word) : (deMoved s x rest).b4 = { x.b4 with deFifo := rest } :=
  (State.event_b4 ..).trans (State.setPf_b4 ..)

theorem deMoved_mem (s x : State) (rest : List Word) : (deMoved s x rest).mem = x.mem :=
  (State.event_mem ..).trans (State.setPf_mem ..)

theorem StoreParts.b4 {s t : State} (h : StoreParts s t) : t.b4 = s.b4 := by
  rw [StoreParts] at h
  rw [h]

theorem memByte_congr {s t : State} (h : t.mem = s.mem) (a : Nat) : memByte t a = memByte s a := by
  rw [memByte, h, memByte]

theorem deMove_moves {s : State} {w : Word} {rest : List Word} (waits : s.b4.deFifo = w :: rest)
    (on : s.enabled .legacy = true)
    (room : (s.pf .legacy Reg.LEGACY_DE_RING_WR 13 0 + 1) % 16384 ≠ s.pf .legacy Reg.LEGACY_DE_RING_RD 13 0)
    (ok : (busWrite s 0x17 false (deRingAddr s (s.pf .legacy Reg.LEGACY_DE_RING_WR 13 0)) (leBytes 4 w.toNat)).2 = .ok ()) :
    deMove s = deMoved s (busWrite s 0x17 false (deRingAddr s (s.pf .legacy Reg.LEGACY_DE_RING_WR 13 0))
      (leBytes 4 w.toNat)).1 rest := by
  have works : ¬ (!s.enabled .legacy ∨
      (s.pf .legacy Reg.LEGACY_DE_RING_WR 13 0 + 1) % 16384 = s.pf .legacy Reg.LEGACY_DE_RING_RD 13 0) := by simp [on, room]
  rw [deMove, waits]
  refine (if_neg works).trans ?_
  generalize busWrite s 0x17 false _ _ = r at ok ⊢
  obtain ⟨x, e⟩ := r
  obtain rfl : e = .ok () := ok
  rfl

theorem deDrain_of_still {s : State} (still : deMove s = s) : deDrain s = s := List.foldl_fixed' (fun _ => still) _

theorem deDrain_of_one {s t : State} (moves : deMove s = t) (still : deMove t = t) : deDrain s = t := by
  rw [deDrain, List.range_succ_eq_map, List.foldl_cons, moves]
  exact List.foldl_fixed' (fun _ => still) _

/-- The state in which a word waits in the FIFO. -/
def deQueued (s : State) (v : Word) : State := { s with b4 := { s.b4 with deFifo := s.b4.deFifo ++ [v], deBusy := true } }

theorem deFifoOp_queues {s : State} (v : Word) (on : fbit (s.b4r 4) 2 = true) (free : deFree s ≠ 0)
    (sound : s.b4.deError = false) : deFifoOp s v = deDrain (deQueued s v) := by
  rw [deFifoOp, if_neg (by simp [on, free]), if_neg (by simp [sound])]
  rfl

theorem deFifoOp_loses {s : State} (v : Word) (lost : fbit (s.b4r 4) 2 = false ∨ deFree s = 0) :
    deFifoOp s v = b4Isr (s.count .legacy Reg.LEGACY_DE_OVERFLOW_COUNT) (2 ^ 13) := if_pos (by simpa using lost)

theorem deDiscard_regsBut (s : State) : RegsBut s (deDiscard s) [pageBase .legacy + Reg.LEGACY_DE_RING_WR] :=
  setPf_regsBut (s := { s with b4 := { s.b4 with deFifo := [] } }) (List.mem_singleton_self _)

theorem deClear_regsBut (s : State) : RegsBut s (deClear s) [pageBase .legacy + Reg.LEGACY_DE_RING_WR] :=
  deDiscard_regsBut s

/-- A discarded stream has no word left to take. -/
theorem deDiscard_untaken (s : State) : deUntaken (deDiscard s) = 0 := by
  have ring : (deDiscard s).pf .legacy Reg.LEGACY_DE_RING_WR 13 0 = s.b4.taken % 16384 :=
    State.pf_setPf (by decide) (by decide)
  have taken : (deDiscard s).b4.taken = s.b4.taken := rfl
  rw [deUntaken, ring, taken]
  omega

theorem deClear_untaken (s : State) : deUntaken (deClear s) = 0 := deDiscard_untaken s

/-- Settles O30: an access that the window takes is its register's effect (`b4Access_taken`); the reset keeps what
`windowShut` leaves, and a word moves by `deMoved`. -/
theorem windowRegisters : Obligations.WindowRegisters := by
  refine ⟨?reset, ?resetDone, ?keycfg, ?keycfgDrop, ?keysOn, ?keyRead, ?wordWaits, ?wordMoves, ?wordLost, ?drawOff⟩
  case reset =>
    intro s takes
    have kept := b4ResetOp_windowKeeps (beginAccess s (.func 0))
    have b4 {α : Type} (f : B4St → α) : f (b4ResetOp (beginAccess s (.func 0))).b4 = f (windowShut (beginAccess s (.func 0))).b4 :=
      congrArg f kept.b4
    exact ⟨_, congrArg Host.Outcome.next (b4Access_taken takes 4 b4ResetOp), b4 B4St.resetting, b4 B4St.regs, b4 B4St.keyFifo, b4 B4St.deFifo,
      b4 B4St.deError, b4 B4St.heldFlips, b4 B4St.restarts, kept.mem.trans (windowShut_mem _)⟩
  case resetDone => exact fun s => rfl
  case keycfg =>
    intro v s u takes period slots
    refine ⟨_, congrArg Host.Outcome.next ((b4Access_taken takes 0x14 _).trans (b4KeycfgOp_takes period slots)), rfl, ?_, fun o other => ?_⟩
    · exact State.b4r_setB4 ..
    · exact State.b4r_setB4_ne _ _ other
  case keycfgDrop =>
    intro v s u takes zero
    refine ⟨_, congrArg Host.Outcome.next ((b4Access_taken takes 0x14 _).trans (if_pos zero)), rfl, ?_, ?_⟩
    · exact State.pr_setPr ..
    · exact count_regsBut (List.mem_singleton_self _)
  case keysOn =>
    intro v s u takes keep on off draw beep
    refine ⟨_, congrArg Host.Outcome.next ((b4Access_taken takes 4 _).trans (b4CtrlOp_keysOn keep on off draw beep)), rfl, ?_, ?_, ?_,
      fun p other => ?_, fun o ctrl count => ?_⟩
    · exact (State.b4r_setB4_ne _ _ (by decide)).trans (State.b4r_setB4 u 4 _)
    · exact State.b4r_setB4 ..
    · exact State.scan_setScan (u.setB4 4 (v &&& 0xF)) 0 {}
    · exact State.scan_setScan_ne (s := u.setB4 4 (v &&& 0xF)) {} other
    · exact (State.b4r_setB4_ne _ _ count).trans (State.b4r_setB4_ne u _ ctrl)
  case keyRead =>
    intro e rest s u legacy there ready waits
    refine ⟨_, congrArg Host.Outcome.next (b4ReadAccess_keyFifo legacy there ready), ?_, ?_⟩
    · rw [waits]
      rfl
    · rw [b4Read_keyFifo waits]
  case wordWaits =>
    intro v s u takes on free sound off
    have ran := (b4Access_taken takes 0x400 (fun s => deFifoOp s v)).trans (deFifoOp_queues v on free sound)
    exact ⟨_, congrArg Host.Outcome.next (ran.trans (deDrain_of_still (deMove_of_off off))), rfl⟩
  case wordMoves =>
    intro v s u wr w takes on free sound enabled empty room ok
    have queued : deQueued u v = w := by rw [deQueued, empty]; rfl
    have ran := (b4Access_taken takes 0x400 (fun s => deFifoOp s v)).trans (deFifoOp_queues v on free sound)
    have moves : deMove w = deMoved w (busWrite w 0x17 false (deRingAddr u wr) (leBytes 4 v.toNat)).1 [] :=
      deMove_moves rfl enabled room ok
    rw [queued, deDrain_of_one moves (deMove_of_empty rfl)] at ran
    obtain ⟨parts, bytes⟩ := busWrite_wrote w 0x17 false (deRingAddr u wr) (leBytes 4 v.toNat)
    rw [leBytes_length] at bytes
    generalize (busWrite w 0x17 false (deRingAddr u wr) (leBytes 4 v.toNat)).1 = x at ran parts bytes ⊢
    refine ⟨_, congrArg Host.Outcome.next ran, ?_, ?_, ?_, deMoved_mem w x [], fun a apart => ?_⟩
    · rw [deMoved_b4, parts.b4]
    · exact pf_setPf_event (p := .legacy) rfl (by decide) (by decide) (by decide) (Nat.mod_lt _ (by decide)) ..
    · exact event_bit _ .legacy 0 (by decide)
    · exact (memByte_congr (deMoved_mem w x []) a).trans (bytes a apart)
  case wordLost =>
    intro v s u takes lost
    refine ⟨_, congrArg Host.Outcome.next ((b4Access_taken takes 0x400 _).trans (deFifoOp_loses v lost)), rfl, ?_, rfl, ?_, ?_⟩
    · exact b4Isr_isr ..
    · exact State.pr_setPr u ..
    · exact count_regsBut (s := u) (List.mem_singleton_self _)
  case drawOff =>
    intro v s u takes keep off on keys beep
    refine ⟨_, congrArg Host.Outcome.next ((b4Access_taken takes 4 _).trans (b4CtrlOp_drawOff keep off on keys beep)), rfl, ?_, rfl, rfl,
      deClear_untaken _, ?_⟩
    · exact State.b4r_setB4 u 4 _
    · exact deClear_regsBut (u.setB4 4 (v &&& 0xF))

end Sys2Proof.Machine
end

section
/-!
PROOF. The draw engine of the B4 model (R574 to R577, R582).
-/
namespace Sys2Proof.Machine

/-! Commands. -/

/-- The state in which the runtime has taken the words of a command. -/
def deTaken (s : State) (words : Nat) : State := { s with b4 := { s.b4 with taken := (s.b4.taken + words) % 16384 } }

/-- The parameters of a command at the runtime's place in the stream. -/
def deParams (s : State) (len : Nat) : List Nat := (List.range len).map (fun i => deWord s (i + 1))

theorem deParams_getD (s : State) {len i : Nat} (h : i < len) : (deParams s len).getD i 0 = deWord s (i + 1) := by
  simp [deParams, List.getD_eq_getElem?_getD, h]

/-- A command whose words are all in the ring is carried out. -/
theorem deCommand_runs {s : State} {op len : Nat} {run : State → Nat → List Nat → State} (ready : deRuntime s = true)
    (whole : len < deUntaken s) (header : deHeaderOk (deWord s 0) op len = true) :
    deCommand s op len run = run (deTaken s (len + 1)) (deWord s 0) (deParams s len) := by
  have there : ¬ deUntaken s ≤ len := by omega
  simp only [deCommand, ready, there, header, decide_false, Bool.not_true, Bool.or_self, Bool.false_eq_true, if_false]
  rfl

/-! One pixel. -/

theorem dePlot_plots {s : State} {bpp base pitch o : Nat} {x y : Int} (colour : Nat)
    (inside : dePixel s bpp base pitch x y = some o) :
    dePlot s bpp base pitch x y colour = (busWrite s 0x10 false (portBase s 0 + o) (leBytes bpp colour)).1 := by
  rw [dePlot, inside]

/-- What a pixel of the frame memory leaves of the state behind the command's words. -/
theorem pixel_stored (s : State) (words a bpp colour : Nat) :
    let t := (busWrite (deTaken s words) 0x10 false a (leBytes bpp colour)).1
    BytesBut s t (Stored a bpp) ∧ StoreParts (deTaken s words) t := by
  have wrote := busWrite_wrote (deTaken s words) 0x10 false a (leBytes bpp colour)
  rw [leBytes_length] at wrote
  exact ⟨wrote.bytes, wrote.parts⟩

section
variable {s : State} {w : Nat} {p : List Nat}

theorem deFill_pixel (wide : hi16 (p.getD 3 0) = 1) (high : lo16 (p.getD 3 0) = 1) : deFill s w p =
    dePlot s (deBpp w) (p.getD 0 0) (p.getD 1 0) (hi16 (p.getD 2 0)) (lo16 (p.getD 2 0)) (p.getD 4 0) := by
  simp only [deFill, wide, high, List.range_one, List.foldl_cons, List.foldl_nil, Nat.add_zero]

theorem deCopy_pixel {v : Nat} (wide : hi16 (p.getD 6 0) = 1) (high : lo16 (p.getD 6 0) = 1)
    (reads : deRead s (deBpp w) (p.getD 0 0) (p.getD 1 0) (hi16 (p.getD 4 0)) (lo16 (p.getD 4 0)) = some v) :
    deCopy s w p =
      dePlot s (deBpp w) (p.getD 2 0) (p.getD 3 0) (hi16 (p.getD 5 0)) (lo16 (p.getD 5 0)) v := by
  simp only [deCopy, wide, high, List.range_one, List.map_cons, List.map_nil, List.zipIdx_cons, List.zipIdx_nil,
    List.foldl_cons, List.foldl_nil, Nat.add_zero, reads]

theorem deMono_pixel {b : Nat} (wide : hi16 (p.getD 5 0) = 1) (high : lo16 (p.getD 5 0) = 1)
    (reads : deRead s 1 (p.getD 0 0) (p.getD 1 0) 0 0 = some b) (opaque_ : bit w 18 = false) : deMono s w p =
      dePlot s (deBpp w) (p.getD 2 0) (p.getD 3 0) (hi16 (p.getD 4 0)) (lo16 (p.getD 4 0))
        (if bit b 7 then p.getD 6 0 else p.getD 7 0) := by
  simp [deMono, wide, high, reads, opaque_, -List.getD_eq_getElem?_getD]

theorem deLine_pixel (last : bit w 17 = false) (point : p.getD 3 0 = p.getD 2 0)
    (left : sext (hi16 (p.getD 5 0)) 16 ≤ sext (hi16 (p.getD 2 0)) 16)
    (right : sext (hi16 (p.getD 2 0)) 16 ≤ sext (hi16 (p.getD 6 0)) 16)
    (top : sext (lo16 (p.getD 5 0)) 16 ≤ sext (lo16 (p.getD 2 0)) 16)
    (bottom : sext (lo16 (p.getD 2 0)) 16 ≤ sext (lo16 (p.getD 6 0)) 16) : deLine s w p =
      dePlot s (deBpp w) (p.getD 0 0) (p.getD 1 0) (sext (hi16 (p.getD 2 0)) 16) (sext (lo16 (p.getD 2 0)) 16)
        (p.getD 4 0) := by
  simp [deLine, point, last, deLineLoop, left, right, top, bottom, -List.getD_eq_getElem?_getD]

end

/-! The runtime's reports and pointer. -/

section
variable {m : Master} {s : State}

theorem exec_streamError_reports (accepts : Accepts s m (pageBase .legacy + Reg.LEGACY_DE_REPORT)) :
    exec (.streamError m) s = .next ((deStreamError (taken s m (pageBase .legacy + Reg.LEGACY_DE_REPORT))).noteWrite
      (pageBase .legacy + Reg.LEGACY_DE_REPORT)) :=
  congrArg Host.Outcome.next (writeReg_taken (check := fun _ => none) (op := fun s => deReport s 1) accepts rfl)

theorem exec_pixelRange_reports (accepts : Accepts s m (pageBase .legacy + Reg.LEGACY_DE_REPORT)) :
    exec (.pixelRange m) s = .next ((b4Isr (taken s m (pageBase .legacy + Reg.LEGACY_DE_REPORT)) (2 ^ 11)).noteWrite
      (pageBase .legacy + Reg.LEGACY_DE_REPORT)) :=
  congrArg Host.Outcome.next (writeReg_taken (check := fun _ => none) (op := fun s => deReport s 2) accepts rfl)

/-- With no word waiting for the ring the runtime's pointer moves alone. -/
theorem deRingRdOp_still {v : Word} (empty : s.b4.deFifo = []) :
    deRingRdOp s v = s.setPf .legacy Reg.LEGACY_DE_RING_RD 13 0 (fget v 13 0) := by
  have waits : (s.setPf .legacy Reg.LEGACY_DE_RING_RD 13 0 (fget v 13 0)).b4.deFifo = [] := by
    rw [State.setPf_b4, empty]
  exact deDrain_of_still (deMove_of_empty waits)

theorem exec_deRingRdWrite_still {v : Word} (accepts : Accepts s m (pageBase .legacy + Reg.LEGACY_DE_RING_RD))
    (empty : (taken s m (pageBase .legacy + Reg.LEGACY_DE_RING_RD)).b4.deFifo = []) :
    exec (.deRingRdWrite m v) s = .next (((taken s m (pageBase .legacy + Reg.LEGACY_DE_RING_RD)).setPf .legacy
      Reg.LEGACY_DE_RING_RD 13 0 (fget v 13 0)).noteWrite (pageBase .legacy + Reg.LEGACY_DE_RING_RD)) := by
  have wrote := writeReg_taken (check := fun _ => none) (op := fun s => deRingRdOp s v) accepts rfl
  rw [deRingRdOp_still empty] at wrote
  exact congrArg Host.Outcome.next wrote

end

/-- Settles O32: a command in the ring is `deCommand_runs`, the pixel it covers `dePlot_plots`; a report and the
pointer's move are the writes of the runtime's own registers. -/
theorem drawEngine : Obligations.DrawEngine := by
  refine ⟨?fill, ?copy, ?line, ?mono, ?error, ?range, ?ring, ?idle⟩
  case fill =>
    intro o s w g u ready whole header wide high inside
    have ran := deCommand_runs (run := deFill) ready whole header
    rw [deFill_pixel (by rw [deParams_getD s (by decide)]; exact wide)
      (by rw [deParams_getD s (by decide)]; exact high)] at ran
    simp only [deParams_getD, Nat.reduceLT] at ran
    exact ⟨_, congrArg Host.Outcome.next (ran.trans (dePlot_plots _ inside)), rfl, pixel_stored s 6 _ _ _⟩
  case copy =>
    intro o v s w g u ready whole header wide high reads inside
    have ran := deCommand_runs (run := deCopy) ready whole header
    rw [deCopy_pixel (v := v) (by rw [deParams_getD s (by decide)]; exact wide)
      (by rw [deParams_getD s (by decide)]; exact high)
      (by simp only [deParams_getD, Nat.reduceLT]; exact reads)] at ran
    simp only [deParams_getD, Nat.reduceLT] at ran
    exact ⟨_, congrArg Host.Outcome.next (ran.trans (dePlot_plots _ inside)), rfl, pixel_stored s 8 _ _ _⟩
  case line =>
    intro o s w g x y u ready whole header last point left right top bottom inside
    have ran := deCommand_runs (run := deLine) ready whole header
    rw [deLine_pixel last (by simpa only [deParams_getD, Nat.reduceLT] using point)
      (by simpa only [deParams_getD, Nat.reduceLT] using left) (by simpa only [deParams_getD, Nat.reduceLT] using right)
      (by simpa only [deParams_getD, Nat.reduceLT] using top)
      (by simpa only [deParams_getD, Nat.reduceLT] using bottom)] at ran
    simp only [deParams_getD, Nat.reduceLT] at ran
    exact ⟨_, congrArg Host.Outcome.next (ran.trans (dePlot_plots _ inside)), rfl, pixel_stored s 8 _ _ _⟩
  case mono =>
    intro o b s w g u ready whole header wide high reads opaque_ inside
    have ran := deCommand_runs (run := deMono) ready whole header
    rw [deMono_pixel (b := b) (by rw [deParams_getD s (by decide)]; exact wide)
      (by rw [deParams_getD s (by decide)]; exact high)
      (by simp only [deParams_getD, Nat.reduceLT]; exact reads) opaque_] at ran
    simp only [deParams_getD, Nat.reduceLT] at ran
    exact ⟨_, congrArg Host.Outcome.next (ran.trans (dePlot_plots _ inside)), rfl, pixel_stored s 9 _ _ _⟩
  case error =>
    intro m s a accepts
    have ran := exec_streamError_reports accepts
    generalize taken s m a = x at ran ⊢
    exact ⟨_, ran, rfl, rfl, deDiscard_untaken x, b4Isr_isr .., deDiscard_regsBut x, rfl⟩
  case range =>
    intro m s a accepts
    have ran := exec_pixelRange_reports accepts
    generalize taken s m a = x at ran ⊢
    exact ⟨_, ran, b4Isr_isr .., rfl, rfl, fun _ _ => rfl, rfl⟩
  case ring =>
    intro m v s a accepts empty
    have ran := exec_deRingRdWrite_still (v := v) accepts empty
    generalize taken s m a = x at ran ⊢
    refine ⟨_, ran, ?_, ?_, State.setPf_mem x .legacy Reg.LEGACY_DE_RING_RD 13 0 (fget v 13 0)⟩
    · rw [State.pf_noteWrite]
      exact State.pf_setPf_fits (by decide) (by decide) (fget_lt v 13 0)
    · exact noteWrite_regsBut (s := x) (setPf_regsBut (s := x) (List.mem_singleton_self _))
  case idle =>
    intro s legacy busy empty level
    have idle : (legacyOn s && s.b4.deBusy && s.b4.deFifo.isEmpty &&
        s.pf .legacy Reg.LEGACY_DE_RING_WR 13 0 == s.pf .legacy Reg.LEGACY_DE_RING_RD 13 0) = true := by
      simp [legacy, busy, empty, level]
    exact ⟨_, if_pos idle, rfl, rfl, b4Isr_isr ..⟩

end Sys2Proof.Machine
end
